-- ==== Sys2Proof/Word.lean ====
section
/-! DEFINITION. The word types. The device's words are bit vectors where the spec adds, shifts or masks them; counters, indices,
addresses and field values of registers are natural numbers. -/
namespace Sys2Proof

/-- One byte. -/
abbrev Byte := BitVec 8

/-- A 32-bit register image or data word (R616). -/
abbrev DW := BitVec 32

/-- A 64-bit sequencer or tower data word. -/
abbrev Word := BitVec 64

/-- An 80-bit stored tower word: data [63:0], U 64, P 65, check bits [79:66] (R416, R419). -/
abbrev Code := BitVec 80

end Sys2Proof
end

