-- ==== Sys2Proof/Syntax.lean ====
section
/-! DEFINITION. The commands the device takes from outside: register accesses, bus and pin events, units received on its lines,
and the instants at which its own engines act. One constructor of Instr per row of spec/opcode_table.json. What a command
reads from the analogue, wire or cryptographic world (a decoded unit, a reading, a verdict) is an operand of it. -/
namespace Sys2Proof

/-- The three routes of R617. -/
inductive Route where
  | port | mgmt | twoWire
  deriving DecidableEq, Repr

/-- Kinds of the decoded units of PCIe and CXL links that line units carry (R320, R338, R368): a TLP, a DLLP, a slot of CXL.cache or CXL.mem, an ordered set
(of its own kind: SKP, training set, EIOS, EIEOS), an EDS token, a symbol of logical idle. Ethernet frames and blocks are read from the line unit
itself. -/
inductive ItemKind where
  | tlp | dllp | slot | os | skp | ts | ei | eieos | eds | idle
  deriving DecidableEq, Repr

/-- What the press needs of an IDE TLP (R385): its stream, the sub-stream (0 posted, 1 non-posted, 2 completion) and the key set that it names, the byte of the TLP at which what is
encrypted begins, the plaintext of that, whether its MAC checks, or, more, that the MAC of its aggregated group comes with a later TLP of the sub-stream. -/
structure IdeInfo where
  sid : Byte
  sub : Fin 3
  set : Fin 2
  ofs : Nat
  plain : List Byte
  macOk : Bool
  more : Bool
  deriving DecidableEq, Repr

/-- What one line unit carries of a decoded unit, as the framing of the Base Specification gives it. first, last: its first and its last byte lie here. copies:
where its bytes lie in the line unit, in the numbering of R320, one list for each lane's copy of an ordered set, one list otherwise. pre and post: where its
framing lies (R320 excludes it, R368 records it). Of the part that ends it: err, the kind of R375 of a check of its own that fails (LCRC, DLLP CRC), with the
lane, byte offset and FEC symbols of its record; ide, of an IDE TLP. -/
structure RxPart where
  kind : ItemKind
  first : Bool
  last : Bool
  copies : List (List Nat)
  pre : List Nat
  post : List Nat
  err : Option (Fin 16)
  errLane : Fin 16
  errOfs : Nat
  syms : Nat
  ide : Option IdeInfo
  deriving DecidableEq, Repr

/-- One line unit as received on every active lane (R214, R321). aside: a signal that the table of R214 does not count: an ordered set between flits, an alignment
marker, an auto-negotiation or training signal. line: its bytes as received, lowest lane first, each lane in the layout of R321 (a flit is one for all lanes;
in codeword encoding the 66-bit blocks that the codeword carries; an ordered set between flits in the form of R368). dec: of a flit, its bytes after FEC decoding
(R96). nop: the flit is an IDLE or NOP flit. parts: what it carries of decoded units. err: the kind of R375 that the line unit itself gives (2, 3, 4, 6). cells: 512-bit
cells of line bits that it completes, each with its lane counted from the link's lowest (R414); spill: line bits of it come after the last of them. cws, corr, unc, syms: FEC codewords that end in it, corrected, uncorrectable, symbols corrected.
ui and bad: bits checked against the pattern, and the numbers of those that differ, rising (R151). -/
structure RxUnit where
  aside : Bool
  line : List Byte
  dec : List Byte
  nop : Bool
  parts : List RxPart
  err : Option (Fin 16)
  errLane : Fin 16
  errOfs : Nat
  cells : List (Fin 16 × List Byte)
  spill : Bool
  cws : Nat
  corr : Nat
  unc : Nat
  syms : Nat
  ui : Nat
  bad : List Nat
  deriving DecidableEq, Repr

/-- The key that an image's KEYID names, as the Rind finds it in OTP (check 3 of R39). -/
inductive KeyVerdict where
  | unknown | production | engineering
  deriving DecidableEq, Repr


/-- The equalization fields of a training set (R95): equalization control, preset, the three coefficient fields (FS, LF and post-cursor in phase 1), and whether coefficients are
rejected. -/
structure EqInfo where
  ec : BitVec 2
  preset : BitVec 4
  c1 : BitVec 6
  c2 : BitVec 6
  c3 : BitVec 6
  reject : Bool
  deriving DecidableEq, Repr

/-- A training ordered set as the device reads it (R94, R95): whether it is a TS2, its Data Rate Supported bits from 2.5 GT/s up, Flit Mode Supported,
No Equalization Needed and equalization bypass bits, how many retimers it says are present, its equalization fields, and whether it asks for precoding. -/
structure TsInfo where
  ts2 : Bool
  rates : BitVec 7
  flit : Bool
  noEq : Bool
  bypass : Bool
  retimers : Fin 3
  eq : EqInfo
  precode : Bool
  deriving DecidableEq, Repr

/-- Where the LTSSM of the partners stands, as the Base Specification has it: the state code of LNK_PSTAT, the rate code, flit mode, the active width
code, and in equalization the phase. -/
structure LinkPos where
  state : Fin 13
  rate : Fin 7
  flit : Bool
  width : Fin 5
  phase : Fin 4
  deriving DecidableEq, Repr

/-- What a partner's request asks of a transmitter (R99, R175): a preset, or a word of coefficients. -/
inductive EqReq where
  | preset (p : Fin 11) | coef (c : BitVec 30)
  deriving DecidableEq, Repr

/-- A DLLP that a terminator receives (R117): an acknowledgement or a Nak by number, credits of a type (0 posted, 1 non-posted, 2 completion) at initialisation or after, the partner's
features, a request for ASPM L1. -/
inductive Dllp where
  | ack (seq : BitVec 12) | nak (seq : BitVec 12) | credits (fc : Fin 3) (init : Bool) (hdr data : BitVec 16) | features | pmL1
  deriving DecidableEq, Repr

/-- What a calibration pass on one slice finds (R187): finger pair, gain code, four offset codes. -/
structure SliceTrim where
  pair : Fin 28
  gain : BitVec 5
  ofs : BitVec 24
  deriving DecidableEq, Repr

/-- New codes of a transmitter (R188): impedance, linearity. -/
structure TxTrim where
  z : BitVec 10
  lin : BitVec 30
  deriving DecidableEq, Repr

/-- A foreground calibration of one receiver and its port's transmitter (R204, R205, R188): for each slice its trim, none where it fails; impedance and
linearity codes. -/
structure PortTrim where
  slices : List (Option SliceTrim)
  z : BitVec 10
  lin : BitVec 30
  deriving DecidableEq, Repr

/-- What a clock monitor declares failed (R568, R569): a quadrant reference, its PLL, the core PLL, the press, tower, vine and readout PLLs, the readout reference, AONCLK, a
single domain. -/
inductive ClkFault where
  | rclk (q : Fin 4) | qpll (q : Fin 4) | cpll | fpll | mpll (t : Fin 2) | npll | xref | xpll | aon | dom (d : Fin 39)
  deriving DecidableEq, Repr

/-- The PLLs whose lock sets a ready flag (R566). -/
inductive Pll where
  | qpll (q : Fin 4) | mpll (t : Fin 2) | xpll | tpll
  deriving DecidableEq, Repr

/-- The MCTP binding of a message (R479, R480): two-wire, or PCI Express, where the requester addressed the device as routed to the root complex or by ID, with its own ID. -/
inductive Bind where
  | twoWire | rootComplex | byId (requester : BitVec 16)
  deriving DecidableEq, Repr

/-- Number of a binding: 0 two-wire, 1 PCI Express. -/
def Bind.ix : Bind → Nat
  | .twoWire => 0
  | .rootComplex | .byId _ => 1

/-- The route by which a firmware request arrives (R461): the BAR0 mailbox, the two-wire mailbox, or an MCTP message of a binding with its bytes. -/
inductive Via where
  | mbox | twMbox | mctp (binding : Bind) (request : List Byte)
  deriving DecidableEq, Repr

/-- The instructions of the TAP (R532). debug stands for the debug and trace access of the DCLK domain. -/
inductive TapIr where
  | bypass | idcode | dbgauth | samplePreload | extest | extestPulse | extestTrain | highz | clamp | debug
  deriving DecidableEq, Repr

/-- How a two-wire write ends (R490 to R495): a STOP after its last byte, with the PEC byte if one was sent; a STOP or repeated START before it; a byte more
than its form has. -/
inductive TwEnd where
  | stop (pec : Option Byte) | early | over
  deriving DecidableEq, Repr

/-- How an attempt of the device as controller ends (R506): the last byte acknowledged, arbitration lost, an address or byte answered NAK. -/
inductive TwTry where
  | acked | lost | nak
  deriving DecidableEq, Repr

/-- What the host has set in configuration space beside Bus Master Enable and the power state (R444): Memory Space Enable, MSI-X Enable and Function Mask, the base addresses of BAR0 and BAR2,
the codes of Max_Payload_Size and Max_Read_Request_Size. -/
structure PortCfg where
  mse : Bool
  msixEn : Bool
  msixMask : Bool
  bar0 : BitVec 64
  bar2 : BitVec 64
  mps : Fin 8
  mrrs : Fin 8
  deriving DecidableEq, Repr

/-- The commands: one constructor per row of spec/opcode_table.json. The rows stand in the table's order in three groups, so that a compiled program
can build those of the first and the last (a constructor with fields and a number past 243 has no run-time form): the rows with operands; the register
writes that REGISTER_WRITE can make too; the rows without operands. -/
inductive Instr where
  /-- POR (R599). Power-on reset releases 1 ms after the group 1 and 2 supplies are in range, or is caused by an always-on supply falling out of range; the device starts in ROM with every port DARK. -/
  | por (addr rdly : Fin 8)
  /-- CHIP_RESET (R599). DEV_CMD 0x04 causes a chip reset to ROM, acting as a PIN reset. -/
  | chipReset (r : Route)
  /-- REF_PRESENT (R31). The presence detector first sees edges on a reference and the RDLY wait for that reference starts. -/
  | refPresent (ref : Fin 5)
  /-- REF_WAIT_END (R31). The RDLY wait for a reference ends; the PLLs fed by it start, BREF is chosen once, and a late quadrant reference sets QREF_OK. -/
  | refWaitEnd (ref : Fin 5)
  /-- FW_MBX_GO (R42). A GO takes FW_MBX_LEN bytes from the window at FW_MBX_OFS into the image, failing with 0x08 on a wrong offset or 0x07 on the other route. -/
  | fwMbxGo (r : Route) (target : Fin 4)
  /-- FW_MBX_ABORT (R49). ABORT discards the load owned by either route and returns to ROM or leaves the idle bank empty. -/
  | fwMbxAbort (r : Route) (target : Fin 4)
  /-- FW_MBX_DONE (R648). DONE marks the mailbox image complete and starts the checks of R39. -/
  | fwMbxDone (r : Route) (target : Fin 4)
  /-- IMAGE_CHECK_DONE (R39). The Rind ends the image checks in order; on success firmware starts in INIT or HR_PEND sets, and on failure LASTERR is set and the device returns to ROM. -/
  | imageCheckDone (key : KeyVerdict) (keyid sig hash : Bool)
  /-- INIT_STEP_DONE (R649). An INIT step ends within its maximum and the next step starts, through self-test and sweep to SERVICE or HOLD. -/
  | initStepDone (tsvs : List (Fin 2 × Fin 16 × Fin 160)) (words : List (BitVec 38 × Fin 5))
  /-- ENTER_IDLE (R26). DEV_CMD ENTER_IDLE moves SERVICE to IDLE with towers in self-refresh if every path counts as DARK and no harvest descriptor is active. -/
  | enterIdle (r : Route) (busy : BitVec 39)
  /-- EXIT_IDLE (R27). DEV_CMD EXIT_IDLE returns to SERVICE within 1 ms with towers active and every path DARK. -/
  | exitIdle (r : Route) (busy : BitVec 39)
  /-- ENTER_STANDBY (R53). DEV_CMD ENTER_STANDBY, valid only in IDLE, stops threads, disarms matchers and switches domains to STANDBY conditions. -/
  | enterStandby (r : Route)
  /-- STANDBY_WAKE (R28). A two-wire address match, a readout link exit from L1 or L2, or RESET_N wakes the device from STANDBY to IDLE with self-tests, hash check and trim restore. -/
  | standbyWake (hashOk : Bool)
  /-- HOT_SWITCH (R56). DEV_CMD HOT_SWITCH makes the running firmware work toward a quiescent point before switching to the idle bank. -/
  | hotSwitch (r : Route)
  /-- MODE_SWITCH (R77). A pending mode change takes effect at its named or chosen unit on every lane of the link, cancelling queue entries and admitting DELAY and replay. -/
  | modeSwitch (p : Fin 512)
  /-- MODE_CHANGE_TIMEOUT (R78). When no unit arrives within 1 µs of an accepted host change, the change takes effect at the end of that 1 µs. -/
  | modeChangeTimeout (p : Fin 512)
  /-- MODE_FROM_DARK_EFFECT (R79). A change out of DARK takes effect within 50 µs, after PDA power-on and any foreground calibration, presenting receiver termination and setting the position to 0. -/
  | modeFromDarkEffect (p : Fin 512)
  /-- UNIT_DECODE (R214). A unit received on a path is decoded and counted in its line position, feeding matchers, capture, delay line and armed actions. -/
  | unitDecode (p : Fin 512) (same : Bool) (u : RxUnit)
  /-- TRAINING_ORDERED_SET (R98). A training ordered set on a kind R PCIe link is forwarded with the alterations of R95 and advances the pseudo-ports through the LTSSM stages. -/
  | trainingOrderedSet (L : Fin 256) (side : Fin 2) (ts : TsInfo) (tgt : LinkPos)
  /-- EQ_PRESET_REQUEST (R99). A partner's preset or coefficient request is applied to the device's transmitter within 500 ns. -/
  | eqPresetRequest (r : Fin 512) (req : EqReq)
  /-- EQ_PHASE_DONE (R100). A pseudo-port receiver completes its evaluation in phase 2 or 3 within 8 ms, raising the lane event if the error target is missed. -/
  | eqPhaseDone (r : Fin 512) (missed : Bool)
  /-- SKP_ORDERED_SET (R102). At each SKP Ordered Set the elastic buffer adds or removes one granule, or applies a pending SKPADJ. -/
  | skpOrderedSet (p : Fin 512) (drift : Fin 3)
  /-- EB_RECENTRE (R103). An elastic buffer underflow or overflow is re-centred at the next SKP Ordered Set, setting EBERR and raising the path event. -/
  | ebRecentre (p : Fin 512) (overflow : Bool) (units : Nat)
  /-- MARGIN_COMMAND (R105). A lane margining command addressed to the device's receivers is answered using the shadow slice, pausing rotation. -/
  | marginCommand (n : Fin 256) (side : Fin 2) (c : BitVec 16)
  /-- MARGIN_TIMEOUT (R106). 100 ms after the last margining command, the shadow rotation resumes. -/
  | marginTimeout (r : Fin 512)
  /-- LINK_POWER_STATE (R108). The link enters or exits L0s, L1, L1 substates, L2 or L0p and the device follows, adding its exit latency. -/
  | linkPowerState (L : Fin 256) (st : Fin 13) (idled : BitVec 16) (dirs : BitVec 2)
  /-- GSB_PERST (R111). Assertion of a GSB pin configured as PERST# returns both pseudo-ports to Detect and raises the path event. -/
  | gsbPerst (g : Fin 16) (i : Fin 4) (level : Bool)
  /-- CXL_NEGOTIATION (R113). Modified TS2 sets completing alternate protocol negotiation set LNK_PSTAT.FMT, and a mismatch with PROTO sets PMIS. -/
  | cxlNegotiation (L : Fin 256) (fmt : Fin 4)
  /-- LT_RX_TLP (R119). A TLP received by a terminator is stored in packet buffer cells and a receive descriptor is written to the receive ring. -/
  | ltRxTlp (t : Fin 32) (slot checkOk ecrc ep ecrcBad : Bool) (seq : BitVec 12) (bytes : List Byte)
  /-- LT_TX_DESCRIPTOR (R122). The terminator takes a transmit descriptor and sends, drops or skips it, assigning sequence numbers and check fields. -/
  | ltTxDescriptor (t : Fin 32)
  /-- LT_TLP_ACK (R123). The partner's acknowledgement of a sent TLP frees its handle and returns data credits. -/
  | ltTlpAck (t : Fin 32) (d : Dllp)
  /-- LT_FC_INIT (R124). At flow-control initialisation the terminator advertises header and data credits from its ring size and buffer share. -/
  | ltFcInit (t : Fin 32)
  /-- AN_FAILURE (R133). Auto-negotiation fails to resolve on a segment, so it restarts, ANFAIL sets and the path event is raised. -/
  | anFailure (L : Fin 256) (side : Fin 2)
  /-- SEGMENT_DATA_MODE (R134). An Ethernet segment finishes training; its transmitter sends Local Fault until the other segment is in data mode, then forwards. -/
  | segmentDataMode (L : Fin 256) (side : Fin 2) (st : Fin 5) (corr unc sym : BitVec 32)
  /-- SEGMENT_LOSS (R135). A segment leaves data mode and the device sends Local Fault toward the other segment's partner, draining DELAY lines first. -/
  | segmentLoss (L : Fin 256) (side : Fin 2) (st : Fin 4)
  /-- LT_ETH_RX_FRAME (R143). A frame received by an Ethernet terminator is delivered as a TYPE 0x03 descriptor or discarded and counted in RXDROP. -/
  | ltEthRxFrame (t : Fin 32) (fcsBad : Bool) (bytes : List Byte)
  /-- LT_ETH_TX_FRAME (R144). An Ethernet terminator sends a transmit descriptor's frame unpadded with at least IPG bytes of idle after it. -/
  | ltEthTxFrame (t : Fin 32)
  /-- PATTERN_LOCK (R151). After 256 consecutive error-free UI the pattern checker sets LOCK and starts counting errors. -/
  | patternLock (p : Fin 512)
  /-- DELAY_CHANGE_EFFECT (R155). A changed delay takes effect at its unit, inserting filler for an increase or discarding units for a decrease. -/
  | delayChangeEffect (p : Fin 512)
  /-- SIGNAL_DETECT_CHANGE (R165). The receiver amplitude crosses a detection level and SIGDET follows within 10 ns. -/
  | signalDetectChange (r : Fin 512) (mv : BitVec 12)
  /-- CDR_LOCK (R161). The CDR locks, LOCK reads 1 and a holdover transmitter moves back to the recovered clock. -/
  | cdrLock (r : Fin 512)
  /-- ADAPTATION_DONE (R161). Initial adaptation completes and ADAPTED reads 1, after which FREEZE applies. -/
  | adaptationDone (r : Fin 512) (ctle : BitVec 5) (dfe : BitVec 7)
  /-- LOSS_OF_LOCK (R166). The CDR loses lock on a non-DARK path, setting LOL and raising the lane event unless expected. -/
  | lossOfLock (r : Fin 512) (expected : Bool)
  /-- SSC_SETTING_APPLY (R173). A changed TX_CLK takes effect when the spread profile next reaches its highest frequency. -/
  | sscSettingApply (r : Fin 512)
  /-- RX_DETECT_DONE (R179). Receiver detection finishes within 100 µs and RXDET reports the result. -/
  | rxDetectDone (r : Fin 512) (present : Bool)
  /-- QUAL_WINDOW_END (R182). A quality measurement window ends and, with AUTO = 1, QUAL_EYE and QUAL_BER reload together and SEQ increments. -/
  | qualWindowEnd (r : Fin 512) (eye : BitVec 32) (ber : BitVec 16) (noError : Bool) (ofs : BitVec 8) (ofsIdx : Fin 4)
  /-- CAL_RUN_START (R195). A queued lane's run starts when the grove has a free run slot, two receivers of one lane at a time. -/
  | calRunStart (g : Fin 16)
  /-- CAL_PASS_DONE (R198). A calibration pass ends and is compared with the previous one, running another pass, failing the step or retiring the slice. -/
  | calPassDone (x : Fin 512) (found : Option SliceTrim)
  /-- CAL_SWAP (R190). After an agreeing pass the shadow slice swaps into its role between two units, completing the run at step 5. -/
  | calSwap (x : Fin 512) (tx : Option TxTrim)
  /-- CAL_REQUEUE (R199). 1,024 housekeeping rounds after a failed run, the receiver is queued again unless it is stuck. -/
  | calRequeue (x : Fin 512)
  /-- CAL_NO_UNIT_TIMEOUT (R203). No unit for 10 ms abandons the calibration step and requeues the receiver at the next round. -/
  | calNoUnitTimeout (x : Fin 512)
  /-- WRITEBACK_DONE (R211). A write-back ends with the directory entry written, or with RESULT 0x05 and the calibration event on a read-back mismatch. -/
  | writebackDone (differs : Bool)
  /-- FOREGROUND_CAL_DONE (R205). A 3 ms foreground calibration of a lane leaving DARK ends, keeping previous values for failing slices. -/
  | foregroundCalDone (n : Fin 256) (a b : PortTrim)
  /-- TREF_FRAME (R229). A 100 µs TREF frame is received at a root, checked by CRC and against the count, acquiring, slewing or stepping the epoch. -/
  | trefFrame (sync : Bool) (epochBytes : BitVec 64) (crc : BitVec 8) (late : Nat)
  /-- TL_SET (R232). A host write to TL_SET sets the named trigger line, recording the epoch of a rising edge. -/
  | tlSet (r : Route) (i : Fin 64) (same : Bool)
  /-- TL_CLR (R232). A host write to TL_CLR clears the named trigger line. -/
  | tlClr (r : Route) (i : Fin 64) (same : Bool)
  /-- TL_PULSE_END (R232). A pulse line set 8 ns earlier without a further set returns low. -/
  | tlPulseEnd (i : Fin 64)
  /-- VINE_PORT_STATE (R235). A vine port goes up or down; VP0 down loses the epoch and VP0 up sends held trigger requests. -/
  | vinePortState (i : Fin 4) (st : Fin 4)
  /-- VINE_EPOCH_FRAME (R242). A received EPOCH frame advances acquisition or, with VALID = 0, makes the node lose its epoch. -/
  | vineEpochFrame (epoch : BitVec 64) (valid : Bool) (hops : Nat) (parent : BitVec 16)
  /-- VINE_DREQ (R239). A parent receives a DREQ, stamps t2 and answers with a DRSP carrying t2 and t3. -/
  | vineDreq (i : Fin 4) (seq : BitVec 16) (turn : Nat)
  /-- VINE_DRSP (R239). A child receives a DRSP, stamps t4 and updates its averaged hop delay and offset. -/
  | vineDrsp (seq : BitVec 16) (t2 t3 : BitVec 64) (wait : Nat)
  /-- VINE_STATUS_FRAME (R237). A node receives a STATUS frame from a child. -/
  | vineStatusFrame (i : Fin 4) (id : BitVec 16) (hops : Nat) (valid miss : Bool)
  /-- VINE_TRIGUP (R238). A TRIGUP frame is forwarded toward the root within 250 ns, or admitted at the root. -/
  | vineTrigup (i : Fin 4) (origin : BitVec 16) (vl : Fin 16) (clear : Bool) (t : BitVec 64) (lateO : Bool)
  /-- VINE_TRIG (R245). A TRIG frame is forwarded up and held until T, or acted on at once if late, detecting sequence gaps. -/
  | vineTrig (seq origin : BitVec 16) (vl : Fin 16) (clear : Bool) (t : BitVec 64) (lateO : Bool)
  /-- VINE_TRIGGER_ACT (R245). A held trigger's time T arrives and the operation is applied to its vine line at the first TCLK edge. -/
  | vineTriggerAct (same : Bool)
  /-- SEQ_STEP (R255). STEP makes a HALTED thread issue exactly one instruction. -/
  | seqStep (r : Route) (g : Fin 16) (threads : BitVec 4) (adv : Nat)
  /-- GROVE_RESET (R259). A GROVE reset halts threads, cancels armed actions silently, sets paths DARK and clears the grove memories. -/
  | groveReset (g : Fin 16)
  /-- GROVE_CLEAR_DONE (R259). Clearing of grove memories ends within 20 µs and CLRBUSY returns to 0. -/
  | groveClearDone (g : Fin 16)
  /-- NOP (R286). NOP does nothing for one slot. -/
  | nop (g : Fin 16) (t : Fin 4)
  /-- HALT (R286). HALT moves the thread to HALTED. -/
  | halt (g : Fin 16) (t : Fin 4)
  /-- YIELD (R286). YIELD occupies two slots and issues nothing in the second. -/
  | yield (g : Fin 16) (t : Fin 4)
  /-- FENCE (R286). FENCE completes when earlier trigger changes, stores and EVT messages have reached their destinations. -/
  | fence (g : Fin 16) (t : Fin 4)
  /-- ADD (R286). ADD writes rs1 + rs2 modulo 2^64, setting Z, C and M. -/
  | add (g : Fin 16) (t : Fin 4)
  /-- SUB (R286). SUB writes rs1 − rs2 modulo 2^64 with C as the borrow. -/
  | sub (g : Fin 16) (t : Fin 4)
  /-- AND (R286). AND writes the bitwise AND. -/
  | and (g : Fin 16) (t : Fin 4)
  /-- OR (R286). OR writes the bitwise OR. -/
  | or (g : Fin 16) (t : Fin 4)
  /-- XOR (R286). XOR writes the bitwise exclusive OR. -/
  | xor (g : Fin 16) (t : Fin 4)
  /-- SHL (R286). SHL shifts rs1 left by rs2[5:0]. -/
  | shl (g : Fin 16) (t : Fin 4)
  /-- SHR (R286). SHR shifts rs1 right logically by rs2[5:0]. -/
  | shr (g : Fin 16) (t : Fin 4)
  /-- MUL (R286). MUL writes the low 64 bits of the unsigned product in two slots. -/
  | mul (g : Fin 16) (t : Fin 4)
  /-- ADDI (R286). ADDI adds a sign-extended 32-bit immediate. -/
  | addi (g : Fin 16) (t : Fin 4)
  /-- ANDI (R286). ANDI ANDs a zero-extended immediate. -/
  | andi (g : Fin 16) (t : Fin 4)
  /-- ORI (R286). ORI ORs a zero-extended immediate. -/
  | ori (g : Fin 16) (t : Fin 4)
  /-- LDI (R286). LDI loads a zero-extended immediate. -/
  | ldi (g : Fin 16) (t : Fin 4)
  /-- LDHI (R286). LDHI loads an immediate into bits [63:32]. -/
  | ldhi (g : Fin 16) (t : Fin 4)
  /-- LD (R287). LD loads a data memory word, faulting with CAUSE 0x3 at addresses of 4,096 or more. -/
  | ld (g : Fin 16) (t : Fin 4)
  /-- ST (R287). ST stores a data memory word, faulting with CAUSE 0x3 at addresses of 4,096 or more. -/
  | st (g : Fin 16) (t : Fin 4)
  /-- BR (R289). BR branches when the flag condition in F[17:14] holds. -/
  | br (g : Fin 16) (t : Fin 4)
  /-- BEQ (R288). BEQ branches when rs1 equals rs2. -/
  | beq (g : Fin 16) (t : Fin 4)
  /-- BNE (R288). BNE branches when rs1 differs from rs2. -/
  | bne (g : Fin 16) (t : Fin 4)
  /-- BLT (R288). BLT branches when rs1 is less than rs2, signed. -/
  | blt (g : Fin 16) (t : Fin 4)
  /-- BGE (R288). BGE branches when rs1 is at least rs2, signed. -/
  | bge (g : Fin 16) (t : Fin 4)
  /-- CALL (R288). CALL pushes the return address and branches. -/
  | call (g : Fin 16) (t : Fin 4)
  /-- RET (R288). RET pops the return stack and branches to the popped address. -/
  | ret (g : Fin 16) (t : Fin 4)
  /-- LOOP (R288). LOOP falls through on zero, otherwise decrements and branches while non-zero. -/
  | loop (g : Fin 16) (t : Fin 4)
  /-- WPOS (R290). WPOS waits until a path's position reaches P, with guard limit and GEN-change outcome. -/
  | wpos (g : Fin 16) (t : Fin 4)
  /-- WEPOCH (R270). WEPOCH waits until the epoch reaches T with VALID = 1. -/
  | wepoch (g : Fin 16) (t : Fin 4)
  /-- RPOS (R290). RPOS reads a path's position at this slot. -/
  | rpos (g : Fin 16) (t : Fin 4)
  /-- REPOCH (R290). REPOCH reads the epoch and sets E when VALID = 0. -/
  | repoch (g : Fin 16) (t : Fin 4)
  /-- WANY (R291). WANY reads a four-word condition block and waits for any enabled condition. -/
  | wany (g : Fin 16) (t : Fin 4)
  /-- WMATCH (R290). WMATCH waits until a matcher's hit count differs from a register value. -/
  | wmatch (g : Fin 16) (t : Fin 4)
  /-- TWAIT (R290). TWAIT waits until a trigger line has the named level. -/
  | twait (g : Fin 16) (t : Fin 4)
  /-- WAIT_COMPLETE (R271). A wait's condition is detected and the thread resumes at its first slot at least two cycles later with outcome 0x00. -/
  | waitComplete (g : Fin 16) (t : Fin 4)
  /-- WAIT_LIMIT (R267). The guard path receives L units and the wait completes with outcome 0x01 after the matcher hold. -/
  | waitLimit (g : Fin 16) (t : Fin 4)
  /-- MODE (R294). MODE arms a mode change of a path at a named position or epoch. -/
  | mode (g : Fin 16) (t : Fin 4) (adv : Nat)
  /-- TRAIN_RECOVERY (R296). TRAIN op 0b000 sends the terminator into Recovery, or restarts Ethernet link training. -/
  | trainRecovery (g : Fin 16) (t : Fin 4)
  /-- TRAIN_HOT_RESET (R296). TRAIN op 0b001 performs a Hot Reset as Downstream Port. -/
  | trainHotReset (g : Fin 16) (t : Fin 4)
  /-- TRAIN_DISABLE (R296). TRAIN op 0b010 enters Disabled. -/
  | trainDisable (g : Fin 16) (t : Fin 4)
  /-- TRAIN_RESTART (R296). TRAIN op 0b011 leaves Disabled or restarts from Detect, or restarts Ethernet auto-negotiation. -/
  | trainRestart (g : Fin 16) (t : Fin 4)
  /-- RATE (R298). RATE sets a terminator's target rate, entering Recovery at once from L0. -/
  | rate (g : Fin 16) (t : Fin 4)
  /-- RATE_PPM (R299). RATE.PPM writes a register as TX_PPM of the path's transmitter. -/
  | ratePpm (g : Fin 16) (t : Fin 4)
  /-- EQ (R299). EQ writes a register as TX_FIR of the path's transmitter. -/
  | eq (g : Fin 16) (t : Fin 4)
  /-- EQ_LVL (R299). EQ.LVL writes a register as TX_LVL of the path's transmitter. -/
  | eqLvl (g : Fin 16) (t : Fin 4)
  /-- ARM (R300). ARM loads a matcher from a data memory block, clears its counts and enables it. -/
  | arm (g : Fin 16) (t : Fin 4)
  /-- DISARM (R301). DISARM disables a matcher from the next decoded unit, keeping its counts. -/
  | disarm (g : Fin 16) (t : Fin 4)
  /-- RMATCH (R302). RMATCH reads a matcher's hit count, last-hit position or last-hit stamp. -/
  | rmatch (g : Fin 16) (t : Fin 4)
  /-- CAPON (R303). CAPON arms capture on for a stream from a named unit. -/
  | capon (g : Fin 16) (t : Fin 4) (adv : Nat)
  /-- CAPOFF (R303). CAPOFF arms capture off for a stream from a named unit. -/
  | capoff (g : Fin 16) (t : Fin 4) (adv : Nat)
  /-- CAPMARK (R303). CAPMARK arms a MARK record at a named unit. -/
  | capmark (g : Fin 16) (t : Fin 4) (adv : Nat)
  /-- CAPSEL (R306). CAPSEL assigns a stream to a punnet and priority class at once. -/
  | capsel (g : Fin 16) (t : Fin 4)
  /-- FILT (R303). FILT selects a path's capture filter from the next decoded unit. -/
  | filt (g : Fin 16) (t : Fin 4)
  /-- INJ (R308). INJ queues an injection action for a named unit. -/
  | inj (g : Fin 16) (t : Fin 4) (adv : Nat)
  /-- ERRB (R310). ERRB queues a burst of inverted line bits at a named unit. -/
  | errb (g : Fin 16) (t : Fin 4) (adv : Nat)
  /-- DLY (R311). DLY arms a change of PATH_DLY.CELLS at a named unit. -/
  | dly (g : Fin 16) (t : Fin 4) (adv : Nat)
  /-- SKPADJ (R312). SKPADJ arms a one-granule adjustment of the first SKP Ordered Set at or after a named position. -/
  | skpadj (g : Fin 16) (t : Fin 4) (adv : Nat)
  /-- TSET (R315). TSET sets a trigger line. -/
  | tset (g : Fin 16) (t : Fin 4) (same : Bool)
  /-- TCLR (R315). TCLR clears a trigger line. -/
  | tclr (g : Fin 16) (t : Fin 4) (same : Bool)
  /-- VSEND (R315). VSEND requests a vine trigger with a delivery epoch. -/
  | vsend (g : Fin 16) (t : Fin 4)
  /-- CNTR (R316). CNTR reads a selected counter or state into a register. -/
  | cntr (g : Fin 16) (t : Fin 4)
  /-- EVT (R317). EVT sends a kind 0xE message from a path's event source. -/
  | evt (g : Fin 16) (t : Fin 4)
  /-- EVT_G (R317). EVT.G sends a kind 0xE message from the grove's source 768 + 8g + 7. -/
  | evtG (g : Fin 16) (t : Fin 4)
  /-- CAPTURE_SWITCH (R333). Capture switches of matchers, programs and host commands take effect at their unit in order of precedence, with EVENT records. -/
  | captureSwitch (p : Fin 512)
  /-- INJ_ENTRY_FIRE (R347). Injection entries reach their target and are applied in order, superseded, missed or cancelled, and each is logged. -/
  | injEntryFire (p : Fin 512)
  /-- INSERT_SEARCH_EXPIRE (R349). An insert that finds no long enough idle run within 65,536 units is logged as missed. -/
  | insertSearchExpire (g : Fin 16) (e : Fin 64)
  /-- STRM_CMD_TIMEOUT (R355). A host capture switch with no unit arriving takes effect at the end of 1 µs. -/
  | strmCmdTimeout (p : Fin 512)
  /-- ELIDE_RUN_CLOSE (R377). 1 µs after a filler run's first unit the run closes and its ELIDE record is formed. -/
  | elideRunClose (p : Fin 512)
  /-- ADMISSION_WINDOW (R383). Every 128 ns each tower admits staged records by class within its budget, dropping the rest and writing GAP records. -/
  | admissionWindow (t : Fin 2)
  /-- PUNNET_LINE_TRIGGER (R361). A rising edge of the punnet's trigger line triggers a ring punnet in READY, or is ignored in FILL. -/
  | punnetLineTrigger (k : Fin 256)
  /-- XTS_UNIT_REWRITE (R388). 100 µs after a data unit's first byte, its partial ciphertext is written again whole. -/
  | xtsUnitRewrite (k : Fin 256)
  /-- REPLAY_SEND (R391). A replaying SOURCE path sends the next rebuilt unit, or filler for a missing span, at one unit per unit time. -/
  | replaySend (p : Fin 512)
  /-- REFRESH_COMMAND (R397). At each command interval a channel issues a refresh of 12 rows per bank, at the rate its die temperature selects. -/
  | refreshCommand (t : Fin 2) (c : Fin 16) (pc : Fin 2)
  /-- REFRESH_MANAGEMENT (R400). A bank's activation count reaching THRESH refreshes the neighbours of its most active rows. -/
  | refreshManagement (t : Fin 2) (c : Fin 16) (pc : Fin 2) (bank : Fin 16)
  /-- TOWER_CLEAR_DONE (R406). A tower clear finishes its slabs and RESULT reads 0x00. -/
  | towerClearDone (t : Fin 2)
  /-- CHAN_RESET_DONE (R410). A CHAN reset ends within 40 µs with the channel retrained, repairs re-applied and out of self-refresh. -/
  | chanResetDone (t : Fin 2) (c : Fin 16)
  /-- BURST_REWRITE (R420). Within 1 ms of a double outcome the scrub engine rewrites the 64-byte burst corrected. -/
  | burstRewrite (t : Fin 2)
  /-- SCRUB_BURST (R424). The patrol scrubber reads and rewrites the next 64-byte burst of its channel, counting TSV errors. -/
  | scrubBurst (t : Fin 2) (c : Fin 16)
  /-- QUEUED_SOFT_REPAIR_START (R427). A soft repair queued under AUTOSOFT starts when no other repair runs and NVMPEND has room. -/
  | queuedSoftRepairStart (t : Fin 2)
  /-- SOFT_REPAIR_DONE (R435). The bank maps the row to the spare and held accesses are released within 2 µs. -/
  | softRepairDone (t : Fin 2)
  /-- HARD_REPAIR_DONE (R475). A hard repair ends with the fuse verified, the channel retrained and the row cleared. -/
  | hardRepairDone (t : Fin 2)
  /-- TSV_SWAP_DONE (R440). The spare TSV is trained and selected, and accesses resume within 10 µs. -/
  | tsvSwapDone (t : Fin 2)
  /-- RETIRE_DONE (R442). Channel retirement ends after the NVM entry and tower sweep, with the retired ceilings. -/
  | retireDone (t : Fin 2)
  /-- PORT_RESET (R445). PERST_N, Hot Reset, FLR or link-down resets the readout port's registers and ends harvest descriptors without write-back. -/
  | portReset (kind : Fin 4)
  /-- BUS_MASTER_CHANGE (R446). Bus Master Enable or D3hot changes, stopping or resuming harvest requests. -/
  | busMasterChange (bme d3hot : Bool) (cfg : PortCfg)
  /-- BAR2_READ (R449). A BAR2 read reaches tower memory through its aperture, waits for bandwidth, or completes with Completer Abort. -/
  | bar2Read (x : BitVec 36) (len : Nat)
  /-- BAR2_WRITE (R449). A BAR2 write is stored, discarded with WRDISC or refused with BADADDR. -/
  | bar2Write (x : BitVec 36) (bytes : List Byte) (en : List Bool)
  /-- HARVEST_RAW (R457). An engine copies a RAW descriptor's tower range to host memory and writes the descriptor back. -/
  | harvestRaw (e : Fin 8) (desc : Option (List Byte))
  /-- HARVEST_RECORDS (R458). An engine walks a punnet's records to the head snapshot, inserting markers, and writes the descriptor back. -/
  | harvestRecords (e : Fin 8) (desc : Option (List Byte))
  /-- GET_INFO (R468). GET_INFO returns the running firmware version, SVN and bank state. -/
  | getInfo (v : Via)
  /-- GET_MEAS (R476). GET_MEAS returns one measurement block. -/
  | getMeas (v : Via)
  /-- GET_EVENTS (R471). GET_EVENTS removes and returns up to 62 records from the host event queue. -/
  | getEvents (v : Via)
  /-- NVM_READ (R468). NVM_READ returns bytes of the NVM store as stored. -/
  | nvmRead (v : Via)
  /-- CAL_WRITEBACK (R468). The mailbox CAL_WRITEBACK command carries out the calibration write-back. -/
  | calWriteback (v : Via) (differs : Bool)
  /-- BUDGET (R473). BUDGET computes each tower's worst-case demand against its ceiling and optionally sets AUTO. -/
  | budget (v : Via)
  /-- EVENT_DRAIN (R469). The firmware takes a hardware event buffer entry into the host event queue within 100 µs. -/
  | eventDrain (parity : Bool)
  /-- MGMT_RESET (R477). A MGMT reset restarts the core from its bank after the Rind's hash check, leaving traffic functions running. -/
  | mgmtReset (hashOk : Bool)
  /-- SET_ENDPOINT_ID (R479). MCTP Set Endpoint ID assigns the endpoint's EID. -/
  | setEndpointId (b : Bind) (eid : Byte) (wide : Option Bool)
  /-- GET_ENDPOINT_ID (R479). MCTP Get Endpoint ID returns the EID. -/
  | getEndpointId (b : Bind)
  /-- GET_MCTP_VERSION_SUPPORT (R479). MCTP Get MCTP Version Support returns supported versions. -/
  | getMctpVersionSupport (b : Bind)
  /-- GET_MESSAGE_TYPE_SUPPORT (R479). MCTP Get Message Type Support returns supported message types. -/
  | getMessageTypeSupport (b : Bind)
  /-- GET_ENDPOINT_UUID (R479). MCTP Get Endpoint UUID returns the UUID. -/
  | getEndpointUuid (b : Bind)
  /-- GET_VERSION (R481). SPDM GET_VERSION returns the supported version. -/
  | getVersion (b : Bind)
  /-- GET_CAPABILITIES (R481). SPDM GET_CAPABILITIES returns capabilities. -/
  | getCapabilities (b : Bind)
  /-- NEGOTIATE_ALGORITHMS (R481). SPDM NEGOTIATE_ALGORITHMS selects P-384, SHA-384, secp384r1 and AES-256-GCM. -/
  | negotiateAlgorithms (b : Bind)
  /-- GET_DIGESTS (R481). SPDM GET_DIGESTS returns the digest of certificate slot 0. -/
  | getDigests (b : Bind)
  /-- GET_CERTIFICATE (R516). SPDM GET_CERTIFICATE returns the slot 0 chain. -/
  | getCertificate (b : Bind) (slot : Fin 8) (ofs len : BitVec 16)
  /-- CHALLENGE (R481). SPDM CHALLENGE is answered with a device-key signature. -/
  | challenge (b : Bind) (slot : Fin 8)
  /-- GET_MEASUREMENTS (R476). SPDM GET_MEASUREMENTS returns measurement blocks, signed or not. -/
  | getMeasurements (b : Bind) (slot : Fin 8) (index : Byte) (signed : Bool)
  /-- KEY_EXCHANGE (R481). SPDM KEY_EXCHANGE opens a session, refused beyond two sessions. -/
  | keyExchange (b : Bind) (slot : Fin 8)
  /-- FINISH (R481). SPDM FINISH completes session establishment. -/
  | finish (b : Bind) (id : BitVec 16)
  /-- HEARTBEAT (R481). SPDM HEARTBEAT keeps a session alive. -/
  | heartbeat (b : Bind) (id : BitVec 16)
  /-- KEY_UPDATE (R481). SPDM KEY_UPDATE updates session keys. -/
  | keyUpdate (b : Bind) (id : BitVec 16)
  /-- END_SESSION (R481). SPDM END_SESSION ends a session. -/
  | endSession (b : Bind) (id : BitVec 16)
  /-- IDENT (R489). Two-wire IDENT returns 8 identification bytes. -/
  | twIdent (a : BitVec 7) (extra : Bool) (n : Nat)
  /-- STATE (R489). Two-wire STATE returns 4 state bytes. -/
  | twState (a : BitVec 7) (extra : Bool) (n : Nat)
  /-- EVENTSUM (R503). Two-wire EVENTSUM returns a summary and the newest 15 or fewer records without removing them. -/
  | eventsum (a : BitVec 7) (extra : Bool) (n : Nat)
  /-- MCTP_PACKET (R508). A two-wire MCTP block write delivers a DSP0237 packet, or is NAK'd while firmware cannot take it. -/
  | mctpPacket (a : BitVec 7) (block : List Byte) (room : Bool) (e : TwEnd)
  /-- REGRD (R501). Two-wire REGRD reads BAR0 DWs with the management view, sending 0xFFFF_FFFF for failed DWs. -/
  | regrd (a : BitVec 7) (count : Byte) (ofs : BitVec 32) (len : Byte) (e : TwEnd) (late n : Nat)
  /-- REGWR (R502). Two-wire REGWR writes its DWs at the STOP in ascending order. -/
  | regwr (a : BitVec 7) (block : List Byte) (e : TwEnd)
  /-- FWCHUNK (R45). Two-wire FWCHUNK appends up to 240 image bytes at the current total. -/
  | fwchunk (a : BitVec 7) (data : List Byte) (e : TwEnd)
  /-- FWDONE (R47). Two-wire FWDONE starts the image checks, failing with 0x01 if bytes are missing. -/
  | fwdone (a : BitVec 7) (e : TwEnd)
  /-- ALERTCFG (R489). Two-wire ALERTCFG sets the alert host address, enable and cause mask after its STOP. -/
  | alertcfg (a : BitVec 7) (b0 b1 : Byte) (e : TwEnd)
  /-- BUSCFG (R490). Two-wire BUSCFG sets TW_CFG, ADDR2 and MASK after its STOP. -/
  | buscfg (a : BitVec 7) (b0 b1 b2 b3 : Byte) (e : TwEnd)
  /-- TW_TIMEOUT (R499). MSCL low, or MSDA held low with MSCL high, for 30 ms takes a TW reset. -/
  | twTimeout (cut : Option Bool)
  /-- ALERT (R505). A pending enabled cause sends an alert write to HOSTADDR no sooner than 1 ms after the previous alert. -/
  | alert (o : TwTry)
  /-- ALERT_RETRY (R506). After a failed attempt the alert or MCTP packet is retried once the bus is free, up to 8 times. -/
  | alertRetry (mctp : Bool) (o : TwTry)
  /-- TW_CONFIG_WRITE (R510). A write to TW_CFG, TW_ADDR, TW_SETUP, TW_CCLK or TW_ALERT takes effect at the next START. -/
  | twConfigWrite (r : Route) (reg : Fin 5) (v : DW)
  /-- OPEN (R518). RND_CMD OPEN verifies the operator, performs ECDH and derives the KLK, consuming the nonce. -/
  | rndOpen (ok : Bool)
  /-- LOADPK (R521). RND_CMD LOADPK unwraps and loads a punnet XTS key pair. -/
  | loadpk (punnet : Byte) (plain : Option (List Byte))
  /-- GENPK (R522). RND_CMD GENPK draws a punnet key pair from the DRBG. -/
  | genpk (punnet : Byte)
  /-- LOADIDE (R521). RND_CMD LOADIDE unwraps and loads an IDE key set of a binding. -/
  | loadide (binding arg1 : Byte) (plain : Option (List Byte))
  /-- CLEARKEY (R523). RND_CMD CLEARKEY destroys one punnet key or IDE key set, stopping its punnet or clearing SYNC. -/
  | clearkey (index arg1 : Byte)
  /-- ADVSVN (R525). RND_CMD ADVSVN blows anti-rollback fuses up to ARG0, discarding a staged image below it. -/
  | advsvn (counter : Byte)
  /-- ENROLL (R517). RND_CMD ENROLL writes an operator key hash into an OTP slot. -/
  | enroll (slot : Byte)
  /-- REVOKE (R517). RND_CMD REVOKE blows the revoked bit of an operator slot. -/
  | revoke (slot : Byte)
  /-- DBGUNLOCK (R533). RND_CMD DBGUNLOCK verifies a token, zeroises secrets and sets the debug level. -/
  | dbgunlock (ok : Bool)
  /-- DECOMMISSION (R536). RND_CMD DECOMMISSION makes the device key unusable and zeroises. -/
  | decommission (arg0 : Byte)
  /-- TAP_DBGAUTH (R533). A token shifted through the TAP's DBGAUTH register is verified as a debug unlock. -/
  | tapDbgauth (token : List Byte) (ok : Bool)
  /-- TAP_INSTRUCTION (R532). A TAP instruction is served if the debug level allows it, otherwise BYPASS is selected. -/
  | tapInstruction (i : TapIr)
  /-- RIND_SELFTEST_DONE (R527). The Rind's pre-operational self-tests end within 20 ms, offering services or entering the error state. -/
  | rindSelftestDone (ok : Bool)
  /-- CLOCK_FAILURE (R569). A monitor declares a reference, PLL or domain failed and safe-state actions are forced within 20 ns. -/
  | clockFailure (f : ClkFault)
  /-- CLK_RUN_WRITE (R577). A write clearing a run enable is refused with GATEERR unless the domain's gate condition holds. -/
  | clkRunWrite (r : Route) (hi : Bool) (v : DW) (busy : BitVec 39)
  /-- GATE_APPLY (R578). A held gate takes effect when the domain's bridge becomes idle. -/
  | gateApply (d : Fin 39)
  /-- GATE_FORCE (R578). A gate still pending after 10 µs is forced with the domain's reset and a TIMEOUT event. -/
  | gateForce (d : Fin 39)
  /-- FM_DONE (R582). A frequency measurement ends and its results are reported. -/
  | fmDone (count : BitVec 48) (fmax fmin mean : BitVec 16) (modf : BitVec 12) (crossings : Nat)
  /-- PDA_POWER_ON (R584). PDA g finishes switching on 20 µs after a change out of DARK was accepted. -/
  | pdaPowerOn (g : Fin 16)
  /-- PDA_POWER_OFF (R584). 1 ms after the last path of the grove enters DARK, PDA g switches off. -/
  | pdaPowerOff (g : Fin 16)
  /-- HK_CONVERSION (R590). The sampler converts one housekeeping channel in 10 µs, raising events for invalid readings or supplies out of range. -/
  | hkConversion (ch : Fin 96) (value : BitVec 16) (valid : Bool) (second : BitVec 16) (secondValid : Bool)
  /-- DROOP (R592). A grove supply dip of more than 50 mV raises source 1032 + g and increments DROOP_CNT. -/
  | droop (g : Fin 16) (report : Bool)
  /-- PAIR_LOW_READ (R616). A read of the low register of a 64-bit pair latches its high register for the next read. -/
  | pairLowRead (r : Route) (a : BitVec 24) (n : Nat)
  /-- REGISTER_WRITE (R6). A write to any register without a row of its own stores its fields, keeping fields given reserved encodings. -/
  | registerWrite (r : Route) (a : BitVec 24) (vs : List DW) (whole : Bool)
  /-- PLL_LOCK (R566). QPLL, MPLL, XPLL or TPLL achieves lock and its ready flag in CLK_STAT sets. -/
  | pllLock (pll : Pll)
  /-- TERMINATOR_TRAINING (R116). Training ordered sets received by a link terminator advance its own LTSSM through Polling, Configuration, Recovery, equalization and L0, setting LT_STAT and DLUP. -/
  | terminatorTraining (t : Fin 32) (st : Fin 16) (rate : Fin 7) (flit cxl : Bool) (width : Fin 5) (reversed : Bool) (inverted : BitVec 16)
  /-- REPLAY_TIMER_EXPIRY (R117). A terminator's replay timer runs out and it replays unacknowledged TLPs, counting LT_CNT.REPLAYS. -/
  | replayTimerExpiry (t : Fin 32)
  /-- RC_FIELD_READ (R501). A read of a register with RC fields returns their value and clears them. -/
  | rcFieldRead (r : Route) (a : BitVec 24) (n : Nat)
  /-- TEST_WINDOW_DONE (R428). A test window operation completes within 2 µs, BUSY clears and RESULT and OUTCOME are set. -/
  | testWindowDone (t : Fin 2)
  /-- RESERVED_OPCODE (R318). A thread issues an instruction word whose OP is reserved and stops in FAULTED with CAUSE 0x1 and a program check event. -/
  | reservedOpcode (g : Fin 16) (t : Fin 4) (parity : Bool)
  /-- LINK_CFG_WRITE (R63). A write to a link table entry is stored or refused with GRV_LINKERR under the listed cases. -/
  | linkCfgWrite (r : Route) (g : Fin 16) (k : Fin 16) (v : DW)
  /-- LT_CFG_WRITE (R72). A write to LT_CFG is ignored while its link is not DARK, on a raw link, or when the other terminator holds the same side. -/
  | ltCfgWrite (r : Route) (g : Fin 16) (t : Fin 2) (v : DW)
  /-- PATH_MODE_WRITE (R76). A host write to PATH_MODE is accepted or refused at its acceptance instant against the pairing, terminator and transition rules, and CODE is set. -/
  | pathModeWrite (r : Route) (n : Fin 256) (v : DW)
  /-- PATH_SRC_WRITE (R90). A write to PATH_SRC is stored unless the path is in SOURCE, or is refused under R71. -/
  | pathSrcWrite (r : Route) (p : Fin 512) (v : DW)
  /-- LNK_PCI_WRITE (R93). A write to LNK_PCI takes effect at once if the link is DARK, or at the next entry to Detect otherwise. -/
  | lnkPciWrite (r : Route) (L : Fin 256) (v : DW)
  /-- LT_PCI_CFG_WRITE (R129). A write to LT_PCI_CFG is ignored with GRV_LINKERR while any lane of the terminator's link is not DARK. -/
  | ltPciCfgWrite (r : Route) (t : Fin 32) (v : DW)
  /-- LT_RING_WRITE (R120). A write to LT_RXRING or LT_TXRING is ignored with GRV_LINKERR if the ring passes word 4,095 or the link is not DARK. -/
  | ltRingWrite (r : Route) (t : Fin 32) (tx : Bool) (v : DW)
  /-- LNK_ETH_WRITE (R130). A write to LNK_ETH is ignored as a whole for an unlisted combination or a non-DARK link, except CLEANALL and AMALIGN. -/
  | lnkEthWrite (r : Route) (L : Fin 256) (v : DW)
  /-- LT_ETH_CFG_WRITE (R145). A write to LT_ETH_CFG is ignored with GRV_LINKERR while the terminator's link is not DARK. -/
  | ltEthCfgWrite (r : Route) (t : Fin 32) (v : DW)
  /-- RAW_RATE_WRITE (R146). A write to RAW_RATE of the lowest lane sets the raw link rate, and is ignored out of range, on other lanes, or on a non-DARK link. -/
  | rawRateWrite (r : Route) (n : Fin 256) (v : DW)
  /-- PATH_PAT_WRITE (R150). A write to PATH_PAT selects the pattern and checker, and is ignored if UBASE + ULEN exceeds 4,096. -/
  | pathPatWrite (r : Route) (p : Fin 512) (v : DW)
  /-- PATH_DLY_WRITE (R152). A write of CELLS is checked against the enabled regions' bounds and ignored with PATH_DLYSTAT.ERR if too large. -/
  | pathDlyWrite (r : Route) (p : Fin 512) (v : DW)
  /-- TX_PPM_WRITE (R170). A write to TX_PPM offsets the synthesiser of generated units, or is ignored with TXERR out of range. -/
  | txPpmWrite (r : Route) (x : Fin 512) (v : DW)
  /-- TX_CLK_WRITE (R172). A write to TX_CLK sets spread depth and frequency, or is ignored with TXERR out of range. -/
  | txClkWrite (r : Route) (x : Fin 512) (v : DW)
  /-- TX_FIR_WRITE (R174). A write to TX_FIR is checked against the tap ranges and sums, and applied within 500 ns if in use, or ignored with TXERR. -/
  | txFirWrite (r : Route) (x : Fin 512) (v : DW)
  /-- TX_LVL_WRITE (R177). A write to TX_LVL sets swing and inner-level trim within 500 ns, or is ignored with TXERR out of range. -/
  | txLvlWrite (r : Route) (x : Fin 512) (v : DW)
  /-- DETREQ (R179). Writing DETREQ = 1 on an idle transmitter starts receiver detection; otherwise it is ignored. -/
  | detreq (r : Route) (x : Fin 512) (ctl : BitVec 3)
  /-- QUAL_SNAP (R182). Writing SNAP = 1 loads the last completed window's figures and increments SEQ. -/
  | qualSnap (r : Route) (x : Fin 512) (ctl : BitVec 4)
  /-- WRITEBACK (R210). CAL_CMD 0x1 snapshots trims and writes them into the non-current NVM copy, then its directory entry. -/
  | writeback (r : Route)
  /-- RECAL (R196). CAL_CMD 0x2 queues both receivers of a lane and clears their stuck state. -/
  | recal (r : Route) (n : Fin 256)
  /-- FOREGROUND (R204). CAL_CMD 0x3 marks a lane for foreground calibration at its next exit from DARK. -/
  | foreground (r : Route) (n : Fin 256)
  /-- VIN_SEND (R243). A host VIN_SEND GO requests a vine trigger, sending TRIGUP with LATEO if late or holding up to 4 while VP0 is down. -/
  | vinSend (r : Route) (vl : Fin 16) (clear : Bool)
  /-- VIN_CTL_WRITE (R247). A write changing ROOT or node ID makes the node lose and reacquire its epoch, keeping held triggers. -/
  | vinCtlWrite (r : Route) (node : Bool) (v : DW)
  /-- MATCH_CMD_ARM (R327). A host MATCH_CMD with ARM = 1 arms a matcher as ARM does. -/
  | matchCmdArm (r : Route) (g : Fin 16) (m : Fin 32) (block : BitVec 12)
  /-- MATCH_CMD_DISARM (R327). A host MATCH_CMD with DISARM = 1 disarms a matcher as DISARM does. -/
  | matchCmdDisarm (r : Route) (g : Fin 16) (m : Fin 32)
  /-- INJ_CANCEL (R352). INJ_CMD with CANCEL = 1 cancels a waiting entry. -/
  | injCancel (r : Route) (g : Fin 16) (e : Fin 64)
  /-- STRM_CFG_WRITE (R354). A write to STRM_CFG assigns punnet and class, or is ignored with CFGERR while capture is on or pending. -/
  | strmCfgWrite (r : Route) (p : Fin 512) (v : DW)
  /-- STRM_ON (R355). STRM_CMD ON turns capture on at the first unit 64 past the current position. -/
  | strmOn (r : Route) (p : Fin 512)
  /-- STRM_OFF (R355). STRM_CMD OFF turns capture off at the first unit 64 past the current position. -/
  | strmOff (r : Route) (p : Fin 512)
  /-- PUN_CFG_WRITE (R357). A write to PUN_CFG enables, changes or disables a punnet, or is ignored with CFGERR. -/
  | punCfgWrite (r : Route) (k : Fin 256) (v : DW)
  /-- PUN_TRIG (R361). PUN_CMD TRIG triggers a ring punnet in READY, writing a TRIGGER record and entering POST. -/
  | punTrig (r : Route) (k : Fin 256)
  /-- PUN_RESTART (R364). PUN_CMD RESTART in STOPPED resets head, tail and counts and enters FILL or RUN. -/
  | punRestart (r : Route) (k : Fin 256)
  /-- PUN_FLUSH (R388). PUN_CMD FLUSH writes the encrypted punnet's partial data unit whole. -/
  | punFlush (r : Route) (k : Fin 256)
  /-- RPL_CFG_WRITE (R393). A write to RPL_CFG configures replay, and is ignored while the path is in SOURCE. -/
  | rplCfgWrite (r : Route) (p : Fin 512) (v : DW)
  /-- TOWER_CLEAR (R405). TWR_CLR GO starts clearing slabs to zero with U = 1, or is refused. -/
  | towerClear (r : Route) (t : Fin 2) (first count : BitVec 12)
  /-- CH_RESET (R410). CH_CMD.RESET starts a CHAN reset keeping contents, unless refused under R411. -/
  | chReset (r : Route) (t : Fin 2) (c : Fin 16)
  /-- DLR_CFG_WRITE (R412). A write to DLR_CFG enables or disables a delay-line region, or is ignored with CFGERR. -/
  | dlrCfgWrite (r : Route) (p : Fin 512) (v : DW)
  /-- REP_SOFT (R435). REP_CMD SOFT maps a row to a spare row, copying its words while accesses are held. -/
  | repSoft (r : Route) (t : Fin 2)
  /-- REP_HARD (R434). REP_CMD HARD fuses a spare row on a drained tower through the firmware. -/
  | repHard (r : Route) (t : Fin 2)
  /-- REP_TSV (R440). REP_CMD TSV swaps a TSV for a spare while the tower's bandwidth counts as zero. -/
  | repTsv (r : Route) (t : Fin 2) (c : Fin 16) (lane : Fin 160)
  /-- REP_RETIRE (R441). REP_CMD RETIRE takes a channel out of use, applying the remapping and withdrawing slabs. -/
  | repRetire (r : Route) (t : Fin 2) (c : Fin 16)
  /-- TST_READ (R428). TST_CMD READ reads a word through the decoder and reports the outcome. -/
  | tstRead (r : Route) (t : Fin 2)
  /-- TST_READRAW (R428). TST_CMD READRAW reads the 80 stored bits without decoding. -/
  | tstReadraw (r : Route) (t : Fin 2)
  /-- TST_WRITE (R428). TST_CMD WRITE writes a word with computed check bits. -/
  | tstWrite (r : Route) (t : Fin 2)
  /-- TST_WRITERAW (R428). TST_CMD WRITERAW writes data, tags and check bits exactly as given. -/
  | tstWriteraw (r : Route) (t : Fin 2)
  /-- LOG_FREE (R423). ERR_LOGACK FREE frees one error log entry. -/
  | logFree (r : Route) (t : Fin 2) (e : Fin 64)
  /-- LOG_FREE_ALL (R423). ERR_LOGACK ALL frees every error log entry. -/
  | logFreeAll (r : Route) (t : Fin 2)
  /-- HV_PROD_WRITE (R454). A write to HV_PROD posts descriptors to a harvest engine, or is ignored with CFGERR if out of range. -/
  | hvProdWrite (r : Route) (e : Fin 8) (v : DW)
  /-- HV_ABORT (R460). HV_CTL.ABORT ends the descriptor at its next 4 KiB burst with 0x05 and clears EN. -/
  | hvAbort (r : Route) (e : Fin 8)
  /-- HV_ENABLE (R460). A write of HV_CTL.EN starts or stops an engine taking descriptors. -/
  | hvEnable (r : Route) (e : Fin 8) (en : Bool)
  /-- MB_DOORBELL (R465). MB_CTL.DOORBELL posts the BAR0 mailbox request to the firmware, or is discarded with ERR while pending. -/
  | mbDoorbell (r : Route)
  /-- TW_MB_DOORBELL (R504). TW_MBCTL.DOORBELL posts the two-wire mailbox request to the firmware. -/
  | twMbDoorbell (r : Route)
  /-- KICK (R478). A write of MGT_CTL.KICK restarts the watchdog. -/
  | kick (r : Route)
  /-- STATUS_CLEAR (R556). A W1C of FLT_STAT clears a status bit, which sets again within 1 µs while a persistent cause holds. -/
  | statusClear (r : Route) (i : Fin 36) (v : DW)
  /-- FIRST_FAULT_CLEAR (R551). Writing FLT_FIRST_SRC.VALID = 1 clears the first-fault record. -/
  | firstFaultClear (r : Route)
  /-- FAULTN_CLR (R554). Writing FLT_CTL.FAULTN_CLR = 1 releases FAULT_N. -/
  | faultnClr (r : Route) (irqen : Bool)
  /-- FLT_SEV_WRITE (R546). A write to FLT_SEV sets a source's reaction and class, with source 1051 fixed and reserved sources discarded. -/
  | fltSevWrite (r : Route) (src : Fin 1152) (v : DW)
  /-- FLT_INJ_ARM (R559). FLT_INJ ARM arms a checker to invert check bits on its next checks, or is refused. -/
  | fltInjArm (r : Route) (v : DW)
  /-- CLK_RESTART (R571). CLK_CMD GO restarts the failed domains of a target, or is refused. -/
  | clkRestart (r : Route) (target : Fin 16)
  /-- CLK_SEL_WRITE (R567). A write to CLK_SEL.HSRC starts a glitch-free switch, or is refused if the source is not ready. -/
  | clkSelWrite (r : Route) (v : DW)
  /-- FM_GO (R581). FM_CTL GO starts a frequency count or spread-profile measurement, or is refused with ERR. -/
  | fmGo (r : Route) (v : DW)
  /-- PWR_OFF_WRITE (R585). A write to PWR_OFF switches a permitted domain off or on, returning its registers to reset values on power-on. -/
  | pwrOffWrite (r : Route) (hi : Bool) (v : DW)
  /-- RST_MGMT (R601). RST_CMD KIND MGMT requests a MGMT reset. -/
  | rstMgmt (r : Route)
  /-- RST_GROVE (R601). RST_CMD KIND GROVE requests a GROVE reset of a grove, refused while its PDG is off. -/
  | rstGrove (r : Route) (g : Fin 16)
  /-- CU_FEED8 (R606). A write to CU_FEED8 feeds one byte to a check unit. -/
  | cuFeed8 (r : Route) (u : Fin 8) (v : DW)
  /-- CU_FEED16 (R606). A write to CU_FEED16 feeds two bytes to a check unit. -/
  | cuFeed16 (r : Route) (u : Fin 8) (v : DW)
  /-- CU_FEED32 (R606). A write to CU_FEED32 feeds four bytes to a check unit. -/
  | cuFeed32 (r : Route) (u : Fin 8) (v : DW)
  /-- CU_INIT (R605). CU_CMD.INIT loads the initial value, clears CU_CNT and clears AVALID. -/
  | cuInit (r : Route) (u : Fin 8)
  /-- CU_CTL_WRITE (R611). A write to CU_CTL changing POLY performs INIT, and a LEN not above CU_CNT ends the message at once. -/
  | cuCtlWrite (r : Route) (u : Fin 8) (v : DW)
  /-- CU_STAT_WRITE (R610). A write to CU_STAT sets AVALID as written and clears other bits as W1C. -/
  | cuStatWrite (r : Route) (u : Fin 8) (v : DW)
  /-- F5_CTL_WRITE (R638). A write to F5_CTL places groves in or out of the MRN-5104 profile with a GROVE reset and built-in program start, or sets CTLERR. -/
  | f5CtlWrite (r : Route) (v : DW)
  /-- F5_MODE_WRITE (R642). A write to a forerunner mode word is carried out as native link, source and mode writes, or refused with CODE. -/
  | f5ModeWrite (r : Route) (g j : Fin 16) (v : DW)
  /-- SEQ_GO (R255). GO starts a HALTED or FAULTED thread at SEQ_TSTART, emptying its return stack and clearing CAUSE, unless refused under R257. -/
  | seqGo (r : Route) (g : Fin 16) (threads : BitVec 4)
  /-- SEQ_STOP (R255). STOP halts a thread at its next slot, ending any wait without an outcome. -/
  | seqStop (r : Route) (g : Fin 16) (threads : BitVec 4)
  /-- SEQ_REGS_WRITE (R275). A write to a thread's register is stored unless the thread is RUNNING or WAITING, which sets SEQ_CTL.ERR. -/
  | seqRegsWrite (r : Route) (g : Fin 16) (t : Fin 4) (i : Fin 32) (hi : Bool) (v : DW)
  /-- MEM_LOW_HALF_WRITE (R252). A write of the low half of a 64-bit memory word is held in its route's staging register. -/
  | memLowHalfWrite (r : Route) (g : Fin 16) (data : Bool) (w : Fin 16384) (v : DW)
  /-- MEM_HIGH_HALF_WRITE (R252). A write of the high half commits the 64-bit word in one step and empties the staging register. -/
  | memHighHalfWrite (r : Route) (g : Fin 16) (data : Bool) (w : Fin 16384) (v : DW)
  /-- PIN_RESET (R600). A low level on RESET_N of 500 ns or more causes a PIN reset that takes the device to ROM, carrying preserved towers through under R408. -/
  | pinReset
  /-- CPLL_LOCK (R567). When CPLLRDY sets, the ROM switches HCLK and PCLK from AONCLK to CPLL and later starts MPLL, FPLL and NPLL. -/
  | cpllLock
  /-- READOUT_READY (R35). The readout port becomes ready for enumeration within 80 ms of PERST_N release and the end of the XREFCLK wait. -/
  | readoutReady
  /-- HOT_SWITCH_QUIESCENT (R57). The quiescent point is reached; event buffering starts, the old firmware stops and the bank switches. -/
  | hotSwitchQuiescent
  /-- HOT_SWITCH_TIMEOUT (R56). No quiescent point within 500 ms refuses the switch with RESULT 0x04 and LASTERR 0x0A. -/
  | hotSwitchTimeout
  /-- FW_READY (R56). New firmware reports ready; HR_PEND clears, RESULT reads 0x00 and buffered events and held traps are delivered. -/
  | fwReady
  /-- SWITCH_BACK (R58). New firmware not ready within 200 ms of the bank switch makes the hardware switch back with LASTERR 0x0B. -/
  | switchBack
  /-- TREF_EDGE_LOSS (R229). No TREF rising edge for 100 ns makes a root lose its epoch, stopping it and raising the timebase event. -/
  | trefEdgeLoss
  /-- EPOCH_SLEW_TICK (R226). Every 10 µs while an offset below 8 ticks remains, the epoch is slewed by one tick without running backward. -/
  | epochSlewTick
  /-- VINE_EPOCH_SEND (R237). Every 100 µs a node sends an EPOCH frame down with its epoch, VALID, hop count and ID. -/
  | vineEpochSend
  /-- EPOCH_FRAME_TIMEOUT (R242). No EPOCH frame for 300 µs makes a non-root node lose its epoch. -/
  | epochFrameTimeout
  /-- VINE_DREQ_SEND (R237). Every 1 ms a child sends a DREQ stamped t1 on VP0. -/
  | vineDreqSend
  /-- VINE_STATUS_SEND (R237). Every 1 ms a node sends a STATUS frame up. -/
  | vineStatusSend
  /-- ROOT_TRIGGER_ADMIT (R244). The root admits a waiting request once fewer than 64 triggers are held, numbers it and sends TRIG. -/
  | rootTriggerAdmit
  /-- NVM_REPAIR_APPEND (R436). The firmware appends a repair entry to the soft repair list within 5 ms, decrementing NVMPEND. -/
  | nvmRepairAppend
  /-- BAR2_STARVE (R450). A BAR2 read that has waited 10 ms completes with Completer Abort and sets STARVE. -/
  | bar2Starve
  /-- BUDGET_AUTO_CHECK (R474). Every 1 s or on a ceiling change with AUTO = 1, the budget check repeats and raises the event on a new WARN. -/
  | budgetAutoCheck
  /-- WATCHDOG_EXPIRE (R478). No KICK for 1 s restarts the management core by a MGMT reset. -/
  | watchdogExpire
  /-- TW_REPEATED_START_ABORT (R495). A repeated START where an acknowledge was due abandons the transaction and raises the bus event. -/
  | twRepeatedStartAbort
  /-- NONCE (R537). RND_CMD NONCE provides a fresh nonce. -/
  | nonce
  /-- CLOSE (R519). RND_CMD CLOSE ends the Crypto Officer session and discards the KLK. -/
  | close
  /-- ZEROISE (R523). RND_CMD ZEROISE destroys every volatile secret. -/
  | zeroise
  /-- SELFTEST (R528). RND_CMD SELFTEST repeats the pre-operational self-tests. -/
  | selftest
  /-- FAULT_MESSAGE (R557). The collector takes a coded message from its input queue, sets the status bit, applies the reaction with escalation and latches the first fault. -/
  | faultMessage
  /-- CLOCK_RESTART_DONE (R571). A clock restart completes, with GROVE resets for a quadrant or towers leaving self-refresh. -/
  | clockRestartDone
  /-- CLOCK_SWITCH_DONE (R567). An accepted clock switch completes within 64 cycles and SWBUSY clears. -/
  | clockSwitchDone
  /-- HOUSEKEEPING_ROUND_END (R591). At the end of a 0.96 ms round the device applies refresh and ceiling changes, the throttle step, warning events and calibration queuing. -/
  | housekeepingRoundEnd
  /-- RESET_N_RELEASE (R599). RESET_N returns high after a PIN reset and the device reaches ROM within 10 µs. -/
  | resetNRelease
  /-- PERST_N_RELEASE (R35). PERST_N is released and the readout port starts to train, answering configuration requests with Request Retry Status. -/
  | perstNRelease
  /-- AONCLK_READY (R566). About 50 µs after POR release AONCLK comes within tolerance and AONRDY sets, after which HCLK and PCLK failures fall back instead of latching CLKFAIL_EARLY. -/
  | aonclkReady
  /-- RIND_COMMAND_DONE (R537). An RND_CMD command that took time ends and RESULT leaves 0x01 with its final code and output. -/
  | rindCommandDone
  deriving DecidableEq, Repr

end Sys2Proof
end

