-- ==== Sys2Proof/Machine/Crc.lean ====
section
/-! DEFINITION. The cyclic checks of the device: CRC-32C, CRC-32, CRC-16-CCITT, CRC-8 and CRC-64 (R228, R365, R493, R604). -/
namespace Sys2Proof.Machine

/-- One bit of a reflected CRC: the low bit leaves. -/
def crcBitR (poly v : Nat) : Nat := if v % 2 = 1 then Nat.xor (v / 2) poly else v / 2

/-- One bit of a CRC that is not reflected, of width w. -/
def crcBitN (w poly v : Nat) : Nat := if v / 2 ^ (w - 1) % 2 = 1 then Nat.xor (v * 2 % 2 ^ w) poly else v * 2 % 2 ^ w

/-- Apply a function n times. -/
def iterN (f : Nat → Nat) : Nat → Nat → Nat
  | 0, v => v
  | n + 1, v => iterN f n (f v)

/-- An algorithm of R604: width, polynomial (reversed when reflected), initial value, reflected, final XOR. -/
structure CrcAlg where
  width : Nat
  poly : Nat
  init : Nat
  refl : Bool
  fin : Nat
  deriving DecidableEq, Repr

/-- One byte fed to the running value. -/
def crcByte (a : CrcAlg) (v : Nat) (b : Byte) : Nat :=
  if a.refl then iterN (crcBitR a.poly) 8 (Nat.xor v b.toNat)
  else iterN (crcBitN a.width a.poly) 8 (Nat.xor v (b.toNat * 2 ^ (a.width - 8)))

/-- The running value over bytes. -/
def crcBytes (a : CrcAlg) (l : List Byte) : Nat := l.foldl (crcByte a) a.init

/-- The result over bytes. -/
def crcOf (a : CrcAlg) (l : List Byte) : Nat := Nat.xor (crcBytes a l) a.fin

def crc32c : CrcAlg := ⟨32, 0x82F63B78, 0xFFFFFFFF, true, 0xFFFFFFFF⟩
def crc32 : CrcAlg := ⟨32, 0xEDB88320, 0xFFFFFFFF, true, 0xFFFFFFFF⟩
def crc16 : CrcAlg := ⟨16, 0x1021, 0xFFFF, false, 0⟩
def crc8 : CrcAlg := ⟨8, 0x07, 0, false, 0⟩
def crc64 : CrcAlg := ⟨64, 0x42F0E1EBA9EA3693, 0, false, 0⟩

/-- The algorithm that POLY selects (R604). -/
def crcSel : Nat → CrcAlg
  | 0 => crc32c
  | 1 => crc32
  | 2 => crc16
  | 3 => crc8
  | _ => crc64

end Sys2Proof.Machine
end

