-- ==== Sys2Proof/Machine/Aes.lean ====
section
/-! DEFINITION. AES-256 in XTS mode over one data unit of whole blocks (R387), as FIPS 197 and IEEE 1619, which the spec names, define it. -/
namespace Sys2Proof.Machine

/-- Product of two bytes in GF(2^8) modulo x^8 + x^4 + x^3 + x + 1, over the low n bits of the second. -/
def gfMul (a : Nat) : Nat → Nat → Nat
  | 0, _ => 0
  | n + 1, b => Nat.xor (if b % 2 = 1 then a else 0) (gfMul (if 128 ≤ a then Nat.xor (2 * a % 256) 0x1B else 2 * a) n (b / 2))

/-- a * b. -/
def gf (a b : Nat) : Nat := gfMul a 8 b

/-- The inverse of a byte, its power 254; of 0 it is 0. -/
def gfInv (a : Nat) : Nat :=
  let a2 := gf a a
  let a3 := gf a2 a
  let a12 := gf (gf a3 a3) (gf a3 a3)
  let a15 := gf a12 a3
  let a240 := (List.range 4).foldl (fun x _ => gf x x) a15
  gf (gf a240 a12) a2

/-- A byte rotated left by k bits. -/
def rotl8 (b k : Nat) : Nat := (b * 2 ^ k % 256) + b * 2 ^ k / 256

/-- S-box of a byte: the affine image of its inverse. -/
def sboxOf (b : Nat) : Nat :=
  let i := gfInv b
  Nat.xor (Nat.xor (Nat.xor i (rotl8 i 1)) (Nat.xor (rotl8 i 2) (rotl8 i 3))) (Nat.xor (rotl8 i 4) 0x63)

/-- The inverse S-box: the byte whose image it is. -/
def unsboxOf (b : Nat) : Nat := gfInv (Nat.xor (Nat.xor (rotl8 b 1) (rotl8 b 3)) (Nat.xor (rotl8 b 6) 5))

/-- The S-box and its inverse as tables. -/
def sboxTable : Array Nat := (Array.range 256).map sboxOf
def unsboxTable : Array Nat := (Array.range 256).map unsboxOf

def sbox (b : Nat) : Nat := sboxTable.getD b 0
def unsbox (b : Nat) : Nat := unsboxTable.getD b 0

/-- Bytes combined by exclusive OR, one by one. -/
def xorBytes (a b : List Nat) : List Nat := List.zipWith Nat.xor a b

/-- The words of the key schedule from number i on, the last eight before it newest first; n words are made. -/
def keyWords : Nat → Nat → Nat → List (List Nat) → List (List Nat)
  | 0, _, _, _ => []
  | n + 1, i, rcon, last =>
    let t := last.headD []
    let u := if i % 8 = 0 then
        (match (t.drop 1 ++ t.take 1).map sbox with
          | b :: r => Nat.xor b rcon :: r
          | [] => [])
      else if i % 8 = 4 then t.map sbox else t
    let w := xorBytes (last.getD 7 []) u
    w :: keyWords n (i + 1) (if i % 8 = 0 then gf rcon 2 else rcon) (w :: last.take 7)

/-- Pieces of n elements of a list, k of them. -/
def piecesOf {α : Type} (n : Nat) : Nat → List α → List (List α)
  | 0, _ => []
  | k + 1, l => l.take n :: piecesOf n k (l.drop n)

/-- The fifteen round keys of a key of 32 bytes. -/
def roundKeys (key : List Nat) : List (List Nat) :=
  let k := piecesOf 4 8 key
  (piecesOf 4 15 (k ++ keyWords 52 8 1 k.reverse)).map List.flatten

/-- The row of byte i moves left by its number (ShiftRows), or right. -/
def shiftRows (b : List Nat) : List Nat := (List.range 16).map fun i => b.getD ((i + 4 * (i % 4)) % 16) 0
def unshiftRows (b : List Nat) : List Nat := (List.range 16).map fun i => b.getD ((i + 16 - 4 * (i % 4)) % 16) 0

/-- Each column times a circulant matrix whose first row is given (MixColumns and its inverse). -/
def mixWith (m : List Nat) (b : List Nat) : List Nat :=
  (List.range 16).map fun i => (List.range 4).foldl (fun x j => Nat.xor x (gf (m.getD ((j + 4 - i % 4) % 4) 0) (b.getD (i / 4 * 4 + j) 0))) 0

/-- AES-256 encryption of a block of 16 bytes. -/
def aesEnc (ks : List (List Nat)) (b : List Nat) : List Nat :=
  let b := ((ks.drop 1).take 13).foldl (fun b k => xorBytes (mixWith [2, 3, 1, 1] (shiftRows (b.map sbox))) k) (xorBytes b (ks.getD 0 []))
  xorBytes (shiftRows (b.map sbox)) (ks.getD 14 [])

/-- AES-256 decryption of a block. -/
def aesDec (ks : List (List Nat)) (b : List Nat) : List Nat :=
  let b := ((ks.drop 1).take 13).reverse.foldl (fun b k => mixWith [14, 11, 13, 9] (xorBytes ((unshiftRows b).map unsbox) k)) (xorBytes b (ks.getD 14 []))
  xorBytes ((unshiftRows b).map unsbox) (ks.getD 0 [])

/-- Little-endian bytes of a number, as numbers, n of them. -/
def natBytes : Nat → Nat → List Nat
  | 0, _ => []
  | n + 1, v => v % 256 :: natBytes n (v / 256)

/-- The tweak times the primitive element of GF(2^128), for the next block: its byte 0 is the least significant. -/
def tweakNext (t : List Nat) : List Nat :=
  let v := t.foldr (fun b a => b + 256 * a) 0
  natBytes 16 (if 2 ^ 127 ≤ v then Nat.xor (2 * v % 2 ^ 128) 0x87 else 2 * v)

/-- The blocks of a data unit, n at most, each between two exclusive ORs with its tweak. -/
def xtsBlocks (f : List Nat → List Nat) : Nat → List Nat → List Nat → List Nat
  | 0, _, _ => []
  | n + 1, t, l => if l = [] then [] else xorBytes (f (xorBytes (l.take 16) t)) t ++ xtsBlocks f n (tweakNext t) (l.drop 16)

/-- A data unit under a key of 512 bits and the number of the unit: the low half of the key's 64 bytes is Key_1, for the data, the high half Key_2, for the tweak. -/
def xtsWith (f : List (List Nat) → List Nat → List Nat) (key tweak : Nat) (l : List Byte) : List Byte :=
  let k := natBytes 64 key
  let t := aesEnc (roundKeys (k.drop 32)) (natBytes 16 tweak)
  (xtsBlocks (f (roundKeys (k.take 32))) (l.length / 16) t (l.map BitVec.toNat)).map (BitVec.ofNat 8)

/-- Encryption and decryption of a data unit. -/
def xtsEnc (key tweak : Nat) (l : List Byte) : List Byte := xtsWith aesEnc key tweak l
def xtsDec (key tweak : Nat) (l : List Byte) : List Byte := xtsWith aesDec key tweak l

end Sys2Proof.Machine
end

