-- ==== Sys2Proof/Machine/Store.lean ====
section
/-! DEFINITION. Sparse storage in one canonical form: a list of key and value pairs, codes strictly rising, no pair equal to
what an unlisted key reads as. Registers, memories and per-instance tables of the State are such stores. -/
namespace Sys2Proof.Machine

variable {κ α : Type}

/-- The value stored for a key, or what an unlisted key reads as. -/
def storeGet [DecidableEq κ] : List (κ × α) → α → κ → α
  | [], d, _ => d
  | (k', v) :: r, d, k => if k' = k then v else storeGet r d k

/-- Put a pair in its place by code. -/
def storeIns (code : κ → Nat) : List (κ × α) → κ → α → List (κ × α)
  | [], k, v => [(k, v)]
  | (k', v') :: r, k, v => if code k < code k' then (k, v) :: (k', v') :: r else (k', v') :: storeIns code r k v

/-- Drop a key. -/
def storeDel [DecidableEq κ] : List (κ × α) → κ → List (κ × α)
  | [], _ => []
  | (k', v') :: r, k => if k' = k then storeDel r k else (k', v') :: storeDel r k

/-- Store a value; the value an unlisted key reads as removes the entry. -/
def storeSet [DecidableEq κ] [DecidableEq α] (code : κ → Nat) (m : List (κ × α)) (d : α) (k : κ) (v : α) : List (κ × α) :=
  if v = d then storeDel m k else storeIns code (storeDel m k) k v

/-- Canonical form from a lower bound of the codes on. -/
def storeWfFrom [DecidableEq α] (code : κ → Nat) (dflt : κ → α) : Nat → List (κ × α) → Bool
  | _, [] => true
  | b, (k, v) :: r => decide (b ≤ code k) && decide (v ≠ dflt k) && storeWfFrom code dflt (code k + 1) r

/-- Codes strictly rising, no entry equal to its default. -/
def storeWf [DecidableEq α] (code : κ → Nat) (dflt : κ → α) (m : List (κ × α)) : Bool :=
  storeWfFrom code dflt 0 m

/-- A store keyed by a number, every unlisted key reading as d. -/
def nget (m : List (Nat × α)) (d : α) (k : Nat) : α := storeGet m d k

/-- Write of a store keyed by a number. -/
def nset [DecidableEq α] (m : List (Nat × α)) (d : α) (k : Nat) (v : α) : List (Nat × α) := storeSet id m d k v

end Sys2Proof.Machine
end

