-- ==== Sys2Proof/Machine/Ecc.lean ====
section
/-! DEFINITION. The word code of the towers (R416, R417): a shortened BCH code of 80 bits that corrects two. -/
namespace Sys2Proof.Machine

/-- Remainder of x^14 m(x) by g(x) = 0x4377, the 66 message bits entering from the top. -/
def bchStep (r : Nat) (b : Bool) : Nat :=
  let f := Nat.xor (r / 2 ^ 13 % 2) (if b then 1 else 0)
  Nat.xor (r * 2 % 2 ^ 14) (if f = 1 then 0x0377 else 0)

/-- Bits n - 1 down to 0 of a number, as a list. -/
def bitsDown (v : Nat) : Nat → List Bool
  | 0 => []
  | n + 1 => (v / 2 ^ n % 2 == 1) :: bitsDown v n

/-- Check bits of the 66-bit message: data [63:0], U 64, P 65. -/
def bchCheck (m : Nat) : Nat := (bitsDown m 66).foldl bchStep 0

/-- The stored word of data and tags with their check bits: codeword bits C [13:0], data [77:14], U 78, P 79. -/
def encodeWord (data : Word) (u p : Bool) : Code :=
  let m := data.toNat + (if u then 2 ^ 64 else 0) + (if p then 2 ^ 65 else 0)
  BitVec.ofNat 80 (m * 2 ^ 14 + bchCheck m)

/-- A stored word from data, tags and check bits as given. -/
def rawWord (data : Word) (u p : Bool) (chk : Nat) : Code :=
  BitVec.ofNat 80 ((data.toNat + (if u then 2 ^ 64 else 0) + (if p then 2 ^ 65 else 0)) * 2 ^ 14 + chk % 2 ^ 14)

def codeData (c : Code) : Word := BitVec.ofNat 64 (c.toNat / 2 ^ 14)
def codeU (c : Code) : Bool := c.toNat / 2 ^ 78 % 2 == 1
def codeP (c : Code) : Bool := c.toNat / 2 ^ 79 % 2 == 1
def codeChk (c : Code) : Nat := c.toNat % 2 ^ 14

/-- The syndrome of a word as read: what its check bits differ by from those of its message. It is zero exactly for a codeword, and S1
and S3 of R417 are its values at α and α^3. -/
def synOf (c : Code) : Nat := Nat.xor (bchCheck (c.toNat / 2 ^ 14)) (c.toNat % 2 ^ 14)

/-- x^(14 + i) modulo g(x), which a wrong message bit i adds to the syndrome. -/
def xpow : Nat → Nat
  | 0 => 0x0377
  | n + 1 => bchStep (xpow n) false

/-- Syndrome of a single wrong codeword bit j. -/
def errSyn (j : Nat) : Nat := if j < 14 then 2 ^ j else xpow (j - 14)

/-- The syndromes of the 80 single errors, in order. -/
def errSyns : List Nat := (List.range 80).map errSyn

/-- The four outcomes of a decode (R417), with the bits corrected. -/
inductive Decode where
  | clean
  | single (j : Nat)
  | double (i j : Nat)
  | uncorrectable
  deriving DecidableEq, Repr

/-- Position of a value in a list, from k on. -/
def findFrom (v : Nat) : List Nat → Nat → Option Nat
  | [], _ => none
  | a :: r, k => if a = v then some k else findFrom v r (k + 1)

/-- A pair of positions whose syndromes sum to v. -/
def findPair (v : Nat) : List Nat → Nat → Option (Nat × Nat)
  | [], _ => none
  | a :: r, k =>
    match findFrom (Nat.xor v a) r (k + 1) with
    | some j => some (k, j)
    | none => findPair v r (k + 1)

/-- The outcome that a syndrome gives: the locator's roots at positions 0 to 79, one or two of them. -/
def decodeSyn (syn : Nat) : Decode :=
  if syn = 0 then .clean
  else match findFrom syn errSyns 0 with
    | some j => .single j
    | none =>
      match findPair syn errSyns 0 with
      | some (i, j) => .double i j
      | none => .uncorrectable

/-- The word with one codeword bit inverted. -/
def flipBit (c : Code) (j : Nat) : Code := c ^^^ BitVec.ofNat 80 (2 ^ j)

/-- Decode a stored word: the outcome, and the word as corrected (as read when uncorrectable). -/
def decodeWord (c : Code) : Decode × Code :=
  match decodeSyn (synOf c) with
  | .clean => (.clean, c)
  | .single j => (.single j, flipBit c j)
  | .double i j => (.double i j, flipBit (flipBit c i) j)
  | .uncorrectable => (.uncorrectable, c)

/-- Outcome codes of TST_CMD.OUTCOME (spec/14): 0 clean, 1 single, 2 double, 3 uncorrectable. -/
def Decode.code : Decode → Nat
  | .clean => 0
  | .single _ => 1
  | .double _ _ => 2
  | .uncorrectable => 3

end Sys2Proof.Machine
end

