-- ==== Sys2Proof/Config.lean ====
section
/-! DEFINITION. What one implementation fixes, and the free values: constants without a body, so that nothing can be proved of
any value of them. -/
namespace Sys2Proof.Config

/-- The device serial number that RND_SERIAL shows (R514): fixed per device, free in the model. -/
opaque serial : BitVec 64

/-- The n-th value that the spec leaves open: uninterpreted. -/
opaque freeNat : Nat → Nat

/-- Cells between two alignment markers of a lane of an Ethernet link, by LRATE, FEC and width (R156): IEEE 802.3 gives them, the spec does
not. -/
opaque amCells : Nat → Nat → Nat → Nat

/-- What the words of a tower hold whose DRAM supplies left their range (R622): by how often that has happened, and by word. The spec only calls the
contents lost. -/
opaque lostWord : Nat → Nat → BitVec 80

/-- SHA-384 of the boot ROM, measurement block 1 (R476): fixed at manufacture. -/
opaque romDigest : Nat

/-- Certificate slot 0 (R516): the chain written at manufacture. -/
opaque certChain : List Byte

/-- SHA-384 of that chain, as GET_DIGESTS returns it (R481). -/
opaque certDigest : Nat

/-- Type byte of a measurement block, by index (R476): the DMTF specifications give it, the spec does not. -/
opaque measType : Nat → Byte

/-- The UUID that Get Endpoint UUID returns (R479). -/
opaque uuid : Nat

/-- The version and message type lists of the MCTP control messages (R479). -/
opaque mctpVersions : List Byte

/-- What a boundary scan or debug access shifts out of the TAP (R532), by instruction: IEEE 1149.1, 1149.6 and the debug unit give it. -/
opaque tapData : Nat → Nat

/-- The part is an MRN-9256-EB0, whose ordering code admits the engineering chain alone (R40); otherwise an MRN-9256-PB0. -/
opaque engineeringPart : Bool

/-- The fixed receive delay of a protocol and rate, in ticks (R223). -/
opaque rxDelay : Nat → Nat

/-- LCRC of a TLP, by its framing and its bytes before the LCRC; CRC-16 of a DLLP, by its bytes before it (R127, R345): the Base Specification gives them. -/
opaque lcrc : List Byte → List Byte → List Byte
opaque dllpCrc : List Byte → List Byte

/-- A flit with its CRC and FEC fields formed anew, and with its CRC corrupted (R127), by layout: 0 the standard 256 B, 1 latency-optimised, 2 68 B. The flit that stands
for a dropped one. -/
opaque flitFix : Nat → List Byte → List Byte
opaque flitCorrupt : Nat → List Byte → List Byte
opaque nopFlit : Nat → List Byte

/-- The four symbols of the EDS token and the sixteen of the SDS Ordered Set, by rate code (R651). -/
opaque edsToken : List Byte
opaque sdsSet : Nat → List Byte

/-- Line bits of one lane in a 66-bit block or codeword, by encoding (0 block, 1 codeword), FEC and width: the PCS of IEEE 802.3 distributes them (R310). -/
opaque ethBits : Nat → Nat → Nat → Nat

/-- Interval of the SKP Ordered Sets that the device generates, by CLKMODE and rate code (R101): the Base Specification gives it. -/
opaque skpInterval : Nat → Nat → Nat

/-- Coefficients of a preset for FS = 63 and LF = 16, by rate code and preset (R175), in the layout of TX_FIR: the Base Specification gives them. -/
opaque presetFir : Nat → Nat → Nat

/-- A SKP Ordered Set with the parity fields of the segment that the transmitter drives (R95), by rate code and by what has been sent; an electrical idle set formed at the
transmitter. -/
opaque skpParity : Nat → Nat → List Byte → List Byte
opaque eiSet : Nat → List Byte → List Byte

/-- The ECRC over a TLP's bytes before it; the check fields of the flit that carries given bytes (R122). -/
opaque ecrc : List Byte → List Byte
opaque flitCheck : List Byte → List Byte

/-- The ROM, or the firmware, still writes the last chunk when the next transaction comes (R38), by the count of free values taken: the spec gives no time. -/
opaque chunkWriting : Nat → Bool

/-- A repeated read of a calibration record differs (R209), by the count of free values taken and the lane. -/
opaque nvmReread : Nat → Nat → Bool

/-- Bytes of the calibration records written at manufacture (R212), by address in the NVM store: the spec does not give them. -/
opaque nvmFactory : Nat → Byte

/-- Where a pseudo-random pattern starts, by the count of free values taken; the bits of SSPRBS (R149): the spec gives neither. -/
opaque patSeed : Nat → Nat
opaque ssprbs : Nat → Bool

/-- Bits of a SKP Ordered Set's symbol, by rate code and number, that hold parity fields in 1b/1b encoding (R95): the Base Specification gives them. -/
opaque skpMask : Nat → Nat → Byte

/-- Line bits of one lane in a 68-byte flit, by width and position (R310): the flit's bytes do not fill whole line units, and the specifications of PCI Express and CXL place them. -/
opaque flit68Bits : Nat → Nat → Nat

/-- The completion code with which an MCTP control request is answered while the endpoint cannot serve it (R56): DSP0236 gives it, the spec does not. -/
opaque mctpBusy : Byte

end Sys2Proof.Config
end

