-- ==== Sys2Proof/Machine/RegTable.lean ====
section
/-! DEFINITION. Register fields of the device: one name for every readable field of the field tables of spec/02 to
spec/25 (R612 to R616 give the map), with its width, access kind, reset value and Survives cell, and one name for
every scalar the rules imply beside the registers (prefix X). A field split over a _LO/_HI pair is one field here. -/
namespace Sys2Proof.Machine

/-- The fields. An index beside a field names the instance: a grove register with inner index k of n instances has
index g * n + k, so a lane field is indexed by lane 0 to 255, a path field by path 0 to 511 (p = 2n + d), a
transceiver field by 32 g + r, a thread field by 4 g + t, a thread register by (4 g + t) * 32 + i. -/
inductive Fld where
  /-- DEV_IDENT [15:0] VID, RO, reset KNG_VID (spec/02) -/
  | DEV_IDENT_VID
  /-- DEV_IDENT [31:16] DID, RO, reset 0x9256 (spec/02) -/
  | DEV_IDENT_DID
  /-- DEV_REV [7:0] STEP, RO, reset 0xB0 (spec/02) -/
  | DEV_REV_STEP
  /-- DEV_REV [15:8] ROMVER, RO, reset 0x03 (spec/02) -/
  | DEV_REV_ROMVER
  /-- FW_MBX_CTL [5:4] TARGET, RW, reset 0b00 (spec/02) -/
  | FW_MBX_CTL_TARGET
  /-- FW_MBX_STAT [0] BUSY, RO, reset 0 (spec/02) -/
  | FW_MBX_STAT_BUSY
  /-- FW_MBX_STAT [1] ACCEPTED, RO, reset 0 (spec/02) -/
  | FW_MBX_STAT_ACCEPTED
  /-- FW_MBX_STAT [2] ERR, RO, reset 0 (spec/02) -/
  | FW_MBX_STAT_ERR
  /-- FW_MBX_LEN [14:0] LEN, RW, reset 0 (spec/02) -/
  | FW_MBX_LEN_LEN
  /-- FW_MBX_OFS [20:0] OFS, RW, reset 0 (spec/02) -/
  | FW_MBX_OFS_OFS
  /-- FW_MBX_TOTAL [20:0] TOTAL, RO, reset 0 (spec/02) -/
  | FW_MBX_TOTAL_TOTAL
  /-- DEV_STATE [3:0] STATE, RO, reset 0x1 (spec/02) -/
  | DEV_STATE_STATE
  /-- DEV_STATE [4] BANK, RO, reset 0 (spec/02) -/
  | DEV_STATE_BANK
  /-- DEV_STATE [5] NONAPPR, RO, reset 0 (spec/02) -/
  | DEV_STATE_NONAPPR
  /-- DEV_STATE [6] PRESERVED0, RO, reset 0 (spec/02) -/
  | DEV_STATE_PRESERVED0
  /-- DEV_STATE [7] PRESERVED1, RO, reset 0 (spec/02) -/
  | DEV_STATE_PRESERVED1
  /-- DEV_STATE [11:8] QREF_OK, RO, reset 0 (spec/02) -/
  | DEV_STATE_QREF_OK
  /-- DEV_STATE [12] CLKFAIL_EARLY, RO, reset 0 (spec/02) -/
  | DEV_STATE_CLKFAIL_EARLY
  /-- DEV_STATE [13] CALRESTORE_PART, RO, reset 0 (spec/02) -/
  | DEV_STATE_CALRESTORE_PART
  /-- DEV_STATE [14] HR_PEND, RO, reset 0 (spec/02) -/
  | DEV_STATE_HR_PEND
  /-- DEV_STATE [23:16] LASTERR, RO, reset 0x00 (spec/02) -/
  | DEV_STATE_LASTERR
  /-- DEV_STATE [31:24] INITSTEP, RO, reset 0 (spec/02) -/
  | DEV_STATE_INITSTEP
  /-- DEV_CTL [0] FULLBIST, RW, reset 0 (spec/02) -/
  | DEV_CTL_FULLBIST
  /-- DEV_CTL [1] HOLD_ON_CHIP, RW, reset 0 (spec/02) -/
  | DEV_CTL_HOLD_ON_CHIP
  /-- DEV_CMD [15:8] RESULT, RO, reset 0 (spec/02) -/
  | DEV_CMD_RESULT
  /-- LINK_CFG [0] EN, RW, reset 0 (spec/03) -/
  | LINK_CFG_EN
  /-- LINK_CFG [3:1] WIDTH, RW, reset 0b000 (spec/03) -/
  | LINK_CFG_WIDTH
  /-- LINK_CFG [7:4] FIRST, RW, reset 0 (spec/03) -/
  | LINK_CFG_FIRST
  /-- LINK_CFG [10:8] PROTO, RW, reset 0b000 (spec/03) -/
  | LINK_CFG_PROTO
  /-- GRV_LINKERR [0] ERR, W1C, reset 0 (spec/03) -/
  | GRV_LINKERR_ERR
  /-- PATH_MODE [2:0] AB, RW, reset 0 (spec/03) -/
  | PATH_MODE_AB
  /-- PATH_MODE [6:4] BA, RW, reset 0 (spec/03) -/
  | PATH_MODE_BA
  /-- PATH_MODE [8] PEND_AB, RO, reset 0 (spec/03) -/
  | PATH_MODE_PEND_AB
  /-- PATH_MODE [9] PEND_BA, RO, reset 0 (spec/03) -/
  | PATH_MODE_PEND_BA
  /-- PATH_MODE [23:16] CODE, RO, reset 0x00 (spec/03) -/
  | PATH_MODE_CODE
  /-- PATH_SRC [1:0] SEL, RW, reset 0b00 (spec/03) -/
  | PATH_SRC_SEL
  /-- PATH_DISC [31:0] COUNT, RC, reset 0 (spec/03) -/
  | PATH_DISC_COUNT
  /-- LT_CFG [0] EN, RW, reset 0 (spec/03) -/
  | LT_CFG_EN
  /-- LT_CFG [1] SIDE, RW, reset 0 (spec/03) -/
  | LT_CFG_SIDE
  /-- LT_CFG [5:2] LINK, RW, reset 0 (spec/03) -/
  | LT_CFG_LINK
  /-- LNK_PCI [0] UPSIDE, RW, reset 0 (spec/04) -/
  | LNK_PCI_UPSIDE
  /-- LNK_PCI [3:1] MAXRATE, RW, reset 0b110 (spec/04) -/
  | LNK_PCI_MAXRATE
  /-- LNK_PCI [4] FLITEN, RW, reset 1 (spec/04) -/
  | LNK_PCI_FLITEN
  /-- LNK_PCI [6:5] CLKMODE, RW, reset 0b00 (spec/04) -/
  | LNK_PCI_CLKMODE
  /-- LNK_PCI [7] MARGEN, RW, reset 1 (spec/04) -/
  | LNK_PCI_MARGEN
  /-- LNK_PCI [8] EQBYP, RW, reset 1 (spec/04) -/
  | LNK_PCI_EQBYP
  /-- LNK_PSTAT [3:0] STATE, RO, reset 0x0 (spec/04) -/
  | LNK_PSTAT_STATE
  /-- LNK_PSTAT [6:4] RATE, RO, reset 0b000 (spec/04) -/
  | LNK_PSTAT_RATE
  /-- LNK_PSTAT [7] FLIT, RO, reset 0 (spec/04) -/
  | LNK_PSTAT_FLIT
  /-- LNK_PSTAT [10:8] WIDTH, RO, reset 0b000 (spec/04) -/
  | LNK_PSTAT_WIDTH
  /-- LNK_PSTAT [12:11] FMT, RO, reset 0b00 (spec/04) -/
  | LNK_PSTAT_FMT
  /-- LNK_PSTAT [13] PMIS, RO, reset 0 (spec/04) -/
  | LNK_PSTAT_PMIS
  /-- LNK_PSTAT [15:14] RTPOS, RO, reset 0b00 (spec/04) -/
  | LNK_PSTAT_RTPOS
  /-- LNK_PSTAT [16] MARGACT, RO, reset 0 (spec/04) -/
  | LNK_PSTAT_MARGACT
  /-- LNK_PSTAT [17] EBERR, W1C, reset 0 (spec/04) -/
  | LNK_PSTAT_EBERR
  /-- LT_PCI_CFG [0] ROLE, RW, reset 0 (spec/04) -/
  | LT_PCI_CFG_ROLE
  /-- LT_PCI_CFG [3:1] MAXRATE, RW, reset 0b110 (spec/04) -/
  | LT_PCI_CFG_MAXRATE
  /-- LT_PCI_CFG [4] FLITEN, RW, reset 1 (spec/04) -/
  | LT_PCI_CFG_FLITEN
  /-- LT_PCI_CFG [5] CXLEN, RW, reset 0 (spec/04) -/
  | LT_PCI_CFG_CXLEN
  /-- LT_RXRING [11:0] BASE, RW, reset 0 (spec/04) -/
  | LT_RXRING_BASE
  /-- LT_RXRING [21:12] SIZE, RW, reset 0 (spec/04) -/
  | LT_RXRING_SIZE
  /-- LT_TXRING [11:0] BASE, RW, reset 0 (spec/04) -/
  | LT_TXRING_BASE
  /-- LT_TXRING [21:12] SIZE, RW, reset 0 (spec/04) -/
  | LT_TXRING_SIZE
  /-- LT_STAT [3:0] LTSSM, RO, reset 0x0 (spec/04) -/
  | LT_STAT_LTSSM
  /-- LT_STAT [4] DLUP, RO, reset 0 (spec/04) -/
  | LT_STAT_DLUP
  /-- LT_STAT [7:5] RATE, RO, reset 0b000 (spec/04) -/
  | LT_STAT_RATE
  /-- LT_STAT [8] FLIT, RO, reset 0 (spec/04) -/
  | LT_STAT_FLIT
  /-- LT_STAT [9] CXL, RO, reset 0 (spec/04) -/
  | LT_STAT_CXL
  /-- LT_CNT [15:0] NAKS, RC, reset 0 (spec/04) -/
  | LT_CNT_NAKS
  /-- LT_CNT [31:16] REPLAYS, RC, reset 0 (spec/04) -/
  | LT_CNT_REPLAYS
  /-- GSB_CFG [2:0] FUNC, RW, reset 0b000 (spec/04) -/
  | GSB_CFG_FUNC
  /-- GSB_CFG [6:3] LINK, RW, reset 0 (spec/04) -/
  | GSB_CFG_LINK
  /-- GSB_CFG [13:8] TL, RW, reset 0 (spec/04) -/
  | GSB_CFG_TL
  /-- GSB_CFG [16] LEVEL, RO, reset 0 (spec/04) -/
  | GSB_CFG_LEVEL
  /-- LNK_ETH [2:0] LRATE, RW, reset 0b000 (spec/05) -/
  | LNK_ETH_LRATE
  /-- LNK_ETH [4:3] FEC, RW, reset 0b00 (spec/05) -/
  | LNK_ETH_FEC
  /-- LNK_ETH [5] ANEN, RW, reset 1 (spec/05) -/
  | LNK_ETH_ANEN
  /-- LNK_ETH [6] LTEN, RW, reset 1 (spec/05) -/
  | LNK_ETH_LTEN
  /-- LNK_ETH [8:7] PAUSE, RW, reset 0b00 (spec/05) -/
  | LNK_ETH_PAUSE
  /-- LNK_ETH [9] POSUNIT, RW, reset 0 (spec/05) -/
  | LNK_ETH_POSUNIT
  /-- LNK_ETH [10] CLEANALL, RW, reset 0 (spec/05) -/
  | LNK_ETH_CLEANALL
  /-- LNK_ETH [11] AMALIGN, RW, reset 0 (spec/05) -/
  | LNK_ETH_AMALIGN
  /-- LNK_ESTAT [2:0] SEGA, RO, reset 0b000 (spec/05) -/
  | LNK_ESTAT_SEGA
  /-- LNK_ESTAT [5:3] SEGB, RO, reset 0b000 (spec/05) -/
  | LNK_ESTAT_SEGB
  /-- LNK_ESTAT [6] ANFAIL, W1C, reset 0 (spec/05) -/
  | LNK_ESTAT_ANFAIL
  /-- FEC_CW [31:0] COUNT, RC, reset 0 (spec/05) -/
  | FEC_CW_COUNT
  /-- FEC_CORR [31:0] COUNT, RC, reset 0 (spec/05) -/
  | FEC_CORR_COUNT
  /-- FEC_UNC [31:0] COUNT, RC, reset 0 (spec/05) -/
  | FEC_UNC_COUNT
  /-- FEC_SYM [31:0] COUNT, RC, reset 0 (spec/05) -/
  | FEC_SYM_COUNT
  /-- PATH_PAT [3:0] PAT, RW, reset 0x0 (spec/05) -/
  | PATH_PAT_PAT
  /-- PATH_PAT [4] GRAY, RW, reset 1 (spec/05) -/
  | PATH_PAT_GRAY
  /-- PATH_PAT [5] INV, RW, reset 0 (spec/05) -/
  | PATH_PAT_INV
  /-- PATH_PAT [6] CHKEN, RW, reset 0 (spec/05) -/
  | PATH_PAT_CHKEN
  /-- PATH_PAT [18:7] UBASE, RW, reset 0 (spec/05) -/
  | PATH_PAT_UBASE
  /-- PATH_PAT [31:19] ULEN, RW, reset 0 (spec/05) -/
  | PATH_PAT_ULEN
  /-- PATH_PCHK [30:0] ERRS, RC, reset 0 (spec/05) -/
  | PATH_PCHK_ERRS
  /-- PATH_PCHK [31] LOCK, RO, reset 0 (spec/05) -/
  | PATH_PCHK_LOCK
  /-- RAW_RATE [27:0] KBPS, RW, reset 25,781,250 (spec/05) -/
  | RAW_RATE_KBPS
  /-- RAW_RATE [28] PAM4, RW, reset 0 (spec/05) -/
  | RAW_RATE_PAM4
  /-- PATH_DLY [31:0] CELLS, RW, reset 0 (spec/05) -/
  | PATH_DLY_CELLS
  /-- PATH_DLYSTAT [0] ERR, W1C, reset 0 (spec/05) -/
  | PATH_DLYSTAT_ERR
  /-- PATH_DLYSTAT [1] FILL, RO, reset 0 (spec/05) -/
  | PATH_DLYSTAT_FILL
  /-- LT_ETH_CFG [13:0] MAXLEN, RW, reset 9,216 (spec/05) -/
  | LT_ETH_CFG_MAXLEN
  /-- LT_ETH_CFG [19:14] IPG, RW, reset 12 (spec/05) -/
  | LT_ETH_CFG_IPG
  /-- LT_ETH_STAT [2:0] STATE, RO, reset 0b000 (spec/05) -/
  | LT_ETH_STAT_STATE
  /-- LT_ETH_STAT [3] LF, RO, reset 0 (spec/05) -/
  | LT_ETH_STAT_LF
  /-- LT_ETH_STAT [4] RF, RO, reset 0 (spec/05) -/
  | LT_ETH_STAT_RF
  /-- LT_ETH_STAT [31:16] RXDROP, RC, reset 0 (spec/05) -/
  | LT_ETH_STAT_RXDROP
  /-- XCVR_CTL [0] RXINV, RW, reset 0 (spec/06) -/
  | XCVR_CTL_RXINV
  /-- XCVR_CTL [1] TXINV, RW, reset 0 (spec/06) -/
  | XCVR_CTL_TXINV
  /-- XCVR_CTL [2] FREEZE, RW, reset 0 (spec/06) -/
  | XCVR_CTL_FREEZE
  /-- XCVR_STAT [0] SIGDET, RO, reset 0 (spec/06) -/
  | XCVR_STAT_SIGDET
  /-- XCVR_STAT [1] LOCK, RO, reset 0 (spec/06) -/
  | XCVR_STAT_LOCK
  /-- XCVR_STAT [2] ADAPTED, RO, reset 0 (spec/06) -/
  | XCVR_STAT_ADAPTED
  /-- XCVR_STAT [3] LOL, W1C, reset 0 (spec/06) -/
  | XCVR_STAT_LOL
  /-- XCVR_STAT [4] TXIDLE, RO, reset 1 (spec/06) -/
  | XCVR_STAT_TXIDLE
  /-- XCVR_STAT [5] RXTERM, RO, reset 0 (spec/06) -/
  | XCVR_STAT_RXTERM
  /-- XCVR_STAT [7:6] RXDET, RO, reset 0b00 (spec/06) -/
  | XCVR_STAT_RXDET
  /-- XCVR_STAT [10:8] TXCLK, RO, reset 0b000 (spec/06) -/
  | XCVR_STAT_TXCLK
  /-- XCVR_STAT [11] SSCACT, RO, reset 0 (spec/06) -/
  | XCVR_STAT_SSCACT
  /-- XCVR_STAT [12] TXERR, W1C, reset 0 (spec/06) -/
  | XCVR_STAT_TXERR
  /-- XCVR_STAT [20:16] CTLE, RO, reset 0 (spec/06) -/
  | XCVR_STAT_CTLE
  /-- XCVR_STAT [27:21] DFE, RO, reset 0 (spec/06) -/
  | XCVR_STAT_DFE
  /-- TX_FIR [3:0] CM2, RW, reset 0 (spec/06) -/
  | TX_FIR_CM2
  /-- TX_FIR [8:4] CM1, RW, reset 0 (spec/06) -/
  | TX_FIR_CM1
  /-- TX_FIR [14:9] C0, RW, reset 63 (spec/06) -/
  | TX_FIR_C0
  /-- TX_FIR [19:15] C1, RW, reset 0 (spec/06) -/
  | TX_FIR_C1
  /-- TX_FIR [24:20] C2, RW, reset 0 (spec/06) -/
  | TX_FIR_C2
  /-- TX_FIR [29:25] C3, RW, reset 0 (spec/06) -/
  | TX_FIR_C3
  /-- TX_FIRACT [29:0] ACT, RO, reset 0x0000_7E00 (spec/06) -/
  | TX_FIRACT_ACT
  /-- TX_LVL [6:0] SWING, RW, reset 80 (spec/06) -/
  | TX_LVL_SWING
  /-- TX_LVL [11:7] LVLTRIM, RW, reset 0 (spec/06) -/
  | TX_LVL_LVLTRIM
  /-- TX_CLK [12:0] SSCDEPTH, RW, reset 0 (spec/06) -/
  | TX_CLK_SSCDEPTH
  /-- TX_CLK [24:13] SSCFREQ, RW, reset 3,150 (spec/06) -/
  | TX_CLK_SSCFREQ
  /-- TX_PPM [9:0] PPM, RW, reset 0 (spec/06) -/
  | TX_PPM_PPM
  /-- QUAL_CTL [2:0] QWIN, RW, reset 0b010 (spec/06) -/
  | QUAL_CTL_QWIN
  /-- QUAL_CTL [3] AUTO, RW, reset 1 (spec/06) -/
  | QUAL_CTL_AUTO
  /-- QUAL_CTL [31:24] SEQ, RO, reset 0 (spec/06) -/
  | QUAL_CTL_SEQ
  /-- QUAL_EYE [7:0] EW, RO, reset 0 (spec/06) -/
  | QUAL_EYE_EW
  /-- QUAL_EYE [15:8] EHLO, RO, reset 0 (spec/06) -/
  | QUAL_EYE_EHLO
  /-- QUAL_EYE [23:16] EHMID, RO, reset 0 (spec/06) -/
  | QUAL_EYE_EHMID
  /-- QUAL_EYE [31:24] EHUP, RO, reset 0 (spec/06) -/
  | QUAL_EYE_EHUP
  /-- QUAL_BER [15:0] BER, RO, reset 0 (spec/06) -/
  | QUAL_BER_BER
  /-- QUAL_BER [16] BOUND, RO, reset 0 (spec/06) -/
  | QUAL_BER_BOUND
  /-- QUAL_BER [17] STALE, RO, reset 1 (spec/06) -/
  | QUAL_BER_STALE
  /-- QUAL_BER [20:18] OFSIDX, RO, reset 0b000 (spec/06) -/
  | QUAL_BER_OFSIDX
  /-- QUAL_BER [31:24] OFS, RO, reset 0 (spec/06) -/
  | QUAL_BER_OFS
  /-- CAL_CTL [0] BGEN, RW, reset 1 (spec/07) -/
  | CAL_CTL_BGEN
  /-- CAL_CTL [6:1] DT, RW, reset 8 (spec/07) -/
  | CAL_CTL_DT
  /-- CAL_CTL [9:7] TOL, RW, reset 2 (spec/07) -/
  | CAL_CTL_TOL
  /-- CAL_CMD [23:16] RESULT, RO, reset 0x00 (spec/07) -/
  | CAL_CMD_RESULT
  /-- CAL_STAT [0] WBBUSY, RO, reset 0 (spec/07) -/
  | CAL_STAT_WBBUSY
  /-- CAL_STAT [1] COPY, RO, reset 0 (spec/07) -/
  | CAL_STAT_COPY
  /-- CAL_STAT [2] CFGERR, W1C, reset 0 (spec/07) -/
  | CAL_STAT_CFGERR
  /-- CAL_STAT [3] WORN, RO, reset 0 (spec/07) -/
  | CAL_STAT_WORN
  /-- NVM_WEAR0 [16:0] WRITES, RO, reset 1 (spec/07) -/
  | NVM_WEAR0_WRITES
  /-- NVM_WEAR1 [16:0] WRITES, RO, reset 1 (spec/07) -/
  | NVM_WEAR1_WRITES
  /-- CAL_LSTAT [7:0] TLAST_A, RO, reset 0 (spec/07) -/
  | CAL_LSTAT_TLAST_A
  /-- CAL_LSTAT [15:8] TLAST_B, RO, reset 0 (spec/07) -/
  | CAL_LSTAT_TLAST_B
  /-- CAL_LSTAT [18:16] STATE, RO, reset 0b000 (spec/07) -/
  | CAL_LSTAT_STATE
  /-- CAL_LSTAT [19] NOSHADOW_A, RO, reset 0 (spec/07) -/
  | CAL_LSTAT_NOSHADOW_A
  /-- CAL_LSTAT [20] NOSHADOW_B, RO, reset 0 (spec/07) -/
  | CAL_LSTAT_NOSHADOW_B
  /-- CAL_LSTAT [23:21] CONSEC, RO, reset 0 (spec/07) -/
  | CAL_LSTAT_CONSEC
  /-- CAL_LCNT [15:0] RUNS, RC, reset 0 (spec/07) -/
  | CAL_LCNT_RUNS
  /-- CAL_LCNT [23:16] RETRIES, RC, reset 0 (spec/07) -/
  | CAL_LCNT_RETRIES
  /-- CAL_LCNT [31:24] FAILS, RC, reset 0 (spec/07) -/
  | CAL_LCNT_FAILS
  /-- CAL_OFS [23:0] OFS, RO, reset 0 (spec/07) -/
  | CAL_OFS_OFS
  /-- CAL_SLC [4:0] PAIR, RO, reset 0 (spec/07) -/
  | CAL_SLC_PAIR
  /-- CAL_SLC [9:5] GAIN, RO, reset 16 (spec/07) -/
  | CAL_SLC_GAIN
  /-- CAL_SLC [12:10] ROLE, RO, reset s (spec/07) -/
  | CAL_SLC_ROLE
  /-- CAL_TX [9:0] Z, RO, reset 0x0210 (spec/07) -/
  | CAL_TX_Z
  /-- CAL_LIN [29:0] LIN, RO, reset 0x2108_4210 (spec/07) -/
  | CAL_LIN_LIN
  /-- PATH_POS_LO [31:0] POS, RO, reset 0; high half in PATH_POS_HI (spec/08) -/
  | PATH_POS_POS
  /-- PATH_POS_HI [31:16] GEN, RO, reset 0 (spec/08) -/
  | PATH_POS_GEN
  /-- TB_EPOCH_LO [31:0] EPOCH, RO, reset 0; high half in TB_EPOCH_HI (spec/08) -/
  | TB_EPOCH_EPOCH
  /-- TB_STAT [0] VALID, RO, reset 0 (spec/08) -/
  | TB_STAT_VALID
  /-- TB_STAT [1] SLEW, RO, reset 0 (spec/08) -/
  | TB_STAT_SLEW
  /-- TB_STAT [2] LOST, W1C, reset 0 (spec/08) -/
  | TB_STAT_LOST
  /-- TB_STAT [31:16] STEPS, RC, reset 0 (spec/08) -/
  | TB_STAT_STEPS
  /-- VIN_CTL [0] ROOT, RW, reset 0 (spec/08) -/
  | VIN_CTL_ROOT
  /-- VIN_CTL [3:1] PEN, RW, reset 0b111 (spec/08) -/
  | VIN_CTL_PEN
  /-- VIN_CTL [4] P0EN, RW, reset 1 (spec/08) -/
  | VIN_CTL_P0EN
  /-- VIN_NODE [15:0] ID, RW, reset 0 (spec/08) -/
  | VIN_NODE_ID
  /-- VIN_NODE [20:16] HOPS, RO, reset 0 (spec/08) -/
  | VIN_NODE_HOPS
  /-- VIN_PSTAT [1:0] STATE, RO, reset 0b00 (spec/08) -/
  | VIN_PSTAT_STATE
  /-- VIN_HOPD [23:0] DELAY, RO, reset 0 (spec/08) -/
  | VIN_HOPD_DELAY
  /-- VIN_HOPD [31:24] OFS, RO, reset 0 (spec/08) -/
  | VIN_HOPD_OFS
  /-- VIN_ASYM [7:0] ASYM, RW, reset 0 (spec/08) -/
  | VIN_ASYM_ASYM
  /-- VIN_LATB [23:0] TICKS, RW, reset 128,000 (spec/08) -/
  | VIN_LATB_TICKS
  /-- VIN_STAT [0] MISS, W1C, reset 0 (spec/08) -/
  | VIN_STAT_MISS
  /-- VIN_STAT [7:1] HELD, RO, reset 0 (spec/08) -/
  | VIN_STAT_HELD
  /-- VIN_STAT [31:16] RSEQ, RO, reset 0 (spec/08) -/
  | VIN_STAT_RSEQ
  /-- VIN_SENDT_LO [31:0] T, RW, reset 0; high half in VIN_SENDT_HI (spec/08) -/
  | VIN_SENDT_T
  /-- VIN_SEND [15:8] RESULT, RO, reset 0x00 (spec/08) -/
  | VIN_SEND_RESULT
  /-- VIN_TLAST_LO [31:0] T, RO, reset 0; high half in VIN_TLAST_HI (spec/08) -/
  | VIN_TLAST_T
  /-- VIN_TLAST_ORG [15:0] ORIGIN, RO, reset 0 (spec/08) -/
  | VIN_TLAST_ORG_ORIGIN
  /-- VIN_TLAST_ORG [16] LATE, W1C, reset 0 (spec/08) -/
  | VIN_TLAST_ORG_LATE
  /-- VIN_TLAST_ORG [17] LATEO, RO, reset 0 (spec/08) -/
  | VIN_TLAST_ORG_LATEO
  /-- TL_CFG [0] PULSE, RW, reset 0 (spec/08) -/
  | TL_CFG_PULSE
  /-- TL_LVL_LO [31:0] LVL, RO, reset 0; high half in TL_LVL_HI (spec/08) -/
  | TL_LVL_LVL
  /-- TL_COLL_LO [31:0] COLL, W1C, reset 0; high half in TL_COLL_HI (spec/08) -/
  | TL_COLL_COLL
  /-- TL_LAST_LO [31:0] EPOCH, RO, reset 0; high half in TL_LAST_HI (spec/08) -/
  | TL_LAST_EPOCH
  /-- SEQ_CTL [12] CLRBUSY, RO, reset 0 (spec/09) -/
  | SEQ_CTL_CLRBUSY
  /-- SEQ_CTL [13] ERR, W1C, reset 0 (spec/09) -/
  | SEQ_CTL_ERR
  /-- SEQ_TSTAT [13:0] PC, RO, reset 0 (spec/09) -/
  | SEQ_TSTAT_PC
  /-- SEQ_TSTAT [18:16] STATE, RO, reset 0b000 (spec/09) -/
  | SEQ_TSTAT_STATE
  /-- SEQ_TSTAT [23:20] FLAGS, RO, reset 0 (spec/09) -/
  | SEQ_TSTAT_FLAGS
  /-- SEQ_TSTAT [27:24] CAUSE, RO, reset 0x0 (spec/09) -/
  | SEQ_TSTAT_CAUSE
  /-- SEQ_TSTAT [30:28] RSD, RO, reset 0 (spec/09) -/
  | SEQ_TSTAT_RSD
  /-- SEQ_TSTAT [31] FULL, RO, reset 0 (spec/09) -/
  | SEQ_TSTAT_FULL
  /-- SEQ_TSTART [13:0] PC, RW, reset 0 (spec/09) -/
  | SEQ_TSTART_PC
  /-- SEQ_ACNT [15:0] CANCEL, RC, reset 0 (spec/09) -/
  | SEQ_ACNT_CANCEL
  /-- SEQ_REGS_LO [31:0] W, RW, reset 0; high half in SEQ_REGS_HI (spec/09) -/
  | SEQ_REGS_W
  /-- MATCH_STAT [0] ARMED, RO, reset 0 (spec/11) -/
  | MATCH_STAT_ARMED
  /-- MATCH_STAT [1] OVF, W1C, reset 0 (spec/11) -/
  | MATCH_STAT_OVF
  /-- MATCH_STAT [2] ACTSKIP, W1C, reset 0 (spec/11) -/
  | MATCH_STAT_ACTSKIP
  /-- MATCH_STAT [7:3] LASTPATH, RO, reset 0 (spec/11) -/
  | MATCH_STAT_LASTPATH
  /-- MATCH_CNT [31:0] COUNT, RO, reset 0 (spec/11) -/
  | MATCH_CNT_COUNT
  /-- MATCH_LPOS_LO [31:0] POS, RO, reset 0; high half in MATCH_LPOS_HI (spec/11) -/
  | MATCH_LPOS_POS
  /-- MATCH_LEP_LO [31:0] EPOCH, RO, reset 0; high half in MATCH_LEP_HI (spec/11) -/
  | MATCH_LEP_EPOCH
  /-- MATCH_CMD [31:24] RESULT, RO, reset 0x00 (spec/11) -/
  | MATCH_CMD_RESULT
  /-- FLT_CFG [7:0] CLASS, RW, reset 0x7F (spec/11) -/
  | FLT_CFG_CLASS
  /-- FLT_CFG [8] MINV, RW, reset 0 (spec/11) -/
  | FLT_CFG_MINV
  /-- FLT_CFG [9] TRUNC, RW, reset 0 (spec/11) -/
  | FLT_CFG_TRUNC
  /-- FLT_CFG [17:10] KEEP, RW, reset 0 (spec/11) -/
  | FLT_CFG_KEEP
  /-- FLT_MMASK [31:0] MMASK, RW, reset 0 (spec/11) -/
  | FLT_MMASK_MMASK
  /-- FLT_CNT [31:0] COUNT, RC, reset 0 (spec/11) -/
  | FLT_CNT_COUNT
  /-- PATH_FILT [3:0] FILT, RW, reset 0x0 (spec/11) -/
  | PATH_FILT_FILT
  /-- PATH_FILT [4] NONE, RW, reset 1 (spec/11) -/
  | PATH_FILT_NONE
  /-- INJ_STAT [6:0] FREE, RO, reset 64 (spec/11) -/
  | INJ_STAT_FREE
  /-- INJ_STAT [13:8] WIDX, RO, reset 0 (spec/11) -/
  | INJ_STAT_WIDX
  /-- INJ_STAT [31:16] LOST, RC, reset 0 (spec/11) -/
  | INJ_STAT_LOST
  /-- INJ_LOG_LO [31:0] POS, RO, reset 0; high half in INJ_LOG_HI (spec/11) -/
  | INJ_LOG_POS
  /-- INJ_LOG_HI [20:16] PATH, RO, reset 0 (spec/11) -/
  | INJ_LOG_PATH
  /-- INJ_LOG_HI [23:21] OUTCOME, RO, reset 0b000 (spec/11) -/
  | INJ_LOG_OUTCOME
  /-- INJ_LOG_HI [30:24] ENTRY, RO, reset 0 (spec/11) -/
  | INJ_LOG_ENTRY
  /-- INJ_LOG_SRC [5:0] SOURCE, RO, reset 0 (spec/11) -/
  | INJ_LOG_SRC_SOURCE
  /-- INJ_ENT_LO [31:0] MOMENT, RO, reset 0; high half in INJ_ENT_HI (spec/11) -/
  | INJ_ENT_MOMENT
  /-- INJ_ENT_INFO [4:0] PATH, RO, reset 0 (spec/11) -/
  | INJ_ENT_INFO_PATH
  /-- INJ_ENT_INFO [8:5] ACT, RO, reset 0x0 (spec/11) -/
  | INJ_ENT_INFO_ACT
  /-- INJ_ENT_INFO [9] FIX, RO, reset 0 (spec/11) -/
  | INJ_ENT_INFO_FIX
  /-- INJ_ENT_INFO [10] T, RO, reset 0 (spec/11) -/
  | INJ_ENT_INFO_T
  /-- INJ_ENT_INFO [12:11] STATE, RO, reset 0b00 (spec/11) -/
  | INJ_ENT_INFO_STATE
  /-- PRS_STAT [0] DROP0, RO, reset 0 (spec/12) -/
  | PRS_STAT_DROP0
  /-- PRS_STAT [1] DROP1, RO, reset 0 (spec/12) -/
  | PRS_STAT_DROP1
  /-- PRS_CEIL [15:0] CEIL, RO, reset 0 (spec/12) -/
  | PRS_CEIL_CEIL
  /-- PRS_DROPT [31:0] COUNT, RC, reset 0 (spec/12) -/
  | PRS_DROPT_COUNT
  /-- STRM_CFG [7:0] PUN, RW, reset 0 (spec/12) -/
  | STRM_CFG_PUN
  /-- STRM_CFG [9:8] CLASS, RW, reset 0b00 (spec/12) -/
  | STRM_CFG_CLASS
  /-- STRM_CFG [10] ELIDE, RW, reset 1 (spec/12) -/
  | STRM_CFG_ELIDE
  /-- STRM_CFG [11] RAW, RW, reset 0 (spec/12) -/
  | STRM_CFG_RAW
  /-- STRM_CFG [12] ETHUNIT, RW, reset 0 (spec/12) -/
  | STRM_CFG_ETHUNIT
  /-- STRM_CFG [13] IDE, RW, reset 0 (spec/12) -/
  | STRM_CFG_IDE
  /-- STRM_CFG [16] ON, RO, reset 0 (spec/12) -/
  | STRM_CFG_ON
  /-- STRM_CFG [19:17] PEND, RO, reset 0 (spec/12) -/
  | STRM_CFG_PEND
  /-- STRM_CFG [20] CFGERR, W1C, reset 0 (spec/12) -/
  | STRM_CFG_CFGERR
  /-- STRM_SEQ [31:0] SEQ, RO, reset 0 (spec/12) -/
  | STRM_SEQ_SEQ
  /-- STRM_LOSTR [31:0] COUNT, RC, reset 0 (spec/12) -/
  | STRM_LOSTR_COUNT
  /-- STRM_LOSTB [31:0] COUNT, RC, reset 0 (spec/12) -/
  | STRM_LOSTB_COUNT
  /-- STRM_CMD [31:24] RESULT, RO, reset 0x00 (spec/12) -/
  | STRM_CMD_RESULT
  /-- PUN_CFG [0] EN, RW, reset 0 (spec/12) -/
  | PUN_CFG_EN
  /-- PUN_CFG [1] MODE, RW, reset 0 (spec/12) -/
  | PUN_CFG_MODE
  /-- PUN_CFG [2] ENC, RW, reset 0 (spec/12) -/
  | PUN_CFG_ENC
  /-- PUN_CFG [3] RDDEC, RW, reset 0 (spec/12) -/
  | PUN_CFG_RDDEC
  /-- PUN_CFG [8:4] IDXK, RW, reset 12 (spec/12) -/
  | PUN_CFG_IDXK
  /-- PUN_CFG [14:9] TL, RW, reset 0 (spec/12) -/
  | PUN_CFG_TL
  /-- PUN_CFG [15] TLEN, RW, reset 0 (spec/12) -/
  | PUN_CFG_TLEN
  /-- PUN_SLAB [11:0] FIRST, RW, reset 0 (spec/12) -/
  | PUN_SLAB_FIRST
  /-- PUN_SLAB [23:12] COUNT, RW, reset 0 (spec/12) -/
  | PUN_SLAB_COUNT
  /-- PUN_PRE [26:0] KIB, RW, reset 0 (spec/12) -/
  | PUN_PRE_KIB
  /-- PUN_POST [26:0] KIB, RW, reset 0 (spec/12) -/
  | PUN_POST_KIB
  /-- PUN_STAT [2:0] STATE, RO, reset 0b000 (spec/12) -/
  | PUN_STAT_STATE
  /-- PUN_STAT [3] WRAP, RO, reset 0 (spec/12) -/
  | PUN_STAT_WRAP
  /-- PUN_STAT [4] TRIGIGN, W1C, reset 0 (spec/12) -/
  | PUN_STAT_TRIGIGN
  /-- PUN_STAT [5] CFGERR, W1C, reset 0 (spec/12) -/
  | PUN_STAT_CFGERR
  /-- PUN_STAT [31:16] DAMAGE, RO, reset 0 (spec/12) -/
  | PUN_STAT_DAMAGE
  /-- PUN_HEAD_LO [31:0] OFS, RO, reset 0; high half in PUN_HEAD_HI (spec/12) -/
  | PUN_HEAD_OFS
  /-- PUN_TAIL_LO [31:0] OFS, RO, reset 0; high half in PUN_TAIL_HI (spec/12) -/
  | PUN_TAIL_OFS
  /-- PUN_TRIG_LO [31:0] EPOCH, RO, reset 0; high half in PUN_TRIG_HI (spec/12) -/
  | PUN_TRIG_EPOCH
  /-- PUN_TRIGOFS_LO [31:0] OFS, RO, reset 0; high half in PUN_TRIGOFS_HI (spec/12) -/
  | PUN_TRIGOFS_OFS
  /-- PUN_RECS_LO [31:0] COUNT, RO, reset 0; high half in PUN_RECS_HI (spec/12) -/
  | PUN_RECS_COUNT
  /-- PUN_DISC [31:0] COUNT, RC, reset 0 (spec/12) -/
  | PUN_DISC_COUNT
  /-- PUN_CMD [31:24] RESULT, RO, reset 0x00 (spec/12) -/
  | PUN_CMD_RESULT
  /-- IDE_BIND [0] EN, RW, reset 0 (spec/12) -/
  | IDE_BIND_EN
  /-- IDE_BIND [4:1] GROVE, RW, reset 0 (spec/12) -/
  | IDE_BIND_GROVE
  /-- IDE_BIND [8:5] LINK, RW, reset 0 (spec/12) -/
  | IDE_BIND_LINK
  /-- IDE_BIND [9] DIR, RW, reset 0 (spec/12) -/
  | IDE_BIND_DIR
  /-- IDE_BIND [17:10] SID, RW, reset 0 (spec/12) -/
  | IDE_BIND_SID
  /-- IDE_STAT [0] SYNC, RO, reset 0 (spec/12) -/
  | IDE_STAT_SYNC
  /-- IDE_STAT [1] KEY, RO, reset 0 (spec/12) -/
  | IDE_STAT_KEY
  /-- IDE_STAT [31:16] MACFAIL, RC, reset 0 (spec/12) -/
  | IDE_STAT_MACFAIL
  /-- RPL_CFG [7:0] PUN, RW, reset 0 (spec/12) -/
  | RPL_CFG_PUN
  /-- RPL_CFG [16:8] STREAM, RW, reset 0 (spec/12) -/
  | RPL_CFG_STREAM
  /-- RPL_CFG [17] LOOP, RW, reset 0 (spec/12) -/
  | RPL_CFG_LOOP
  /-- RPL_CFG [18] FROMTRIG, RW, reset 0 (spec/12) -/
  | RPL_CFG_FROMTRIG
  /-- RPL_STAT [0] DONE, RO, reset 0 (spec/12) -/
  | RPL_STAT_DONE
  /-- RPL_STAT [1] TRUNCSTOP, W1C, reset 0 (spec/12) -/
  | RPL_STAT_TRUNCSTOP
  /-- RPL_NEXT [31:0] SEQ, RO, reset 0 (spec/12) -/
  | RPL_NEXT_SEQ
  /-- TWR_CTL [0] PRESERVE, RW, reset 0 (spec/13) -/
  | TWR_CTL_PRESERVE
  /-- TWR_STAT [1:0] STATE, RO, reset 0b00 (spec/13) -/
  | TWR_STAT_STATE
  /-- TWR_STAT [2] REF2X, RO, reset 0 (spec/13) -/
  | TWR_STAT_REF2X
  /-- TWR_STAT [7:4] HOTDIE, RO, reset 0 (spec/13) -/
  | TWR_STAT_HOTDIE
  /-- TWR_STAT [15:8] TMAX, RO, reset 0 (spec/13) -/
  | TWR_STAT_TMAX
  /-- TWR_STAT [16] SENSERR, RO, reset 0 (spec/13) -/
  | TWR_STAT_SENSERR
  /-- TWR_STAT [17] CFGERR, W1C, reset 0 (spec/13) -/
  | TWR_STAT_CFGERR
  /-- TWR_CLRSTAT [0] BUSY, RO, reset 0 (spec/13) -/
  | TWR_CLRSTAT_BUSY
  /-- TWR_CLRSTAT [15:8] RESULT, RO, reset 0x00 (spec/13) -/
  | TWR_CLRSTAT_RESULT
  /-- TWR_CLRSTAT [27:16] DONE, RO, reset 0 (spec/13) -/
  | TWR_CLRSTAT_DONE
  /-- TWR_RFM [8:0] THRESH, RW, reset 64 (spec/13) -/
  | TWR_RFM_THRESH
  /-- TWR_RFMCNT [31:0] COUNT, RC, reset 0 (spec/13) -/
  | TWR_RFMCNT_COUNT
  /-- CH_STAT [1:0] STATE, RO, reset 0b00 (spec/13) -/
  | CH_STAT_STATE
  /-- CH_STAT [9:2] TEMP, RO, reset 0 (spec/13) -/
  | CH_STAT_TEMP
  /-- CH_STAT [10] REF2X, RO, reset 0 (spec/13) -/
  | CH_STAT_REF2X
  /-- CH_STAT [11] SENSERR, RO, reset 0 (spec/13) -/
  | CH_STAT_SENSERR
  /-- CH_CMD [15:8] RESULT, RO, reset 0x00 (spec/13) -/
  | CH_CMD_RESULT
  /-- CH_REFCNT [31:0] COUNT, RC, reset 0 (spec/13) -/
  | CH_REFCNT_COUNT
  /-- DLR_CFG [11:0] FIRST, RW, reset 0 (spec/13) -/
  | DLR_CFG_FIRST
  /-- DLR_CFG [23:12] COUNT, RW, reset 0 (spec/13) -/
  | DLR_CFG_COUNT
  /-- DLR_CFG [24] EN, RW, reset 0 (spec/13) -/
  | DLR_CFG_EN
  /-- DLR_CFG [25] CFGERR, W1C, reset 0 (spec/13) -/
  | DLR_CFG_CFGERR
  /-- ECC_CFG [15:0] CETHR, RW, reset 256 (spec/14) -/
  | ECC_CFG_CETHR
  /-- ECC_CFG [16] LOGCE, RW, reset 0 (spec/14) -/
  | ECC_CFG_LOGCE
  /-- ECC_CFG [17] AUTOSOFT, RW, reset 1 (spec/14) -/
  | ECC_CFG_AUTOSOFT
  /-- ECC_CFG [18] AUTORETIRE, RW, reset 0 (spec/14) -/
  | ECC_CFG_AUTORETIRE
  /-- ECC_CFG [23:19] ROWCE, RW, reset 4 (spec/14) -/
  | ECC_CFG_ROWCE
  /-- ECC_CFG [31:24] TSVTHR, RW, reset 16 (spec/14) -/
  | ECC_CFG_TSVTHR
  /-- ECC_UECNT [15:0] COUNT, RC, reset 0 (spec/14) -/
  | ECC_UECNT_COUNT
  /-- ECC_CECNT [15:0] COUNT, RC, reset 0 (spec/14) -/
  | ECC_CECNT_COUNT
  /-- SCR_CFG [7:0] PERIOD, RW, reset 24 (spec/14) -/
  | SCR_CFG_PERIOD
  /-- SCR_STAT [6:0] PROG, RO, reset 0 (spec/14) -/
  | SCR_STAT_PROG
  /-- SCR_STAT [23:8] PASSES, RO, reset 0 (spec/14) -/
  | SCR_STAT_PASSES
  /-- ECC_LOGSTAT [6:0] COUNT, RO, reset 0 (spec/14) -/
  | ECC_LOGSTAT_COUNT
  /-- ECC_LOGSTAT [7] OVF, W1C, reset 0 (spec/14) -/
  | ECC_LOGSTAT_OVF
  /-- ECC_LOGSTAT [8] CFGERR, W1C, reset 0 (spec/14) -/
  | ECC_LOGSTAT_CFGERR
  /-- ECC_LOGSTAT [31:16] LOST, RC, reset 0 (spec/14) -/
  | ECC_LOGSTAT_LOST
  /-- ERR_LOG_LO [31:0] ADDR, RO, reset 0; high half in ERR_LOG_HI (spec/14) -/
  | ERR_LOG_ADDR
  /-- ERR_LOG_HI [9:8] KIND, RO, reset 0b00 (spec/14) -/
  | ERR_LOG_KIND
  /-- ERR_LOG_HI [12:10] SRC, RO, reset 0b000 (spec/14) -/
  | ERR_LOG_SRC
  /-- ERR_LOG_HI [13] PUN, RO, reset 0 (spec/14) -/
  | ERR_LOG_PUN
  /-- ERR_LOG_HI [14] DLY, RO, reset 0 (spec/14) -/
  | ERR_LOG_DLY
  /-- ERR_LOG_HI [15] VALID, RO, reset 0 (spec/14) -/
  | ERR_LOG_VALID
  /-- ERR_LOG_HI [29:16] SYN, RO, reset 0 (spec/14) -/
  | ERR_LOG_SYN
  /-- ERR_LOG_EPLO [31:0] EPOCH, RO, reset 0; high half in ERR_LOG_EPHI (spec/14) -/
  | ERR_LOG_EPOCH
  /-- REP_CMD [23:16] RESULT, RO, reset 0x00 (spec/14) -/
  | REP_CMD_RESULT
  /-- REP_ADDR_LO [31:0] ADDR, RW, reset 0; high half in REP_ADDR_HI (spec/14) -/
  | REP_ADDR_ADDR
  /-- REP_STAT [4:0] NVMPEND, RO, reset 0 (spec/14) -/
  | REP_STAT_NVMPEND
  /-- REP_STAT [5] RETIRED, RO, reset 0 (spec/14) -/
  | REP_STAT_RETIRED
  /-- REP_STAT [9:6] RCH, RO, reset 0 (spec/14) -/
  | REP_STAT_RCH
  /-- REP_SPARE [7:0] ROWS, RO, reset 128 (spec/14) -/
  | REP_SPARE_ROWS
  /-- REP_SPARE [12:8] HARD, RO, reset 0 (spec/14) -/
  | REP_SPARE_HARD
  /-- REP_SPARE [15:13] TSV, RO, reset 0 (spec/14) -/
  | REP_SPARE_TSV
  /-- TST_ADDR_LO [31:0] ADDR, RW, reset 0; high half in TST_ADDR_HI (spec/14) -/
  | TST_ADDR_ADDR
  /-- TST_DATA_LO [31:0] DATA, RW, reset 0; high half in TST_DATA_HI (spec/14) -/
  | TST_DATA_DATA
  /-- TST_TAG [13:0] CHK, RW, reset 0 (spec/14) -/
  | TST_TAG_CHK
  /-- TST_TAG [14] U, RW, reset 0 (spec/14) -/
  | TST_TAG_U
  /-- TST_TAG [15] P, RW, reset 0 (spec/14) -/
  | TST_TAG_P
  /-- TST_CMD [3] BUSY, RO, reset 0 (spec/14) -/
  | TST_CMD_BUSY
  /-- TST_CMD [15:8] RESULT, RO, reset 0x00 (spec/14) -/
  | TST_CMD_RESULT
  /-- TST_CMD [17:16] OUTCOME, RO, reset 0b00 (spec/14) -/
  | TST_CMD_OUTCOME
  /-- XP_STAT [0] BE, W1C, reset 0 (spec/15) -/
  | XP_STAT_BE
  /-- XP_STAT [1] BADADDR, W1C, reset 0 (spec/15) -/
  | XP_STAT_BADADDR
  /-- XP_STAT [2] WRDISC, W1C, reset 0 (spec/15) -/
  | XP_STAT_WRDISC
  /-- XP_STAT [3] STARVE, W1C, reset 0 (spec/15) -/
  | XP_STAT_STARVE
  /-- BAR2_MAP [7:0] PAGE, RW, reset i (spec/15) -/
  | BAR2_MAP_PAGE
  /-- BAR2_MAP [8] EN, RW, reset 1 (spec/15) -/
  | BAR2_MAP_EN
  /-- HV_CTL [0] EN, RW, reset 0 (spec/15) -/
  | HV_CTL_EN
  /-- HV_RBASE_LO [31:0] ADDR, RW, reset 0; high half in HV_RBASE_HI (spec/15) -/
  | HV_RBASE_ADDR
  /-- HV_RSIZE [15:0] SIZE, RW, reset 0 (spec/15) -/
  | HV_RSIZE_SIZE
  /-- HV_PROD [15:0] IDX, RW, reset 0 (spec/15) -/
  | HV_PROD_IDX
  /-- HV_CONS [15:0] IDX, RO, reset 0 (spec/15) -/
  | HV_CONS_IDX
  /-- HV_STAT [0] BUSY, RO, reset 0 (spec/15) -/
  | HV_STAT_BUSY
  /-- HV_STAT [1] CFGERR, W1C, reset 0 (spec/15) -/
  | HV_STAT_CFGERR
  /-- HV_STAT [2] FETCHERR, W1C, reset 0 (spec/15) -/
  | HV_STAT_FETCHERR
  /-- HV_BYTES [31:0] COUNT, RC, reset 0 (spec/15) -/
  | HV_BYTES_COUNT
  /-- MB_STAT [0] PEND, RO, reset 0 (spec/16) -/
  | MB_STAT_PEND
  /-- MB_STAT [1] RSP, W1C, reset 0 (spec/16) -/
  | MB_STAT_RSP
  /-- MB_STAT [2] ERR, W1C, reset 0 (spec/16) -/
  | MB_STAT_ERR
  /-- MB_STAT [3] NOFW, RO, reset 1 (spec/16) -/
  | MB_STAT_NOFW
  /-- MGT_CTL [1] AUTO, RW, reset 0 (spec/16) -/
  | MGT_CTL_AUTO
  /-- MGT_EVSTAT [12:0] QUEUED, RO, reset 0 (spec/16) -/
  | MGT_EVSTAT_QUEUED
  /-- MGT_EVSTAT [31:16] LOST, RC, reset 0 (spec/16) -/
  | MGT_EVSTAT_LOST
  /-- TW_CFG [0] PEC, RW, reset 1 (spec/17) -/
  | TW_CFG_PEC
  /-- TW_CFG [1] TOEN, RW, reset 1 (spec/17) -/
  | TW_CFG_TOEN
  /-- TW_CFG [2] ADDR2EN, RW, reset 0 (spec/17) -/
  | TW_CFG_ADDR2EN
  /-- TW_CFG [3] MASKEN, RW, reset 0 (spec/17) -/
  | TW_CFG_MASKEN
  /-- TW_ADDR [6:0] PRIMARY, RO, reset 0x60 or ADDR[2:0] (spec/17) -/
  | TW_ADDR_PRIMARY
  /-- TW_ADDR [14:8] ADDR2, RW, reset 0 (spec/17) -/
  | TW_ADDR_ADDR2
  /-- TW_ADDR [22:16] MASK, RW, reset 0 (spec/17) -/
  | TW_ADDR_MASK
  /-- TW_SETUP [5:0] HOLD, RW, reset 15 (spec/17) -/
  | TW_SETUP_HOLD
  /-- TW_SETUP [13:8] SETUP, RW, reset 15 (spec/17) -/
  | TW_SETUP_SETUP
  /-- TW_CCLK [9:0] LOW, RW, reset 250 (spec/17) -/
  | TW_CCLK_LOW
  /-- TW_CCLK [25:16] HIGH, RW, reset 200 (spec/17) -/
  | TW_CCLK_HIGH
  /-- TW_ALERT [6:0] HOSTADDR, RW, reset 0x08 (spec/17) -/
  | TW_ALERT_HOSTADDR
  /-- TW_ALERT [7] EN, RW, reset 0 (spec/17) -/
  | TW_ALERT_EN
  /-- TW_ALERT [11:8] CAUSES, RW, reset 0xF (spec/17) -/
  | TW_ALERT_CAUSES
  /-- TW_STAT [0] PECERR, W1C, reset 0 (spec/17) -/
  | TW_STAT_PECERR
  /-- TW_STAT [1] PROTO, W1C, reset 0 (spec/17) -/
  | TW_STAT_PROTO
  /-- TW_STAT [2] TOUT, W1C, reset 0 (spec/17) -/
  | TW_STAT_TOUT
  /-- TW_STAT [3] ALERTFAIL, W1C, reset 0 (spec/17) -/
  | TW_STAT_ALERTFAIL
  /-- TW_STAT [4] MCTPFAIL, W1C, reset 0 (spec/17) -/
  | TW_STAT_MCTPFAIL
  /-- TW_STAT [5] REGERR, W1C, reset 0 (spec/17) -/
  | TW_STAT_REGERR
  /-- TW_STAT [6] PECMISS, W1C, reset 0 (spec/17) -/
  | TW_STAT_PECMISS
  /-- TW_CNT [15:0] NAKBUSY, RC, reset 0 (spec/17) -/
  | TW_CNT_NAKBUSY
  /-- TW_CNT [31:16] RETRIES, RC, reset 0 (spec/17) -/
  | TW_CNT_RETRIES
  /-- TW_MBSTAT [0] PEND, RO, reset 0 (spec/17) -/
  | TW_MBSTAT_PEND
  /-- TW_MBSTAT [1] RSP, W1C, reset 0 (spec/17) -/
  | TW_MBSTAT_RSP
  /-- TW_MBSTAT [2] ERR, W1C, reset 0 (spec/17) -/
  | TW_MBSTAT_ERR
  /-- TW_MBSTAT [3] NOFW, RO, reset 1 (spec/17) -/
  | TW_MBSTAT_NOFW
  /-- RND_STAT [0] APPR, RO, reset 0 (spec/18) -/
  | RND_STAT_APPR
  /-- RND_STAT [1] ERROR, RO, reset 0 (spec/18) -/
  | RND_STAT_ERROR
  /-- RND_STAT [3:2] DBGLVL, RO, reset 0b00 (spec/18) -/
  | RND_STAT_DBGLVL
  /-- RND_STAT [4] SESS, RO, reset 0 (spec/18) -/
  | RND_STAT_SESS
  /-- RND_STAT [5] BUSY, RO, reset 1 (spec/18) -/
  | RND_STAT_BUSY
  /-- RND_STAT [6] CMDERR, W1C, reset 0 (spec/18) -/
  | RND_STAT_CMDERR
  /-- RND_STAT [7] DECOM, RO, reset 0 (spec/18) -/
  | RND_STAT_DECOM
  /-- RND_STAT [14:8] ASC, RO, reset 0 (spec/18) -/
  | RND_STAT_ASC
  /-- RND_STAT [19:16] OPSLOT, RO, reset 0 (spec/18) -/
  | RND_STAT_OPSLOT
  /-- RND_STAT [23:20] OPREV, RO, reset 0 (spec/18) -/
  | RND_STAT_OPREV
  /-- RND_SERIAL_LO [31:0] SERIAL, RO, reset Device serial; high half in RND_SERIAL_HI (spec/18) -/
  | RND_SERIAL_SERIAL
  /-- RND_CMD [31:24] RESULT, RO, reset 0x00 (spec/18) -/
  | RND_CMD_RESULT
  /-- RND_ZCNT [15:0] COUNT, RC, reset 0 (spec/18) -/
  | RND_ZCNT_COUNT
  /-- RND_PKEY [31:0] LOADED, RO, reset 0 (spec/18) -/
  | RND_PKEY_LOADED
  /-- RND_IKEY [31:0] LOADED, RO, reset 0 (spec/18) -/
  | RND_IKEY_LOADED
  /-- FLT_CTL [0] IRQEN, RW, reset 0 (spec/19) -/
  | FLT_CTL_IRQEN
  /-- FLT_GSTAT [0] FAULTN, RO, reset 0 (spec/19) -/
  | FLT_GSTAT_FAULTN
  /-- FLT_GSTAT [1] IRQ, W1C, reset 0 (spec/19) -/
  | FLT_GSTAT_IRQ
  /-- FLT_GSTAT [2] TRAPPEND, RO, reset 0 (spec/19) -/
  | FLT_GSTAT_TRAPPEND
  /-- FLT_FIRST_LO [31:0] ADDR, RO, reset 0; high half in FLT_FIRST_HI (spec/19) -/
  | FLT_FIRST_ADDR
  /-- FLT_FIRST_SRC [10:0] SOURCE, RO, reset 0 (spec/19) -/
  | FLT_FIRST_SRC_SOURCE
  /-- FLT_FIRST_SRC [15:12] KIND, RO, reset 0x0 (spec/19) -/
  | FLT_FIRST_SRC_KIND
  /-- FLT_FIRST_SRC [18:16] REACT, RO, reset 0b000 (spec/19) -/
  | FLT_FIRST_SRC_REACT
  /-- FLT_FIRST_SRC [24] VALID, W1C, reset 0 (spec/19) -/
  | FLT_FIRST_SRC_VALID
  /-- FLT_FIRST_SRC [25] OVF, RO, reset 0 (spec/19) -/
  | FLT_FIRST_SRC_OVF
  /-- FLT_FIRST_SRC [26] INJ, RO, reset 0 (spec/19) -/
  | FLT_FIRST_SRC_INJ
  /-- FLT_FIRST_SRC [27] COLLIDE, RO, reset 0 (spec/19) -/
  | FLT_FIRST_SRC_COLLIDE
  /-- FLT_FIRST_SRC [28] ESC, RO, reset 0 (spec/19) -/
  | FLT_FIRST_SRC_ESC
  /-- FLT_FIRST_EPLO [31:0] EPOCH, RO, reset 0; high half in FLT_FIRST_EPHI (spec/19) -/
  | FLT_FIRST_EPOCH
  /-- FLT_RSTCAUSE [10:0] SOURCE, RO, reset 0 (spec/19) -/
  | FLT_RSTCAUSE_SOURCE
  /-- FLT_RSTCAUSE [15:12] KIND, RO, reset 0x0 (spec/19) -/
  | FLT_RSTCAUSE_KIND
  /-- FLT_RSTCAUSE [16] VALID, RO, reset 0 (spec/19) -/
  | FLT_RSTCAUSE_VALID
  /-- FLT_RSTCAUSE [17] ESC, RO, reset 0 (spec/19) -/
  | FLT_RSTCAUSE_ESC
  /-- FLT_DROP [31:0] COUNT, RC, reset 0 (spec/19) -/
  | FLT_DROP_COUNT
  /-- FLT_EVLOST [31:0] COUNT, RC, reset 0 (spec/19) -/
  | FLT_EVLOST_COUNT
  /-- FLT_INJ [5:0] CHECKER, RW, reset 0 (spec/19) -/
  | FLT_INJ_CHECKER
  /-- FLT_INJ [7:6] BITS, RW, reset 0b00 (spec/19) -/
  | FLT_INJ_BITS
  /-- FLT_INJ [15:8] COUNT, RW, reset 0 (spec/19) -/
  | FLT_INJ_COUNT
  /-- FLT_INJ [17] BUSY, RO, reset 0 (spec/19) -/
  | FLT_INJ_BUSY
  /-- FLT_INJ [31:24] RESULT, RO, reset 0x00 (spec/19) -/
  | FLT_INJ_RESULT
  /-- FLT_STAT [31:0] STAT, W1C, reset 0 (spec/19) -/
  | FLT_STAT_STAT
  /-- FLT_SEV [2:0] REACT, RW, reset Under R562 (spec/19) -/
  | FLT_SEV_REACT
  /-- FLT_SEV [6:3] CLASS, RW, reset 0 (spec/19) -/
  | FLT_SEV_CLASS
  /-- CLK_SEL [0] BREF, RO, reset 0 (spec/20) -/
  | CLK_SEL_BREF
  /-- CLK_SEL [1] HSRC, RW, reset 1 (spec/20) -/
  | CLK_SEL_HSRC
  /-- CLK_SEL [3:2] FSEL, RW, reset 0b00 (spec/20) -/
  | CLK_SEL_FSEL
  /-- CLK_DIV [3:0] HDIV, RW, reset 4 (spec/20) -/
  | CLK_DIV_HDIV
  /-- CLK_DIV [7:4] PDIV, RW, reset 2 (spec/20) -/
  | CLK_DIV_PDIV
  /-- CLK_STAT [3:0] QRDY, RO, reset 0 (spec/20) -/
  | CLK_STAT_QRDY
  /-- CLK_STAT [4] XRDY, RO, reset 0 (spec/20) -/
  | CLK_STAT_XRDY
  /-- CLK_STAT [5] CPLLRDY, RO, reset 0 (spec/20) -/
  | CLK_STAT_CPLLRDY
  /-- CLK_STAT [6] AONRDY, RO, reset 0 (spec/20) -/
  | CLK_STAT_AONRDY
  /-- CLK_STAT [8:7] MRDY, RO, reset 0 (spec/20) -/
  | CLK_STAT_MRDY
  /-- CLK_STAT [9] TRDY, RO, reset 0 (spec/20) -/
  | CLK_STAT_TRDY
  /-- CLK_STAT [10] FALLBACK, RO, reset 0 (spec/20) -/
  | CLK_STAT_FALLBACK
  /-- CLK_STAT [11] SWBUSY, RO, reset 0 (spec/20) -/
  | CLK_STAT_SWBUSY
  /-- CLK_STAT [12] SWREF, W1C, reset 0 (spec/20) -/
  | CLK_STAT_SWREF
  /-- CLK_STAT [13] GATEERR, W1C, reset 0 (spec/20) -/
  | CLK_STAT_GATEERR
  /-- CLK_FAIL_LO [31:0] FAIL, RO, reset 0; high half in CLK_FAIL_HI (spec/20) -/
  | CLK_FAIL_FAIL
  /-- CLK_GPEND_LO [31:0] GATE_PEND, RO, reset 0; high half in CLK_GPEND_HI (spec/20) -/
  | CLK_GPEND_GATE_PEND
  /-- CLK_CMD [15:8] RESULT, RO, reset 0x00 (spec/20) -/
  | CLK_CMD_RESULT
  /-- CLK_RUN_LO [31:0] EN, RW, reset 0xFFFF_FFFF; high half in CLK_RUN_HI (spec/20) -/
  | CLK_RUN_EN
  /-- CLK_SLP_LO [31:0] EN, RW, reset 0xFFF0_FFFF; high half in CLK_SLP_HI (spec/20) -/
  | CLK_SLP_EN
  /-- CLK_DSLP_LO [31:0] EN, RW, reset 0x8A00_0000; high half in CLK_DSLP_HI (spec/20) -/
  | CLK_DSLP_EN
  /-- FM_CTL [9:0] TGT, RW, reset 0 (spec/20) -/
  | FM_CTL_TGT
  /-- FM_CTL [16:10] REF, RW, reset 29 (spec/20) -/
  | FM_CTL_REF
  /-- FM_CTL [21:17] GATE, RW, reset 20 (spec/20) -/
  | FM_CTL_GATE
  /-- FM_CTL [22] MODE, RW, reset 0 (spec/20) -/
  | FM_CTL_MODE
  /-- FM_CTL [24] BUSY, RO, reset 0 (spec/20) -/
  | FM_CTL_BUSY
  /-- FM_CTL [25] ERR, W1C, reset 0 (spec/20) -/
  | FM_CTL_ERR
  /-- FM_COUNT_LO [31:0] COUNT, RO, reset 0; high half in FM_COUNT_HI (spec/20) -/
  | FM_COUNT_COUNT
  /-- FM_NOM [31:0] KHZ, RW, reset 0 (spec/20) -/
  | FM_NOM_KHZ
  /-- FM_SSC [15:0] FMAX, RO, reset 0 (spec/20) -/
  | FM_SSC_FMAX
  /-- FM_SSC [31:16] FMIN, RO, reset 0 (spec/20) -/
  | FM_SSC_FMIN
  /-- FM_SSC2 [12:0] DEPTH, RO, reset 0 (spec/20) -/
  | FM_SSC2_DEPTH
  /-- FM_SSC2 [27:16] MODF, RO, reset 0 (spec/20) -/
  | FM_SSC2_MODF
  /-- FM_SSC2 [28] NOSSC, RO, reset 0 (spec/20) -/
  | FM_SSC2_NOSSC
  /-- FM_MEAN [15:0] MEAN, RO, reset 0 (spec/20) -/
  | FM_MEAN_MEAN
  /-- PWR_STAT_LO [31:0] ON, RO, reset 0; high half in PWR_STAT_HI (spec/21) -/
  | PWR_STAT_ON
  /-- PWR_STAT_HI [24] ERR, W1C, reset 0 (spec/21) -/
  | PWR_STAT_ERR
  /-- PWR_OFF_LO [31:0] OFF, RW, reset 0; high half in PWR_OFF_HI (spec/21) -/
  | PWR_OFF_OFF
  /-- RST_CMD [15:8] RESULT, RO, reset 0x00 (spec/21) -/
  | RST_CMD_RESULT
  /-- RST_STAT [1:0] LAST, RO, reset 0b00 (spec/21) -/
  | RST_STAT_LAST
  /-- RST_STAT [31:16] MGMTCNT, RC, reset 0 (spec/21) -/
  | RST_STAT_MGMTCNT
  /-- HK_VAL [15:0] VALUE, RO, reset 0 (spec/21) -/
  | HK_VAL_VALUE
  /-- HK_VAL [16] VALID, RO, reset 0 (spec/21) -/
  | HK_VAL_VALID
  /-- HK_STAT [15:0] ROUNDS, RO, reset 0 (spec/21) -/
  | HK_STAT_ROUNDS
  /-- HK_STAT [16] AONMODE, RO, reset 0 (spec/21) -/
  | HK_STAT_AONMODE
  /-- THM_CFG [7:0] DIEWARN, RW, reset 100 (spec/21) -/
  | THM_CFG_DIEWARN
  /-- THM_CFG [15:8] DRAMWARN, RW, reset 90 (spec/21) -/
  | THM_CFG_DRAMWARN
  /-- THM_STAT [7:0] DIEMAX, RO, reset 0 (spec/21) -/
  | THM_STAT_DIEMAX
  /-- THM_STAT [15:8] DRAMMAX, RO, reset 0 (spec/21) -/
  | THM_STAT_DRAMMAX
  /-- THM_STAT [16] HOT, RO, reset 0 (spec/21) -/
  | THM_STAT_HOT
  /-- THM_STAT [20:17] COOLCNT, RO, reset 0 (spec/21) -/
  | THM_STAT_COOLCNT
  /-- THM_STAT [21] CFGERR, W1C, reset 0 (spec/21) -/
  | THM_STAT_CFGERR
  /-- DROOP_CNT [15:0] COUNT, RC, reset 0 (spec/21) -/
  | DROOP_CNT_COUNT
  /-- PRS_PLIM [6:0] LIMIT, RW, reset 104 (spec/21) -/
  | PRS_PLIM_LIMIT
  /-- PRS_PLIM [12:8] SHARE0, RW, reset 8 (spec/21) -/
  | PRS_PLIM_SHARE0
  /-- PRS_PLIM [22:16] EFF, RO, reset 104 (spec/21) -/
  | PRS_PLIM_EFF
  /-- PRS_PLIM [23] THROT, RO, reset 0 (spec/21) -/
  | PRS_PLIM_THROT
  /-- CU_CTL [2:0] POLY, RW, reset 0b000 (spec/22) -/
  | CU_CTL_POLY
  /-- CU_CTL [3] CMPEN, RW, reset 0 (spec/22) -/
  | CU_CTL_CMPEN
  /-- CU_CTL [5:4] AMODE, RW, reset 0b00 (spec/22) -/
  | CU_CTL_AMODE
  /-- CU_CTL [7:6] AWID, RW, reset 0b10 (spec/22) -/
  | CU_CTL_AWID
  /-- CU_CTL [31:16] LEN, RW, reset 0 (spec/22) -/
  | CU_CTL_LEN
  /-- CU_VAL_LO [31:0] VAL, RW, reset 0xFFFF_FFFF; high half in CU_VAL_HI (spec/22) -/
  | CU_VAL_VAL
  /-- CU_RES_LO [31:0] RES, RO, reset 0; high half in CU_RES_HI (spec/22) -/
  | CU_RES_RES
  /-- CU_EXP_LO [31:0] EXP, RW, reset 0; high half in CU_EXP_HI (spec/22) -/
  | CU_EXP_EXP
  /-- CU_ALIVE [15:0] AOFS, RW, reset 0 (spec/22) -/
  | CU_ALIVE_AOFS
  /-- CU_ALAST [31:0] LAST, RW, reset 0 (spec/22) -/
  | CU_ALAST_LAST
  /-- CU_STAT [0] MATCH, W1C, reset 0 (spec/22) -/
  | CU_STAT_MATCH
  /-- CU_STAT [1] MISM, W1C, reset 0 (spec/22) -/
  | CU_STAT_MISM
  /-- CU_STAT [2] REPEAT, W1C, reset 0 (spec/22) -/
  | CU_STAT_REPEAT
  /-- CU_STAT [3] SKIP, W1C, reset 0 (spec/22) -/
  | CU_STAT_SKIP
  /-- CU_STAT [4] OVERRUN, W1C, reset 0 (spec/22) -/
  | CU_STAT_OVERRUN
  /-- CU_STAT [5] AVALID, RW, reset 0 (spec/22) -/
  | CU_STAT_AVALID
  /-- CU_CNT [15:0] CNT, RW, reset 0 (spec/22) -/
  | CU_CNT_CNT
  /-- CU_LRES_LO [31:0] RES, RO, reset 0; high half in CU_LRES_HI (spec/22) -/
  | CU_LRES_RES
  /-- F5_CTL [15:0] EN, RW, reset 0 (spec/25) -/
  | F5_CTL_EN
  /-- F5_CTL [31:16] CAP, RW, reset 0 (spec/25) -/
  | F5_CTL_CAP
  /-- F5_STAT [15:0] ACT, RO, reset 0 (spec/25) -/
  | F5_STAT_ACT
  /-- F5_STAT [16] CTLERR, W1C, reset 0 (spec/25) -/
  | F5_STAT_CTLERR
  /-- F5_STAT [17] OWNERR, W1C, reset 0 (spec/25) -/
  | F5_STAT_OWNERR
  /-- F5_STAT [18] CAPERR, W1C, reset 0 (spec/25) -/
  | F5_STAT_CAPERR
  /-- F5_STAT [31:20] SKIP, RC, reset 0 (spec/25) -/
  | F5_STAT_SKIP
  /-- F5_MODE [2:0] AB, RW, reset 0b000 (spec/25) -/
  | F5_MODE_AB
  /-- F5_MODE [5:3] BA, RW, reset 0b000 (spec/25) -/
  | F5_MODE_BA
  /-- F5_MODE [9:6] PAT, RW, reset 0x0 (spec/25) -/
  | F5_MODE_PAT
  /-- F5_MODE [11:10] PROTO, RW, reset 0b00 (spec/25) -/
  | F5_MODE_PROTO
  /-- F5_MODE [14:12] WIDTH, RW, reset 0b000 (spec/25) -/
  | F5_MODE_WIDTH
  /-- F5_MODE [17:15] RATE, RW, reset 0b000 (spec/25) -/
  | F5_MODE_RATE
  /-- F5_MODE [21:18] ERRLOG, RW, reset 0 (spec/25) -/
  | F5_MODE_ERRLOG
  /-- F5_MODE [22] UPSIDE, RW, reset 0 (spec/25) -/
  | F5_MODE_UPSIDE
  /-- F5_MODE [23] SRIS, RW, reset 0 (spec/25) -/
  | F5_MODE_SRIS
  /-- F5_MODE [31:24] CODE, RO, reset 0x00 (spec/25) -/
  | F5_MODE_CODE
  /-- Straps ADDR[2:0] as sampled at POR release (R487) -/
  | X_STRAP_ADDR
  /-- Straps RDLY[2:0] as sampled at POR release (R31) -/
  | X_STRAP_RDLY
  /-- Pin RESET_N held low after a PIN reset began (R599) -/
  | X_RESETN_LOW
  /-- Pin PERST_N released (R35) -/
  | X_PERSTN_HIGH
  /-- Readout port ready for enumeration (R35) -/
  | X_PORT_UP
  /-- References found present: bits 0 to 3 RCLK0 to 3, bit 4 XREFCLK (R31) -/
  | X_REF_PRES
  /-- References past their RDLY wait (R31) -/
  | X_REF_DONE
  /-- BREF has been chosen (R565) -/
  | X_BREF_SET
  /-- Pin THERM_N driven low (R598) -/
  | X_THERMN_LOW
  /-- Throttle value THR of R594, W -/
  | X_THR
  /-- Path stopped under R18 -/
  | X_PATH_STOPPED
  /-- Lane idled by the partners in L0p (R219) -/
  | X_LANE_IDLE
  /-- Return stack entry: thread * 8 + i (R251) -/
  | X_RSTK
  /-- Return stack depth, 0 to 8 (R251) -/
  | X_RDEPTH
  /-- Delay-line and replay bytes moved in the current admission window, tower t (R383) -/
  | X_DLY_BYTES
  /-- Harvest and BAR2 bytes read in the current admission window, tower t (R383) -/
  | X_RD_BYTES
  /-- Admission windows ended on tower t, the press's own measure of 128 ns (R383) -/
  | X_WINDOW
  /-- Bytes written since punnet k entered FILL, or since its trigger record in POST (R359) -/
  | X_PUN_SINCE
  /-- Sequence number of punnet k's own records (R378) -/
  | X_PUN_SEQ
  /-- A press window dropped a record (tower t) -/
  | X_ESHED
  /-- The management firmware runs and has reported ready (R12, R548) -/
  | X_FWUP
  /-- First slab of the clear in progress, tower t (R405) -/
  | X_CLR_FIRST
  /-- Slabs of the clear in progress, tower t (R405) -/
  | X_CLR_COUNT
  /-- Bytes of bandwidth that the clear has taken toward its next slab, tower t (R406) -/
  | X_CLR_ACC
  /-- Next burst of the scrubber, channel 16t + c (R424) -/
  | X_SCR_POS
  /-- Age of log entry 64t + i (R423) -/
  | X_LOG_ORD
  /-- Log entries made by tower t (R423) -/
  | X_LOG_SEQ
  /-- The threshold event of a pseudo-channel was raised since its count was last read (R421) -/
  | X_CE_RAISED
  /-- Repair in progress in tower t: 1 soft, 2 hard, 3 TSV, 4 retirement (R433) -/
  | X_REP_OP
  /-- Its channel -/
  | X_REP_CH
  /-- Its TSV -/
  | X_REP_LANE
  /-- Its pseudo-channel -/
  | X_REP_PC
  /-- Its bank, 4 * group + bank -/
  | X_REP_BANK
  /-- Its row -/
  | X_REP_ROW
  /-- It was started by REP_CMD, which shows its end -/
  | X_REP_CMD
  /-- A CHAN reset of channel 16t + c waits for a repair (R443) -/
  | X_CHRST_WAIT
  /-- Outcome of the test-window READ in progress plus 1, or 0 for another operation -/
  | X_TST_OUT
  /-- Checker of the armed fault injection (R559) -/
  | X_INJ_CHECKER
  /-- Its inverted bits -/
  | X_INJ_BITS
  /-- Its checks left -/
  | X_INJ_LEFT
  /-- A run of messages found the queue full, and source 1074 has not been raised for it (R557) -/
  | X_FQ_RUN
  /-- Cells written to the path's delay line since it was last empty (R414, R19) -/
  | X_DLY_CNT
  /-- A rising edge of punnet k's trigger line waits to be taken (R361) -/
  | X_PUN_EDGE
  /-- Line i is held high by a pulse of 8 ns (R232) -/
  | X_TL_PULSE
  /-- Position from which the path's capture is on (R303) -/
  | X_CAP_FROM
  /-- The matcher has fired since it was armed (R331) -/
  | X_M_FIRED
  /-- Data word of the entry's block, or burst count and first bit (R334, R307) -/
  | X_INJ_DATA
  /-- Source of the entry: matcher, or 32 + thread (R350) -/
  | X_INJ_SRC
  /-- Acceptance order of the entry (R347) -/
  | X_INJ_ORD
  /-- Entries accepted by the grove's queue -/
  | X_INJ_SEQ
  /-- The target is what was hit (R334): 1 a decoded unit, 2 a line unit or block -/
  | X_INJ_HIT
  /-- Number of the decoded unit that was hit -/
  | X_INJ_ITEM
  /-- Block of its codeword that was hit -/
  | X_INJ_BLK
  /-- Bytes of the target that had passed the stage at the hit (R652) -/
  | X_INJ_PASSED
  /-- The named unit of a waiting insert has passed (R349) -/
  | X_INJ_REACH
  /-- Position of the named unit once it has passed -/
  | X_INJ_NPOS
  /-- A first TREF frame has passed its CRC (R229) -/
  | X_TREF_ACQ
  /-- Its epoch -/
  | X_TREF_LAST
  /-- Run of frames that failed their CRC or sync (R229) -/
  | X_TREF_BAD
  /-- Run of frames that disagreed with the count (R229) -/
  | X_TREF_DIS
  /-- EPOCH frames with VALID = 1 since the source was lost (R242) -/
  | X_EPF_OK
  /-- Exchanges completed since the source was lost (R242) -/
  | X_EXCH
  /-- Ticks still to slew, two's complement (R226) -/
  | X_SLEW_LEFT
  /-- The next tick is held by a slew back (R226) -/
  | X_SLEW_HOLD
  /-- Sequence number of the last DREQ (R237) -/
  | X_DREQ_SEQ
  /-- Its stamp t1 (R239) -/
  | X_DREQ_T1
  /-- Node ID of the parent (R237) -/
  | X_PARENT
  /-- A TRIG frame has been received (R246) -/
  | X_RSEQ_SEEN
  /-- Log records written, to 64 (R350) -/
  | X_INJ_LOGN
  /-- Towers in which the descriptor that engine e carries out lies, a bit each (R434) -/
  | X_HV_TWR
  /-- Oldest cell that the delay line still holds -/
  | X_DLY_LO
  /-- CELLS in force on a path in DELAY (R155) -/
  | X_DLY_EFF
  /-- A host write of CELLS waits for its unit (R155) -/
  | X_DLYH_V
  /-- Its position -/
  | X_DLYH_POS
  /-- A DLY waits: 1 for a position, 2 for an epoch (R311) -/
  | X_DLYP_V
  /-- Its moment -/
  | X_DLYP_M
  /-- Its cells -/
  | X_DLYP_C
  /-- A SKPADJ waits (R311) -/
  | X_SKP_V
  /-- Its position -/
  | X_SKP_POS
  /-- It shortens -/
  | X_SKP_DIR
  /-- Elastic buffer of the path: 0 one granule short, 1 centred, 2 one granule long (R102) -/
  | X_EB_OFS
  /-- LNK_PCI in force (R93) -/
  | X_PCI_EFF
  /-- Trained coefficients of the port, bit 30: valid (R176) -/
  | X_FIR_TRN
  /-- TX_CLK in force (R173) -/
  | X_SSC_EFF
  /-- A receiver detection of the port runs (R179) -/
  | X_DET_RUN
  /-- CAL_CMD 0x3 named lane n since its last foreground calibration (R204) -/
  | X_CAL_FG
  /-- Lane n runs default trim (R50) -/
  | X_CAL_DFLT
  /-- Next transmit sequence number of the terminator (R117) -/
  | X_LT_SEQ
  /-- Target rate set by RATE, plus 1 (R298) -/
  | X_LT_TGT
  /-- A TRAIN or RATE has not yet reached L0 or data mode (R297) -/
  | X_LT_BUSY
  /-- Header credits advertised: 3 (2g + t) + type, 0 posted, 1 non-posted, 2 completion (R124) -/
  | X_LT_HC
  /-- Data credits advertised (R124) -/
  | X_LT_DC
  /-- Consecutive error-free UI that the pattern checker has seen, to 256 (R151) -/
  | X_PCHK_RUN
  /-- Receiver r of the trim index: 0 idle, 1 queued, 2 running, 3 paused, 4 stuck (R195 to R203) -/
  | X_CAL_ST
  /-- Step of its run, 1 to 5 (R189) -/
  | X_CAL_STEP
  /-- Passes made in the step (R198) -/
  | X_CAL_PASS
  /-- Its last pass: PAIR, GAIN, OFS as in a slice field; bit 34: it had a solution (R207) -/
  | X_CAL_PREV
  /-- Two passes agree, and the swap is due (R191) -/
  | X_CAL_AGREE
  /-- Its swap waits for the unit at which a mode switches (R203) -/
  | X_CAL_LATER
  /-- Sensor reading at the start of its run (R194) -/
  | X_CAL_START
  /-- Consecutive failed runs (R200) -/
  | X_CAL_CONS
  /-- Housekeeping rounds to its next queuing, plus 1 (R199, R203) -/
  | X_CAL_RQ
  /-- QUAL_EYE of the last completed window (R180) -/
  | X_QW_EYE
  /-- QUAL_BER of the last completed window, STALE excluded -/
  | X_QW_BER
  /-- Codewords of the link short of the next 256 (R139) -/
  | X_FEC_ACC
  /-- Bus Master Enable of the readout function (R446) -/
  | X_BME
  /-- The readout function is in D3hot (R446) -/
  | X_D3HOT
  /-- Management core: 1 its bank awaits the hash of R477, 2 started and not yet ready (R599) -/
  | X_CORE
  /-- RST_CMD asked for the MGMT reset in progress (R601) -/
  | X_CORE_CMD
  /-- The checks of an image run (R648) -/
  | X_FW_CHK
  /-- The last chunk may still be being written (R38) -/
  | X_FW_WR
  /-- Clock switch in progress: 1 to CPLL, 2 to AONCLK (R567) -/
  | X_HSW
  /-- Clock restart in progress: its target plus 1 (R571) -/
  | X_CLKR
  /-- Alert causes pending (R505) -/
  | X_ALERT
  /-- Failed attempts of the alert so far (R506) -/
  | X_ALERT_N
  /-- Failed attempts of the packet in hand so far (R506, R508) -/
  | X_MCTP_N
  /-- MCTP endpoint ID: binding 0 two-wire, 1 PCI Express (R479) -/
  | X_EID
  /-- SPDM connection of a binding: 1 version, 2 capabilities, 3 algorithms negotiated (R481) -/
  | X_SPDM
  /-- SPDM sessions opened so far -/
  | X_SPDM_ID
  /-- Records that have entered the host event queue (R471) -/
  | X_EV_TOTAL
  /-- WARN of tower t at the last check (R474) -/
  | X_BUDGET
  /-- Operator slot of the open session (R517) -/
  | X_RND_SLOT
  /-- Key set of the last TLP decrypted on IDE binding i, plus 1 (R521) -/
  | X_IDE_LAST
  /-- TAP instruction in force (R532) -/
  | X_TAP_IR
  /-- Bytes of engine e short of the next 4,096 of HV_BYTES -/
  | X_HV_REM
  /-- Bytes of the alive field fed so far to unit u (R608) -/
  | X_CU_FLD
  /-- Which of its bytes have been fed to unit u in this message -/
  | X_CU_SEEN
  /-- Mailbox whose request was posted first: 0 BAR0, 1 two-wire (R463) -/
  | X_MB_FIRST
  /-- A host write changed both paths of lane n: 1 neither path has switched, 2 one has (R82) -/
  | X_SPLIT
  /-- Number of the next decoded unit of the path -/
  | X_ITEM
  /-- EDS token that the next ordered set follows (R368); bit 32: there is one -/
  | X_EDS
  /-- FEC codewords that have ended on the path -/
  | X_CW
  /-- Last codeword that a clean acted on, plus 1 (R348) -/
  | X_CW_CLEAN
  /-- GCLK cycle of the last hit (R329) -/
  | X_M_CYC
  /-- Equalization phase of a link in STATE 2 (R98) -/
  | X_EQ_PHASE
  /-- The port's receiver has completed its evaluation in this equalization (R100) -/
  | X_EQ_DONE
  /-- The partner asks the port's transmitter for precoding (R91) -/
  | X_PRECODE
  /-- Directions of the link in L0s: bit 0 AB, bit 1 BA (R108) -/
  | X_L0S
  /-- The partners of the link are in L1.2 (R109) -/
  | X_L12
  /-- The device drives the pin low as CLKREQ# (R111) -/
  | X_CLKREQ
  /-- Level last applied to the pin from outside -/
  | X_GSB_EXT
  /-- The pattern that path p sends, plus 1 (R149) -/
  | X_PAT_RUN
  /-- Its last bits, the newest lowest -/
  | X_PAT_REG
  /-- Bits of it sent; of a user pattern, within the pattern (R150) -/
  | X_PAT_IX
  /-- Line time of its next word that has passed, in bits over 8,000,000,000,000 -/
  | X_PAT_ACC
  /-- A switch of mode waits on the lane for its return from L0p (R110) -/
  | X_LANE_LAG
  /-- The port is being margined (R106) -/
  | X_MARG
  /-- The quality window in progress was interrupted (R183) -/
  | X_QW_CUT
  /-- CELLS in force on a path in DELAY, before R156 rounds them -/
  | X_DLY_IN
  /-- Sequence number that the terminator expects next (R117) -/
  | X_LT_RSEQ
  /-- A Nak is out, and no good TLP has come since (R117) -/
  | X_LT_NAKD
  /-- The partner has sent its Data Link Features (R117) -/
  | X_LT_DLF
  /-- Flow control initialised: bit 0 by the terminator, bits 1 to 3 by its partner for each type (R117) -/
  | X_LT_FCI
  /-- Lanes reversed (R116) -/
  | X_LT_REV
  /-- Lanes with inverted polarity (R116) -/
  | X_LT_POL
  /-- Header credits that the partner has granted, as its limit: 3 (2g + t) + type (R117) -/
  | X_LT_PH
  /-- Data credits that it has granted -/
  | X_LT_PD
  /-- It granted header (bit 0) or data (bit 1) credits without limit -/
  | X_LT_PINF
  /-- Header credits taken -/
  | X_LT_CH
  /-- Data credits taken -/
  | X_LT_CD
  /-- Cycle of line i's last set, plus 1 (R232) -/
  | X_TL_SETC
  /-- Cycle of its last clear, plus 1 -/
  | X_TL_CLRC
  /-- Its level before that clear -/
  | X_TL_WAS
  /-- Preset in use at the port's transmitter, plus 1; 0: coefficients (R95, R175) -/
  | X_EQ_PSET
  /-- Rate that the partners of a link have agreed and not yet changed to, plus 1 (R98) -/
  | X_RATE_NEXT
  /-- The path switched its mode, and no unit has been counted since (R203) -/
  | X_SWITCHED
  /-- Epoch of the rising edge that punnet k is to take (R361) -/
  | X_PUN_EDGE_T
  /-- Sub-streams of IDE binding i whose recording has stopped (R386) -/
  | X_IDE_OFF
  /-- The training set that the path carries has been edited or dropped (R127) -/
  | X_TS_CUT
  /-- Harvest engine whose turn it is (R453) -/
  | X_HV_TURN
  /-- Bytes of its burst that it has written -/
  | X_HV_BURST
  /-- The bus owner of the PCI Express binding has selected units of 256 bytes (R479) -/
  | X_MCTP_TU
  /-- Memory Space Enable of the readout function (R444, R445) -/
  | X_CFG_MSE
  /-- Its BAR0: the base address (R444) -/
  | X_CFG_BAR0
  /-- Its BAR2 -/
  | X_CFG_BAR2
  /-- MSI-X Enable -/
  | X_CFG_MSIXEN
  /-- MSI-X Function Mask -/
  | X_CFG_MSIXFM
  /-- Max_Payload_Size, coded -/
  | X_CFG_MPS
  /-- Max_Read_Request_Size, coded -/
  | X_CFG_MRRS
  /-- Threads whose wait for level 0 that clear latched, a bit each (R232) -/
  | X_TL_FELL
  deriving DecidableEq, Repr

/-- The access kinds of the register tables (spec/00): hidden marks a scalar the rules imply. -/
inductive Acc where
  | rw | ro | w1c | rc | hidden
  deriving DecidableEq, Repr

/-- The blocks of R612, as far as resets and power reach them apart. -/
inductive Blk where
  | aon | fwmbx | mbox | port | cu | cal | nvm | rind | timebase | vine | grove | tower | press | ecc | trig | harvest
  deriving DecidableEq, Repr

/-- Width in bits, from the Bits column (both halves of a pair together). -/
def Fld.width : Fld → Nat
  | .LT_RXRING_SIZE | .LT_TXRING_SIZE | .TX_PPM_PPM | .CAL_TX_Z | .TW_CCLK_LOW | .TW_CCLK_HIGH | .FM_CTL_TGT => 10
  | .FLT_FIRST_SRC_SOURCE | .FLT_RSTCAUSE_SOURCE | .X_CAL_RQ => 11
  | .LT_RXRING_BASE | .LT_TXRING_BASE | .PATH_PAT_UBASE | .TX_CLK_SSCFREQ | .PUN_SLAB_FIRST | .PUN_SLAB_COUNT | .TWR_CLRSTAT_DONE | .DLR_CFG_FIRST => 12
  | .DLR_CFG_COUNT | .FM_SSC2_MODF | .F5_STAT_SKIP | .X_CLR_FIRST | .X_CLR_COUNT | .X_LT_SEQ | .X_HV_REM | .X_LT_RSEQ => 12
  | .PATH_PAT_ULEN | .TX_CLK_SSCDEPTH | .MGT_EVSTAT_QUEUED | .FM_SSC2_DEPTH | .X_HV_BURST => 13
  | .LT_ETH_CFG_MAXLEN | .SEQ_TSTAT_PC | .SEQ_TSTART_PC | .ERR_LOG_SYN | .TST_TAG_CHK => 14
  | .FW_MBX_LEN_LEN | .X_RSTK => 15
  | .DEV_IDENT_VID | .DEV_IDENT_DID | .LT_CNT_NAKS | .LT_CNT_REPLAYS | .LT_ETH_STAT_RXDROP | .QUAL_BER_BER | .CAL_LCNT_RUNS | .PATH_POS_GEN => 16
  | .TB_STAT_STEPS | .VIN_NODE_ID | .VIN_STAT_RSEQ | .VIN_TLAST_ORG_ORIGIN | .SEQ_ACNT_CANCEL | .INJ_STAT_LOST | .PRS_CEIL_CEIL | .PUN_STAT_DAMAGE => 16
  | .IDE_STAT_MACFAIL | .ECC_CFG_CETHR | .ECC_UECNT_COUNT | .ECC_CECNT_COUNT | .SCR_STAT_PASSES | .ECC_LOGSTAT_LOST | .HV_RSIZE_SIZE | .HV_PROD_IDX => 16
  | .HV_CONS_IDX | .MGT_EVSTAT_LOST | .TW_CNT_NAKBUSY | .TW_CNT_RETRIES | .RND_ZCNT_COUNT | .FM_SSC_FMAX | .FM_SSC_FMIN | .FM_MEAN_MEAN => 16
  | .RST_STAT_MGMTCNT | .HK_VAL_VALUE | .HK_STAT_ROUNDS | .DROOP_CNT_COUNT | .CU_CTL_LEN | .CU_ALIVE_AOFS | .CU_CNT_CNT | .F5_CTL_EN => 16
  | .F5_CTL_CAP | .F5_STAT_ACT | .X_INJ_PASSED | .X_DREQ_SEQ | .X_PARENT | .X_LT_HC | .X_LT_DC | .X_SPDM_ID => 16
  | .X_LT_POL | .X_LT_PH | .X_LT_PD | .X_LT_CH | .X_LT_CD => 16
  | .NVM_WEAR0_WRITES | .NVM_WEAR1_WRITES | .X_REP_ROW => 17
  | .FW_MBX_CTL_TARGET | .PATH_SRC_SEL | .LNK_PCI_CLKMODE | .LNK_PSTAT_FMT | .LNK_PSTAT_RTPOS | .LNK_ETH_FEC | .LNK_ETH_PAUSE | .XCVR_STAT_RXDET => 2
  | .VIN_PSTAT_STATE | .INJ_ENT_INFO_STATE | .STRM_CFG_CLASS | .TWR_STAT_STATE | .CH_STAT_STATE | .ERR_LOG_KIND | .TST_CMD_OUTCOME | .RND_STAT_DBGLVL => 2
  | .FLT_INJ_BITS | .CLK_SEL_FSEL | .CLK_STAT_MRDY | .RST_STAT_LAST | .CU_CTL_AMODE | .CU_CTL_AWID | .F5_MODE_PROTO | .X_INJ_BITS => 2
  | .X_INJ_HIT | .X_TREF_BAD | .X_TREF_DIS | .X_EPF_OK | .X_HV_TWR | .X_DLYP_V | .X_EB_OFS | .X_CORE => 2
  | .X_HSW | .X_SPDM | .X_RND_SLOT | .X_IDE_LAST | .X_SPLIT | .X_EQ_PHASE | .X_L0S | .X_LT_PINF => 2
  | .FW_MBX_OFS_OFS | .FW_MBX_TOTAL_TOTAL => 21
  | .CAL_OFS_OFS | .VIN_HOPD_DELAY | .VIN_LATB_TICKS => 24
  | .X_SSC_EFF => 25
  | .X_CLR_ACC => 26
  | .PUN_PRE_KIB | .PUN_POST_KIB | .X_SCR_POS => 27
  | .RAW_RATE_KBPS => 28
  | .LINK_CFG_WIDTH | .LINK_CFG_PROTO | .PATH_MODE_AB | .PATH_MODE_BA | .LNK_PCI_MAXRATE | .LNK_PSTAT_RATE | .LNK_PSTAT_WIDTH | .LT_PCI_CFG_MAXRATE => 3
  | .LT_STAT_RATE | .GSB_CFG_FUNC | .LNK_ETH_LRATE | .LNK_ESTAT_SEGA | .LNK_ESTAT_SEGB | .LT_ETH_STAT_STATE | .XCVR_STAT_TXCLK | .QUAL_CTL_QWIN => 3
  | .QUAL_BER_OFSIDX | .CAL_CTL_TOL | .CAL_LSTAT_STATE | .CAL_LSTAT_CONSEC | .CAL_SLC_ROLE | .VIN_CTL_PEN | .SEQ_TSTAT_STATE | .SEQ_TSTAT_RSD => 3
  | .INJ_LOG_OUTCOME | .STRM_CFG_PEND | .PUN_STAT_STATE | .ERR_LOG_SRC | .REP_SPARE_TSV | .FLT_FIRST_SRC_REACT | .FLT_SEV_REACT | .CU_CTL_POLY => 3
  | .F5_MODE_AB | .F5_MODE_BA | .F5_MODE_WIDTH | .F5_MODE_RATE | .X_STRAP_ADDR | .X_STRAP_RDLY | .X_REP_OP | .X_TST_OUT => 3
  | .X_CAL_ST | .X_CAL_STEP | .X_CAL_PASS | .X_CAL_CONS | .X_IDE_OFF | .X_HV_TURN | .X_CFG_MPS | .X_CFG_MRRS => 3
  | .TX_FIRACT_ACT | .CAL_LIN_LIN => 30
  | .PATH_PCHK_ERRS | .X_FIR_TRN | .X_PAT_REG => 31
  | .PATH_DISC_COUNT | .FEC_CW_COUNT | .FEC_CORR_COUNT | .FEC_UNC_COUNT | .FEC_SYM_COUNT | .PATH_DLY_CELLS | .MATCH_CNT_COUNT | .FLT_MMASK_MMASK => 32
  | .FLT_CNT_COUNT | .PRS_DROPT_COUNT | .STRM_SEQ_SEQ | .STRM_LOSTR_COUNT | .STRM_LOSTB_COUNT | .PUN_DISC_COUNT | .RPL_NEXT_SEQ | .TWR_RFMCNT_COUNT => 32
  | .CH_REFCNT_COUNT | .HV_BYTES_COUNT | .RND_PKEY_LOADED | .RND_IKEY_LOADED | .FLT_DROP_COUNT | .FLT_EVLOST_COUNT | .FLT_STAT_STAT | .FM_NOM_KHZ => 32
  | .CU_ALAST_LAST | .X_DLY_BYTES | .X_RD_BYTES | .X_WINDOW | .X_PUN_SEQ | .X_LOG_ORD | .X_LOG_SEQ | .X_INJ_ORD => 32
  | .X_INJ_SEQ | .X_INJ_ITEM | .X_DLY_EFF | .X_DLYP_C | .X_QW_EYE | .X_QW_BER | .X_EV_TOTAL | .X_CU_FLD => 32
  | .X_ITEM | .X_CW | .X_M_CYC | .X_PAT_IX | .X_DLY_IN | .X_TL_SETC | .X_TL_CLRC => 32
  | .X_EDS | .X_CW_CLEAN => 33
  | .X_CAL_PREV => 35
  | .PUN_HEAD_OFS | .PUN_TAIL_OFS | .PUN_TRIGOFS_OFS | .X_PUN_SINCE => 37
  | .CLK_FAIL_FAIL | .CLK_GPEND_GATE_PEND | .CLK_RUN_EN | .CLK_SLP_EN | .CLK_DSLP_EN => 39
  | .DEV_STATE_STATE | .DEV_STATE_QREF_OK | .LINK_CFG_FIRST | .LT_CFG_LINK | .LNK_PSTAT_STATE | .LT_STAT_LTSSM | .GSB_CFG_LINK | .PATH_PAT_PAT => 4
  | .TX_FIR_CM2 | .SEQ_TSTAT_FLAGS | .SEQ_TSTAT_CAUSE | .PATH_FILT_FILT | .INJ_ENT_INFO_ACT | .IDE_BIND_GROVE | .IDE_BIND_LINK | .TWR_STAT_HOTDIE => 4
  | .REP_STAT_RCH | .TW_ALERT_CAUSES | .RND_STAT_OPSLOT | .RND_STAT_OPREV | .FLT_FIRST_SRC_KIND | .FLT_RSTCAUSE_KIND | .FLT_SEV_CLASS | .CLK_DIV_HDIV => 4
  | .CLK_DIV_PDIV | .CLK_STAT_QRDY | .THM_STAT_COOLCNT | .F5_MODE_PAT | .F5_MODE_ERRLOG | .X_RDEPTH | .X_REP_CH | .X_REP_BANK => 4
  | .X_LT_TGT | .X_CLKR | .X_ALERT | .X_ALERT_N | .X_MCTP_N | .X_TAP_IR | .X_CU_SEEN | .X_PAT_RUN => 4
  | .X_LT_FCI | .X_RATE_NEXT => 4
  | .ERR_LOG_ADDR | .REP_ADDR_ADDR | .TST_ADDR_ADDR => 40
  | .PATH_POS_POS | .MATCH_LPOS_POS | .INJ_LOG_POS | .PUN_RECS_COUNT | .FLT_FIRST_ADDR | .FM_COUNT_COUNT | .X_DLY_CNT | .X_CAP_FROM => 48
  | .X_INJ_NPOS | .X_DLY_LO | .X_DLYH_POS | .X_SKP_POS => 48
  | .XCVR_STAT_CTLE | .TX_FIR_CM1 | .TX_FIR_C1 | .TX_FIR_C2 | .TX_FIR_C3 | .TX_LVL_LVLTRIM | .CAL_SLC_PAIR | .CAL_SLC_GAIN => 5
  | .VIN_NODE_HOPS | .MATCH_STAT_LASTPATH | .INJ_LOG_PATH | .INJ_ENT_INFO_PATH | .PUN_CFG_IDXK | .ECC_CFG_ROWCE | .REP_STAT_NVMPEND | .REP_SPARE_HARD => 5
  | .FM_CTL_GATE | .PRS_PLIM_SHARE0 | .X_REF_PRES | .X_REF_DONE | .X_EXCH | .X_EQ_PSET => 5
  | .PWR_STAT_ON | .PWR_OFF_OFF => 56
  | .GSB_CFG_TL | .LT_ETH_CFG_IPG | .TX_FIR_C0 | .CAL_CTL_DT | .INJ_STAT_WIDX | .INJ_LOG_SRC_SOURCE | .PUN_CFG_TL | .TW_SETUP_HOLD => 6
  | .TW_SETUP_SETUP | .FLT_INJ_CHECKER | .X_INJ_CHECKER | .X_INJ_SRC => 6
  | .TB_EPOCH_EPOCH | .VIN_SENDT_T | .VIN_TLAST_T | .TL_LVL_LVL | .TL_COLL_COLL | .TL_LAST_EPOCH | .SEQ_REGS_W | .MATCH_LEP_EPOCH => 64
  | .INJ_ENT_MOMENT | .PUN_TRIG_EPOCH | .ERR_LOG_EPOCH | .TST_DATA_DATA | .HV_RBASE_ADDR | .RND_SERIAL_SERIAL | .FLT_FIRST_EPOCH | .CU_VAL_VAL => 64
  | .CU_RES_RES | .CU_EXP_EXP | .CU_LRES_RES | .X_INJ_DATA | .X_TREF_LAST | .X_DREQ_T1 | .X_DLYP_M | .X_PAT_ACC => 64
  | .X_PUN_EDGE_T | .X_CFG_BAR0 | .X_CFG_BAR2 | .X_TL_FELL => 64
  | .XCVR_STAT_DFE | .TX_LVL_SWING | .VIN_STAT_HELD | .INJ_STAT_FREE | .INJ_LOG_ENTRY | .SCR_STAT_PROG | .ECC_LOGSTAT_COUNT | .TW_ADDR_PRIMARY => 7
  | .TW_ADDR_ADDR2 | .TW_ADDR_MASK | .TW_ALERT_HOSTADDR | .RND_STAT_ASC | .FM_CTL_REF | .PRS_PLIM_LIMIT | .PRS_PLIM_EFF | .X_THR => 7
  | .X_INJ_LOGN => 7
  | .DEV_REV_STEP | .DEV_REV_ROMVER | .DEV_STATE_LASTERR | .DEV_STATE_INITSTEP | .DEV_CMD_RESULT | .PATH_MODE_CODE | .QUAL_CTL_SEQ | .QUAL_EYE_EW => 8
  | .QUAL_EYE_EHLO | .QUAL_EYE_EHMID | .QUAL_EYE_EHUP | .QUAL_BER_OFS | .CAL_CMD_RESULT | .CAL_LSTAT_TLAST_A | .CAL_LSTAT_TLAST_B | .CAL_LCNT_RETRIES => 8
  | .CAL_LCNT_FAILS | .VIN_HOPD_OFS | .VIN_ASYM_ASYM | .VIN_SEND_RESULT | .MATCH_CMD_RESULT | .FLT_CFG_CLASS | .FLT_CFG_KEEP | .STRM_CFG_PUN => 8
  | .STRM_CMD_RESULT | .PUN_CMD_RESULT | .IDE_BIND_SID | .RPL_CFG_PUN | .TWR_STAT_TMAX | .TWR_CLRSTAT_RESULT | .CH_STAT_TEMP | .CH_CMD_RESULT => 8
  | .ECC_CFG_TSVTHR | .SCR_CFG_PERIOD | .REP_CMD_RESULT | .REP_SPARE_ROWS | .TST_CMD_RESULT | .BAR2_MAP_PAGE | .RND_CMD_RESULT | .FLT_INJ_COUNT => 8
  | .FLT_INJ_RESULT | .CLK_CMD_RESULT | .RST_CMD_RESULT | .THM_CFG_DIEWARN | .THM_CFG_DRAMWARN | .THM_STAT_DIEMAX | .THM_STAT_DRAMMAX | .F5_MODE_CODE => 8
  | .X_REP_LANE | .X_INJ_LEFT | .X_INJ_BLK | .X_SLEW_LEFT | .X_CAL_START | .X_FEC_ACC | .X_EID => 8
  | .RPL_CFG_STREAM | .TWR_RFM_THRESH | .X_PCI_EFF | .X_PCHK_RUN => 9
  | _ => 1

/-- Access column. -/
def Fld.acc : Fld → Acc
  | .X_STRAP_ADDR | .X_STRAP_RDLY | .X_RESETN_LOW | .X_PERSTN_HIGH | .X_PORT_UP | .X_REF_PRES | .X_REF_DONE | .X_BREF_SET => .hidden
  | .X_THERMN_LOW | .X_THR | .X_PATH_STOPPED | .X_LANE_IDLE | .X_RSTK | .X_RDEPTH | .X_DLY_BYTES | .X_RD_BYTES => .hidden
  | .X_WINDOW | .X_PUN_SINCE | .X_PUN_SEQ | .X_ESHED | .X_FWUP | .X_CLR_FIRST | .X_CLR_COUNT | .X_CLR_ACC => .hidden
  | .X_SCR_POS | .X_LOG_ORD | .X_LOG_SEQ | .X_CE_RAISED | .X_REP_OP | .X_REP_CH | .X_REP_LANE | .X_REP_PC => .hidden
  | .X_REP_BANK | .X_REP_ROW | .X_REP_CMD | .X_CHRST_WAIT | .X_TST_OUT | .X_INJ_CHECKER | .X_INJ_BITS | .X_INJ_LEFT => .hidden
  | .X_FQ_RUN | .X_DLY_CNT | .X_PUN_EDGE | .X_TL_PULSE | .X_CAP_FROM | .X_M_FIRED | .X_INJ_DATA | .X_INJ_SRC => .hidden
  | .X_INJ_ORD | .X_INJ_SEQ | .X_INJ_HIT | .X_INJ_ITEM | .X_INJ_BLK | .X_INJ_PASSED | .X_INJ_REACH | .X_INJ_NPOS => .hidden
  | .X_TREF_ACQ | .X_TREF_LAST | .X_TREF_BAD | .X_TREF_DIS | .X_EPF_OK | .X_EXCH | .X_SLEW_LEFT | .X_SLEW_HOLD => .hidden
  | .X_DREQ_SEQ | .X_DREQ_T1 | .X_PARENT | .X_RSEQ_SEEN | .X_INJ_LOGN | .X_HV_TWR | .X_DLY_LO | .X_DLY_EFF => .hidden
  | .X_DLYH_V | .X_DLYH_POS | .X_DLYP_V | .X_DLYP_M | .X_DLYP_C | .X_SKP_V | .X_SKP_POS | .X_SKP_DIR => .hidden
  | .X_EB_OFS | .X_PCI_EFF | .X_FIR_TRN | .X_SSC_EFF | .X_DET_RUN | .X_CAL_FG | .X_CAL_DFLT | .X_LT_SEQ => .hidden
  | .X_LT_TGT | .X_LT_BUSY | .X_LT_HC | .X_LT_DC | .X_PCHK_RUN | .X_CAL_ST | .X_CAL_STEP | .X_CAL_PASS => .hidden
  | .X_CAL_PREV | .X_CAL_AGREE | .X_CAL_LATER | .X_CAL_START | .X_CAL_CONS | .X_CAL_RQ | .X_QW_EYE | .X_QW_BER => .hidden
  | .X_FEC_ACC | .X_BME | .X_D3HOT | .X_CORE | .X_CORE_CMD | .X_FW_CHK | .X_FW_WR | .X_HSW => .hidden
  | .X_CLKR | .X_ALERT | .X_ALERT_N | .X_MCTP_N | .X_EID | .X_SPDM | .X_SPDM_ID | .X_EV_TOTAL => .hidden
  | .X_BUDGET | .X_RND_SLOT | .X_IDE_LAST | .X_TAP_IR | .X_HV_REM | .X_CU_FLD | .X_CU_SEEN | .X_MB_FIRST => .hidden
  | .X_SPLIT | .X_ITEM | .X_EDS | .X_CW | .X_CW_CLEAN | .X_M_CYC | .X_EQ_PHASE | .X_EQ_DONE => .hidden
  | .X_PRECODE | .X_L0S | .X_L12 | .X_CLKREQ | .X_GSB_EXT | .X_PAT_RUN | .X_PAT_REG | .X_PAT_IX => .hidden
  | .X_PAT_ACC | .X_LANE_LAG | .X_MARG | .X_QW_CUT | .X_DLY_IN | .X_LT_RSEQ | .X_LT_NAKD | .X_LT_DLF => .hidden
  | .X_LT_FCI | .X_LT_REV | .X_LT_POL | .X_LT_PH | .X_LT_PD | .X_LT_PINF | .X_LT_CH | .X_LT_CD => .hidden
  | .X_TL_SETC | .X_TL_CLRC | .X_TL_WAS | .X_EQ_PSET | .X_RATE_NEXT | .X_SWITCHED | .X_PUN_EDGE_T | .X_IDE_OFF => .hidden
  | .X_TS_CUT | .X_HV_TURN | .X_HV_BURST | .X_MCTP_TU | .X_CFG_MSE | .X_CFG_BAR0 | .X_CFG_BAR2 | .X_CFG_MSIXEN => .hidden
  | .X_CFG_MSIXFM | .X_CFG_MPS | .X_CFG_MRRS | .X_TL_FELL => .hidden
  | .PATH_DISC_COUNT | .LT_CNT_NAKS | .LT_CNT_REPLAYS | .FEC_CW_COUNT | .FEC_CORR_COUNT | .FEC_UNC_COUNT | .FEC_SYM_COUNT | .PATH_PCHK_ERRS => .rc
  | .LT_ETH_STAT_RXDROP | .CAL_LCNT_RUNS | .CAL_LCNT_RETRIES | .CAL_LCNT_FAILS | .TB_STAT_STEPS | .SEQ_ACNT_CANCEL | .FLT_CNT_COUNT | .INJ_STAT_LOST => .rc
  | .PRS_DROPT_COUNT | .STRM_LOSTR_COUNT | .STRM_LOSTB_COUNT | .PUN_DISC_COUNT | .IDE_STAT_MACFAIL | .TWR_RFMCNT_COUNT | .CH_REFCNT_COUNT | .ECC_UECNT_COUNT => .rc
  | .ECC_CECNT_COUNT | .ECC_LOGSTAT_LOST | .HV_BYTES_COUNT | .MGT_EVSTAT_LOST | .TW_CNT_NAKBUSY | .TW_CNT_RETRIES | .RND_ZCNT_COUNT | .FLT_DROP_COUNT => .rc
  | .FLT_EVLOST_COUNT | .RST_STAT_MGMTCNT | .DROOP_CNT_COUNT | .F5_STAT_SKIP => .rc
  | .FW_MBX_CTL_TARGET | .FW_MBX_LEN_LEN | .FW_MBX_OFS_OFS | .DEV_CTL_FULLBIST | .DEV_CTL_HOLD_ON_CHIP | .LINK_CFG_EN | .LINK_CFG_WIDTH | .LINK_CFG_FIRST => .rw
  | .LINK_CFG_PROTO | .PATH_MODE_AB | .PATH_MODE_BA | .PATH_SRC_SEL | .LT_CFG_EN | .LT_CFG_SIDE | .LT_CFG_LINK | .LNK_PCI_UPSIDE => .rw
  | .LNK_PCI_MAXRATE | .LNK_PCI_FLITEN | .LNK_PCI_CLKMODE | .LNK_PCI_MARGEN | .LNK_PCI_EQBYP | .LT_PCI_CFG_ROLE | .LT_PCI_CFG_MAXRATE | .LT_PCI_CFG_FLITEN => .rw
  | .LT_PCI_CFG_CXLEN | .LT_RXRING_BASE | .LT_RXRING_SIZE | .LT_TXRING_BASE | .LT_TXRING_SIZE | .GSB_CFG_FUNC | .GSB_CFG_LINK | .GSB_CFG_TL => .rw
  | .LNK_ETH_LRATE | .LNK_ETH_FEC | .LNK_ETH_ANEN | .LNK_ETH_LTEN | .LNK_ETH_PAUSE | .LNK_ETH_POSUNIT | .LNK_ETH_CLEANALL | .LNK_ETH_AMALIGN => .rw
  | .PATH_PAT_PAT | .PATH_PAT_GRAY | .PATH_PAT_INV | .PATH_PAT_CHKEN | .PATH_PAT_UBASE | .PATH_PAT_ULEN | .RAW_RATE_KBPS | .RAW_RATE_PAM4 => .rw
  | .PATH_DLY_CELLS | .LT_ETH_CFG_MAXLEN | .LT_ETH_CFG_IPG | .XCVR_CTL_RXINV | .XCVR_CTL_TXINV | .XCVR_CTL_FREEZE | .TX_FIR_CM2 | .TX_FIR_CM1 => .rw
  | .TX_FIR_C0 | .TX_FIR_C1 | .TX_FIR_C2 | .TX_FIR_C3 | .TX_LVL_SWING | .TX_LVL_LVLTRIM | .TX_CLK_SSCDEPTH | .TX_CLK_SSCFREQ => .rw
  | .TX_PPM_PPM | .QUAL_CTL_QWIN | .QUAL_CTL_AUTO | .CAL_CTL_BGEN | .CAL_CTL_DT | .CAL_CTL_TOL | .VIN_CTL_ROOT | .VIN_CTL_PEN => .rw
  | .VIN_CTL_P0EN | .VIN_NODE_ID | .VIN_ASYM_ASYM | .VIN_LATB_TICKS | .VIN_SENDT_T | .TL_CFG_PULSE | .SEQ_TSTART_PC | .SEQ_REGS_W => .rw
  | .FLT_CFG_CLASS | .FLT_CFG_MINV | .FLT_CFG_TRUNC | .FLT_CFG_KEEP | .FLT_MMASK_MMASK | .PATH_FILT_FILT | .PATH_FILT_NONE | .STRM_CFG_PUN => .rw
  | .STRM_CFG_CLASS | .STRM_CFG_ELIDE | .STRM_CFG_RAW | .STRM_CFG_ETHUNIT | .STRM_CFG_IDE | .PUN_CFG_EN | .PUN_CFG_MODE | .PUN_CFG_ENC => .rw
  | .PUN_CFG_RDDEC | .PUN_CFG_IDXK | .PUN_CFG_TL | .PUN_CFG_TLEN | .PUN_SLAB_FIRST | .PUN_SLAB_COUNT | .PUN_PRE_KIB | .PUN_POST_KIB => .rw
  | .IDE_BIND_EN | .IDE_BIND_GROVE | .IDE_BIND_LINK | .IDE_BIND_DIR | .IDE_BIND_SID | .RPL_CFG_PUN | .RPL_CFG_STREAM | .RPL_CFG_LOOP => .rw
  | .RPL_CFG_FROMTRIG | .TWR_CTL_PRESERVE | .TWR_RFM_THRESH | .DLR_CFG_FIRST | .DLR_CFG_COUNT | .DLR_CFG_EN | .ECC_CFG_CETHR | .ECC_CFG_LOGCE => .rw
  | .ECC_CFG_AUTOSOFT | .ECC_CFG_AUTORETIRE | .ECC_CFG_ROWCE | .ECC_CFG_TSVTHR | .SCR_CFG_PERIOD | .REP_ADDR_ADDR | .TST_ADDR_ADDR | .TST_DATA_DATA => .rw
  | .TST_TAG_CHK | .TST_TAG_U | .TST_TAG_P | .BAR2_MAP_PAGE | .BAR2_MAP_EN | .HV_CTL_EN | .HV_RBASE_ADDR | .HV_RSIZE_SIZE => .rw
  | .HV_PROD_IDX | .MGT_CTL_AUTO | .TW_CFG_PEC | .TW_CFG_TOEN | .TW_CFG_ADDR2EN | .TW_CFG_MASKEN | .TW_ADDR_ADDR2 | .TW_ADDR_MASK => .rw
  | .TW_SETUP_HOLD | .TW_SETUP_SETUP | .TW_CCLK_LOW | .TW_CCLK_HIGH | .TW_ALERT_HOSTADDR | .TW_ALERT_EN | .TW_ALERT_CAUSES | .FLT_CTL_IRQEN => .rw
  | .FLT_INJ_CHECKER | .FLT_INJ_BITS | .FLT_INJ_COUNT | .FLT_SEV_REACT | .FLT_SEV_CLASS | .CLK_SEL_HSRC | .CLK_SEL_FSEL | .CLK_DIV_HDIV => .rw
  | .CLK_DIV_PDIV | .CLK_RUN_EN | .CLK_SLP_EN | .CLK_DSLP_EN | .FM_CTL_TGT | .FM_CTL_REF | .FM_CTL_GATE | .FM_CTL_MODE => .rw
  | .FM_NOM_KHZ | .PWR_OFF_OFF | .THM_CFG_DIEWARN | .THM_CFG_DRAMWARN | .PRS_PLIM_LIMIT | .PRS_PLIM_SHARE0 | .CU_CTL_POLY | .CU_CTL_CMPEN => .rw
  | .CU_CTL_AMODE | .CU_CTL_AWID | .CU_CTL_LEN | .CU_VAL_VAL | .CU_EXP_EXP | .CU_ALIVE_AOFS | .CU_ALAST_LAST | .CU_STAT_AVALID => .rw
  | .CU_CNT_CNT | .F5_CTL_EN | .F5_CTL_CAP | .F5_MODE_AB | .F5_MODE_BA | .F5_MODE_PAT | .F5_MODE_PROTO | .F5_MODE_WIDTH => .rw
  | .F5_MODE_RATE | .F5_MODE_ERRLOG | .F5_MODE_UPSIDE | .F5_MODE_SRIS => .rw
  | .GRV_LINKERR_ERR | .LNK_PSTAT_EBERR | .LNK_ESTAT_ANFAIL | .PATH_DLYSTAT_ERR | .XCVR_STAT_LOL | .XCVR_STAT_TXERR | .CAL_STAT_CFGERR | .TB_STAT_LOST => .w1c
  | .VIN_STAT_MISS | .VIN_TLAST_ORG_LATE | .TL_COLL_COLL | .SEQ_CTL_ERR | .MATCH_STAT_OVF | .MATCH_STAT_ACTSKIP | .STRM_CFG_CFGERR | .PUN_STAT_TRIGIGN => .w1c
  | .PUN_STAT_CFGERR | .RPL_STAT_TRUNCSTOP | .TWR_STAT_CFGERR | .DLR_CFG_CFGERR | .ECC_LOGSTAT_OVF | .ECC_LOGSTAT_CFGERR | .XP_STAT_BE | .XP_STAT_BADADDR => .w1c
  | .XP_STAT_WRDISC | .XP_STAT_STARVE | .HV_STAT_CFGERR | .HV_STAT_FETCHERR | .MB_STAT_RSP | .MB_STAT_ERR | .TW_STAT_PECERR | .TW_STAT_PROTO => .w1c
  | .TW_STAT_TOUT | .TW_STAT_ALERTFAIL | .TW_STAT_MCTPFAIL | .TW_STAT_REGERR | .TW_STAT_PECMISS | .TW_MBSTAT_RSP | .TW_MBSTAT_ERR | .RND_STAT_CMDERR => .w1c
  | .FLT_GSTAT_IRQ | .FLT_FIRST_SRC_VALID | .FLT_STAT_STAT | .CLK_STAT_SWREF | .CLK_STAT_GATEERR | .FM_CTL_ERR | .PWR_STAT_ERR | .THM_STAT_CFGERR => .w1c
  | .CU_STAT_MATCH | .CU_STAT_MISM | .CU_STAT_REPEAT | .CU_STAT_SKIP | .CU_STAT_OVERRUN | .F5_STAT_CTLERR | .F5_STAT_OWNERR | .F5_STAT_CAPERR => .w1c
  | _ => .ro

/-- Block of R612. -/
def Fld.blk : Fld → Blk
  | .DEV_IDENT_VID | .DEV_IDENT_DID | .DEV_REV_STEP | .DEV_REV_ROMVER | .DEV_STATE_STATE | .DEV_STATE_BANK | .DEV_STATE_NONAPPR | .DEV_STATE_PRESERVED0 => .aon
  | .DEV_STATE_PRESERVED1 | .DEV_STATE_QREF_OK | .DEV_STATE_CLKFAIL_EARLY | .DEV_STATE_CALRESTORE_PART | .DEV_STATE_HR_PEND | .DEV_STATE_LASTERR | .DEV_STATE_INITSTEP | .DEV_CTL_FULLBIST => .aon
  | .DEV_CTL_HOLD_ON_CHIP | .DEV_CMD_RESULT | .MGT_CTL_AUTO | .MGT_EVSTAT_QUEUED | .MGT_EVSTAT_LOST | .TW_CFG_PEC | .TW_CFG_TOEN | .TW_CFG_ADDR2EN => .aon
  | .TW_CFG_MASKEN | .TW_ADDR_PRIMARY | .TW_ADDR_ADDR2 | .TW_ADDR_MASK | .TW_SETUP_HOLD | .TW_SETUP_SETUP | .TW_CCLK_LOW | .TW_CCLK_HIGH => .aon
  | .TW_ALERT_HOSTADDR | .TW_ALERT_EN | .TW_ALERT_CAUSES | .TW_STAT_PECERR | .TW_STAT_PROTO | .TW_STAT_TOUT | .TW_STAT_ALERTFAIL | .TW_STAT_MCTPFAIL => .aon
  | .TW_STAT_REGERR | .TW_STAT_PECMISS | .TW_CNT_NAKBUSY | .TW_CNT_RETRIES | .TW_MBSTAT_PEND | .TW_MBSTAT_RSP | .TW_MBSTAT_ERR | .TW_MBSTAT_NOFW => .aon
  | .FLT_CTL_IRQEN | .FLT_GSTAT_FAULTN | .FLT_GSTAT_IRQ | .FLT_GSTAT_TRAPPEND | .FLT_FIRST_ADDR | .FLT_FIRST_SRC_SOURCE | .FLT_FIRST_SRC_KIND | .FLT_FIRST_SRC_REACT => .aon
  | .FLT_FIRST_SRC_VALID | .FLT_FIRST_SRC_OVF | .FLT_FIRST_SRC_INJ | .FLT_FIRST_SRC_COLLIDE | .FLT_FIRST_SRC_ESC | .FLT_FIRST_EPOCH | .FLT_RSTCAUSE_SOURCE | .FLT_RSTCAUSE_KIND => .aon
  | .FLT_RSTCAUSE_VALID | .FLT_RSTCAUSE_ESC | .FLT_DROP_COUNT | .FLT_EVLOST_COUNT | .FLT_INJ_CHECKER | .FLT_INJ_BITS | .FLT_INJ_COUNT | .FLT_INJ_BUSY => .aon
  | .FLT_INJ_RESULT | .FLT_STAT_STAT | .FLT_SEV_REACT | .FLT_SEV_CLASS | .CLK_SEL_BREF | .CLK_SEL_HSRC | .CLK_SEL_FSEL | .CLK_DIV_HDIV => .aon
  | .CLK_DIV_PDIV | .CLK_STAT_QRDY | .CLK_STAT_XRDY | .CLK_STAT_CPLLRDY | .CLK_STAT_AONRDY | .CLK_STAT_MRDY | .CLK_STAT_TRDY | .CLK_STAT_FALLBACK => .aon
  | .CLK_STAT_SWBUSY | .CLK_STAT_SWREF | .CLK_STAT_GATEERR | .CLK_FAIL_FAIL | .CLK_GPEND_GATE_PEND | .CLK_CMD_RESULT | .CLK_RUN_EN | .CLK_SLP_EN => .aon
  | .CLK_DSLP_EN | .FM_CTL_TGT | .FM_CTL_REF | .FM_CTL_GATE | .FM_CTL_MODE | .FM_CTL_BUSY | .FM_CTL_ERR | .FM_COUNT_COUNT => .aon
  | .FM_NOM_KHZ | .FM_SSC_FMAX | .FM_SSC_FMIN | .FM_SSC2_DEPTH | .FM_SSC2_MODF | .FM_SSC2_NOSSC | .FM_MEAN_MEAN | .PWR_STAT_ON => .aon
  | .PWR_STAT_ERR | .PWR_OFF_OFF | .RST_CMD_RESULT | .RST_STAT_LAST | .RST_STAT_MGMTCNT | .HK_VAL_VALUE | .HK_VAL_VALID | .HK_STAT_ROUNDS => .aon
  | .HK_STAT_AONMODE | .THM_CFG_DIEWARN | .THM_CFG_DRAMWARN | .THM_STAT_DIEMAX | .THM_STAT_DRAMMAX | .THM_STAT_HOT | .THM_STAT_COOLCNT | .THM_STAT_CFGERR => .aon
  | .DROOP_CNT_COUNT | .PRS_PLIM_LIMIT | .PRS_PLIM_SHARE0 | .PRS_PLIM_EFF | .PRS_PLIM_THROT | .F5_CTL_EN | .F5_CTL_CAP | .F5_STAT_ACT => .aon
  | .F5_STAT_CTLERR | .F5_STAT_OWNERR | .F5_STAT_CAPERR | .F5_STAT_SKIP | .X_STRAP_ADDR | .X_STRAP_RDLY | .X_RESETN_LOW | .X_PERSTN_HIGH => .aon
  | .X_PORT_UP | .X_REF_PRES | .X_REF_DONE | .X_BREF_SET | .X_THERMN_LOW | .X_THR | .X_FWUP | .X_INJ_CHECKER => .aon
  | .X_INJ_BITS | .X_INJ_LEFT | .X_FQ_RUN | .X_CORE | .X_CORE_CMD | .X_FW_CHK | .X_FW_WR | .X_HSW => .aon
  | .X_CLKR | .X_ALERT | .X_ALERT_N | .X_MCTP_N | .X_EID | .X_SPDM | .X_SPDM_ID | .X_EV_TOTAL => .aon
  | .X_BUDGET | .X_TAP_IR | .X_MB_FIRST | .X_MCTP_TU => .aon
  | .CAL_CTL_BGEN | .CAL_CTL_DT | .CAL_CTL_TOL | .CAL_CMD_RESULT | .CAL_STAT_WBBUSY | .CAL_STAT_COPY | .CAL_STAT_CFGERR | .CAL_STAT_WORN => .cal
  | .CAL_LSTAT_TLAST_A | .CAL_LSTAT_TLAST_B | .CAL_LSTAT_STATE | .CAL_LSTAT_NOSHADOW_A | .CAL_LSTAT_NOSHADOW_B | .CAL_LSTAT_CONSEC | .CAL_LCNT_RUNS | .CAL_LCNT_RETRIES => .cal
  | .CAL_LCNT_FAILS | .CAL_OFS_OFS | .CAL_SLC_PAIR | .CAL_SLC_GAIN | .CAL_SLC_ROLE | .CAL_TX_Z | .CAL_LIN_LIN | .X_CAL_FG => .cal
  | .X_CAL_DFLT | .X_CAL_ST | .X_CAL_STEP | .X_CAL_PASS | .X_CAL_PREV | .X_CAL_AGREE | .X_CAL_LATER | .X_CAL_START => .cal
  | .X_CAL_CONS | .X_CAL_RQ => .cal
  | .CU_CTL_POLY | .CU_CTL_CMPEN | .CU_CTL_AMODE | .CU_CTL_AWID | .CU_CTL_LEN | .CU_VAL_VAL | .CU_RES_RES | .CU_EXP_EXP => .cu
  | .CU_ALIVE_AOFS | .CU_ALAST_LAST | .CU_STAT_MATCH | .CU_STAT_MISM | .CU_STAT_REPEAT | .CU_STAT_SKIP | .CU_STAT_OVERRUN | .CU_STAT_AVALID => .cu
  | .CU_CNT_CNT | .CU_LRES_RES | .X_CU_FLD | .X_CU_SEEN => .cu
  | .ECC_CFG_CETHR | .ECC_CFG_LOGCE | .ECC_CFG_AUTOSOFT | .ECC_CFG_AUTORETIRE | .ECC_CFG_ROWCE | .ECC_CFG_TSVTHR | .ECC_UECNT_COUNT | .ECC_CECNT_COUNT => .ecc
  | .SCR_CFG_PERIOD | .SCR_STAT_PROG | .SCR_STAT_PASSES | .ECC_LOGSTAT_COUNT | .ECC_LOGSTAT_OVF | .ECC_LOGSTAT_CFGERR | .ECC_LOGSTAT_LOST | .ERR_LOG_ADDR => .ecc
  | .ERR_LOG_KIND | .ERR_LOG_SRC | .ERR_LOG_PUN | .ERR_LOG_DLY | .ERR_LOG_VALID | .ERR_LOG_SYN | .ERR_LOG_EPOCH | .REP_CMD_RESULT => .ecc
  | .REP_ADDR_ADDR | .REP_STAT_NVMPEND | .REP_STAT_RETIRED | .REP_STAT_RCH | .REP_SPARE_ROWS | .REP_SPARE_HARD | .REP_SPARE_TSV | .TST_ADDR_ADDR => .ecc
  | .TST_DATA_DATA | .TST_TAG_CHK | .TST_TAG_U | .TST_TAG_P | .TST_CMD_BUSY | .TST_CMD_RESULT | .TST_CMD_OUTCOME | .X_SCR_POS => .ecc
  | .X_LOG_ORD | .X_LOG_SEQ | .X_CE_RAISED | .X_REP_OP | .X_REP_CH | .X_REP_LANE | .X_REP_PC | .X_REP_BANK => .ecc
  | .X_REP_ROW | .X_REP_CMD | .X_TST_OUT => .ecc
  | .FW_MBX_CTL_TARGET | .FW_MBX_STAT_BUSY | .FW_MBX_STAT_ACCEPTED | .FW_MBX_STAT_ERR | .FW_MBX_LEN_LEN | .FW_MBX_OFS_OFS | .FW_MBX_TOTAL_TOTAL => .fwmbx
  | .HV_CTL_EN | .HV_RBASE_ADDR | .HV_RSIZE_SIZE | .HV_PROD_IDX | .HV_CONS_IDX | .HV_STAT_BUSY | .HV_STAT_CFGERR | .HV_STAT_FETCHERR => .harvest
  | .HV_BYTES_COUNT | .X_HV_TWR | .X_HV_REM | .X_HV_TURN | .X_HV_BURST => .harvest
  | .MB_STAT_PEND | .MB_STAT_RSP | .MB_STAT_ERR | .MB_STAT_NOFW => .mbox
  | .NVM_WEAR0_WRITES | .NVM_WEAR1_WRITES => .nvm
  | .XP_STAT_BE | .XP_STAT_BADADDR | .XP_STAT_WRDISC | .XP_STAT_STARVE | .BAR2_MAP_PAGE | .BAR2_MAP_EN | .X_BME | .X_D3HOT => .port
  | .X_CFG_MSE | .X_CFG_BAR0 | .X_CFG_BAR2 | .X_CFG_MSIXEN | .X_CFG_MSIXFM | .X_CFG_MPS | .X_CFG_MRRS => .port
  | .PRS_STAT_DROP0 | .PRS_STAT_DROP1 | .PRS_CEIL_CEIL | .PRS_DROPT_COUNT | .STRM_CFG_PUN | .STRM_CFG_CLASS | .STRM_CFG_ELIDE | .STRM_CFG_RAW => .press
  | .STRM_CFG_ETHUNIT | .STRM_CFG_IDE | .STRM_CFG_ON | .STRM_CFG_PEND | .STRM_CFG_CFGERR | .STRM_SEQ_SEQ | .STRM_LOSTR_COUNT | .STRM_LOSTB_COUNT => .press
  | .STRM_CMD_RESULT | .PUN_CFG_EN | .PUN_CFG_MODE | .PUN_CFG_ENC | .PUN_CFG_RDDEC | .PUN_CFG_IDXK | .PUN_CFG_TL | .PUN_CFG_TLEN => .press
  | .PUN_SLAB_FIRST | .PUN_SLAB_COUNT | .PUN_PRE_KIB | .PUN_POST_KIB | .PUN_STAT_STATE | .PUN_STAT_WRAP | .PUN_STAT_TRIGIGN | .PUN_STAT_CFGERR => .press
  | .PUN_STAT_DAMAGE | .PUN_HEAD_OFS | .PUN_TAIL_OFS | .PUN_TRIG_EPOCH | .PUN_TRIGOFS_OFS | .PUN_RECS_COUNT | .PUN_DISC_COUNT | .PUN_CMD_RESULT => .press
  | .IDE_BIND_EN | .IDE_BIND_GROVE | .IDE_BIND_LINK | .IDE_BIND_DIR | .IDE_BIND_SID | .IDE_STAT_SYNC | .IDE_STAT_KEY | .IDE_STAT_MACFAIL => .press
  | .RPL_CFG_PUN | .RPL_CFG_STREAM | .RPL_CFG_LOOP | .RPL_CFG_FROMTRIG | .RPL_STAT_DONE | .RPL_STAT_TRUNCSTOP | .RPL_NEXT_SEQ | .DLR_CFG_FIRST => .press
  | .DLR_CFG_COUNT | .DLR_CFG_EN | .DLR_CFG_CFGERR | .X_DLY_BYTES | .X_RD_BYTES | .X_WINDOW | .X_PUN_SINCE | .X_PUN_SEQ => .press
  | .X_ESHED | .X_PUN_EDGE | .X_IDE_LAST | .X_PUN_EDGE_T | .X_IDE_OFF => .press
  | .RND_STAT_APPR | .RND_STAT_ERROR | .RND_STAT_DBGLVL | .RND_STAT_SESS | .RND_STAT_BUSY | .RND_STAT_CMDERR | .RND_STAT_DECOM | .RND_STAT_ASC => .rind
  | .RND_STAT_OPSLOT | .RND_STAT_OPREV | .RND_SERIAL_SERIAL | .RND_CMD_RESULT | .RND_ZCNT_COUNT | .RND_PKEY_LOADED | .RND_IKEY_LOADED | .X_RND_SLOT => .rind
  | .TB_EPOCH_EPOCH | .TB_STAT_VALID | .TB_STAT_SLEW | .TB_STAT_LOST | .TB_STAT_STEPS | .VIN_CTL_ROOT | .VIN_CTL_PEN | .VIN_CTL_P0EN => .timebase
  | .VIN_NODE_ID | .VIN_NODE_HOPS | .VIN_HOPD_DELAY | .VIN_HOPD_OFS | .VIN_ASYM_ASYM | .VIN_LATB_TICKS | .VIN_STAT_MISS | .VIN_STAT_HELD => .timebase
  | .VIN_STAT_RSEQ | .VIN_SENDT_T | .VIN_SEND_RESULT | .VIN_TLAST_T | .VIN_TLAST_ORG_ORIGIN | .VIN_TLAST_ORG_LATE | .VIN_TLAST_ORG_LATEO | .X_TREF_ACQ => .timebase
  | .X_TREF_LAST | .X_TREF_BAD | .X_TREF_DIS | .X_EPF_OK | .X_EXCH | .X_SLEW_LEFT | .X_SLEW_HOLD | .X_DREQ_SEQ => .timebase
  | .X_DREQ_T1 | .X_PARENT | .X_RSEQ_SEEN => .timebase
  | .TWR_CTL_PRESERVE | .TWR_STAT_STATE | .TWR_STAT_REF2X | .TWR_STAT_HOTDIE | .TWR_STAT_TMAX | .TWR_STAT_SENSERR | .TWR_STAT_CFGERR | .TWR_CLRSTAT_BUSY => .tower
  | .TWR_CLRSTAT_RESULT | .TWR_CLRSTAT_DONE | .TWR_RFM_THRESH | .TWR_RFMCNT_COUNT | .CH_STAT_STATE | .CH_STAT_TEMP | .CH_STAT_REF2X | .CH_STAT_SENSERR => .tower
  | .CH_CMD_RESULT | .CH_REFCNT_COUNT | .X_CLR_FIRST | .X_CLR_COUNT | .X_CLR_ACC | .X_CHRST_WAIT => .tower
  | .TL_CFG_PULSE | .TL_LVL_LVL | .TL_COLL_COLL | .TL_LAST_EPOCH | .X_TL_PULSE | .X_TL_SETC | .X_TL_CLRC | .X_TL_WAS => .trig
  | .X_TL_FELL => .trig
  | .VIN_PSTAT_STATE => .vine
  | _ => .grove

/-- Survives column as a set: bit 0 PIN, 1 CHIP, 2 MGMT, 3 GROVE, 4 CHAN, 5 PORT, 6 TW, 7 IDLE, 8 STANDBY, 9 All; 0 is the dash. -/
def Fld.surv : Fld → Nat
  | .CH_CMD_RESULT => 108
  | .GRV_LINKERR_ERR | .PATH_MODE_PEND_AB | .PATH_MODE_PEND_BA | .PATH_MODE_CODE | .PATH_DISC_COUNT | .LNK_PSTAT_STATE | .LNK_PSTAT_RATE | .LNK_PSTAT_FLIT => 116
  | .LNK_PSTAT_WIDTH | .LNK_PSTAT_FMT | .LNK_PSTAT_PMIS | .LNK_PSTAT_RTPOS | .LNK_PSTAT_EBERR | .LT_STAT_LTSSM | .LT_STAT_DLUP | .LT_STAT_RATE => 116
  | .LT_STAT_FLIT | .LT_STAT_CXL | .LT_CNT_NAKS | .LT_CNT_REPLAYS | .LNK_ESTAT_SEGA | .LNK_ESTAT_SEGB | .LNK_ESTAT_ANFAIL | .FEC_CW_COUNT => 116
  | .FEC_CORR_COUNT | .FEC_UNC_COUNT | .FEC_SYM_COUNT | .PATH_PCHK_ERRS | .PATH_DLYSTAT_ERR | .LT_ETH_STAT_STATE | .LT_ETH_STAT_LF | .LT_ETH_STAT_RF => 116
  | .LT_ETH_STAT_RXDROP | .XCVR_STAT_LOL | .XCVR_STAT_RXDET | .XCVR_STAT_TXERR | .CAL_LCNT_RUNS | .CAL_LCNT_RETRIES | .CAL_LCNT_FAILS | .PATH_POS_POS => 116
  | .SEQ_CTL_ERR | .SEQ_ACNT_CANCEL | .MATCH_STAT_OVF | .MATCH_STAT_ACTSKIP | .MATCH_CMD_RESULT | .FLT_CNT_COUNT | .INJ_STAT_LOST | .STRM_CFG_ON => 116
  | .STRM_CFG_PEND | .F5_MODE_CODE | .X_PATH_STOPPED | .X_LANE_IDLE | .X_DLY_CNT | .X_CAP_FROM | .X_DLY_LO | .X_DLY_EFF => 116
  | .X_DLYH_V | .X_DLYH_POS | .X_DLYP_V | .X_DLYP_M | .X_DLYP_C | .X_SKP_V | .X_SKP_POS | .X_SKP_DIR => 116
  | .X_EB_OFS | .X_FIR_TRN | .X_DET_RUN | .X_LT_SEQ | .X_LT_TGT | .X_LT_BUSY | .X_LT_HC | .X_LT_DC => 116
  | .X_PCHK_RUN | .X_FEC_ACC | .X_SPLIT | .X_ITEM | .X_EDS | .X_CW | .X_CW_CLEAN | .X_EQ_PHASE => 116
  | .X_EQ_DONE | .X_PRECODE | .X_L0S | .X_L12 | .X_CLKREQ | .X_PAT_RUN | .X_PAT_REG | .X_PAT_IX => 116
  | .X_PAT_ACC | .X_LANE_LAG | .X_MARG | .X_DLY_IN | .X_LT_RSEQ | .X_LT_NAKD | .X_LT_DLF | .X_LT_FCI => 116
  | .X_LT_REV | .X_LT_POL | .X_LT_PH | .X_LT_PD | .X_LT_PINF | .X_LT_CH | .X_LT_CD | .X_TL_SETC => 116
  | .X_TL_CLRC | .X_TL_WAS | .X_EQ_PSET | .X_RATE_NEXT | .X_SWITCHED | .X_TS_CUT | .X_TL_FELL => 116
  | .CAL_CMD_RESULT => 120
  | .CAL_STAT_CFGERR | .PATH_POS_GEN | .TB_STAT_LOST | .TB_STAT_STEPS | .VIN_NODE_HOPS | .VIN_PSTAT_STATE | .VIN_HOPD_DELAY | .VIN_HOPD_OFS => 124
  | .VIN_STAT_MISS | .VIN_STAT_RSEQ | .VIN_SEND_RESULT | .VIN_TLAST_T | .VIN_TLAST_ORG_ORIGIN | .VIN_TLAST_ORG_LATE | .VIN_TLAST_ORG_LATEO | .TL_COLL_COLL => 124
  | .PRS_DROPT_COUNT | .STRM_CFG_CFGERR | .STRM_LOSTR_COUNT | .STRM_LOSTB_COUNT | .STRM_CMD_RESULT | .PUN_STAT_TRIGIGN | .PUN_STAT_CFGERR | .PUN_DISC_COUNT => 124
  | .PUN_CMD_RESULT | .IDE_STAT_MACFAIL | .RPL_STAT_DONE | .RPL_STAT_TRUNCSTOP | .TWR_STAT_CFGERR | .TWR_CLRSTAT_RESULT | .TWR_CLRSTAT_DONE | .TWR_RFMCNT_COUNT => 124
  | .CH_REFCNT_COUNT | .DLR_CFG_CFGERR | .ECC_UECNT_COUNT | .ECC_CECNT_COUNT | .ECC_LOGSTAT_OVF | .ECC_LOGSTAT_CFGERR | .ECC_LOGSTAT_LOST | .REP_CMD_RESULT => 124
  | .REP_STAT_NVMPEND | .TST_CMD_RESULT | .TST_CMD_OUTCOME | .MGT_EVSTAT_LOST | .TW_CNT_NAKBUSY | .TW_CNT_RETRIES | .TW_MBSTAT_PEND | .TW_MBSTAT_RSP => 124
  | .TW_MBSTAT_ERR | .FLT_INJ_RESULT | .CLK_CMD_RESULT | .FM_CTL_ERR | .RST_CMD_RESULT | .X_CE_RAISED => 124
  | .FW_MBX_CTL_TARGET | .FW_MBX_LEN_LEN | .FW_MBX_OFS_OFS | .FW_MBX_TOTAL_TOTAL => 216
  | .HV_CTL_EN | .HV_RBASE_ADDR | .HV_RSIZE_SIZE | .HV_PROD_IDX | .HV_CONS_IDX | .X_HV_TWR => 220
  | .SEQ_TSTAT_PC | .SEQ_TSTAT_STATE | .SEQ_TSTAT_FLAGS | .SEQ_TSTAT_CAUSE | .SEQ_TSTAT_RSD | .SEQ_TSTAT_FULL | .SEQ_REGS_W | .MATCH_STAT_ARMED => 244
  | .MATCH_STAT_LASTPATH | .MATCH_CNT_COUNT | .MATCH_LPOS_POS | .MATCH_LEP_EPOCH | .PATH_FILT_FILT | .PATH_FILT_NONE | .INJ_STAT_FREE | .INJ_STAT_WIDX => 244
  | .INJ_LOG_POS | .INJ_LOG_PATH | .INJ_LOG_OUTCOME | .INJ_LOG_ENTRY | .INJ_LOG_SRC_SOURCE | .INJ_ENT_MOMENT | .INJ_ENT_INFO_PATH | .INJ_ENT_INFO_ACT => 244
  | .INJ_ENT_INFO_FIX | .INJ_ENT_INFO_T | .INJ_ENT_INFO_STATE | .STRM_SEQ_SEQ | .F5_MODE_AB | .F5_MODE_BA | .X_RSTK | .X_RDEPTH => 244
  | .X_M_FIRED | .X_INJ_DATA | .X_INJ_SRC | .X_INJ_ORD | .X_INJ_SEQ | .X_INJ_HIT | .X_INJ_ITEM | .X_INJ_BLK => 244
  | .X_INJ_PASSED | .X_INJ_REACH | .X_INJ_NPOS | .X_INJ_LOGN | .X_M_CYC => 244
  | .X_FWUP | .X_SPDM => 248
  | .LINK_CFG_EN | .LINK_CFG_WIDTH | .LINK_CFG_FIRST | .LINK_CFG_PROTO | .PATH_SRC_SEL | .LT_CFG_EN | .LT_CFG_SIDE | .LT_CFG_LINK => 252
  | .LNK_PCI_UPSIDE | .LNK_PCI_MAXRATE | .LNK_PCI_FLITEN | .LNK_PCI_CLKMODE | .LNK_PCI_MARGEN | .LNK_PCI_EQBYP | .LT_PCI_CFG_ROLE | .LT_PCI_CFG_MAXRATE => 252
  | .LT_PCI_CFG_FLITEN | .LT_PCI_CFG_CXLEN | .LT_RXRING_BASE | .LT_RXRING_SIZE | .LT_TXRING_BASE | .LT_TXRING_SIZE | .GSB_CFG_FUNC | .GSB_CFG_LINK => 252
  | .GSB_CFG_TL | .LNK_ETH_LRATE | .LNK_ETH_FEC | .LNK_ETH_ANEN | .LNK_ETH_LTEN | .LNK_ETH_PAUSE | .LNK_ETH_POSUNIT | .LNK_ETH_CLEANALL => 252
  | .LNK_ETH_AMALIGN | .PATH_PAT_PAT | .PATH_PAT_GRAY | .PATH_PAT_INV | .PATH_PAT_CHKEN | .PATH_PAT_UBASE | .PATH_PAT_ULEN | .RAW_RATE_KBPS => 252
  | .RAW_RATE_PAM4 | .PATH_DLY_CELLS | .LT_ETH_CFG_MAXLEN | .LT_ETH_CFG_IPG | .XCVR_CTL_RXINV | .XCVR_CTL_TXINV | .XCVR_CTL_FREEZE | .TX_FIR_CM2 => 252
  | .TX_FIR_CM1 | .TX_FIR_C0 | .TX_FIR_C1 | .TX_FIR_C2 | .TX_FIR_C3 | .TX_LVL_SWING | .TX_LVL_LVLTRIM | .TX_CLK_SSCDEPTH => 252
  | .TX_CLK_SSCFREQ | .TX_PPM_PPM | .QUAL_CTL_QWIN | .QUAL_CTL_AUTO | .CAL_CTL_BGEN | .CAL_CTL_DT | .CAL_CTL_TOL | .CAL_LSTAT_TLAST_A => 252
  | .CAL_LSTAT_TLAST_B | .CAL_LSTAT_STATE | .CAL_LSTAT_NOSHADOW_A | .CAL_LSTAT_NOSHADOW_B | .CAL_LSTAT_CONSEC | .CAL_OFS_OFS | .CAL_SLC_PAIR | .CAL_SLC_GAIN => 252
  | .CAL_SLC_ROLE | .CAL_TX_Z | .CAL_LIN_LIN | .TB_EPOCH_EPOCH | .TB_STAT_VALID | .VIN_CTL_ROOT | .VIN_CTL_PEN | .VIN_CTL_P0EN => 252
  | .VIN_NODE_ID | .VIN_ASYM_ASYM | .VIN_LATB_TICKS | .VIN_SENDT_T | .TL_CFG_PULSE | .TL_LVL_LVL | .TL_LAST_EPOCH | .FLT_CFG_CLASS => 252
  | .FLT_CFG_MINV | .FLT_CFG_TRUNC | .FLT_CFG_KEEP | .FLT_MMASK_MMASK | .STRM_CFG_PUN | .STRM_CFG_CLASS | .STRM_CFG_ELIDE | .STRM_CFG_RAW => 252
  | .STRM_CFG_ETHUNIT | .STRM_CFG_IDE | .PUN_CFG_EN | .PUN_CFG_MODE | .PUN_CFG_ENC | .PUN_CFG_RDDEC | .PUN_CFG_IDXK | .PUN_CFG_TL => 252
  | .PUN_CFG_TLEN | .PUN_SLAB_FIRST | .PUN_SLAB_COUNT | .PUN_PRE_KIB | .PUN_POST_KIB | .PUN_STAT_STATE | .PUN_STAT_WRAP | .PUN_STAT_DAMAGE => 252
  | .PUN_HEAD_OFS | .PUN_TAIL_OFS | .PUN_TRIG_EPOCH | .PUN_TRIGOFS_OFS | .PUN_RECS_COUNT | .IDE_BIND_EN | .IDE_BIND_GROVE | .IDE_BIND_LINK => 252
  | .IDE_BIND_DIR | .IDE_BIND_SID | .IDE_STAT_SYNC | .IDE_STAT_KEY | .RPL_CFG_PUN | .RPL_CFG_STREAM | .RPL_CFG_LOOP | .RPL_CFG_FROMTRIG => 252
  | .RPL_NEXT_SEQ | .TWR_RFM_THRESH | .DLR_CFG_FIRST | .DLR_CFG_COUNT | .DLR_CFG_EN | .ECC_CFG_CETHR | .ECC_CFG_LOGCE | .ECC_CFG_AUTOSOFT => 252
  | .ECC_CFG_AUTORETIRE | .ECC_CFG_ROWCE | .ECC_CFG_TSVTHR | .SCR_CFG_PERIOD | .SCR_STAT_PROG | .SCR_STAT_PASSES | .ECC_LOGSTAT_COUNT | .ERR_LOG_ADDR => 252
  | .ERR_LOG_KIND | .ERR_LOG_SRC | .ERR_LOG_PUN | .ERR_LOG_DLY | .ERR_LOG_VALID | .ERR_LOG_SYN | .ERR_LOG_EPOCH | .REP_ADDR_ADDR => 252
  | .REP_SPARE_ROWS | .REP_SPARE_TSV | .TST_ADDR_ADDR | .MGT_CTL_AUTO | .MGT_EVSTAT_QUEUED | .RND_STAT_APPR | .RND_STAT_DBGLVL | .RND_STAT_SESS => 252
  | .RND_STAT_CMDERR | .RND_CMD_RESULT | .RND_ZCNT_COUNT | .RND_PKEY_LOADED | .RND_IKEY_LOADED | .FLT_INJ_CHECKER | .FLT_INJ_BITS | .FLT_INJ_COUNT => 252
  | .CLK_FAIL_FAIL | .FM_CTL_TGT | .FM_CTL_REF | .FM_CTL_GATE | .FM_CTL_MODE | .FM_COUNT_COUNT | .FM_NOM_KHZ | .FM_SSC_FMAX => 252
  | .FM_SSC_FMIN | .FM_SSC2_DEPTH | .FM_SSC2_MODF | .FM_SSC2_NOSSC | .FM_MEAN_MEAN | .DROOP_CNT_COUNT | .CU_CTL_POLY | .CU_CTL_CMPEN => 252
  | .CU_CTL_AMODE | .CU_CTL_AWID | .CU_CTL_LEN | .CU_VAL_VAL | .CU_EXP_EXP | .CU_ALIVE_AOFS | .CU_ALAST_LAST | .CU_STAT_MATCH => 252
  | .CU_STAT_MISM | .CU_STAT_REPEAT | .CU_STAT_SKIP | .CU_STAT_OVERRUN | .CU_STAT_AVALID | .CU_CNT_CNT | .CU_LRES_RES | .F5_STAT_SKIP => 252
  | .F5_MODE_PAT | .F5_MODE_PROTO | .F5_MODE_WIDTH | .F5_MODE_RATE | .F5_MODE_ERRLOG | .F5_MODE_UPSIDE | .F5_MODE_SRIS | .X_PUN_SINCE => 252
  | .X_PUN_SEQ | .X_LOG_ORD | .X_LOG_SEQ | .X_PUN_EDGE | .X_TL_PULSE | .X_TREF_ACQ | .X_TREF_LAST | .X_TREF_BAD => 252
  | .X_TREF_DIS | .X_EPF_OK | .X_EXCH | .X_SLEW_LEFT | .X_SLEW_HOLD | .X_DREQ_SEQ | .X_DREQ_T1 | .X_PARENT => 252
  | .X_RSEQ_SEEN | .X_PCI_EFF | .X_SSC_EFF | .X_CAL_FG | .X_CAL_DFLT | .X_CAL_ST | .X_CAL_STEP | .X_CAL_PASS => 252
  | .X_CAL_PREV | .X_CAL_AGREE | .X_CAL_LATER | .X_CAL_START | .X_CAL_CONS | .X_CAL_RQ | .X_BUDGET | .X_RND_SLOT => 252
  | .X_IDE_LAST | .X_CU_FLD | .X_CU_SEEN | .X_PUN_EDGE_T | .X_IDE_OFF => 252
  | .DEV_STATE_CLKFAIL_EARLY => 3
  | .MB_STAT_PEND | .MB_STAT_RSP | .MB_STAT_ERR => 4
  | .XP_STAT_BE | .XP_STAT_BADADDR | .XP_STAT_WRDISC | .XP_STAT_STARVE | .BAR2_MAP_PAGE | .BAR2_MAP_EN | .X_PORT_UP | .X_BME => 476
  | .X_D3HOT | .X_CFG_MSE | .X_CFG_BAR0 | .X_CFG_BAR2 | .X_CFG_MSIXEN | .X_CFG_MSIXFM | .X_CFG_MPS | .X_CFG_MRRS => 476
  | .PATH_MODE_AB | .PATH_MODE_BA | .SEQ_TSTART_PC => 500
  | .X_CORE | .X_CORE_CMD => 504
  | .DEV_STATE_BANK | .DEV_STATE_NONAPPR | .DEV_STATE_PRESERVED0 | .DEV_STATE_PRESERVED1 | .DEV_STATE_CALRESTORE_PART | .DEV_STATE_HR_PEND | .DEV_STATE_LASTERR | .DEV_STATE_INITSTEP => 508
  | .DEV_CTL_FULLBIST | .DEV_CTL_HOLD_ON_CHIP | .TWR_CTL_PRESERVE | .TW_CFG_PEC | .TW_CFG_TOEN | .TW_CFG_ADDR2EN | .TW_CFG_MASKEN | .TW_ADDR_ADDR2 => 508
  | .TW_ADDR_MASK | .TW_SETUP_HOLD | .TW_SETUP_SETUP | .TW_CCLK_LOW | .TW_CCLK_HIGH | .TW_ALERT_HOSTADDR | .TW_ALERT_EN | .TW_ALERT_CAUSES => 508
  | .TW_STAT_PECERR | .TW_STAT_PROTO | .TW_STAT_TOUT | .TW_STAT_ALERTFAIL | .TW_STAT_MCTPFAIL | .TW_STAT_REGERR | .TW_STAT_PECMISS | .RND_STAT_ERROR => 508
  | .FLT_CTL_IRQEN | .FLT_GSTAT_IRQ | .FLT_GSTAT_TRAPPEND | .FLT_FIRST_ADDR | .FLT_FIRST_SRC_SOURCE | .FLT_FIRST_SRC_KIND | .FLT_FIRST_SRC_REACT | .FLT_FIRST_SRC_VALID => 508
  | .FLT_FIRST_SRC_OVF | .FLT_FIRST_SRC_INJ | .FLT_FIRST_SRC_COLLIDE | .FLT_FIRST_SRC_ESC | .FLT_FIRST_EPOCH | .FLT_DROP_COUNT | .FLT_EVLOST_COUNT | .FLT_STAT_STAT => 508
  | .FLT_SEV_REACT | .FLT_SEV_CLASS | .CLK_SEL_BREF | .CLK_SEL_HSRC | .CLK_SEL_FSEL | .CLK_DIV_HDIV | .CLK_DIV_PDIV | .CLK_STAT_SWREF => 508
  | .CLK_STAT_GATEERR | .CLK_RUN_EN | .CLK_SLP_EN | .CLK_DSLP_EN | .PWR_STAT_ERR | .PWR_OFF_OFF | .RST_STAT_MGMTCNT | .THM_CFG_DIEWARN => 508
  | .THM_CFG_DRAMWARN | .THM_STAT_CFGERR | .PRS_PLIM_LIMIT | .PRS_PLIM_SHARE0 | .F5_CTL_EN | .F5_CTL_CAP | .F5_STAT_CTLERR | .F5_STAT_OWNERR => 508
  | .F5_STAT_CAPERR | .X_THR | .X_SCR_POS | .X_FW_CHK | .X_FW_WR | .X_ALERT | .X_ALERT_N | .X_MCTP_N => 508
  | .X_EID | .X_SPDM_ID | .X_EV_TOTAL | .X_MB_FIRST | .X_MCTP_TU => 508
  | .FLT_GSTAT_FAULTN | .FLT_RSTCAUSE_SOURCE | .FLT_RSTCAUSE_KIND | .FLT_RSTCAUSE_VALID | .FLT_RSTCAUSE_ESC | .RST_STAT_LAST | .X_STRAP_ADDR | .X_STRAP_RDLY => 511
  | .X_RESETN_LOW | .X_PERSTN_HIGH | .X_THERMN_LOW | .X_GSB_EXT => 511
  | .DEV_IDENT_VID | .DEV_IDENT_DID | .DEV_REV_STEP | .DEV_REV_ROMVER | .CAL_STAT_COPY | .CAL_STAT_WORN | .NVM_WEAR0_WRITES | .NVM_WEAR1_WRITES => 512
  | .REP_STAT_RETIRED | .REP_STAT_RCH | .REP_SPARE_HARD | .RND_STAT_DECOM | .RND_STAT_ASC | .RND_STAT_OPSLOT | .RND_STAT_OPREV | .RND_SERIAL_SERIAL => 512
  | .HV_STAT_CFGERR | .HV_STAT_FETCHERR | .HV_BYTES_COUNT | .X_HV_REM | .X_HV_TURN | .X_HV_BURST => 92
  | _ => 0

/-- How many instances one grove owns (0: the field is no grove's), which is what a GROVE reset reaches (R603). -/
def Fld.perGrove : Fld → Nat
  | .GRV_LINKERR_ERR | .SEQ_CTL_CLRBUSY | .SEQ_CTL_ERR | .SEQ_ACNT_CANCEL | .MATCH_CMD_RESULT | .INJ_STAT_FREE | .INJ_STAT_WIDX | .INJ_STAT_LOST => 1
  | .X_INJ_SEQ | .X_INJ_LOGN => 1
  | .SEQ_REGS_W => 128
  | .LINK_CFG_EN | .LINK_CFG_WIDTH | .LINK_CFG_FIRST | .LINK_CFG_PROTO | .PATH_MODE_AB | .PATH_MODE_BA | .PATH_MODE_PEND_AB | .PATH_MODE_PEND_BA => 16
  | .PATH_MODE_CODE | .LNK_PCI_UPSIDE | .LNK_PCI_MAXRATE | .LNK_PCI_FLITEN | .LNK_PCI_CLKMODE | .LNK_PCI_MARGEN | .LNK_PCI_EQBYP | .LNK_PSTAT_STATE => 16
  | .LNK_PSTAT_RATE | .LNK_PSTAT_FLIT | .LNK_PSTAT_WIDTH | .LNK_PSTAT_FMT | .LNK_PSTAT_PMIS | .LNK_PSTAT_RTPOS | .LNK_PSTAT_MARGACT | .LNK_PSTAT_EBERR => 16
  | .LNK_ETH_LRATE | .LNK_ETH_FEC | .LNK_ETH_ANEN | .LNK_ETH_LTEN | .LNK_ETH_PAUSE | .LNK_ETH_POSUNIT | .LNK_ETH_CLEANALL | .LNK_ETH_AMALIGN => 16
  | .LNK_ESTAT_SEGA | .LNK_ESTAT_SEGB | .LNK_ESTAT_ANFAIL | .FEC_CW_COUNT | .FEC_CORR_COUNT | .FEC_UNC_COUNT | .FEC_SYM_COUNT | .RAW_RATE_KBPS => 16
  | .RAW_RATE_PAM4 | .CAL_LCNT_RUNS | .CAL_LCNT_RETRIES | .CAL_LCNT_FAILS | .FLT_CFG_CLASS | .FLT_CFG_MINV | .FLT_CFG_TRUNC | .FLT_CFG_KEEP => 16
  | .FLT_MMASK_MMASK | .FLT_CNT_COUNT | .F5_MODE_AB | .F5_MODE_BA | .F5_MODE_PAT | .F5_MODE_PROTO | .F5_MODE_WIDTH | .F5_MODE_RATE => 16
  | .F5_MODE_ERRLOG | .F5_MODE_UPSIDE | .F5_MODE_SRIS | .F5_MODE_CODE | .X_LANE_IDLE | .X_PCI_EFF | .X_FEC_ACC | .X_SPLIT => 16
  | .X_EQ_PHASE | .X_L0S | .X_L12 | .X_LANE_LAG | .X_RATE_NEXT => 16
  | .LT_CFG_EN | .LT_CFG_SIDE | .LT_CFG_LINK | .LT_PCI_CFG_ROLE | .LT_PCI_CFG_MAXRATE | .LT_PCI_CFG_FLITEN | .LT_PCI_CFG_CXLEN | .LT_RXRING_BASE => 2
  | .LT_RXRING_SIZE | .LT_TXRING_BASE | .LT_TXRING_SIZE | .LT_STAT_LTSSM | .LT_STAT_DLUP | .LT_STAT_RATE | .LT_STAT_FLIT | .LT_STAT_CXL => 2
  | .LT_CNT_NAKS | .LT_CNT_REPLAYS | .LT_ETH_CFG_MAXLEN | .LT_ETH_CFG_IPG | .LT_ETH_STAT_STATE | .LT_ETH_STAT_LF | .LT_ETH_STAT_RF | .LT_ETH_STAT_RXDROP => 2
  | .X_LT_SEQ | .X_LT_TGT | .X_LT_BUSY | .X_LT_RSEQ | .X_LT_NAKD | .X_LT_DLF | .X_LT_FCI | .X_LT_REV => 2
  | .X_LT_POL => 2
  | .PATH_SRC_SEL | .PATH_DISC_COUNT | .PATH_PAT_PAT | .PATH_PAT_GRAY | .PATH_PAT_INV | .PATH_PAT_CHKEN | .PATH_PAT_UBASE | .PATH_PAT_ULEN => 32
  | .PATH_PCHK_ERRS | .PATH_PCHK_LOCK | .PATH_DLY_CELLS | .PATH_DLYSTAT_ERR | .PATH_DLYSTAT_FILL | .XCVR_CTL_RXINV | .XCVR_CTL_TXINV | .XCVR_CTL_FREEZE => 32
  | .XCVR_STAT_SIGDET | .XCVR_STAT_LOCK | .XCVR_STAT_ADAPTED | .XCVR_STAT_LOL | .XCVR_STAT_TXIDLE | .XCVR_STAT_RXTERM | .XCVR_STAT_RXDET | .XCVR_STAT_TXCLK => 32
  | .XCVR_STAT_SSCACT | .XCVR_STAT_TXERR | .XCVR_STAT_CTLE | .XCVR_STAT_DFE | .TX_FIR_CM2 | .TX_FIR_CM1 | .TX_FIR_C0 | .TX_FIR_C1 => 32
  | .TX_FIR_C2 | .TX_FIR_C3 | .TX_FIRACT_ACT | .TX_LVL_SWING | .TX_LVL_LVLTRIM | .TX_CLK_SSCDEPTH | .TX_CLK_SSCFREQ | .TX_PPM_PPM => 32
  | .QUAL_CTL_QWIN | .QUAL_CTL_AUTO | .QUAL_CTL_SEQ | .QUAL_EYE_EW | .QUAL_EYE_EHLO | .QUAL_EYE_EHMID | .QUAL_EYE_EHUP | .QUAL_BER_BER => 32
  | .QUAL_BER_BOUND | .QUAL_BER_STALE | .QUAL_BER_OFSIDX | .QUAL_BER_OFS | .PATH_POS_POS | .PATH_POS_GEN | .MATCH_STAT_ARMED | .MATCH_STAT_OVF => 32
  | .MATCH_STAT_ACTSKIP | .MATCH_STAT_LASTPATH | .MATCH_CNT_COUNT | .MATCH_LPOS_POS | .MATCH_LEP_EPOCH | .PATH_FILT_FILT | .PATH_FILT_NONE | .STRM_CFG_PUN => 32
  | .STRM_CFG_CLASS | .STRM_CFG_ELIDE | .STRM_CFG_RAW | .STRM_CFG_ETHUNIT | .STRM_CFG_IDE | .STRM_CFG_ON | .STRM_CFG_PEND | .STRM_CFG_CFGERR => 32
  | .STRM_SEQ_SEQ | .STRM_LOSTR_COUNT | .STRM_LOSTB_COUNT | .X_PATH_STOPPED | .X_RSTK | .X_DLY_CNT | .X_CAP_FROM | .X_M_FIRED => 32
  | .X_DLY_LO | .X_DLY_EFF | .X_DLYH_V | .X_DLYH_POS | .X_DLYP_V | .X_DLYP_M | .X_DLYP_C | .X_SKP_V => 32
  | .X_SKP_POS | .X_SKP_DIR | .X_EB_OFS | .X_FIR_TRN | .X_SSC_EFF | .X_DET_RUN | .X_PCHK_RUN | .X_QW_EYE => 32
  | .X_QW_BER | .X_ITEM | .X_EDS | .X_CW | .X_CW_CLEAN | .X_M_CYC | .X_EQ_DONE | .X_PRECODE => 32
  | .X_PAT_RUN | .X_PAT_REG | .X_PAT_IX | .X_PAT_ACC | .X_MARG | .X_QW_CUT | .X_DLY_IN | .X_EQ_PSET => 32
  | .X_SWITCHED | .X_TS_CUT => 32
  | .GSB_CFG_FUNC | .GSB_CFG_LINK | .GSB_CFG_TL | .GSB_CFG_LEVEL | .SEQ_TSTAT_PC | .SEQ_TSTAT_STATE | .SEQ_TSTAT_FLAGS | .SEQ_TSTAT_CAUSE => 4
  | .SEQ_TSTAT_RSD | .SEQ_TSTAT_FULL | .SEQ_TSTART_PC | .X_RDEPTH | .X_CLKREQ | .X_GSB_EXT => 4
  | .X_LT_HC | .X_LT_DC | .X_LT_PH | .X_LT_PD | .X_LT_PINF | .X_LT_CH | .X_LT_CD => 6
  | .INJ_LOG_POS | .INJ_LOG_PATH | .INJ_LOG_OUTCOME | .INJ_LOG_ENTRY | .INJ_LOG_SRC_SOURCE | .INJ_ENT_MOMENT | .INJ_ENT_INFO_PATH | .INJ_ENT_INFO_ACT => 64
  | .INJ_ENT_INFO_FIX | .INJ_ENT_INFO_T | .INJ_ENT_INFO_STATE | .X_INJ_DATA | .X_INJ_SRC | .X_INJ_ORD | .X_INJ_HIT | .X_INJ_ITEM => 64
  | .X_INJ_BLK | .X_INJ_PASSED | .X_INJ_REACH | .X_INJ_NPOS => 64
  | _ => 0

/-- FLT_SEV(s).REACT after reset (R562). -/
def sevReset (s : Nat) : Nat :=
  if s < 768 then 0
  else if s = 1051 then 5
  else if s = 1028 ∨ s = 1074 then 2
  else 1

/-- Reset value of instance i, from the Reset column. -/
def Fld.reset : Fld → Nat → Nat
  | .DEV_STATE_STATE, _ => 1
  | .LNK_PCI_FLITEN, _ => 1
  | .LNK_PCI_MARGEN, _ => 1
  | .LNK_PCI_EQBYP, _ => 1
  | .LT_PCI_CFG_FLITEN, _ => 1
  | .LNK_ETH_ANEN, _ => 1
  | .LNK_ETH_LTEN, _ => 1
  | .PATH_PAT_GRAY, _ => 1
  | .XCVR_STAT_TXIDLE, _ => 1
  | .QUAL_CTL_AUTO, _ => 1
  | .QUAL_BER_STALE, _ => 1
  | .CAL_CTL_BGEN, _ => 1
  | .NVM_WEAR0_WRITES, _ => 1
  | .NVM_WEAR1_WRITES, _ => 1
  | .VIN_CTL_P0EN, _ => 1
  | .PATH_FILT_NONE, _ => 1
  | .STRM_CFG_ELIDE, _ => 1
  | .ECC_CFG_AUTOSOFT, _ => 1
  | .BAR2_MAP_EN, _ => 1
  | .MB_STAT_NOFW, _ => 1
  | .TW_CFG_PEC, _ => 1
  | .TW_CFG_TOEN, _ => 1
  | .TW_MBSTAT_NOFW, _ => 1
  | .RND_STAT_BUSY, _ => 1
  | .CLK_SEL_HSRC, _ => 1
  | .X_EB_OFS, _ => 1
  | .X_QW_CUT, _ => 1
  | .THM_CFG_DIEWARN, _ => 100
  | .PRS_PLIM_LIMIT, _ => 104
  | .PRS_PLIM_EFF, _ => 104
  | .X_THR, _ => 104
  | .LT_ETH_CFG_IPG, _ => 12
  | .PUN_CFG_IDXK, _ => 12
  | .FLT_CFG_CLASS, _ => 127
  | .REP_SPARE_ROWS, _ => 128
  | .VIN_LATB_TICKS, _ => 128000
  | .TW_SETUP_HOLD, _ => 15
  | .TW_SETUP_SETUP, _ => 15
  | .TW_ALERT_CAUSES, _ => 15
  | .CAL_SLC_GAIN, _ => 16
  | .ECC_CFG_TSVTHR, _ => 16
  | .DEV_REV_STEP, _ => 176
  | .QUAL_CTL_QWIN, _ => 2
  | .CAL_CTL_TOL, _ => 2
  | .CLK_DIV_PDIV, _ => 2
  | .CU_CTL_AWID, _ => 2
  | .X_CFG_MRRS, _ => 2
  | .FM_CTL_GATE, _ => 20
  | .TW_CCLK_HIGH, _ => 200
  | .CLK_DSLP_EN, _ => 2315255808
  | .SCR_CFG_PERIOD, _ => 24
  | .TW_CCLK_LOW, _ => 250
  | .ECC_CFG_CETHR, _ => 256
  | .RAW_RATE_KBPS, _ => 25781250
  | .X_SSC_EFF, _ => 25804800
  | .FM_CTL_REF, _ => 29
  | .DEV_REV_ROMVER, _ => 3
  | .TX_CLK_SSCFREQ, _ => 3150
  | .TX_FIRACT_ACT, _ => 32256
  | .DEV_IDENT_DID, _ => 37462
  | .ECC_CFG_ROWCE, _ => 4
  | .CLK_DIV_HDIV, _ => 4
  | .X_PCI_EFF, _ => 412
  | .CU_VAL_VAL, _ => 4294967295
  | .CAL_TX_Z, _ => 528
  | .CLK_SLP_EN, _ => 549754830847
  | .CLK_RUN_EN, _ => 549755813887
  | .CAL_LIN_LIN, _ => 554189328
  | .LNK_PCI_MAXRATE, _ => 6
  | .LT_PCI_CFG_MAXRATE, _ => 6
  | .TX_FIR_C0, _ => 63
  | .INJ_STAT_FREE, _ => 64
  | .TWR_RFM_THRESH, _ => 64
  | .VIN_CTL_PEN, _ => 7
  | .CAL_CTL_DT, _ => 8
  | .TW_ALERT_HOSTADDR, _ => 8
  | .PRS_PLIM_SHARE0, _ => 8
  | .TX_LVL_SWING, _ => 80
  | .DEV_IDENT_VID, _ => 8091
  | .THM_CFG_DRAMWARN, _ => 90
  | .LT_ETH_CFG_MAXLEN, _ => 9216
  | .TW_ADDR_PRIMARY, _ => 96
  | .BAR2_MAP_PAGE, i => i
  | .CAL_SLC_ROLE, i => i % 5
  | .RND_SERIAL_SERIAL, _ => Config.serial.toNat
  | .FLT_SEV_REACT, i => sevReset i
  | _, _ => 0

/-- Bits [lo + width - 1 : lo] of a register show bits [shift + width - 1 : shift] of a field. -/
structure Slot where
  lo : Nat
  width : Nat
  fld : Fld
  shift : Nat
  deriving DecidableEq, Repr

/-- One row of the register index (spec/23): the offset of instance 0, the strides and counts of the indices (outermost first), the slots. -/
structure RegRow where
  name : String
  base : Nat
  dims : List (Nat × Nat)
  slots : List Slot
  deriving DecidableEq, Repr

/-- Rows of the register index, part 0. -/
def regRows0 : List RegRow := [
  ⟨"DEV_IDENT", 0x0, [], [⟨0, 16, .DEV_IDENT_VID, 0⟩, ⟨16, 16, .DEV_IDENT_DID, 0⟩]⟩,
  ⟨"DEV_REV", 0x4, [], [⟨0, 8, .DEV_REV_STEP, 0⟩, ⟨8, 8, .DEV_REV_ROMVER, 0⟩]⟩,
  ⟨"DEV_STATE", 0x10, [], [⟨0, 4, .DEV_STATE_STATE, 0⟩, ⟨4, 1, .DEV_STATE_BANK, 0⟩, ⟨5, 1, .DEV_STATE_NONAPPR, 0⟩, ⟨6, 1, .DEV_STATE_PRESERVED0, 0⟩, ⟨7, 1, .DEV_STATE_PRESERVED1, 0⟩, ⟨8, 4, .DEV_STATE_QREF_OK, 0⟩, ⟨12, 1, .DEV_STATE_CLKFAIL_EARLY, 0⟩, ⟨13, 1, .DEV_STATE_CALRESTORE_PART, 0⟩, ⟨14, 1, .DEV_STATE_HR_PEND, 0⟩, ⟨16, 8, .DEV_STATE_LASTERR, 0⟩, ⟨24, 8, .DEV_STATE_INITSTEP, 0⟩]⟩,
  ⟨"DEV_CTL", 0x14, [], [⟨0, 1, .DEV_CTL_FULLBIST, 0⟩, ⟨1, 1, .DEV_CTL_HOLD_ON_CHIP, 0⟩]⟩,
  ⟨"DEV_CMD", 0x18, [], [⟨8, 8, .DEV_CMD_RESULT, 0⟩]⟩,
  ⟨"FW_MBX_CTL", 0x8000, [], [⟨4, 2, .FW_MBX_CTL_TARGET, 0⟩]⟩,
  ⟨"FW_MBX_STAT", 0x8004, [], [⟨0, 1, .FW_MBX_STAT_BUSY, 0⟩, ⟨1, 1, .FW_MBX_STAT_ACCEPTED, 0⟩, ⟨2, 1, .FW_MBX_STAT_ERR, 0⟩]⟩,
  ⟨"FW_MBX_LEN", 0x8008, [], [⟨0, 15, .FW_MBX_LEN_LEN, 0⟩]⟩,
  ⟨"FW_MBX_OFS", 0x800C, [], [⟨0, 21, .FW_MBX_OFS_OFS, 0⟩]⟩,
  ⟨"FW_MBX_TOTAL", 0x8010, [], [⟨0, 21, .FW_MBX_TOTAL_TOTAL, 0⟩]⟩,
  ⟨"CLK_SEL", 0x3000, [], [⟨0, 1, .CLK_SEL_BREF, 0⟩, ⟨1, 1, .CLK_SEL_HSRC, 0⟩, ⟨2, 2, .CLK_SEL_FSEL, 0⟩]⟩,
  ⟨"CLK_DIV", 0x3004, [], [⟨0, 4, .CLK_DIV_HDIV, 0⟩, ⟨4, 4, .CLK_DIV_PDIV, 0⟩]⟩,
  ⟨"CLK_STAT", 0x3008, [], [⟨0, 4, .CLK_STAT_QRDY, 0⟩, ⟨4, 1, .CLK_STAT_XRDY, 0⟩, ⟨5, 1, .CLK_STAT_CPLLRDY, 0⟩, ⟨6, 1, .CLK_STAT_AONRDY, 0⟩, ⟨7, 2, .CLK_STAT_MRDY, 0⟩, ⟨9, 1, .CLK_STAT_TRDY, 0⟩, ⟨10, 1, .CLK_STAT_FALLBACK, 0⟩, ⟨11, 1, .CLK_STAT_SWBUSY, 0⟩, ⟨12, 1, .CLK_STAT_SWREF, 0⟩, ⟨13, 1, .CLK_STAT_GATEERR, 0⟩]⟩,
  ⟨"CLK_FAIL_LO", 0x3010, [], [⟨0, 32, .CLK_FAIL_FAIL, 0⟩]⟩,
  ⟨"CLK_FAIL_HI", 0x3014, [], [⟨0, 7, .CLK_FAIL_FAIL, 32⟩]⟩,
  ⟨"CLK_GPEND_LO", 0x3018, [], [⟨0, 32, .CLK_GPEND_GATE_PEND, 0⟩]⟩,
  ⟨"CLK_GPEND_HI", 0x301C, [], [⟨0, 7, .CLK_GPEND_GATE_PEND, 32⟩]⟩,
  ⟨"CLK_CMD", 0x3020, [], [⟨8, 8, .CLK_CMD_RESULT, 0⟩]⟩,
  ⟨"CLK_RUN_LO", 0x3030, [], [⟨0, 32, .CLK_RUN_EN, 0⟩]⟩,
  ⟨"CLK_RUN_HI", 0x3034, [], [⟨0, 7, .CLK_RUN_EN, 32⟩]⟩]

/-- Rows of the register index, part 1. -/
def regRows1 : List RegRow := [
  ⟨"CLK_SLP_LO", 0x3038, [], [⟨0, 32, .CLK_SLP_EN, 0⟩]⟩,
  ⟨"CLK_SLP_HI", 0x303C, [], [⟨0, 7, .CLK_SLP_EN, 32⟩]⟩,
  ⟨"CLK_DSLP_LO", 0x3040, [], [⟨0, 32, .CLK_DSLP_EN, 0⟩]⟩,
  ⟨"CLK_DSLP_HI", 0x3044, [], [⟨0, 7, .CLK_DSLP_EN, 32⟩]⟩,
  ⟨"FM_CTL", 0x3080, [], [⟨0, 10, .FM_CTL_TGT, 0⟩, ⟨10, 7, .FM_CTL_REF, 0⟩, ⟨17, 5, .FM_CTL_GATE, 0⟩, ⟨22, 1, .FM_CTL_MODE, 0⟩, ⟨24, 1, .FM_CTL_BUSY, 0⟩, ⟨25, 1, .FM_CTL_ERR, 0⟩]⟩,
  ⟨"FM_COUNT_LO", 0x3084, [], [⟨0, 32, .FM_COUNT_COUNT, 0⟩]⟩,
  ⟨"FM_COUNT_HI", 0x3088, [], [⟨0, 16, .FM_COUNT_COUNT, 32⟩]⟩,
  ⟨"FM_NOM", 0x308C, [], [⟨0, 32, .FM_NOM_KHZ, 0⟩]⟩,
  ⟨"FM_SSC", 0x3090, [], [⟨0, 16, .FM_SSC_FMAX, 0⟩, ⟨16, 16, .FM_SSC_FMIN, 0⟩]⟩,
  ⟨"FM_SSC2", 0x3094, [], [⟨0, 13, .FM_SSC2_DEPTH, 0⟩, ⟨16, 12, .FM_SSC2_MODF, 0⟩, ⟨28, 1, .FM_SSC2_NOSSC, 0⟩]⟩,
  ⟨"FM_MEAN", 0x3098, [], [⟨0, 16, .FM_MEAN_MEAN, 0⟩]⟩,
  ⟨"PWR_STAT_LO", 0x4000, [], [⟨0, 32, .PWR_STAT_ON, 0⟩]⟩,
  ⟨"PWR_STAT_HI", 0x4004, [], [⟨0, 24, .PWR_STAT_ON, 32⟩, ⟨24, 1, .PWR_STAT_ERR, 0⟩]⟩,
  ⟨"PWR_OFF_LO", 0x4008, [], [⟨0, 32, .PWR_OFF_OFF, 0⟩]⟩,
  ⟨"PWR_OFF_HI", 0x400C, [], [⟨0, 24, .PWR_OFF_OFF, 32⟩]⟩,
  ⟨"RST_CMD", 0x5000, [], [⟨8, 8, .RST_CMD_RESULT, 0⟩]⟩,
  ⟨"RST_STAT", 0x5004, [], [⟨0, 2, .RST_STAT_LAST, 0⟩, ⟨16, 16, .RST_STAT_MGMTCNT, 0⟩]⟩,
  ⟨"MB_CTL", 0x9000, [], []⟩,
  ⟨"MB_STAT", 0x9004, [], [⟨0, 1, .MB_STAT_PEND, 0⟩, ⟨1, 1, .MB_STAT_RSP, 0⟩, ⟨2, 1, .MB_STAT_ERR, 0⟩, ⟨3, 1, .MB_STAT_NOFW, 0⟩]⟩,
  ⟨"MGT_CTL", 0x900C, [], [⟨1, 1, .MGT_CTL_AUTO, 0⟩]⟩]

/-- Rows of the register index, part 2. -/
def regRows2 : List RegRow := [
  ⟨"MGT_EVSTAT", 0x9010, [], [⟨0, 13, .MGT_EVSTAT_QUEUED, 0⟩, ⟨16, 16, .MGT_EVSTAT_LOST, 0⟩]⟩,
  ⟨"XP_STAT", 0x20000, [], [⟨0, 1, .XP_STAT_BE, 0⟩, ⟨1, 1, .XP_STAT_BADADDR, 0⟩, ⟨2, 1, .XP_STAT_WRDISC, 0⟩, ⟨3, 1, .XP_STAT_STARVE, 0⟩]⟩,
  ⟨"FLT_CTL", 0x100000, [], [⟨0, 1, .FLT_CTL_IRQEN, 0⟩]⟩,
  ⟨"FLT_GSTAT", 0x100004, [], [⟨0, 1, .FLT_GSTAT_FAULTN, 0⟩, ⟨1, 1, .FLT_GSTAT_IRQ, 0⟩, ⟨2, 1, .FLT_GSTAT_TRAPPEND, 0⟩]⟩,
  ⟨"FLT_FIRST_LO", 0x100010, [], [⟨0, 32, .FLT_FIRST_ADDR, 0⟩]⟩,
  ⟨"FLT_FIRST_HI", 0x100014, [], [⟨0, 16, .FLT_FIRST_ADDR, 32⟩]⟩,
  ⟨"FLT_FIRST_SRC", 0x100018, [], [⟨0, 11, .FLT_FIRST_SRC_SOURCE, 0⟩, ⟨12, 4, .FLT_FIRST_SRC_KIND, 0⟩, ⟨16, 3, .FLT_FIRST_SRC_REACT, 0⟩, ⟨24, 1, .FLT_FIRST_SRC_VALID, 0⟩, ⟨25, 1, .FLT_FIRST_SRC_OVF, 0⟩, ⟨26, 1, .FLT_FIRST_SRC_INJ, 0⟩, ⟨27, 1, .FLT_FIRST_SRC_COLLIDE, 0⟩, ⟨28, 1, .FLT_FIRST_SRC_ESC, 0⟩]⟩,
  ⟨"FLT_FIRST_EPLO", 0x10001C, [], [⟨0, 32, .FLT_FIRST_EPOCH, 0⟩]⟩,
  ⟨"FLT_FIRST_EPHI", 0x100020, [], [⟨0, 32, .FLT_FIRST_EPOCH, 32⟩]⟩,
  ⟨"FLT_RSTCAUSE", 0x100024, [], [⟨0, 11, .FLT_RSTCAUSE_SOURCE, 0⟩, ⟨12, 4, .FLT_RSTCAUSE_KIND, 0⟩, ⟨16, 1, .FLT_RSTCAUSE_VALID, 0⟩, ⟨17, 1, .FLT_RSTCAUSE_ESC, 0⟩]⟩,
  ⟨"FLT_DROP", 0x100028, [], [⟨0, 32, .FLT_DROP_COUNT, 0⟩]⟩,
  ⟨"FLT_EVLOST", 0x10002C, [], [⟨0, 32, .FLT_EVLOST_COUNT, 0⟩]⟩,
  ⟨"FLT_INJ", 0x100040, [], [⟨0, 6, .FLT_INJ_CHECKER, 0⟩, ⟨6, 2, .FLT_INJ_BITS, 0⟩, ⟨8, 8, .FLT_INJ_COUNT, 0⟩, ⟨17, 1, .FLT_INJ_BUSY, 0⟩, ⟨24, 8, .FLT_INJ_RESULT, 0⟩]⟩,
  ⟨"HK_STAT", 0x200180, [], [⟨0, 16, .HK_STAT_ROUNDS, 0⟩, ⟨16, 1, .HK_STAT_AONMODE, 0⟩]⟩,
  ⟨"THM_CFG", 0x200190, [], [⟨0, 8, .THM_CFG_DIEWARN, 0⟩, ⟨8, 8, .THM_CFG_DRAMWARN, 0⟩]⟩,
  ⟨"THM_STAT", 0x200194, [], [⟨0, 8, .THM_STAT_DIEMAX, 0⟩, ⟨8, 8, .THM_STAT_DRAMMAX, 0⟩, ⟨16, 1, .THM_STAT_HOT, 0⟩, ⟨17, 4, .THM_STAT_COOLCNT, 0⟩, ⟨21, 1, .THM_STAT_CFGERR, 0⟩]⟩,
  ⟨"TW_CFG", 0x300000, [], [⟨0, 1, .TW_CFG_PEC, 0⟩, ⟨1, 1, .TW_CFG_TOEN, 0⟩, ⟨2, 1, .TW_CFG_ADDR2EN, 0⟩, ⟨3, 1, .TW_CFG_MASKEN, 0⟩]⟩,
  ⟨"TW_ADDR", 0x300004, [], [⟨0, 7, .TW_ADDR_PRIMARY, 0⟩, ⟨8, 7, .TW_ADDR_ADDR2, 0⟩, ⟨16, 7, .TW_ADDR_MASK, 0⟩]⟩,
  ⟨"TW_SETUP", 0x300008, [], [⟨0, 6, .TW_SETUP_HOLD, 0⟩, ⟨8, 6, .TW_SETUP_SETUP, 0⟩]⟩,
  ⟨"TW_CCLK", 0x30000C, [], [⟨0, 10, .TW_CCLK_LOW, 0⟩, ⟨16, 10, .TW_CCLK_HIGH, 0⟩]⟩]

/-- Rows of the register index, part 3. -/
def regRows3 : List RegRow := [
  ⟨"TW_ALERT", 0x300010, [], [⟨0, 7, .TW_ALERT_HOSTADDR, 0⟩, ⟨7, 1, .TW_ALERT_EN, 0⟩, ⟨8, 4, .TW_ALERT_CAUSES, 0⟩]⟩,
  ⟨"TW_STAT", 0x300014, [], [⟨0, 1, .TW_STAT_PECERR, 0⟩, ⟨1, 1, .TW_STAT_PROTO, 0⟩, ⟨2, 1, .TW_STAT_TOUT, 0⟩, ⟨3, 1, .TW_STAT_ALERTFAIL, 0⟩, ⟨4, 1, .TW_STAT_MCTPFAIL, 0⟩, ⟨5, 1, .TW_STAT_REGERR, 0⟩, ⟨6, 1, .TW_STAT_PECMISS, 0⟩]⟩,
  ⟨"TW_CNT", 0x300018, [], [⟨0, 16, .TW_CNT_NAKBUSY, 0⟩, ⟨16, 16, .TW_CNT_RETRIES, 0⟩]⟩,
  ⟨"TW_MBCTL", 0x300040, [], []⟩,
  ⟨"TW_MBSTAT", 0x300044, [], [⟨0, 1, .TW_MBSTAT_PEND, 0⟩, ⟨1, 1, .TW_MBSTAT_RSP, 0⟩, ⟨2, 1, .TW_MBSTAT_ERR, 0⟩, ⟨3, 1, .TW_MBSTAT_NOFW, 0⟩]⟩,
  ⟨"CAL_CTL", 0x440000, [], [⟨0, 1, .CAL_CTL_BGEN, 0⟩, ⟨1, 6, .CAL_CTL_DT, 0⟩, ⟨7, 3, .CAL_CTL_TOL, 0⟩]⟩,
  ⟨"CAL_CMD", 0x440004, [], [⟨16, 8, .CAL_CMD_RESULT, 0⟩]⟩,
  ⟨"CAL_STAT", 0x440008, [], [⟨0, 1, .CAL_STAT_WBBUSY, 0⟩, ⟨1, 1, .CAL_STAT_COPY, 0⟩, ⟨2, 1, .CAL_STAT_CFGERR, 0⟩, ⟨3, 1, .CAL_STAT_WORN, 0⟩]⟩,
  ⟨"NVM_WEAR0", 0x44000C, [], [⟨0, 17, .NVM_WEAR0_WRITES, 0⟩]⟩,
  ⟨"NVM_WEAR1", 0x440010, [], [⟨0, 17, .NVM_WEAR1_WRITES, 0⟩]⟩,
  ⟨"RND_STAT", 0x500000, [], [⟨0, 1, .RND_STAT_APPR, 0⟩, ⟨1, 1, .RND_STAT_ERROR, 0⟩, ⟨2, 2, .RND_STAT_DBGLVL, 0⟩, ⟨4, 1, .RND_STAT_SESS, 0⟩, ⟨5, 1, .RND_STAT_BUSY, 0⟩, ⟨6, 1, .RND_STAT_CMDERR, 0⟩, ⟨7, 1, .RND_STAT_DECOM, 0⟩, ⟨8, 7, .RND_STAT_ASC, 0⟩, ⟨16, 4, .RND_STAT_OPSLOT, 0⟩, ⟨20, 4, .RND_STAT_OPREV, 0⟩]⟩,
  ⟨"RND_SERIAL_LO", 0x500004, [], [⟨0, 32, .RND_SERIAL_SERIAL, 0⟩]⟩,
  ⟨"RND_SERIAL_HI", 0x500008, [], [⟨0, 32, .RND_SERIAL_SERIAL, 32⟩]⟩,
  ⟨"RND_CMD", 0x500010, [], [⟨24, 8, .RND_CMD_RESULT, 0⟩]⟩,
  ⟨"RND_ZCNT", 0x500014, [], [⟨0, 16, .RND_ZCNT_COUNT, 0⟩]⟩,
  ⟨"TB_EPOCH_LO", 0x600000, [], [⟨0, 32, .TB_EPOCH_EPOCH, 0⟩]⟩,
  ⟨"TB_EPOCH_HI", 0x600004, [], [⟨0, 32, .TB_EPOCH_EPOCH, 32⟩]⟩,
  ⟨"TB_STAT", 0x600008, [], [⟨0, 1, .TB_STAT_VALID, 0⟩, ⟨1, 1, .TB_STAT_SLEW, 0⟩, ⟨2, 1, .TB_STAT_LOST, 0⟩, ⟨16, 16, .TB_STAT_STEPS, 0⟩]⟩,
  ⟨"VIN_CTL", 0x600010, [], [⟨0, 1, .VIN_CTL_ROOT, 0⟩, ⟨1, 3, .VIN_CTL_PEN, 0⟩, ⟨4, 1, .VIN_CTL_P0EN, 0⟩]⟩,
  ⟨"VIN_NODE", 0x600014, [], [⟨0, 16, .VIN_NODE_ID, 0⟩, ⟨16, 5, .VIN_NODE_HOPS, 0⟩]⟩]

/-- Rows of the register index, part 4. -/
def regRows4 : List RegRow := [
  ⟨"VIN_HOPD", 0x600030, [], [⟨0, 24, .VIN_HOPD_DELAY, 0⟩, ⟨24, 8, .VIN_HOPD_OFS, 0⟩]⟩,
  ⟨"VIN_ASYM", 0x600034, [], [⟨0, 8, .VIN_ASYM_ASYM, 0⟩]⟩,
  ⟨"VIN_LATB", 0x600038, [], [⟨0, 24, .VIN_LATB_TICKS, 0⟩]⟩,
  ⟨"VIN_STAT", 0x60003C, [], [⟨0, 1, .VIN_STAT_MISS, 0⟩, ⟨1, 7, .VIN_STAT_HELD, 0⟩, ⟨16, 16, .VIN_STAT_RSEQ, 0⟩]⟩,
  ⟨"VIN_SENDT_LO", 0x600040, [], [⟨0, 32, .VIN_SENDT_T, 0⟩]⟩,
  ⟨"VIN_SENDT_HI", 0x600044, [], [⟨0, 32, .VIN_SENDT_T, 32⟩]⟩,
  ⟨"VIN_SEND", 0x600048, [], [⟨8, 8, .VIN_SEND_RESULT, 0⟩]⟩,
  ⟨"F5_CTL", 0x700000, [], [⟨0, 16, .F5_CTL_EN, 0⟩, ⟨16, 16, .F5_CTL_CAP, 0⟩]⟩,
  ⟨"F5_STAT", 0x700004, [], [⟨0, 16, .F5_STAT_ACT, 0⟩, ⟨16, 1, .F5_STAT_CTLERR, 0⟩, ⟨17, 1, .F5_STAT_OWNERR, 0⟩, ⟨18, 1, .F5_STAT_CAPERR, 0⟩, ⟨20, 12, .F5_STAT_SKIP, 0⟩]⟩,
  ⟨"PRS_STAT", 0x3000000, [], [⟨0, 1, .PRS_STAT_DROP0, 0⟩, ⟨1, 1, .PRS_STAT_DROP1, 0⟩]⟩,
  ⟨"PRS_PLIM", 0x3000030, [], [⟨0, 7, .PRS_PLIM_LIMIT, 0⟩, ⟨8, 5, .PRS_PLIM_SHARE0, 0⟩, ⟨16, 7, .PRS_PLIM_EFF, 0⟩, ⟨23, 1, .PRS_PLIM_THROT, 0⟩]⟩,
  ⟨"STRM_CMD", 0x3012000, [], [⟨24, 8, .STRM_CMD_RESULT, 0⟩]⟩,
  ⟨"PUN_CMD", 0x3028000, [], [⟨24, 8, .PUN_CMD_RESULT, 0⟩]⟩,
  ⟨"TL_LVL_LO", 0x3800100, [], [⟨0, 32, .TL_LVL_LVL, 0⟩]⟩,
  ⟨"TL_LVL_HI", 0x3800104, [], [⟨0, 32, .TL_LVL_LVL, 32⟩]⟩,
  ⟨"TL_SET", 0x3800108, [], []⟩,
  ⟨"TL_CLR", 0x380010C, [], []⟩,
  ⟨"TL_COLL_LO", 0x3800110, [], [⟨0, 32, .TL_COLL_COLL, 0⟩]⟩,
  ⟨"TL_COLL_HI", 0x3800114, [], [⟨0, 32, .TL_COLL_COLL, 32⟩]⟩,
  ⟨"BAR2_MAP", 0x20100, [(0x4, 64)], [⟨0, 8, .BAR2_MAP_PAGE, 0⟩, ⟨8, 1, .BAR2_MAP_EN, 0⟩]⟩]

/-- Rows of the register index, part 5. -/
def regRows5 : List RegRow := [
  ⟨"FLT_STAT", 0x100100, [(0x4, 36)], [⟨0, 32, .FLT_STAT_STAT, 0⟩]⟩,
  ⟨"FLT_SEV", 0x101000, [(0x4, 1152)], [⟨0, 3, .FLT_SEV_REACT, 0⟩, ⟨3, 4, .FLT_SEV_CLASS, 0⟩]⟩,
  ⟨"HK_VAL", 0x200000, [(0x4, 96)], [⟨0, 16, .HK_VAL_VALUE, 0⟩, ⟨16, 1, .HK_VAL_VALID, 0⟩]⟩,
  ⟨"DROOP_CNT", 0x200200, [(0x4, 16)], [⟨0, 16, .DROOP_CNT_COUNT, 0⟩]⟩,
  ⟨"CU_CTL", 0x400000, [(0x80, 8)], [⟨0, 3, .CU_CTL_POLY, 0⟩, ⟨3, 1, .CU_CTL_CMPEN, 0⟩, ⟨4, 2, .CU_CTL_AMODE, 0⟩, ⟨6, 2, .CU_CTL_AWID, 0⟩, ⟨16, 16, .CU_CTL_LEN, 0⟩]⟩,
  ⟨"CU_CMD", 0x400004, [(0x80, 8)], []⟩,
  ⟨"CU_FEED8", 0x400008, [(0x80, 8)], []⟩,
  ⟨"CU_FEED16", 0x40000C, [(0x80, 8)], []⟩,
  ⟨"CU_FEED32", 0x400010, [(0x80, 8)], []⟩,
  ⟨"CU_VAL_LO", 0x400014, [(0x80, 8)], [⟨0, 32, .CU_VAL_VAL, 0⟩]⟩,
  ⟨"CU_VAL_HI", 0x400018, [(0x80, 8)], [⟨0, 32, .CU_VAL_VAL, 32⟩]⟩,
  ⟨"CU_RES_LO", 0x40001C, [(0x80, 8)], [⟨0, 32, .CU_RES_RES, 0⟩]⟩,
  ⟨"CU_RES_HI", 0x400020, [(0x80, 8)], [⟨0, 32, .CU_RES_RES, 32⟩]⟩,
  ⟨"CU_EXP_LO", 0x400024, [(0x80, 8)], [⟨0, 32, .CU_EXP_EXP, 0⟩]⟩,
  ⟨"CU_EXP_HI", 0x400028, [(0x80, 8)], [⟨0, 32, .CU_EXP_EXP, 32⟩]⟩,
  ⟨"CU_ALIVE", 0x40002C, [(0x80, 8)], [⟨0, 16, .CU_ALIVE_AOFS, 0⟩]⟩,
  ⟨"CU_ALAST", 0x400030, [(0x80, 8)], [⟨0, 32, .CU_ALAST_LAST, 0⟩]⟩,
  ⟨"CU_STAT", 0x400034, [(0x80, 8)], [⟨0, 1, .CU_STAT_MATCH, 0⟩, ⟨1, 1, .CU_STAT_MISM, 0⟩, ⟨2, 1, .CU_STAT_REPEAT, 0⟩, ⟨3, 1, .CU_STAT_SKIP, 0⟩, ⟨4, 1, .CU_STAT_OVERRUN, 0⟩, ⟨5, 1, .CU_STAT_AVALID, 0⟩]⟩,
  ⟨"CU_CNT", 0x400038, [(0x80, 8)], [⟨0, 16, .CU_CNT_CNT, 0⟩]⟩,
  ⟨"CU_LRES_LO", 0x40003C, [(0x80, 8)], [⟨0, 32, .CU_LRES_RES, 0⟩]⟩]

/-- Rows of the register index, part 6. -/
def regRows6 : List RegRow := [
  ⟨"CU_LRES_HI", 0x400040, [(0x80, 8)], [⟨0, 32, .CU_LRES_RES, 32⟩]⟩,
  ⟨"CAL_LSTAT", 0x440400, [(0x4, 256)], [⟨0, 8, .CAL_LSTAT_TLAST_A, 0⟩, ⟨8, 8, .CAL_LSTAT_TLAST_B, 0⟩, ⟨16, 3, .CAL_LSTAT_STATE, 0⟩, ⟨19, 1, .CAL_LSTAT_NOSHADOW_A, 0⟩, ⟨20, 1, .CAL_LSTAT_NOSHADOW_B, 0⟩, ⟨21, 3, .CAL_LSTAT_CONSEC, 0⟩]⟩,
  ⟨"CAL_LCNT", 0x440800, [(0x4, 256)], [⟨0, 16, .CAL_LCNT_RUNS, 0⟩, ⟨16, 8, .CAL_LCNT_RETRIES, 0⟩, ⟨24, 8, .CAL_LCNT_FAILS, 0⟩]⟩,
  ⟨"CAL_OFS", 0x448000, [(0x40, 512), (0x8, 5)], [⟨0, 24, .CAL_OFS_OFS, 0⟩]⟩,
  ⟨"CAL_SLC", 0x448004, [(0x40, 512), (0x8, 5)], [⟨0, 5, .CAL_SLC_PAIR, 0⟩, ⟨5, 5, .CAL_SLC_GAIN, 0⟩, ⟨10, 3, .CAL_SLC_ROLE, 0⟩]⟩,
  ⟨"CAL_TX", 0x448028, [(0x40, 512)], [⟨0, 10, .CAL_TX_Z, 0⟩]⟩,
  ⟨"CAL_LIN", 0x44802C, [(0x40, 512)], [⟨0, 30, .CAL_LIN_LIN, 0⟩]⟩,
  ⟨"RND_PKEY", 0x500200, [(0x4, 8)], [⟨0, 32, .RND_PKEY_LOADED, 0⟩]⟩,
  ⟨"RND_IKEY", 0x500220, [(0x4, 8)], [⟨0, 32, .RND_IKEY_LOADED, 0⟩]⟩,
  ⟨"VIN_PSTAT", 0x600020, [(0x4, 4)], [⟨0, 2, .VIN_PSTAT_STATE, 0⟩]⟩,
  ⟨"VIN_TLAST_LO", 0x600080, [(0x10, 16)], [⟨0, 32, .VIN_TLAST_T, 0⟩]⟩,
  ⟨"VIN_TLAST_HI", 0x600084, [(0x10, 16)], [⟨0, 32, .VIN_TLAST_T, 32⟩]⟩,
  ⟨"VIN_TLAST_ORG", 0x600088, [(0x10, 16)], [⟨0, 16, .VIN_TLAST_ORG_ORIGIN, 0⟩, ⟨16, 1, .VIN_TLAST_ORG_LATE, 0⟩, ⟨17, 1, .VIN_TLAST_ORG_LATEO, 0⟩]⟩,
  ⟨"F5_MODE", 0x701000, [(0x100, 16), (0x4, 16)], [⟨0, 3, .F5_MODE_AB, 0⟩, ⟨3, 3, .F5_MODE_BA, 0⟩, ⟨6, 4, .F5_MODE_PAT, 0⟩, ⟨10, 2, .F5_MODE_PROTO, 0⟩, ⟨12, 3, .F5_MODE_WIDTH, 0⟩, ⟨15, 3, .F5_MODE_RATE, 0⟩, ⟨18, 4, .F5_MODE_ERRLOG, 0⟩, ⟨22, 1, .F5_MODE_UPSIDE, 0⟩, ⟨23, 1, .F5_MODE_SRIS, 0⟩, ⟨24, 8, .F5_MODE_CODE, 0⟩]⟩,
  ⟨"LINK_CFG", 0x1000000, [(0x100000, 16), (0x4, 16)], [⟨0, 1, .LINK_CFG_EN, 0⟩, ⟨1, 3, .LINK_CFG_WIDTH, 0⟩, ⟨4, 4, .LINK_CFG_FIRST, 0⟩, ⟨8, 3, .LINK_CFG_PROTO, 0⟩]⟩,
  ⟨"GRV_LINKERR", 0x1000040, [(0x100000, 16)], [⟨0, 1, .GRV_LINKERR_ERR, 0⟩]⟩,
  ⟨"PATH_MODE", 0x1000100, [(0x100000, 16), (0x4, 16)], [⟨0, 3, .PATH_MODE_AB, 0⟩, ⟨4, 3, .PATH_MODE_BA, 0⟩, ⟨8, 1, .PATH_MODE_PEND_AB, 0⟩, ⟨9, 1, .PATH_MODE_PEND_BA, 0⟩, ⟨16, 8, .PATH_MODE_CODE, 0⟩]⟩,
  ⟨"PATH_SRC", 0x1000280, [(0x100000, 16), (0x4, 32)], [⟨0, 2, .PATH_SRC_SEL, 0⟩]⟩,
  ⟨"PATH_DISC", 0x1000300, [(0x100000, 16), (0x4, 32)], [⟨0, 32, .PATH_DISC_COUNT, 0⟩]⟩,
  ⟨"LT_CFG", 0x1000400, [(0x100000, 16), (0x4, 2)], [⟨0, 1, .LT_CFG_EN, 0⟩, ⟨1, 1, .LT_CFG_SIDE, 0⟩, ⟨2, 4, .LT_CFG_LINK, 0⟩]⟩]

/-- Rows of the register index, part 7. -/
def regRows7 : List RegRow := [
  ⟨"LNK_PCI", 0x1000500, [(0x100000, 16), (0x4, 16)], [⟨0, 1, .LNK_PCI_UPSIDE, 0⟩, ⟨1, 3, .LNK_PCI_MAXRATE, 0⟩, ⟨4, 1, .LNK_PCI_FLITEN, 0⟩, ⟨5, 2, .LNK_PCI_CLKMODE, 0⟩, ⟨7, 1, .LNK_PCI_MARGEN, 0⟩, ⟨8, 1, .LNK_PCI_EQBYP, 0⟩]⟩,
  ⟨"LNK_PSTAT", 0x1000540, [(0x100000, 16), (0x4, 16)], [⟨0, 4, .LNK_PSTAT_STATE, 0⟩, ⟨4, 3, .LNK_PSTAT_RATE, 0⟩, ⟨7, 1, .LNK_PSTAT_FLIT, 0⟩, ⟨8, 3, .LNK_PSTAT_WIDTH, 0⟩, ⟨11, 2, .LNK_PSTAT_FMT, 0⟩, ⟨13, 1, .LNK_PSTAT_PMIS, 0⟩, ⟨14, 2, .LNK_PSTAT_RTPOS, 0⟩, ⟨16, 1, .LNK_PSTAT_MARGACT, 0⟩, ⟨17, 1, .LNK_PSTAT_EBERR, 0⟩]⟩,
  ⟨"LT_PCI_CFG", 0x1000600, [(0x100000, 16), (0x20, 2)], [⟨0, 1, .LT_PCI_CFG_ROLE, 0⟩, ⟨1, 3, .LT_PCI_CFG_MAXRATE, 0⟩, ⟨4, 1, .LT_PCI_CFG_FLITEN, 0⟩, ⟨5, 1, .LT_PCI_CFG_CXLEN, 0⟩]⟩,
  ⟨"LT_RXRING", 0x1000604, [(0x100000, 16), (0x20, 2)], [⟨0, 12, .LT_RXRING_BASE, 0⟩, ⟨12, 10, .LT_RXRING_SIZE, 0⟩]⟩,
  ⟨"LT_TXRING", 0x1000608, [(0x100000, 16), (0x20, 2)], [⟨0, 12, .LT_TXRING_BASE, 0⟩, ⟨12, 10, .LT_TXRING_SIZE, 0⟩]⟩,
  ⟨"LT_STAT", 0x100060C, [(0x100000, 16), (0x20, 2)], [⟨0, 4, .LT_STAT_LTSSM, 0⟩, ⟨4, 1, .LT_STAT_DLUP, 0⟩, ⟨5, 3, .LT_STAT_RATE, 0⟩, ⟨8, 1, .LT_STAT_FLIT, 0⟩, ⟨9, 1, .LT_STAT_CXL, 0⟩]⟩,
  ⟨"LT_CNT", 0x1000610, [(0x100000, 16), (0x20, 2)], [⟨0, 16, .LT_CNT_NAKS, 0⟩, ⟨16, 16, .LT_CNT_REPLAYS, 0⟩]⟩,
  ⟨"LT_ETH_CFG", 0x1000614, [(0x100000, 16), (0x20, 2)], [⟨0, 14, .LT_ETH_CFG_MAXLEN, 0⟩, ⟨14, 6, .LT_ETH_CFG_IPG, 0⟩]⟩,
  ⟨"LT_ETH_STAT", 0x1000618, [(0x100000, 16), (0x20, 2)], [⟨0, 3, .LT_ETH_STAT_STATE, 0⟩, ⟨3, 1, .LT_ETH_STAT_LF, 0⟩, ⟨4, 1, .LT_ETH_STAT_RF, 0⟩, ⟨16, 16, .LT_ETH_STAT_RXDROP, 0⟩]⟩,
  ⟨"GSB_CFG", 0x1000700, [(0x100000, 16), (0x4, 4)], [⟨0, 3, .GSB_CFG_FUNC, 0⟩, ⟨3, 4, .GSB_CFG_LINK, 0⟩, ⟨8, 6, .GSB_CFG_TL, 0⟩, ⟨16, 1, .GSB_CFG_LEVEL, 0⟩]⟩,
  ⟨"LNK_ETH", 0x1000800, [(0x100000, 16), (0x4, 16)], [⟨0, 3, .LNK_ETH_LRATE, 0⟩, ⟨3, 2, .LNK_ETH_FEC, 0⟩, ⟨5, 1, .LNK_ETH_ANEN, 0⟩, ⟨6, 1, .LNK_ETH_LTEN, 0⟩, ⟨7, 2, .LNK_ETH_PAUSE, 0⟩, ⟨9, 1, .LNK_ETH_POSUNIT, 0⟩, ⟨10, 1, .LNK_ETH_CLEANALL, 0⟩, ⟨11, 1, .LNK_ETH_AMALIGN, 0⟩]⟩,
  ⟨"LNK_ESTAT", 0x1000840, [(0x100000, 16), (0x4, 16)], [⟨0, 3, .LNK_ESTAT_SEGA, 0⟩, ⟨3, 3, .LNK_ESTAT_SEGB, 0⟩, ⟨6, 1, .LNK_ESTAT_ANFAIL, 0⟩]⟩,
  ⟨"FEC_CW", 0x1000900, [(0x100000, 16), (0x10, 16)], [⟨0, 32, .FEC_CW_COUNT, 0⟩]⟩,
  ⟨"FEC_CORR", 0x1000904, [(0x100000, 16), (0x10, 16)], [⟨0, 32, .FEC_CORR_COUNT, 0⟩]⟩,
  ⟨"FEC_UNC", 0x1000908, [(0x100000, 16), (0x10, 16)], [⟨0, 32, .FEC_UNC_COUNT, 0⟩]⟩,
  ⟨"FEC_SYM", 0x100090C, [(0x100000, 16), (0x10, 16)], [⟨0, 32, .FEC_SYM_COUNT, 0⟩]⟩,
  ⟨"PATH_PAT", 0x1000B00, [(0x100000, 16), (0x4, 32)], [⟨0, 4, .PATH_PAT_PAT, 0⟩, ⟨4, 1, .PATH_PAT_GRAY, 0⟩, ⟨5, 1, .PATH_PAT_INV, 0⟩, ⟨6, 1, .PATH_PAT_CHKEN, 0⟩, ⟨7, 12, .PATH_PAT_UBASE, 0⟩, ⟨19, 13, .PATH_PAT_ULEN, 0⟩]⟩,
  ⟨"PATH_PCHK", 0x1000B80, [(0x100000, 16), (0x4, 32)], [⟨0, 31, .PATH_PCHK_ERRS, 0⟩, ⟨31, 1, .PATH_PCHK_LOCK, 0⟩]⟩,
  ⟨"RAW_RATE", 0x1000C00, [(0x100000, 16), (0x4, 16)], [⟨0, 28, .RAW_RATE_KBPS, 0⟩, ⟨28, 1, .RAW_RATE_PAM4, 0⟩]⟩,
  ⟨"PATH_DLY", 0x1000C40, [(0x100000, 16), (0x4, 32)], [⟨0, 32, .PATH_DLY_CELLS, 0⟩]⟩]

/-- Rows of the register index, part 8. -/
def regRows8 : List RegRow := [
  ⟨"PATH_DLYSTAT", 0x1000CC0, [(0x100000, 16), (0x4, 32)], [⟨0, 1, .PATH_DLYSTAT_ERR, 0⟩, ⟨1, 1, .PATH_DLYSTAT_FILL, 0⟩]⟩,
  ⟨"PATH_POS_LO", 0x1001000, [(0x100000, 16), (0x8, 32)], [⟨0, 32, .PATH_POS_POS, 0⟩]⟩,
  ⟨"PATH_POS_HI", 0x1001004, [(0x100000, 16), (0x8, 32)], [⟨0, 16, .PATH_POS_POS, 32⟩, ⟨16, 16, .PATH_POS_GEN, 0⟩]⟩,
  ⟨"SEQ_CTL", 0x1002000, [(0x100000, 16)], [⟨12, 1, .SEQ_CTL_CLRBUSY, 0⟩, ⟨13, 1, .SEQ_CTL_ERR, 0⟩]⟩,
  ⟨"SEQ_TSTAT", 0x1002010, [(0x100000, 16), (0x4, 4)], [⟨0, 14, .SEQ_TSTAT_PC, 0⟩, ⟨16, 3, .SEQ_TSTAT_STATE, 0⟩, ⟨20, 4, .SEQ_TSTAT_FLAGS, 0⟩, ⟨24, 4, .SEQ_TSTAT_CAUSE, 0⟩, ⟨28, 3, .SEQ_TSTAT_RSD, 0⟩, ⟨31, 1, .SEQ_TSTAT_FULL, 0⟩]⟩,
  ⟨"SEQ_TSTART", 0x1002020, [(0x100000, 16), (0x4, 4)], [⟨0, 14, .SEQ_TSTART_PC, 0⟩]⟩,
  ⟨"SEQ_ACNT", 0x1002030, [(0x100000, 16)], [⟨0, 16, .SEQ_ACNT_CANCEL, 0⟩]⟩,
  ⟨"SEQ_REGS_LO", 0x1002100, [(0x100000, 16), (0x100, 4), (0x8, 32)], [⟨0, 32, .SEQ_REGS_W, 0⟩]⟩,
  ⟨"SEQ_REGS_HI", 0x1002104, [(0x100000, 16), (0x100, 4), (0x8, 32)], [⟨0, 32, .SEQ_REGS_W, 32⟩]⟩,
  ⟨"MATCH_STAT", 0x1003000, [(0x100000, 16), (0x20, 32)], [⟨0, 1, .MATCH_STAT_ARMED, 0⟩, ⟨1, 1, .MATCH_STAT_OVF, 0⟩, ⟨2, 1, .MATCH_STAT_ACTSKIP, 0⟩, ⟨3, 5, .MATCH_STAT_LASTPATH, 0⟩]⟩,
  ⟨"MATCH_CNT", 0x1003004, [(0x100000, 16), (0x20, 32)], [⟨0, 32, .MATCH_CNT_COUNT, 0⟩]⟩,
  ⟨"MATCH_LPOS_LO", 0x1003008, [(0x100000, 16), (0x20, 32)], [⟨0, 32, .MATCH_LPOS_POS, 0⟩]⟩,
  ⟨"MATCH_LPOS_HI", 0x100300C, [(0x100000, 16), (0x20, 32)], [⟨0, 16, .MATCH_LPOS_POS, 32⟩]⟩,
  ⟨"MATCH_LEP_LO", 0x1003010, [(0x100000, 16), (0x20, 32)], [⟨0, 32, .MATCH_LEP_EPOCH, 0⟩]⟩,
  ⟨"MATCH_LEP_HI", 0x1003014, [(0x100000, 16), (0x20, 32)], [⟨0, 32, .MATCH_LEP_EPOCH, 32⟩]⟩,
  ⟨"MATCH_CMD", 0x1003400, [(0x100000, 16)], [⟨24, 8, .MATCH_CMD_RESULT, 0⟩]⟩,
  ⟨"FLT_CFG", 0x1003500, [(0x100000, 16), (0x10, 16)], [⟨0, 8, .FLT_CFG_CLASS, 0⟩, ⟨8, 1, .FLT_CFG_MINV, 0⟩, ⟨9, 1, .FLT_CFG_TRUNC, 0⟩, ⟨10, 8, .FLT_CFG_KEEP, 0⟩]⟩,
  ⟨"FLT_MMASK", 0x1003504, [(0x100000, 16), (0x10, 16)], [⟨0, 32, .FLT_MMASK_MMASK, 0⟩]⟩,
  ⟨"FLT_CNT", 0x1003508, [(0x100000, 16), (0x10, 16)], [⟨0, 32, .FLT_CNT_COUNT, 0⟩]⟩,
  ⟨"PATH_FILT", 0x1003600, [(0x100000, 16), (0x4, 32)], [⟨0, 4, .PATH_FILT_FILT, 0⟩, ⟨4, 1, .PATH_FILT_NONE, 0⟩]⟩]

/-- Rows of the register index, part 9. -/
def regRows9 : List RegRow := [
  ⟨"INJ_STAT", 0x1003700, [(0x100000, 16)], [⟨0, 7, .INJ_STAT_FREE, 0⟩, ⟨8, 6, .INJ_STAT_WIDX, 0⟩, ⟨16, 16, .INJ_STAT_LOST, 0⟩]⟩,
  ⟨"INJ_CMD", 0x1003704, [(0x100000, 16)], []⟩,
  ⟨"INJ_LOG_LO", 0x1003800, [(0x100000, 16), (0x10, 64)], [⟨0, 32, .INJ_LOG_POS, 0⟩]⟩,
  ⟨"INJ_LOG_HI", 0x1003804, [(0x100000, 16), (0x10, 64)], [⟨0, 16, .INJ_LOG_POS, 32⟩, ⟨16, 5, .INJ_LOG_PATH, 0⟩, ⟨21, 3, .INJ_LOG_OUTCOME, 0⟩, ⟨24, 7, .INJ_LOG_ENTRY, 0⟩]⟩,
  ⟨"INJ_LOG_SRC", 0x1003808, [(0x100000, 16), (0x10, 64)], [⟨0, 6, .INJ_LOG_SRC_SOURCE, 0⟩]⟩,
  ⟨"INJ_ENT_LO", 0x1003C00, [(0x100000, 16), (0x10, 64)], [⟨0, 32, .INJ_ENT_MOMENT, 0⟩]⟩,
  ⟨"INJ_ENT_HI", 0x1003C04, [(0x100000, 16), (0x10, 64)], [⟨0, 32, .INJ_ENT_MOMENT, 32⟩]⟩,
  ⟨"INJ_ENT_INFO", 0x1003C08, [(0x100000, 16), (0x10, 64)], [⟨0, 5, .INJ_ENT_INFO_PATH, 0⟩, ⟨5, 4, .INJ_ENT_INFO_ACT, 0⟩, ⟨9, 1, .INJ_ENT_INFO_FIX, 0⟩, ⟨10, 1, .INJ_ENT_INFO_T, 0⟩, ⟨11, 2, .INJ_ENT_INFO_STATE, 0⟩]⟩,
  ⟨"XCVR_CTL", 0x1010000, [(0x100000, 16), (0x40, 32)], [⟨0, 1, .XCVR_CTL_RXINV, 0⟩, ⟨1, 1, .XCVR_CTL_TXINV, 0⟩, ⟨2, 1, .XCVR_CTL_FREEZE, 0⟩]⟩,
  ⟨"XCVR_STAT", 0x1010004, [(0x100000, 16), (0x40, 32)], [⟨0, 1, .XCVR_STAT_SIGDET, 0⟩, ⟨1, 1, .XCVR_STAT_LOCK, 0⟩, ⟨2, 1, .XCVR_STAT_ADAPTED, 0⟩, ⟨3, 1, .XCVR_STAT_LOL, 0⟩, ⟨4, 1, .XCVR_STAT_TXIDLE, 0⟩, ⟨5, 1, .XCVR_STAT_RXTERM, 0⟩, ⟨6, 2, .XCVR_STAT_RXDET, 0⟩, ⟨8, 3, .XCVR_STAT_TXCLK, 0⟩, ⟨11, 1, .XCVR_STAT_SSCACT, 0⟩, ⟨12, 1, .XCVR_STAT_TXERR, 0⟩, ⟨16, 5, .XCVR_STAT_CTLE, 0⟩, ⟨21, 7, .XCVR_STAT_DFE, 0⟩]⟩,
  ⟨"TX_FIR", 0x1010008, [(0x100000, 16), (0x40, 32)], [⟨0, 4, .TX_FIR_CM2, 0⟩, ⟨4, 5, .TX_FIR_CM1, 0⟩, ⟨9, 6, .TX_FIR_C0, 0⟩, ⟨15, 5, .TX_FIR_C1, 0⟩, ⟨20, 5, .TX_FIR_C2, 0⟩, ⟨25, 5, .TX_FIR_C3, 0⟩]⟩,
  ⟨"TX_FIRACT", 0x101000C, [(0x100000, 16), (0x40, 32)], [⟨0, 30, .TX_FIRACT_ACT, 0⟩]⟩,
  ⟨"TX_LVL", 0x1010010, [(0x100000, 16), (0x40, 32)], [⟨0, 7, .TX_LVL_SWING, 0⟩, ⟨7, 5, .TX_LVL_LVLTRIM, 0⟩]⟩,
  ⟨"TX_CLK", 0x1010014, [(0x100000, 16), (0x40, 32)], [⟨0, 13, .TX_CLK_SSCDEPTH, 0⟩, ⟨13, 12, .TX_CLK_SSCFREQ, 0⟩]⟩,
  ⟨"TX_PPM", 0x1010018, [(0x100000, 16), (0x40, 32)], [⟨0, 10, .TX_PPM_PPM, 0⟩]⟩,
  ⟨"QUAL_CTL", 0x101001C, [(0x100000, 16), (0x40, 32)], [⟨0, 3, .QUAL_CTL_QWIN, 0⟩, ⟨3, 1, .QUAL_CTL_AUTO, 0⟩, ⟨24, 8, .QUAL_CTL_SEQ, 0⟩]⟩,
  ⟨"QUAL_EYE", 0x1010020, [(0x100000, 16), (0x40, 32)], [⟨0, 8, .QUAL_EYE_EW, 0⟩, ⟨8, 8, .QUAL_EYE_EHLO, 0⟩, ⟨16, 8, .QUAL_EYE_EHMID, 0⟩, ⟨24, 8, .QUAL_EYE_EHUP, 0⟩]⟩,
  ⟨"QUAL_BER", 0x1010024, [(0x100000, 16), (0x40, 32)], [⟨0, 16, .QUAL_BER_BER, 0⟩, ⟨16, 1, .QUAL_BER_BOUND, 0⟩, ⟨17, 1, .QUAL_BER_STALE, 0⟩, ⟨18, 3, .QUAL_BER_OFSIDX, 0⟩, ⟨24, 8, .QUAL_BER_OFS, 0⟩]⟩,
  ⟨"TWR_CTL", 0x2000000, [(0x10000, 2)], [⟨0, 1, .TWR_CTL_PRESERVE, 0⟩]⟩,
  ⟨"TWR_STAT", 0x2000004, [(0x10000, 2)], [⟨0, 2, .TWR_STAT_STATE, 0⟩, ⟨2, 1, .TWR_STAT_REF2X, 0⟩, ⟨4, 4, .TWR_STAT_HOTDIE, 0⟩, ⟨8, 8, .TWR_STAT_TMAX, 0⟩, ⟨16, 1, .TWR_STAT_SENSERR, 0⟩, ⟨17, 1, .TWR_STAT_CFGERR, 0⟩]⟩]

/-- Rows of the register index, part 10. -/
def regRows10 : List RegRow := [
  ⟨"TWR_CLR", 0x2000008, [(0x10000, 2)], []⟩,
  ⟨"TWR_CLRSTAT", 0x200000C, [(0x10000, 2)], [⟨0, 1, .TWR_CLRSTAT_BUSY, 0⟩, ⟨8, 8, .TWR_CLRSTAT_RESULT, 0⟩, ⟨16, 12, .TWR_CLRSTAT_DONE, 0⟩]⟩,
  ⟨"TWR_RFM", 0x2000010, [(0x10000, 2)], [⟨0, 9, .TWR_RFM_THRESH, 0⟩]⟩,
  ⟨"TWR_RFMCNT", 0x2000014, [(0x10000, 2)], [⟨0, 32, .TWR_RFMCNT_COUNT, 0⟩]⟩,
  ⟨"CH_STAT", 0x2001000, [(0x10000, 2), (0x100, 16)], [⟨0, 2, .CH_STAT_STATE, 0⟩, ⟨2, 8, .CH_STAT_TEMP, 0⟩, ⟨10, 1, .CH_STAT_REF2X, 0⟩, ⟨11, 1, .CH_STAT_SENSERR, 0⟩]⟩,
  ⟨"CH_CMD", 0x2001004, [(0x10000, 2), (0x100, 16)], [⟨8, 8, .CH_CMD_RESULT, 0⟩]⟩,
  ⟨"CH_REFCNT", 0x2001008, [(0x10000, 2), (0x100, 16)], [⟨0, 32, .CH_REFCNT_COUNT, 0⟩]⟩,
  ⟨"DLR_CFG", 0x2040000, [(0x4, 512)], [⟨0, 12, .DLR_CFG_FIRST, 0⟩, ⟨12, 12, .DLR_CFG_COUNT, 0⟩, ⟨24, 1, .DLR_CFG_EN, 0⟩, ⟨25, 1, .DLR_CFG_CFGERR, 0⟩]⟩,
  ⟨"ECC_CFG", 0x2100000, [(0x10000, 2)], [⟨0, 16, .ECC_CFG_CETHR, 0⟩, ⟨16, 1, .ECC_CFG_LOGCE, 0⟩, ⟨17, 1, .ECC_CFG_AUTOSOFT, 0⟩, ⟨18, 1, .ECC_CFG_AUTORETIRE, 0⟩, ⟨19, 5, .ECC_CFG_ROWCE, 0⟩, ⟨24, 8, .ECC_CFG_TSVTHR, 0⟩]⟩,
  ⟨"ECC_UECNT", 0x2100080, [(0x10000, 2)], [⟨0, 16, .ECC_UECNT_COUNT, 0⟩]⟩,
  ⟨"ECC_CECNT", 0x2100100, [(0x10000, 2), (0x8, 16), (0x4, 2)], [⟨0, 16, .ECC_CECNT_COUNT, 0⟩]⟩,
  ⟨"SCR_CFG", 0x2100200, [(0x10000, 2), (0x8, 16)], [⟨0, 8, .SCR_CFG_PERIOD, 0⟩]⟩,
  ⟨"SCR_STAT", 0x2100204, [(0x10000, 2), (0x8, 16)], [⟨0, 7, .SCR_STAT_PROG, 0⟩, ⟨8, 16, .SCR_STAT_PASSES, 0⟩]⟩,
  ⟨"ECC_LOGSTAT", 0x2100300, [(0x10000, 2)], [⟨0, 7, .ECC_LOGSTAT_COUNT, 0⟩, ⟨7, 1, .ECC_LOGSTAT_OVF, 0⟩, ⟨8, 1, .ECC_LOGSTAT_CFGERR, 0⟩, ⟨16, 16, .ECC_LOGSTAT_LOST, 0⟩]⟩,
  ⟨"ERR_LOGACK", 0x2100304, [(0x10000, 2)], []⟩,
  ⟨"ERR_LOG_LO", 0x2100400, [(0x10000, 2), (0x10, 64)], [⟨0, 32, .ERR_LOG_ADDR, 0⟩]⟩,
  ⟨"ERR_LOG_HI", 0x2100404, [(0x10000, 2), (0x10, 64)], [⟨0, 8, .ERR_LOG_ADDR, 32⟩, ⟨8, 2, .ERR_LOG_KIND, 0⟩, ⟨10, 3, .ERR_LOG_SRC, 0⟩, ⟨13, 1, .ERR_LOG_PUN, 0⟩, ⟨14, 1, .ERR_LOG_DLY, 0⟩, ⟨15, 1, .ERR_LOG_VALID, 0⟩, ⟨16, 14, .ERR_LOG_SYN, 0⟩]⟩,
  ⟨"ERR_LOG_EPLO", 0x2100408, [(0x10000, 2), (0x10, 64)], [⟨0, 32, .ERR_LOG_EPOCH, 0⟩]⟩,
  ⟨"ERR_LOG_EPHI", 0x210040C, [(0x10000, 2), (0x10, 64)], [⟨0, 32, .ERR_LOG_EPOCH, 32⟩]⟩,
  ⟨"REP_CMD", 0x2100800, [(0x10000, 2)], [⟨16, 8, .REP_CMD_RESULT, 0⟩]⟩]

/-- Rows of the register index, part 11. -/
def regRows11 : List RegRow := [
  ⟨"REP_ADDR_LO", 0x2100804, [(0x10000, 2)], [⟨0, 32, .REP_ADDR_ADDR, 0⟩]⟩,
  ⟨"REP_ADDR_HI", 0x2100808, [(0x10000, 2)], [⟨0, 8, .REP_ADDR_ADDR, 32⟩]⟩,
  ⟨"REP_STAT", 0x210080C, [(0x10000, 2)], [⟨0, 5, .REP_STAT_NVMPEND, 0⟩, ⟨5, 1, .REP_STAT_RETIRED, 0⟩, ⟨6, 4, .REP_STAT_RCH, 0⟩]⟩,
  ⟨"REP_SPARE", 0x2100900, [(0x10000, 2), (0x4, 16)], [⟨0, 8, .REP_SPARE_ROWS, 0⟩, ⟨8, 5, .REP_SPARE_HARD, 0⟩, ⟨13, 3, .REP_SPARE_TSV, 0⟩]⟩,
  ⟨"TST_ADDR_LO", 0x2100A00, [(0x10000, 2)], [⟨0, 32, .TST_ADDR_ADDR, 0⟩]⟩,
  ⟨"TST_ADDR_HI", 0x2100A04, [(0x10000, 2)], [⟨0, 8, .TST_ADDR_ADDR, 32⟩]⟩,
  ⟨"TST_DATA_LO", 0x2100A08, [(0x10000, 2)], [⟨0, 32, .TST_DATA_DATA, 0⟩]⟩,
  ⟨"TST_DATA_HI", 0x2100A0C, [(0x10000, 2)], [⟨0, 32, .TST_DATA_DATA, 32⟩]⟩,
  ⟨"TST_TAG", 0x2100A10, [(0x10000, 2)], [⟨0, 14, .TST_TAG_CHK, 0⟩, ⟨14, 1, .TST_TAG_U, 0⟩, ⟨15, 1, .TST_TAG_P, 0⟩]⟩,
  ⟨"TST_CMD", 0x2100A14, [(0x10000, 2)], [⟨3, 1, .TST_CMD_BUSY, 0⟩, ⟨8, 8, .TST_CMD_RESULT, 0⟩, ⟨16, 2, .TST_CMD_OUTCOME, 0⟩]⟩,
  ⟨"PRS_CEIL", 0x3000010, [(0x4, 2)], [⟨0, 16, .PRS_CEIL_CEIL, 0⟩]⟩,
  ⟨"PRS_DROPT", 0x3000020, [(0x4, 2)], [⟨0, 32, .PRS_DROPT_COUNT, 0⟩]⟩,
  ⟨"STRM_CFG", 0x3010000, [(0x10, 512)], [⟨0, 8, .STRM_CFG_PUN, 0⟩, ⟨8, 2, .STRM_CFG_CLASS, 0⟩, ⟨10, 1, .STRM_CFG_ELIDE, 0⟩, ⟨11, 1, .STRM_CFG_RAW, 0⟩, ⟨12, 1, .STRM_CFG_ETHUNIT, 0⟩, ⟨13, 1, .STRM_CFG_IDE, 0⟩, ⟨16, 1, .STRM_CFG_ON, 0⟩, ⟨17, 3, .STRM_CFG_PEND, 0⟩, ⟨20, 1, .STRM_CFG_CFGERR, 0⟩]⟩,
  ⟨"STRM_SEQ", 0x3010004, [(0x10, 512)], [⟨0, 32, .STRM_SEQ_SEQ, 0⟩]⟩,
  ⟨"STRM_LOSTR", 0x3010008, [(0x10, 512)], [⟨0, 32, .STRM_LOSTR_COUNT, 0⟩]⟩,
  ⟨"STRM_LOSTB", 0x301000C, [(0x10, 512)], [⟨0, 32, .STRM_LOSTB_COUNT, 0⟩]⟩,
  ⟨"PUN_CFG", 0x3020000, [(0x40, 256)], [⟨0, 1, .PUN_CFG_EN, 0⟩, ⟨1, 1, .PUN_CFG_MODE, 0⟩, ⟨2, 1, .PUN_CFG_ENC, 0⟩, ⟨3, 1, .PUN_CFG_RDDEC, 0⟩, ⟨4, 5, .PUN_CFG_IDXK, 0⟩, ⟨9, 6, .PUN_CFG_TL, 0⟩, ⟨15, 1, .PUN_CFG_TLEN, 0⟩]⟩,
  ⟨"PUN_SLAB", 0x3020004, [(0x40, 256)], [⟨0, 12, .PUN_SLAB_FIRST, 0⟩, ⟨12, 12, .PUN_SLAB_COUNT, 0⟩]⟩,
  ⟨"PUN_PRE", 0x3020008, [(0x40, 256)], [⟨0, 27, .PUN_PRE_KIB, 0⟩]⟩,
  ⟨"PUN_POST", 0x302000C, [(0x40, 256)], [⟨0, 27, .PUN_POST_KIB, 0⟩]⟩]

/-- Rows of the register index, part 12. -/
def regRows12 : List RegRow := [
  ⟨"PUN_STAT", 0x3020010, [(0x40, 256)], [⟨0, 3, .PUN_STAT_STATE, 0⟩, ⟨3, 1, .PUN_STAT_WRAP, 0⟩, ⟨4, 1, .PUN_STAT_TRIGIGN, 0⟩, ⟨5, 1, .PUN_STAT_CFGERR, 0⟩, ⟨16, 16, .PUN_STAT_DAMAGE, 0⟩]⟩,
  ⟨"PUN_HEAD_LO", 0x3020014, [(0x40, 256)], [⟨0, 32, .PUN_HEAD_OFS, 0⟩]⟩,
  ⟨"PUN_HEAD_HI", 0x3020018, [(0x40, 256)], [⟨0, 5, .PUN_HEAD_OFS, 32⟩]⟩,
  ⟨"PUN_TAIL_LO", 0x302001C, [(0x40, 256)], [⟨0, 32, .PUN_TAIL_OFS, 0⟩]⟩,
  ⟨"PUN_TAIL_HI", 0x3020020, [(0x40, 256)], [⟨0, 5, .PUN_TAIL_OFS, 32⟩]⟩,
  ⟨"PUN_TRIG_LO", 0x3020024, [(0x40, 256)], [⟨0, 32, .PUN_TRIG_EPOCH, 0⟩]⟩,
  ⟨"PUN_TRIG_HI", 0x3020028, [(0x40, 256)], [⟨0, 32, .PUN_TRIG_EPOCH, 32⟩]⟩,
  ⟨"PUN_TRIGOFS_LO", 0x302002C, [(0x40, 256)], [⟨0, 32, .PUN_TRIGOFS_OFS, 0⟩]⟩,
  ⟨"PUN_TRIGOFS_HI", 0x3020030, [(0x40, 256)], [⟨0, 5, .PUN_TRIGOFS_OFS, 32⟩]⟩,
  ⟨"PUN_RECS_LO", 0x3020034, [(0x40, 256)], [⟨0, 32, .PUN_RECS_COUNT, 0⟩]⟩,
  ⟨"PUN_RECS_HI", 0x3020038, [(0x40, 256)], [⟨0, 16, .PUN_RECS_COUNT, 32⟩]⟩,
  ⟨"PUN_DISC", 0x302003C, [(0x40, 256)], [⟨0, 32, .PUN_DISC_COUNT, 0⟩]⟩,
  ⟨"IDE_BIND", 0x3030000, [(0x4, 128)], [⟨0, 1, .IDE_BIND_EN, 0⟩, ⟨1, 4, .IDE_BIND_GROVE, 0⟩, ⟨5, 4, .IDE_BIND_LINK, 0⟩, ⟨9, 1, .IDE_BIND_DIR, 0⟩, ⟨10, 8, .IDE_BIND_SID, 0⟩]⟩,
  ⟨"IDE_STAT", 0x3030200, [(0x4, 128)], [⟨0, 1, .IDE_STAT_SYNC, 0⟩, ⟨1, 1, .IDE_STAT_KEY, 0⟩, ⟨16, 16, .IDE_STAT_MACFAIL, 0⟩]⟩,
  ⟨"RPL_CFG", 0x3040000, [(0x10, 512)], [⟨0, 8, .RPL_CFG_PUN, 0⟩, ⟨8, 9, .RPL_CFG_STREAM, 0⟩, ⟨17, 1, .RPL_CFG_LOOP, 0⟩, ⟨18, 1, .RPL_CFG_FROMTRIG, 0⟩]⟩,
  ⟨"RPL_STAT", 0x3040004, [(0x10, 512)], [⟨0, 1, .RPL_STAT_DONE, 0⟩, ⟨1, 1, .RPL_STAT_TRUNCSTOP, 0⟩]⟩,
  ⟨"RPL_NEXT", 0x3040008, [(0x10, 512)], [⟨0, 32, .RPL_NEXT_SEQ, 0⟩]⟩,
  ⟨"TL_CFG", 0x3800000, [(0x4, 64)], [⟨0, 1, .TL_CFG_PULSE, 0⟩]⟩,
  ⟨"TL_LAST_LO", 0x3800200, [(0x8, 64)], [⟨0, 32, .TL_LAST_EPOCH, 0⟩]⟩,
  ⟨"TL_LAST_HI", 0x3800204, [(0x8, 64)], [⟨0, 32, .TL_LAST_EPOCH, 32⟩]⟩]

/-- Rows of the register index, part 13. -/
def regRows13 : List RegRow := [
  ⟨"HV_CTL", 0x3900000, [(0x40, 8)], [⟨0, 1, .HV_CTL_EN, 0⟩]⟩,
  ⟨"HV_RBASE_LO", 0x3900004, [(0x40, 8)], [⟨0, 32, .HV_RBASE_ADDR, 0⟩]⟩,
  ⟨"HV_RBASE_HI", 0x3900008, [(0x40, 8)], [⟨0, 32, .HV_RBASE_ADDR, 32⟩]⟩,
  ⟨"HV_RSIZE", 0x390000C, [(0x40, 8)], [⟨0, 16, .HV_RSIZE_SIZE, 0⟩]⟩,
  ⟨"HV_PROD", 0x3900010, [(0x40, 8)], [⟨0, 16, .HV_PROD_IDX, 0⟩]⟩,
  ⟨"HV_CONS", 0x3900014, [(0x40, 8)], [⟨0, 16, .HV_CONS_IDX, 0⟩]⟩,
  ⟨"HV_STAT", 0x3900018, [(0x40, 8)], [⟨0, 1, .HV_STAT_BUSY, 0⟩, ⟨1, 1, .HV_STAT_CFGERR, 0⟩, ⟨2, 1, .HV_STAT_FETCHERR, 0⟩]⟩,
  ⟨"HV_BYTES", 0x390001C, [(0x40, 8)], [⟨0, 32, .HV_BYTES_COUNT, 0⟩]⟩]

/-- The register index (spec/23): every 32-bit register of BAR0. The memory words and the byte windows stand beside it. -/
def regRows : List RegRow :=
  regRows0 ++ regRows1 ++ regRows2 ++ regRows3 ++ regRows4 ++ regRows5 ++ regRows6 ++ regRows7 ++ regRows8 ++ regRows9 ++ regRows10 ++ regRows11 ++ regRows12 ++ regRows13

end Sys2Proof.Machine
end

