-- ==== Sys2Proof/Machine/State.lean ====
section
/-! DEFINITION. The state of the device: every register field and implied scalar in one canonical store, and the structures that
are no scalars (memories, queues, pending actions, sessions). -/
namespace Sys2Proof.Machine

/-- Why the device stops with a fault. Nobody raises one: every command the spec describes has an effect, and a read outside the
map reads zero (R613). Safe. -/
inductive Fault where
  /-- Raised by nobody; the type must have a value. Safe. -/
  | none
  deriving DecidableEq, Repr

/-- Why a command has no meaning. -/
inductive Refusal where
  /-- Raised by exec for a command not modelled yet, by name. Safe. -/
  | notModelled (mnemonic : String)
  deriving DecidableEq, Repr

/-- The moment an armed action names (R262, R279). -/
inductive Moment where
  | pos (p : Nat)
  | epoch (e : Nat)
  deriving DecidableEq, Repr

/-- When a pending mode change takes effect: at its moment (R77), at the first unit 64 on or 1 µs after a host write (R78), or
out of DARK (R79), asked for by a program, with the moment that it named, or by the host. -/
inductive ChgWhen where
  | named (m : Moment)
  | host (pos : Nat)
  | fromDark (prog : Option Moment)
  deriving DecidableEq, Repr

/-- A pending mode change of a path (R76). -/
structure ModeChg where
  target : Nat
  at_ : ChgWhen
  deriving DecidableEq, Repr

/-- A pending capture action (R305, R332, R355): cause 0 instruction, 1 matcher, 2 host; src is the MARK source byte, or the matcher. -/
inductive CapKind where
  | on | off | mark (value : Nat)
  deriving DecidableEq, Repr

structure CapAct where
  kind : CapKind
  at_ : Moment
  cause : Nat
  src : Nat
  deriving DecidableEq, Repr

/-- A record before its sequence number is given (R365): TYPE and the flags TRUNC, RAW, MORE and DEC of TF, stamp, EPV, position, payload;
tdef names the template that the record holds, tref the template that an ELIDE record names (R377). -/
structure Rec where
  typ : Nat
  trunc : Bool
  raw : Bool
  more : Bool
  dec : Bool
  epv : Bool
  epoch : Nat
  pos : Nat
  payload : List Byte
  tdef : Option Nat
  tref : Option Nat
  deriving DecidableEq, Repr

/-- One staged unit of a stream: its records stand or fall together (R370, R383). Exempt records are those of R376. -/
structure Staged where
  stream : Nat
  cls : Nat
  pun : Nat
  exempt : Bool
  recs : List Rec
  deriving DecidableEq, Repr

/-- An open run of elided units (R377). -/
structure ElRun where
  count : Nat
  tid : Nat
  pos : Nat
  epoch : Nat
  epv : Bool
  deriving DecidableEq, Repr

/-- What the press holds for one stream beside its registers: pending capture actions (R305), the template and its number, the
open run (R377), the loss since the last GAP (records, bytes, first lost SEQ) and the window of that GAP (R384), the
SEQ given to numbered templates. -/
structure StrmSt where
  pend : List CapAct
  mpend : List CapAct
  tmpl : Option (List Byte × Nat)
  run : Option ElRun
  lostR : Nat
  lostB : Nat
  lostF : Nat
  lastGap : Option Nat
  seqs : List (Nat × Nat)
  nextId : Nat
  deriving DecidableEq, Repr

/-- What a wait awaits (R267, R291). -/
inductive WaitCond where
  | pos (path pos : Nat)
  | epoch (t : Nat)
  | hits (m count : Nat)
  | line (tl : Nat) (lvl : Bool)
  | any (tls : Nat) (ms : List (Nat × Nat)) (gsb : Nat) (pos : Option (Nat × Nat)) (epoch : Option Nat)
  deriving DecidableEq, Repr

/-- A wait in progress: destination, condition, guard path, units left of the limit (none: no limit), GEN of the awaited path at issue,
the condition's number once it has held, and the units that the guard path had decoded by the limit and whose check was still to come: the path, the matcher that agreed, and the
number of the decoded unit or 2^32 + the position of the line unit (R268). -/
structure Wait where
  rd : Nat
  cond : WaitCond
  guard : Nat
  left : Option Nat
  gen : Nat
  hit : Option Nat
  genChanged : Bool
  owed : List (Nat × Nat × Nat)
  deriving DecidableEq, Repr

/-- The line encodings of R321, flits by their layout (R113). -/
inductive Enc where
  | flit256 | flitLo | flit68 | block128 | sym8b10b | block66 | codeword | rawNrz | rawPam4
  deriving DecidableEq, Repr

/-- A decoded unit of PCIe or CXL, or an Ethernet frame. -/
inductive UKind where
  | of (k : ItemKind)
  | frame
  deriving DecidableEq, Repr

/-- What a line unit carries of the decoded unit numbered item on its path: whether the unit's first and last byte lie in it, the window bytes that it adds, one list
for each copy, and where they lie in the line unit; where framing before and after them lies; the bytes that it adds to the record form; the failure of its own check; how many window bytes came before. -/
structure Piece where
  item : Nat
  kind : UKind
  first : Bool
  last : Bool
  copies : List (List Byte)
  places : List (List Nat)
  pre : List Nat
  post : List Nat
  form : List Byte
  err : Option (Nat × Nat × Nat × Nat)
  start : Nat
  ide : Option IdeInfo
  deriving DecidableEq, Repr

/-- Every place of a piece. -/
def Piece.all (pc : Piece) : List Nat := pc.pre ++ pc.places.flatten ++ pc.post

/-- The piece lies in block i of its unit. -/
def Piece.touches (pc : Piece) (i : Nat) : Bool := pc.all.any fun j => j / 9 == i

/-- A decoded unit that line units held by its path carry (R320 to R323): its window bytes and record form so far, the position and stamp of the line unit that
holds its first byte, matchers that agree with its window and await its check (each with the bytes that had passed when it agreed), matchers that hit it, the first failure of its own, whether it still goes on, whether its first byte has come, whether a line unit that holds it fails,
whether a frame is recorded in block form (R371), how many bytes of its form come before its window bytes, and whether the epoch was valid at its
stamp. -/
structure Item where
  id : Nat
  kind : UKind
  wins : List (List Byte)
  form : List Byte
  pos : Nat
  stamp : Nat
  cand : List (Nat × Nat)
  hits : List Nat
  err : Option (Nat × Nat × Nat × Nat)
  going : Bool
  begun : Bool
  bad : Bool
  blocks : Bool
  lead : Nat
  ide : Option IdeInfo
  valid : Bool
  deriving DecidableEq, Repr

/-- The capture filter as it stood when a unit was decoded (R341): none, or CLASS, MINV, TRUNC, KEEP, MMASK and the filter's number. -/
structure FiltSet where
  cls : Nat
  minv : Bool
  trunc : Bool
  keep : Nat
  mmask : Nat
  num : Nat
  deriving DecidableEq, Repr

/-- A line unit that the pipeline holds until every decoded unit that it carries has ended and been compared (R323, R335): its position, stamp with its validity, and encoding, whether it
is not decoded (R115), its bytes as received and after FEC decoding, what it carries, its own failure and matcher hits (each with the block that was hit), the matchers that agree with it and await the check of what it carries (each with its block), its filter, codewords corrected and uncorrectable, the
number of the FEC codeword it belongs to, whether it awaits the injection stage, and whether the press has handled it. -/
structure HeldUnit where
  pos : Nat
  stamp : Nat
  valid : Bool
  enc : Enc
  aside : Bool
  undec : Bool
  line : List Byte
  dec : List Byte
  nop : Bool
  pieces : List Piece
  err : Option (Nat × Nat × Nat × Nat)
  hits : List (Nat × Nat)
  cand : List (Nat × Nat)
  filt : Option FiltSet
  corr : Nat
  unc : Nat
  cw : Nat
  staged : Bool
  pressed : Bool
  deriving DecidableEq, Repr

/-- A coded message (R539). -/
structure Msg where
  src : Nat
  kind : Nat
  addr : Nat
  deriving DecidableEq, Repr

/-- An entry of the hardware event buffer or of the host event queue (R469, R470). -/
structure EvRec where
  msg : Msg
  epoch : Nat
  epv : Bool
  react : Nat
  deriving DecidableEq, Repr

/-- A vine trigger (R237, R243 to R245). -/
structure VTrig where
  origin : Nat
  vl : Nat
  clear : Bool
  t : Nat
  lateO : Bool
  seq : Nat
  deriving DecidableEq, Repr

/-- A firmware image under load (R48, R54). -/
structure FwLoad where
  route : Route
  idle : Bool
  bytes : List Byte
  deriving DecidableEq, Repr

/-- A verified image: what the running firmware keeps of its header. -/
structure FwImage where
  svn : Nat
  fwver : Nat
  eng : Bool
  bytes : List Byte
  deriving DecidableEq, Repr

/-- Where a hot switch stands (R56 to R58). -/
inductive HotPhase where
  | none | draining | switched
  deriving DecidableEq, Repr

/-- How the SPDM responder answers (R481, R482): with its response, or with an ERROR. -/
inductive SpdmAns where
  | ok | invalidRequest | sessionLimitExceeded | invalidSession | unexpectedRequest | busy | unspecified
  deriving DecidableEq, Repr

/-- Where a two-wire transaction is answered NAK (R492). -/
inductive TwPos where
  | address | command | count | data | pec
  deriving DecidableEq, Repr

/-- What leaves the device while one command is carried out. tx: what a transmitter sends of one line unit, in the layout of R321: its content, whether its FEC
parity is formed anew, and the lanes whose polarity TXINV inverts. clean: codewords sent corrected. strike: line bits inverted at the serialiser. inverted: what transmitters send of which some lanes, a bit each, are inverted by TXINV (R164). mctp: the packets
of a message of the PCI Express binding, and the requester to whom they are routed by ID, or the root complex. ts and tsOwn: a training set, with the equalization fields of each lane. rowRefresh: rows of a
bank that are refreshed (R400). -/
inductive Out where
  | msix (vector : Nat)
  | tx (path : Nat) (bytes : List Byte) (reenc : Bool) (inv : Nat)
  | txIdle (path : Nat)
  | txFiller (path : Nat) (bytes : List Byte) (am : Bool)
  | txTrain (path : Nat)
  | anPage (link side lrate width fec pause : Nat)
  | clean (path pos count : Nat)
  | strike (path pos first count : Nat)
  | vine (port : Nat) (kind : Nat) (words : List Nat)
  | readData (route : Route) (addr : Nat) (value : Nat)
  | completerAbort (addr : Nat)
  | bar2Data (addr : Nat) (bytes : List Byte) (ep : Bool)
  | bar2Abort (addr : Nat)
  | spdm (binding : Nat) (answer : SpdmAns) (bytes : List Byte)
  | tdo (bits : Nat)
  | busError (addr : Nat)
  | hostWrite (addr : Nat) (bytes : List Byte)
  | twoWire (bytes : List Byte)
  | twNak (pos : TwPos)
  | reply (status : Nat) (bytes : List Byte)
  | mctp (byId : Option Nat) (packets : List (List Byte))
  | osTx (path : Nat) (symbols : List Byte)
  | txFault (path : Nat)
  | ts (link side : Nat) (info : TsInfo) (lanes : List EqInfo)
  | tsOwn (link side : Nat) (info : TsInfo) (lanes : List EqInfo) (skpInterval : Nat)
  | eqAnswer (port coefficients : Nat) (rejected : Bool)
  | idleSet (path : Nat) (entry : Bool) (skpInterval : Nat)
  | skp (path : Nat) (granules : Int) (symbols : Nat)
  | ebUnits (path : Nat) (discard : Bool) (units : Nat)
  | gsbLow (pin : Nat)
  | margin (port : Nat) (bytes : List Byte)
  | ltTx (lt typ seq : Nat) (bytes check : List Byte)
  | ltGap (lt bytes : Nat)
  | ltAck (lt : Nat) (good : Bool) (seq : Nat)
  | ltFeatures (lt : Nat)
  | ltPmNak (lt : Nat)
  | ltCredit (lt fc header data : Nat)
  | trap
  | rowRefresh (tower channel pseudo bank : Nat) (rows : List Nat)
  | inverted (lanes : Nat) (o : Out)
  deriving DecidableEq, Repr


/-- One row of a bank (R396): tower, channel, pseudo-channel, bank 4 * group + bank, row. -/
structure RowKey where
  t : Nat
  c : Nat
  pc : Nat
  bank : Nat
  row : Nat
  deriving DecidableEq, Repr

/-- An entry of the soft repair list (R437): a soft row repair, a TSV swap or a retirement. -/
inductive RepEnt where
  | soft (k : RowKey) (spare : Nat)
  | tsv (t c lane spare : Nat)
  | retire (t c : Nat)
  deriving DecidableEq, Repr

/-- Activations of a bank (R400): the last access (row, is a write), the rolling count, the rows activated since its last refresh
management. -/
structure BankAct where
  last : Option (Nat × Bool)
  count : Nat
  rows : List (Nat × Nat)
  deriving DecidableEq, Repr

/-- A data unit of an encrypted punnet that is being filled (R388): its number in the punnet and its bytes so far, in plaintext. -/
structure EncUnit where
  unit : Nat
  bytes : List Byte
  deriving DecidableEq, Repr

/-- Where a replay stands (R391): data-area offset of the next record, filler units still to send, the elided units still to send with
their template, the last DATA unit of each SEQ that may be a template, the last record's SEQ and POS, parts joined so far, and bytes 4 to 10 of the stream's last CAPON or LINK record. -/
structure RplSt where
  ofs : Nat
  fill : Nat
  elide : Nat
  elUnit : List Byte
  tmpls : List (Nat × List Byte)
  last : Option (Nat × Nat)
  parts : List Byte
  form : List Byte
  deriving DecidableEq, Repr

/-- A packet of a grove's packet buffer (R119, R123): its cells from the handle on, its bytes, its terminator, its credit type and data credits,
and whether a transmit descriptor has named it. -/
structure Pkt where
  cells : List Nat
  bytes : List Byte
  lt : Nat
  fc : Nat
  credits : Nat
  named : Bool
  deriving DecidableEq, Repr

/-- What was sent under a sequence number and is not yet acknowledged (R117, R123): TYPE (1 a TLP, 2 a slot), sequence number, handle, bytes, check. -/
structure LtTx where
  typ : Nat
  seq : Nat
  handle : Option Nat
  bytes : List Byte
  check : List Byte
  deriving DecidableEq, Repr

/-- A Rind command in progress (R537): its bytes, the input it was given, and what the Rind's cryptography finds for it: whether a signature, a
token or an unwrap checks, the plaintext it yields, the output it prepares. -/
structure RindJob where
  cmd : Nat
  arg0 : Nat
  arg1 : Nat
  input : List Byte
  ok : Bool
  plain : List Byte
  output : List Byte
  deriving DecidableEq, Repr

/-- A harvest descriptor in progress (R455 to R459): its fields, how far the copy has come, the head snapshot, and whether its punnet was disabled or
restarted meanwhile; held are markers that wait for their record, from walk offset heldOff on; skip is how
much of a RESYNC's bytes has been read. -/
structure HvJob where
  records : Bool
  irq : Bool
  pun : Nat
  len : Nat
  src : Nat
  dst : Nat
  off : Nat
  bytes : Nat
  marks : Nat
  recs : Nat
  paddr : Option Nat
  stop : Nat
  cut : Bool
  abort : Bool
  held : List Byte
  heldOff : Nat
  skip : Nat := 0
  deriving DecidableEq, Repr

/-- A BAR2 access that waits (R449, R450): tower byte address, length, and for a write its data and byte enables. -/
structure B2Acc where
  addr : Nat
  len : Nat
  data : Option (List Byte × List Bool)
  deriving DecidableEq, Repr

/-- An SPDM session (R481): its identifier, its binding, and whether FINISH has completed it. -/
structure SpdmSess where
  id : Nat
  binding : Nat
  established : Bool
  deriving DecidableEq, Repr
/-- The state. -/
structure State where
  /-- Commands waiting, first in first out (the model's queue). -/
  pending : List Instr
  /-- Every register field and implied scalar, by name and instance; unlisted reads as its reset value. -/
  regs : List ((Fld × Nat) × Nat)
  /-- High halves latched by a read of their low half, by offset (R616). -/
  hiLatch : List (Nat × Option Nat)
  /-- Byte windows of BAR0 by offset (mailboxes, Rind windows, MSI-X table); unlisted reads zero. -/
  win : List (Nat × Byte)
  /-- Instruction memories: grove * 16384 + word (R252). -/
  imem : List (Nat × Word)
  /-- Data memories: grove * 4096 + word. -/
  dmem : List (Nat × Word)
  /-- Staging registers: (grove * 3 + route), holding word number (instruction words, then 16384 + data words, then
  32768 + thread register) and low half (R252, R275). -/
  halfStage : List (Nat × Option (Nat × Nat))
  /-- Pending mode change of each path (R76). -/
  chg : List (Nat × Option ModeChg)
  /-- Waits in progress, by thread (R267). -/
  waits : List (Nat × Option Wait)
  /-- ARM blocks of the matchers (R324). -/
  mblk : List (Nat × List Word)
  /-- Line units that the pipeline of a path holds, oldest first (R323). -/
  held : List (Nat × List HeldUnit)
  /-- Decoded units that they carry, by path, oldest first. -/
  items : List (Nat × List Item)
  /-- Bursts that run on a lane path (R310): bits still to pass, bits still to strike. -/
  strikes : List (Nat × List (Nat × Nat))
  /-- Capture streams, by path. -/
  strm : List (Nat × StrmSt)
  /-- Press staging, by tower, oldest first (R383). -/
  staged : List (Nat × List Staged)
  /-- Carry of the admission budget, by tower (R383). -/
  carry : List (Nat × Int)
  /-- Tower words: byte address / 8 (R396). -/
  tower : List (Nat × Code)
  /-- NVM bytes (R208). -/
  nvm : List (Nat × Byte)
  /-- Input queue of the fault collector (R557). -/
  fq : List Msg
  /-- Messages past a full queue whose configured reaction is still to be applied (R557). -/
  fqOver : List Msg
  /-- Causes that persist (R543, R556), by source. -/
  causes : List (Nat × Option Msg)
  /-- Hardware event buffer, oldest first (R469, R555). -/
  evbuf : List EvRec
  /-- Host event queue, oldest first (R470). -/
  hostq : List EvRec
  /-- Image under load. -/
  fwLoad : Option FwLoad
  /-- Banks A and B of management SRAM. -/
  bankA : Option FwImage
  bankB : Option FwImage
  hot : HotPhase
  /-- Vine requests held while VP0 is down (R243), waiting at the root (R244), and triggers held (R245). -/
  vreq : List VTrig
  vwait : List VTrig
  vheld : List VTrig
  /-- Bursts that wait for their corrected rewrite (R420), by tower byte address, oldest first. -/
  bursts : List Nat
  /-- Bank activations (R400): ((16 t + c) * 2 + pc) * 16 + bank. -/
  banks : List (Nat × BankAct)
  /-- Correctable outcomes by row in the current scrub pass (R427). -/
  scrRows : List (RowKey × Nat)
  /-- Corrected bits by TSV in the current scrub pass (R439): (16 t + c) * 160 + lane. -/
  scrTsv : List (Nat × Nat)
  /-- Queued soft repairs, oldest first (R427, R436), and whether REP_CMD asked for each. -/
  softq : List (RowKey × Bool)
  /-- Soft repairs and TSV swaps in effect (R436, R440). -/
  reps : List RepEnt
  /-- Hard repairs fused for the life of the device. -/
  hards : List RowKey
  /-- Entries that wait to be appended to the soft repair list (R436), oldest first. -/
  nvmPend : List RepEnt
  /-- Lengths of the records that each punnet holds whole, oldest first (R360). -/
  punLens : List (Nat × List Nat)
  /-- Units being filled of encrypted punnets (R388): 2 * punnet, plus 1 for the index area. -/
  encBuf : List (Nat × Option EncUnit)
  /-- Punnet keys held by the Rind (R387), by punnet: 512 bits. -/
  pkeys : List (Nat × Option Nat)
  /-- Replays in progress, by path (R391). -/
  rpl : List (Nat × Option RplSt)
  /-- Hop delays of the last 16 exchanges (R239), oldest first. -/
  vdel : List Int
  /-- Offsets of the last 16 exchanges (R239), oldest first. -/
  vofs : List Int
  /-- Units that each delay line holds (R155): the cell in which each ends. -/
  dly : List (Nat × List Nat)
  /-- Packets in the packet buffers: grove * 4096 + handle (R119). -/
  pkts : List (Nat × Option Pkt)
  /-- Replay buffers: TLPs of terminator 2 g + t not yet acknowledged, oldest first. -/
  ltSent : List (Nat × List LtTx)
  /-- Credit types of the descriptors that lie in the receive ring of terminator 2 g + t, oldest first (R124). -/
  ltHdr : List (Nat × List Nat)
  /-- Errors of each pattern checker within its last 1,024 UI (R151), each as 2,048 less how many UI ago it was. -/
  pchk : List (Nat × List Nat)
  /-- Receivers queued for a background calibration run, oldest first (R195), by trim index. -/
  calq : List Nat
  /-- IDE key sets held by the Rind (R520): 2 * binding + set. -/
  ikeys : List (Nat × Option (List Byte))
  /-- Key-loading key of the open Crypto Officer session (R518). -/
  klk : Option (List Byte)
  /-- Operator key hashes in OTP, by slot (R517). -/
  opHash : List (Nat × List Byte)
  /-- Rind command in progress (R537). -/
  rjob : Option RindJob
  /-- Harvest descriptors in progress, by engine. -/
  hv : List (Nat × Option HvJob)
  /-- BAR2 accesses that wait, oldest first. -/
  b2 : List B2Acc
  /-- MCTP messages that wait for the two-wire bus, oldest first: the packets of each still to send (R508). -/
  mctpq : List (List (List Byte))
  /-- SPDM sessions (R481). -/
  spdm : List SpdmSess
  /-- Slabs whose contents a DRAM supply failure lost (R622), each with the number of that loss. -/
  lost : List (Nat × Nat)
  /-- MCTP packets of the two-wire binding received and not yet a served message (R508), oldest first. -/
  mctpin : List (List Byte)
  /-- Cells read from a path's delay line that wait for the rest of a delay that R156 has rounded up, oldest first. -/
  dlyHold : List (Nat × List (List Byte))
  /-- GCLK cycles told apart so far: commands that arrive in one cycle leave it as it is (the model's own). -/
  cyc : Nat
  /-- How many free values have been taken: argument of Config.freeNat (the model's own). -/
  freeCtr : Nat
  /-- What the last command sent out of the device (the model's own). -/
  out : List Out
  deriving DecidableEq, Repr

/-- A stream with nothing pending. -/
def StrmSt.empty : StrmSt :=
  ⟨[], [], none, none, 0, 0, 0, none, [], 0⟩

/-- The machine right after reset: POR has been released, the device is in ROM, every register field at its reset value. -/
def State.reset : State where
  pending := []
  regs := []
  hiLatch := []
  win := []
  imem := []
  dmem := []
  halfStage := []
  chg := []
  waits := []
  mblk := []
  held := []
  items := []
  strikes := []
  strm := []
  staged := []
  carry := []
  tower := []
  nvm := []
  fq := []
  fqOver := []
  causes := []
  evbuf := []
  hostq := []
  fwLoad := none
  bankA := none
  bankB := none
  hot := .none
  vreq := []
  vwait := []
  vheld := []
  bursts := []
  banks := []
  scrRows := []
  scrTsv := []
  softq := []
  reps := []
  hards := []
  nvmPend := []
  punLens := []
  encBuf := []
  pkeys := []
  rpl := []
  vdel := []
  vofs := []
  dly := []
  pkts := []
  ltSent := []
  ltHdr := []
  pchk := []
  calq := []
  ikeys := []
  klk := none
  opHash := []
  rjob := none
  hv := []
  b2 := []
  mctpq := []
  spdm := []
  lost := []
  mctpin := []
  dlyHold := []
  cyc := 0
  freeCtr := 0
  out := []

end Sys2Proof.Machine
end

