-- ==== Sys2Proof/Machine/Ops.lean ====
section
/-! DEFINITION. The named operations over the state that every family shares: registers, counters, memories, messages, output,
positions, links and modes. -/
namespace Sys2Proof.Machine

/-- Order of the register store: by instance, then by field. -/
def fldCode (k : Fld × Nat) : Nat := k.2 * 1024 + k.1.ctorIdx

/-- What an unlisted register field reads as. -/
def fldReset (k : Fld × Nat) : Nat := k.1.reset k.2 % 2 ^ k.1.width

/-- Read of a register field. -/
def State.rd (s : State) (f : Fld) (i : Nat) : Nat := storeGet s.regs (fldReset (f, i)) (f, i) % 2 ^ f.width

/-- Write of a register field: the value is cut to the field's width. -/
def State.wr (s : State) (f : Fld) (i v : Nat) : State :=
  { s with regs := storeSet fldCode s.regs (fldReset (f, i)) (f, i) (v % 2 ^ f.width) }

/-- A one-bit field as a truth value. -/
def State.on (s : State) (f : Fld) (i : Nat) : Bool := s.rd f i != 0

/-- Set a one-bit field. -/
def State.set (s : State) (f : Fld) (i : Nat) : State := s.wr f i 1

/-- Clear a field. -/
def State.clr (s : State) (f : Fld) (i : Nat) : State := s.wr f i 0

/-- Write a truth value. -/
def State.wrB (s : State) (f : Fld) (i : Nat) (b : Bool) : State := s.wr f i (if b then 1 else 0)

/-- Add to a counter that saturates at its width. -/
def State.incSat (s : State) (f : Fld) (i n : Nat) : State := s.wr f i (min (s.rd f i + n) (2 ^ f.width - 1))

/-- Add to a counter that wraps at its width. -/
def State.incWrap (s : State) (f : Fld) (i n : Nat) : State := s.wr f i (s.rd f i + n)

/-- Bits [hi : lo] of a number. -/
def bitsOf (v hi lo : Nat) : Nat := v / 2 ^ lo % 2 ^ (hi + 1 - lo)

/-- Bit i of a number. -/
def bitOf (v i : Nat) : Bool := v / 2 ^ i % 2 == 1

/-- A number with bit i set or cleared. -/
def setBitTo (v i : Nat) (b : Bool) : Nat :=
  if bitOf v i then (if b then v else v - 2 ^ i) else (if b then v + 2 ^ i else v)

/-- Bit i of a register field. -/
def State.bit (s : State) (f : Fld) (i b : Nat) : Bool := bitOf (s.rd f i) b

/-- Write bit b of a register field. -/
def State.wrBit (s : State) (f : Fld) (i b : Nat) (v : Bool) : State := s.wr f i (setBitTo (s.rd f i) b v)

/-- Write-one-to-clear of a whole field. -/
def State.w1c (s : State) (f : Fld) (i v : Nat) : State := s.wr f i (Nat.land (s.rd f i) (2 ^ f.width - 1 - v % 2 ^ f.width))

/-- Two's complement value of a w-bit number. -/
def signed (w v : Nat) : Int := if v % 2 ^ w < 2 ^ (w - 1) then (v % 2 ^ w : Nat) else (v % 2 ^ w : Nat) - (2 ^ w : Nat)

/-- A w-bit two's complement image of an integer. -/
def unsigned (w : Nat) (v : Int) : Nat := (v % (2 ^ w : Nat)).toNat

/-- Little-endian bytes of a number (R3). -/
def leBytes (n v : Nat) : List Byte := (List.range n).map fun i => BitVec.ofNat 8 (v / 2 ^ (8 * i))

/-- Number whose little-endian bytes are given. -/
def leNat : List Byte → Nat
  | [] => 0
  | b :: r => b.toNat + 256 * leNat r

/-- Big-endian value of bytes. -/
def beNat (l : List Byte) : Nat := leNat l.reverse

/-- Bytes i to i + n - 1 of a list, zero beyond its end. -/
def sliceBytes (l : List Byte) (i n : Nat) : List Byte := (List.range n).map fun k => l.getD (i + k) 0

/-- Pad with zero bytes to a multiple of n. -/
def padTo (n : Nat) (l : List Byte) : List Byte := l ++ List.replicate ((n - l.length % n) % n) 0

/-- Apply a state change for each element. -/
def State.each {α : Type} (s : State) (l : List α) (f : State → α → State) : State := l.foldl f s

/-- What the command sends out. -/
def State.emit (s : State) (o : Out) : State := { s with out := s.out ++ [o] }

/-- A command begins with nothing sent, in a GCLK cycle of its own. -/
def State.start (s : State) : State := { s with out := [], cyc := s.cyc + 1 }

/-- A command begins, in the GCLK cycle of the command before or in one of its own. -/
def State.startIn (same : Bool) (s : State) : State := if same then { s with out := [] } else s.start

/-- Take a free value: the spec gives none, and nothing constrains it. -/
def State.freshNat (s : State) : Nat × State := (Config.freeNat s.freeCtr, { s with freeCtr := s.freeCtr + 1 })

/-- A free byte string of n bytes. -/
def State.freshBytes (s : State) (n : Nat) : List Byte × State := (leBytes n (Config.freeNat s.freeCtr), { s with freeCtr := s.freeCtr + 1 })

/-! Memories. -/

def State.getI (s : State) (g w : Nat) : Word := nget s.imem 0 (g * 16384 + w)
def State.setI (s : State) (g w : Nat) (v : Word) : State := { s with imem := nset s.imem 0 (g * 16384 + w) v }
def State.getD (s : State) (g w : Nat) : Word := nget s.dmem 0 (g * 4096 + w)
def State.setD (s : State) (g w : Nat) (v : Word) : State := { s with dmem := nset s.dmem 0 (g * 4096 + w) v }
/-- What an unlisted byte of the windows reads as: the mask bit of an MSI-X vector is set at reset. -/
def winReset (a : Nat) : Byte := if 0x10000 ≤ a ∧ a < 0x10400 ∧ a % 16 = 12 then 1 else 0
def State.getWin (s : State) (a : Nat) : Byte := nget s.win (winReset a) a
def State.setWin (s : State) (a : Nat) (v : Byte) : State := { s with win := nset s.win (winReset a) a v }

/-- A directory entry of the calibration store (R208). -/
def dirEntry (seq writes : Nat) : List Byte :=
  let b := leBytes 4 0x44434C41 ++ leBytes 4 seq ++ leBytes 4 writes ++ leBytes 16 0
  b ++ leBytes 4 (crcOf crc32c b)

/-- What an unlisted byte of the NVM reads as (R212): both calibration copies are written once at manufacture. Their records are free; DESIGN CHOICE (log 52): copy 0, which CAL_STAT.COPY
shows at reset, was written last. Elsewhere zero. -/
def nvmReset (a : Nat) : Byte :=
  if a < 0x8000 then Config.nvmFactory a
  else if a < 0x8020 then (dirEntry 2 1).getD (a - 0x8000) 0
  else if a < 0x8040 then (dirEntry 1 1).getD (a - 0x8020) 0
  else 0
def State.getNvm (s : State) (a : Nat) : Byte := nget s.nvm (nvmReset a) a
def State.setNvm (s : State) (a : Nat) (v : Byte) : State := { s with nvm := nset s.nvm (nvmReset a) a v }

/-- Write a run of bytes to a byte window. -/
def State.setWins (s : State) (a : Nat) (l : List Byte) : State :=
  s.each l.zipIdx fun s e => s.setWin (a + e.2) e.1

/-- Read a run of bytes of a byte window. -/
def State.getWins (s : State) (a n : Nat) : List Byte := (List.range n).map fun i => s.getWin (a + i)

/-- Write a run of bytes to the NVM. -/
def State.setNvms (s : State) (a : Nat) (l : List Byte) : State :=
  s.each l.zipIdx fun s e => s.setNvm (a + e.2) e.1

/-- Read a run of bytes of the NVM. -/
def State.getNvms (s : State) (a n : Nat) : List Byte := (List.range n).map fun i => s.getNvm (a + i)

def State.getStrm (s : State) (p : Nat) : StrmSt := nget s.strm StrmSt.empty p
def State.setStrm (s : State) (p : Nat) (v : StrmSt) : State := { s with strm := nset s.strm StrmSt.empty p v }
def State.getChg (s : State) (p : Nat) : Option ModeChg := nget s.chg none p
def State.setChg (s : State) (p : Nat) (v : Option ModeChg) : State := { s with chg := nset s.chg none p v }
def State.getWait (s : State) (t : Nat) : Option Wait := nget s.waits none t
def State.setWait (s : State) (t : Nat) (v : Option Wait) : State := { s with waits := nset s.waits none t v }
def State.getBlk (s : State) (m : Nat) : List Word := nget s.mblk [] m
def State.setBlk (s : State) (m : Nat) (v : List Word) : State := { s with mblk := nset s.mblk [] m v }
def State.getStaged (s : State) (t : Nat) : List Staged := nget s.staged [] t
def State.setStaged (s : State) (t : Nat) (v : List Staged) : State := { s with staged := nset s.staged [] t v }
def State.getCarry (s : State) (t : Nat) : Int := nget s.carry 0 t
def State.setCarry (s : State) (t : Nat) (v : Int) : State := { s with carry := nset s.carry 0 t v }

/-! Device state (the table of device states, spec/02). -/

def devROM : Nat := 1
def devLOAD : Nat := 2
def devINIT : Nat := 3
def devSERVICE : Nat := 4
def devIDLE : Nat := 5
def devSTANDBY : Nat := 6
def devHOLD : Nat := 7
def devLATCHED : Nat := 8

def State.dev (s : State) : Nat := s.rd .DEV_STATE_STATE 0

/-- In LATCHED, or held in ROM by CLKFAIL_EARLY: only POR has an effect, and the two-wire bus answers IDENT and STATE (R23 to R25). A device that a
low RESET_N holds in reset does nothing either (R599). -/
def State.dead (s : State) : Bool := s.dev == devLATCHED || s.on .DEV_STATE_CLKFAIL_EARLY 0 || s.on .X_RESETN_LOW 0

/-- The readout function sends no MSI-X message: MSI-X is not enabled, or Function Mask masks every vector (R444). -/
def State.msixHeld (s : State) : Bool := !s.on .X_CFG_MSIXEN 0 || s.on .X_CFG_MSIXFM 0

/-- Signal an MSI-X vector (R452): a masked one sets its pending bit. -/
def State.msix (s : State) (v : Nat) : State :=
  if (s.getWin (0x10000 + 16 * v + 12)).toNat % 2 = 1 ∨ s.msixHeld then
    let a := 0x10800 + v / 8
    s.setWin a (BitVec.ofNat 8 (setBitTo (s.getWin a).toNat (v % 8) true))
  else s.emit (.msix v)

/-- An alert cause becomes pending (R505): 0 EVENTS, 1 STATE, 2 MBOX, 3 FW. -/
def State.alert (s : State) (c : Nat) : State :=
  if s.on .TW_ALERT_EN 0 && s.bit .TW_ALERT_CAUSES 0 c then s.wrBit .X_ALERT 0 c true else s

/-- The device enters a state (R452, R505). -/
def State.setDev (s : State) (st : Nat) : State :=
  if s.dev = st then s else ((s.wr .DEV_STATE_STATE 0 st).alert 1).msix 0

/-- A command's effect t on a live device; on a dead one nothing happens. -/
def live (s : State) (f : State → State) : Host.Outcome State Fault Refusal :=
  if s.dead then .next s.start else .next (f s.start)

/-- The effect of a command that may arrive in the GCLK cycle of the one before it. -/
def liveIn (same : Bool) (s : State) (f : State → State) : Host.Outcome State Fault Refusal :=
  if s.dead then .next (s.startIn same) else .next (f (s.startIn same))

/-! Fault messages (R539, R557). -/

def msgCHECK : Nat := 1
def msgCORR : Nat := 2
def msgUNCORR : Nat := 3
def msgLOSS : Nat := 4
def msgLIMIT : Nat := 5
def msgSTATE : Nat := 6
def msgREFUSE : Nat := 7
def msgOVERFLOW : Nat := 8
def msgTIMEOUT : Nat := 9
def msgPROTOCOL : Nat := 10
def msgSECURITY : Nat := 11
def msgCANCEL : Nat := 12
def msgFAULT : Nat := 13
def msgPROGRAM : Nat := 14

/-- Set the status bit of a source. -/
def State.setStatus (s : State) (src : Nat) : State := s.wrBit .FLT_STAT_STAT (src / 32) (src % 32) true

/-- The status bit of a source. -/
def State.status (s : State) (src : Nat) : Bool := s.bit .FLT_STAT_STAT (src / 32) (src % 32)

/-- A block sends a coded message: it enters the collector's queue of 64; past a full queue it sets its status bit, counts in FLT_DROP and leaves
its configured reaction to be applied, and source 1074 is raised once for each run (R557). -/
def State.raise (s : State) (src kind addr : Nat) : State :=
  if s.fq.length < 64 then { s with fq := s.fq ++ [⟨src, kind, addr % 2 ^ 48⟩] }
  else
    let s1 := ((s.setStatus src).incSat .FLT_DROP_COUNT 0 1).set .X_FQ_RUN 0
    { s1 with fqOver := s1.fqOver ++ [⟨src, kind, addr % 2 ^ 48⟩] }

/-- A cause that persists begins: it is remembered until it ends, and its message is sent (R556). -/
def State.raiseCause (s : State) (src kind addr : Nat) : State :=
  { s with causes := nset s.causes none src (some ⟨src, kind, addr % 2 ^ 48⟩) }.raise src kind addr

/-- A persistent cause begins that a source has one of for each of several objects, here object n. -/
def State.raiseCauseAt (s : State) (src kind addr n : Nat) : State :=
  { s with causes := nset s.causes none (src + 2048 * (n + 1)) (some ⟨src, kind, addr % 2 ^ 48⟩) }.raise src kind addr

/-- The cause of object n ends. -/
def State.endCauseAt (s : State) (src n : Nat) : State := { s with causes := nset s.causes none (src + 2048 * (n + 1)) none }

/-- A persistent cause ends. -/
def State.endCause (s : State) (src : Nat) : State := { s with causes := nset s.causes none src none }

/-! Positions and the epoch (R214, R220 to R223). -/

def State.pos (s : State) (p : Nat) : Nat := s.rd .PATH_POS_POS p
def State.epochNow (s : State) : Nat := s.rd .TB_EPOCH_EPOCH 0
def State.tbValid (s : State) : Bool := s.on .TB_STAT_VALID 0

/-- P is later than Q (R220). -/
def posLater (P Q : Nat) : Bool :=
  let d := (P % 2 ^ 48 + 2 ^ 48 - Q % 2 ^ 48) % 2 ^ 48
  decide (1 ≤ d ∧ d ≤ 2 ^ 47 - 1)

/-- P is at or later than Q. -/
def posReached (P Q : Nat) : Bool := P % 2 ^ 48 == Q % 2 ^ 48 || posLater P Q

/-- Position n units on, modulo 2^48. -/
def posAdd (P n : Nat) : Nat := (P + n) % 2 ^ 48

/-! Links (R62 to R65). Link L is entry L % 16 of grove L / 16. -/

def State.linkFirst (s : State) (L : Nat) : Nat := 16 * (L / 16) + s.rd .LINK_CFG_FIRST L
def State.linkWidth (s : State) (L : Nat) : Nat := 2 ^ s.rd .LINK_CFG_WIDTH L

/-- The enabled link table entry that holds a lane (R62). -/
def State.linkOf (s : State) (n : Nat) : Option Nat :=
  (List.range 16).map (fun k => 16 * (n / 16) + k) |>.find? fun L =>
    s.on .LINK_CFG_EN L && decide (s.linkFirst L ≤ n ∧ n < s.linkFirst L + s.linkWidth L)

/-- The lowest lane of a lane's link; a lane in no link is an x1 raw lane (R64, R65). -/
def State.govLane (s : State) (n : Nat) : Nat :=
  match s.linkOf n with | some L => s.linkFirst L | none => n

/-- The lanes of a lane's link. -/
def State.linkLanes (s : State) (n : Nat) : List Nat :=
  match s.linkOf n with
  | some L => (List.range (s.linkWidth L)).map fun i => s.linkFirst L + i
  | none => [n]

/-- PROTO of a lane's link: 0 raw, 1 PCIe, 2 CXL, 3 Ethernet. -/
def State.protoOf (s : State) (n : Nat) : Nat :=
  match s.linkOf n with | some L => s.rd .LINK_CFG_PROTO L | none => 0

/-- The lane is PAM4. -/
def State.pam4 (s : State) (n : Nat) : Bool :=
  match s.linkOf n with
  | some L =>
    let pr := s.rd .LINK_CFG_PROTO L
    if pr = 1 ∨ pr = 2 then decide (5 ≤ s.rd .LNK_PSTAT_RATE L)
    else if pr = 3 then decide (2 ≤ s.rd .LNK_ETH_LRATE L)
    else s.on .RAW_RATE_PAM4 (s.govLane n)
  | none => s.on .RAW_RATE_PAM4 n

def State.govPath (s : State) (p : Nat) : Nat := 2 * s.govLane (p / 2) + p % 2

/-- The paths of a path's link in its direction. -/
def State.linkPaths (s : State) (p : Nat) : List Nat := (s.linkLanes (p / 2)).map fun n => 2 * n + p % 2

/-- The other path of the lane. -/
def revPath (p : Nat) : Nat := if p % 2 = 0 then p + 1 else p - 1

def mDARK : Nat := 0
def mRELAY : Nat := 1
def mTAP : Nat := 2
def mSPLICE : Nat := 3
def mDELAY : Nat := 4
def mSINK : Nat := 5
def mSOURCE : Nat := 6
def mLOOP : Nat := 7

def modeFld (p : Nat) : Fld := if p % 2 = 0 then .PATH_MODE_AB else .PATH_MODE_BA
def pendFld (p : Nat) : Fld := if p % 2 = 0 then .PATH_MODE_PEND_AB else .PATH_MODE_PEND_BA

/-- The mode in force of a path: the register of its link's lowest lane (R65). -/
def State.mode (s : State) (p : Nat) : Nat := s.rd (modeFld p) (s.govLane (p / 2))

/-- The pending change of a path's link. -/
def State.pendChg (s : State) (p : Nat) : Option ModeChg := s.getChg (s.govPath p)

/-- A path counts as DARK (R650). -/
def State.countsDark (s : State) (p : Nat) : Bool := s.mode p == mDARK && (s.pendChg p).isNone

/-- Every path of a lane counts as DARK. -/
def State.laneDark (s : State) (n : Nat) : Bool := s.countsDark (2 * n) && s.countsDark (2 * n + 1)

/-- A mode with a capture tap (data-flow table of spec/01). -/
def hasTap (m : Nat) : Bool := decide (2 ≤ m ∧ m ≤ 7)

/-- A mode that forwards. -/
def forwards (m : Nat) : Bool := decide (1 ≤ m ∧ m ≤ 4)

/-- The transceiver (32 g + r) that a path's transmitter is: n.AB owns Bn, n.BA owns An. Port An is local port j, Bn 16 + j. -/
def txPort (p : Nat) : Nat := 32 * (p / 32) + (if p % 2 = 0 then 16 else 0) + p / 2 % 16

/-- The transceiver whose receiver feeds a path. -/
def rxPort (p : Nat) : Nat := 32 * (p / 32) + (if p % 2 = 0 then 0 else 16) + p / 2 % 16

/-- The local number of a path in its grove. -/
def localPath (p : Nat) : Nat := p % 32

/-- SEL of the path's link (R65). -/
def State.srcSel (s : State) (p : Nat) : Nat := s.rd .PATH_SRC_SEL (s.govPath p)

/-- Grove g's quadrant reference is absent (R33, R257). -/
def State.quadAbsent (s : State) (g : Nat) : Bool := !s.bit .DEV_STATE_QREF_OK 0 (g / 4)

/-- Grove g is in the MRN-5104 profile (R638). -/
def State.profiled (s : State) (g : Nat) : Bool := s.bit .F5_STAT_ACT 0 g

/-! Transmitters. -/

/-- The lanes of a path whose transmitters invert (R164). -/
def State.txInv (s : State) (p : Nat) : Nat :=
  ((s.linkPaths p).zipIdx.map fun e => if s.on .XCVR_CTL_TXINV (txPort e.1) then 2 ^ e.2 else 0).sum

/-- What the transmitters of a path send, with their polarity. -/
def State.txOut (s : State) (p : Nat) (o : Out) : Out := if s.txInv p = 0 then o else .inverted (s.txInv p) o

/-- The transmitters of a path send. -/
def State.emitTx (s : State) (p : Nat) (o : Out) : State := s.emit (s.txOut p o)

/-! Trigger line levels. -/

def State.tl (s : State) (i : Nat) : Bool := s.bit .TL_LVL_LVL 0 i

end Sys2Proof.Machine
end

