-- ==== Sys2Proof/Machine/Gate.lean ====
section
/-! DEFINITION. Who may reach a register: power and clock of its block (R612, R614, R576, R579), blocks not yet available (R36), the
Rind's routes (R512) and registers that the forerunner profile owns (R640). -/
namespace Sys2Proof.Machine

/-- Clock enable of a domain in the device's state (R576). -/
def State.clkEn (s : State) (d : Nat) : Bool :=
  if s.dev = devIDLE then s.bit .CLK_SLP_EN 0 d
  else if s.dev = devSTANDBY then s.bit .CLK_DSLP_EN 0 d
  else s.bit .CLK_RUN_EN 0 d

/-- Domain d is marked failed (R569). -/
def State.clkFailed (s : State) (d : Nat) : Bool := s.bit .CLK_FAIL_FAIL 0 d

/-- AONCLK runs. With it the two-wire kernel, the housekeeping sampler and the clock monitors stop (R568, R583). -/
def State.aonRuns (s : State) : Bool := !s.clkFailed 25

/-- A command's effect on a live device by an always-on function. -/
def aonLive (s : State) (f : State → State) : Host.Outcome State Fault Refusal := live s fun s => if s.aonRuns then f s else s

/-- Domain d is clocked: not gated, or its gate still held (R578), and not failed. -/
def State.clkRuns (s : State) (d : Nat) : Bool := (s.clkEn d || s.bit .CLK_GPEND_GATE_PEND 0 d) && !s.clkFailed d

/-- Power domain d is on (R583). -/
def State.pwrOn (s : State) (d : Nat) : Bool := s.bit .PWR_STAT_ON 0 d

/-- Grove g's digital domain is on and clocked. -/
def State.groveOn (s : State) (g : Nat) : Bool := s.pwrOn (16 + g) && s.clkRuns g

/-- Power domain and clock domain of the register at an offset (R612, and the block table of spec/01); none: always-on. -/
def domOf (a : Nat) : Option (Nat × Nat) :=
  if a < 0x100000 then
    if 0x10000 ≤ a ∧ a < 0x30000 then some (41, 26)
    else if 0x9400 ≤ a ∧ a < 0x9C00 then some (44, 22)
    else none
  else if a < 0x400000 then none
  else if a < 0x440000 then some (43, 23)
  else if a < 0x500000 then (if a = 0x44000C ∨ a = 0x440010 then some (51, 32) else some (48, 32))
  else if a < 0x600000 then some (45, 28)
  else if a < 0x700000 then (if 0x600020 ≤ a ∧ a < 0x600030 then some (47, 30) else some (50, 29))
  else if a < 0x800000 then (if a < 0x701000 then none else some (16 + (a - 0x701000) / 0x100 % 16, (a - 0x701000) / 0x100 % 16))
  else if a < 0x1000000 then none
  else if a < 0x2000000 then some (16 + (a - 0x1000000) / 0x100000, (a - 0x1000000) / 0x100000)
  else if a < 0x2020000 then (if a % 0x10000 = 0 then none else some (32 + (a - 0x2000000) / 0x10000, 16 + (a - 0x2000000) / 0x10000))
  else if 0x2040000 ≤ a ∧ a < 0x2041000 then some (38, 20)
  else if 0x2100000 ≤ a ∧ a < 0x2120000 then some (36 + (a - 0x2100000) / 0x10000, 16 + (a - 0x2100000) / 0x10000)
  else if 0x3000000 ≤ a ∧ a < 0x3050000 then (if a = 0x3000030 then none else some (38, 20))
  else if 0x3800000 ≤ a ∧ a < 0x3800400 then some (39, 21)
  else if 0x3900000 ≤ a ∧ a < 0x3900200 then some (42, 26)
  else none

/-- A block that the readout port and the two-wire bus reach before SERVICE (R36). -/
def earlyBlock (a : Nat) : Bool :=
  decide (a < 0x200000) || decide (0x300000 ≤ a ∧ a < 0x400000) || decide (0x500000 ≤ a ∧ a < 0x600000)

/-- The Rind's registers that every route may read (R512). -/
def rindShown (a : Nat) : Bool := decide (a < 0x500010) || decide (0x500100 ≤ a ∧ a < 0x500120)

/-- The route may make the access under R512. -/
def rindOk (r : Route) (a : Nat) (write : Bool) : Bool :=
  if 0x500000 ≤ a ∧ a < 0x600000 then
    match r with
    | .port => true
    | .mgmt | .twoWire => !write && rindShown a
  else true

/-- The route may not make the access now (R36, R512). -/
def State.routeErr (s : State) (r : Route) (a : Nat) (write : Bool) : Bool :=
  (match r with
    | .mgmt => decide (s.dev < devINIT)
    | .port | .twoWire => decide (s.dev < devSERVICE) && !earlyBlock a)
  || !rindOk r a write

/-- The power domain of the register is off, or its clock gated or failed (R614). -/
def State.domErr (s : State) (a : Nat) : Bool :=
  decide (devINIT ≤ s.dev) && match domOf a with
    | none => false
    | some (p, c) => !s.pwrOn p || !s.clkRuns c

/-- An access completes with an error. -/
def State.accessErr (s : State) (r : Route) (a : Nat) (write : Bool) : Bool := s.routeErr r a write || s.domErr a

/-- How it completes (R579): Completer Abort, bus error, or the error flag of R501 and R502. -/
def State.accessFail (s : State) (r : Route) (a : Nat) : State :=
  match r with
  | .port => s.emit (.completerAbort a)
  | .mgmt => s.emit (.busError a)
  | .twoWire => s.set .TW_STAT_REGERR 0

/-- A grove register that the profile owns (R640), by its offset in the grove block. -/
def ownedOfs (o : Nat) : Bool :=
  decide (o < 0x40) || decide (0x100 ≤ o ∧ o < 0x140) || decide (0x280 ≤ o ∧ o < 0x300) || decide (0x400 ≤ o ∧ o < 0x408)
  || decide (0x500 ≤ o ∧ o < 0x540) || (decide (0x600 ≤ o ∧ o < 0x640) && [0, 4, 8, 0x14].contains (o % 0x20))
  || decide (0x800 ≤ o ∧ o < 0x840) || decide (0xB00 ≤ o ∧ o < 0xB80) || decide (0xC00 ≤ o ∧ o < 0xCC0)
  || decide (0x2100 ≤ o ∧ o < 0x2500) || decide (o = 0x3400)
  || (decide (0x3500 ≤ o ∧ o < 0x3600) && [0, 4].contains (o % 16)) || decide (0x3600 ≤ o ∧ o < 0x3680) || decide (o = 0x3704)
  || decide (0x80000 ≤ o)

/-- Grove of an offset in the grove blocks. -/
def groveOfs (a : Nat) : Option (Nat × Nat) :=
  if 0x1000000 ≤ a ∧ a < 0x2000000 then some ((a - 0x1000000) / 0x100000, (a - 0x1000000) % 0x100000) else none

/-- A write that the profile discards. -/
def State.ownedWrite (s : State) (a : Nat) : Bool :=
  match groveOfs a with
  | some (g, o) => s.profiled g && ownedOfs o
  | none => false

/-- A write by a route to the register at an offset, with effect f when it arrives. -/
def gate (r : Route) (a : Nat) (f : State → State) (s : State) : State :=
  if s.accessErr r a true then s.accessFail r a
  else if s.ownedWrite a then s.set .F5_STAT_OWNERR 0
  else f s

end Sys2Proof.Machine
end

