-- ==== Sys2Proof/Machine/Tower.lean ====
section
/-! DEFINITION. Words of the memory towers: address map (R395, R396, R441), reads through the decoder with their counts, log and
repairs (R416 to R427), writes and tags (R403, R404, R419), activations (R400), slabs. -/
namespace Sys2Proof.Machine

/-- First address past the towers (R395). -/
def towerTop : Nat := 0x3000000000

/-- Bytes of one tower. -/
def towerSize : Nat := 0x1800000000

/-- Tower of a byte address. -/
def towerOf (A : Nat) : Nat := if A < towerSize then 0 else 1

/-- Global slab of a byte address. -/
def slabOf (A : Nat) : Nat := A / 2 ^ 26

/-- Bytes of a slab. -/
def slabSize : Nat := 0x4000000

/-- The retired channel of a tower: recorded, or in retirement from its step 2 on (R442). -/
def State.retired (s : State) (t : Nat) : Option Nat :=
  if s.on .REP_STAT_RETIRED t then some (s.rd .REP_STAT_RCH t)
  else if s.rd .X_REP_OP t = 4 then some (s.rd .X_REP_CH t)
  else none

/-- Slab sl is withdrawn from its tower (R441). -/
def State.withdrawn (s : State) (sl : Nat) : Bool :=
  (s.retired (sl / 1536)).isSome && decide (1440 ≤ sl % 1536)

/-- Where a word lies: tower, channel, pseudo-channel, bank 4 * group + bank, row, burst within the row, word in the burst. -/
structure Loc where
  t : Nat
  c : Nat
  pc : Nat
  bank : Nat
  row : Nat
  col : Nat
  word : Nat
  deriving DecidableEq, Repr

def Loc.key (l : Loc) : RowKey := ⟨l.t, l.c, l.pc, l.bank, l.row⟩

/-- The part of a location that a channel-local byte gives (R396). -/
def locIn (t c CA : Nat) : Loc :=
  let PA := CA / 128 * 64 + CA % 64
  ⟨t, c, CA / 64 % 2, PA / 2048 % 16, PA / 2 ^ 15, PA / 64 % 32, PA / 8 % 8⟩

/-- Exclusive OR of the nibbles that R396 folds into the channel number. -/
def foldNibbles (O : Nat) : Nat :=
  Nat.xor (O / 2 ^ 12 % 16) (Nat.xor (O / 2 ^ 16 % 16) (O / 2 ^ 20 % 16))

/-- Channel-local byte of the top 384 MiB that a retired channel moved into (R441). -/
def movedBase : Nat := 1440 * 0x400000

/-- Channel and channel-local byte of a byte address, a retired channel's pieces moved (R396, R441). -/
def chanOf (ret : Option Nat) (A : Nat) : Nat × Nat :=
  let O := A - towerOf A * towerSize
  let c := Nat.xor (O / 256 % 16) (foldNibbles O)
  let CA := O / 4096 * 256 + O % 256
  match ret with
  | none => (c, CA)
  | some r =>
    if c = r then
      let j := CA / 256
      let k := j % 15
      (if k < r then k else k + 1, movedBase + j / 15 * 256 + CA % 256)
    else (c, CA)

/-- Location of a byte address. -/
def State.locOf (s : State) (A : Nat) : Loc :=
  let cc := chanOf (s.retired (towerOf A)) A
  locIn (towerOf A) cc.1 cc.2

/-- The byte address whose unmoved image is a channel-local byte. -/
def addrDirect (t c CA : Nat) : Nat :=
  let hi := CA / 256 * 4096
  t * towerSize + hi + Nat.xor c (foldNibbles hi) * 256 + CA % 256

/-- The byte address of a channel-local byte (the inverse of chanOf). -/
def addrOf (ret : Option Nat) (t c CA : Nat) : Nat :=
  match ret with
  | none => addrDirect t c CA
  | some r =>
    if movedBase ≤ CA then
      let k := if c < r then c else c - 1
      addrDirect t r ((15 * ((CA - movedBase) / 256) + k) * 256 + CA % 256)
    else addrDirect t c CA

/-- The tower is active: its state reads active, or a channel of it is in a CHAN reset. -/
def State.twrActive (s : State) (t : Nat) : Bool := s.rd .TWR_STAT_STATE t == 1 || s.rd .TWR_STAT_STATE t == 3

def chI (t c : Nat) : Nat := 16 * t + c
def pcI (t c pc : Nat) : Nat := (16 * t + c) * 2 + pc

/-- Source of a memory event (R421): k is 0 for correctable, 1 for uncorrectable. -/
def memSrc (t c pc k : Nat) : Nat := 896 + 64 * t + 4 * c + 2 * pc + k

/-! Slabs. -/

/-- Slab sl is among count slabs from first. -/
def inSlabs (first count sl : Nat) : Bool := decide (first ≤ sl ∧ sl < first + count)

/-- Two runs of slabs overlap. -/
def runsMeet (f1 c1 f2 c2 : Nat) : Bool := decide (0 < c1 ∧ 0 < c2 ∧ f1 < f2 + c2 ∧ f2 < f1 + c1)

/-- The enabled punnet that holds a slab. -/
def State.punAt (s : State) (sl : Nat) : Option Nat :=
  (List.range 256).find? fun k => s.on .PUN_CFG_EN k && inSlabs (s.rd .PUN_SLAB_FIRST k) (s.rd .PUN_SLAB_COUNT k) sl

/-- The path whose enabled delay-line region holds a slab. -/
def State.dlrAt (s : State) (sl : Nat) : Option Nat :=
  (List.range 512).find? fun p => s.on .DLR_CFG_EN p && inSlabs (s.rd .DLR_CFG_FIRST p) (s.rd .DLR_CFG_COUNT p) sl

/-- The slab lies in a clear in progress. -/
def State.clearing (s : State) (sl : Nat) : Bool :=
  (List.range 2).any fun t => s.on .TWR_CLRSTAT_BUSY t && inSlabs (s.rd .X_CLR_FIRST t) (s.rd .X_CLR_COUNT t) sl

/-- A run of slabs meets an enabled punnet other than k. -/
def State.meetsPun (s : State) (first count : Nat) (k : Option Nat) : Bool :=
  (List.range 256).any fun j => some j != k && s.on .PUN_CFG_EN j && runsMeet first count (s.rd .PUN_SLAB_FIRST j) (s.rd .PUN_SLAB_COUNT j)

/-- A run of slabs meets the enabled delay-line region of a path other than p. -/
def State.meetsDlr (s : State) (first count : Nat) (p : Option Nat) : Bool :=
  (List.range 512).any fun j => some j != p && s.on .DLR_CFG_EN j && runsMeet first count (s.rd .DLR_CFG_FIRST j) (s.rd .DLR_CFG_COUNT j)

/-- A run of slabs meets a clear in progress. -/
def State.meetsClear (s : State) (first count : Nat) : Bool :=
  (List.range 2).any fun t => s.on .TWR_CLRSTAT_BUSY t && runsMeet first count (s.rd .X_CLR_FIRST t) (s.rd .X_CLR_COUNT t)

/-- Slabs of the tower that the device offers: 1,536, or 1,440 with a retired channel (R441). -/
def State.towerSlabs (s : State) (t : Nat) : Nat := if (s.retired t).isSome then 1440 else 1536

/-- A run of slabs lies within one tower's slabs. -/
def State.runInTower (s : State) (t first count : Nat) : Bool :=
  decide (1536 * t ≤ first ∧ first + count ≤ 1536 * t + s.towerSlabs t)

/-! The error log (R423). -/

/-- Power n of the primitive element (R416). -/
def alphaPow : Nat → Nat
  | 0 => 1
  | n + 1 => let v := alphaPow n * 2; if 128 ≤ v then Nat.xor v 0x89 else v

/-- S1 and S3 of a syndrome (R417), as ERR_LOG_HI.SYN shows them: S1 in its low 7 bits. -/
def synShown (syn : Nat) : Nat :=
  let bits := (List.range 14).filter fun j => bitOf syn j
  bits.foldl (fun a j => Nat.xor a (alphaPow j)) 0 + 128 * bits.foldl (fun a j => Nat.xor a (alphaPow (3 * j))) 0

/-- Count of the tower's valid entries. -/
def State.logCount (s : State) (t : Nat) : Nat := ((List.range 64).filter fun i => s.on .ERR_LOG_VALID (64 * t + i)).length

/-- Keep ECC_LOGSTAT.COUNT. -/
def State.logRecount (s : State) (t : Nat) : State := s.wr .ECC_LOGSTAT_COUNT t (s.logCount t)

/-- Where a new entry goes: the lowest free slot, or for an uncorrectable one the oldest correctable entry. -/
def State.logSlot (s : State) (t kind : Nat) : Option Nat :=
  match (List.range 64).find? fun i => !s.on .ERR_LOG_VALID (64 * t + i) with
  | some i => some i
  | none =>
    if kind = 3 then
      ((List.range 64).filter fun i => s.rd .ERR_LOG_KIND (64 * t + i) != 3).foldl
        (fun best i => match best with
          | none => some i
          | some b => if s.rd .X_LOG_ORD (64 * t + i) < s.rd .X_LOG_ORD (64 * t + b) then some i else some b) none
    else none

/-- A new log entry (R423): kind 1 single, 2 double, 3 uncorrectable; src is the reader. -/
def logErr (s : State) (A kind src syn : Nat) : State :=
  let t := towerOf A
  match s.logSlot t kind with
  | none => (s.incSat .ECC_LOGSTAT_LOST t 1).set .ECC_LOGSTAT_OVF t
  | some i =>
    let e := 64 * t + i
    let s := s.wr .ERR_LOG_ADDR e A
    let s := s.wr .ERR_LOG_KIND e kind
    let s := s.wr .ERR_LOG_SRC e src
    let s := s.wrB .ERR_LOG_PUN e (s.punAt (slabOf A)).isSome
    let s := s.wrB .ERR_LOG_DLY e (s.dlrAt (slabOf A)).isSome
    let s := s.set .ERR_LOG_VALID e
    let s := s.wr .ERR_LOG_SYN e (synShown syn)
    let s := s.wr .ERR_LOG_EPOCH e s.epochNow
    let s := s.wr .X_LOG_ORD e (s.rd .X_LOG_SEQ t)
    (s.incWrap .X_LOG_SEQ t 1).logRecount t

/-! Words. -/

/-- What a word that nothing has written holds: swept, as R402 leaves it. -/
def blankCode : Code := encodeWord 0 true false

/-- What an unlisted word holds, by its number: swept, or a free value in a slab whose contents were lost and that no sweep or clear has reached
since (R622). -/
def State.towerDflt (s : State) (w : Nat) : Code :=
  let n := nget s.lost 0 (w / 0x800000)
  if n = 0 then blankCode else Config.lostWord n w

def State.getT (s : State) (A : Nat) : Code := nget s.tower (s.towerDflt (A / 8)) (A / 8)
def State.setT (s : State) (A : Nat) (c : Code) : State := { s with tower := nset s.tower (s.towerDflt (A / 8)) (A / 8) c }

/-- The contents of tower t are lost (R622). -/
def towerLost (s : State) (t : Nat) : State :=
  let n := s.freeCtr + 1
  { s with
    freeCtr := n
    tower := s.tower.filter (fun e => e.1 / 0x800000 / 1536 != t)
    lost := (List.range 1536).foldl (fun l i => nset l 0 (1536 * t + i) n) s.lost }

/-- Queue a soft repair of a row (R427), once. -/
def State.queueSoft (s : State) (k : RowKey) : State :=
  if s.on .ECC_CFG_AUTOSOFT k.t && !s.softq.any (·.1 == k) then { s with softq := s.softq ++ [(k, false)] } else s

/-- A bank that nothing has activated. -/
def noAct : BankAct := ⟨none, 0, []⟩

/-- One activation more. -/
def BankAct.add (b : BankAct) (row : Nat) (write : Bool) : BankAct :=
  ⟨some (row, write), b.count + 1, nset b.rows 0 row (nget b.rows 0 row + 1)⟩

/-- A row with its activations among rows in falling order of theirs; of equal counts the one that stands there stays first. -/
def rankRow (e : Nat × Nat) : List (Nat × Nat) → List (Nat × Nat)
  | [] => [e]
  | a :: r => if a.2 < e.2 then e :: a :: r else a :: rankRow e r

/-- The table of a bank (R400): the 8 rows that it has activated most often since its last refresh management. DESIGN CHOICE (log 12): of rows activated equally often the lower numbers. -/
def BankAct.table (b : BankAct) : List Nat := ((b.rows.foldl (fun l e => rankRow e l) []).take 8).map (·.1)

/-- The physical neighbours of the rows of a table (DESIGN CHOICE, log 12: the rows of the next numbers). -/
def neighbours (rows : List Nat) : List Nat := rows.flatMap fun r => (if r = 0 then [] else [r - 1]) ++ (if r + 1 < 2 ^ 17 then [r + 1] else [])

/-- Note an access for refresh management (R400): a row is activated when the bank's last access was to another row or of the other
kind (DESIGN CHOICE, log 12). -/
def State.touch (s : State) (A : Nat) (write : Bool) : State :=
  let l := s.locOf A
  let i := pcI l.t l.c l.pc * 16 + l.bank
  let b := nget s.banks noAct i
  if b.last = some (l.row, write) then s
  else { s with banks := nset s.banks noAct i (b.add l.row write) }

/-- A correctable outcome at A (R421). -/
def countCe (s : State) (A src kind syn : Nat) : State :=
  let l := s.locOf A
  let i := pcI l.t l.c l.pc
  let s := s.incSat .ECC_CECNT_COUNT i 1
  let thr := s.rd .ECC_CFG_CETHR l.t
  let s := if thr ≠ 0 ∧ s.rd .ECC_CECNT_COUNT i = thr ∧ !s.on .X_CE_RAISED i then
      (s.set .X_CE_RAISED i).raise (memSrc l.t l.c l.pc 0) msgLIMIT A
    else s
  if s.on .ECC_CFG_LOGCE l.t then logErr s A kind src syn else s

/-- An uncorrectable outcome at A (R420, R421, R427): the word is poisoned in place. -/
def countUe (s : State) (A src : Nat) (c : Code) : State :=
  let l := s.locOf A
  let s := (s.touch A true).setT A (encodeWord (codeData c) (codeU c) true)
  let s := s.incSat .ECC_UECNT_COUNT l.t 1
  let s := logErr s A 3 src (synOf c)
  (s.raise (memSrc l.t l.c l.pc 1) msgUNCORR A).queueSoft l.key

/-- What a read of a word gives its reader (R419, R420): data, U, poison, and the outcome. -/
structure WordRead where
  data : Word
  u : Bool
  poison : Bool
  code : Code
  dec : Decode
  deriving DecidableEq, Repr

/-- What the reader receives of a word whose code as corrected is c. -/
def wordRead (c : Code) (d : Decode) : WordRead :=
  let p := codeP c || d == .uncorrectable
  ⟨if codeU c && !p then 0 else codeData c, codeU c, p, c, d⟩

/-- Read of a word through the decoder (R417, R420). -/
def readWord (s : State) (src A : Nat) : WordRead × State :=
  let s := s.touch A false
  let c := s.getT A
  let r := decodeWord c
  match r.1 with
  | .clean => (wordRead c .clean, s)
  | .single j => (wordRead r.2 (.single j), countCe s A src 1 (synOf c))
  | .double i j =>
    let s := countCe s A src 2 (synOf c)
    let b := A / 64 * 64
    (wordRead r.2 (.double i j), if s.bursts.contains b then s else { s with bursts := s.bursts ++ [b] })
  | .uncorrectable => (wordRead c .uncorrectable, countUe s A src c)

/-- Write of a whole word (R403, R419): U = 0, P = 0. -/
def writeWord (s : State) (A : Nat) (v : Word) : State := (s.touch A true).setT A (encodeWord v false false)

/-- Merge bytes into a word where the enable bit is set. -/
def mergeWord (old : Word) (new : List Byte) (en : List Bool) : Word :=
  BitVec.ofNat 64 (leNat ((List.range 8).map fun i => if en.getD i false then new.getD i 0 else BitVec.ofNat 8 (old.toNat / 2 ^ (8 * i))))

/-- Write of part of a word: read, merge, write (R404, R419). A poisoned word keeps P. -/
def writePart (s : State) (src A : Nat) (new : List Byte) (en : List Bool) : State :=
  let r := readWord s src A
  let v := mergeWord r.1.data new en
  (r.2.touch A true).setT A (encodeWord v false r.1.poison)

/-- Write aligned whole words. -/
def writeWords (s : State) (A : Nat) (l : List Byte) : State :=
  s.each (List.range ((l.length + 7) / 8)) fun s i => writeWord s (A + 8 * i) (BitVec.ofNat 64 (leNat (sliceBytes l (8 * i) 8)))

/-- Read n bytes from A by a reader: the bytes, whether a word was poisoned, and the damaged words. -/
def readBytes (s : State) (src A n : Nat) : List Byte × List Nat × State :=
  let first := A / 8
  let cnt := (A + n + 7) / 8 - first
  let r := (List.range cnt).foldl (fun (acc : List Byte × List Nat × State) i =>
      let a := (first + i) * 8
      let w := readWord acc.2.2 src a
      (acc.1 ++ leBytes 8 w.1.data.toNat, if w.1.poison then acc.2.1 ++ [a] else acc.2.1, w.2)) ([], [], s)
  (sliceBytes r.1 (A % 8) n, r.2.1, r.2.2)

/-- Sweep count slabs from first: zero data, U = 1, P = 0 (R402, R405). -/
def sweepSlabs (s : State) (first count : Nat) : State :=
  { s with
    tower := s.tower.filter (fun e => !decide (first * 0x800000 ≤ e.1 ∧ e.1 < (first + count) * 0x800000))
    lost := s.lost.filter (fun e => !decide (first ≤ e.1 ∧ e.1 < first + count)) }

/-- A clear of tower t ends: the slabs that it has not reached are swept (R406). -/
def clearEnd (s : State) (t : Nat) : State :=
  let n := s.rd .X_CLR_COUNT t
  let s := sweepSlabs s (s.rd .X_CLR_FIRST t) n
  let s := (s.wr .TWR_CLRSTAT_DONE t n).clr .TWR_CLRSTAT_BUSY t
  (((s.wr .TWR_CLRSTAT_RESULT t 0).clr .X_CLR_COUNT t).clr .X_CLR_FIRST t).clr .X_CLR_ACC t

/-- A clear under way takes n bytes of tower bandwidth (R406): each slab that they complete is swept and counted. -/
def clearWork (s : State) (t n : Nat) : State :=
  if !s.on .TWR_CLRSTAT_BUSY t then s
  else
    let a := s.rd .X_CLR_ACC t + n
    let d := min (s.rd .TWR_CLRSTAT_DONE t + a / 0x4000000) (s.rd .X_CLR_COUNT t)
    if d = s.rd .X_CLR_COUNT t then clearEnd s t
    else ((sweepSlabs s (s.rd .X_CLR_FIRST t) d).wr .TWR_CLRSTAT_DONE t d).wr .X_CLR_ACC t (a % 0x4000000)

/-- Armed fault injection: checker k's next check takes its inverted bits, if any (R559). -/
def takeInj (s : State) (k : Nat) : Option Nat × State :=
  if s.rd .X_INJ_LEFT 0 ≠ 0 ∧ s.rd .X_INJ_CHECKER 0 = k then
    let s1 := s.wr .X_INJ_LEFT 0 (s.rd .X_INJ_LEFT 0 - 1)
    (some (s.rd .X_INJ_BITS 0), if s1.rd .X_INJ_LEFT 0 = 0 then s1.clr .FLT_INJ_BUSY 0 else s1)
  else (none, s)

/-- ADDR of a message from an injectable checker: COLLIDE in bit 46, INJ in bit 47 (R542, R561). -/
def injAddr (a : Nat) (inj collide : Bool) : Nat :=
  a % 2 ^ 46 + (if collide then 2 ^ 46 else 0) + (if inj then 2 ^ 47 else 0)

end Sys2Proof.Machine
end

