-- ==== Sys2Proof/Machine/Press.lean ====
section
/-! DEFINITION. The press: effective ceilings (R13 to R19, R595), records (R365 to R374), punnets (R357 to R364, R380, R388), staging and
admission (R383, R384), path events and EVENT records. -/
namespace Sys2Proof.Machine

/-! Rates and link data. -/

/-- Line rate of a PCIe rate code, in kb/s. -/
def pcieKbps (c : Nat) : Nat := [2500000, 5000000, 8000000, 16000000, 32000000, 64000000, 128000000].getD c 0

/-- Line rate of LRATE, in kb/s (R130). -/
def ethKbps (c : Nat) : Nat := [25781250, 26562500, 53125000, 106250000, 212500000].getD c 0

/-- Line rate of a path, in kb/s. -/
def State.kbps (s : State) (p : Nat) : Nat :=
  match s.linkOf (p / 2) with
  | some L =>
    let pr := s.rd .LINK_CFG_PROTO L
    if pr = 1 ∨ pr = 2 then pcieKbps (s.rd .LNK_PSTAT_RATE L)
    else if pr = 3 then ethKbps (s.rd .LNK_ETH_LRATE L)
    else s.rd .RAW_RATE_KBPS (s.linkFirst L)
  | none => s.rd .RAW_RATE_KBPS (p / 2)

/-- Active lanes of a lane's link: PCIe and CXL by LNK_PSTAT.WIDTH, others by their declared width. -/
def State.activeWidth (s : State) (n : Nat) : Nat :=
  match s.linkOf n with
  | some L =>
    let pr := s.rd .LINK_CFG_PROTO L
    if pr = 1 ∨ pr = 2 then 2 ^ s.rd .LNK_PSTAT_WIDTH L else s.linkWidth L
  | none => 1

/-! Ceilings. -/

/-- Bytes of a tower's capture ceiling in a window of 128 ns (R13, R442): 128 bytes for each GB/s. -/
def State.capCeil (s : State) (t : Nat) : Nat :=
  128 * (if (s.retired t).isSome then (if s.on .TWR_STAT_REF2X t then 2620 else 2760)
    else (if s.on .TWR_STAT_REF2X t then 2800 else 2950))

/-- Bytes of the tower's share of the press power limit in a window (R595): EFF * 59 GB/s * share / 16. -/
def State.powerCeil (s : State) (t : Nat) : Nat :=
  s.rd .PRS_PLIM_EFF 0 * 59 * 8 * (if t = 0 then s.rd .PRS_PLIM_SHARE0 0 else 16 - s.rd .PRS_PLIM_SHARE0 0)

/-- Effective ceiling of a tower (R15), bytes in a window. -/
def State.effCeil (s : State) (t : Nat) : Nat := min (s.capCeil t) (s.powerCeil t)

/-- Bandwidth available in a window: none while a channel is in a CHAN reset, a TSV is swapped, the tower is not active or its clock has
failed (R410, R440, R569). -/
def State.avail (s : State) (t : Nat) : Nat :=
  if s.rd .TWR_STAT_STATE t = 1 ∧ s.rd .X_REP_OP t ≠ 3 ∧ s.clkRuns (16 + t) then s.effCeil t else 0

/-- The press admits records: the device is in SERVICE, and the press is powered and clocked (R29, R408, R569). -/
def State.pressRuns (s : State) : Bool := s.dev == devSERVICE && s.pwrOn 38 && s.clkRuns 20

/-- Tower of a punnet. -/
def State.punTower (s : State) (k : Nat) : Nat := s.rd .PUN_SLAB_FIRST k / 1536

/-- Path p is a replaying SOURCE path: one whose replay has ended replays no more (R392). -/
def State.replaying (s : State) (p : Nat) : Bool := s.mode p == mSOURCE && s.srcSel p == 0 && s.govPath p == p && (nget s.rpl none p).isSome

/-- The tower that a DELAY or replay path loads, with the weight of its line rate (R14). -/
def State.towerLoad (s : State) (p : Nat) : Option (Nat × Nat) :=
  if s.mode p = mDELAY then some (s.rd .DLR_CFG_FIRST p / 1536, 2)
  else if s.replaying p then some (s.punTower (s.rd .RPL_CFG_PUN p), 1)
  else none

/-- Factor of a stream's form in thousandths (R472), at a line rate. At 64 GT/s and above a PCIe or CXL link is in flit mode; below, its present form
counts. -/
def State.formFactor (s : State) (p kbps : Nat) : Nat :=
  let pr := s.protoOf (p / 2)
  let L := (s.linkOf (p / 2)).getD 0
  if pr = 1 ∨ pr = 2 then
    let pam := decide (64000000 ≤ kbps)
    if s.on .STRM_CFG_RAW p then (if pam then 3000 else 6000)
    else if pr = 2 ∧ s.rd .LNK_PSTAT_FMT L = 1 ∧ !pam then 1650
    else if pam ∨ s.on .LNK_PSTAT_FLIT L then 1125
    else if s.on .STRM_CFG_ELIDE p then 6000 else 48000
  else if pr = 3 then
    if s.on .STRM_CFG_RAW p || s.on .STRM_CFG_ETHUNIT p then 6000 else 1340
  else if s.pam4 (p / 2) then 3000 else 6000

/-- Demand of a path on tower t in a window, in millionths of a byte: kb/s * 16 for each direction of a delay line; for a replay the record bytes that it reads (R14). DESIGN CHOICE (log
82): taken at the factor of R472 for the form of the stream that it replays. -/
def State.demandOf (s : State) (t p : Nat) : Nat :=
  match s.towerLoad p with
  | some (u, w) =>
    if u != t then 0
    else if w = 2 then 32 * s.kbps p
    else 16 * s.kbps p * s.activeWidth (p / 2) * s.formFactor (s.rd .RPL_CFG_STREAM p) (s.kbps p) / 1000
  | none => 0

/-! Records. -/

/-- Byte TF (R366). -/
def Rec.tf (r : Rec) : Nat :=
  r.typ + (if r.trunc then 8 else 0) + (if r.raw then 16 else 0) + (if r.epv then 32 else 0) + (if r.more then 64 else 0)
    + (if r.dec then 128 else 0)

/-- Length in bytes, header included. -/
def Rec.size (r : Rec) : Nat := 32 + (r.payload.length + 15) / 16 * 16

/-- The stored record (R365). -/
def Rec.image (r : Rec) (path seq : Nat) : List Byte :=
  let pay := padTo 16 r.payload
  let h := leBytes 1 r.tf ++ leBytes 1 (r.size / 16) ++ leBytes 2 path ++ leBytes 4 seq ++ leBytes 8 r.epoch
    ++ leBytes 6 (if path = 0xFFFF then 0 else r.pos)
  h ++ leBytes 2 (crcOf crc16 h) ++ leBytes 4 (if pay = [] then 0 else crcOf crc32c pay) ++ leBytes 4 0 ++ pay

def tDATA : Nat := 1
def tELIDE : Nat := 2
def tGAP : Nat := 3
def tMARK : Nat := 4
def tEVENT : Nat := 5
def tTRAIN : Nat := 6
def tERROR : Nat := 7

/-- A record other than DATA for the unit at a position with a stamp (R367). -/
def recAt (typ pos stamp : Nat) (valid : Bool) (payload : List Byte) : Rec := ⟨typ, false, false, false, false, valid, stamp, pos, payload, none, none⟩

/-- A record that describes no unit, formed now (R367). -/
def State.recNow (s : State) (typ pos : Nat) (payload : List Byte) : Rec := recAt typ pos s.epochNow s.tbValid payload

/-- Payload of n bytes from its first ones. -/
def payN (n : Nat) (l : List Byte) : List Byte := sliceBytes l 0 n

/-- Bytes of a TLP with its STP token, from the token's first two symbols (R368). PRESUMED (log 95): the Base Specification's length in DWs, in bits [7:4] and [6:0] of them. -/
def stpBytes (b0 b1 : Nat) : Nat := 4 * (b0 / 16 + 16 * (b1 % 128))

/-! Punnets. -/

def pDISABLED : Nat := 0
def pFILL : Nat := 1
def pREADY : Nat := 2
def pPOST : Nat := 3
def pSTOPPED : Nat := 4
def pRUN : Nat := 5

/-- The punnet takes records (R359). -/
def State.punTakes (s : State) (k : Nat) : Bool :=
  let st := s.rd .PUN_STAT_STATE k
  st == pFILL || st == pREADY || st == pPOST || st == pRUN

def State.punBase (s : State) (k : Nat) : Nat := s.rd .PUN_SLAB_FIRST k * slabSize

/-- Bytes of the data area and of the index area (R358). -/
def State.punData (s : State) (k : Nat) : Nat := s.rd .PUN_SLAB_COUNT k * 66977792
def State.punIndex (s : State) (k : Nat) : Nat := s.rd .PUN_SLAB_COUNT k * 131072

def State.punEnc (s : State) (k : Nat) : Bool := s.on .PUN_CFG_ENC k
def State.punKey (s : State) (k : Nat) : Option Nat := nget s.pkeys none k

def State.getEnc (s : State) (i : Nat) : Option EncUnit := nget s.encBuf none i
def State.setEnc (s : State) (i : Nat) (e : Option EncUnit) : State := { s with encBuf := nset s.encBuf none i e }

/-- The capture crypto engine is powered and clocked, and holds the punnet's key. -/
def State.encReady (s : State) (k : Nat) : Bool := (s.punKey k).isSome && s.pwrOn 46 && s.clkRuns 37

/-- Write one data unit encrypted, its unfilled bytes zero (R387, R388). -/
def encWrite (s : State) (k : Nat) (e : EncUnit) : State :=
  match s.punKey k with
  | none => s
  | some key =>
    let a := s.punBase k + 4096 * e.unit
    writeWords s a (xtsEnc key (a / 4096) (payN 4096 e.bytes))

/-- Add bytes within one unit of an encrypted punnet at a byte of it. -/
def encAdd (s : State) (k area unit inOfs : Nat) (l : List Byte) : State :=
  let i := 2 * k + area
  let old := match s.getEnc i with
    | some e => if e.unit = unit then e.bytes else []
    | none => []
  let e : EncUnit := ⟨unit, payN inOfs old ++ l⟩
  if e.bytes.length = 4096 then (encWrite s k e).setEnc i none else s.setEnc i (some e)

/-- Store bytes at a byte of a punnet, in its data (0) or index (1) area; they span two units at most. -/
def punStore (s : State) (k area at_ : Nat) (l : List Byte) : State :=
  if s.punEnc k then
    let room := 4096 - at_ % 4096
    let s := encAdd s k area (at_ / 4096) (at_ % 4096) (l.take room)
    if l.drop room = [] then s else encAdd s k area (at_ / 4096 + 1) 0 (l.drop room)
  else writeWords s (s.punBase k + at_) l

/-- Store record bytes at a data-area offset, wrapping at the end (R360). -/
def punStoreRing (s : State) (k ofs : Nat) (l : List Byte) : State :=
  let room := s.punData k - ofs
  let s := punStore s k 0 ofs (l.take room)
  if l.drop room = [] then s else punStore s k 0 0 (l.drop room)

/-- Drop the oldest records until the rest fits. -/
def dropOld (size : Nat) : List Nat → List Nat → List Nat × Nat
  | _, [] => ([], 0)
  | lens, a :: r => if lens.sum ≤ size then (lens, 0) else
      let x := dropOld size r r
      (x.1, x.2 + a)

/-- The punnet holds records of the given lengths, of which those that no longer lie whole in size bytes before its head are gone: the tail moves past them (R360). -/
def punKeep (s : State) (k size : Nat) (lens : List Nat) : State :=
  let x := dropOld size lens lens
  { s with punLens := nset s.punLens [] k x.1 }.wr .PUN_TAIL_OFS k ((s.rd .PUN_TAIL_OFS k + x.2) % s.punData k)

/-- Move the tail past records that a write of n bytes overwrites (R360). -/
def punTail (s : State) (k n : Nat) : State := punKeep s k (s.punData k) (nget s.punLens [] k ++ [n])

/-- Write the partial units of a punnet; they stay open (R388). The zeros that fill up the unit at a ring's head overwrite its oldest records (R360). -/
def encFlush (s : State) (k : Nat) : State :=
  s.each [2 * k, 2 * k + 1] fun s i =>
    match s.getEnc i with
    | some e =>
      let s := encWrite s k e
      if i % 2 = 0 ∧ !s.on .PUN_CFG_MODE k then punKeep s k (s.punData k - (4096 - e.bytes.length)) (nget s.punLens [] k) else s
    | none => s

/-- Write the index entry of the record at an offset, when its number is due (R380). -/
def punIndexPut (s : State) (k ofs epoch : Nat) (epv : Bool) : State :=
  let j := s.rd .PUN_RECS_COUNT k
  let kk := s.rd .PUN_CFG_IDXK k
  if j % 2 ^ kk = 0 then
    punStore s k 1 (s.punData k + 16 * (j / 2 ^ kk) % s.punIndex k)
      (leBytes 8 epoch ++ leBytes 6 ofs ++ leBytes 1 (1 + if epv then 4 else 0) ++ leBytes 1 kk)
  else s

/-- The punnet stops (R359); an encrypted one writes its partial units (R388). -/
def punStop (s : State) (k : Nat) : State :=
  let s := (s.wr .PUN_STAT_STATE k pSTOPPED).msix 28
  if s.punEnc k then encFlush s k else s

/-- A harvest of punnet k's records ends at its next record: the punnet was disabled or restarted (R460). -/
def hvCut (s : State) (k : Nat) : State :=
  { s with hv := s.hv.map fun e => (e.1, e.2.map fun j => if j.records && j.pun == k then { j with cut := true } else j) }

/-- State changes of a ring punnet after a record of n bytes (R359). -/
def punAdvance (s : State) (k n : Nat) : State :=
  let st := s.rd .PUN_STAT_STATE k
  if st = pFILL then
    let s := s.incSat .X_PUN_SINCE k n
    if s.rd .PUN_PRE_KIB k * 1024 ≤ s.rd .X_PUN_SINCE k then s.wr .PUN_STAT_STATE k pREADY else s
  else if st = pPOST then
    let s := s.incSat .X_PUN_SINCE k n
    if s.rd .PUN_POST_KIB k * 1024 ≤ s.rd .X_PUN_SINCE k then punStop s k else s
  else s

/-- Put one record's bytes into a punnet at its head; a record of a stop-mode punnet fits by now. -/
def punPut (s : State) (k : Nat) (l : List Byte) (epoch : Nat) (epv : Bool) : State :=
  let h := s.rd .PUN_HEAD_OFS k
  let sz := s.punData k
  let n := l.length
  let ring := !s.on .PUN_CFG_MODE k
  let s := if ring then punTail (punStoreRing s k h l) k n else
    let s := punStore s k 0 h l
    { s with punLens := nset s.punLens [] k (nget s.punLens [] k ++ [n]) }
  let s := punIndexPut s k h epoch epv
  let s := s.incWrap .PUN_RECS_COUNT k 1
  if ring then
    let s := s.wr .PUN_HEAD_OFS k ((h + n) % sz)
    if sz ≤ h + n then s.set .PUN_STAT_WRAP k else s
  else s.wr .PUN_HEAD_OFS k (h + n)

/-- n bytes more fit into the punnet (R362); a ring always takes them. -/
def State.punFits (s : State) (k n : Nat) : Bool :=
  !s.on .PUN_CFG_MODE k || decide (s.rd .PUN_HEAD_OFS k + n ≤ s.punData k)

/-- Start of a punnet: at its enable or RESTART (R359, R360, R364). -/
def punStart (s : State) (k : Nat) : State :=
  let s := s.clr .PUN_HEAD_OFS k
  let s := s.clr .PUN_TAIL_OFS k
  let s := s.clr .PUN_RECS_COUNT k
  let s := s.clr .PUN_STAT_DAMAGE k
  let s := s.clr .PUN_STAT_WRAP k
  let s := (s.clr .X_PUN_SINCE k).clr .X_PUN_EDGE k
  let s := { s with punLens := nset s.punLens [] k [] }
  let s := (s.setEnc (2 * k) none).setEnc (2 * k + 1) none
  if s.on .PUN_CFG_MODE k then s.wr .PUN_STAT_STATE k pRUN
  else s.wr .PUN_STAT_STATE k (if s.rd .PUN_PRE_KIB k = 0 then pREADY else pFILL)

/-- A trigger of ring punnet k, whose edge or command has an epoch (R361). The TRIGGER record is written at once and charged to the next
window (R376). -/
def punTrigger (s : State) (k epoch : Nat) (byCmd : Bool) : State :=
  let st := s.rd .PUN_STAT_STATE k
  if st = pFILL then s.set .PUN_STAT_TRIGIGN k
  else if st = pREADY then
    let s := s.wr .PUN_TRIG_EPOCH k epoch
    let s := s.wr .PUN_TRIGOFS_OFS k (s.rd .PUN_HEAD_OFS k)
    let s := (((s.wr .PUN_STAT_STATE k pPOST).clr .X_PUN_SINCE k).clr .X_PUN_EDGE k).msix 28
    let s := if s.pressRuns && (!s.punEnc k || s.encReady k) then
        let r := s.recNow tEVENT 0 (payN 32 ([0x08, 0, 0, 0] ++ leBytes 1 k ++ leBytes 1 (if byCmd then 1 else 0)))
        let s := punPut s k (r.image 0xFFFF (s.rd .X_PUN_SEQ k)) r.epoch r.epv
        let s := s.incWrap .X_PUN_SEQ k 1
        s.setCarry (s.punTower k) (s.getCarry (s.punTower k) - 64)
      else s
    if s.rd .PUN_POST_KIB k = 0 then punStop s k else s
  else s

/-! Staging (R383). -/

/-- Stage records of a stream that stand or fall together. A stopped punnet forms none and counts the unit (R363). -/
def stageRecs (s : State) (p : Nat) (exempt unit : Bool) (recs : List Rec) : State :=
  let k := s.rd .STRM_CFG_PUN p
  if !s.pressRuns || recs = [] then s
  else if !s.punTakes k then (if unit then s.incSat .PUN_DISC_COUNT k 1 else s)
  else
    let t := s.punTower k
    s.setStaged t (s.getStaged t ++ [⟨p, s.rd .STRM_CFG_CLASS p, k, exempt, recs⟩])

/-- Close the open run of elided units (R377): its ELIDE record is formed. -/
def closeRun (s : State) (p : Nat) : State :=
  let st := s.getStrm p
  match st.run with
  | none => s
  | some r =>
    let s := s.setStrm p { st with run := none }
    stageRecs s p false false [⟨tELIDE, false, false, false, false, r.epv, r.epoch, r.pos, payN 16 (leBytes 6 r.count), none, some r.tid⟩]

/-- An EVENT record of a stream whose tap is present and whose capture is on (R374). -/
def eventRec (s : State) (p kind pos : Nat) (bytes : List Byte) : State :=
  if s.on .STRM_CFG_ON p && hasTap (s.mode p) then
    stageRecs s p (kind == 1 || kind == 4) false [s.recNow tEVENT pos (payN 32 (leBytes 4 kind ++ bytes))]
  else s

/-- Bytes 4 to 10 of the CAPON and LINK events (R374). The rate code of a raw link is a value the spec does not state: free. -/
def linkBytes (s : State) (p : Nat) : List Byte × State :=
  let n := p / 2
  let pr := s.protoOf n
  let L := (s.linkOf n).getD 0
  let pcie := pr == 1 || pr == 2
  let (rate, s) := if pcie then (s.rd .LNK_PSTAT_RATE L, s) else if pr = 3 then (s.rd .LNK_ETH_LRATE L, s) else s.freshNat
  let flags := (if pcie && s.on .LNK_PSTAT_FLIT L then 1 else 0) + (if s.on .STRM_CFG_RAW p then 2 else 0)
    + (if s.on .STRM_CFG_ETHUNIT p then 4 else 0) + (if pr == 3 && s.on .LNK_ETH_POSUNIT L then 8 else 0)
    + (if pr == 2 then 16 * s.rd .LNK_PSTAT_FMT L else 0)
  (leBytes 1 pr ++ leBytes 1 rate ++ leBytes 1 (s.activeWidth n) ++ leBytes 1 flags ++ leBytes 2 (s.rd .PATH_POS_GEN p) ++ leBytes 1 n, s)

/-- A path's event source fires (R541, R543): its message, and a PATHEV record while its stream is captured (R374). -/
def pathEvent (s : State) (p kind addr : Nat) : State :=
  let s := s.raise p kind addr
  let g := s.govPath p
  eventRec s g 0x07 (posAdd (s.pos g) 1) (leBytes 4 kind ++ leBytes 6 addr)

/-- A path event of a hardware cause at the next unit (R541). -/
def pathEventNext (s : State) (p kind : Nat) : State := pathEvent s p kind (posAdd (s.pos p) 1)

/-- A link state, rate, width or format change: LINK records in both directions (R374). -/
def linkEvent (s : State) (n : Nat) : State :=
  s.each [2 * s.govLane n, 2 * s.govLane n + 1] fun s p =>
    let x := linkBytes s p
    eventRec x.2 p 0x04 (posAdd (s.pos p) 1) x.1

/-! Admission (R383, R384). -/

/-- A GAP record is due (R384): 32 windows of 128 ns make 4,096 ns. -/
def gapDue (s : State) (t p : Nat) : Bool :=
  let st := s.getStrm p
  decide (0 < st.lostR) && match st.lastGap with
    | none => true
    | some w => decide (32 ≤ (s.rd .X_WINDOW t + 2 ^ 32 - w) % 2 ^ 32)

/-- Give a record its sequence number and note a template's. -/
def takeSeq (s : State) (p : Nat) (r : Rec) : Nat × State :=
  let q := s.rd .STRM_SEQ_SEQ p
  let s := s.incWrap .STRM_SEQ_SEQ p 1
  match r.tdef with
  | none => (q, s)
  | some id => let st := s.getStrm p; (q, s.setStrm p { st with seqs := nset st.seqs 0 id q })

/-- The payload with TSEQ filled in for an ELIDE record (R373). -/
def withTseq (s : State) (p : Nat) (r : Rec) : Rec :=
  match r.tref with
  | none => r
  | some id => { r with payload := payN 6 r.payload ++ leBytes 4 (nget (s.getStrm p).seqs 0 id) ++ leBytes 6 0 }

/-- Write a record of a stream into its punnet. -/
def putRec (k p : Nat) (s : State) (r : Rec) : State :=
  let r := withTseq s p r
  let x := takeSeq s p r
  let l := r.image p x.1
  punAdvance (punPut x.2 k l r.epoch r.epv) k l.length

/-- Write the stream's GAP record before a record (R373, R384). -/
def putGap (s : State) (t k p : Nat) (before : Rec) : State :=
  let st := s.getStrm p
  let g : Rec := s.recNow tGAP before.pos (leBytes 8 st.lostB ++ leBytes 4 st.lostR ++ leBytes 4 st.lostF)
  let s := s.setStrm p { st with lostR := 0, lostB := 0, lostF := 0, lastGap := some (s.rd .X_WINDOW t) }
  putRec k p s g

/-- Drop one record (R378, R383): it takes its SEQ and is counted; a template it held is cleared, and a run on it closes (R377). -/
def dropRec (t p : Nat) (s : State) (r : Rec) : State :=
  let x := takeSeq s p r
  let s := x.2
  let st := s.getStrm p
  let s := s.setStrm p { st with lostR := st.lostR + 1, lostB := st.lostB + r.size, lostF := if st.lostR = 0 then x.1 else st.lostF }
  let s := s.incSat .STRM_LOSTR_COUNT p 1
  let s := s.incSat .STRM_LOSTB_COUNT p (r.size / 16)
  let s := s.incSat .PRS_DROPT_COUNT t 1
  match r.tdef with
  | none => s
  | some id =>
    let s := match (s.getStrm p).run with
      | some e => if e.tid = id then closeRun s p else s
      | none => s
    let st := s.getStrm p
    match st.tmpl with
    | some (_, id') => if id' = id then s.setStrm p { st with tmpl := none } else s
    | none => s

/-- Progress of a window: budget left, once full, a record was dropped, bytes to charge to the next window. -/
structure Adm where
  s : State
  budget : Int
  full : Bool
  dropped : Bool
  excess : Int
  deriving DecidableEq, Repr

/-- Bytes of a staged unit's records. -/
def Staged.bytes (u : Staged) : Nat := (u.recs.map Rec.size).sum

/-- The first record of a staged unit. -/
def Staged.first (u : Staged) : Rec := u.recs.headD ⟨0, false, false, false, false, false, 0, 0, [], none, none⟩

/-- A unit that its stopped punnet does not take (R362, R363). -/
def discardUnit (s : State) (u : Staged) : State :=
  if u.recs.any (·.typ == tDATA) then s.incSat .PUN_DISC_COUNT u.pun 1 else s

/-- Write records of a stream one by one until its punnet stops: the bytes written. A record that does not fit in a stop-mode punnet stops it (R359, R362). DESIGN CHOICE (log 93): the records of
a unit that the stop cuts off take no sequence number, and the unit is not counted in PUN_DISC. -/
def putAll (k p : Nat) : List Rec → State → Nat × State
  | [], s => (0, s)
  | r :: l, s =>
    if !s.punTakes k then (0, s)
    else if !s.punFits k r.size then (0, punStop s k)
    else
      let x := putAll k p l (putRec k p s r)
      (r.size + x.1, x.2)

/-- The stream's GAP record first, when one is due (R384), then a unit's records: the bytes written. -/
def putUnit (t : Nat) (s : State) (u : Staged) (gap : Bool) : Nat × State :=
  if !gap then putAll u.pun u.stream u.recs s
  else if !s.punFits u.pun 48 then (0, punStop s u.pun)
  else
    let x := putAll u.pun u.stream u.recs (putGap s t u.pun u.stream u.first)
    (48 + x.1, x.2)

/-- Admit, or drop, one staged unit (R383). -/
def admitOne (t : Nat) (a : Adm) (u : Staged) : Adm :=
  let k := u.pun
  if !a.s.punTakes k then { a with s := discardUnit a.s u }
  else
    let gap := gapDue a.s t u.stream
    let need := u.bytes + if gap then 48 else 0
    let keyed := !a.s.punEnc k || a.s.encReady k
    if keyed && !a.full && decide ((need : Int) ≤ a.budget) then
      let x := putUnit t a.s u gap
      { a with s := x.2, budget := a.budget - x.1 }
    else if u.exempt && keyed then
      let x := putUnit t a.s u false
      { a with s := if x.1 = 0 then x.2 else x.2.raise 1068 msgLIMIT t, excess := a.excess + x.1 }
    else { a with s := u.recs.foldl (dropRec t u.stream) a.s, full := a.full || keyed, dropped := true }

/-- Admit the staged units by class, the highest first, in order of arrival within a class. -/
def admitAll (t : Nat) (a : Adm) (us : List Staged) : Adm :=
  [3, 2, 1, 0].foldl (fun a c => (us.filter fun u => u.cls == c).foldl (admitOne t) a) a

/-- Running DELAY and replay paths of tower t, ascending. -/
def State.loadPaths (s : State) (t : Nat) (stopped : Bool) : List Nat :=
  (List.range 512).filter fun p =>
    (match s.towerLoad p with | some (u, _) => u == t | none => false) && s.on .X_PATH_STOPPED p == stopped

/-- Their demand in a window, in millionths of a byte. -/
def State.loadDemand (s : State) (t : Nat) : Nat := ((s.loadPaths t false).map (s.demandOf t)).sum

/-- A DELAY path's line is empty from now on. -/
def dlyEmpty (s : State) (p : Nat) : State := { (s.clr .X_DLY_CNT p).clr .X_DLY_LO p with dly := nset s.dly [] p [], dlyHold := nset s.dlyHold [] p [] }

/-- Harvest or BAR2 reads n bytes of tower t: while the press runs they count against what its last window has left (R16, R17, R383). -/
def readCharge (s : State) (t n : Nat) : State := if s.pressRuns then s.wr .X_RD_BYTES t (s.rd .X_RD_BYTES t + n) else s

/-- Bytes that harvest and BAR2 may still read from tower t before the next window (R16, R17). -/
def State.readRoom (s : State) (t : Nat) : Int := s.getCarry t - s.rd .X_RD_BYTES t

end Sys2Proof.Machine
end

