-- ==== Sys2Proof/Machine/Waits.lean ====
section
/-! DEFINITION. Waits in progress (R267 to R272): which awaited condition holds, and its latching. -/
namespace Sys2Proof.Machine

/-- The first true element. -/
def firstTrue : List (Nat × Bool) → Option Nat
  | [] => none
  | (n, b) :: r => if b then some n else firstTrue r

/-- The matcher m of grove g has hit since its count was read. -/
def State.hitsSince (s : State) (m count : Nat) : Bool := s.rd .MATCH_CNT_COUNT m != count

/-- The number of the condition that holds, the lowest of WANY's (R272, R292); 0 for the other waits. -/
def State.condHolds (s : State) (c : WaitCond) : Option Nat :=
  match c with
  | .pos p q => if posReached (s.pos p) q then some 0 else none
  | .epoch t => if s.tbValid && decide (t ≤ s.epochNow) then some 0 else none
  | .hits m n => if s.hitsSince m n then some 0 else none
  | .line i lvl => if s.tl i == lvl then some 0 else none
  | .any tls ms _ pos epoch =>
    firstTrue ([(0, match epoch with | some t => s.tbValid && decide (t ≤ s.epochNow) | none => false),
        (1, match pos with | some (p, q) => posReached (s.pos p) q | none => false)]
      ++ (ms.map fun e => (6 + e.1 % 32, s.hitsSince e.1 e.2))
      ++ ((List.range 64).map fun i => (38 + i, bitOf tls i && s.tl i)))

/-- Latch the outcome of every wait whose condition holds now; a wait whose limit has been reached keeps outcome 0x01 (R267). -/
def pollWaits (s : State) : State :=
  s.each s.waits fun s e =>
    match e.2 with
    | some w =>
      if w.hit.isSome || w.genChanged || w.left == some 0 then s
      else match s.condHolds w.cond with
        | some n => s.setWait e.1 (some { w with hit := some n })
        | none => s
    | none => s

/-- An edge on pin i of grove g's sideband inputs completes a WANY that awaits it (R273, R292). -/
def pollGsb (s : State) (g i : Nat) : State :=
  s.each s.waits fun s e =>
    match e.2 with
    | some w =>
      match w.cond with
      | .any _ _ gsb _ _ =>
        if w.hit.isSome || w.left == some 0 || e.1 / 4 != g || !bitOf gsb i then s else s.setWait e.1 (some { w with hit := some (2 + i) })
      | _ => s
    | none => s

/-- The matchers that a condition awaits. -/
def WaitCond.matchers (c : WaitCond) : List Nat :=
  match c with
  | .hits m _ => [m]
  | .any _ ms _ _ _ => ms.map (·.1)
  | _ => []

/-- The number of the condition that a hit of matcher m fulfils. -/
def WaitCond.number (c : WaitCond) (m : Nat) : Nat :=
  match c with
  | .any _ _ _ _ _ => 6 + m % 32
  | _ => 0

/-- Units decoded whose window a matcher agrees with and whose check is still to come (R268, R323): path, matcher, number of the decoded unit or 2^32 + position of the line unit. -/
def State.undecided (s : State) : List (Nat × Nat × Nat) :=
  (s.items.flatMap fun e => e.2.flatMap fun it => it.cand.map fun c => (e.1, c.1, it.id))
    ++ s.held.flatMap fun e => e.2.flatMap fun u => u.cand.map fun c => (e.1, c.1, 2 ^ 32 + u.pos)

/-- A unit received on path p counts toward the limits it guards (R267, R269). At the limit, a wait for matchers owes their decisions on the units decoded so far (R268). -/
def guardUnit (s : State) (p : Nat) : State :=
  s.each s.waits fun s e =>
    match e.2 with
    | some w =>
      match w.left with
      | some n =>
        if w.guard = p ∧ 0 < n then
          s.setWait e.1 (some { w with left := some (n - 1), owed := if n = 1 then s.undecided.filter fun o => w.cond.matchers.contains o.2.1 else w.owed })
        else s
      | none => s
    | none => s

/-- Decisions that a wait past its limit still owes. -/
def State.owes (s : State) (w : Wait) : Bool := w.owed.any s.undecided.contains

/-- Matcher m hits a unit of path p: a wait that was owed this decision has its outcome 0x00 (R268). -/
def owedHit (s : State) (p m key : Nat) : State :=
  s.each s.waits fun s e =>
    match e.2 with
    | some w =>
      if w.hit.isNone ∧ !w.genChanged ∧ w.owed.contains (p, m, key) then s.setWait e.1 (some { w with hit := some (w.cond.number m) }) else s
    | none => s

/-- The position of path p was set to 0: waits on it see its GEN change (R267). -/
def genWaits (s : State) (p : Nat) : State :=
  s.each s.waits fun s e =>
    match e.2 with
    | some w =>
      match w.cond with
      | .pos q _ => if q = p ∧ w.hit.isNone ∧ w.left ≠ some 0 then s.setWait e.1 (some { w with genChanged := true }) else s
      | _ => s
    | none => s

end Sys2Proof.Machine
end

