-- ==== Sys2Proof/Machine/Trig.lean ====
section
/-! DEFINITION. The trigger fabric (R230 to R234), the timebase (R221 to R229) and the vine (R235 to R247). -/
namespace Sys2Proof.Machine

/-! Lines. -/

/-- Line i rises: its epoch is recorded (R233). A punnet in READY that it triggers takes its first edge, with its epoch; in FILL the edge is ignored (R361). -/
def tlRise (s : State) (i : Nat) : State :=
  let s := (s.wrBit .TL_LVL_LVL 0 i true).wr .TL_LAST_EPOCH i s.epochNow
  s.each (List.range 256) fun s k =>
    if s.on .PUN_CFG_EN k && s.on .PUN_CFG_TLEN k && s.rd .PUN_CFG_TL k == i && !s.on .PUN_CFG_MODE k then
      if s.rd .PUN_STAT_STATE k = pFILL then s.set .PUN_STAT_TRIGIGN k
      else if s.rd .PUN_STAT_STATE k = pREADY ∧ !s.on .X_PUN_EDGE k then (s.set .X_PUN_EDGE k).wr .X_PUN_EDGE_T k s.epochNow
      else s
    else s

/-- The TCLK edge at which what the present cycle's commands do reaches the fabric, as X_TL_SETC and X_TL_CLRC keep it. -/
def State.edge (s : State) : Nat := s.cyc % (2 ^ 32 - 1) + 1

/-- The line collides: a set and a clear of it reach the fabric at one TCLK edge (R232). -/
def tlNote (s : State) (i : Nat) : State := s.wrBit .TL_COLL_COLL 0 i true

/-- The waits that a fall of line i latched at the present edge wait on: the line never fell (R232). -/
def unFell (s : State) (i : Nat) : State :=
  s.each (List.range 64) fun s t =>
    match s.bit .X_TL_FELL i t, s.getWait t with
    | true, some w => s.setWait t (some { w with hit := none })
    | _, _ => s

/-- Set line i: sticky, or a pulse of 8 ns that a further set restarts (R232). After a clear at the same edge, the line is as if never cleared. -/
def tlSet (s : State) (i : Nat) : State :=
  let clash := s.rd .X_TL_CLRC i == s.edge
  let s := s.wr .X_TL_SETC i s.edge
  let s := if s.tl i then s else if clash && s.on .X_TL_WAS i then unFell (s.wrBit .TL_LVL_LVL 0 i true) i else tlRise s i
  let s := if clash then tlNote s i else s
  pollWaits (s.wrB .X_TL_PULSE i (s.on .TL_CFG_PULSE i))

/-- Line i falls. -/
def tlFall (s : State) (i : Nat) : State := pollWaits ((s.wrBit .TL_LVL_LVL 0 i false).clr .X_TL_PULSE i)

/-- The threads whose waits hold in t and not in s, a bit each. -/
def latchedSince (s t : State) : Nat :=
  (List.range 64).foldl (fun n i => match s.getWait i, t.getWait i with
    | some v, some w => if v.hit.isNone && w.hit.isSome then n + 2 ^ i else n
    | _, _ => n) 0

/-- Clear line i; a set at the same edge prevails (R232). A further clear at one edge changes nothing. -/
def tlClr (s : State) (i : Nat) : State :=
  if s.rd .X_TL_SETC i = s.edge then tlNote s i
  else if s.rd .X_TL_CLRC i = s.edge then s
  else
    let t := tlFall ((s.wr .X_TL_CLRC i s.edge).wrB .X_TL_WAS i (s.tl i)) i
    t.wr .X_TL_FELL i (latchedSince s t)

/-- TL_SET of line i by a route; same says that it reaches the fabric in the cycle of the command before. -/
def execTlSet (r : Route) (i : Fin 64) (same : Bool) (s : State) : Host.Outcome State Fault Refusal :=
  liveIn same s fun s => gate r 0x3800108 (fun s => tlSet s i) s

/-- TL_CLR of line i by a route; same says that it reaches the fabric in the cycle of the command before. -/
def execTlClr (r : Route) (i : Fin 64) (same : Bool) (s : State) : Host.Outcome State Fault Refusal :=
  liveIn same s fun s => gate r 0x380010C (fun s => tlClr s i) s

/-- 8 ns after its last set, a pulse line falls (R232). -/
def execTlPulseEnd (i : Fin 64) (s : State) : Host.Outcome State Fault Refusal :=
  live s fun s => if s.on .X_TL_PULSE i then tlFall s i else s

/-! The timebase. -/

/-- The timebase is powered and clocked. -/
def State.tbRuns (s : State) : Bool := decide (devSERVICE ≤ s.dev) && s.pwrOn 50

/-- An EPOCH event on every captured stream (R374): VALID changed, or a step. -/
def epochEvents (s : State) (before after : Nat) : State :=
  s.each (List.range 512) fun s p =>
    if s.on .STRM_CFG_ON p then
      eventRec s p 0x06 (posAdd (s.pos p) 1) (leBytes 1 (s.rd .TB_STAT_VALID 0) ++ leBytes 3 0 ++ leBytes 8 before ++ leBytes 8 after)
    else s

/-- Apply a trigger to its line and note it (R245). -/
def vineAct (s : State) (v : VTrig) (late : Bool) : State :=
  let s := s.wr .VIN_TLAST_T v.vl v.t
  let s := s.wr .VIN_TLAST_ORG_ORIGIN v.vl v.origin
  let s := s.wrB .VIN_TLAST_ORG_LATEO v.vl v.lateO
  let s := if late then (s.set .VIN_TLAST_ORG_LATE v.vl).raise 1058 msgCANCEL v.vl else s
  if v.clear then tlClr s (48 + v.vl) else tlSet s (48 + v.vl)

/-- HELD of VIN_STAT. -/
def vineRecount (s : State) : State := s.wr .VIN_STAT_HELD 0 s.vheld.length

/-- The held triggers whose time the epoch has reached act, oldest first (R245, R225). -/
def vineDue (s : State) : State :=
  if s.tbValid then
    let due := s.vheld.filter fun v => decide (v.t ≤ s.epochNow)
    let s := { s with vheld := s.vheld.filter fun v => !decide (v.t ≤ s.epochNow) }
    vineRecount (due.foldl (fun s v => vineAct s v false) s)
  else s

/-- After the epoch moved: held triggers, then waits. -/
def epochMoved (s : State) : State := pollWaits (vineDue s)

/-- Load the epoch (R225): a step when the value differs. Offsets measured against the old epoch, and a slew toward it, are gone. -/
def epochLoad (s : State) (e : Nat) : State :=
  let old := s.epochNow
  let was := s.tbValid
  let s := { (((s.clr .TB_STAT_SLEW 0).clr .X_SLEW_LEFT 0).clr .X_SLEW_HOLD 0) with vofs := [] }
  let s := (s.wr .TB_EPOCH_EPOCH 0 e).set .TB_STAT_VALID 0
  let s := if was then s else s.endCause 1059
  let s := if old = e % 2 ^ 64 then s else s.incSat .TB_STAT_STEPS 0 1
  let s := if was ∧ old = e % 2 ^ 64 then s else epochEvents s old (e % 2 ^ 64)
  epochMoved s

/-- The epoch source is lost (R224). -/
def epochLose (s : State) : State :=
  let s := (((s.clr .X_TREF_ACQ 0).clr .X_TREF_BAD 0).clr .X_TREF_DIS 0).clr .X_EPF_OK 0
  let s := s.clr .X_EXCH 0
  if s.tbValid then
    let s := ((s.clr .TB_STAT_VALID 0).set .TB_STAT_LOST 0).clr .TB_STAT_SLEW 0
    let s := (s.clr .X_SLEW_LEFT 0).clr .CLK_STAT_TRDY 0
    let s := s.raiseCause 1059 msgLOSS 0
    epochEvents s s.epochNow s.epochNow
  else s

/-- Begin a slew of an offset below 8 ticks (R226): positive when the epoch is behind. -/
def slewBegin (s : State) (ofs : Int) : State :=
  if ofs = 0 then (s.clr .TB_STAT_SLEW 0).clr .X_SLEW_LEFT 0
  else (s.set .TB_STAT_SLEW 0).wr .X_SLEW_LEFT 0 (unsigned 8 ofs)

/-- One tick of slew (R226): the epoch gains a tick, or skips one, so that it never runs backward. -/
def execEpochSlewTick (s : State) : Host.Outcome State Fault Refusal :=
  live s fun s =>
    let o := signed 8 (s.rd .X_SLEW_LEFT 0)
    if !s.tbRuns || !s.tbValid || o = 0 then s
    else
      let s := if 0 < o then s.incWrap .TB_EPOCH_EPOCH 0 1 else s.wr .X_SLEW_HOLD 0 1
      epochMoved (slewBegin s (if 0 < o then o - 1 else o + 1))

/-- One TREF frame at a root (R228, R229): its epoch, and whether sync and CRC are right; late is the age in ticks, at this instant, of the rising edge of
cycle 0 that the epoch names. -/
def execTrefFrame (sync : Bool) (epochBytes : BitVec 64) (crc : BitVec 8) (late : Nat) (s : State) : Host.Outcome State Fault Refusal :=
  live s fun s =>
    if !s.tbRuns || !s.on .VIN_CTL_ROOT 0 then s
    else
      let e := epochBytes.toNat
      let good := sync && crcOf crc8 (leBytes 8 e).reverse == crc.toNat
      if s.tbValid then
        if good then
          let ofs : Int := ((e + late : Nat) : Int) - (s.epochNow : Int)
          let s := s.clr .X_TREF_BAD 0
          if -8 < ofs ∧ ofs < 8 then slewBegin (s.clr .X_TREF_DIS 0) ofs
          else
            let s := s.incSat .X_TREF_DIS 0 1
            if s.rd .X_TREF_DIS 0 = 3 then epochLose s else s
        else
          let s := s.incSat .X_TREF_BAD 0 1
          if s.rd .X_TREF_BAD 0 = 3 then epochLose s else s
      else if good then
        let ok := s.on .X_TREF_ACQ 0 && s.rd .X_TREF_LAST 0 + 800000 == e
        let s := (s.set .X_TREF_ACQ 0).wr .X_TREF_LAST 0 e
        if ok then (epochLoad s (e + late)).set .CLK_STAT_TRDY 0 else s
      else s.clr .X_TREF_ACQ 0

/-- No rising edge of TREF for 100 ns: a root loses its source (R229). -/
def execTrefEdgeLoss (s : State) : Host.Outcome State Fault Refusal :=
  live s fun s => if s.tbRuns && s.on .VIN_CTL_ROOT 0 then epochLose s else s

/-! The vine. -/

/-- Port i is enabled: VP0 unless the node is a root (R235), the up ports by PEN. -/
def State.vpEnabled (s : State) (i : Nat) : Bool :=
  s.pwrOn 47 && s.clkRuns 30 && if i = 0 then s.on .VIN_CTL_P0EN 0 && !s.on .VIN_CTL_ROOT 0 else bitOf (s.rd .VIN_CTL_PEN 0) (i - 1)

def State.vpUp (s : State) (i : Nat) : Bool := s.rd .VIN_PSTAT_STATE i == 2

/-- The up ports that are up. -/
def State.upPorts (s : State) : List Nat := [1, 2, 3].filter s.vpUp

/-- Frame kinds of R237. -/
def fEPOCH : Nat := 0
def fDREQ : Nat := 1
def fDRSP : Nat := 2
def fTRIGUP : Nat := 3
def fTRIG : Nat := 4
def fSTATUS : Nat := 5

/-- Send a frame out of a port. -/
def vineSend (s : State) (i kind : Nat) (ws : List Nat) : State := s.emit (.vine i kind ws)

/-- Words of a trigger frame. On its way up a trigger carries the LATEO that its origin set (R243). -/
def VTrig.up (v : VTrig) : List Nat := [v.origin, v.vl, if v.clear then 1 else 0, v.t, if v.lateO then 1 else 0]
def VTrig.down (v : VTrig) : List Nat := [v.seq, v.origin, v.vl, if v.clear then 1 else 0, v.t, if v.lateO then 1 else 0]

/-- A node takes a trigger that comes down (R245). -/
def vineTake (s : State) (v : VTrig) : State :=
  if s.tbValid && decide (v.t ≤ s.epochNow) then vineAct s v true
  else vineRecount { s with vheld := s.vheld ++ [v] }

/-- The root admits a trigger (R244): next sequence number, TRIG on its up ports; the root is a node of its own. -/
def rootAdmit (s : State) (v : VTrig) : State :=
  let q := (s.rd .VIN_STAT_RSEQ 0 + 1) % 65536
  let v := { v with seq := q }
  let s := s.wr .VIN_STAT_RSEQ 0 q
  let s := s.each s.upPorts fun s i => vineSend s i fTRIG v.down
  vineTake s v

/-- A request reaches the root (R244): it is admitted, or waits while 64 are held. -/
def rootRequest (s : State) (v : VTrig) : State :=
  if s.vheld.length < 64 ∧ s.vwait = [] then rootAdmit s v else { s with vwait := s.vwait ++ [v] }

/-- A trigger is requested at this node (R243): its result code. -/
def vineRequest (s : State) (vl : Nat) (clear : Bool) (t : Nat) : Nat × State :=
  let lat := s.rd .VIN_LATB_TICKS 0
  let late := decide (lat ≠ 0 ∧ t < s.epochNow + lat)
  let v : VTrig := ⟨s.rd .VIN_NODE_ID 0, vl, clear, t, late, 0⟩
  let code := if late then 1 else 0
  if s.on .VIN_CTL_ROOT 0 then (code, rootRequest s v)
  else if s.vpUp 0 then (code, vineSend s 0 fTRIGUP v.up)
  else if s.vreq.length < 4 then (code, { s with vreq := s.vreq ++ [v] })
  else (2, s)

/-- VIN_SEND (R243): GO requests the trigger. -/
def vinSendWrite (s : State) (v : Nat) : State :=
  if bitOf v 5 then
    let x := vineRequest s (bitsOf v 3 0) (bitOf v 4) (s.rd .VIN_SENDT_T 0)
    x.2.wr .VIN_SEND_RESULT 0 x.1
  else s

def execVinSend (r : Route) (vl : Fin 16) (clear : Bool) (s : State) : Host.Outcome State Fault Refusal :=
  live s fun s => gate r 0x600048 (fun s => vinSendWrite s (vl.val + (if clear then 16 else 0) + 32)) s

/-- A port's link comes up, goes down, or is refused for its direction (R235): 0 down, 1 training, 2 up, 3 refused. -/
def execVinePortState (i : Fin 4) (st : Fin 4) (s : State) : Host.Outcome State Fault Refusal :=
  live s fun s =>
    let st := if s.vpEnabled i then st.val else 0
    let s := s.wr .VIN_PSTAT_STATE i st
    if i.val = 0 then
      if st = 2 then
        let s := s.each s.vreq fun s v => vineSend s 0 fTRIGUP v.up
        { s with vreq := [] }
      else if s.on .VIN_CTL_ROOT 0 then s else epochLose s
    else s

/-- Every 100 µs an EPOCH frame leaves each up port (R237, R242). -/
def execVineEpochSend (s : State) : Host.Outcome State Fault Refusal :=
  live s fun s => s.each s.upPorts fun s i =>
    vineSend s i fEPOCH [s.epochNow, s.rd .TB_STAT_VALID 0, s.rd .VIN_NODE_HOPS 0, s.rd .VIN_NODE_ID 0]

/-- Mean of up to 16 integers, rounded toward minus infinity. -/
def meanInt (l : List Int) : Int := if l = [] then 0 else l.foldl (· + ·) 0 / (l.length : Int)

/-- The parent's epoch at the arrival of a frame that left it at epoch e: later by the averaged delay, less the asymmetry (R239). -/
def State.parentNow (s : State) (e : Nat) : Nat := ((e : Int) + meanInt s.vdel - signed 8 (s.rd .VIN_ASYM_ASYM 0)).toNat

/-- Both parts of R242's acquisition have come in: two EPOCH frames with VALID = 1 and 16 exchanges. DEDUCED (log 85): the value loaded is the parent's epoch at this instant, by the
frame that arrives, which left it at epoch e. -/
def vineAcquire (s : State) (e : Nat) : State :=
  if !s.tbValid && decide (2 ≤ s.rd .X_EPF_OK 0 ∧ 16 ≤ s.rd .X_EXCH 0) && s.vpUp 0 then (epochLoad s (s.parentNow e)).set .CLK_STAT_TRDY 0 else s

/-- An EPOCH frame arrives on VP0 (R237, R242): the parent's epoch as the frame left it, its VALID, hop count and node ID. -/
def execVineEpochFrame (epoch : BitVec 64) (valid : Bool) (hops : Nat) (parent : BitVec 16) (s : State) : Host.Outcome State Fault Refusal :=
  live s fun s =>
    if s.on .VIN_CTL_ROOT 0 || !s.vpUp 0 then s
    else if 16 < hops + 1 then epochLose ((s.wr .VIN_PSTAT_STATE 0 3).raise 1058 msgREFUSE (s.rd .VIN_NODE_ID 0))
    else
      let s := (s.wr .VIN_NODE_HOPS 0 (hops + 1)).wr .X_PARENT 0 parent.toNat
      if !valid then epochLose s
      else vineAcquire (s.incSat .X_EPF_OK 0 1) epoch.toNat

/-- No EPOCH frame for 300 µs (R242). -/
def execEpochFrameTimeout (s : State) : Host.Outcome State Fault Refusal :=
  live s fun s => if s.on .VIN_CTL_ROOT 0 then s else epochLose s

/-- Every 1 ms a child sends a DREQ and notes t1 (R237, R239). -/
def execVineDreqSend (s : State) : Host.Outcome State Fault Refusal :=
  live s fun s =>
    if s.on .VIN_CTL_ROOT 0 || !s.vpUp 0 then s
    else
      let q := (s.rd .X_DREQ_SEQ 0 + 1) % 65536
      vineSend ((s.wr .X_DREQ_SEQ 0 q).wr .X_DREQ_T1 0 s.epochNow) 0 fDREQ [q]

/-- A DREQ arrives on an up port (R237, R239): the node answers with t2, its epoch now, and t3, its epoch turn ticks later, when the DRSP leaves. While VALID = 0 the epoch stands
still. -/
def execVineDreq (i : Fin 4) (seq : BitVec 16) (turn : Nat) (s : State) : Host.Outcome State Fault Refusal :=
  live s fun s =>
    if i.val ≠ 0 ∧ s.vpUp i then vineSend s i fDRSP [seq.toNat, s.epochNow, (s.epochNow + if s.tbValid then turn else 0) % 2 ^ 64] else s

/-- Cut to a range of ±127. -/
def sat127 (v : Int) : Int := if v < -127 then -127 else if 127 < v then 127 else v

/-- A DRSP arrives on VP0 at t4 (R239): delay and offset are averaged over the last 16 exchanges, and the offset is slewed or stepped (R226). The stamp t4 is the node's epoch; while VALID = 0
that stands still, and wait says how many ticks of the timebase have passed since t1 (log 85). -/
def execVineDrsp (seq : BitVec 16) (t2 t3 : BitVec 64) (wait : Nat) (s : State) : Host.Outcome State Fault Refusal :=
  live s fun s =>
    if s.on .VIN_CTL_ROOT 0 || !s.vpUp 0 || seq.toNat != s.rd .X_DREQ_SEQ 0 then s
    else
      let t1 : Int := s.rd .X_DREQ_T1 0
      let t2 : Int := t2.toNat
      let t3 : Int := t3.toNat
      let t4 : Int := if s.tbValid then (s.epochNow : Int) else t1 + wait
      let d := ((t4 - t1) - (t3 - t2)) / 2
      let o := ((t2 - t1) - (t4 - t3)) / 2 - signed 8 (s.rd .VIN_ASYM_ASYM 0)
      let ds := (s.vdel ++ [d]).drop (s.vdel.length + 1 - min 16 (s.vdel.length + 1))
      let os := (s.vofs ++ [o]).drop (s.vofs.length + 1 - min 16 (s.vofs.length + 1))
      let s := { s with vdel := ds, vofs := os }
      let s := s.incSat .X_EXCH 0 1
      let mo := meanInt os
      let s := s.wr .VIN_HOPD_DELAY 0 (meanInt ds).toNat
      let s := s.wr .VIN_HOPD_OFS 0 (unsigned 8 (sat127 mo))
      if s.tbValid then
        if -8 < mo ∧ mo < 8 then slewBegin s mo
        else epochLoad s ((s.epochNow : Int) + mo).toNat
      else vineAcquire s t3.toNat

/-- Every 1 ms a node reports up (R237). -/
def execVineStatusSend (s : State) : Host.Outcome State Fault Refusal :=
  live s fun s =>
    if s.on .VIN_CTL_ROOT 0 || !s.vpUp 0 then s
    else vineSend s 0 fSTATUS [s.rd .VIN_NODE_ID 0, s.rd .VIN_NODE_HOPS 0, s.rd .TB_STAT_VALID 0, s.rd .VIN_STAT_MISS 0]

/-- A STATUS frame arrives on an up port: the node below is known to be there; nothing in the registers shows it (R237). -/
def execVineStatusFrame (_i : Fin 4) (_id : BitVec 16) (_hops : Nat) (_valid _miss : Bool) (s : State) : Host.Outcome State Fault Refusal :=
  live s fun s => s

/-- A TRIGUP arrives on an up port (R238, R244): the root takes the request, another node passes it on. -/
def execVineTrigup (i : Fin 4) (origin : BitVec 16) (vl : Fin 16) (clear : Bool) (t : BitVec 64) (lateO : Bool) (s : State) : Host.Outcome State Fault Refusal :=
  live s fun s =>
    let v : VTrig := ⟨origin.toNat, vl, clear, t.toNat, lateO, 0⟩
    if i.val = 0 || !s.vpUp i then s
    else if s.on .VIN_CTL_ROOT 0 then rootRequest s v
    else if s.vpUp 0 then vineSend s 0 fTRIGUP v.up
    else s

/-- A held trigger has passed: the root admits the request that has waited longest (R244). -/
def execRootTriggerAdmit (s : State) : Host.Outcome State Fault Refusal :=
  live s fun s =>
    match s.vwait with
    | v :: r => if s.on .VIN_CTL_ROOT 0 ∧ s.vheld.length < 64 then rootAdmit { s with vwait := r } v else s
    | [] => s

/-- A TRIG arrives on VP0 (R238, R245, R246). -/
def execVineTrig (seq origin : BitVec 16) (vl : Fin 16) (clear : Bool) (t : BitVec 64) (lateO : Bool) (s : State) : Host.Outcome State Fault Refusal :=
  live s fun s =>
    if s.on .VIN_CTL_ROOT 0 || !s.vpUp 0 then s
    else
      let v : VTrig := ⟨origin.toNat, vl, clear, t.toNat, lateO, seq.toNat⟩
      let gap := s.on .X_RSEQ_SEEN 0 && seq.toNat != (s.rd .VIN_STAT_RSEQ 0 + 1) % 65536
      let s := if gap then (s.set .VIN_STAT_MISS 0).raise 1058 msgLOSS (s.rd .VIN_NODE_ID 0) else s
      let s := (s.wr .VIN_STAT_RSEQ 0 seq.toNat).set .X_RSEQ_SEEN 0
      let s := s.each s.upPorts fun s i => vineSend s i fTRIG v.down
      vineTake s v

/-- VINE_TRIGGER_ACT: the epoch reaches the time of held triggers (R245); same says that it does so in the cycle of the command before. -/
def execVineTriggerAct (same : Bool) (s : State) : Host.Outcome State Fault Refusal := liveIn same s vineDue

/-- Write of VIN_CTL (R247). A disabled port goes down; with ROOT = 1, HOPS is 0. -/
def vinCtlSet (s : State) (v : Nat) : State :=
  let was := s.rd .VIN_CTL_ROOT 0
  let s := ((s.wr .VIN_CTL_ROOT 0 (bitsOf v 0 0)).wr .VIN_CTL_PEN 0 (bitsOf v 3 1)).wr .VIN_CTL_P0EN 0 (bitsOf v 4 4)
  let s := if was = bitsOf v 0 0 then s else
    let s := epochLose s
    { (if bitOf v 0 then s.clr .VIN_NODE_HOPS 0 else s) with vdel := [], vofs := [] }
  let s := s.each [0, 1, 2, 3] fun s i => if s.vpEnabled i then s else s.clr .VIN_PSTAT_STATE i
  if s.on .VIN_CTL_ROOT 0 || s.vpUp 0 || !s.tbValid then s else epochLose s

/-- Write of VIN_NODE (R247). -/
def vinNodeSet (s : State) (v : Nat) : State :=
  if s.rd .VIN_NODE_ID 0 = bitsOf v 15 0 then s else epochLose (s.wr .VIN_NODE_ID 0 (bitsOf v 15 0))

/-- VIN_CTL_WRITE (R247): a write of VIN_CTL, or of VIN_NODE. -/
def execVinCtlWrite (r : Route) (node : Bool) (v : DW) (s : State) : Host.Outcome State Fault Refusal :=
  live s fun s =>
    if node then gate r 0x600014 (fun s => vinNodeSet s v.toNat) s
    else gate r 0x600010 (fun s => vinCtlSet s v.toNat) s

end Sys2Proof.Machine
end

