-- ==== Sys2Proof/Machine/Line.lean ====
section
/-! DEFINITION. Line units (R214, R321): the encoding of a path's units, the decoded units that they carry, Ethernet frames read from 66-bit blocks (R368,
R371), checks and classes (R338). -/
namespace Sys2Proof.Machine

/-- PCIe or CXL. -/
def State.pcie (s : State) (n : Nat) : Bool := s.protoOf n == 1 || s.protoOf n == 2

/-- The pairing is of kind R (R68): both paths forward. -/
def State.kindR (s : State) (n : Nat) : Bool := forwards (s.mode (2 * n)) && forwards (s.mode (2 * n + 1))

/-- Path p's transmitter is at electrical idle by its retimed link's state: Detect (R98), L1 and below (R108), L0s in its direction, a lane that the partners
have idled in L0p. -/
def State.linkIdle (s : State) (p : Nat) : Bool :=
  s.pcie (p / 2) && s.kindR (p / 2) && match s.linkOf (p / 2) with
    | some L =>
      let st := s.rd .LNK_PSTAT_STATE L
      st == 0 || decide (6 ≤ st ∧ st ≤ 9) || (st == 5 && s.bit .X_L0S L (p % 2)) || s.on .X_LANE_IDLE (p / 2)
    | none => false

/-- The flit layout that FMT gives (R113). -/
def fmtEnc (fmt : Nat) : Enc := if fmt = 1 then .flit68 else if fmt = 3 then .flitLo else .flit256

/-- The encoding in use on a path (R214, R321): flit mode and FMT, the rate, POSUNIT on a link with RS FEC, the modulation of a raw lane. DESIGN CHOICE (log 112):
without RS FEC POSUNIT = 1 counts 66-bit blocks too (R138). -/
def State.encOf (s : State) (p : Nat) : Enc :=
  match s.linkOf (p / 2) with
  | none => if s.pam4 (p / 2) then .rawPam4 else .rawNrz
  | some L =>
    let pr := s.rd .LINK_CFG_PROTO L
    let rate := s.rd .LNK_PSTAT_RATE L
    let fmt := s.rd .LNK_PSTAT_FMT L
    if pr = 1 ∨ pr = 2 then
      if s.on .LNK_PSTAT_FLIT L || (fmt != 0 && decide (4 ≤ rate)) then fmtEnc fmt else if rate ≤ 1 then .sym8b10b else .block128
    else if pr = 3 then (if s.on .LNK_ETH_POSUNIT L && decide (2 ≤ s.rd .LNK_ETH_FEC L) then .codeword else .block66)
    else if s.pam4 (p / 2) then .rawPam4 else .rawNrz

/-- One flit for all lanes. -/
def Enc.flit (e : Enc) : Bool := e == .flit256 || e == .flitLo || e == .flit68

/-- 66-bit blocks, alone or in codewords. -/
def Enc.eth (e : Enc) : Bool := e == .block66 || e == .codeword

def Enc.raw (e : Enc) : Bool := e == .rawNrz || e == .rawPam4

/-- Bytes of one lane's share of a unit in the layout of R321; of the whole unit for flits. -/
def Enc.laneBytes : Enc → Nat
  | .flit256 | .flitLo => 256
  | .flit68 => 68
  | .block128 => 17
  | .sym8b10b => 2
  | .block66 | .codeword => 9
  | .rawNrz => 8
  | .rawPam4 => 16

/-- CXL traffic is decoded at 32.0 and 64.0 GT/s only; at other rates it is line units undecoded (R114, R115). -/
def State.cxlRaw (s : State) (p : Nat) : Bool :=
  match s.linkOf (p / 2) with
  | some L => s.pcie (p / 2) && s.rd .LNK_PSTAT_FMT L != 0 && s.rd .LNK_PSTAT_RATE L != 4 && s.rd .LNK_PSTAT_RATE L != 5
  | none => false

/-- The protocol and rate of a path, which fix its receive delay (R223): PROTO, with the rate code, LRATE, or RAW_RATE and its modulation. -/
def State.rateKey (s : State) (p : Nat) : Nat :=
  match s.linkOf (p / 2) with
  | some L =>
    let pr := s.rd .LINK_CFG_PROTO L
    if pr = 1 ∨ pr = 2 then pr + 8 * s.rd .LNK_PSTAT_RATE L
    else if pr = 3 then pr + 8 * s.rd .LNK_ETH_LRATE L
    else 8 * (2 * s.kbps p + if s.pam4 (p / 2) then 1 else 0)
  | none => 8 * (2 * s.kbps p + if s.pam4 (p / 2) then 1 else 0)

/-- The stamp of a unit decoded now on path p (R223): the epoch less the fixed receive delay of its protocol and rate. -/
def State.stampOf (s : State) (p : Nat) : Nat := s.epochNow - Config.rxDelay (s.rateKey p)

/-- Invert the bytes of the lanes that satisfy a condition, each lane holding w of them. -/
def invLanes (w : Nat) (f : Nat → Bool) (l : List Byte) : List Byte := l.zipIdx.map fun e => if f (e.2 / w) then ~~~ e.1 else e.1

/-- The bits of a unit as decoded: on raw lanes RXINV inverts what each receiver receives (R164). -/
def State.rxLine (s : State) (p : Nat) (u : RxUnit) : List Byte :=
  let e := s.encOf p
  if e.raw then invLanes e.laneBytes (fun i => s.on .XCVR_CTL_RXINV (rxPort (p + 2 * i))) u.line else u.line

/-- A lane path's transmitter inverts. -/
def State.txInv1 (s : State) (q : Nat) : Nat := if s.on .XCVR_CTL_TXINV (txPort q) then 1 else 0

/-! Checks. -/

/-- A kind of R375 that R338 counts as a failed check. -/
def kindFails (k : Nat) : Bool := k == 1 || k == 3 || k == 4 || k == 5 || k == 6

/-- A failure: kind of R375, lane, byte offset, FEC symbols. -/
abbrev Failure := Nat × Nat × Nat × Nat

def failing (e : Option Failure) : Bool := match e with | some x => kindFails x.1 | none => false

/-- The first failure of two; one that fails its unit before one that does not. -/
def firstFail (a b : Option Failure) : Option Failure := if failing a then a else if failing b then b else a.or b

/-! 66-bit blocks. -/

/-- Block i of a unit's bytes. -/
def blockAt (l : List Byte) (i : Nat) : List Byte := sliceBytes l (9 * i) 9

def blkSync (b : List Byte) : Nat := (b.getD 0 0).toNat % 4
def blkType (b : List Byte) : Nat := (b.getD 1 0).toNat

/-- An all-Idle block: sync bits 1 then 0, type 0x1E, the rest zero. -/
def blkIdle (b : List Byte) : Bool := blkSync b == 1 && blkType b == 0x1E && (b.drop 2).all (· == 0)

/-- An all-Idle block, as bytes. -/
def idleBlock : List Byte := [1, 0x1E, 0, 0, 0, 0, 0, 0, 0]

/-- Data bytes of a terminate block by its type (IEEE 802.3, block types T0 to T7). -/
def blkTerm (b : List Byte) : Option Nat :=
  if blkSync b != 1 then none
  else ([0x87, 0x99, 0xAA, 0xB4, 0xCC, 0xD2, 0xE1, 0xFF] : List Nat).idxOf? (blkType b)

/-- A start block. -/
def blkStart (b : List Byte) : Bool := blkSync b == 1 && blkType b == 0x78

/-- A start block that carries six bytes of 0x55 and the SFD (R371). -/
def blkPreamble (b : List Byte) : Bool := b.drop 2 == [0x55, 0x55, 0x55, 0x55, 0x55, 0x55, 0xD5]

/-- The FCS over a frame's bytes before it. -/
def fcsOf (l : List Byte) : List Byte := leBytes 4 (crcOf crc32 l)

/-- The FCS of a frame checks. -/
def fcsOk (l : List Byte) : Bool := decide (4 ≤ l.length) && l.drop (l.length - 4) == fcsOf (l.take (l.length - 4))

/-! Decoded units. -/

def State.getItems (s : State) (p : Nat) : List Item := nget s.items [] p
def State.setItems (s : State) (p : Nat) (v : List Item) : State := { s with items := nset s.items [] p v }
def State.getHeld (s : State) (p : Nat) : List HeldUnit := nget s.held [] p
def State.setHeld (s : State) (p : Nat) (v : List HeldUnit) : State := { s with held := nset s.held [] p v }

/-- The item that a kind of unit still going on has on a path. -/
def openItem (l : List Item) (k : UKind) : Option Item := l.find? fun it => it.going && it.kind == k

/-- Replace an item by its number. -/
def putItem (l : List Item) (it : Item) : List Item := l.map fun x => if x.id == it.id then it else x

/-- Two lists of window bytes joined copy by copy. -/
def joinWins (a b : List (List Byte)) : List (List Byte) :=
  (List.range (max a.length b.length)).map fun i => a.getD i [] ++ b.getD i []

/-- An ordered set in the form of R368: the EDS token before it, then the copy of each of w active lanes; on 8b/10b each copy with its symbol count. -/
def osForm (e : Enc) (rate eds w : Nat) (wins : List (List Byte)) : List Byte :=
  let lanes := (List.range w).map fun i => wins.getD i []
  if e == .sym8b10b then (lanes.map fun l => leBytes 1 l.length ++ l).flatten
  else
    (if 2 ^ 32 ≤ eds then leBytes 1 1 ++ leBytes 4 eds else [0])
      ++ (lanes.map fun l => leBytes 1 (if 2 ≤ rate ∧ rate ≤ 4 then 1 else 0) ++ payN 16 l).flatten

/-- A TLP, DLLP or symbol of idle in the form of R368: at 128b/130b a TLP has the length that its token names, a DLLP six bytes after its own. -/
def unitForm (e : Enc) (k : ItemKind) (l : List Byte) : List Byte :=
  match k with
  | .tlp => if e == .block128 then payN (stpBytes (l.getD 0 0).toNat (l.getD 1 0).toNat) l else l
  | .dllp => if e == .block128 then payN 8 l else l
  | .idle => [0]
  | _ => l

/-- An electrical idle set: EIOS or EIEOS. -/
def isEi (k : ItemKind) : Bool := k == .ei || k == .eieos

/-- An ordered set of any kind. -/
def isOs (k : ItemKind) : Bool := k == .os || k == .skp || k == .ts || isEi k

/-- Progress of reading one unit: the items, the pieces so far, the next item number, the EDS token in hand, whether the epoch is valid, and the frames that it cuts. -/
structure Intake where
  items : List Item
  pieces : List Piece
  next : Nat
  eds : Nat
  valid : Bool
  cut : List Nat
  deriving DecidableEq, Repr

/-- Add a piece to its item. -/
def Item.add (it : Item) (pc : Piece) (pos stamp : Nat) (valid bad : Bool) : Item :=
  let starts := !it.begun && pc.copies.any (· != [])
  { it with
    wins := joinWins it.wins pc.copies
    form := it.form ++ pc.form
    lead := it.lead + pc.pre.length
    pos := if starts then pos else it.pos
    stamp := if starts then stamp else it.stamp
    valid := if starts then valid else it.valid
    begun := it.begun || starts
    going := !pc.last
    err := firstFail it.err pc.err
    bad := it.bad || bad
    ide := pc.ide.or it.ide }

/-- A decoded unit fails its check: one of its own, or that of a line unit that holds it (R338). -/
def Item.fails (it : Item) : Bool := failing it.err || it.bad

/-- A new item at a unit. -/
def newItem (id : Nat) (k : UKind) (pos stamp : Nat) : Item := ⟨id, k, [], [], pos, stamp, [], [], none, true, false, false, false, 0, none, false⟩

/-- Bytes of a unit at given places. -/
def bytesAt (l : List Byte) (ix : List Nat) : List Byte := ix.map fun i => l.getD i 0

/-- One part of a PCIe or CXL unit (R320, R368). A part that goes on with no unit begun is not known to belong to one and is passed over. -/
def takePart (e : Enc) (rate w : Nat) (dec : List Byte) (uerr : Option Failure) (pos stamp : Nat) (a : Intake) (x : RxPart) : Intake :=
  if x.kind == .eds then { a with eds := 2 ^ 32 + leNat (bytesAt dec (x.copies.headD [])) % 2 ^ 32 }
  else
    let k : UKind := .of x.kind
    let cur := if x.first then some (newItem a.next k pos stamp) else openItem a.items k
    match cur with
    | none => a
    | some it =>
      let copies := x.copies.map (bytesAt dec)
      let form := if isOs x.kind then [] else bytesAt dec (x.pre ++ x.copies.headD [] ++ x.post)
      let own : Option Failure := x.err.map fun k => (k.val, x.errLane.val, x.errOfs, x.syms)
      let pc : Piece := ⟨it.id, k, x.first, x.last, copies, x.copies, x.pre, x.post, form, own, (it.wins.headD []).length, x.ide⟩
      let it' := it.add pc pos stamp a.valid (failing uerr)
      let it' := if !x.last then it' else { it' with form := if isOs x.kind then osForm e rate a.eds w it'.wins else unitForm e x.kind it'.form }
      { items := if x.first then a.items ++ [it'] else putItem a.items it'
        pieces := a.pieces ++ [pc]
        valid := a.valid
        cut := a.cut
        next := if x.first then a.next + 1 else a.next
        eds := if isOs x.kind && x.last then 0 else a.eds }

/-- A frame ends: its length and bytes as recorded (R368), and whether its FCS checks; lane is the lowest local lane of its link (R373). -/
def Item.endFrame (lane : Nat) (it : Item) : Item :=
  let b := it.wins.headD []
  { it with
    form := leBytes 2 b.length ++ b
    err := firstFail it.err (if fcsOk b then none else some (5, lane, 0, 0)) }

/-- The last of the pieces of item id is where it ends. -/
def endPieces (id : Nat) (ps : List Piece) : List Piece :=
  (ps.foldr (fun pc (x : List Piece × Bool) => if !x.2 && pc.item == id then ({ pc with last := true } :: x.1, true) else (pc :: x.1, x.2)) ([], false)).1

/-- The same over the units of a path that carry them, oldest first. -/
def endHeld (id : Nat) (us : List HeldUnit) : List HeldUnit :=
  (us.foldr (fun u (x : List HeldUnit × Bool) =>
    if !x.2 && u.pieces.any (·.item == id) then ({ u with pieces := endPieces id u.pieces } :: x.1, true) else (u :: x.1, x.2)) ([], false)).1

/-- One 66-bit block (R321, R371): it starts a frame, goes on with it, ends it, or stands alone. uerr is the failure of the unit that holds it. -/
def takeBlock (lane : Nat) (l : List Byte) (uerr : Option Failure) (pos stamp : Nat) (a : Intake) (i : Nat) : Intake :=
  let b := blockAt l i
  let all := (List.range 9).map fun j => 9 * i + j
  let piece := fun (it : Item) (first last : Bool) (k : Nat) =>
    let ix := (all.drop (if last then 2 else 1)).take k
    (⟨it.id, .frame, first, last, [bytesAt l ix], [ix], if first then all else [], all.filter fun j => !first && !ix.contains j, [], none, (it.wins.headD []).length, none⟩ : Piece)
  let cut := fun (a : Intake) =>
    match openItem a.items .frame with
    | some it => { a with
        items := putItem a.items { it.endFrame lane with going := false, blocks := true }, pieces := endPieces it.id a.pieces, cut := a.cut ++ [it.id] }
    | none => a
  if blkStart b then
    let a := cut a
    let it := { newItem a.next .frame pos stamp with blocks := !blkPreamble b }
    let pc := piece it true false 0
    { a with items := a.items ++ [it.add pc pos stamp a.valid (failing uerr)], pieces := a.pieces ++ [pc], next := a.next + 1 }
  else match openItem a.items .frame with
    | none => a
    | some it =>
      if blkSync b = 2 then
        let pc := piece it false false 8
        { a with items := putItem a.items (it.add pc pos stamp a.valid (failing uerr)), pieces := a.pieces ++ [pc] }
      else match blkTerm b with
        | some k =>
          let pc := piece it false true k
          let it := (it.add pc pos stamp a.valid (failing uerr)).endFrame lane
          { a with items := putItem a.items { it with blocks := it.blocks || (b.drop (2 + k)).any (· != 0) }, pieces := a.pieces ++ [pc] }
        | none => cut a

/-- Blocks of an Ethernet unit. -/
def blockCount (l : List Byte) : Nat := l.length / 9

/-- The failure that a line unit itself shows: its operand's, or a sync header violation of its block. -/
def unitErr (e : Enc) (line : List Byte) (u : RxUnit) : Option Failure :=
  let own : Option Failure := u.err.map fun k => (k.val, u.errLane.val, u.errOfs, u.syms)
  if e == .block66 && !u.aside && blkSync line != 1 && blkSync line != 2 then firstFail own (some (6, u.errLane.val, 0, u.syms)) else own

/-- Read a unit of path p: the decoded units that it carries go on in the path's items. -/
def State.intake (s : State) (p pos stamp : Nat) (u : RxUnit) (line dec : List Byte) : Intake :=
  let e := s.encOf p
  let a : Intake := ⟨s.getItems p, [], s.rd .X_ITEM p, s.rd .X_EDS p, s.tbValid, []⟩
  let ue := unitErr e line u
  if s.cxlRaw p || e.raw then a
  else if e.eth then (if u.aside then a else (List.range (blockCount line)).foldl (takeBlock (s.govLane (p / 2) % 16) line ue pos stamp) a)
  else u.parts.foldl (takePart e (s.rd .LNK_PSTAT_RATE ((s.linkOf (p / 2)).getD 0)) (s.activeWidth (p / 2)) dec ue pos stamp) a

/-! Classes (R338). -/

/-- Classes of a decoded unit. -/
def UKind.cls : UKind → Nat
  | .frame => 1
  | .of .tlp => 1
  | .of .dllp => 2
  | .of .slot => 16
  | .of .skp => 8
  | .of .idle => 8
  | .of .eds => 0
  | .of _ => 4

/-- Classes of a 66-bit block that carries bytes of the given decoded units. -/
def blockCls (b : List Byte) (ks : List UKind) : Nat :=
  let carried := (ks.map UKind.cls).foldl Nat.lor 0
  if blkSync b = 1 then Nat.lor carried (if blkIdle b then 8 else 4) else if ks = [] then 32 else carried

/-- Classes of a line unit recorded or compared as a whole. -/
def HeldUnit.cls (u : HeldUnit) : Nat :=
  let ks := u.pieces.map (·.kind)
  let carried := (ks.map UKind.cls).foldl Nat.lor 0
  if u.undec then 32 else match u.enc with
  | .rawNrz | .rawPam4 => 32
  | .block66 => blockCls u.line ks
  | .codeword => ((List.range (blockCount u.line)).map fun i => blockCls (blockAt u.line i) ((u.pieces.filter fun pc => pc.touches i).map (·.kind))).foldl Nat.lor 0
  | _ => if carried = 0 then 8 else carried

end Sys2Proof.Machine
end

