-- ==== Sys2Proof/Machine/Inj.lean ====
section
/-! DEFINITION. The injection queue (R342 to R352): entries, their targets, their order at one unit, the outcome log; cancellation of armed
actions (R265). -/
namespace Sys2Proof.Machine

/-- Grove of a path. -/
def gOf (p : Nat) : Nat := p / 32

/-- An accepted action of a path is cancelled (R265): its path event with an address, and the grove's count. -/
def cancelAction (s : State) (p addr : Nat) : State := (pathEvent s p msgCANCEL addr).incSat .SEQ_ACNT_CANCEL (gOf p) 1

/-- An entry's path. -/
def State.injPath (s : State) (e : Nat) : Nat := 32 * (e / 64) + s.rd .INJ_ENT_INFO_PATH e

/-- Entry e waits. -/
def State.injBusy (s : State) (e : Nat) : Bool := s.rd .INJ_ENT_INFO_STATE e != 0

/-- The grove's lowest free entry. -/
def State.injFree (s : State) (g : Nat) : Option Nat :=
  ((List.range 64).map fun i => 64 * g + i).find? fun e => !s.injBusy e

/-- Waiting entries of a grove in acceptance order (R347). -/
def State.injOrder (s : State) (g : Nat) : List Nat :=
  (((List.range 64).map fun i => 64 * g + i).filter s.injBusy).mergeSort fun a b => s.rd .X_INJ_ORD a ≤ s.rd .X_INJ_ORD b

/-- Take an entry (R342): act and fix-up for a local path, its moment, data, source 0 to 31 a matcher, 32 on a thread. -/
def injTake (s : State) (e lp act : Nat) (fix : Bool) (m : Moment) (data src : Nat) : State :=
  let g := e / 64
  let s := s.wr .INJ_ENT_MOMENT e (match m with | .pos p => p | .epoch t => t)
  let s := s.wr .INJ_ENT_INFO_PATH e lp
  let s := s.wr .INJ_ENT_INFO_ACT e act
  let s := s.wrB .INJ_ENT_INFO_FIX e fix
  let s := s.wrB .INJ_ENT_INFO_T e (match m with | .pos _ => false | .epoch _ => true)
  let s := s.wr .INJ_ENT_INFO_STATE e (if src < 32 then 2 else 1)
  let s := s.wr .X_INJ_DATA e data
  let s := s.wr .X_INJ_SRC e src
  let s := s.wr .X_INJ_ORD e (s.rd .X_INJ_SEQ g)
  let s := s.incWrap .X_INJ_SEQ g 1
  let s := ((s.clr .X_INJ_HIT e).clr .X_INJ_REACH e).clr .X_INJ_PASSED e
  s.wr .INJ_STAT_FREE g (s.rd .INJ_STAT_FREE g - 1)

/-- Free an entry. -/
def injRelease (s : State) (e : Nat) : State :=
  (s.wr .INJ_ENT_INFO_STATE e 0).wr .INJ_STAT_FREE (e / 64) (s.rd .INJ_STAT_FREE (e / 64) + 1)

/-- One log record (R350): outcome, entry number or 0x7F, local path, position, source. -/
def injRecord (s : State) (g lp pos outcome ent src : Nat) : State :=
  let i := 64 * g + s.rd .INJ_STAT_WIDX g
  let s := s.wr .INJ_LOG_POS i pos
  let s := s.wr .INJ_LOG_PATH i lp
  let s := s.wr .INJ_LOG_OUTCOME i outcome
  let s := s.wr .INJ_LOG_ENTRY i ent
  let s := s.wr .INJ_LOG_SRC_SOURCE i src
  let s := s.incWrap .INJ_STAT_WIDX g 1
  if s.rd .X_INJ_LOGN g = 64 then s.incSat .INJ_STAT_LOST g 1 else s.incSat .X_INJ_LOGN g 1

def oAPPLIED : Nat := 0
def oLATE : Nat := 1
def oSUPERSEDED : Nat := 2
def oMISSED : Nat := 3
def oCANCELLED : Nat := 4
def oRANGE : Nat := 5
def oFULL : Nat := 6
def oINVALID : Nat := 7

/-- The event of an outcome (R351). -/
def injEvent (s : State) (g lp pos outcome ent : Nat) : State :=
  let p := 32 * g + lp
  if outcome = oSUPERSEDED then s.raise (768 + 8 * g + 5) msgCANCEL ent
  else if outcome = oFULL then s.raise (768 + 8 * g + 5) msgOVERFLOW ent
  else if outcome = oMISSED then pathEvent s p msgCANCEL pos
  else if outcome = oCANCELLED then cancelAction s p pos
  else if outcome = oRANGE ∨ outcome = oINVALID then pathEvent s p msgREFUSE pos
  else s

/-- Log an entry with its event and free it. -/
def injDone (s : State) (e pos outcome : Nat) : State :=
  let g := e / 64
  let lp := s.rd .INJ_ENT_INFO_PATH e
  let s := injRecord s g lp pos outcome (e % 64) (s.rd .X_INJ_SRC e)
  injRelease (injEvent s g lp pos outcome (e % 64)) e

/-- Log a firing that placed nothing (R336, R351). -/
def injNone (s : State) (g lp pos outcome src : Nat) : State :=
  injEvent (injRecord s g lp pos outcome 0x7F src) g lp pos outcome 0x7F

/-- An action that R127 or R141 refuses for the path's protocol and FEC. -/
def State.actRefused (s : State) (p act : Nat) : Bool :=
  let pr := s.protoOf (p / 2)
  if pr = 1 ∨ pr = 2 then act == 6
  else if pr = 3 then act == 6 && s.rd .LNK_ETH_FEC ((s.linkOf (p / 2)).getD 0) == 0
  else decide (3 ≤ act ∧ act ≤ 6)

/-- The entry names a unit that has been reached: by position, or by the unit's stamp (R263). -/
def State.injReached (s : State) (e pos stamp : Nat) : Bool :=
  if s.on .INJ_ENT_INFO_T e then decide (s.rd .INJ_ENT_MOMENT e ≤ stamp) else posReached pos (s.rd .INJ_ENT_MOMENT e % 2 ^ 48)

/-- Entries of the link of path p, in acceptance order: those of its governing path, and bursts on any lane's path (R310). -/
def State.injOf (s : State) (p : Nat) : List Nat :=
  (s.injOrder (gOf p)).filter fun e =>
    let q := s.injPath e
    q == p || (s.rd .INJ_ENT_INFO_ACT e == 7 && (s.linkPaths p).contains q)

/-! The data block (R343). -/

structure InjBlock where
  len : Nat
  ofs : Nat
  kmask : Nat
  bytes : List Byte
  fits : Bool
  deriving DecidableEq, Repr

/-- Read an entry's data block in its grove's data memory, when it fires. -/
def State.injBlock (s : State) (e : Nat) : InjBlock :=
  let g := e / 64
  let d := s.rd .X_INJ_DATA e
  let w := (s.getD g d).toNat
  let len := bitsOf w 15 0
  let words := (List.range ((len + 7) / 8)).map fun i => if d + 1 + i < 4096 then leBytes 8 (s.getD g (d + 1 + i)).toNat else List.replicate 8 0
  ⟨len, bitsOf w 31 16, bitsOf w 47 32, words.flatten.take len, decide (d < 4096 ∧ d + (len + 7) / 8 < 4096)⟩

/-- Replace bytes from ofs. -/
def putBytes (l : List Byte) (ofs : Nat) (b : List Byte) : List Byte := l.take ofs ++ b ++ l.drop (ofs + b.length)

/-- XOR bytes from ofs with masks. -/
def flipBytes (l : List Byte) (ofs : Nat) (m : List Byte) : List Byte :=
  l.take ofs ++ ((l.drop ofs).take m.length).zipWith (· ^^^ ·) m ++ l.drop (ofs + m.length)

/-! The units that leave the stage (R323, R335). -/

/-- A unit on its way out: its bytes as received and as decoded, both altered by what acts on it, what stands for it when it is replaced, whether check fields are formed
anew or corrupted, whether an idle run in it has been taken, and by block in codewords. -/
structure SendUnit where
  u : HeldUnit
  line : List Byte
  dec : List Byte
  sub : Option (List Byte)
  fix : Bool
  corrupt : Bool
  edited : Bool
  used : List Nat
  deriving DecidableEq, Repr

def HeldUnit.send (u : HeldUnit) : SendUnit := ⟨u, u.line, u.dec, none, false, false, false, []⟩

/-- Layout code of a flit. -/
def flitCode (e : Enc) : Nat := if e == .flitLo then 1 else if e == .flit68 then 2 else 0

/-- Its content as it leaves the re-encode stage (R127, R345). -/
def SendUnit.content (x : SendUnit) : List Byte :=
  match x.sub with
  | some l => l
  | none =>
    if x.u.enc.flit && !x.u.aside then
      let n := x.u.enc.laneBytes
      let l := if x.fix then payN n (Config.flitFix (flitCode x.u.enc) x.dec) else x.line
      if x.corrupt then payN n (Config.flitCorrupt (flitCode x.u.enc) l) else l
    else x.line

/-- Change one byte of a unit. -/
def editAt (us : List SendUnit) (f : Byte → Byte) (at_ : Nat × Nat) : List SendUnit :=
  us.modify at_.1 fun x => { x with line := x.line.modify at_.2 f, dec := x.dec.modify at_.2 f, edited := true }

/-- Change bytes at many places. -/
def editAll (us : List SendUnit) (f : Byte → Byte) (l : List (Nat × Nat)) : List SendUnit := l.foldl (fun us a => editAt us f a) us

/-- Mark units. -/
def markUnits (us : List SendUnit) (l : List Nat) (f : SendUnit → SendUnit) : List SendUnit := l.foldl (fun us i => us.modify i f) us

/-! Targets (R334, R342). -/

/-- What an entry acts on: the decoded unit with a number, or block b of the unit at an index (block 0 for a whole unit). -/
inductive Tgt where
  | item (id : Nat)
  | unit (idx block : Nat)
  deriving DecidableEq, Repr

/-- A target in the units: its position, for each of its bytes where its copies lie, where its framing lies, what it is (none: a line unit or block). -/
structure Target where
  pos : Nat
  spots : List (List (Nat × Nat))
  frame : List (Nat × Nat)
  kind : Option UKind
  deriving DecidableEq, Repr

/-- The pieces of an item, each with the index of its unit. -/
def itemPieces (us : List SendUnit) (id : Nat) : List (Nat × Piece) :=
  us.zipIdx.flatMap fun e => (e.1.u.pieces.filter fun pc => pc.item == id).map fun pc => (e.2, pc)

/-- A target, from what the units carry (R320, R321). -/
def targetOf (s : State) (p : Nat) (us : List SendUnit) : Tgt → Option Target
  | .item id =>
    match (s.getItems p).find? fun it => it.id == id with
    | none => none
    | some it =>
      let ps := itemPieces us id
      let n := ((ps.map fun e => e.2.places.length).foldl max 0)
      let copies := (List.range n).map fun c => ps.flatMap fun e => (e.2.places.getD c []).map fun j => (e.1, j)
      let spots := (List.range (copies.headD []).length).map fun k => copies.filterMap fun l => l[k]?
      some ⟨it.pos, spots, ps.flatMap fun e => (e.2.pre ++ e.2.post).map fun j => (e.1, j), some it.kind⟩
  | .unit i b =>
    match us[i]? with
    | none => none
    | some x =>
      let js := if x.u.enc == .codeword then (List.range 9).map fun j => 9 * b + j else List.range x.line.length
      some ⟨x.u.pos, js.map fun j => [(i, j)], [], none⟩

/-- Units that a target lies in. -/
def Target.units (t : Target) : List Nat := ((t.spots.flatten ++ t.frame).map (·.1)).eraseDups

/-- Its bytes, in its first copy. -/
def Target.bytes (t : Target) (us : List SendUnit) : List Byte :=
  t.spots.map fun c => match c with | (i, j) :: _ => (match us[i]? with | some x => x.line.getD j 0 | none => 0) | [] => 0

/-- Its framing bytes. -/
def Target.framing (t : Target) (us : List SendUnit) : List Byte :=
  t.frame.map fun e => match us[e.1]? with | some x => x.line.getD e.2 0 | none => 0

/-- The encoding of the units that a target lies in. -/
def Target.enc (t : Target) (us : List SendUnit) : Enc := match us[t.units.headD 0]? with | some x => x.u.enc | none => .rawNrz

/-- Bytes of the check that ends a decoded unit outside flits: LCRC, DLLP CRC-16, FCS (R345). -/
def checkLen (k : Option UKind) : Nat :=
  match k with
  | some (.of .tlp) => 4
  | some (.of .dllp) => 2
  | some .frame => 4
  | _ => 0

/-- Put bytes at the end of a target. -/
def putCheck (us : List SendUnit) (t : Target) (l : List Byte) : List SendUnit :=
  ((t.spots.drop (t.spots.length - l.length)).zip l).foldl (fun us e => editAll us (fun _ => e.2) e.1) us

/-- Fix-up (R345). -/
def fixUp (us : List SendUnit) (t : Target) : List SendUnit :=
  if (t.enc us).flit then markUnits us t.units fun x => { x with fix := true }
  else
    let b := t.bytes us
    let body := b.take (b.length - checkLen t.kind)
    match t.kind with
    | some (.of .tlp) => putCheck us t (payN 4 (Config.lcrc (t.framing us) body))
    | some (.of .dllp) => putCheck us t (payN 2 (Config.dllpCrc body))
    | some .frame => markUnits (putCheck us t (fcsOf body)) t.units fun x => { x with fix := true }
    | _ => if (t.enc us).eth then markUnits us t.units fun x => { x with fix := true } else us

/-- Corrupt the check (R127, R141): inverted, and the codeword of a frame re-encoded. -/
def corruptCheck (us : List SendUnit) (t : Target) : List SendUnit :=
  if (t.enc us).flit then markUnits us t.units fun x => { x with corrupt := true, edited := true }
  else
    let us := editAll us (fun b => ~~~ b) (t.spots.drop (t.spots.length - checkLen t.kind)).flatten
    if t.kind = some .frame then markUnits us t.units fun x => { x with fix := true } else us

/-- Blocks of a unit that a target lies in. -/
def Target.blocks (t : Target) : List (Nat × Nat) := ((t.spots.flatten ++ t.frame).map fun e => (e.1, e.2 / 9)).eraseDups

/-- Drop (R127, R141): logical idle in place of the symbols, a NOP flit in place of the flit, Idle blocks in place of a frame's. A whole block of PCIe becomes a data block of
logical idle. -/
def dropTarget (us : List SendUnit) (t : Target) : List SendUnit :=
  let e := t.enc us
  if e.flit then markUnits us t.units fun x => { x with sub := some (payN e.laneBytes (Config.nopFlit (flitCode e))), edited := true }
  else if e.eth then
    markUnits (t.blocks.foldl (fun us b => idleBlock.zipIdx.foldl (fun us x => editAt us (fun _ => x.1) (b.1, 9 * b.2 + x.2)) us) us) t.units
      fun x => { x with fix := true }
  else if t.kind.isNone then
    let us := editAll us (fun _ => 0) t.spots.flatten
    if e == .block128 then editAll us (fun _ => 2) ((t.spots.flatten).filter fun x => x.2 % 17 == 0) else us
  else
    let all := t.spots.flatten ++ t.frame
    editAll us (fun _ => 0) (if e == .sym8b10b then all ++ all.map fun x => (x.1, x.2 + 1) else all)

/-! Application (R347, R348). -/

/-- Ranges of bytes meet. -/
def rangesMeet (a al b bl : Nat) : Bool := decide (0 < al ∧ 0 < bl ∧ a < b + bl ∧ b < a + al)

/-- Progress at one target: the state, the units, fix-up wanted, ranges written, anything applied. -/
structure AlterAcc where
  s : State
  us : List SendUnit
  fix : Bool
  done : List (Nat × Nat)
  deriving DecidableEq, Repr

/-- Replace or flip by one entry (R343, R344, R335). On overlapping bytes the later entry prevails: it acts on what the earlier left. -/
def alterOne (p : Nat) (t : Target) (a : AlterAcc) (e : Nat) : AlterAcc :=
  let b := a.s.injBlock e
  if b.len = 0 then { a with s := injDone a.s e t.pos oAPPLIED }
  else if !b.fits || decide (t.spots.length < b.ofs + b.len) then { a with s := injDone a.s e t.pos oRANGE }
  else if b.ofs < a.s.rd .X_INJ_PASSED e then { a with s := injDone a.s e t.pos oMISSED }
  else
    let put := a.s.rd .INJ_ENT_INFO_ACT e == 1
    let us := (((t.spots.drop b.ofs).take b.len).zip b.bytes).foldl (fun us x => editAll us (fun v => if put then x.2 else v ^^^ x.2) x.1) a.us
    let meets := a.done.any fun r => rangesMeet r.1 r.2 b.ofs b.len
    let fix := a.fix || a.s.on .INJ_ENT_INFO_FIX e
    let s := injDone a.s e t.pos oAPPLIED
    let s := if meets then s.raise (768 + 8 * gOf p + 5) msgCANCEL (e % 64) else s
    { s := s, us := us, fix := fix, done := a.done ++ [(b.ofs, b.len)] }

/-- Decoded units that lie whole in the units and have bytes at given places. -/
def itemsAt (us : List SendUnit) (at_ : List (Nat × Nat)) : List Nat :=
  let ids := (at_.flatMap fun x => match us[x.1]? with
    | some y => (y.u.pieces.filter fun pc => pc.all.contains x.2).map (·.item)
    | none => []).eraseDups
  ids.filter fun id => let ps := itemPieces us id; ps.any (·.2.first) && ps.any (·.2.last)

/-- Fix-up of what the entries of a target have altered: of a decoded unit its own check; of a line unit or block outside flits the checks of the decoded units whose bytes lie in what they wrote,
and on Ethernet the codeword (R345). -/
def fixAltered (p : Nat) (a : AlterAcc) (t : Target) : List SendUnit :=
  if t.kind.isSome || (t.enc a.us).flit then fixUp a.us t
  else
    let at_ := a.done.flatMap fun x => ((t.spots.drop x.1).take x.2).flatten
    (itemsAt a.us at_).foldl (fun us id => match targetOf a.s p us (.item id) with
      | some g => fixUp us g
      | none => us) (fixUp a.us t)

/-- Mark entries superseded (R348). -/
def supersede (s : State) (pos : Nat) (es : List Nat) : State := es.foldl (fun s e => injDone s e pos oSUPERSEDED) s

/-- An entry acts on bytes of its target that have already passed the stage (R335, R652), or corrupts a check that its target does not have. -/
def State.tooLate (s : State) (us : List SendUnit) (t : Target) (e : Nat) : Bool :=
  let passed := s.rd .X_INJ_PASSED e
  let act := s.rd .INJ_ENT_INFO_ACT e
  (act == 4 && decide (0 < passed))
    || (act == 3 && !(t.enc us).flit && (checkLen t.kind == 0 || decide (t.spots.length < passed + checkLen t.kind)))

/-- Apply the entries that meet at one target, in the order of R347: a drop supersedes the rest. -/
def applyTarget (p : Nat) (x : State × List SendUnit) (t : Target) (es : List Nat) : State × List SendUnit :=
  let act := fun (e : Nat) => x.1.rd .INJ_ENT_INFO_ACT e
  let missed := es.filter fun e => x.1.tooLate x.2 t e
  let s := missed.foldl (fun s e => injDone s e t.pos oMISSED) x.1
  let es := es.filter fun e => !missed.contains e
  match es.filter fun e => act e == 4 with
  | d :: ds => (supersede (injDone s d t.pos oAPPLIED) t.pos (ds ++ es.filter fun e => act e != 4), dropTarget x.2 t)
  | [] =>
    let a := (es.filter fun e => act e == 1 || act e == 2).foldl (alterOne p t) ⟨s, x.2, false, []⟩
    let us := if a.fix then fixAltered p a t else a.us
    let crc := es.filter fun e => act e == 3
    (crc.foldl (fun s e => injDone s e t.pos oAPPLIED) a.s, if crc = [] then us else corruptCheck us t)

/-- A clean (R140, R348): the codeword that holds the named unit leaves corrected, unless it cannot be corrected; a second clean on it is superseded. -/
def applyClean (p : Nat) (us : List SendUnit) (u : HeldUnit) (s : State) (e : Nat) : State :=
  if s.rd .X_CW_CLEAN p = u.cw + 1 then injDone s e u.pos oSUPERSEDED
  else
    let s := (injDone s e u.pos oAPPLIED).wr .X_CW_CLEAN p (u.cw + 1)
    if (us.map (·.u) ++ s.getHeld p).any fun v => v.cw == u.cw && decide (0 < v.unc) then s else s.emit (.clean p u.pos 1)

/-! Inserts (R127, R344, R349, R651). -/

/-- Bytes of an ordered set that an insert may carry (R344). -/
def setLenOk (e : Enc) (len : Nat) : Bool :=
  match e with
  | .sym8b10b => decide (1 ≤ len ∧ len ≤ 16)
  | .block66 | .codeword => len == 8
  | _ => len == 16

/-- Lanes of a unit. -/
def SendUnit.lanes (x : SendUnit) : Nat := x.line.length / x.u.enc.laneBytes

/-- Places of a unit that a decoded unit other than idle takes. -/
def SendUnit.busy (x : SendUnit) : List Nat := (x.u.pieces.filter fun pc => pc.kind != .of .idle).flatMap Piece.all

/-- Logical idle on every lane. -/
def SendUnit.idle (x : SendUnit) : Bool :=
  x.used == [] && !x.u.aside && x.busy == []
    && (List.range x.lanes).all fun l =>
      let b := sliceBytes x.line (x.u.enc.laneBytes * l) x.u.enc.laneBytes
      if x.u.enc == .block128 then b.headD 0 == 2 && (b.drop 1).all (· == 0) else b.all (· == 0)

/-- The last four symbols of a data block are idle on every lane. -/
def SendUnit.idleTail (x : SendUnit) : Bool :=
  x.used == [] && x.u.enc == .block128
    && (List.range x.lanes).all fun l =>
      x.line.getD (17 * l) 0 == 2 && (List.range 4).all fun j => x.line.getD (17 * l + 13 + j) 1 == 0 && !x.busy.contains (17 * l + 13 + j)

/-- Where an idle run long enough begins: found at an index (and block), begun but not yet whole, none. -/
inductive Run where
  | found (idx block : Nat) | begun | none
  deriving DecidableEq, Repr

/-- Units from an index satisfy conditions in turn: all, as far as units have come, or not. -/
def runFits (us : List SendUnit) (i : Nat) : List (SendUnit → Bool) → Run → Run
  | [], hit => hit
  | f :: r, hit => match us[i]? with
    | .none => .begun
    | some x => if f x then runFits us (i + 1) r hit else .none

/-- The run at index i that a set of len bytes needs. -/
def runAt (us : List SendUnit) (len i : Nat) : Run :=
  match us[i]? with
  | .none => .none
  | some x =>
    if x.u.aside then .none
    else match x.u.enc with
      | .sym8b10b => runFits us i (List.replicate len SendUnit.idle) (.found i 0)
      | .block128 => runFits us i [SendUnit.idleTail, SendUnit.idle, SendUnit.idle] (.found i 0)
      | .block66 | .codeword =>
        match (List.range (blockCount x.line)).find? fun b => blkIdle (blockAt x.line b) && !x.used.contains b with
        | some b => .found i b
        | .none => .none
      | .rawNrz | .rawPam4 => .none
      | .flit68 => .none
      | .flit256 | .flitLo => if x.u.nop && x.used == [] then .found i 0 else .none

/-- The first run at or after an index. -/
def findRun (us : List SendUnit) (len : Nat) : Nat → Nat → Run
  | 0, _ => .none
  | n + 1, i => match runAt us len i with
    | .none => findRun us len n (i + 1)
    | r => r

/-- Put one block of bytes into every lane of a unit. -/
def putLanes (x : SendUnit) (ofs : Nat) (b : List Byte) : SendUnit :=
  let l := (List.range x.lanes).foldl (fun l k => putBytes l (x.u.enc.laneBytes * k + ofs) b) x.line
  { x with line := l, dec := l, edited := true, used := [0] }

/-- A flit of 256 bytes as received whose first sixteen symbols on each of w lanes are those of an ordered set. DESIGN CHOICE (log 96): the set begins at the flit's first symbol, and what it leaves of
the flit goes out as received. -/
def setInFlit (w : Nat) (set l : List Byte) : List Byte :=
  (List.range (16 * w)).foldl (fun l j => l.set j (set.getD (j / w) 0)) (payN 256 l)

/-- Put an ordered set into a run of a link of w lanes (R127, R651). -/
def putSet (us : List SendUnit) (i b rate w : Nat) (set : List Byte) (kmask : Nat) : List SendUnit :=
  match (us[i]?).map fun (x : SendUnit) => x.u.enc with
  | some .sym8b10b =>
    set.zipIdx.foldl (fun us e => us.modify (i + e.2) fun x => putLanes x 0 [e.1, if bitOf kmask e.2 then 1 else 0]) us
  | some .block128 =>
    let us := us.modify i fun x => putLanes x 13 (payN 4 Config.edsToken)
    let us := us.modify (i + 1) fun x => putLanes x 0 (1 :: set)
    us.modify (i + 2) fun x => putLanes x 0 (1 :: payN 16 (Config.sdsSet rate))
  | some .block66 | some .codeword =>
    us.modify i fun x =>
      let l := putBytes x.line (9 * b) (1 :: set)
      { x with line := l, dec := l, edited := true, fix := true, used := b :: x.used }
  | _ => us.modify i fun x => { x with sub := some (setInFlit w set x.line), edited := true, used := [0] }

/-- Rate code of a path's link. -/
def State.rateOf (s : State) (p : Nat) : Nat := s.rd .LNK_PSTAT_RATE ((s.linkOf (p / 2)).getD 0)

/-- The index of the unit that an entry names: the first that it has reached; 0 when one that has left was named. -/
def State.namedAt (s : State) (us : List SendUnit) (e : Nat) : Option Nat :=
  if s.on .X_INJ_REACH e then some 0 else us.findIdx? fun x => !x.u.aside && s.injReached e x.u.pos x.u.stamp

/-- An insert (R344, R348, R349): it takes the first idle run long enough, or waits on. -/
def applyInsert (p : Nat) (x : State × List SendUnit) (e : Nat) : State × List SendUnit :=
  let s := x.1
  match s.namedAt x.2 e with
  | none => x
  | some i =>
    let pos := (x.2[i]?).elim 0 (·.u.pos)
    let npos := if s.on .X_INJ_REACH e then s.rd .X_INJ_NPOS e else pos
    let b := s.injBlock e
    let enc := (x.2[i]?).elim .rawNrz (·.u.enc)
    if b.len = 0 then (injDone s e npos oAPPLIED, x.2)
    else if !b.fits || b.ofs != 0 || !setLenOk enc b.len then (injDone s e npos oRANGE, x.2)
    else
      let wait := ((s.set .X_INJ_REACH e).wr .X_INJ_NPOS e npos, x.2)
      match findRun x.2 b.len (x.2.length - i) i with
      | .found j k =>
        let at_ := (x.2[j]?).elim 0 (·.u.pos)
        if (at_ + 2 ^ 48 - npos) % 2 ^ 48 ≤ 65536 then
          (injDone s e at_ (if at_ = npos then oAPPLIED else oLATE), putSet x.2 j k (s.rateOf p) (s.activeWidth (p / 2)) b.bytes b.kmask)
        else wait
      | _ => wait

/-- An insert is in the middle of a run that may turn out long enough: the units that hold it wait (R651). -/
def State.insertOpen (s : State) (p : Nat) (us : List SendUnit) : Bool :=
  (s.injOf p).any fun e =>
    s.rd .INJ_ENT_INFO_ACT e == 5 &&
      match s.namedAt us e with
      | some i => findRun us (s.injBlock e).len (us.length - i) i == .begun
      | none => false

/-! Targets of entries. -/

/-- The target of an entry of actions 1 to 4 in the units (R334, R342): some none when the rule finds none; none when it is not due. -/
def State.entryTarget (s : State) (p : Nat) (us : List SendUnit) (e : Nat) : Option (Option Tgt) :=
  if s.rd .X_INJ_HIT e = 1 then some (some (.item (s.rd .X_INJ_ITEM e)))
  else if s.rd .X_INJ_HIT e = 2 then
    some ((us.findIdx? fun x => x.u.pos == s.rd .INJ_ENT_MOMENT e && !x.u.aside).map fun i => .unit i (s.rd .X_INJ_BLK e))
  else match s.namedAt us e with
    | none => none
    | some i =>
      match us[i]? with
      | none => none
      | some x =>
        if x.u.enc.flit || x.u.enc.raw then some (some (.unit i 0))
        else
          let starts := fun (pc : Piece) => if x.u.enc.eth then pc.kind == .frame && (s.getItems p).any fun it => it.id == pc.item && it.begun && it.pos == x.u.pos
            else pc.first && (pc.kind == .of .tlp || pc.kind == .of .dllp)
          some ((x.u.pieces.find? starts).map fun pc => .item pc.item)

/-- The position at which an entry is decided when it finds nothing. -/
def State.entryPos (s : State) (us : List SendUnit) (e : Nat) : Nat :=
  match s.namedAt us e with | some i => (us[i]?).elim 0 (·.u.pos) | none => s.rd .INJ_ENT_MOMENT e % 2 ^ 48

/-- Resolve one entry: it joins those with a target, or is missed; one whose decoded unit is cut off by a change of mode is cancelled. -/
def resolve (p : Nat) (us : List SendUnit) (acc : List (Tgt × Nat) × State) (e : Nat) : List (Tgt × Nat) × State :=
  let s := acc.2
  match s.entryTarget p us e with
  | none => acc
  | some none => (acc.1, injDone s e (s.entryPos us e) oMISSED)
  | some (some (.item id)) =>
    if (s.getItems p).any fun it => it.id == id && it.going then (acc.1, injDone s e (s.entryPos us e) oCANCELLED)
    else if (itemPieces us id).isEmpty then (acc.1, injDone s e (s.entryPos us e) oMISSED)
    else (acc.1 ++ [(.item id, e)], s)
  | some (some t) => (acc.1 ++ [(t, e)], s)

/-- Apply every entry that is due in the units that leave (R347): cleans, targets in turn, inserts. -/
def applyEntries (s : State) (p : Nat) (us : List SendUnit) : State × List SendUnit :=
  let es := s.injOf p
  let act := fun (e : Nat) => s.rd .INJ_ENT_INFO_ACT e
  let s1 := (es.filter fun e => act e == 6).foldl (fun s e =>
    match s.namedAt us e with
    | some i => (match us[i]? with | some x => applyClean p us x.u s e | none => s)
    | none => s) s
  let r := (es.filter fun e => decide (1 ≤ act e ∧ act e ≤ 4)).foldl (resolve p us) ([], s1)
  let x := ((r.1.map (·.1)).eraseDups).foldl (fun x t =>
    match targetOf x.1 p x.2 t with
    | some g => applyTarget p x g ((r.1.filter fun h => h.1 == t).map (·.2))
    | none => x) (r.2, us)
  (es.filter fun e => act e == 5).foldl (applyInsert p) x

/-! Bursts (R310). -/

def State.getStrikes (s : State) (q : Nat) : List (Nat × Nat) := nget s.strikes [] q
def State.setStrikes (s : State) (q : Nat) (v : List (Nat × Nat)) : State := { s with strikes := nset s.strikes [] q v }

/-- Line bits of one lane in a unit. A flit's symbols go out in 8b/10b at 2.5 and 5.0 GT/s, in 128b/130b blocks at 8.0 to 32.0 GT/s, and in 1b/1b above (R310). -/
def State.laneBits (s : State) (p : Nat) (u : HeldUnit) : Nat :=
  let w := s.activeWidth (p / 2)
  let L := (s.linkOf (p / 2)).getD 0
  match u.enc with
  | .rawNrz => 64
  | .rawPam4 => 128
  | .block128 => 130
  | .sym8b10b => 10
  | .flit68 => Config.flit68Bits w u.pos
  | .flit256 | .flitLo => if s.rateOf p ≤ 1 then 256 / w * 10 else if s.rateOf p ≤ 4 then 256 / w / 16 * 130 else 2048 / w
  | .block66 => Config.ethBits 0 (s.rd .LNK_ETH_FEC L) w
  | .codeword => Config.ethBits 1 (s.rd .LNK_ETH_FEC L) w

/-- Bursts whose named unit is this one begin: logged when their first bit is struck (R350). -/
def startBursts (s : State) (p : Nat) (u : HeldUnit) : State :=
  if u.aside then s
  else
    ((s.injOf p).filter fun e => s.rd .INJ_ENT_INFO_ACT e == 7 && s.injReached e u.pos u.stamp).foldl (fun s e =>
      let q := s.injPath e
      let d := s.rd .X_INJ_DATA e
      (injDone s e u.pos oAPPLIED).setStrikes q (s.getStrikes q ++ [(bitsOf d 31 16, bitsOf d 15 0)])) s

/-- Invert bits a to a + n - 1 of a byte string, bit 0 of each byte first. -/
def flipBits (l : List Byte) (a n : Nat) : List Byte :=
  (List.range n).foldl (fun l k => l.modify ((a + k) / 8) fun b => b ^^^ BitVec.ofNat 8 (2 ^ ((a + k) % 8))) l

/-- One lane of a unit meets the bursts that run on it: bits skipped, bits struck; what is left runs on into the next unit. On a raw lane the bits are those of its word; on an encoded one
they are line bits. -/
def strikeLane (p bits : Nat) (u : HeldUnit) (x : State × List Byte) (lane : Nat) : State × List Byte :=
  let q := p + 2 * lane
  let bs := x.1.getStrikes q
  if bs = [] then x
  else
    let left := bs.filterMap fun b =>
      let n := min b.2 (bits - b.1)
      if b.2 - n = 0 then none else some (b.1 - bits, b.2 - n)
    bs.foldl (fun x b =>
      let n := min b.2 (bits - b.1)
      if n = 0 then x
      else if u.enc.raw then (x.1, flipBits x.2 (8 * u.enc.laneBytes * lane + b.1) n)
      else (x.1.emit (.strike q u.pos b.1 n), x.2)) (x.1.setStrikes q left, x.2)

/-! Leaving the stage. -/

/-- A unit that path p forwards leaves its transmitter, is discarded while a LOOP path of the lane holds it (R66, R67), or meets a transmitter at electrical idle (R108). -/
def transmit (s : State) (p : Nat) (line : List Byte) (reenc : Bool) : State :=
  if s.mode (revPath p) = mLOOP then s.incSat .PATH_DISC_COUNT p 1
  else if s.linkIdle p then s else s.emit (.tx p line reenc (s.txInv p))

/-- Put bytes in given places of a unit. -/
def putPlaces (l : List Byte) (ix : List Nat) (b : List Byte) : List Byte := (ix.zip b).foldl (fun l a => l.set a.1 a.2) l

/-- The bits of symbol i of a SKP Ordered Set that hold parity fields (R95), by rate code: none in 8b/10b; in 128b/130b, PRESUMED (log 95), the data parity bit of the symbol after SKP_END (0xE1), or the three
parity bits of the one after SKP_END_CTL (0x78). -/
def parityMask (rate : Nat) (l : List Byte) (i : Nat) : Byte :=
  if rate ≤ 1 then 0
  else if rate ≤ 4 then
    match l.findIdx? fun b => b == 0xE1 || b == 0x78 with
    | some j => if i = j + 1 then (if l.getD j 0 = 0xE1 then 0x80 else 0xE0) else 0
    | none => 0
  else Config.skpMask rate i

/-- A SKP Ordered Set's symbols with the parity fields given by another, every other bit as received. -/
def withParity (rate : Nat) (l par : List Byte) : List Byte :=
  l.zipIdx.map fun e => let m := parityMask rate l e.2; (e.1 &&& ~~~ m) ||| (par.getD e.2 0 &&& m)

/-- One piece as a retimer's transmitter sends it (R95): the parity fields of a SKP Ordered Set are those of its own segment, which depend on what it has sent; an electrical idle
set is formed anew. -/
def regenPiece (p : Nat) (x : List Byte × State) (pc : Piece) : List Byte × State :=
  let r := x.2.rateOf p
  if pc.kind = .of .skp then
    pc.places.foldl (fun x ix =>
      let l := bytesAt x.1 ix
      (putPlaces x.1 ix (withParity r l (Config.skpParity r x.2.freeCtr l)), { x.2 with freeCtr := x.2.freeCtr + 1 })) x
  else if pc.kind = .of .ei ∨ pc.kind = .of .eieos then (pc.places.foldl (fun l ix => putPlaces l ix (payN ix.length (Config.eiSet r (bytesAt l ix)))) x.1, x.2)
  else x

/-- A unit as a retimer's transmitter sends it. -/
def regen (s : State) (p : Nat) (retimed : Bool) (u : HeldUnit) (l : List Byte) : List Byte × State :=
  if retimed then u.pieces.foldl (regenPiece p) (l, s) else (l, s)

/-- A unit of training sets of a retimed link: it goes out as R95 alters it, with TRAINING_ORDERED_SET, and not as received. -/
def HeldUnit.training (u : HeldUnit) : Bool := u.pieces.any fun pc => pc.kind == .of .ts

/-- The link of a SPLICE path sends every codeword that can be corrected corrected (R140): those that end in a unit. -/
def State.cleanAll (s : State) (p : Nat) (u : HeldUnit) : Nat :=
  match s.linkOf (p / 2) with
  | some L => if s.protoOf (p / 2) == 3 && s.on .LNK_ETH_CLEANALL L && s.rd .LNK_ETH_FEC L != 0 && !u.aside then u.corr else 0
  | none => 0

/-- Codewords that leave corrected are shown, unless their unit is discarded. -/
def noteClean (s : State) (p : Nat) (u : HeldUnit) : State :=
  if s.cleanAll p u = 0 || s.mode (revPath p) == mLOOP || s.linkIdle p then s else s.emit (.clean p u.pos (s.cleanAll p u))

/-- One unit leaves the stage (R335). A training set that entries have altered leaves as they left it (R127). -/
def sendUnit (p : Nat) (retimed : Bool) (s : State) (x : SendUnit) : State :=
  let s := startBursts s p x.u
  let y := (List.range (s.linkPaths p).length).foldl (strikeLane p (s.laneBits p x.u) x.u) (s, x.content)
  let s := noteClean y.1 p x.u
  if retimed && x.u.training then
    if x.edited then
      let z := regen (s.set .X_TS_CUT p) p retimed x.u y.2
      transmit z.2 p z.1 x.fix
    else s
  else
    let z := regen s p retimed x.u y.2
    transmit z.2 p z.1 x.fix

/-- The injection stage lets the units that it holds pass, altered by their entries (R335, R347). -/
def fireUnits (s : State) (p : Nat) (retimed : Bool) (us : List HeldUnit) : State :=
  let x := applyEntries s p (us.map HeldUnit.send)
  x.2.foldl (sendUnit p retimed) x.1

/-- Cancel waiting entries of path p that satisfy a condition, at a position. -/
def cancelEntries (s : State) (p pos : Nat) (f : State → Nat → Bool) : State :=
  ((s.injOrder (gOf p)).filter fun e => s.injPath e == p && f s e).foldl (fun s e => injDone s e pos oCANCELLED) s

/-- Injection entries of a path that is not in SPLICE at their named unit are cancelled there (R314). -/
def cancelUnspliced (s : State) (p pos stamp : Nat) : State :=
  if s.mode p = mSPLICE then s
  else cancelEntries s p pos fun s e => s.on .X_INJ_HIT e || s.on .X_INJ_REACH e || s.injReached e pos stamp

/-- INSERT_SEARCH_EXPIRE (R349): entry e of grove g has searched 65,536 units. -/
def execInsertSearchExpire (g : Fin 16) (e : Fin 64) (s : State) : Host.Outcome State Fault Refusal :=
  live s fun s =>
    let e := 64 * g.val + e.val
    let q := s.injPath e
    if s.injBusy e && s.rd .INJ_ENT_INFO_ACT e == 5 && s.on .X_INJ_REACH e && decide (65536 ≤ (s.pos q + 2 ^ 48 - s.rd .X_INJ_NPOS e) % 2 ^ 48) then
      injDone s e (s.pos q) oMISSED
    else s

/-- A unit of a SPLICE path that does not pass the injection stage: entries that name it are missed, and an insert searches on from it (R342, R349). -/
def missUnit (s : State) (p pos stamp : Nat) : State :=
  ((s.injOf p).filter fun e => !s.on .X_INJ_HIT e && !s.on .X_INJ_REACH e && s.injReached e pos stamp).foldl (fun s e =>
    if s.rd .INJ_ENT_INFO_ACT e = 5 then (s.set .X_INJ_REACH e).wr .X_INJ_NPOS e pos else injDone s e pos oMISSED) s

/-- An x1 link at 2.5 or 5.0 GT/s, where what lies in earlier units than the one that decides has passed the stage (R652). -/
def State.cutsThrough (s : State) (p : Nat) : Bool :=
  s.pcie (p / 2) && decide (s.rateOf p ≤ 1) && s.activeWidth (p / 2) == 1

/-- The staged unit in which the target of an entry begins. -/
def State.injStart (s : State) (e : Nat) : Option HeldUnit :=
  ((s.getHeld (s.injPath e)).filter fun u => u.staged && !u.aside).find? fun u =>
    if s.rd .X_INJ_HIT e = 1 then u.pieces.any fun pc => pc.item == s.rd .X_INJ_ITEM e
    else if s.rd .X_INJ_HIT e = 2 then u.pos == s.rd .INJ_ENT_MOMENT e
    else s.injReached e u.pos u.stamp

/-- The target of entry e has begun to pass the injection stage (R352): where symbols pass it one by one, its first is followed by a later one. Elsewhere a target passes whole. -/
def State.injBegun (s : State) (e : Nat) : Bool :=
  let p := s.injPath e
  s.cutsThrough p && s.rd .INJ_ENT_INFO_ACT e != 5 && match s.injStart e with
    | some f => (s.getHeld p).any fun u => u.staged && posLater u.pos f.pos
    | none => false

/-- INJ_CMD (R352): a waiting entry whose target has not begun to pass is cancelled. -/
def injCmd (s : State) (g v : Nat) : State :=
  let e := 64 * g + bitsOf v 5 0
  if bitOf v 6 && s.injBusy e && !s.injBegun e then injDone s e (posAdd (s.pos (s.injPath e)) 1) oCANCELLED else s

def execInjCancel (r : Route) (g : Fin 16) (e : Fin 64) (s : State) : Host.Outcome State Fault Refusal :=
  live s fun s => gate r (0x1003704 + g.val * 0x100000) (fun s => injCmd s g (e.val + 64)) s

end Sys2Proof.Machine
end

