-- ==== Sys2Proof/Machine/PunRead.lean ====
section
/-! DEFINITION. Reading punnets back: plaintext of encrypted punnets (R389), the damage mark (R381), replay (R391 to R393). -/
namespace Sys2Proof.Machine

/-- Every word of the 4 KiB unit at A carries U = 1 (R389). -/
def State.unitBlank (s : State) (A : Nat) : Bool :=
  (List.range 512).all fun i => codeU (decodeWord (s.getT (A + 8 * i))).2

/-- Plaintext of one stored data unit: a unit of blank words reads as zero. -/
def State.unitPlain (s : State) (key A : Nat) (l : List Byte) : List Byte :=
  if s.unitBlank A then List.replicate 4096 0 else xtsDec key (A / 4096) l

/-- Read of n bytes at byte at_ of punnet k by a reader, decrypted when the punnet is encrypted and its key is loaded and plain is asked. The
second component lists the poisoned words. -/
def punRead (s : State) (src k at_ n : Nat) (plain : Bool) : List Byte × List Nat × State :=
  let base := s.punBase k
  match if plain && s.punEnc k then s.punKey k else none with
  | none => readBytes s src (base + at_) n
  | some key =>
    let first := at_ / 4096
    let cnt := (at_ + n + 4095) / 4096 - first
    let r := (List.range cnt).foldl (fun (acc : List Byte × List Nat × State) i =>
        let A := base + 4096 * (first + i)
        let x := readBytes acc.2.2 src A 4096
        (acc.1 ++ acc.2.2.unitPlain key A x.1, acc.2.1 ++ x.2.1, x.2.2)) ([], [], s)
    (sliceBytes r.1 (at_ % 4096) n, r.2.1, r.2.2)

/-- Data-area bytes from an offset, wrapping at the end. -/
def punReadRing (s : State) (src k ofs n : Nat) : List Byte × List Nat × State :=
  let room := s.punData k - ofs
  let a := punRead s src k ofs (min n room) true
  if n ≤ room then a
  else
    let b := punRead a.2.2 src k 0 (n - room) true
    (a.1 ++ b.1, a.2.1 ++ b.2.1, b.2.2)

/-! The damage mark. -/

/-- Stored bytes of an index entry, as the press holds or stored them. -/
def State.indexEntry (s : State) (k e : Nat) : List Byte :=
  let at_ := s.punData k + 16 * e % s.punIndex k
  match s.punKey k with
  | some key =>
    if s.punEnc k then
      match s.getEnc (2 * k + 1) with
      | some b =>
        if b.unit = at_ / 4096 then sliceBytes b.bytes (at_ % 4096) 16
        else
          let A := s.punBase k + at_ / 4096 * 4096
          sliceBytes (s.unitPlain key A (readBytes s 1 A 4096).1) (at_ % 4096) 16
      | none =>
        let A := s.punBase k + at_ / 4096 * 4096
        sliceBytes (s.unitPlain key A (readBytes s 1 A 4096).1) (at_ % 4096) 16
    else (readBytes s 1 (s.punBase k + at_) 16).1
  | none => (readBytes s 1 (s.punBase k + at_) 16).1

/-- Bytes l with byte i replaced. -/
def setByte (l : List Byte) (i : Nat) (b : Byte) : List Byte := l.set i b

/-- Set DAMAGE in an index entry. -/
def markEntry (s : State) (k e : Nat) : State :=
  let at_ := s.punData k + 16 * e % s.punIndex k
  let ent := s.indexEntry k e
  let ent' := setByte ent 14 (ent.getD 14 0 ||| 2)
  if s.punEnc k then
    match s.getEnc (2 * k + 1), s.punKey k with
    | some b, key =>
      if b.unit = at_ / 4096 then
        s.setEnc (2 * k + 1) (some ⟨b.unit, payN (at_ % 4096) b.bytes ++ ent' ++ b.bytes.drop (at_ % 4096 + 16)⟩)
      else match key with
        | some key =>
          let A := s.punBase k + at_ / 4096 * 4096
          let pl := s.unitPlain key A (readBytes s 1 A 4096).1
          writeWords s A (xtsEnc key (A / 4096) (payN (at_ % 4096) pl ++ ent' ++ pl.drop (at_ % 4096 + 16)))
        | none => s
    | none, some key =>
      let A := s.punBase k + at_ / 4096 * 4096
      let pl := s.unitPlain key A (readBytes s 1 A 4096).1
      writeWords s A (xtsEnc key (A / 4096) (payN (at_ % 4096) pl ++ ent' ++ pl.drop (at_ % 4096 + 16)))
    | none, none => s
  else writeWords s (s.punBase k + at_) ent'

/-- Index entries from number e down, n of them at most: the first whose offset, counted back from the head, is at or before a word's. -/
def findEntry (s : State) (k w : Nat) : Nat → Nat → Option Nat
  | 0, _ => none
  | n + 1, e =>
    let ofs := leNat (sliceBytes (s.indexEntry k e) 8 6)
    let sz := s.punData k
    let back := fun x => (s.rd .PUN_HEAD_OFS k + sz - x - 1) % sz
    if back w ≤ back ofs then some e else (if e = 0 then none else findEntry s k w n (e - 1))

/-- The scrubber poisoned the word at A in an enabled punnet's data area (R381, R426). -/
def punDamage (s : State) (A : Nat) : State :=
  match s.punAt (slabOf A) with
  | none => s
  | some k =>
    let w := A - s.punBase k
    if w < s.punData k then
      let s := s.incSat .PUN_STAT_DAMAGE k 1
      let r := s.rd .PUN_RECS_COUNT k
      if r = 0 then s
      else
        let e := (r - 1) / 2 ^ s.rd .PUN_CFG_IDXK k
        match findEntry s k w (min (e + 1) (s.punIndex k / 16)) e with
        | some e => markEntry s k e
        | none => s
    else s

/-! Replay. -/

def State.getRpl (s : State) (p : Nat) : Option RplSt := nget s.rpl none p
def State.setRpl (s : State) (p : Nat) (v : Option RplSt) : State := { s with rpl := nset s.rpl none p v }

/-- Bytes 4 to 10 of a CAPON record for path p's link as it stands (R374), by which a replay reads payloads before it has met the stream's own. -/
def State.linkForm (s : State) (p : Nat) : List Byte :=
  let n := p / 2
  let pr := s.protoOf n
  let L := (s.linkOf n).getD 0
  let pcie := pr == 1 || pr == 2
  leBytes 1 pr ++ leBytes 1 (if pcie then s.rd .LNK_PSTAT_RATE L else 0) ++ leBytes 1 (s.activeWidth n)
    ++ leBytes 1 ((if pcie && s.on .LNK_PSTAT_FLIT L then 1 else 0) + (if pr == 3 && s.on .LNK_ETH_POSUNIT L then 8 else 0) + (if pr == 2 then 16 * s.rd .LNK_PSTAT_FMT L else 0))

/-- A payload without the zero bytes at its end. -/
def stripZeros (l : List Byte) : Nat := l.length - (l.reverse.takeWhile (· == 0)).length

/-- Length of the unit that a payload holds (R368, R379), by bytes 4 to 10 of its stream's last CAPON or LINK record and RAW: the STP token, the fixed DLLP, idle, flit and block sizes, the count bytes and END or EDB of 8b/10b, the length of a frame. pam: a raw lane is PAM4. -/
def unitLen (f : List Byte) (raw pam : Bool) (l : List Byte) : Nat :=
  let pr := (f.getD 0 0).toNat
  let rate := (f.getD 1 0).toNat
  let w := (f.getD 2 0).toNat
  let flags := (f.getD 3 0).toNat
  let b0 := (l.getD 0 0).toNat
  let fmt := bitsOf flags 5 4
  let flit := bitOf flags 0 || (fmt != 0 && decide (4 ≤ rate))
  let os := 1 + (if b0 = 1 then 4 else 0) + 17 * w
  if pr = 0 then (if pam then 16 else 8) * w
  else if pr = 3 then
    if raw ∨ bitOf flags 2 then (if raw ∧ bitOf flags 3 then 720 else 9)
    else
      let n := 2 + leNat (l.take 2)
      if (n + 15) / 16 * 16 = l.length then n else 9
  else if flit then
    if fmt = 1 then (if l.length = 80 ∧ (2 ≤ b0 ∨ l.getD 68 0 = 0) then 68 else min os l.length)
    else if l.length = 256 then 256 else min os l.length
  else if raw then (if rate ≤ 1 then 2 * w else 17 * w)
  else if l.length = 16 ∧ b0 = 0 then 1
  else if rate ≤ 1 then
    if b0 = 0x5C then 8 else if b0 = 0xFB then stripZeros l else w * (1 + b0)
  else if b0 % 16 = 15 then min l.length (stpBytes b0 (l.getD 1 0).toNat)
  else if b0 = 0xF0 then 8
  else os

/-- A record of a stream as a replay's search reads it: its length and bytes. The search reads nothing through the decoder, for it sends nothing: the records that it passes were sent before. -/
def State.recAtOfs (s : State) (k ofs : Nat) : Nat × List Byte :=
  let h := (punReadRing s 1 k ofs 32).1
  let len := 16 * (h.getD 1 0).toNat
  (len, (punReadRing s 1 k ofs (max 32 len)).1)

/-- What a record gives the replay of a stream: the unit of a DATA record that is whole, as a template; the form that a CAPON or LINK record names. -/
def RplSt.note (r : RplSt) (pam : Bool) (h pay : List Byte) : RplSt :=
  let b := (h.getD 0 0).toNat
  let kind := leNat (sliceBytes pay 0 4)
  if b % 8 = tEVENT ∧ (kind = 1 ∨ kind = 4) then { r with form := sliceBytes pay 4 7 }
  else if b % 8 = tDATA ∧ !bitOf b 3 then
    if bitOf b 6 then { r with parts := r.parts ++ pay }
    else
      let u := r.parts ++ pay
      { r with parts := [], tmpls := nset r.tmpls [] (leNat (sliceBytes h 4 4)) (u.take (unitLen r.form (bitOf b 4) pam u)) }
  else r

/-- The records of a stream from r's offset to an offset: what they leave a replay that starts there (R391, R377). -/
def rplSeek (s : State) (p stop : Nat) : Nat → RplSt → RplSt
  | 0, r => r
  | n + 1, r =>
    if r.ofs = stop then r
    else
      let k := s.rd .RPL_CFG_PUN p
      let x := s.recAtOfs k r.ofs
      let next := fun d => if s.on .PUN_CFG_MODE k then r.ofs + d else (r.ofs + d) % s.punData k
      if x.1 < 32 then rplSeek s p stop n { r with ofs := next 16 }
      else
        let r' := if leNat (sliceBytes x.2 2 2) = s.rd .RPL_CFG_STREAM p then r.note (s.pam4 (p / 2)) x.2 (x.2.drop 32) else r
        rplSeek s p stop n { r' with ofs := next x.1 }

/-- Start point of a path's replay: the tail, or the trigger record (R391). -/
def State.rplStart (s : State) (p : Nat) : RplSt :=
  let k := s.rd .RPL_CFG_PUN p
  let r : RplSt := ⟨s.rd .PUN_TAIL_OFS k, 0, 0, [], [], none, [], s.linkForm p⟩
  if s.on .RPL_CFG_FROMTRIG p then { rplSeek s p (s.rd .PUN_TRIGOFS_OFS k) (s.punData k / 16) r with ofs := s.rd .PUN_TRIGOFS_OFS k, parts := [] } else r

/-- SEQ of the first record of the replayed stream from an offset on; none: there is none before the head. -/
def rplFirst (s : State) (p : Nat) : Nat → Nat → Option Nat
  | 0, _ => none
  | n + 1, ofs =>
    let k := s.rd .RPL_CFG_PUN p
    if ofs = s.rd .PUN_HEAD_OFS k then none
    else
      let h := (punReadRing s 1 k ofs 32).1
      let len := 16 * (h.getD 1 0).toNat
      if 32 ≤ len ∧ leNat (sliceBytes h 2 2) = s.rd .RPL_CFG_STREAM p then some (leNat (sliceBytes h 4 4))
      else
        let d := if len < 32 then 16 else len
        rplFirst s p n (if s.on .PUN_CFG_MODE k then ofs + d else (ofs + d) % s.punData k)

/-- A replay stands at its start point; RPL_NEXT shows the first SEQ that it is to send (R392). -/
def rplRestart (s : State) (p : Nat) : State :=
  let r := s.rplStart p
  match rplFirst s p (s.punData (s.rd .RPL_CFG_PUN p) / 16) r.ofs with
  | some q => (s.setRpl p (some r)).wr .RPL_NEXT_SEQ p q
  | none => s.setRpl p (some r)

/-- A path begins to replay. -/
def rplBegin (s : State) (p : Nat) : State := (rplRestart s p).clr .RPL_STAT_DONE p

/-- A replay reaches its end (R392): again from its start point, or electrical idle. -/
def rplEnd (s : State) (p : Nat) : State :=
  if s.on .RPL_CFG_LOOP p then rplRestart s p
  else ((s.setRpl p none).set .RPL_STAT_DONE p).emit (.txIdle p)

/-- What a replaying path sends: nothing while a LOOP path of its lane claims the transmitter (R82), where a unit is counted as discarded. -/
def rplSend (s : State) (p : Nat) (o : Out) (unit : Bool) : State :=
  if s.mode (revPath p) = mLOOP then (if unit then s.incSat .PATH_DISC_COUNT p 1 else s) else s.emit o

/-- A replayed unit, with the polarity of its transmitters (R164). -/
def rplUnit (s : State) (p : Nat) (u : List Byte) : State :=
  rplSend s p (.tx p u true (s.txInv p)) true

/-- Filler between replayed units. -/
def rplFill (s : State) (p : Nat) : State := rplSend s p (s.txOut p (.txFiller p [] false)) false

/-- Bytes that a replay reads in its tower (R14). -/
def rplCharge (s : State) (p n : Nat) : State :=
  let t := s.punTower (s.rd .RPL_CFG_PUN p)
  s.wr .X_DLY_BYTES t (s.rd .X_DLY_BYTES t + n)

/-- Walk the records from the replay's offset until a unit, filler or the end is due; n bounds the walk in granules. Records of other streams and
other types are skipped; a length byte of 0 or 1 is no record, and the walk goes on at the next granule. RPL_NEXT shows the SEQ after a record once the last unit of it has been sent. DESIGN CHOICE (log 94): for
an ELIDE record whose template no record that the walk has met gives, filler is sent for its units. -/
def rplWalk (p : Nat) : Nat → RplSt → State → State
  | 0, _, s => rplEnd s p
  | n + 1, r, s =>
    let k := s.rd .RPL_CFG_PUN p
    let sz := s.punData k
    if r.ofs = s.rd .PUN_HEAD_OFS k then
      if s.rd .PUN_STAT_STATE k = pSTOPPED then rplEnd s p
      else rplFill (s.setRpl p (some r)) p
    else
      let x := punReadRing s 1 k r.ofs 32
      let h := x.1
      let s := rplCharge x.2.2 p 32
      let s := if x.2.1 = [] then s else pathEventNext s p msgUNCORR
      let len := 16 * (h.getD 1 0).toNat
      let typ := (h.getD 0 0).toNat % 8
      let seq := leNat (sliceBytes h 4 4)
      let pos := leNat (sliceBytes h 16 6)
      let next := fun d => if s.on .PUN_CFG_MODE k then r.ofs + d else (r.ofs + d) % sz
      if len < 32 then rplWalk p n { r with ofs := next 16 } s
      else if leNat (sliceBytes h 2 2) ≠ s.rd .RPL_CFG_STREAM p then rplWalk p n { r with ofs := next len } s
      else
        let gap := match r.last with
          | none => 0
          | some (q, q') => if seq = (q + 1) % 2 ^ 32 then 0 else (pos + 2 ^ 48 - q') % 2 ^ 48
        if 0 < gap then
          rplFill ((s.setRpl p (some { r with fill := gap - 1, last := some ((seq + 2 ^ 32 - 1) % 2 ^ 32, pos), parts := [] })).wr .RPL_NEXT_SEQ p seq) p
        else
          let x := punReadRing s 1 k (next 32) (len - 32)
          let s := rplCharge x.2.2 p (len - 32)
          let s := if x.2.1 = [] then s else pathEventNext s p msgUNCORR
          if typ = tDATA ∧ bitOf (h.getD 0 0).toNat 3 then
            rplEnd (pathEventNext ((s.wr .RPL_NEXT_SEQ p seq).set .RPL_STAT_TRUNCSTOP p) p msgSTATE) p
          else
            let r := { r.note (s.pam4 (p / 2)) h x.1 with ofs := next len, last := some (seq, pos) }
            let done := s.wr .RPL_NEXT_SEQ p (seq + 1)
            if typ = tDATA then
              if bitOf (h.getD 0 0).toNat 6 then rplWalk p n r s else rplUnit (done.setRpl p (some r)) p (nget r.tmpls [] seq)
            else if typ = tELIDE then
              let cnt := leNat (sliceBytes x.1 0 6)
              let u := nget r.tmpls [] (leNat (sliceBytes x.1 6 4))
              let s := if cnt ≤ 1 then done else s
              if cnt = 0 then rplWalk p n r s
              else if u = [] then rplFill ((if cnt = 1 then s else done).setRpl p (some { r with fill := cnt - 1 })) p
              else rplUnit (s.setRpl p (some { r with elide := cnt - 1, elUnit := u })) p u
            else rplWalk p n r done

/-- One unit time of a replaying SOURCE path (R391). -/
def rplStep (s : State) (p : Nat) : State :=
  if !s.replaying p || s.on .X_PATH_STOPPED p then s
  else match s.getRpl p with
    | none => s
    | some r =>
      if 0 < r.fill then rplFill (s.setRpl p (some { r with fill := r.fill - 1 })) p
      else if 0 < r.elide then
        let s := match r.last with
          | some (q, _) => if r.elide = 1 then s.wr .RPL_NEXT_SEQ p (q + 1) else s
          | none => s
        rplUnit (s.setRpl p (some { r with elide := r.elide - 1 })) p r.elUnit
      else
        let k := s.rd .RPL_CFG_PUN p
        if s.on .PUN_CFG_EN k then rplWalk p (s.punData k / 16 + 1) r s else s

end Sys2Proof.Machine
end

