-- ==== Sys2Proof/Machine/Capture.lean ====
section
/-! DEFINITION. Capture of streams (R303 to R306, R332, R333, R353 to R355), punnet and replay registers (R357 to R364, R391 to R393), and the
press's own instants. -/
namespace Sys2Proof.Machine

/-- The mode that an action naming a moment is checked against (R313): the pending mode when its change is named in the same kind of moment, at
an earlier one; else the mode in force. -/
def State.modeAt (s : State) (p : Nat) (m : Moment) : Nat :=
  match s.pendChg p, m with
  | some ⟨t, .named (.pos q)⟩, .pos r => if posLater r q then t else s.mode p
  | some ⟨t, .named (.epoch a)⟩, .epoch b => if a < b then t else s.mode p
  | some ⟨t, .fromDark (some (.pos q))⟩, .pos r => if posLater r q then t else s.mode p
  | some ⟨t, .fromDark (some (.epoch a))⟩, .epoch b => if a < b then t else s.mode p
  | _, _ => s.mode p

/-- Code 0x05 (R262): the named moment is not later than the present one. -/
def State.momentPast (s : State) (p : Nat) (m : Moment) : Bool :=
  match m with
  | .pos q => !posLater q (s.pos p)
  | .epoch e => decide (e ≤ s.epochNow)

/-- Grove unavailable (R76, code 0x07): the device is not in SERVICE, or the quadrant reference is absent. -/
def State.groveAway (s : State) (p : Nat) : Bool := s.dev != devSERVICE || s.quadAbsent (gOf p)

/-- PEND of a stream. -/
def pendCount (s : State) (p : Nat) : State := s.wr .STRM_CFG_PEND p (s.getStrm p).pend.length

/-- Acceptance of a capture action (R303 to R306, R355): its code, and the state with the action pending. -/
def capAccept (s : State) (p : Nat) (m : Moment) (kind : CapKind) (cause src : Nat) : Nat × State :=
  let st := s.getStrm p
  if !s.on .PUN_CFG_EN (s.rd .STRM_CFG_PUN p) then (2, s)
  else if s.govPath p ≠ p then (4, s)
  else if s.momentPast p m then (5, s)
  else if 4 ≤ st.pend.length then (6, s)
  else if s.groveAway p then (7, s)
  else if !hasTap (s.modeAt p m) then (0x0B, s)
  else (0, pendCount (s.setStrm p { st with pend := st.pend ++ [⟨kind, m, cause, src⟩] }) p)

/-- Capture turns on at the unit at a position (R355, R374). -/
def capOn (s : State) (p pos : Nat) : State :=
  if s.on .STRM_CFG_ON p then s
  else
    let s := (s.set .STRM_CFG_ON p).wr .X_CAP_FROM p pos
    let x := linkBytes s p
    eventRec x.2 p 0x01 pos x.1

/-- Capture turns off at the unit at a position, by a cause: 0 instruction, 1 matcher, 2 host, 3 DARK (R374, R377). -/
def capOff (s : State) (p pos cause : Nat) : State :=
  if s.on .STRM_CFG_ON p then (eventRec (closeRun s p) p 0x02 pos (leBytes 1 cause)).clr .STRM_CFG_ON p
  else s

/-- A capture action's unit has come. -/
def CapAct.due (a : CapAct) (pos stamp : Nat) : Bool :=
  match a.at_ with
  | .pos q => posReached pos q
  | .epoch e => decide (e ≤ stamp)

/-- Carry out an action that switches capture; a MARK waits for R333. -/
def capDo (p pos : Nat) (s : State) (a : CapAct) : State :=
  match a.kind with
  | .on => capOn s p pos
  | .off => capOff s p pos a.cause
  | .mark _ => s

/-- Write the MARK record of a CAPMARK, with the stamp of its unit (R367), when capture is on (R333, R373). -/
def capMark (p pos stamp : Nat) (valid : Bool) (s : State) (a : CapAct) : State :=
  match a.kind with
  | .mark v =>
    if s.on .STRM_CFG_ON p && hasTap (s.mode p) then
      stageRecs s p false false [recAt tMARK pos stamp valid (payN 16 (leBytes 4 v ++ leBytes 1 (0x20 + a.src)))]
    else s
  | _ => s

/-- Capture actions of programs whose path has no tap at their unit are cancelled there (R314). -/
def capCancelUntapped (s : State) (p pos stamp : Nat) : State :=
  let st := s.getStrm p
  let due := st.pend.filter (·.due pos stamp)
  if hasTap (s.mode p) || due = [] then s
  else due.foldl (fun s _ => cancelAction s p pos) (pendCount (s.setStrm p { st with pend := st.pend.filter fun a => !a.due pos stamp }) p)

/-- Capture switches due at the unit at a position (R333): the matchers' first, off before on, then the program's and host's, then marks. A matcher
whose path has no tap there notes it (R332). -/
def applyCaps (s : State) (p pos stamp : Nat) (valid : Bool) : State :=
  let st := s.getStrm p
  let mdue := st.mpend.filter (·.due pos stamp)
  let s := if mdue = [] then s else
    let s := s.setStrm p { st with mpend := st.mpend.filter fun a => !a.due pos stamp }
    if hasTap (s.mode p) then
      if mdue.any (·.kind == .off) then capOff s p pos 1 else capOn s p pos
    else mdue.foldl (fun s a => s.set .MATCH_STAT_ACTSKIP a.src) s
  let s := capCancelUntapped s p pos stamp
  let st := s.getStrm p
  let due := st.pend.filter (·.due pos stamp)
  if due = [] then s
  else
    let s := pendCount (s.setStrm p { st with pend := st.pend.filter fun a => !a.due pos stamp }) p
    due.foldl (capMark p pos stamp valid) (due.foldl (capDo p pos) s)

/-! STRM registers. -/

/-- The stream's SEQ restarts, when its punnet or class changes (R378). -/
def strmAssign (s : State) (p pun cls : Nat) : State :=
  if s.rd .STRM_CFG_PUN p = pun ∧ s.rd .STRM_CFG_CLASS p = cls then s
  else ((s.wr .STRM_CFG_PUN p pun).wr .STRM_CFG_CLASS p cls).clr .STRM_SEQ_SEQ p

/-- Capture of the stream is on or an action of R305 is pending on it. -/
def State.strmBusy (s : State) (p : Nat) : Bool := s.on .STRM_CFG_ON p || decide ((s.getStrm p).pend ≠ [])

/-- Write of STRM_CFG (R354): PUN and CLASS are ignored, with CFGERR, while capture is on or pending, whatever they hold; the other fields are settings of their own. -/
def strmCfgSet (s : State) (p v : Nat) : State :=
  let s := s.w1c .STRM_CFG_CFGERR p (bitsOf v 20 20)
  let pun := bitsOf v 7 0
  let cls := bitsOf v 9 8
  let s := if s.strmBusy p then s.set .STRM_CFG_CFGERR p else strmAssign s p pun cls
  let s := if bitOf v 10 then s else closeRun s p
  (((s.wr .STRM_CFG_ELIDE p (bitsOf v 10 10)).wr .STRM_CFG_RAW p (bitsOf v 11 11)).wr .STRM_CFG_ETHUNIT p (bitsOf v 12 12)).wr .STRM_CFG_IDE p (bitsOf v 13 13)

def execStrmCfgWrite (r : Route) (p : Fin 512) (v : DW) (s : State) : Host.Outcome State Fault Refusal :=
  live s fun s => gate r (0x3010000 + 16 * p.val) (fun s => strmCfgSet s p v.toNat) s

/-- STRM_CMD (R355): ON and OFF take effect 64 units on; both together are refused with 0x09. -/
def strmCmd (s : State) (v : Nat) : State :=
  let p := bitsOf v 8 0
  if bitOf v 9 && bitOf v 10 then s.wr .STRM_CMD_RESULT 0 9
  else if bitOf v 9 || bitOf v 10 then
    let x := capAccept s p (.pos (posAdd (s.pos p) 64)) (if bitOf v 9 then .on else .off) 2 0
    x.2.wr .STRM_CMD_RESULT 0 x.1
  else s

def execStrmOn (r : Route) (p : Fin 512) (s : State) : Host.Outcome State Fault Refusal :=
  live s fun s => gate r 0x3012000 (fun s => strmCmd s (p.val + 0x200)) s

def execStrmOff (r : Route) (p : Fin 512) (s : State) : Host.Outcome State Fault Refusal :=
  live s fun s => gate r 0x3012000 (fun s => strmCmd s (p.val + 0x400)) s

/-- A host's switch whose path has received no unit since its acceptance: its unit is still 64 away (R355). -/
def CapAct.waits64 (a : CapAct) (pos : Nat) : Bool := a.cause == 2 && a.at_ == .pos (posAdd pos 64)

/-- STRM_CMD_TIMEOUT (R355): no unit arrived within 1 µs, and the host's switches of stream p take effect. -/
def execStrmCmdTimeout (p : Fin 512) (s : State) : Host.Outcome State Fault Refusal :=
  live s fun s =>
    let st := s.getStrm p
    let due := st.pend.filter fun a => a.waits64 (s.pos p)
    let s := pendCount (s.setStrm p { st with pend := st.pend.filter fun a => !a.waits64 (s.pos p) }) p
    due.foldl (fun s a => if hasTap (s.mode p) then capDo p (posAdd (s.pos p) 1) s a else cancelAction s p (posAdd (s.pos p) 1)) s

/-- ELIDE_RUN_CLOSE (R377): 1 µs after its first unit the open run of stream p closes. -/
def execElideRunClose (p : Fin 512) (s : State) : Host.Outcome State Fault Refusal := live s fun s => closeRun s p

/-! Punnet registers. -/

/-- An enable of punnet k with its new fields is accepted (R357, R387, R405, R441). -/
def State.punEnableOk (s : State) (k mode enc : Nat) : Bool :=
  let first := s.rd .PUN_SLAB_FIRST k
  let count := s.rd .PUN_SLAB_COUNT k
  s.runInTower (first / 1536) first count && decide (first < 3072)
    && !s.meetsPun first count (some k) && !s.meetsDlr first count none && !s.meetsClear first count
    && !(mode == 0 && decide (count * 65408 < s.rd .PUN_PRE_KIB k + s.rd .PUN_POST_KIB k + 4))
    && (enc == 0 || (s.punKey k).isSome)

/-- A stream assigned to punnet k has capture on or pending. -/
def State.punUsed (s : State) (k : Nat) : Bool := (List.range 512).any fun p => s.rd .STRM_CFG_PUN p == k && s.strmBusy p

/-- Store the fields of PUN_CFG but EN. -/
def punCfgFields (s : State) (k v idxk : Nat) : State :=
  let s := s.wr .PUN_CFG_MODE k (bitsOf v 1 1)
  let s := s.wr .PUN_CFG_ENC k (bitsOf v 2 2)
  let s := s.wr .PUN_CFG_RDDEC k (bitsOf v 3 3)
  let s := s.wr .PUN_CFG_IDXK k idxk
  (s.wr .PUN_CFG_TL k (bitsOf v 14 9)).wr .PUN_CFG_TLEN k (bitsOf v 15 15)

/-- Write of PUN_CFG (R357): taken as a whole. A reserved IDXK keeps the previous one (R6, R380). -/
def punCfgSet (s : State) (k v : Nat) : State :=
  let idxk := if 8 ≤ bitsOf v 8 4 ∧ bitsOf v 8 4 ≤ 16 then bitsOf v 8 4 else s.rd .PUN_CFG_IDXK k
  let same := s.rd .PUN_CFG_MODE k == bitsOf v 1 1 && s.rd .PUN_CFG_ENC k == bitsOf v 2 2 && s.rd .PUN_CFG_RDDEC k == bitsOf v 3 3
    && s.rd .PUN_CFG_IDXK k == idxk && s.rd .PUN_CFG_TL k == bitsOf v 14 9 && s.rd .PUN_CFG_TLEN k == bitsOf v 15 15
  if s.on .PUN_CFG_EN k then
    if bitOf v 0 then (if same then s else s.set .PUN_STAT_CFGERR k)
    else if s.punUsed k then s.set .PUN_STAT_CFGERR k
    else
      let s := if s.punEnc k then encFlush s k else s
      let s := (s.setEnc (2 * k) none).setEnc (2 * k + 1) none
      punCfgFields ((((hvCut s k).clr .PUN_CFG_EN k).wr .PUN_STAT_STATE k pDISABLED).clr .X_PUN_EDGE k) k v idxk
  else if bitOf v 0 then
    if s.rd .PUN_SLAB_COUNT k = 0 then s
    else if s.punEnableOk k (bitsOf v 1 1) (bitsOf v 2 2) then punStart ((punCfgFields s k v idxk).set .PUN_CFG_EN k) k
    else s.set .PUN_STAT_CFGERR k
  else punCfgFields s k v idxk

def execPunCfgWrite (r : Route) (k : Fin 256) (v : DW) (s : State) : Host.Outcome State Fault Refusal :=
  live s fun s => gate r (0x3020000 + 0x40 * k.val) (fun s => punCfgSet s k v.toNat) s

/-- Write of PUN_SLAB, PUN_PRE or PUN_POST: ignored with CFGERR while the punnet is enabled (R357). -/
def punIfOff (s : State) (k : Nat) (f : State → State) : State := if s.on .PUN_CFG_EN k then s.set .PUN_STAT_CFGERR k else f s

/-- PUN_CMD (R361, R364, R388). -/
def punCmd (s : State) (v : Nat) : State :=
  let k := bitsOf v 7 0
  let n := bitsOf v 8 8 + bitsOf v 9 9 + bitsOf v 10 10
  let done := fun (s : State) (c : Nat) => s.wr .PUN_CMD_RESULT 0 c
  if n = 0 then s
  else if 1 < n then done s 3
  else if !s.on .PUN_CFG_EN k then done s 2
  else if bitOf v 8 then
    let ok := s.rd .PUN_STAT_STATE k == pREADY
    done (punTrigger s k s.epochNow true) (if ok then 0 else 1)
  else if bitOf v 9 then
    if s.rd .PUN_STAT_STATE k = pSTOPPED then done ((punStart (hvCut s k) k).clr .X_PUN_SEQ k) 0 else done s 1
  else done (if s.punEnc k then encFlush s k else s) 0

def execPunTrig (r : Route) (k : Fin 256) (s : State) : Host.Outcome State Fault Refusal :=
  live s fun s => gate r 0x3028000 (fun s => punCmd s (k.val + 0x100)) s

def execPunRestart (r : Route) (k : Fin 256) (s : State) : Host.Outcome State Fault Refusal :=
  live s fun s => gate r 0x3028000 (fun s => punCmd s (k.val + 0x200)) s

def execPunFlush (r : Route) (k : Fin 256) (s : State) : Host.Outcome State Fault Refusal :=
  live s fun s => gate r 0x3028000 (fun s => punCmd s (k.val + 0x400)) s

/-- PUNNET_LINE_TRIGGER (R361): punnet k takes the rising edge of its line, with the edge's epoch (R233). -/
def execPunnetLineTrigger (k : Fin 256) (s : State) : Host.Outcome State Fault Refusal :=
  live s fun s =>
    if s.on .X_PUN_EDGE k then punTrigger (s.clr .X_PUN_EDGE k) k (s.rd .X_PUN_EDGE_T k) false else s

/-- XTS_UNIT_REWRITE (R388): 100 µs after their first bytes, punnet k's partial units are written whole. -/
def execXtsUnitRewrite (k : Fin 256) (s : State) : Host.Outcome State Fault Refusal := live s fun s => encFlush s k

/-- Write of RPL_CFG: ignored while the path is in SOURCE (R393). -/
def rplCfgSet (s : State) (p v : Nat) : State :=
  if s.mode p = mSOURCE then s
  else (((s.wr .RPL_CFG_PUN p (bitsOf v 7 0)).wr .RPL_CFG_STREAM p (bitsOf v 16 8)).wr .RPL_CFG_LOOP p (bitsOf v 17 17)).wr .RPL_CFG_FROMTRIG p (bitsOf v 18 18)

def execRplCfgWrite (r : Route) (p : Fin 512) (v : DW) (s : State) : Host.Outcome State Fault Refusal :=
  live s fun s => gate r (0x3040000 + 16 * p.val) (fun s => rplCfgSet s p v.toNat) s

end Sys2Proof.Machine
end

