-- ==== Sys2Proof/Machine/Mem.lean ====
section
/-! DEFINITION. The towers at work: refresh (R397 to R400), clears (R405, R406), CHAN resets (R410, R411), delay-line regions (R412), scrub (R424
to R427, R439), the test window (R428 to R430), repairs (R433 to R443), the error log's registers. -/
namespace Sys2Proof.Machine

def addrTwr (t : Nat) : Nat := 0x2000000 + 0x10000 * t
def addrEcc (t : Nat) : Nat := 0x2100000 + 0x10000 * t

/-! Refresh. -/

/-- A refresh command to pseudo-channel pc of channel c (R397, R400). -/
def execRefreshCommand (t : Fin 2) (c : Fin 16) (pc : Fin 2) (s : State) : Host.Outcome State Fault Refusal :=
  live s fun s =>
    if s.twrActive t && s.rd .CH_STAT_STATE (chI t c) == 0 then
      let s := s.incSat .CH_REFCNT_COUNT (chI t c) 1
      s.each (List.range 16) fun s b =>
        let i := pcI t c pc * 16 + b
        let a := nget s.banks noAct i
        { s with banks := nset s.banks noAct i { a with count := a.count - s.rd .TWR_RFM_THRESH t } }
    else s

/-- Refresh management of a bank whose count has reached THRESH (R400): the neighbours of the rows of its table are refreshed, and the table cleared. -/
def execRefreshManagement (t : Fin 2) (c : Fin 16) (pc : Fin 2) (bank : Fin 16) (s : State) : Host.Outcome State Fault Refusal :=
  live s fun s =>
    let i := pcI t c pc * 16 + bank
    let a := nget s.banks noAct i
    let thr := s.rd .TWR_RFM_THRESH t
    if thr ≤ a.count ∧ s.twrActive t then
      let s := s.emit (.rowRefresh t c pc bank (neighbours a.table))
      { s with banks := nset s.banks noAct i { a with count := a.count - thr, rows := [] } }.incSat .TWR_RFMCNT_COUNT t 1
    else s

/-! Clears. -/

/-- TWR_CLR (R405). -/
def twrClr (s : State) (t v : Nat) : State :=
  let first := bitsOf v 11 0
  let count := bitsOf v 23 12
  if !bitOf v 24 then s
  else if count = 0 then s.wr .TWR_CLRSTAT_RESULT t 0
  else if !s.runInTower t first count then s.wr .TWR_CLRSTAT_RESULT t 2
  else if s.meetsPun first count none || s.meetsDlr first count none then s.wr .TWR_CLRSTAT_RESULT t 3
  else if s.on .TWR_CLRSTAT_BUSY t then s.wr .TWR_CLRSTAT_RESULT t 4
  else
    let s := (s.wr .X_CLR_FIRST t first).wr .X_CLR_COUNT t count
    ((s.set .TWR_CLRSTAT_BUSY t).wr .TWR_CLRSTAT_RESULT t 1).clr .TWR_CLRSTAT_DONE t

def execTowerClear (r : Route) (t : Fin 2) (first count : BitVec 12) (s : State) : Host.Outcome State Fault Refusal :=
  live s fun s => gate r (addrTwr t + 8) (fun s => twrClr s t (first.toNat + 0x1000 * count.toNat + 0x1000000)) s

/-- A clear ends (R406): its slabs that are left are swept, while the tower has bandwidth for it (R410). -/
def execTowerClearDone (t : Fin 2) (s : State) : Host.Outcome State Fault Refusal :=
  live s fun s =>
    if s.on .TWR_CLRSTAT_BUSY t && decide (0 < s.avail t) then clearEnd s t else s

/-! The soft repair list in NVM (R437, R438). -/

def repMagic : Nat := 0x52504C53

/-- The 32 bits of an entry (R437). -/
def RepEnt.word : RepEnt → Nat
  | .soft k sp => 1 + 4 * k.t + 8 * k.c + 128 * k.pc + 256 * (k.bank / 4) + 1024 * (k.bank % 4) + 4096 * k.row + 2 ^ 29 * sp
  | .tsv t c lane sp => 2 + 4 * t + 8 * c + 128 * lane + 2 ^ 15 * sp
  | .retire t c => 3 + 4 * t + 8 * c

/-- The entry that 32 bits hold. -/
def repOfWord (w : Nat) : Option RepEnt :=
  let t := bitsOf w 2 2
  let c := bitsOf w 6 3
  match w % 4 with
  | 1 => some (.soft ⟨t, c, bitsOf w 7 7, 4 * bitsOf w 9 8 + bitsOf w 11 10, bitsOf w 28 12⟩ (bitsOf w 30 29))
  | 2 => some (.tsv t c (bitsOf w 14 7) (bitsOf w 16 15))
  | 3 => some (.retire t c)
  | _ => none

/-- The eight bytes of an entry. -/
def RepEnt.image (e : RepEnt) : List Byte := let b := leBytes 4 e.word; b ++ leBytes 4 (crcOf crc32c b)

/-- Tower of an entry. -/
def RepEnt.tower : RepEnt → Nat
  | .soft k _ => k.t
  | .tsv t _ _ _ => t
  | .retire t _ => t

/-- Channel of an entry. -/
def RepEnt.chan : RepEnt → Nat
  | .soft k _ => k.c
  | .tsv _ c _ _ => c
  | .retire _ c => c

/-- The header's COUNT, when the header checks. -/
def State.repCount (s : State) : Nat :=
  let h := s.getNvms 0x8040 32
  if leNat (h.take 4) = repMagic ∧ crcOf crc32c (h.take 28) = leNat (h.drop 28) then min (leNat (sliceBytes h 4 4)) 2036 else 0

/-- Entry i of the list: none when it fails its check or has TYPE 0b00 (R438). -/
def State.repAt (s : State) (i : Nat) : Option RepEnt :=
  let b := s.getNvms (0x8060 + 8 * i) 8
  if crcOf crc32c (b.take 4) = leNat (b.drop 4) then repOfWord (leNat (b.take 4)) else none

/-- Write the header for a count. -/
def repHeader (s : State) (n : Nat) : State :=
  let h := leBytes 4 repMagic ++ leBytes 4 n ++ List.replicate 20 0
  s.setNvms 0x8040 (h ++ leBytes 4 (crcOf crc32c h))

/-- Append an entry (R436, R437). -/
def repAppend (s : State) (e : RepEnt) : State :=
  let n := s.repCount
  if n < 2036 then repHeader (s.setNvms (0x8060 + 8 * n) e.image) (n + 1) else s

/-- Write the list again with the entries that satisfy a condition and check (R438). -/
def repRewrite (s : State) (f : RepEnt → Bool) : State :=
  let l := ((List.range s.repCount).filterMap s.repAt).filter f
  repHeader (s.setNvms 0x8060 (l.map RepEnt.image).flatten) l.length

/-! Spares. -/

/-- Soft repairs in effect in a bank. -/
def State.softIn (s : State) (k : RowKey) : List Nat :=
  s.reps.filterMap fun e => match e with
    | .soft q sp => if q.t = k.t ∧ q.c = k.c ∧ q.pc = k.pc ∧ q.bank = k.bank then some sp else none
    | _ => none

/-- Hard repairs in a bank. -/
def State.hardIn (s : State) (k : RowKey) : Nat :=
  (s.hards.filter fun q => q.t == k.t && q.c == k.c && q.pc == k.pc && q.bank == k.bank).length

/-- A free spare row of a bank, of its four (spec/14, repair resources). -/
def State.freeSpare (s : State) (k : RowKey) : Option Nat :=
  (List.range (4 - s.hardIn k)).find? fun i => !(s.softIn k).contains i

/-- Spare TSVs in use in a channel. -/
def State.tsvIn (s : State) (t c : Nat) : List Nat :=
  s.reps.filterMap fun e => match e with | .tsv u d _ sp => if u = t ∧ d = c then some sp else none | _ => none

/-- Keep REP_SPARE of a channel. -/
def spareRecount (s : State) (t c : Nat) : State :=
  let soft := (s.reps.filter fun e => match e with | .soft k _ => k.t == t && k.c == c | _ => false).length
  let hard := (s.hards.filter fun k => k.t == t && k.c == c).length
  let s := s.wr .REP_SPARE_ROWS (chI t c) (128 - soft - hard)
  let s := s.wr .REP_SPARE_HARD (chI t c) hard
  s.wr .REP_SPARE_TSV (chI t c) (s.tsvIn t c).length

/-- The management core is absent, at a MGMT reset or during a hot reload (R433). -/
def State.mgmtAway (s : State) : Bool := !s.on .X_FWUP 0

/-- Entries of the list that fail their check (R438). -/
def State.repBad (s : State) : List Nat := (List.range s.repCount).filter fun i => (s.repAt i).isNone

/-- The list is read to be applied: each entry that fails its check raises the NVM event (R438). -/
def repCheck (s : State) : State := s.each s.repBad fun s i => s.raise 1070 msgCHECK (0x8060 + 8 * i)

/-- The firmware, once it is there, writes the list again without the entries that fail their check (R438). -/
def repTidy (s : State) : State := if s.mgmtAway || s.repBad == [] then s else repRewrite s fun _ => true

/-- Apply the list's entries that check, for a tower and the channels of a list (R438). -/
def repApply (s : State) (t : Nat) (cs : List Nat) : State :=
  let s := s.each (List.range s.repCount) fun s i =>
    match s.repAt i with
    | none => s
    | some e => if e.tower = t ∧ cs.contains e.chan ∧ !s.reps.contains e ∧ !(match e with | .retire _ _ => true | _ => false) then
        { s with reps := s.reps ++ [e] } else s
  s.each cs fun s c => spareRecount s t c

/-! CHAN resets (R410, R411, R443). -/

/-- Begin a CHAN reset; a soft repair or TSV swap in the tower is waited for. -/
def chanResetBegin (s : State) (t c : Nat) : State :=
  if s.rd .X_REP_OP t = 1 ∨ s.rd .X_REP_OP t = 3 then s.set .X_CHRST_WAIT (chI t c)
  else ((s.clr .X_CHRST_WAIT (chI t c)).wr .CH_STAT_STATE (chI t c) 1).wr .TWR_STAT_STATE t 3

/-- Another channel of the tower is in a CHAN reset. -/
def State.otherReset (s : State) (t c : Nat) : Bool :=
  (List.range 16).any fun d => d != c && s.rd .CH_STAT_STATE (chI t d) == 1

/-- CH_CMD.RESET (R411). -/
def chCmd (s : State) (t c v : Nat) : State :=
  if !bitOf v 0 then s
  else if !s.twrActive t || s.rd .CH_STAT_STATE (chI t c) == 3 || s.otherReset t c then s.wr .CH_CMD_RESULT (chI t c) 2
  else chanResetBegin (s.wr .CH_CMD_RESULT (chI t c) 1) t c

def execChReset (r : Route) (t : Fin 2) (c : Fin 16) (s : State) : Host.Outcome State Fault Refusal :=
  live s fun s => gate r (addrTwr t + 0x1004 + 0x100 * c.val) (fun s => chCmd s t c 1) s

/-- A channel of the tower is still in a CHAN reset, or under a hard repair; when none is, the tower is active again. -/
def chanDone (s : State) (t c : Nat) : State :=
  let s := s.wr .CH_STAT_STATE (chI t c) 0
  if (List.range 16).any fun d => s.rd .CH_STAT_STATE (chI t d) == 1 then s else s.wr .TWR_STAT_STATE t 1

/-- A CHAN reset ends: repairs re-applied, contents kept (R410, R415). The channel of a hard repair is brought back by that. -/
def execChanResetDone (t : Fin 2) (c : Fin 16) (s : State) : Host.Outcome State Fault Refusal :=
  live s fun s =>
    if s.rd .CH_STAT_STATE (chI t c) = 1 ∧ s.rd .TWR_STAT_STATE t = 3 ∧ !(s.rd .X_REP_OP t == 2 && s.rd .X_REP_CH t == c) then
      repTidy ((chanDone (repApply (repCheck s) t [c]) t c).clr .CH_CMD_RESULT (chI t c))
    else s

/-- CHAN resets that waited for a repair of the tower begin. -/
def chanResetsHeld (s : State) (t : Nat) : State :=
  s.each (List.range 16) fun s c => if s.on .X_CHRST_WAIT (chI t c) then chanResetBegin s t c else s

/-! Delay-line regions. -/

/-- Path p is in DELAY or has a change to DELAY pending. -/
def State.inDelay (s : State) (p : Nat) : Bool :=
  s.mode p == mDELAY || (match s.pendChg p with | some c => c.target == mDELAY | none => false)

/-- Write of DLR_CFG (R412). -/
def dlrCfgSet (s : State) (p v : Nat) : State :=
  let e := bitsOf v 25 25
  let first := bitsOf v 11 0
  let count := bitsOf v 23 12
  let store := fun (s : State) (en : Nat) => (((s.w1c .DLR_CFG_CFGERR p e).wr .DLR_CFG_FIRST p first).wr .DLR_CFG_COUNT p count).wr .DLR_CFG_EN p en
  if s.inDelay p then s.set .DLR_CFG_CFGERR p
  else if !bitOf v 24 then store s 0
  else if count = 0 then s
  else if !s.runInTower (first / 1536) first count || decide (3072 ≤ first) || s.meetsPun first count none || s.meetsDlr first count (some p)
      || s.meetsClear first count then s.set .DLR_CFG_CFGERR p
  else store s 1

def execDlrCfgWrite (r : Route) (p : Fin 512) (v : DW) (s : State) : Host.Outcome State Fault Refusal :=
  live s fun s => gate r (0x2040000 + 4 * p.val) (fun s => dlrCfgSet s p v.toNat) s

/-! Scrub. -/

/-- Tower byte address of a burst of a channel, by its number in channel-local space. -/
def State.burstAddr (s : State) (t c n : Nat) : Nat := addrOf (s.retired t) t c (64 * n)

/-- Rewrite a word corrected, if it can be (R424). -/
def fixWord (s : State) (A : Nat) : State :=
  let x := decodeWord (s.getT A)
  match x.1 with
  | .single _ | .double _ _ => (s.touch A true).setT A x.2
  | _ => s

/-- BURST_REWRITE (R420): the oldest burst of tower t that held a double outcome is rewritten corrected; an uncorrectable word in it is handled
as for any reader. -/
def execBurstRewrite (t : Fin 2) (s : State) : Host.Outcome State Fault Refusal :=
  live s fun s =>
    match s.bursts.find? fun b => towerOf b == t.val with
    | none => s
    | some b => if !s.twrActive t || s.rd .CH_STAT_STATE (chI t (s.locOf b).c) != 0 then s else
      let s := { s with bursts := s.bursts.erase b }
      s.each (List.range 8) fun s i =>
        let A := b + 8 * i
        if (decodeWord (s.getT A)).1 = .uncorrectable then (readWord s 0 A).2 else fixWord s A

/-- Codeword bits that a decode corrected. -/
def Decode.bits : Decode → List Nat
  | .single i => [i]
  | .double i j => [i, j]
  | _ => []

/-- Row count of the scrub pass. -/
def rowGet (l : List (RowKey × Nat)) (k : RowKey) : Nat := match l.find? fun e => e.1 == k with | some e => e.2 | none => 0
def rowPut (l : List (RowKey × Nat)) (k : RowKey) (n : Nat) : List (RowKey × Nat) := (l.filter fun e => e.1 != k) ++ [(k, n)]

/-- The scrubber reads one word: counts, repairs and the press's damage mark (R424, R426, R427, R439). -/
def scrubWord (s : State) (A : Nat) : State :=
  let x := readWord s 0 A
  let s := x.2
  let l := s.locOf A
  match x.1.dec with
  | .clean => s
  | .uncorrectable => punDamage s A
  | d =>
    let s := fixWord s A
    let n := rowGet s.scrRows l.key + 1
    let s := { s with scrRows := rowPut s.scrRows l.key n }
    let ce := s.rd .ECC_CFG_ROWCE l.t
    let s := if ce ≠ 0 ∧ ce ≤ n then s.queueSoft l.key else s
    if s.rd .ECC_CFG_TSVTHR l.t = 0 then s
    else s.each d.bits fun s b =>
      let i := chI l.t l.c * 160 + 80 * l.pc + b
      { s with scrTsv := nset s.scrTsv 0 i (nget s.scrTsv 0 i + 1) }

/-- Bursts of a channel. -/
def chanBursts : Nat := 100663296

/-- Start a repair: 1 soft, 2 hard, 3 TSV, 4 retirement. -/
def repBegin (s : State) (t op : Nat) (k : RowKey) (ch lane : Nat) (cmd : Bool) : State :=
  let s := s.wr .X_REP_OP t op
  let s := s.wr .X_REP_CH t (if op = 1 ∨ op = 2 then k.c else ch)
  let s := s.wr .X_REP_LANE t lane
  let s := s.wr .X_REP_PC t k.pc
  let s := s.wr .X_REP_BANK t k.bank
  let s := s.wr .X_REP_ROW t k.row
  s.wrB .X_REP_CMD t cmd

/-- The row under repair in a tower. -/
def State.repKey (s : State) (t : Nat) : RowKey := ⟨t, s.rd .X_REP_CH t, s.rd .X_REP_PC t, s.rd .X_REP_BANK t, s.rd .X_REP_ROW t⟩

/-- The first TSV of a channel whose count in the pass has reached TSVTHR (R439). -/
def State.badTsv (s : State) (t c : Nat) : Option Nat :=
  let thr := s.rd .ECC_CFG_TSVTHR t
  if thr = 0 then none else (List.range 160).find? fun l => thr ≤ nget s.scrTsv 0 (chI t c * 160 + l)

/-- The engine swaps a TSV as REP_CMD TSV would (R439), when its checks pass. -/
def autoTsv (s : State) (t c : Nat) : State :=
  match s.badTsv t c with
  | none => s
  | some lane =>
    if (s.tsvIn t c).length < 4 ∧ s.rd .X_REP_OP t = 0 then
      repBegin { s with scrTsv := nset s.scrTsv 0 (chI t c * 160 + lane) 0 } t 3 ⟨t, c, 0, 0, 0⟩ c lane false
    else s

/-- SCRUB_BURST (R424): the next burst of channel c of tower t. A stopped scrubber, a channel in self-refresh or reset and a retired one do
nothing (R425). -/
def execScrubBurst (t : Fin 2) (c : Fin 16) (s : State) : Host.Outcome State Fault Refusal :=
  live s fun s =>
    let i := chI t c
    if !s.twrActive t || s.rd .CH_STAT_STATE i != 0 || s.rd .SCR_CFG_PERIOD i == 0 || !(s.pwrOn (36 + t.val) && s.clkRuns (16 + t.val)) then s
    else
      let n := s.rd .X_SCR_POS i
      let a := s.burstAddr t c n
      let s := s.each (List.range 8) fun s w => scrubWord s (a + 8 * w)
      let s := { s with bursts := s.bursts.filter (· != a) }
      let s := autoTsv s t c
      let s := s.wr .X_SCR_POS i ((n + 1) % chanBursts)
      let s := s.wr .SCR_STAT_PROG i ((n + 1) % chanBursts * 100 / chanBursts)
      if n + 1 = chanBursts then
        { s.incSat .SCR_STAT_PASSES i 1 with
          scrRows := s.scrRows.filter (fun e => !(e.1.t == t.val && e.1.c == c.val)),
          scrTsv := s.scrTsv.filter (fun e => e.1 / 160 != i) }
      else s

/-! Repairs. -/

/-- The tower is drained (R434). -/
def State.drained (s : State) (t : Nat) : Bool :=
  !((List.range 256).any fun k => s.on .PUN_CFG_EN k && s.punTower k == t)
    && !((List.range 512).any fun p => s.on .DLR_CFG_EN p && s.rd .DLR_CFG_FIRST p / 1536 == t)
    && !s.on .TWR_CLRSTAT_BUSY t
    && !((List.range 512).any fun p => s.replaying p && s.punTower (s.rd .RPL_CFG_PUN p) == t)
    && !((List.range 8).any fun e => s.bit .X_HV_TWR e t)

/-- A channel can be repaired: active and not retired. -/
def State.chanOk (s : State) (t c : Nat) : Bool := s.twrActive t && s.rd .CH_STAT_STATE (chI t c) == 0 && s.retired t != some c

/-- The address lies in the tower and in no withdrawn slab. -/
def State.addrOk (s : State) (t A : Nat) : Bool := decide (A < towerTop) && towerOf A == t && !s.withdrawn (slabOf A)

/-- Hard repairs used in a row's bank group and pseudo-channel. -/
def State.groupHards (s : State) (k : RowKey) : Nat :=
  (s.hards.filter fun q => q.t == k.t && q.c == k.c && q.pc == k.pc && q.bank / 4 == k.bank / 4).length

/-- The first code of R433 that applies to a repair. -/
def State.repCode (s : State) (t op : Nat) (k : RowKey) (A ch : Nat) : Nat :=
  let c := if op = 1 ∨ op = 2 then k.c else ch
  if !s.chanOk t c then 2
  else if (op == 1 || op == 2) && (s.freeSpare k).isNone then 3
  else if op == 3 && decide (4 ≤ (s.tsvIn t c).length) then 3
  else if s.rd .X_REP_OP t ≠ 0 then 4
  else if (op == 1 || op == 2) && !s.addrOk t A then 6
  else if (op == 2 || op == 4) && !s.drained t then 7
  else if op == 2 && decide (2 ≤ s.groupHards k) then 8
  else if op == 4 && (s.retired t).isSome then 9
  else if (op == 2 || op == 4) && s.mgmtAway then 0x0A
  else 0

/-- Entries of a tower that wait for the firmware (R436). -/
def State.nvmWaits (s : State) (t : Nat) : Nat := (s.nvmPend.filter fun e => e.tower == t).length

/-- REP_CMD (R433): reserved OP and LANE encodings start nothing (R6). -/
def repCmd (s : State) (t v : Nat) : State :=
  let op := bitsOf v 3 0
  let ch := bitsOf v 7 4
  let lane := bitsOf v 15 8
  let A := s.rd .REP_ADDR_ADDR t
  let k := (s.locOf A).key
  let k := { k with t := t }
  if op = 0 ∨ 4 < op ∨ (op = 3 ∧ 160 ≤ lane) then s
  else
    let code := s.repCode t op k A ch
    if code ≠ 0 then s.wr .REP_CMD_RESULT t code
    else
      let s := s.wr .REP_CMD_RESULT t 1
      if op = 1 ∧ 16 ≤ s.nvmWaits t then { s with softq := s.softq ++ [(k, true)] }
      else
        let s := repBegin s t op k ch lane true
        if op = 2 then (s.wr .CH_STAT_STATE (chI t k.c) 1).wr .TWR_STAT_STATE t 3
        else if op = 4 then s.wr .CH_STAT_STATE (chI t ch) 3
        else s

def execRepSoft (r : Route) (t : Fin 2) (s : State) : Host.Outcome State Fault Refusal :=
  live s fun s => gate r (addrEcc t + 0x800) (fun s => repCmd s t 1) s
def execRepHard (r : Route) (t : Fin 2) (s : State) : Host.Outcome State Fault Refusal :=
  live s fun s => gate r (addrEcc t + 0x800) (fun s => repCmd s t 2) s
def execRepTsv (r : Route) (t : Fin 2) (c : Fin 16) (lane : Fin 160) (s : State) : Host.Outcome State Fault Refusal :=
  live s fun s => gate r (addrEcc t + 0x800) (fun s => repCmd s t (3 + 16 * c.val + 256 * lane.val)) s
def execRepRetire (r : Route) (t : Fin 2) (c : Fin 16) (s : State) : Host.Outcome State Fault Refusal :=
  live s fun s => gate r (addrEcc t + 0x800) (fun s => repCmd s t (4 + 16 * c.val)) s

/-- A repair ends. -/
def repEnd (s : State) (t : Nat) : State :=
  let s := if s.on .X_REP_CMD t then s.wr .REP_CMD_RESULT t 0 else s
  chanResetsHeld ((s.wr .X_REP_OP t 0).clr .X_REP_CMD t) t

/-- REP_STAT.NVMPEND of both towers. -/
def pendRecount (s : State) : State :=
  s.each [0, 1] fun s t => s.wr .REP_STAT_NVMPEND t (s.nvmWaits t)

/-- An entry waits for the firmware (R436). -/
def repQueueNvm (s : State) (e : RepEnt) : State := pendRecount { s with nvmPend := s.nvmPend ++ [e] }

/-- The queued soft repairs of a tower, oldest first (R427, R436): the first starts when no repair runs and the list has room; one that is refused
raises its pseudo-channel's uncorrectable event again. -/
def execQueuedSoftRepairStart (t : Fin 2) (s : State) : Host.Outcome State Fault Refusal :=
  live s fun s =>
    match s.softq.find? fun e => e.1.t == t.val with
    | none => s
    | some (k, cmd) =>
      if s.rd .X_REP_OP t ≠ 0 ∨ 16 ≤ s.nvmWaits t then s
      else
        let s := { s with softq := s.softq.erase (k, cmd) }
        let A := addrOf (s.retired t) t k.c ((k.row * 2 ^ 15 + k.bank * 2 ^ 11) * 2 + k.pc * 64)
        let code := s.repCode t 1 k A k.c
        if code = 0 then repBegin s t 1 k k.c 0 cmd
        else
          let s := s.raise (memSrc t k.c k.pc 1) msgUNCORR A
          if cmd then s.wr .REP_CMD_RESULT t code else s

/-- Byte addresses of the 256 words of a row. -/
def State.rowAddrs (s : State) (k : RowKey) : List Nat :=
  (List.range 256).map fun i =>
    let PA := k.row * 2 ^ 15 + k.bank * 2 ^ 11 + 8 * i
    addrOf (s.retired k.t) k.t k.c (PA / 64 * 128 + k.pc * 64 + PA % 64)

/-- The soft repair under way in a tower ends (R435): the row's words are copied corrected, the bank maps the row to its spare, the list entry waits. The scrubber's own
requests for the row are met; a command that waits for it is judged in its turn. -/
def softRepairEnd (s : State) (t : Nat) : State :=
  if s.rd .X_REP_OP t = 1 then
    let k := s.repKey t
    let s := s.each (s.rowAddrs k) fun s A => fixWord (readWord s 4 A).2 A
    match s.freeSpare k with
    | none => repEnd s t
    | some sp =>
      let e := RepEnt.soft k sp
      let s := { s with reps := s.reps ++ [e], softq := s.softq.filter (· != (k, false)) }
      repEnd (repQueueNvm (spareRecount s t k.c) e) t
  else s

/-- SOFT_REPAIR_DONE (R435). -/
def execSoftRepairDone (t : Fin 2) (s : State) : Host.Outcome State Fault Refusal := live s fun s => softRepairEnd s t

/-- NVM_REPAIR_APPEND (R436): the firmware appends the oldest entry that waits. -/
def execNvmRepairAppend (s : State) : Host.Outcome State Fault Refusal :=
  live s fun s =>
    match s.nvmPend with
    | e :: r => if s.mgmtAway ∨ 2036 ≤ s.repCount then s else pendRecount { (repAppend s e) with nvmPend := r }
    | [] => s

/-- The hard repair under way in a tower ends: the fuse is verified, the channel retrained, the row blank, its soft entry gone (spec/14, hard row repair). The firmware runs the
steps; one that a MGMT reset stopped repeats them when it is back (R475). -/
def hardRepairEnd (s : State) (t : Nat) : State :=
  if s.rd .X_REP_OP t = 2 ∧ !s.mgmtAway then
    let k := s.repKey t
    let isK := fun (e : RepEnt) => match e with | .soft q _ => q == k | _ => false
    let s := s.each (s.rowAddrs k) fun s A => (s.touch A true).setT A blankCode
    let s := repRewrite { s with hards := s.hards ++ [k], reps := s.reps.filter (fun e => !isK e) } fun e => !isK e
    repEnd (spareRecount (chanDone s t k.c) t k.c) t
  else s

/-- TSV_SWAP_DONE (R440). -/
def execTsvSwapDone (t : Fin 2) (s : State) : Host.Outcome State Fault Refusal :=
  live s fun s =>
    if s.rd .X_REP_OP t = 3 then
      let c := s.rd .X_REP_CH t
      match (List.range 4).find? fun i => !(s.tsvIn t c).contains i with
      | none => repEnd s t
      | some sp =>
        let e := RepEnt.tsv t c (s.rd .X_REP_LANE t) sp
        repEnd (repQueueNvm (spareRecount { s with reps := s.reps ++ [e] } t c) e) t
    else s

/-- The retirement under way in a tower ends (R442, R475): the list entry is written, the tower swept. -/
def retireEnd (s : State) (t : Nat) : State :=
  if s.rd .X_REP_OP t = 4 ∧ !s.mgmtAway then
    let c := s.rd .X_REP_CH t
    let s := repAppend s (.retire t c)
    let s := (s.set .REP_STAT_RETIRED t).wr .REP_STAT_RCH t c
    repEnd (sweepSlabs s (1536 * t) 1536) t
  else s

/-! The test window (R428 to R430). -/

/-- Word address of the test window. -/
def State.tstAddr (s : State) (t : Nat) : Nat := s.rd .TST_ADDR_ADDR t / 8 * 8

/-- The code of R429. -/
def State.tstCode (s : State) (t : Nat) : Nat :=
  let A := s.tstAddr t
  if !s.twrActive t then 2
  else if (s.punAt (slabOf A)).isSome || (s.dlrAt (slabOf A)).isSome || s.clearing (slabOf A) then 3
  else if s.on .TST_CMD_BUSY t then 4
  else if !s.addrOk t A then 6
  else 0

/-- Show a word in TST_DATA and TST_TAG. -/
def tstShow (s : State) (t : Nat) (data : Word) (u p : Bool) (chk : Nat) : State :=
  let s := (s.wr .TST_DATA_DATA t data.toNat).wr .TST_TAG_CHK t chk
  (s.wrB .TST_TAG_U t u).wrB .TST_TAG_P t p

/-- READ (R428, R420), with the checker's armed inversion if there is one (R559 to R561): inverted check bits change the outcome, the message's INJ
or COLLIDE, and nothing stored. -/
def tstRead (s : State) (t : Nat) : State :=
  let A := s.tstAddr t
  let l := s.locOf A
  let i := takeInj s (0x10 + t)
  match i.1 with
  | none =>
    let x := readWord i.2 3 A
    (tstShow x.2 t x.1.data x.1.u (codeP x.1.code) (codeChk x.1.code)).wr .X_TST_OUT t (x.1.dec.code + 1)
  | some bits =>
    let s := i.2.touch A false
    let c := s.getT A
    let seen := decodeWord (c ^^^ BitVec.ofNat 80 (2 ^ bits - 1))
    let alone := (decodeWord (encodeWord (codeData c) (codeU c) (codeP c) ^^^ BitVec.ofNat 80 (2 ^ bits - 1))).1
    let w := wordRead seen.2 seen.1
    let s := (tstShow s t w.data w.u (codeP seen.2) (codeChk seen.2)).wr .X_TST_OUT t (seen.1.code + 1)
    let k := if seen.1 = .uncorrectable then 1 else 0
    let kind := match seen.1 with | .clean => msgCHECK | .uncorrectable => msgUNCORR | _ => msgCORR
    if seen.1 = alone then s.raise (memSrc t l.c l.pc k) kind (injAddr A true false)
    else
      let s := match seen.1 with
        | .clean => s
        | .uncorrectable => (logErr ((s.setT A (encodeWord (codeData c) (codeU c) true)).incSat .ECC_UECNT_COUNT t 1) A 3 3 (synOf c)).queueSoft l.key
        | d =>
          let s := s.incSat .ECC_CECNT_COUNT (pcI t l.c l.pc) 1
          let s := if s.on .ECC_CFG_LOGCE t then logErr s A d.code 3 (synOf c) else s
          if d.code = 2 ∧ !s.bursts.contains (A / 64 * 64) then { s with bursts := s.bursts ++ [A / 64 * 64] } else s
      s.raise (memSrc t l.c l.pc k) kind (injAddr A false true)

/-- READRAW (R428). -/
def tstReadraw (s : State) (t : Nat) : State :=
  let c := s.getT (s.tstAddr t)
  (tstShow (s.touch (s.tstAddr t) false) t (codeData c) (codeU c) (codeP c) (codeChk c)).clr .X_TST_OUT t

/-- WRITE and WRITERAW (R428). -/
def tstWrite (s : State) (t : Nat) (raw : Bool) : State :=
  let d := BitVec.ofNat 64 (s.rd .TST_DATA_DATA t)
  let u := s.on .TST_TAG_U t
  let p := s.on .TST_TAG_P t
  let c := if raw then rawWord d u p (s.rd .TST_TAG_CHK t) else encodeWord d u p
  ((s.touch (s.tstAddr t) true).setT (s.tstAddr t) c).clr .X_TST_OUT t

/-- TST_CMD: reserved values of OP do nothing (R6, R428). -/
def tstCmd (s : State) (t v : Nat) : State :=
  let op := bitsOf v 2 0
  if op = 0 ∨ 4 < op then s
  else
    let code := s.tstCode t
    if code ≠ 0 then s.wr .TST_CMD_RESULT t code
    else
      let s := s.set .TST_CMD_BUSY t
      if op = 1 then tstRead s t else if op = 2 then tstReadraw s t else tstWrite s t (op == 4)

def execTstRead (r : Route) (t : Fin 2) (s : State) : Host.Outcome State Fault Refusal :=
  live s fun s => gate r (addrEcc t + 0xA14) (fun s => tstCmd s t 1) s
def execTstReadraw (r : Route) (t : Fin 2) (s : State) : Host.Outcome State Fault Refusal :=
  live s fun s => gate r (addrEcc t + 0xA14) (fun s => tstCmd s t 2) s
def execTstWrite (r : Route) (t : Fin 2) (s : State) : Host.Outcome State Fault Refusal :=
  live s fun s => gate r (addrEcc t + 0xA14) (fun s => tstCmd s t 3) s
def execTstWriteraw (r : Route) (t : Fin 2) (s : State) : Host.Outcome State Fault Refusal :=
  live s fun s => gate r (addrEcc t + 0xA14) (fun s => tstCmd s t 4) s

/-- TEST_WINDOW_DONE (R428): within 2 µs the operation ends; a READ shows its outcome. -/
def execTestWindowDone (t : Fin 2) (s : State) : Host.Outcome State Fault Refusal :=
  live s fun s =>
    if s.on .TST_CMD_BUSY t then
      let o := s.rd .X_TST_OUT t
      let s := (s.clr .TST_CMD_BUSY t).wr .TST_CMD_RESULT t 0
      if o = 0 then s else (s.wr .TST_CMD_OUTCOME t (o - 1)).clr .X_TST_OUT t
    else s

/-! Log registers and settings. -/

/-- ERR_LOGACK (R423). -/
def logAck (s : State) (t v : Nat) : State :=
  let s := if bitOf v 6 then s.clr .ERR_LOG_VALID (64 * t + bitsOf v 5 0) else s
  let s := if bitOf v 7 then s.each (List.range 64) fun s i => s.clr .ERR_LOG_VALID (64 * t + i) else s
  s.logRecount t

def execLogFree (r : Route) (t : Fin 2) (e : Fin 64) (s : State) : Host.Outcome State Fault Refusal :=
  live s fun s => gate r (addrEcc t + 0x304) (fun s => logAck s t (e.val + 64)) s
def execLogFreeAll (r : Route) (t : Fin 2) (s : State) : Host.Outcome State Fault Refusal :=
  live s fun s => gate r (addrEcc t + 0x304) (fun s => logAck s t 128) s

/-- Write of SCR_CFG (R424). -/
def scrCfgSet (s : State) (t c v : Nat) : State :=
  if bitsOf v 7 0 ≤ 168 then s.wr .SCR_CFG_PERIOD (chI t c) (bitsOf v 7 0) else s.set .ECC_LOGSTAT_CFGERR t

/-- Write of TWR_RFM. -/
def rfmSet (s : State) (t v : Nat) : State :=
  let n := bitsOf v 8 0
  if 16 ≤ n ∧ n ≤ 256 then s.wr .TWR_RFM_THRESH t n else s.set .TWR_STAT_CFGERR t

end Sys2Proof.Machine
end

