-- ==== Sys2Proof/Machine/Hold.lean ====
section
/-! DEFINITION. What the pipeline does with the units that it holds, once every decoded unit that they carry has ended (R323): the capture filter (R338 to R341),
IDE decryption (R385, R386), record formation (R356, R367 to R377), and their way to the transmitter through the injection stage. -/
namespace Sys2Proof.Machine

/-- Stream of path p forms records: capture is on and its mode has a tap. -/
def State.captures (s : State) (p : Nat) : Bool := s.on .STRM_CFG_ON p && hasTap (s.mode p)

/-- An ERROR record of stream p for an event of its port, formed now (R367, R373, R375). -/
def errorRec (s : State) (p pos kind lane ofs syms : Nat) : State :=
  if s.captures p then
    stageRecs s p false false [s.recNow tERROR pos (payN 32 (leBytes 1 kind ++ leBytes 1 lane ++ [0, 0] ++ leBytes 4 syms ++ leBytes 2 ofs))]
  else s

/-! The capture filter (R338 to R341). -/

/-- What the filter says of a unit. -/
structure Kept where
  keep : Bool
  fill : Bool
  cut : Option Nat

/-- The filter of path p as it stands. -/
def State.filtNow (s : State) (p : Nat) : Option FiltSet :=
  if s.on .PATH_FILT_NONE p then none
  else
    let f := 16 * gOf p + s.rd .PATH_FILT_FILT p
    some ⟨s.rd .FLT_CFG_CLASS f, s.on .FLT_CFG_MINV f, s.on .FLT_CFG_TRUNC f, s.rd .FLT_CFG_KEEP f, s.rd .FLT_MMASK_MMASK f, f⟩

/-- A unit's classes and failure meet a filter, and its matcher hits the gate; fill, that the filter keeps it in class 3 and not as a failing unit (R377). -/
def filterUnit (f : Option FiltSet) (cls : Nat) (fails : Bool) (hits : List Nat) : Kept :=
  match f with
  | none => ⟨true, bitOf cls 3 && !fails, none⟩
  | some f =>
    let kept := (fails && bitOf f.cls 6) || Nat.land f.cls cls % 64 != 0
    let hit := hits.any fun m => bitOf f.mmask m
    let gateOk := f.mmask == 0 || (if f.minv then !hit else hit)
    ⟨kept && gateOk, bitOf cls 3 && bitOf f.cls 3 && !(fails && bitOf f.cls 6), if f.trunc then some (16 * min 253 f.keep) else none⟩

/-- A unit that the filter does not keep is counted (R341); one that is not the template ends the run of elided units (R377). -/
def filterDrop (s : State) (p : Nat) (f : Option FiltSet) (form : List Byte) : State :=
  let s := match f with | some f => s.incSat .FLT_CNT_COUNT f.num 1 | none => s
  match (s.getStrm p).tmpl with
  | some (t, _) => if t = form then s else closeRun s p
  | none => s

/-! Record formation (R367 to R371, R377). -/

/-- DATA records of a payload: parts of 4,048 bytes (R370). -/
def parts : Nat → List Byte → List (List Byte)
  | 0, l => [l]
  | n + 1, l => if l.length ≤ 4048 then [l] else l.take 4048 :: parts n (l.drop 4048)

/-- The DATA records of one unit; tdef names the template that the first holds. -/
def dataRecs (pos stamp : Nat) (valid : Bool) (form : List Byte) (cut : Option Nat) (raw dec : Bool) (tdef : Option Nat) : List Rec :=
  let pay := match cut with | some n => form.take n | none => form
  let trunc := pay.length < form.length
  let ps := parts (pay.length / 4048) pay
  ps.zipIdx.map fun e =>
    ⟨tDATA, trunc, raw, decide (e.2 + 1 < ps.length), dec, valid, stamp, pos, e.1, if e.2 = 0 then tdef else none, none⟩

/-- A filler unit is recorded as DATA and becomes the stream's template (R377), whether the stream elides or not. -/
def formFiller (s : State) (p pos stamp : Nat) (valid : Bool) (form : List Byte) (cut : Option Nat) (raw dec : Bool) : State :=
  let s := closeRun s p
  let st := s.getStrm p
  let s := s.setStrm p { st with tmpl := some (form, st.nextId), nextId := st.nextId + 1 }
  stageRecs s p false true (dataRecs pos stamp valid form cut raw dec (some st.nextId))

/-- Form the records of a kept unit of stream p (R377); of a punnet that takes none the unit is counted (R363). -/
def formUnit (s : State) (p pos stamp : Nat) (valid fill : Bool) (form : List Byte) (cut : Option Nat) (raw dec : Bool) : State :=
  let st := s.getStrm p
  if !s.punTakes (s.rd .STRM_CFG_PUN p) then stageRecs s p false true (dataRecs pos stamp valid form cut raw dec none)
  else if fill then
    match if s.on .STRM_CFG_ELIDE p then st.tmpl else none with
    | some (t, id) =>
      if t = form then
        s.setStrm p { st with run := some (match st.run with | some r => { r with count := r.count + 1 } | none => ⟨1, id, pos, stamp, valid⟩) }
      else formFiller s p pos stamp valid form cut raw dec
    | none => formFiller s p pos stamp valid form cut raw dec
  else
    let s := closeRun s p
    stageRecs s p false true (dataRecs pos stamp valid form cut raw dec none)

/-! IDE (R385, R386). -/

/-- The enabled binding of an IDE TLP on stream p. -/
def State.ideBinding (s : State) (p sid : Nat) : Option Nat :=
  match s.linkOf (p / 2) with
  | none => none
  | some L => (List.range 128).find? fun i =>
      s.on .IDE_BIND_EN i && s.rd .IDE_BIND_GROVE i == L / 16 && s.rd .IDE_BIND_LINK i == L % 16 && s.rd .IDE_BIND_DIR i == p % 2
        && s.rd .IDE_BIND_SID i == sid

/-- Key set j of binding k is loaded. -/
def State.ideLoaded (s : State) (k j : Nat) : Bool := s.bit .RND_IKEY_LOADED ((2 * k + j) / 32) ((2 * k + j) % 32)

/-- The TLP that brings the MAC of an IDE TLP's group, itself or a later one of its sub-stream, and whether the MAC checks (R385); none, that it has not come. -/
def ideMac (items : List Item) (it : Item) (d : IdeInfo) : Option Bool :=
  (items.filter fun x => it.id ≤ x.id).findSome? fun x => (x.ide.filter fun e => e.sid == d.sid && e.sub == d.sub && !e.more).map (·.macOk)

/-- Binding k decrypts an IDE TLP's sub-stream: no MAC check of it has failed since its keys were loaded (R386). -/
def State.ideInStep (s : State) (k : Nat) (d : IdeInfo) : Bool := !s.bit .X_IDE_OFF k d.sub.val

/-- The press awaits the MAC of an aggregated group on path p before it records what the path holds (R385). -/
def State.ideWaits (s : State) (p : Nat) : Bool :=
  s.captures p && s.on .STRM_CFG_IDE p && !s.on .STRM_CFG_RAW p
    && (s.getItems p).any fun it => it.ide.any fun d =>
      (s.ideBinding p d.sid.toNat).any (fun k => s.ideInStep k d && s.ideLoaded k d.set) && ideMac (s.getItems p) it d == none

/-- What decryption makes of a decoded unit: its plaintext, or a MAC failure. -/
inductive IdeEnd where
  | asIs
  | plain (l : List Byte)
  | failed
  deriving DecidableEq, Repr

/-- The bytes of a TLP with its plaintext in the places of its ciphertext: its length, and its IDE prefix of one DW, stand as received (R385). -/
def idePlain (it : Item) (d : IdeInfo) : List Byte :=
  let w := it.wins.headD []
  putBytes w (max 4 d.ofs) (d.plain.take (w.length - max 4 d.ofs))

/-- Decrypt a TLP (R385), and the state that this leaves. A failed MAC ends the decryption of its sub-stream, and of no other of its binding (R386); a TLP that names a
key set that is not loaded is handled as one (R524). A TLP of a sub-stream out of step, and one whose group's MAC did not come, is recorded as received. -/
def ideItem (s : State) (p : Nat) (items : List Item) (it : Item) : IdeEnd × State :=
  match it.ide with
  | none => (.asIs, s)
  | some d =>
    match if s.on .STRM_CFG_IDE p then s.ideBinding p d.sid.toNat else none with
    | none => (.asIs, s)
    | some k =>
      let lost := ((s.wrBit .X_IDE_OFF k d.sub.val true).clr .IDE_STAT_SYNC k).incSat .IDE_STAT_MACFAIL k 1
      if !s.ideInStep k d then (.asIs, s)
      else if !s.ideLoaded k d.set then (.failed, lost)
      else
        match ideMac items it d with
        | none => (.asIs, s)
        | some true => (.plain (idePlain it d), s.wr .X_IDE_LAST k (1 + d.set))
        | some false => (.failed, lost)

/-! Records of a held unit (R356, R368 to R372). -/

/-- An ERROR record of stream p (R373, R375) for a captured unit, with the unit's stamp (R367). -/
def failRec (s : State) (p pos stamp : Nat) (valid : Bool) (e : Option Failure) : State :=
  match e with
  | some (kind, lane, ofs, syms) =>
    stageRecs s p false false [recAt tERROR pos stamp valid (payN 32 (leBytes 1 kind ++ leBytes 1 lane ++ [0, 0] ++ leBytes 4 syms ++ leBytes 2 ofs))]
  | none => s

/-- The ERROR record of a decoded unit, at its position (R373). -/
def failItem (s : State) (p : Nat) (it : Item) (e : Option Failure) : State := failRec s p it.pos it.stamp it.valid e

/-- Progress through the held units of a path: the state, the numbers of decoded units whose first byte is captured, plaintexts found. -/
structure Pressed where
  s : State
  caps : List Nat
  plain : List (Nat × List Byte)

/-- Capture of stream p has begun at or before a position. -/
def State.capturedAt (s : State) (p pos : Nat) : Bool := s.captures p && posReached pos (s.rd .X_CAP_FROM p)

/-- A unit meets its filter: its records, or its count. -/
def recordUnit (s : State) (p pos stamp : Nat) (valid : Bool) (f : Option FiltSet) (cls : Nat) (fails : Bool) (hits : List Nat) (form : List Byte) (raw dec : Bool) : State :=
  let k := filterUnit f cls fails hits
  if k.keep then formUnit s p pos stamp valid k.fill form k.cut raw dec else filterDrop s p f form

/-- The ERROR records of a decoded unit (R372): of its IDE MAC, whose lane is the lowest of the link (R373), and its own failure. -/
def itemErrors (p : Nat) (items : List Item) (x : Pressed) (it : Item) : Pressed :=
  match ideItem x.s p items it with
  | (.asIs, s) => { x with s := failItem s p it it.err }
  | (.plain l, s) => { x with s := failItem s p it it.err, plain := x.plain ++ [(it.id, l)] }
  | (.failed, s) => { x with s := failItem (failItem s p it (some (7, s.govLane (p / 2) % 16, 0, 0))) p it it.err }

/-- A decoded unit recorded on its own (R368). -/
def recordItem (p : Nat) (items : List Item) (f : Option FiltSet) (x : Pressed) (it : Item) : Pressed :=
  let x := itemErrors p items x it
  let pl := x.plain.find? fun e => e.1 == it.id
  let form := match pl with | some e => putBytes it.form it.lead e.2 | none => it.form
  { x with s := recordUnit x.s p it.pos it.stamp it.valid f it.kind.cls it.fails it.hits form false pl.isSome }

/-- The decoded unit of a piece. -/
def Piece.of (pc : Piece) (items : List Item) : Option Item := items.find? fun it => it.id == pc.item

/-- Decoded units of a list that end in a unit, in order. -/
def HeldUnit.ends (u : HeldUnit) (items : List Item) : List Item := (u.pieces.filter (·.last)).filterMap (·.of items)

/-- A piece holds its unit's first byte. -/
def Piece.opens (pc : Piece) : Bool := pc.start == 0 && (pc.last || pc.copies.any (· != []))

/-- A piece holds its unit's last byte; of a unit with no byte, its end. -/
def Piece.closes (pc : Piece) (it : Item) : Bool :=
  let n := (pc.copies.headD []).length
  decide (pc.start + n = (it.wins.headD []).length) && (decide (0 < n) || (pc.last && pc.start == 0))

/-- Decoded units of a list whose last byte lies in a unit, in order. -/
def HeldUnit.closing (u : HeldUnit) (items : List Item) : List Item :=
  u.pieces.filterMap fun pc => (pc.of items).filter pc.closes

/-- Decoded units of a list whose first byte lies in a unit, in order. -/
def HeldUnit.opening (u : HeldUnit) (items : List Item) : List Item := (u.pieces.filter (·.opens)).filterMap (·.of items)

/-- Matchers that hit a line unit or block, or what it carries (R339). -/
def blockHits (u : HeldUnit) (items : List Item) (i : Nat) : List Nat :=
  ((u.hits.filter fun h => h.2 == i).map (·.1))
    ++ (u.pieces.filter fun pc => u.enc != .codeword || pc.touches i).flatMap fun pc => (items.filter fun it => it.id == pc.item).flatMap (·.hits)

/-- Matchers that hit anything of a unit. -/
def unitHits (u : HeldUnit) (items : List Item) : List Nat :=
  u.hits.map (·.1) ++ u.pieces.flatMap fun pc => (items.filter fun it => it.id == pc.item).flatMap (·.hits)

/-- The line unit, or block of it, fails: itself or a unit that it carries (R338). -/
def blockFails (u : HeldUnit) (items : List Item) (i : Nat) : Bool :=
  failing u.err || u.pieces.any fun pc => (u.enc != .codeword || pc.touches i) && items.any fun it => it.id == pc.item && it.fails

/-- The line unit fails as a whole. -/
def unitFails (u : HeldUnit) (items : List Item) : Bool :=
  failing u.err || u.pieces.any fun pc => items.any fun it => it.id == pc.item && it.fails

/-- A line unit recorded raw (R369): errors of the decoded units whose last byte it holds, its own, then its record. -/
def pressRaw (p : Nat) (items : List Item) (x : Pressed) (u : HeldUnit) : Pressed :=
  let s := ((u.closing items).filter fun it => x.caps.contains it.id).foldl (fun s it => failItem s p it it.err) x.s
  let s := failRec s p u.pos u.stamp u.valid u.err
  { x with s := recordUnit s p u.pos u.stamp u.valid u.filt u.cls (unitFails u items) (unitHits u items) u.line true false }

/-- A flit is recorded whole, what its TLPs decrypt to in their places (R368, R385), after the errors of the units that begin in it (R372). -/
def pressFlit (p : Nat) (items : List Item) (x : Pressed) (u : HeldUnit) : Pressed :=
  let x := ((u.opening items).filter fun it => x.caps.contains it.id).foldl (itemErrors p items) x
  let mine := u.pieces.filter fun pc => x.plain.any fun e => e.1 == pc.item
  let form := mine.foldl (fun l pc =>
    match x.plain.find? fun e => e.1 == pc.item with
    | some e => ((pc.places.headD []).zipIdx).foldl (fun l a => l.set a.1 (e.2.getD (pc.start + a.2) 0)) l
    | none => l) u.dec
  { x with s := recordUnit x.s p u.pos u.stamp u.valid u.filt u.cls (unitFails u items) (unitHits u items) form false (mine != []) }

/-- A 66-bit block of an Ethernet unit (R368, R371): recorded on its own with ETHUNIT, outside frames, and in a frame recorded in block form, whose errors come before
the block that holds its first byte (R372); a frame is recorded where it ends. -/
def pressBlock (p : Nat) (items : List Item) (u : HeldUnit) (cap : Bool) (x : Pressed) (i : Nat) : Pressed :=
  let pcs := u.pieces.filter fun pc => pc.touches i
  let ended := ((pcs.filter (·.last)).filterMap (·.of items)).filter fun it => x.caps.contains it.id
  let opened := ((pcs.filter (·.opens)).filterMap (·.of items)).filter fun it => x.caps.contains it.id
  let framed := !x.s.on .STRM_CFG_ETHUNIT p && pcs.any fun pc => (pc.of items).elim false fun it => !it.blocks
  if framed then (ended.filter fun it => !it.blocks).foldl (recordItem p items u.filt) x
  else
    let x := opened.foldl (itemErrors p items) x
    let b := blockAt u.line i
    if cap then { x with s := recordUnit x.s p u.pos u.stamp u.valid u.filt (blockCls b (pcs.map (·.kind))) (blockFails u items i) (blockHits u items i) b false false }
    else x

/-- One held unit passes the press (R356): switches at its position, ERROR records, filter, records. -/
def pressHeld (p : Nat) (items : List Item) (x : Pressed) (u : HeldUnit) : Pressed :=
  let s := applyCaps x.s p u.pos u.stamp u.valid
  let cap := s.capturedAt p u.pos
  let caps := if cap then x.caps ++ ((items.filter fun it => it.pos == u.pos).map (·.id)) else x.caps
  let raw := (u.undec || s.on .STRM_CFG_RAW p) && !u.aside
  let x : Pressed := { x with s := if cap && !raw then failRec s p u.pos u.stamp u.valid u.err else s, caps := caps }
  let ended := (u.ends items).filter fun it => caps.contains it.id
  if raw then (if cap then pressRaw p items x u else x)
  else if u.enc.raw then (if cap then { x with s := recordUnit x.s p u.pos u.stamp u.valid u.filt u.cls (failing u.err) (unitHits u items) u.line false false } else x)
  else if u.enc.eth then (if u.aside then x else (List.range (blockCount u.line)).foldl (pressBlock p items u cap) x)
  else if u.enc.flit && !u.aside then (if cap then pressFlit p items x u else x)
  else if s.on .STRM_CFG_RAW p || u.undec then x
  else ended.foldl (recordItem p items u.filt) x

/-! Release. -/

/-- Nothing that the path holds is still to be decided: no decoded unit goes on. -/
def State.decided (s : State) (p : Nat) : Bool := !((s.getItems p).any (·.going))

/-- What a path holds and the press has not yet handled passes the press, where the path has a tap. Units that await the injection stage stay. -/
def pressAll (s : State) (p : Nat) : State :=
  let us := s.getHeld p
  let items := s.getItems p
  let s := s.setHeld p ((us.filter (·.staged)).map fun u => { u with pressed := true })
  let s := if hasTap (s.mode p) then ((us.filter fun u => !u.pressed).foldl (pressHeld p items) ⟨s, [], []⟩).s else s
  if us.any (·.staged) then s else s.setItems p ((s.getItems p).filter (·.going))

/-- The units of path p that await the injection stage. -/
def State.atStage (s : State) (p : Nat) : List HeldUnit := (s.getHeld p).filter (·.staged)

/-- The units at the injection stage pass it. -/
def fireHeld (s : State) (p : Nat) (us : List HeldUnit) : State :=
  if us = [] then s else fireUnits s p (s.pcie (p / 2) && s.kindR (p / 2)) us

/-- What a path holds goes on at once: through the press, and through the injection stage. -/
def releaseHeld (s : State) (p : Nat) : State :=
  if s.getHeld p = [] then s
  else
    let s := pressAll s p
    let out := s.getHeld p
    let s := fireHeld (s.setHeld p []) p out
    s.setItems p ((s.getItems p).filter (·.going))

/-- Only the injection stage lets the units go; the press keeps them until the MAC of a group comes (R385). -/
def passStage (s : State) (p : Nat) : State :=
  let out := s.atStage p
  fireHeld (s.setHeld p (((s.getHeld p).filter fun u => !u.pressed).map fun u => { u with staged := false })) p out

/-- The units at the injection stage may pass: every decoded unit has ended, and no insert is in the middle of a run. -/
def State.settled (s : State) (p : Nat) : Bool :=
  s.decided p && !s.insertOpen p ((s.atStage p).map HeldUnit.send)

/-- Release what is settled. -/
def settle (s : State) (p : Nat) : State :=
  if !s.settled p then s
  else if s.ideWaits p then passStage s p
  else releaseHeld s p

/-- The press takes what the path holds when nothing that it carries goes on and no group awaits its MAC. -/
def pressDecided (s : State) (p : Nat) : State := if s.decided p && !s.ideWaits p then pressAll s p else s

/-- CAPTURE_SWITCH (R333): the press handles what path p holds, and the switches due at its units apply there in R333's order; not before every decoded unit has ended and
the MAC of its group has come, since a unit's matcher hits are known only then (R323, R385). -/
def execCaptureSwitch (p : Fin 512) (s : State) : Host.Outcome State Fault Refusal :=
  live s fun s => pressDecided s p

/-- INJ_ENTRY_FIRE (R347): the units at the injection stage of path p pass with their entries applied. -/
def execInjEntryFire (p : Fin 512) (s : State) : Host.Outcome State Fault Refusal := live s fun s => settle s p

end Sys2Proof.Machine
end

