-- ==== Sys2Proof/Machine/CalOps.lean ====
section
/-! DEFINITION. State of the calibration engine's runs (R189 to R203), by receiver: trim index n for An, 256 + n for Bn. -/
namespace Sys2Proof.Machine

/-- The receivers of a lane. -/
def laneRx (n : Nat) : List Nat := [n, 256 + n]

/-- Lane, and path, of a receiver. -/
def rxLane (x : Nat) : Nat := x % 256
def rxPath (x : Nat) : Nat := 2 * (x % 256) + x / 256

/-- CAL_LSTAT.STATE of a lane: the most advanced state of its two receivers, else default trim. -/
def State.calState (s : State) (n : Nat) : Nat :=
  let st := (laneRx n).map (s.rd .X_CAL_ST)
  if st.contains 2 then 2 else if st.contains 3 then 3 else if st.contains 1 then 1 else if st.contains 4 then 4
  else if s.on .X_CAL_DFLT n then 5 else 0

/-- CAL_LSTAT of a lane follows. -/
def calShow (s : State) (n : Nat) : State :=
  (s.wr .CAL_LSTAT_STATE n (s.calState n)).wr .CAL_LSTAT_CONSEC n (max (s.rd .X_CAL_CONS n) (s.rd .X_CAL_CONS (256 + n)))

/-- A receiver's run stands in a state. -/
def calSet (s : State) (x st : Nat) : State := calShow (s.wr .X_CAL_ST x st) (rxLane x)

/-- The step in progress is abandoned, and a run begins at step 1 when it goes on (R203). -/
def calRewind (s : State) (x : Nat) : State :=
  (((s.wr .X_CAL_STEP x 1).clr .X_CAL_PASS x).clr .X_CAL_AGREE x).clr .X_CAL_LATER x

/-- A receiver leaves the queue and its run is abandoned (R203). -/
def calDrop (s : State) (x : Nat) : State :=
  let s := { s with calq := s.calq.filter (· != x) }
  if s.rd .X_CAL_ST x = 4 then s else calSet (calRewind (s.clr .X_CAL_RQ x) x) x 0

/-- A running receiver pauses (R203). -/
def calPause (s : State) (x : Nat) : State := if s.rd .X_CAL_ST x = 2 then calSet (calRewind s x) x 3 else s

/-- A paused receiver runs again from step 1. DESIGN CHOICE (log 83): the reading at the first start of the run stays its start reading (R194). -/
def calResume (s : State) (x : Nat) : State := if s.rd .X_CAL_ST x = 3 then calSet s x 2 else s

/-- The slice of a receiver in a role (R160): 0 to 3 lower, middle, upper, error, 4 shadow. -/
def State.sliceIn (s : State) (x role : Nat) : Option Nat := (List.range 5).find? fun i => s.rd .CAL_SLC_ROLE (5 * x + i) == role

/-- Usable slices of a receiver (R202). -/
def State.usable (s : State) (x : Nat) : Nat := ((List.range 5).filter fun i => s.rd .CAL_SLC_ROLE (5 * x + i) != 5).length

/-- The receiver has no shadow: four usable slices serve the four roles, and fewer leave none to spare (R202). -/
def State.noShadow (s : State) (x : Nat) : Bool := decide (s.usable x ≤ 4)

/-- Roles of fewer than four usable slices (R202): on NRZ the lower and upper roles are given up, on PAM4 the slices that are left serve the roles in order. DESIGN CHOICE (log 84): on NRZ a
third slice stands as the shadow, which nothing calibrates while NOSHADOW is set. -/
def rxRoles (s : State) (x : Nat) (pam : Bool) : State :=
  let us := (List.range 5).filter fun i => s.rd .CAL_SLC_ROLE (5 * x + i) != 5
  if 4 ≤ us.length then s
  else s.each us.zipIdx fun s e => s.wr .CAL_SLC_ROLE (5 * x + e.1) (if pam then e.2 else if e.2 = 0 then 1 else if e.2 = 1 then 3 else 4)

/-- Queue a receiver, unless it is queued, running, paused, stuck or without shadow, or the rotation is off (R195, R197, R202). DESIGN CHOICE (log 27): while the rotation
is off a request is dropped, that of RECAL too. -/
def calQueue (s : State) (x : Nat) : State :=
  if s.on .CAL_CTL_BGEN 0 && s.rd .X_CAL_ST x == 0 && !s.noShadow x then
    calSet (calRewind { s.clr .X_CAL_RQ x with calq := s.calq ++ [x] } x) x 1
  else s

end Sys2Proof.Machine
end

