-- ==== Sys2Proof/Machine/Port.lean ====
section
/-! DEFINITION. What each transmitter carries (R66), the transceiver fields that follow from it (R61, R167, R171, R176, R183), and the link states
that a mode change touches. -/
namespace Sys2Proof.Machine

/-- What a transmitter carries: electrical idle, units that a path forwards or generates, units that its own receiver's path loops. -/
inductive Carry where
  | idle | fwd (p : Nat) | gen (p : Nat) | loop (p : Nat)
  deriving DecidableEq, Repr

/-- The path that owns a port's transmitter, and the path that its receiver feeds. -/
def portOwner (r : Nat) : Nat := 32 * (r / 32) + 2 * (r % 16) + (if r % 32 < 16 then 1 else 0)
def portPath (r : Nat) : Nat := revPath (portOwner r)

/-- Lane n lies between the two switch points of a host write that changed both its paths (R82). -/
def State.splitNow (s : State) (n : Nat) : Bool := s.rd .X_SPLIT (s.govLane n) == 2

/-- The enabled terminator that serves a side of a link: LT 2 g + t. -/
def State.termAt (s : State) (L side : Nat) : Option Nat :=
  [2 * (L / 16), 2 * (L / 16) + 1].find? fun t => s.on .LT_CFG_EN t && s.rd .LT_CFG_LINK t == L % 16 && s.rd .LT_CFG_SIDE t == side

/-- The side of a path's transmitter: n.AB sends on B. -/
def txSide (p : Nat) : Nat := if p % 2 = 0 then 1 else 0

/-- The terminator that a SOURCE path sends for. -/
def State.termOf (s : State) (p : Nat) : Option Nat :=
  match s.linkOf (p / 2) with
  | some L => s.termAt L (txSide p)
  | none => none

/-- A SOURCE path has nothing to send: an empty user pattern (R150), a replay that has ended (R392), a terminator in Detect or Disabled (R116). -/
def State.sourceIdle (s : State) (p : Nat) : Bool :=
  let g := s.govPath p
  match s.srcSel p with
  | 0 => (s.getRpl g).isNone
  | 1 => s.rd .PATH_PAT_PAT p == 0xB && s.rd .PATH_PAT_ULEN p == 0
  | _ => s.pcie (p / 2) && match s.termOf p with
    | some t => s.rd .LT_STAT_LTSSM t == 0 || s.rd .LT_STAT_LTSSM t == 9
    | none => true

/-- R66. A transmitter that two paths claim between the switch points of one host write is idle (R82). So is one that belongs to a path stopped under R18, to
an idle link or to a SOURCE with nothing to send, and one of a lane whose switch waits for its return from L0p (R110), and
one of a quadrant whose clock has failed (R569). -/
def State.carries (s : State) (r : Nat) : Carry :=
  let p := portOwner r
  let q := portPath r
  if s.on .X_LANE_LAG (p / 2) || s.clkFailed (33 + p / 128) then .idle
  else if s.mode q = mLOOP then (if s.mode p = mSOURCE || (s.splitNow (p / 2) && forwards (s.mode p)) then .idle else .loop q)
  else if forwards (s.mode p) then (if s.on .X_PATH_STOPPED p || s.linkIdle p then .idle else .fwd p)
  else if s.mode p = mSOURCE then (if s.on .X_PATH_STOPPED (s.govPath p) || s.sourceIdle p then .idle else .gen p)
  else .idle

/-- TXCLK (R167, R168). -/
def State.txClk (s : State) (r : Nat) : Nat :=
  let pcie := s.pcie (portOwner r / 2)
  let timed := fun x => if s.on .XCVR_STAT_LOCK x then 2 else 4
  match s.carries r with
  | .idle => 0
  | .fwd p => if pcie then 1 else timed (rxPort p)
  | .loop _ => if pcie then 3 else timed r
  | .gen _ => 3

/-- Spread applies to what the port carries (R171). -/
def State.spreads (s : State) (r : Nat) : Bool :=
  match s.carries r with
  | .gen _ => true
  | .loop _ => s.pcie (portOwner r / 2)
  | _ => false

/-- The port uses trained coefficients when it has some (R176). -/
def State.trainedFir (s : State) (r : Nat) : Bool :=
  let p := portOwner r
  let n := p / 2
  let L := (s.linkOf n).getD 0
  (s.kindR n && (s.pcie n || (s.protoOf n == 3 && s.on .LNK_ETH_LTEN L)))
    || (s.mode p == mSOURCE && s.srcSel p == 2 && (s.termOf p).isSome)

/-- TX_FIR as one word. -/
def State.firWord (s : State) (r : Nat) : Nat :=
  s.rd .TX_FIR_CM2 r + 16 * s.rd .TX_FIR_CM1 r + 512 * s.rd .TX_FIR_C0 r + 32768 * s.rd .TX_FIR_C1 r
    + 1048576 * s.rd .TX_FIR_C2 r + 33554432 * s.rd .TX_FIR_C3 r

/-- TX_CLK as one word. -/
def State.sscWord (s : State) (r : Nat) : Nat := s.rd .TX_CLK_SSCDEPTH r + 8192 * s.rd .TX_CLK_SSCFREQ r

/-- Port index of the trim registers: n for An, 256 + n for Bn. -/
def trimPort (r : Nat) : Nat := (if r % 32 < 16 then 0 else 256) + 16 * (r / 32) + r % 16

/-- Both ports of a lane. -/
def lanePorts (n : Nat) : List Nat := [rxPort (2 * n), rxPort (2 * n + 1)]

/-- A receiver of lane n is being margined (R106). -/
def State.margined (s : State) (n : Nat) : Bool := (lanePorts n).any fun r => s.on .X_MARG r

/-- The fields of one transceiver that follow from modes, links and lock. -/
def refreshPort (s : State) (r : Nat) : State :=
  let q := portPath r
  let n := q / 2
  let idle := s.carries r == .idle
  let s := if s.mode q = mDARK then s else rxRoles s (trimPort r) (s.pam4 n)
  let s := s.wrB .XCVR_STAT_TXIDLE r idle
  let s := if s.on .X_LANE_LAG n then s else s.wrB .XCVR_STAT_RXTERM r (s.mode q != mDARK)
  let s := s.wr .XCVR_STAT_TXCLK r (s.txClk r)
  let was := s.on .XCVR_STAT_SSCACT r
  let s := if was && s.spreads r then s else s.wr .X_SSC_EFF r (s.sscWord r)
  let s := s.wrB .XCVR_STAT_SSCACT r (s.spreads r && s.rd .X_SSC_EFF r % 8192 != 0)
  let s := s.wr .TX_FIRACT_ACT r (if s.trainedFir r && s.bit .X_FIR_TRN r 30 then s.rd .X_FIR_TRN r % 2 ^ 30 else s.firWord r)
  let stale := !s.on .XCVR_STAT_LOCK r || s.mode q == mDARK || s.margined n || (decide (s.usable (trimPort r) < 4) && s.pam4 n)
  (if stale then s.set .X_QW_CUT r else s).wrB .QUAL_BER_STALE r stale

/-- The transceivers of a lane's link follow. -/
def refreshLink (s : State) (n : Nat) : State := s.each (s.linkLanes n) fun s m => s.each (lanePorts m) refreshPort

/-! Link states. -/

/-- LNK_PCI of an entry as one word. -/
def State.pciWord (s : State) (L : Nat) : Nat :=
  s.rd .LNK_PCI_UPSIDE L + 2 * s.rd .LNK_PCI_MAXRATE L + 16 * s.rd .LNK_PCI_FLITEN L + 32 * s.rd .LNK_PCI_CLKMODE L
    + 128 * s.rd .LNK_PCI_MARGEN L + 256 * s.rd .LNK_PCI_EQBYP L

/-- Every lane of an entry's link. -/
def State.entryLanes (s : State) (L : Nat) : List Nat := (List.range (s.linkWidth L)).map fun i => s.linkFirst L + i

/-- A lane joins the lanes that count, at the link position (R217, R219); a switch of mode that waited for it takes effect on it (R110). -/
def laneJoin (s : State) (L m : Nat) : State :=
  let n := s.linkFirst L
  let s := (s.wr .PATH_POS_POS (2 * m) (s.pos (2 * n))).wr .PATH_POS_POS (2 * m + 1) (s.pos (2 * n + 1))
  (s.clr .X_LANE_IDLE m).clr .X_LANE_LAG m

/-- Start receiver detection on a port (R179): only at electrical idle. -/
def detectBegin (s : State) (x : Nat) : State := if s.carries x == .idle then s.set .X_DET_RUN x else s

/-- A receiver whose rate changes adapts anew (R161), and a step of the rotation on it is abandoned, to run again from step 1 (R203). -/
def rxRated (s : State) (r : Nat) : State := calPause ((s.clr .XCVR_STAT_LOCK r).clr .XCVR_STAT_ADAPTED r) (trimPort r)

/-- The receivers of a link run initial adaptation again after a rate change (R161), and a run of the rotation on them restarts (R203). -/
def rateChanged (s : State) (L : Nat) : State := s.each (s.entryLanes L) fun s n => s.each (lanePorts n) rxRated

/-- A retimed link enters Detect (R93, R94, R98, R111, R113): 2.5 GT/s, FMT and position unknown, LNK_PCI in force, every lane back, no request for precoding. -/
def enterDetect (s : State) (L : Nat) : State :=
  let s := if s.rd .LNK_PSTAT_RATE L = 0 then s else rateChanged s L
  let s := (s.clr .X_RATE_NEXT L).clr .X_TS_CUT (2 * s.linkFirst L) |>.clr .X_TS_CUT (2 * s.linkFirst L + 1)
  let s := (s.clr .LNK_PSTAT_STATE L).clr .LNK_PSTAT_RATE L
  let s := (s.clr .LNK_PSTAT_FLIT L).clr .LNK_PSTAT_FMT L
  let s := (s.clr .LNK_PSTAT_PMIS L).clr .LNK_PSTAT_RTPOS L
  let s := ((s.wr .X_PCI_EFF L (s.pciWord L)).clr .X_EQ_PHASE L).clr .X_L0S L
  let s := s.clr .X_L12 L
  s.each (s.entryLanes L) fun s n =>
    let s := if s.on .X_LANE_IDLE n then laneJoin s L n else s
    s.each (lanePorts n) fun s r => refreshPort ((s.clr .X_PRECODE r).clr .X_EQ_DONE r) r

/-- The ports of a terminator's side. -/
def State.termPorts (s : State) (L side : Nat) : List Nat := (s.entryLanes L).map fun n => if side = 0 then rxPort (2 * n) else rxPort (2 * n + 1)

/-- Entry that terminator 2 g + t serves. -/
def State.ltLink (s : State) (t : Nat) : Nat := 16 * (t / 2) + s.rd .LT_CFG_LINK t

/-- The side of a terminator changes rate: its receivers adapt again, and runs of the rotation on them restart (R161, R203). -/
def ltRated (s : State) (t : Nat) : State := s.each (s.termPorts (s.ltLink t) (s.rd .LT_CFG_SIDE t)) rxRated

/-- A terminator returns to Detect (R116, R298), at 2.5 GT/s: its Data Link Layer is down, and its target rate is MAXRATE again. -/
def ltDown (s : State) (t : Nat) : State :=
  let s := if s.rd .LT_STAT_RATE t = 0 then s else ltRated s t
  let s := (s.clr .LT_STAT_LTSSM t).clr .LT_STAT_DLUP t
  let s := (s.clr .LT_STAT_RATE t).clr .LT_STAT_FLIT t
  let s := (s.clr .LT_STAT_CXL t).clr .LT_ETH_STAT_STATE t
  let s := (s.clr .LT_ETH_STAT_LF t).clr .LT_ETH_STAT_RF t
  let s := ((s.clr .X_LT_TGT t).clr .X_LT_SEQ t).clr .X_LT_RSEQ t
  let s := ((s.clr .X_LT_NAKD t).clr .X_LT_DLF t).clr .X_LT_POL t
  let s := (s.clr .X_LT_REV t).clr .X_LT_FCI t
  { s with ltSent := nset s.ltSent [] t [] }

/-- The transmitters of a terminator's side detect receivers (R116, R179). -/
def ltDetect (s : State) (L side : Nat) : State :=
  if s.rd .LINK_CFG_PROTO L = 3 then s else s.each (s.termPorts L side) detectBegin

/-- The first state of an Ethernet segment that begins to train (R132). -/
def State.segStart (s : State) (L : Nat) : Nat := if s.on .LNK_ETH_ANEN L then 1 else if s.on .LNK_ETH_LTEN L then 2 else 3

def segFld (side : Nat) : Fld := if side = 0 then .LNK_ESTAT_SEGA else .LNK_ESTAT_SEGB

/-- A segment enters a state; in auto-negotiation it advertises the one technology of its rate and width, its FEC and its pause bits (R132). -/
def segEnter (s : State) (L side st : Nat) : State :=
  let s := s.wr (segFld side) L st
  if st = 1 then s.emitTx (2 * s.linkFirst L + (1 - side)) (.anPage L side (s.rd .LNK_ETH_LRATE L) (s.rd .LINK_CFG_WIDTH L) (s.rd .LNK_ETH_FEC L) (s.rd .LNK_ETH_PAUSE L)) else s

/-- Codes of an Ethernet link's two segments. -/
def State.segWord (s : State) (L : Nat) : Nat := s.rd .LNK_ESTAT_SEGA L + 16 * s.rd .LNK_ESTAT_SEGB L

/-- The segments of an Ethernet link whose pairing has changed (R69, R132): they begin when it becomes of kind R and end when it ceases to be; a LINK record shows a change (R374). -/
def segsChanged (s : State) (n L : Nat) (wasR : Bool) : State :=
  let was := s.segWord L
  let s := if s.kindR n then
      (if wasR then s else segEnter (segEnter s L 0 (s.segStart L)) L 1 (s.segStart L))
    else (s.clr .LNK_ESTAT_SEGA L).clr .LNK_ESTAT_SEGB L
  if s.segWord L = was then s else linkEvent s n

/-- What a link's state machines do when its pairing has changed (R69, R86, R132, R136): a pairing that becomes or ceases to be of kind R, and a dark one, starts from Detect; a
terminator of a dark link is down, and one of a link that leaves DARK begins in Detect. -/
def pairingChanged (s : State) (n : Nat) (wasR : Bool) : State :=
  match s.linkOf n with
  | none => s
  | some L =>
    let dark := s.mode (2 * n) == mDARK && s.mode (2 * n + 1) == mDARK
    let away := s.rd .LNK_PSTAT_STATE L != 0 || s.rd .LNK_PSTAT_RATE L != 0 || s.on .LNK_PSTAT_FLIT L || s.rd .LNK_PSTAT_FMT L != 0
    let s := if s.pcie n && (dark || s.kindR n != wasR) then (let d := enterDetect s L; if away then linkEvent d n else d) else s
    let s := if s.protoOf n = 3 then segsChanged s n L wasR else s
    s.each [0, 1] fun s side =>
      match s.termAt L side with
      | some t => if dark then (ltDown s t).clr .X_LT_BUSY t else if s.rd .LT_STAT_LTSSM t = 0 then ltDetect s L side else s
      | none => s

end Sys2Proof.Machine
end

