-- ==== Sys2Proof/Machine/Admit.lean ====
section
/-! DEFINITION. Admission (R14 to R19, R383): stops and restarts of delay lines and replays, the admission window; a replay's unit time. -/
namespace Sys2Proof.Machine

/-- The transmitters of path p follow: its lane's in DELAY, its link's for a replay. -/
def refreshPath (s : State) (p : Nat) : State :=
  if s.mode p = mDELAY then refreshPort s (txPort p) else s.each (s.linkPaths p) fun s q => refreshPort s (txPort q)

/-- Stop a path under R18: electrical idle, and its path event. -/
def stopPath (s : State) (p : Nat) : State := pathEventNext ((refreshPath (s.set .X_PATH_STOPPED p) p).emit (.txIdle p)) p msgSTATE

/-- Stop DELAY and replay paths in descending index until the rest fits (R18). -/
def stopPaths (t : Nat) : List Nat → State → State
  | [], s => s
  | p :: r, s => if s.loadDemand t ≤ s.avail t * 1000000 then s else stopPaths t r (stopPath s p)

/-- A stopped path runs again, a delay line from empty. -/
def restartPath (s : State) (p : Nat) : State :=
  let s := dlyEmpty (s.clr .X_PATH_STOPPED p) p
  refreshPath (if s.mode p = mDELAY then s.wrB .PATH_DLYSTAT_FILL p (decide (0 < s.rd .X_DLY_EFF (s.govPath p))) else s) p

/-- Restart stopped paths in ascending index while the next one fits (R19). -/
def restartPaths (t : Nat) : List Nat → State → State
  | [], s => s
  | p :: r, s =>
    if s.loadDemand t + s.demandOf t p ≤ s.avail t * 1000000 ∧ 0 < s.avail t then restartPaths t r (restartPath s p)
    else s

/-- One admission window of tower t (R383): settings that take effect at it, stops and restarts, the budget, the staged units, the carry. A clear takes what the window before
left and the carry does not keep (R406). -/
def admissionWindow (s : State) (t : Nat) : State :=
  let s := s.wr .PRS_PLIM_EFF 0 (min (s.rd .X_THR 0) (s.rd .PRS_PLIM_LIMIT 0))
  let s := s.wrB .PRS_PLIM_THROT 0 (decide (s.rd .PRS_PLIM_EFF 0 < s.rd .PRS_PLIM_LIMIT 0))
  let s := s.wr .PRS_CEIL_CEIL t (s.effCeil t / 128)
  let s := restartPaths t (s.loadPaths t true) s
  let s := stopPaths t (s.loadPaths t false).reverse s
  let carry := s.getCarry t - s.rd .X_RD_BYTES t
  let s := clearWork s t (carry - 8192).toNat
  let budget := min carry 8192 + s.avail t - s.rd .X_DLY_BYTES t
  let us := s.getStaged t
  let a := admitAll t ⟨s.setStaged t [], budget, false, false, 0⟩ us
  let s := a.s.wrB (if t = 0 then .PRS_STAT_DROP0 else .PRS_STAT_DROP1) 0 a.dropped
  let s := (s.clr .X_DLY_BYTES t).clr .X_RD_BYTES t
  let s := s.incWrap .X_WINDOW t 1
  s.setCarry t (a.budget - a.excess)

/-- REPLAY_SEND (R391): one unit time of replaying path p. -/
def execReplaySend (p : Fin 512) (s : State) : Host.Outcome State Fault Refusal :=
  live s fun s =>
    let was := (s.getRpl p).isNone
    let s := rplStep s p
    if (s.getRpl p).isNone == was then s else refreshPath s p

end Sys2Proof.Machine
end

