-- ==== Sys2Proof/Machine/Paths.lean ====
section
/-! DEFINITION. Path modes (R60 to R90): link table, terminators, acceptance of mode changes, switch points. -/
namespace Sys2Proof.Machine

/-- BAR0 address of a grove register. -/
def gAddr (g o : Nat) : Nat := 0x1000000 + 0x100000 * g + o

/-- Lanes first to first + width - 1 of grove g. -/
def lanesFrom (g first w : Nat) : List Nat := (List.range w).map fun i => 16 * g + first + i

/-- Every path of every lane of an entry's link counts as DARK (R650). -/
def State.entryDark (s : State) (L : Nat) : Bool :=
  (lanesFrom (L / 16) (s.rd .LINK_CFG_FIRST L) (s.linkWidth L)).all s.laneDark

/-! LINK_CFG and LT_CFG. -/

/-- A write of LINK_CFG is refused (R63). WIDTH codes above 0b100 are reserved and PROTO codes above 0b011, and a write of one keeps the field's
previous value (R6). -/
def State.linkRefused (s : State) (L : Nat) (en : Bool) (width first proto : Nat) : Bool :=
  let g := L / 16
  let w := 2 ^ width
  let new := if en then lanesFrom g first w else []
  let old := if s.on .LINK_CFG_EN L then lanesFrom g (s.rd .LINK_CFG_FIRST L) (s.linkWidth L) else []
  (en && (first % w != 0 || decide (16 < first + w)))
    || (en && (List.range 16).any fun k =>
        let M := 16 * g + k
        M != L && s.on .LINK_CFG_EN M && (new.any fun n => (lanesFrom g (s.rd .LINK_CFG_FIRST M) (s.linkWidth M)).contains n))
    || (new ++ old).any (fun n => !s.laneDark n)
    || (proto == 0 && [2 * g, 2 * g + 1].any fun t => s.on .LT_CFG_EN t && s.rd .LT_CFG_LINK t == L % 16)

/-- Write of LINK_CFG (R63). -/
def linkCfgSet (s : State) (L v : Nat) : State :=
  let width := if bitsOf v 3 1 ≤ 4 then bitsOf v 3 1 else s.rd .LINK_CFG_WIDTH L
  let proto := if bitsOf v 10 8 ≤ 3 then bitsOf v 10 8 else s.rd .LINK_CFG_PROTO L
  if s.linkRefused L (bitOf v 0) width (bitsOf v 7 4) proto then s.set .GRV_LINKERR_ERR (L / 16)
  else (((s.wr .LINK_CFG_EN L (bitsOf v 0 0)).wr .LINK_CFG_WIDTH L width).wr .LINK_CFG_FIRST L (bitsOf v 7 4)).wr .LINK_CFG_PROTO L proto

def execLinkCfgWrite (r : Route) (g : Fin 16) (k : Fin 16) (v : DW) (s : State) : Host.Outcome State Fault Refusal :=
  live s fun s => gate r (gAddr g (4 * k.val)) (fun s => linkCfgSet s (16 * g.val + k.val) v.toNat) s

/-- Write of LT_CFG (R72). -/
def ltCfgSet (s : State) (t v : Nat) : State :=
  let g := t / 2
  let en := bitOf v 0
  let L := 16 * g + bitsOf v 5 2
  let old := 16 * g + s.rd .LT_CFG_LINK t
  let o := if t % 2 = 0 then t + 1 else t - 1
  let dark := fun M => !s.on .LINK_CFG_EN M || s.entryDark M
  let taken := s.on .LT_CFG_EN o && s.rd .LT_CFG_LINK o == bitsOf v 5 2 && s.rd .LT_CFG_SIDE o == bitsOf v 1 1
  if !dark L || !dark old || taken || (en && s.rd .LINK_CFG_PROTO L == 0) then s.set .GRV_LINKERR_ERR g
  else ((s.wr .LT_CFG_EN t (bitsOf v 0 0)).wr .LT_CFG_SIDE t (bitsOf v 1 1)).wr .LT_CFG_LINK t (bitsOf v 5 2)

def execLtCfgWrite (r : Route) (g : Fin 16) (t : Fin 2) (v : DW) (s : State) : Host.Outcome State Fault Refusal :=
  live s fun s => gate r (gAddr g (0x400 + 4 * t.val)) (fun s => ltCfgSet s (2 * g.val + t.val) v.toNat) s

/-! Acceptance of a mode change (R76). -/

/-- R71 for one pairing of the link at lane n, with the sources that would be selected. -/
def State.termRule (s : State) (n a b selA selB : Nat) : Bool :=
  match s.linkOf n with
  | none => true
  | some L =>
    (a == mDARK && b == mDARK) ||
      (((s.termAt L 0).isNone || ((a == mSINK || a == mSOURCE) && b == mSOURCE && selB == 2))
        && ((s.termAt L 1).isNone || ((b == mSINK || b == mSOURCE) && a == mSOURCE && selA == 2)))

/-- A record's bytes at a data-area offset as the press knows them: stored, or in the encrypted unit that it still holds (R388). -/
def State.recBytes (s : State) (k ofs n : Nat) : List Byte :=
  let l := (punReadRing s 1 k ofs n).1
  match s.getEnc (2 * k) with
  | some e => l.zipIdx.map fun x => let a := (ofs + x.2) % s.punData k; if a / 4096 = e.unit ∧ a % 4096 < e.bytes.length then e.bytes.getD (a % 4096) 0 else x.1
  | none => l

/-- The last CAPON record of a stream that a punnet holds (R393): protocol and width. The walk goes through the records it holds whole. -/
def lastCapon (s : State) (k p : Nat) : List Nat → Nat → Option (Nat × Nat) → Option (Nat × Nat)
  | [], _, acc => acc
  | len :: r, ofs, acc =>
    let h := s.recBytes k ofs 48
    let hit := (h.getD 0 0).toNat % 8 == tEVENT && leNat (sliceBytes h 2 2) == p && leNat (sliceBytes h 32 4) == 1
    lastCapon s k p r ((ofs + len) % s.punData k) (if hit then some ((h.getD 36 0).toNat, (h.getD 38 0).toNat) else acc)

/-- Replay on path p lacks its resource (R393); the link's width is that of its table entry (R62). -/
def State.replayMissing (s : State) (p : Nat) : Bool :=
  let k := s.rd .RPL_CFG_PUN p
  let c := lastCapon s k (s.rd .RPL_CFG_STREAM p) (nget s.punLens [] k) (s.rd .PUN_TAIL_OFS k) none
  !s.on .PUN_CFG_EN k || s.govPath p != p || (s.punEnc k && (s.punKey k).isNone)
    || match c with
      | none => false
      | some (pr, w) => pr != s.protoOf (p / 2) || w != (s.linkLanes (p / 2)).length

/-- DELAY on path p lacks a region of sufficient size on some lane (R154, R413). -/
def State.regionMissing (s : State) (p : Nat) : Bool :=
  (s.linkPaths p).any fun q => !s.on .DLR_CFG_EN q || decide (s.rd .DLR_CFG_COUNT q * 1048576 < s.rd .PATH_DLY_CELLS (s.govPath p))

/-- Code 0x02 for a path that would hold a mode. -/
def State.missing (s : State) (p m : Nat) (changed : Bool) : Bool :=
  (changed && m == mDELAY && s.regionMissing p)
    || (changed && m == mSOURCE && s.srcSel p == 0 && s.replayMissing p)
    || (m == mSOURCE && s.srcSel p == 2 && (s.termOf p).isNone)

/-- A pairing uses a terminator. -/
def State.usesTerm (s : State) (n a b : Nat) : Bool :=
  (a == mSOURCE && s.srcSel (2 * n) == 2) || (b == mSOURCE && s.srcSel (2 * n + 1) == 2)

/-- The pairing (a, b) is of kind X (R68). -/
def pairX (a b : Nat) : Bool := (a == mSOURCE && b == mLOOP) || (a == mLOOP && b == mSOURCE)

/-- Code 0x03 for a pairing (R68, R75). -/
def State.pairRefused (s : State) (n a b : Nat) : Bool :=
  let oa := s.mode (2 * n)
  let ob := s.mode (2 * n + 1)
  let dark := a == mDARK && b == mDARK
  let wasDark := oa == mDARK && ob == mDARK
  pairX a b || ((a, b) != (oa, ob) && ((s.usesTerm n oa ob && !dark) || (s.usesTerm n a b && !wasDark)))

/-- The pairings that a change must respect (R81, R82): the final one alone when both paths change, otherwise also that with the reverse path's
pending mode. -/
def State.pairings (s : State) (n : Nat) (ca cb : Bool) (a b : Nat) : List (Nat × Nat) :=
  if ca && cb then [(a, b)]
  else if ca then (a, b) :: (match s.pendChg (2 * n + 1) with | some c => [(a, c.target)] | none => [])
  else (a, b) :: (match s.pendChg (2 * n) with | some c => [(c.target, b)] | none => [])

/-- Codes 0x01 to 0x08 of R76 for a change of the paths of lane n to modes a and b, ca and cb saying which change; late: 0x05 applies; builtin: made by
the profile's program. -/
def State.chgCode (s : State) (n : Nat) (ca cb : Bool) (a b : Nat) (late builtin : Bool) : Nat :=
  let g := n / 16
  let ps := s.pairings n ca cb a b
  if ((ca && a == mDELAY) || (cb && b == mDELAY)) && s.pcie n then 1
  else if s.missing (2 * n) a ca || s.missing (2 * n + 1) b cb then 2
  else if ps.any fun x => s.pairRefused n x.1 x.2 then 3
  else if s.govLane n != n then 4
  else if late then 5
  else if (ca && (s.pendChg (2 * n)).isSome) || (cb && (s.pendChg (2 * n + 1)).isSome) then 6
  else if s.dev != devSERVICE || s.quadAbsent g || (s.profiled g && !builtin) then 7
  else if ps.any fun x => !s.termRule n x.1 x.2 (s.srcSel (2 * n)) (s.srcSel (2 * n + 1)) then 8
  else 0

/-- A change of path p becomes pending (R76). -/
def chgBegin (s : State) (p target : Nat) (w : ChgWhen) : State :=
  (s.setChg p (some ⟨target, w⟩)).set (pendFld p) (p / 2)

/-- When a host's change takes effect: out of DARK under R79, otherwise 64 units on (R78). -/
def State.hostWhen (s : State) (p : Nat) : ChgWhen := if s.mode p = mDARK then .fromDark none else .host (posAdd (s.pos p) 64)

/-- A change of the paths of lane n by a host write or the profile's program: its code and the state that it leaves. DESIGN CHOICE (log 20): a write that changes neither field is judged like
any other, and one that passes reports 0x00 and changes nothing. -/
def chgHost (s : State) (n a b : Nat) (builtin : Bool) : Nat × State :=
  let ca := a != s.mode (2 * n)
  let cb := b != s.mode (2 * n + 1)
  let c := s.chgCode n ca cb a b false builtin
  if c = 0 then
    let s1 := if ca then chgBegin s (2 * n) a (s.hostWhen (2 * n)) else s
    let s2 := if cb then chgBegin s1 (2 * n + 1) b (s.hostWhen (2 * n + 1)) else s1
    (0, if ca && cb then s2.wr .X_SPLIT n 1 else s2)
  else (c, s)

/-- Write of PATH_MODE of lane n. -/
def pathModeSet (s : State) (n v : Nat) : State :=
  let x := chgHost s n (bitsOf v 2 0) (bitsOf v 6 4) false
  x.2.wr .PATH_MODE_CODE (s.govLane n) x.1

def execPathModeWrite (r : Route) (n : Fin 256) (v : DW) (s : State) : Host.Outcome State Fault Refusal :=
  live s fun s => gate r (gAddr (n / 16) (0x100 + 4 * (n % 16))) (fun s => pathModeSet s n v.toNat) s

/-- The pairings that a change of source must respect (R71): the one in force and the one that pending changes lead to. -/
def State.srcPairings (s : State) (n : Nat) : List (Nat × Nat) :=
  let g := s.govLane n
  let aim := fun p => match s.pendChg p with | some c => c.target | none => s.mode p
  [(s.mode (2 * g), s.mode (2 * g + 1)), (aim (2 * g), aim (2 * g + 1))]

/-- Write of PATH_SRC of path p: ignored in SOURCE (R90), refused on a lane that is not its link's lowest (R65) and where it would break R71; a reserved SEL keeps the field (R6). DESIGN
CHOICE (log 18): a refusal shows its code in PATH_MODE.CODE, the one field that holds codes of R76; on a path in SOURCE, R90 comes before R65, and a write on another lane of its link shows no code;
and a write of SEL = 0b10 while a change into SOURCE is pending, with no terminator for that side, is judged by R71 alone: R73 judges changes of mode. -/
def pathSrcSet (s : State) (p v : Nat) : State :=
  let n := p / 2
  let g := s.govLane n
  let sel := bitsOf v 1 0
  let selA := if p % 2 = 0 then sel else s.srcSel (2 * n)
  let selB := if p % 2 = 0 then s.srcSel (2 * n + 1) else sel
  if s.mode p == mSOURCE then s
  else if g != n then s.wr .PATH_MODE_CODE g 4
  else if sel = 3 then s
  else if (s.srcPairings n).all fun x => s.termRule n x.1 x.2 selA selB then s.wr .PATH_SRC_SEL p sel
  else s.wr .PATH_MODE_CODE g 8

def execPathSrcWrite (r : Route) (p : Fin 512) (v : DW) (s : State) : Host.Outcome State Fault Refusal :=
  live s fun s => gate r (gAddr (gOf p) (0x280 + 4 * localPath p)) (fun s => pathSrcSet s p v.toNat) s

/-! Cancellation (R83, R265, R314). -/

/-- Cancel the delay change and the SKP adjustment that wait on a path. -/
def cancelDlySkp (s : State) (p pos : Nat) : State :=
  let s := if s.rd .X_DLYP_V p ≠ 0 then cancelAction (s.clr .X_DLYP_V p) p pos else s
  let s := s.clr .X_DLYH_V p
  if s.on .X_SKP_V p then cancelAction (s.clr .X_SKP_V p) p pos else s

/-- Cancel every accepted action of a link's paths that has not yet taken effect, the change of mode excepted (R265). -/
def cancelAll (s : State) (p pos : Nat) : State :=
  s.each (s.linkPaths p) fun s q =>
    let st := s.getStrm q
    let s := st.mpend.foldl (fun s a => s.set .MATCH_STAT_ACTSKIP a.src) s
    let s := pendCount (s.setStrm q { st with pend := [], mpend := [] }) q
    let s := st.pend.foldl (fun s _ => cancelAction s q pos) s
    let s := cancelEntries s q pos fun _ _ => true
    cancelDlySkp s q pos

/-! Switch points. -/

/-- Units that a path's delay line holds are never sent (R86). -/
def dlyDrop (s : State) (p : Nat) : State :=
  let s := s.incSat .PATH_DISC_COUNT p (nget s.dly [] p).length
  s.each (s.linkPaths p) fun s q => (dlyEmpty s q).clr .PATH_DLYSTAT_FILL q

/-- The delay that applies to a path, in cells: CELLS, rounded up to alignment-marker periods where AMALIGN asks for it (R156). DESIGN CHOICE (log 81): CELLS is the modulus of the region (R414),
and what the rounding adds is held outside it. -/
def State.cellsInForce (s : State) (p cells : Nat) : Nat :=
  match s.linkOf (p / 2) with
  | some L =>
    let period := Config.amCells (s.rd .LNK_ETH_LRATE L) (s.rd .LNK_ETH_FEC L) (s.linkWidth L)
    if s.rd .LINK_CFG_PROTO L = 3 ∧ s.on .LNK_ETH_AMALIGN L ∧ 0 < period then (cells + period - 1) / period * period else cells
  | none => cells

/-- A path enters DELAY: its line is empty, and filler goes out until the first cell is due (R86, R414). -/
def dlyEnter (s : State) (p : Nat) : State :=
  let cells := s.rd .PATH_DLY_CELLS p
  let c := s.cellsInForce p cells
  let s := (s.wr .X_DLY_IN p cells).wr .X_DLY_EFF p c
  s.each (s.linkPaths p) fun s q => (dlyEmpty s q).wrB .PATH_DLYSTAT_FILL q (decide (0 < c))

/-- A pattern checker starts again without lock (R151). -/
def pchkRestart (s : State) (p : Nat) : State :=
  { (s.clr .PATH_PCHK_LOCK p).clr .X_PCHK_RUN p with pchk := nset s.pchk [] p [] }

/-- The receivers of a link's path lose their signal with their termination. -/
def rxOff (s : State) (p : Nat) : State :=
  s.each (s.linkPaths p) fun s q =>
    let r := rxPort q
    let s := pchkRestart ((s.clr .XCVR_STAT_LOCK r).clr .XCVR_STAT_ADAPTED r) q
    calDrop s (trimPort r)

/-- The position of a link's path is set to 0 (R216). -/
def posZero (s : State) (p : Nat) : State :=
  let s := s.each (s.linkPaths p) fun s q => genWaits ((s.clr .PATH_POS_POS q).incWrap .PATH_POS_GEN q 1) q
  eventRec s p 0x05 0 (leBytes 2 (s.rd .PATH_POS_GEN p))

/-- The MODE event of a switch point (R374). -/
def modeEvent (s : State) (p pos old new : Nat) : State := eventRec s p 0x03 pos (leBytes 1 old ++ leBytes 1 new)

/-- A path leaves its old mode at the unit at a position: what that mode held goes. -/
def modeLeave (s : State) (p pos old new : Nat) : State :=
  let s := releaseHeld s p
  let s := if old = mSPLICE ∧ new ≠ mSPLICE then
      s.each (s.linkPaths p) fun s q => cancelEntries s q pos fun s e => q == p || s.rd .INJ_ENT_INFO_ACT e == 7
    else s
  let s := if old = mDELAY then dlyDrop s p else s
  let s := if hasTap old && !hasTap new then closeRun s p else s
  let s := if new = mDARK then capOff s p pos 3 else s
  if old = mSOURCE then s.setRpl p none else s

/-- A path enters its new mode. -/
def modeEnter (s : State) (p pos old new : Nat) : State :=
  let s := s.each (s.linkPaths p) fun s q => s.clr .X_PATH_STOPPED q
  let s := s.each (s.linkLanes (p / 2)) fun s m => if s.on .X_LANE_IDLE m then s.set .X_LANE_LAG m else s
  let s := if old = mDARK ∧ new ≠ mDARK then cancelAll (posZero s p) p pos else s
  let s := if new = mDARK then rxOff (cancelAll s p pos) p else s
  let s := if new = mDELAY then dlyEnter s p else s
  if new = mSOURCE ∧ s.srcSel p = 0 then rplBegin s p else s

/-- The profile's program switches capture at a path's switch point (R646): off for a mode without a tap, on for one with. -/
def f5CapLeave (s : State) (p pos new : Nat) : State :=
  if s.profiled (gOf p) && s.bit .F5_CTL_CAP 0 (gOf p) && !hasTap new then capOff s p pos 0 else s
def f5CapEnter (s : State) (p pos : Nat) : State :=
  if s.profiled (gOf p) && s.bit .F5_CTL_CAP 0 (gOf p) && hasTap (s.mode p) then
    if s.on .PUN_CFG_EN (s.rd .STRM_CFG_PUN p) then capOn s p pos else s.set .F5_STAT_CAPERR 0
  else s

/-- One of the two paths that a host write changed together reaches its switch point (R82). -/
def splitStep (s : State) (n : Nat) : State := s.wr .X_SPLIT n (if s.rd .X_SPLIT n = 1 then 2 else 0)

/-- The pending change of governing path p takes effect at the unit at a position, on every lane of its link (R77 to R86). -/
def switchMode (s : State) (p pos : Nat) : State :=
  match s.getChg p with
  | none => s
  | some c =>
    let old := s.mode p
    let new := c.target
    let n := p / 2
    let wasR := s.kindR n
    let s := splitStep ((s.setChg p none).clr (pendFld p) n) n
    let s := if hasTap old then modeEvent s p pos old new else s
    let s := modeLeave (if new = mDARK then s else f5CapLeave s p pos new) p pos old new
    let s := s.wr (modeFld p) n new
    let s := s.each (s.linkPaths p) fun s q => s.set .X_SWITCHED q
    let s := modeEnter s p pos old new
    let s := f5CapEnter (if hasTap old then s else modeEvent s p pos old new) p pos
    refreshLink (pairingChanged s n wasR) n

/-- A pending change is due at a unit, by position or stamp (R77, R78, R263). -/
def ModeChg.due (c : ModeChg) (pos stamp : Nat) : Bool :=
  match c.at_ with
  | .named (.pos q) => posReached pos q
  | .named (.epoch e) => decide (e ≤ stamp)
  | .host q => posReached pos q
  | .fromDark _ => false

/-- The change of governing path p that is due at a unit takes effect. -/
def modeDue (s : State) (p pos stamp : Nat) : State :=
  match s.getChg p with
  | some c => if c.due pos stamp then switchMode s p pos else s
  | none => s

/-- MODE_SWITCH (R77): the change that is due at the next unit of path p takes effect there, at its position and stamp (R223). -/
def execModeSwitch (p : Fin 512) (s : State) : Host.Outcome State Fault Refusal :=
  live s fun s => modeDue s (s.govPath p) (posAdd (s.pos (s.govPath p)) 1) (s.stampOf p)

/-- MODE_CHANGE_TIMEOUT (R78): no unit arrived on path p within 1 µs of an accepted host change, whose unit is therefore still 64 away. -/
def execModeChangeTimeout (p : Fin 512) (s : State) : Host.Outcome State Fault Refusal :=
  live s fun s =>
    let q := s.govPath p
    match s.getChg q with
    | some ⟨_, .host r⟩ => if r = posAdd (s.pos q) 64 then switchMode s q (posAdd (s.pos q) 1) else s
    | _ => s

/-- A lane awaits foreground calibration (R50, R204). -/
def State.calWaits (s : State) (n : Nat) : Bool := s.on .X_CAL_FG n || s.on .X_CAL_DFLT n

/-- MODE_FROM_DARK_EFFECT (R79): the change out of DARK of path p takes effect, once PDA g is on and every lane is calibrated. The moment that a program's change names fixes nothing
there, since no unit arrives; it orders the change among the program's other actions (R313). -/
def execModeFromDarkEffect (p : Fin 512) (s : State) : Host.Outcome State Fault Refusal :=
  live s fun s =>
    let q := s.govPath p
    match s.getChg q with
    | some ⟨_, .fromDark _⟩ =>
      if s.pwrOn (gOf q) && !(s.linkLanes (q / 2)).any s.calWaits then switchMode s q (s.pos q) else s
    | _ => s

end Sys2Proof.Machine
end

