-- ==== Sys2Proof/Machine/Events.lean ====
section
/-! DEFINITION. Lane events, ERROR and TRAIN records (R372, R373, R541). -/
namespace Sys2Proof.Machine

/-- The lane event of lane n for the port on side 0 (An) or 1 (Bn), and a slice (R541). -/
def laneEvent (s : State) (n kind side slice : Nat) : State := s.raise (512 + n) kind (side + 2 * slice)

/-- The lane event of a transceiver. -/
def portEvent (s : State) (r kind : Nat) : State := laneEvent s (portPath r / 2) kind (if r % 32 < 16 then 0 else 1) 0

/-- Lanes of a link by their receiver's error rate on one side: the worst first. -/
def State.worstRx (s : State) (p : Nat) : Nat :=
  (s.linkPaths p).foldl (fun w q => if signed 16 (s.rd .QUAL_BER_BER (rxPort w)) < signed 16 (s.rd .QUAL_BER_BER (rxPort q)) then q else w) (s.govPath p)

/-- The TRAIN record of path p's receiving side (R139, R373): the state reached, and codewords corrected, uncorrectable and symbols corrected in
the training. -/
def trainRec (s : State) (p state corr unc sym : Nat) : State :=
  let g := s.govPath p
  let n := g / 2
  let L := (s.linkOf n).getD 0
  let rate := if s.pcie n then s.rd .LNK_PSTAT_RATE L else s.rd .LNK_ETH_LRATE L
  let w := s.worstRx g
  if s.captures g then
    stageRecs s g false false [s.recNow tTRAIN (posAdd (s.pos g) 1)
      (payN 32 (leBytes 1 (p % 2) ++ leBytes 1 state ++ leBytes 1 rate ++ leBytes 1 (s.activeWidth n)
        ++ leBytes 2 (s.rd .QUAL_BER_BER (rxPort w)) ++ leBytes 1 (w / 2 % 16) ++ [0] ++ leBytes 4 corr ++ leBytes 4 unc ++ leBytes 4 sym))]
  else s

/-- Path of the lowest AB path of an entry's link. -/
def State.linkAB (s : State) (L : Nat) : Nat := 2 * s.linkFirst L

end Sys2Proof.Machine
end

