-- ==== Sys2Proof/Machine/Pcie.lean ====
section
/-! DEFINITION. PCI Express and CXL retiming (R91 to R115): training, equalization, elastic buffers, margining, power states, sideband pins. -/
namespace Sys2Proof.Machine

/-- The link of entry L is retimed: an enabled PCIe or CXL entry in a pairing of kind R (R69). -/
def State.retimed (s : State) (L : Nat) : Bool :=
  s.on .LINK_CFG_EN L && (s.rd .LINK_CFG_PROTO L == 1 || s.rd .LINK_CFG_PROTO L == 2) && s.kindR (s.linkFirst L)

/-- LNK_PCI in force: MAXRATE, FLITEN, MARGEN, EQBYP. -/
def State.pciMax (s : State) (L : Nat) : Nat := bitsOf (s.rd .X_PCI_EFF L) 3 1
def State.pciFlit (s : State) (L : Nat) : Bool := s.bit .X_PCI_EFF L 4
def State.pciMargen (s : State) (L : Nat) : Bool := s.bit .X_PCI_EFF L 7
def State.pciEqbyp (s : State) (L : Nat) : Bool := s.bit .X_PCI_EFF L 8

/-- Side of the Upstream Pseudo Port (R92): 0 the ports An. -/
def State.upSide (s : State) (L : Nat) : Nat := s.rd .X_PCI_EFF L % 2

/-- The path that sends on a side of a link: n.AB on side B. -/
def State.sidePath (s : State) (L side : Nat) : Nat := 2 * s.linkFirst L + (1 - side)

/-- The equalization fields that a pseudo-port's lane sends of its own (R95, R175): the preset in use; in phase 1 FS = 63, LF = 16 and its post-cursor, otherwise its coefficients. -/
def State.ownEq (s : State) (r phase : Nat) : EqInfo :=
  let f := s.rd .TX_FIRACT_ACT r
  let pre := bitsOf f 8 4
  let c0 := bitsOf f 14 9
  let post := bitsOf f 19 15
  { ec := BitVec.ofNat 2 phase, preset := BitVec.ofNat 4 (s.rd .X_EQ_PSET r - 1)
    c1 := BitVec.ofNat 6 (if phase = 1 then 63 else pre), c2 := BitVec.ofNat 6 (if phase = 1 then 16 else c0), c3 := BitVec.ofNat 6 post, reject := false }

/-- The equalization fields of the sets that go out on a side, lane by lane (R95): in equalization each lane's own, but for the preset request of phase 0, which the Downstream Pseudo Port
forwards (R98); outside it those received. -/
def State.tsLanes (s : State) (L side : Nat) (ts : TsInfo) : List EqInfo :=
  (s.termPorts L side).map fun r =>
    if s.rd .LNK_PSTAT_STATE L == 2 then
      let own := s.ownEq r (s.rd .X_EQ_PHASE L)
      if s.rd .X_EQ_PHASE L == 0 && side != s.upSide L then { own with preset := ts.eq.preset } else own
    else ts.eq

/-- A training set as forwarded (R95) toward side: rates, flit mode and bypass cut, the Retimer Present fields of a TS2 on its way downstream (R94). Its equalization fields are
those of the lowest lane. -/
def tsAltered (s : State) (L side : Nat) (ts : TsInfo) : TsInfo :=
  { ts with
    rates := ts.rates &&& BitVec.ofNat 7 (2 ^ (s.pciMax L + 1) - 1)
    flit := ts.flit && s.pciFlit L
    noEq := ts.noEq && s.pciEqbyp L
    bypass := ts.bypass && s.pciEqbyp L
    eq := (s.tsLanes L side ts).headD ts.eq
    retimers := if ts.ts2 && side != s.upSide L then (if ts.retimers = 0 then 1 else 2) else ts.retimers }

/-- RETIMER_POSITION (R94): a TS2 received on the Upstream Pseudo Port gives the position. DESIGN CHOICE (log 76): the path event is raised when the position first becomes 3, and not
again until Detect. -/
def tsPosition (s : State) (L : Nat) (ts : TsInfo) : State :=
  if ts.retimers = 0 then s.wr .LNK_PSTAT_RTPOS L 1
  else if ts.retimers = 1 then s.wr .LNK_PSTAT_RTPOS L 2
  else if s.rd .LNK_PSTAT_RTPOS L = 3 then s
  else pathEventNext (s.wr .LNK_PSTAT_RTPOS L 3) (s.linkAB L) msgPROTOCOL

/-- Interval of the SKP Ordered Sets in a stream that the device generates (R101): the Base Specification gives it for CLKMODE and rate. -/
def State.skpEvery (s : State) (L : Nat) : Nat := Config.skpInterval (bitsOf (s.rd .X_PCI_EFF L) 6 5) (s.rd .LNK_PSTAT_RATE L)

/-- Sets at entry to and exit from electrical idle are the device's own (R95), and a stream that begins carries SKP Ordered Sets at its own interval (R101): on each lane whose
transmitter was at idle, or not, and is no longer so. -/
def idleEdges (s : State) (L : Nat) (was : Nat → Bool) : State :=
  s.each ((s.entryLanes L).flatMap fun n => [2 * n, 2 * n + 1]) fun s p =>
    if was p == s.linkIdle p then s else s.emitTx p (.idleSet p (s.linkIdle p) (if s.linkIdle p then 0 else s.skpEvery L))

/-- Lanes that are deskewed into a link of 2^after lanes take the link position (R217, R219): those from lane n on, and those that were idled. -/
def lanesJoin (s : State) (L n after : Nat) : State :=
  s.each ((s.entryLanes L).take (2 ^ after)).zipIdx fun s e => if n ≤ e.2 ∨ s.on .X_LANE_IDLE e.1 then laneJoin s L e.1 else s

/-- A link changes rate (R98), on every lane and both pseudo-ports at once: to the rate that its partners have agreed, at the EIOS that ends the current one. -/
def rateSwitch (s : State) (L : Nat) : State :=
  match s.rd .X_RATE_NEXT L with
  | 0 => s
  | r + 1 =>
    let s := rateChanged ((s.clr .X_RATE_NEXT L).wr .LNK_PSTAT_RATE L r) L
    refreshLink (linkEvent s (s.linkFirst L)) (s.linkFirst L)

/-- The link's state machines reach a position: LINK records in both directions when anything changed, TRAIN records at L0 (R373, R374). A new rate waits for its EIOS (R98). -/
def linkTo (s : State) (L : Nat) (tgt : LinkPos) : State :=
  let n := s.linkFirst L
  let st := s.rd .LNK_PSTAT_STATE L
  let was := fun p => s.linkIdle p
  let rate := s.rd .LNK_PSTAT_RATE L
  let s := s.wr .X_EQ_PHASE L (if tgt.state = 2 then tgt.phase.val else 0)
  let s := s.wr .X_RATE_NEXT L (if tgt.state = 1 ∧ tgt.rate.val ≠ rate then tgt.rate.val + 1 else 0)
  let flit := tgt.flit && tgt.state != 0
  let same := st == tgt.state.val && s.on .LNK_PSTAT_FLIT L == flit && s.rd .LNK_PSTAT_WIDTH L == tgt.width.val
  if same then s
  else
    let width := s.rd .LNK_PSTAT_WIDTH L
    let trained := (st == 1 || st == 2) && tgt.state == 3
    let s := if tgt.state = 0 ∧ st ≠ 0 then enterDetect s L else s
    let s := if tgt.state = 2 ∧ st ≠ 2 then s.each (s.entryLanes L) fun s m => s.each (lanePorts m) fun s r => s.clr .X_EQ_DONE r else s
    let s := ((s.wr .LNK_PSTAT_STATE L tgt.state).wrB .LNK_PSTAT_FLIT L flit).wr .LNK_PSTAT_WIDTH L tgt.width
    let s := lanesJoin s L (if st = 0 then 0 else 2 ^ width) tgt.width
    let s := idleEdges (refreshLink (linkEvent s n) n) L was
    if trained then trainRec (trainRec s (2 * n) 3 0 0 0) (2 * n + 1) 3 0 0 0 else s

/-- A state that training sets lead to: the power states are not (R108). After L2 the link restarts from Detect, it leaves Detect for training (R98), and L1.2 ends by CLKREQ# alone. -/
def pciNext (a b : Nat) : Bool :=
  a != 8 && !decide (4 ≤ b ∧ b ≤ 9) && (if a = 9 then b == 0 else if a = 0 then decide (b ≤ 1) else true)

/-- A position that the device supports (R91): rates within MAXRATE, widths within the link's, 64 and 128 GT/s in flit mode alone, equalization from 8 GT/s up; a rate other than the one in
force is agreed in training (R98). -/
def State.posOk (s : State) (L : Nat) (tgt : LinkPos) : Bool :=
  decide (tgt.rate.val ≤ s.pciMax L ∧ tgt.width.val ≤ s.rd .LINK_CFG_WIDTH L) && (!tgt.flit || s.pciFlit L) && (decide (tgt.rate.val < 5) || tgt.flit)
    && (tgt.state != 2 || decide (2 ≤ tgt.rate.val)) && (decide (tgt.state.val ≤ 1) || tgt.rate.val == s.rd .LNK_PSTAT_RATE L)
    && pciNext (s.rd .LNK_PSTAT_STATE L) tgt.state

/-- A side requests settings of its partner on port r (R98, R100): the Upstream Pseudo Port in phase 2 and the Downstream one in phase 3, until its receiver's evaluation is complete. -/
def State.eqAsks (s : State) (L side r : Nat) : Bool := (s.rd .X_EQ_PHASE L == 2) == (side == s.upSide L) && !s.on .X_EQ_DONE r

/-- The equalization fields of a lane's own set in phases 2 and 3: its receiver's request, whose values are free, or what its transmitter uses. -/
def ownLane (L side : Nat) (x : List EqInfo × State) (r : Nat) : List EqInfo × State :=
  let ph := x.2.rd .X_EQ_PHASE L
  let own := x.2.ownEq r (if x.2.on .X_EQ_DONE r then (ph + 1) % 4 else ph)
  if x.2.eqAsks L side r then
    let y := x.2.freshNat
    (x.1 ++ [{ own with preset := BitVec.ofNat 4 y.1, c1 := BitVec.ofNat 6 (y.1 / 16), c2 := BitVec.ofNat 6 (y.1 / 1024), c3 := BitVec.ofNat 6 (y.1 / 65536) }], y.2)
  else (x.1 ++ [own], x.2)

/-- A pseudo-port's own set in equalization phases 2 and 3 (R95), lane by lane, with SKP Ordered Sets at the interval of R101. -/
def ownSet (s : State) (L side : Nat) (ts : TsInfo) : State :=
  let x := (s.termPorts L side).foldl (ownLane L side) ([], s)
  x.2.emitTx (s.sidePath L side) (.tsOwn L side { tsAltered s L side ts with eq := x.1.headD ts.eq } x.1 (s.skpEvery L))

/-- A transmitter takes what a preset maps to (R98, R99, R175). -/
def presetPort (s : State) (L r preset : Nat) : State :=
  refreshPort ((s.wr .X_FIR_TRN r (Config.presetFir (s.rd .LNK_PSTAT_RATE L) preset % 2 ^ 30 + 2 ^ 30)).wr .X_EQ_PSET r (preset + 1)) r

/-- Every lane's transmitter on a side takes a preset. -/
def presetApply (s : State) (L side preset : Nat) : State := s.each (s.termPorts L side) fun s r => presetPort s L r preset

/-- A training set received on a side goes on (R95), unless an injection entry has put something in its place at the path's stage (R127). -/
def tsForward (s : State) (L side : Nat) (ts : TsInfo) : State :=
  let p := 2 * s.linkFirst L + side
  if s.on .X_TS_CUT p then s.clr .X_TS_CUT p
  else s.emitTx p (.ts L (1 - side) (tsAltered s L (1 - side) ts) (s.tsLanes L (1 - side) ts))

/-- TRAINING_ORDERED_SET (R98): a training set received on side A (0) or B (1) of a retimed link, and the position of the Base Specification's state machines that it brings the
link to. It is forwarded with the alterations of R95; in equalization phases 2 and 3 each pseudo-port sends its own sets instead. In phase 0 its preset request is
applied to the transmitter that faces its sender; a request for precoding is honoured from 32.0 GT/s up (R91). -/
def execTrainingOrderedSet (L : Fin 256) (side : Fin 2) (ts : TsInfo) (tgt : LinkPos) (s : State) : Host.Outcome State Fault Refusal :=
  live s fun s =>
    if s.retimed L && s.posOk L tgt then
      let s := settle s (2 * s.linkFirst L + side.val)
      let eq := s.rd .LNK_PSTAT_STATE L == 2
      let ph := s.rd .X_EQ_PHASE L
      let s := if side.val == s.upSide L && ts.ts2 then tsPosition s L ts else s
      let s := if eq && ph == 0 then presetApply s L side ts.eq.preset.toNat else s
      let s := s.each (s.termPorts L side) fun s r => s.wrB .X_PRECODE r (ts.precode && decide (4 ≤ tgt.rate.val))
      let s := if eq && decide (2 ≤ ph) then ownSet s L side ts else tsForward s L side ts
      linkTo s L tgt
    else s

/-- A coefficient word within the constraints of R174. -/
def firOk (v : Nat) : Bool :=
  let cm2 := bitsOf v 3 0
  let cm1 := bitsOf v 8 4
  let c0 := bitsOf v 14 9
  let c1 := bitsOf v 19 15
  let c2 := (signed 5 (bitsOf v 24 20)).natAbs
  let c3 := (signed 5 (bitsOf v 29 25)).natAbs
  decide (cm2 ≤ 8 ∧ cm1 ≤ 24 ∧ 16 ≤ c0 ∧ c1 ≤ 24 ∧ c2 ≤ 8 ∧ c3 ≤ 8 ∧ cm2 + cm1 + c0 + c1 + c2 + c3 ≤ 63
    ∧ 16 + cm2 + cm1 + c1 + c2 + c3 ≤ c0)

/-- The side of a port: 0 for An. -/
def portSide (r : Nat) : Nat := if r % 32 < 16 then 0 else 1

/-- Port r's receiver evaluates in the equalization phase in progress (R98): the Upstream Pseudo Port's in phase 2, the Downstream one's in phase 3; a terminator's while it trains at 8.0 GT/s and above
(R116). -/
def State.eqEvaluates (s : State) (r : Nat) : Bool :=
  let n := portPath r / 2
  match s.linkOf n with
  | none => false
  | some L =>
    if s.kindR n then s.pcie n && s.rd .LNK_PSTAT_STATE L == 2 && s.rd .X_EQ_PHASE L == (if portSide r = s.upSide L then 2 else 3)
    else s.trainedFir r && (match s.termAt L (portSide r) with | some t => s.rd .LT_STAT_LTSSM t == 3 && decide (2 ≤ s.rd .LT_STAT_RATE t) | none => false)

/-- Port r's transmitter takes settings that its partner requests (R98, R132, R176): in phase 0, in phase 2 on the Downstream and in phase 3 on the Upstream Pseudo Port; while an
Ethernet segment trains; a terminator while it trains, at 8.0 GT/s and above on a PCIe or CXL link (R116). -/
def State.eqTakes (s : State) (r : Nat) : Bool :=
  let n := portOwner r / 2
  s.trainedFir r && match s.linkOf n with
  | none => false
  | some L =>
    if s.kindR n then
      if s.pcie n then s.rd .LNK_PSTAT_STATE L == 2 && (s.rd .X_EQ_PHASE L == 0 || s.rd .X_EQ_PHASE L == (if portSide r = s.upSide L then 3 else 2))
      else s.rd (if portSide r = 0 then .LNK_ESTAT_SEGA else .LNK_ESTAT_SEGB) L == 2
    else match s.termAt L (portSide r) with
      | some t => if s.pcie n then s.rd .LT_STAT_LTSSM t == 3 && decide (2 ≤ s.rd .LT_STAT_RATE t) else s.rd .LT_ETH_STAT_STATE t == 2
      | none => false

/-- EQ_PRESET_REQUEST (R99, R175): a partner's request to port r's transmitter: a preset, mapped to coefficients for FS = 63 and LF = 16, or coefficients, which are rejected outside
the constraints of R174; the answer goes back. -/
def execEqPresetRequest (r : Fin 512) (req : EqReq) (s : State) : Host.Outcome State Fault Refusal :=
  live s fun s =>
    if !s.eqTakes r then s
    else
      let L := (s.linkOf (portOwner r / 2)).getD 0
      match req with
      | .preset p =>
        let s := presetPort s L r p
        s.emit (.eqAnswer r (s.rd .TX_FIRACT_ACT r) false)
      | .coef c =>
        if firOk c.toNat then
          let s := refreshPort ((s.wr .X_FIR_TRN r (c.toNat + 2 ^ 30)).clr .X_EQ_PSET r) r
          s.emit (.eqAnswer r (s.rd .TX_FIRACT_ACT r) false)
        else s.emit (.eqAnswer r c.toNat true)

/-- EQ_PHASE_DONE (R100): port r's receiver completes its evaluation; an error estimate above the rate's target raises the lane event. -/
def execEqPhaseDone (r : Fin 512) (missed : Bool) (s : State) : Host.Outcome State Fault Refusal :=
  live s fun s =>
    if !s.eqEvaluates r then s
    else
      let s := s.set .X_EQ_DONE r
      if missed then portEvent s r msgLIMIT else s

/-! SKP handling (R101 to R104). -/

/-- The path passes units through an elastic buffer: a forwarding or looped path of a PCIe or CXL link (R101, R169). -/
def State.hasEb (s : State) (p : Nat) : Bool := s.pcie (p / 2) && (forwards (s.mode p) || s.mode p == mLOOP)

/-- SKP symbols of a granule (R102): 8b/10b, 128b/130b, 1b/1b. -/
def granule (rate : Nat) : Nat := if rate ≤ 1 then 1 else if rate ≤ 4 then 4 else 8

/-- The set that reaches the elastic buffer of path p has left its injection stage (R104): what is settled there passes first, and nothing is held. -/
def ebReach (s : State) (p : Nat) : State := settle s p

/-- SKP_ORDERED_SET (R102, R104, R312): a SKP Ordered Set passes the elastic buffer of path p, on every lane of its link. A pending SKPADJ whose position has come and whose latency stays
within the wander takes the place of the buffer's own adjustment: drift 0 none, 1 add a granule, 2 remove one. -/
def execSkpOrderedSet (p : Fin 512) (drift : Fin 3) (s : State) : Host.Outcome State Fault Refusal :=
  live s fun s =>
    let g := s.govPath p
    let s := ebReach s g
    if !s.hasEb g || s.atStage g != [] then s
    else
      let o := s.rd .X_EB_OFS g
      let short := s.on .X_SKP_DIR g
      let adj := s.on .X_SKP_V g && posReached (s.pos g) (s.rd .X_SKP_POS g) && (if short then decide (0 < o) else decide (o < 2))
      let s := if adj then s.clr .X_SKP_V g else s
      let add := if adj then !short else drift == 1 && decide (o < 2)
      let rem := if adj then short else drift == 2 && decide (0 < o)
      let s := s.wr .X_EB_OFS g (if add then o + 1 else if rem then o - 1 else o)
      s.emit (.skp g (if add then 1 else if rem then -1 else 0) (granule (s.rateOf g)))

/-- EB_RECENTRE (R103): a SKP Ordered Set passes after path p's elastic buffer has underflowed, or overflowed, and the buffer is re-centred: units of it are repeated, or discarded. -/
def execEbRecentre (p : Fin 512) (overflow : Bool) (units : Nat) (s : State) : Host.Outcome State Fault Refusal :=
  live s fun s =>
    let g := s.govPath p
    let s := ebReach s g
    match s.linkOf (g / 2) with
    | none => s
    | some L =>
      if !s.hasEb g || s.atStage g != [] then s
      else
        let s := ((s.wr .X_EB_OFS g 1).set .LNK_PSTAT_EBERR L).emit (.ebUnits g overflow units)
        errorRec (pathEventNext s g msgOVERFLOW) g (posAdd (s.pos g) 1) 8 (p / 2 % 16) 0 0

/-! Lane margining (R105 to R107). -/

/-- The Receiver Number of a pseudo-port's receiver at the device's position (R94, R105): PRESUMED (log 77) 2 and 3 for the first retimer, 4 and 5 for the second. -/
def State.rcvNumber (s : State) (L side : Nat) : Nat :=
  let up := if side = s.upSide L then 0 else 1
  match s.rd .LNK_PSTAT_RTPOS L with
  | 0 => 0
  | 1 => 2 + up
  | _ => 4 + up

/-- The parameter that a report request names, as the table of R105 gives it. PRESUMED (log 77): the request codes of the Base Specification. -/
def marginParam (pam : Bool) (code : Nat) : Option Nat :=
  match code with
  | 0x88 => some 31
  | 0x89 => some 64
  | 0x8A => some 32
  | 0x8B => some (if pam then 40 else 50)
  | 0x8C => some (if pam then 12 else 30)
  | 0x8D => some 63
  | 0x8E => some 63
  | 0x90 => some 15
  | _ => none

/-- MARGACT of a link follows its ports (R106). -/
def margShow (s : State) (L : Nat) : State :=
  s.wrB .LNK_PSTAT_MARGACT L ((s.entryLanes L).any s.margined)

/-- Margining of port r begins or ends: the rotation of its lane pauses meanwhile (R106, R203). -/
def setMarg (s : State) (L r : Nat) (on : Bool) : State :=
  let n := portPath r / 2
  let s := margShow (s.wrB .X_MARG r on) L
  let s := s.each (lanePorts n) fun s x =>
    if on then calPause s (trimPort x)
    else if s.margined n || !s.on .XCVR_STAT_ADAPTED x then s else calResume s (trimPort x)
  s.each (lanePorts n) refreshPort

/-- The Control SKP payload in its fields: Receiver Number, Margin Type, Margin Payload. PRESUMED (log 77): the Base Specification's layout. -/
def margRcv (c : BitVec 16) : Nat := bitsOf c.toNat 2 0
def margType (c : BitVec 16) : Nat := bitsOf c.toNat 5 3
def margPay (c : BitVec 16) : Nat := bitsOf c.toNat 15 8

/-- Answer a command addressed to port r out of another port (R105): a report names its parameter; a step starts margining, and Go to Normal Settings ends it. Counts and statuses are the receiver's, and
free. -/
def margAnswer (s : State) (L r out : Nat) (c : BitVec 16) : State :=
  let pam := s.pam4 (portPath r / 2)
  let s := if margType c = 3 || margType c = 4 then setMarg s L r true
    else if margType c = 2 && margPay c == 0x0F then setMarg s L r false else s
  let x := match margType c with
    | 1 => (match marginParam pam (margPay c) with | some v => (v, s) | none => s.freshNat)
    | 2 => (margPay c, s)
    | _ => s.freshNat
  x.2.emit (.margin out (leBytes 1 (c.toNat % 256) ++ leBytes 1 x.1))

/-- MARGIN_COMMAND (R105 to R107): a margining payload of a Control SKP Ordered Set arrives on lane n, at side A (0) or B (1). A command that comes down the link to a Receiver
Number of the device's own is answered out of the Upstream Pseudo Port; anything else goes on unchanged. -/
def execMarginCommand (n : Fin 256) (side : Fin 2) (c : BitVec 16) (s : State) : Host.Outcome State Fault Refusal :=
  live s fun s =>
    match s.linkOf n with
    | none => s
    | some L =>
      let port := fun (d : Nat) => if d = 0 then rxPort (2 * n.val) else rxPort (2 * n.val + 1)
      if !s.retimed L then s
      else if side.val == s.upSide L && s.pciMargen L && decide (3 ≤ s.rd .LNK_PSTAT_RATE L) && margRcv c != 0 && margRcv c == s.rcvNumber L 0 then
        margAnswer s L (port 0) (port (s.upSide L)) c
      else if side.val == s.upSide L && s.pciMargen L && decide (3 ≤ s.rd .LNK_PSTAT_RATE L) && margRcv c != 0 && margRcv c == s.rcvNumber L 1 then
        margAnswer s L (port 1) (port (s.upSide L)) c
      else s.emit (.margin (port (1 - side.val)) (leBytes 2 c.toNat))

/-- MARGIN_TIMEOUT (R106): 100 ms after port r's last margining command the rotation resumes. -/
def execMarginTimeout (r : Fin 512) (s : State) : Host.Outcome State Fault Refusal :=
  live s fun s =>
    match s.linkOf (portPath r / 2) with
    | some L => if s.on .X_MARG r then setMarg s L r false else s
    | none => s

/-! Power states and sideband pins (R108 to R111). -/

/-- The sideband pin assigned as a link's CLKREQ# (R109). -/
def State.clkreqPin (s : State) (L : Nat) : Option Nat :=
  ((List.range 4).map fun i => 4 * (L / 16) + i).find? fun k => s.rd .GSB_CFG_FUNC k == 2 && s.rd .GSB_CFG_LINK k == L % 16

/-- A power state that the link's mode offers (R91): L0s outside flit mode, L0p in it; after L2 the link restarts from Detect (R108). -/
def State.powerOk (s : State) (L st : Nat) : Bool :=
  let now := s.rd .LNK_PSTAT_STATE L
  decide (3 ≤ now ∧ now ≤ 9) && (now != 9 || st == 9)
    && (if st = 5 then !s.on .LNK_PSTAT_FLIT L else if st = 4 then s.on .LNK_PSTAT_FLIT L else decide (3 ≤ st ∧ st ≤ 9))

/-- A link leaves L1.2: the device drives CLKREQ# low (R111). -/
def clkreqExit (s : State) (L : Nat) : State :=
  match s.clkreqPin L with
  | some k => ((s.set .X_CLKREQ k).clr .GSB_CFG_LEVEL k).emit (.gsbLow k)
  | none => s

/-- A link enters L1.2: the device lets CLKREQ# go, and its idle detectors are off (R108, R165). -/
def l12Enter (s : State) (L : Nat) : State :=
  let s := match s.clkreqPin L with | some k => (s.clr .X_CLKREQ k).wr .GSB_CFG_LEVEL k (s.rd .X_GSB_EXT k) | none => s
  s.each (s.entryLanes L) fun s m => s.each (lanePorts m) fun s r => s.clr .XCVR_STAT_SIGDET r

/-- The lanes that the partners idle stop counting, and those that return take the link's position (R110, R219). DESIGN CHOICE (log 78): the lowest lane is never idled. -/
def lanesIdle (s : State) (L : Nat) (idled : Nat → Bool) : State :=
  let n := s.linkFirst L
  s.each (s.entryLanes L) fun s m =>
    if idled (m - n) && m != n then s.set .X_LANE_IDLE m
    else if s.on .X_LANE_IDLE m then laneJoin s L m else s

/-- LINK_POWER_STATE (R108 to R110, R219): the partners enter power state st, with lanes idled in L0p, and the directions that are in L0s. L1.2 needs a CLKREQ# pin that senses
high; without it the device keeps its L1.1 behaviour. DESIGN CHOICE (log 78): an operand that idles the link's lowest lane leaves that lane active. -/
def execLinkPowerState (L : Fin 256) (st : Fin 13) (idled : BitVec 16) (dirs : BitVec 2) (s : State) : Host.Outcome State Fault Refusal :=
  live s fun s =>
    if s.retimed L && s.powerOk L st then
      let n := s.linkFirst L
      let was := fun p => s.linkIdle p
      let high := match s.clkreqPin L with | some k => s.on .X_GSB_EXT k | none => false
      let st' := if st.val = 8 && !high then 7 else st.val
      let s := if s.rd .LNK_PSTAT_STATE L = 8 ∧ st' ≠ 8 then clkreqExit s L else s
      let s := ((s.wr .LNK_PSTAT_STATE L st').wrB .X_L12 L (st.val == 8)).wr .X_L0S L (if st' = 5 then dirs.toNat else 0)
      let s := lanesIdle s L fun i => st.val == 4 && idled.getLsbD i
      let s := if st' = 8 then l12Enter s L else s
      idleEdges (refreshLink (linkEvent s n) n) L was
    else s

/-- GSB_PERST (R111, R273): sideband pin i of grove g takes a level. As PERST#, a falling edge returns its link's retimer state to Detect and discards the results of
equalization; as CLKREQ#, a pin that nobody drives low admits its link to L1.2, and one that a
partner drives low ends it (R108), in L1 (DEDUCED, log 78); as a sequencer input, an edge reaches the waits. A pin that the device drives follows it alone. -/
def execGsbPerst (g : Fin 16) (i : Fin 4) (level : Bool) (s : State) : Host.Outcome State Fault Refusal :=
  live s fun s =>
    let k := 4 * g.val + i.val
    let f := s.rd .GSB_CFG_FUNC k
    let L := 16 * g.val + s.rd .GSB_CFG_LINK k
    let was := s.on .GSB_CFG_LEVEL k
    if f = 4 then s
    else
      let s := (s.wrB .X_GSB_EXT k level).wrB .GSB_CFG_LEVEL k (level && !(f == 2 && s.on .X_CLKREQ k))
      if f = 1 ∧ was ∧ !level then
        if s.on .LINK_CFG_EN L then
          let n := s.linkFirst L
          let s := if s.retimed L then rateChanged (enterDetect s L) L else s
          let s := s.each (s.entryLanes L) fun s m => s.each (lanePorts m) fun s r => (s.clr .X_FIR_TRN r).clr .X_EQ_PSET r
          pathEventNext (linkEvent (refreshLink s n) n) (s.linkAB L) msgSTATE
        else s
      else if f = 2 ∧ s.retimed L ∧ s.on .X_L12 L ∧ s.rd .LNK_PSTAT_STATE L = 7 ∧ level then
        let n := s.linkFirst L
        refreshLink (linkEvent (l12Enter (s.wr .LNK_PSTAT_STATE L 8) L) n) n
      else if f = 2 ∧ s.retimed L ∧ s.rd .LNK_PSTAT_STATE L = 8 ∧ !level then
        let n := s.linkFirst L
        refreshLink (linkEvent (clkreqExit ((s.wr .LNK_PSTAT_STATE L 6).clr .X_L12 L) L) n) n
      else if f = 3 ∧ was ≠ level then pollGsb s g i
      else s

/-- FMT agrees with PROTO (R114). -/
def fmtAgrees (proto fmt : Nat) : Bool := if proto = 1 then fmt == 0 else fmt != 0

/-- CXL_NEGOTIATION (R113, R114): the modified TS2 sets of link L complete the alternate protocol negotiation. -/
def execCxlNegotiation (L : Fin 256) (fmt : Fin 4) (s : State) : Host.Outcome State Fault Refusal :=
  live s fun s =>
    if s.retimed L then
      let changed := s.rd .LNK_PSTAT_FMT L != fmt.val
      let s := s.wr .LNK_PSTAT_FMT L fmt
      let ok := fmtAgrees (s.rd .LINK_CFG_PROTO L) fmt
      let s := s.wrB .LNK_PSTAT_PMIS L (!ok)
      let s := if changed then linkEvent s (s.linkFirst L) else s
      if ok then s else pathEventNext s (s.linkAB L) msgPROTOCOL
    else s

/-- Write of LNK_PCI (R93). A reserved MAXRATE or CLKMODE keeps the field (R6). -/
def lnkPciSet (s : State) (L v : Nat) : State :=
  let s := s.wr .LNK_PCI_UPSIDE L (bitsOf v 0 0)
  let s := if bitsOf v 3 1 = 7 then s else s.wr .LNK_PCI_MAXRATE L (bitsOf v 3 1)
  let s := s.wr .LNK_PCI_FLITEN L (bitsOf v 4 4)
  let s := if bitsOf v 6 5 = 3 then s else s.wr .LNK_PCI_CLKMODE L (bitsOf v 6 5)
  let s := (s.wr .LNK_PCI_MARGEN L (bitsOf v 7 7)).wr .LNK_PCI_EQBYP L (bitsOf v 8 8)
  if s.on .LINK_CFG_EN L && !s.entryDark L then s else s.wr .X_PCI_EFF L (s.pciWord L)

def execLnkPciWrite (r : Route) (L : Fin 256) (v : DW) (s : State) : Host.Outcome State Fault Refusal :=
  live s fun s => gate r (gAddr (L / 16) (0x500 + 4 * (L % 16))) (fun s => lnkPciSet s L v.toNat) s

end Sys2Proof.Machine
end

