-- ==== Sys2Proof/Machine/Term.lean ====
section
/-! DEFINITION. Link terminators (R116 to R125, R129, R142 to R145): rings, packet buffer, credits, frames. -/
namespace Sys2Proof.Machine

/-- A lane of the terminator's link is not DARK (R129, R145). -/
def State.ltLit (s : State) (t : Nat) : Bool := s.on .LINK_CFG_EN (s.ltLink t) && !s.entryDark (s.ltLink t)

/-- The path that the terminator receives on, and its grove. -/
def State.ltRxPath (s : State) (t : Nat) : Nat := 2 * s.linkFirst (s.ltLink t) + s.rd .LT_CFG_SIDE t
def ltGrove (t : Nat) : Nat := t / 2

/-- The path that the terminator sends on. -/
def State.ltTxPath (s : State) (t : Nat) : Nat := revPath (s.ltRxPath t)

/-- The terminator runs: it is in use, and its side is terminated by a pairing of kind S in force (R69). -/
def State.ltUp (s : State) (t : Nat) : Bool :=
  s.on .LT_CFG_EN t && s.on .LINK_CFG_EN (s.ltLink t) && s.mode (s.ltTxPath t) == mSOURCE && s.srcSel (s.ltTxPath t) == 2

def State.ltEth (s : State) (t : Nat) : Bool := s.rd .LINK_CFG_PROTO (s.ltLink t) == 3

/-- Write of LT_PCI_CFG (R129). A reserved MAXRATE keeps the field (R6). -/
def ltPciCfgSet (s : State) (t v : Nat) : State :=
  if s.ltLit t then s.set .GRV_LINKERR_ERR (ltGrove t)
  else
    let s := s.wr .LT_PCI_CFG_ROLE t (bitsOf v 0 0)
    let s := if bitsOf v 3 1 = 7 then s else s.wr .LT_PCI_CFG_MAXRATE t (bitsOf v 3 1)
    (s.wr .LT_PCI_CFG_FLITEN t (bitsOf v 4 4)).wr .LT_PCI_CFG_CXLEN t (bitsOf v 5 5)

def ltAddr (t o : Nat) : Nat := gAddr (t / 2) (0x600 + 0x20 * (t % 2) + o)

def execLtPciCfgWrite (r : Route) (t : Fin 32) (v : DW) (s : State) : Host.Outcome State Fault Refusal :=
  live s fun s => gate r (ltAddr t 0) (fun s => ltPciCfgSet s t v.toNat) s

/-- Write of LT_RXRING or LT_TXRING (R120, R129). -/
def ltRingSet (s : State) (t : Nat) (tx : Bool) (v : Nat) : State :=
  let base := bitsOf v 11 0
  let size := bitsOf v 21 12
  if s.ltLit t || decide (4095 < base + 1 + 4 * size) then s.set .GRV_LINKERR_ERR (ltGrove t)
  else if tx then (s.wr .LT_TXRING_BASE t base).wr .LT_TXRING_SIZE t size
  else (s.wr .LT_RXRING_BASE t base).wr .LT_RXRING_SIZE t size

def execLtRingWrite (r : Route) (t : Fin 32) (tx : Bool) (v : DW) (s : State) : Host.Outcome State Fault Refusal :=
  live s fun s => gate r (ltAddr t (if tx then 8 else 4)) (fun s => ltRingSet s t tx v.toNat) s

/-! Rings (R119). -/

/-- Indices run modulo WRAP. -/
def ringWrap (size : Nat) : Nat := size * (65536 / size)

/-- Producer and consumer index of a ring at a base word. -/
def State.ringProd (s : State) (g base : Nat) : Nat := (s.getD g base).toNat % 65536
def State.ringCons (s : State) (g base : Nat) : Nat := (s.getD g (base + 1)).toNat % 65536

/-- Descriptors that a ring holds. -/
def State.ringHeld (s : State) (g base size : Nat) : Nat :=
  let w := ringWrap size
  (s.ringProd g base + w - s.ringCons g base % w) % w

/-- First word of the descriptor slot that an index names. -/
def ringSlot (base size x : Nat) : Nat := base + 2 + 4 * (x % size)

def wordOf (v : Nat) : Word := BitVec.ofNat 64 v

/-- Put a descriptor at the producer index and advance it. -/
def ringPut (s : State) (g base size : Nat) (ws : List Nat) : State :=
  let x := s.ringProd g base
  let s := s.each ws.zipIdx fun s e => s.setD g (ringSlot base size x + e.2) (wordOf e.1)
  s.setD g base (wordOf ((x + 1) % ringWrap size))

/-! Packet buffer (R119, R123). -/

def State.pkt (s : State) (g h : Nat) : Option Pkt := nget s.pkts none (4096 * g + h)
def State.setPkt (s : State) (g h : Nat) (v : Option Pkt) : State := { s with pkts := nset s.pkts none (4096 * g + h) v }

/-- Cells of a grove that no packet occupies. -/
def State.freeCells (s : State) (g : Nat) : List Nat :=
  let used := (s.pkts.filterMap fun e => if e.1 / 4096 = g then e.2.map (·.cells) else none).flatten
  (List.range 4096).filter fun c => !used.contains c

/-- What a terminator's transmitters send, with their polarity (R164). -/
def ltEmit (s : State) (t : Nat) (o : Out) : State := s.emitTx (s.ltTxPath t) o

/-- Return credits to a terminator's partner (R124): header credits h and data credits d of a type. A ring of SIZE 0 returns none, and a terminator of an Ethernet link has none. -/
def ltReturn (s : State) (t fc h d : Nat) : State :=
  if s.rd .LT_RXRING_SIZE t = 0 || s.ltEth t then s
  else
    let s := (s.incWrap .X_LT_HC (3 * t + fc) h).incWrap .X_LT_DC (3 * t + fc) d
    ltEmit s t (.ltCredit t fc (s.rd .X_LT_HC (3 * t + fc)) (s.rd .X_LT_DC (3 * t + fc)))

/-- Free a handle (R123): its data credits go back. -/
def freeHandle (s : State) (g h : Nat) : State :=
  match s.pkt g h with
  | none => s
  | some k => ltReturn (s.setPkt g h none) k.lt k.fc 0 k.credits

/-- A program has written a data memory word: where it is a receive ring's consumer index, header credits go back for the descriptors passed (R124). -/
def ringWritten (s : State) (g w : Nat) : State :=
  s.each [2 * g, 2 * g + 1] fun s t =>
    let size := s.rd .LT_RXRING_SIZE t
    let base := s.rd .LT_RXRING_BASE t
    if 0 < size ∧ w = base + 1 then
      let types := nget s.ltHdr [] t
      let passed := types.length - s.ringHeld g base size
      let s := { s with ltHdr := nset s.ltHdr [] t (types.drop passed) }
      (types.take passed).foldl (fun s fc => ltReturn s t fc 1 0) s
    else s

/-- A write of a data memory word by a program, a thread or the host. -/
def dataWrite (s : State) (g w : Nat) (v : Word) : State := ringWritten (s.setD g w v) g w

/-- Deliver received bytes as a descriptor of a type (R119, R121, R142); nothing where the ring or the packet buffer has no room. The cells taken are
some free ones; the spec does not say which. -/
def ltDeliver (s : State) (t typ flags fc credits : Nat) (slot : Bool) (bytes : List Byte) : Option State :=
  let g := ltGrove t
  let size := s.rd .LT_RXRING_SIZE t
  let base := s.rd .LT_RXRING_BASE t
  let need := (bytes.length + 63) / 64
  let free := s.freeCells g
  if size = 0 ∨ size ≤ s.ringHeld g base size then none
  else if !slot && decide (free.length < need) then none
  else
    let x := s.freshNat
    let cells := ((free.drop (x.1 % free.length)) ++ free).take need
    let h := if slot then 0xFFFFFFFF else cells.headD 0
    let s := if slot then s else x.2.setPkt g h (some ⟨cells, bytes, t, fc, credits, false⟩)
    let pos := s.pos (s.ltRxPath t)
    let hdr := payN 16 bytes
    let s := ringPut s g base size [typ + 256 * flags + 65536 * (bytes.length % 65536) + 2 ^ 32 * h, pos, leNat (hdr.take 8), leNat (hdr.drop 8)]
    some { s with ltHdr := nset s.ltHdr [] t (nget s.ltHdr [] t ++ [fc]) }

/-! The Data Link Layer (R117). PRESUMED (log 79): sequence numbers, types and credits of TLPs as the Base Specification has them. -/

/-- The flow-control type of a TLP by its first byte: 0 posted, 1 non-posted, 2 completion. -/
def tlpFc (bytes : List Byte) : Nat :=
  let b := (bytes.getD 0 0).toNat
  if b % 32 = 0x0A ∨ b % 32 = 0x0B then 2
  else if b = 0x40 ∨ b = 0x60 ∨ (b / 8 % 4 = 2 ∧ b / 32 % 2 = 1) then 0
  else 1

/-- Data credits of a TLP: 16-byte units of its payload. -/
def tlpCredits (bytes : List Byte) : Nat :=
  let n := (bytes.getD 2 0).toNat % 4 * 256 + (bytes.getD 3 0).toNat
  if bitOf (bytes.getD 0 0).toNat 6 then ((if n = 0 then 1024 else n) + 3) / 4 else 0

/-- Sequence numbers run modulo 4,096, those of flits modulo 1,023. -/
def seqMod (flit : Bool) : Nat := if flit then 1023 else 4096

/-- The next number that a terminator expects. -/
def State.ltExpect (s : State) (t : Nat) : Nat := s.rd .X_LT_RSEQ t % seqMod (s.on .LT_STAT_FLIT t)

/-- Answer a TLP or flit that fails its check, or comes out of order, with a Nak, once until a good one arrives. -/
def ltNak (s : State) (t : Nat) : State :=
  if s.on .X_LT_NAKD t then s
  else
    let m := seqMod (s.on .LT_STAT_FLIT t)
    ltEmit ((s.incSat .LT_CNT_NAKS t 1).set .X_LT_NAKD t) t (.ltAck t false ((s.ltExpect t + m - 1) % m))

/-- LT_RX_TLP (R117, R119, R121, R125): terminator t receives a TLP, or a slot of CXL.cache or CXL.mem, numbered seq by its sender, or by the flit that carries it. One that fails its check, or
skips a number, is answered with a Nak; one that came before is acknowledged again and dropped. DESIGN CHOICE (log 22): one for which the ring or the packet buffer has no
room is acknowledged and dropped; the credits of R124 keep a partner from sending it. -/
def execLtRxTlp (t : Fin 32) (slot checkOk ecrc ep ecrcBad : Bool) (seq : BitVec 12) (bytes : List Byte) (s : State) :
    Host.Outcome State Fault Refusal :=
  live s fun s =>
    if !s.ltUp t || s.ltEth t || !s.on .LT_STAT_DLUP t || (slot && !s.on .LT_STAT_CXL t) then s
    else
      let flit := s.on .LT_STAT_FLIT t
      let m := seqMod flit
      let ahead := (seq.toNat + m - s.ltExpect t) % m
      if !checkOk || (ahead != 0 && decide (ahead < m / 2)) then ltNak s t
      else if ahead = 0 ∨ (flit ∧ ahead = m - 1) then
        let s := (if ahead = 0 then s.wr .X_LT_RSEQ t ((s.ltExpect t + 1) % m) else s).clr .X_LT_NAKD t
        let flags := if slot then 0 else (if ecrc then 1 else 0) + (if ep then 2 else 0) + (if ecrcBad then 4 else 0)
        let s := ltEmit s t (.ltAck t true (seq.toNat % m))
        (ltDeliver s t (if slot then 2 else 1) flags (tlpFc bytes) (if slot then 0 else tlpCredits bytes) slot bytes).getD s
      else ltEmit s t (.ltAck t true ((s.ltExpect t + m - 1) % m))

/-- The lowest SOURCE path of a terminator's link (R122). -/
def State.ltSource (s : State) (t : Nat) : Nat :=
  let p := 2 * s.linkFirst (s.ltLink t)
  if s.mode p = mSOURCE then p else p + 1

/-- Bytes that a transmit descriptor sends: HDR, then its cells from byte 16 on; cell bytes past the packet that they hold are free. -/
def ltTxBytes (s : State) (hdr : List Byte) (pkt : Option Pkt) (len : Nat) : List Byte × State :=
  let body := (pkt.map (·.bytes.drop 16)).getD []
  let l := hdr.take (min len 16) ++ body.take (len - 16)
  if l.length < len then
    let x := s.freshBytes (len - l.length)
    (l ++ x.1, x.2)
  else (l, s)

/-- Advance a transmit ring's consumer index. -/
def txAdvance (s : State) (t : Nat) : State :=
  let g := ltGrove t
  let base := s.rd .LT_TXRING_BASE t
  s.setD g (base + 1) (wordOf ((s.ringCons g base + 1) % ringWrap (s.rd .LT_TXRING_SIZE t)))

/-- What a transmit descriptor asks for. -/
structure TxDesc where
  typ : Nat
  flags : Nat
  len : Nat
  handle : Nat
  hdr : List Byte

/-- The descriptor at a transmit ring's consumer index. -/
def State.txDesc (s : State) (t : Nat) : TxDesc :=
  let g := ltGrove t
  let base := s.rd .LT_TXRING_BASE t
  let w := ringSlot base (s.rd .LT_TXRING_SIZE t) (s.ringCons g base)
  let v := (s.getD g w).toNat
  ⟨bitsOf v 7 0, bitsOf v 15 8, bitsOf v 31 16, bitsOf v 63 32, leBytes 8 (s.getD g (w + 2)).toNat ++ leBytes 8 (s.getD g (w + 3)).toNat⟩

/-- The packet that a handle names, allocated and not yet named by an earlier descriptor. -/
def State.txPkt (s : State) (g h : Nat) : Option Pkt :=
  if h < 4096 then (match s.pkt g h with | some k => if k.named then none else some k | none => none) else none

/-- A descriptor that is skipped (R122, R142). DESIGN CHOICE (log 80): with DROP = 1 an invalid TYPE and a HANDLE that is not there still skip it with its event; HANDLE 0xFFFFFFFF with LEN
above 16 then does not, and there is nothing to free. -/
def State.txSkipped (s : State) (t : Nat) (d : TxDesc) : Bool :=
  let typOk := if s.ltEth t then d.typ == 3 else d.typ == 1 || d.typ == 2
  !typOk || (if d.handle = 0xFFFFFFFF then decide (16 < d.len) && !bitOf d.flags 2 else (s.txPkt (ltGrove t) d.handle).isNone)

/-- A transmit descriptor has named a handle (R122). -/
def txName (s : State) (g h : Nat) : State :=
  match s.txPkt g h with
  | some k => s.setPkt g h (some { k with named := true })
  | none => s

/-- A TLP's bytes with its ECRC formed anew where FIXECRC asks for it. -/
def ecrcFixed (d : TxDesc) (l : List Byte) : List Byte :=
  if bitOf d.flags 0 && bitOf d.flags 1 then l.take (l.length - 4) ++ payN 4 (Config.ecrc (l.take (l.length - 4))) else l

/-- The check that a TLP leaves with (R122): the LCRC over its sequence number and bytes, or that of the flit that carries it. -/
def txCheck (flit : Bool) (seq : Nat) (l : List Byte) : List Byte :=
  if flit then payN 8 (Config.flitCheck (leBytes 2 seq ++ l)) else payN 4 (Config.lcrc (leBytes 2 seq) l)

/-- The partner's credits cover a TLP (R117): one header and its data, in its type. A limit that was advertised as 0 is none. -/
def State.txCredit (s : State) (t : Nat) (l : List Byte) : Bool :=
  let i := 3 * t + tlpFc l
  (s.bit .X_LT_PINF i 0 || decide ((s.rd .X_LT_PH i + 65536 - (s.rd .X_LT_CH i + 1) % 65536) % 65536 < 32768))
    && (s.bit .X_LT_PINF i 1 || decide ((s.rd .X_LT_PD i + 65536 - (s.rd .X_LT_CD i + tlpCredits l) % 65536) % 65536 < 32768))

/-- Send a TLP, or a slot of CXL.cache or CXL.mem: its number, and its place in the replay buffer (R117, R122). -/
def txSend (s : State) (t typ : Nat) (d : TxDesc) (l : List Byte) : State :=
  let flit := s.on .LT_STAT_FLIT t
  let q := s.rd .X_LT_SEQ t % seqMod flit
  let check := txCheck flit q l
  let s := txName (s.wr .X_LT_SEQ t ((q + 1) % seqMod flit)) (ltGrove t) d.handle
  let x : LtTx := ⟨typ, q, if d.handle < 4096 then some d.handle else none, l, check⟩
  ltEmit { s with ltSent := nset s.ltSent [] t (nget s.ltSent [] t ++ [x]) } t (.ltTx t typ q l check)

/-- Send a TLP, with the credits that it takes. -/
def txTlp (s : State) (t : Nat) (d : TxDesc) (l : List Byte) : State :=
  let i := 3 * t + tlpFc l
  txSend ((s.incWrap .X_LT_CH i 1).incWrap .X_LT_CD i (tlpCredits l)) t 1 d l

/-- The replay buffer of 64 KiB has room for len bytes more (R117). -/
def State.txRoom (s : State) (t len : Nat) : Bool := decide (((nget s.ltSent [] t).map (·.bytes.length)).sum + len ≤ 65536)

/-- Carry out the descriptor at the consumer index (R122): LEN 0 does nothing, DROP frees, an invalid one is skipped with its event, any other is sent.
A TLP waits for credits and, as a slot does, for room in the replay buffer, and there for its acknowledgement; a frame's handle is free when it is sent. -/
def ltTransmit (s : State) (t : Nat) : State :=
  let g := ltGrove t
  let d := s.txDesc t
  if d.len = 0 then txAdvance s t
  else if s.txSkipped t d then pathEventNext (txAdvance s t) (s.ltSource t) msgREFUSE
  else if bitOf d.flags 2 then freeHandle (txAdvance s t) g d.handle
  else
    let x := ltTxBytes s d.hdr (s.txPkt g d.handle) d.len
    if s.ltEth t then
      let l := if bitOf d.flags 1 then x.1.take (d.len - 4) ++ fcsOf (x.1.take (d.len - 4)) else x.1
      freeHandle (ltEmit (ltEmit (txAdvance x.2 t) t (.ltTx t d.typ 0 l [])) t (.ltGap t (s.rd .LT_ETH_CFG_IPG t))) g d.handle
    else if !s.txRoom t d.len then s
    else if d.typ = 2 then txSend (txAdvance x.2 t) t 2 d x.1
    else
      let l := ecrcFixed d x.1
      if s.txCredit t l then txTlp (txAdvance x.2 t) t d l else s

/-- The transmit ring holds a descriptor. -/
def State.txWaits (s : State) (t : Nat) : Bool :=
  let size := s.rd .LT_TXRING_SIZE t
  decide (0 < size) && decide (0 < s.ringHeld (ltGrove t) (s.rd .LT_TXRING_BASE t) size)

/-- LT_TX_DESCRIPTOR (R122): terminator t, in DL_Active, takes its next transmit descriptor. -/
def execLtTxDescriptor (t : Fin 32) (s : State) : Host.Outcome State Fault Refusal :=
  live s fun s => if s.ltUp t && !s.ltEth t && s.on .LT_STAT_DLUP t && s.txWaits t then ltTransmit s t else s

/-- Sequence number a is acknowledged by number b. -/
def seqCovered (m a b : Nat) : Bool := decide ((b + m - a % m) % m < m / 2)

/-- The partner has acknowledged every TLP up to a number (R123). -/
def ltAcked (s : State) (t b : Nat) : State :=
  let m := seqMod (s.on .LT_STAT_FLIT t)
  let l := nget s.ltSent [] t
  let done := l.filter fun x => seqCovered m x.seq b
  let s := { s with ltSent := nset s.ltSent [] t (l.filter fun x => !seqCovered m x.seq b) }
  done.foldl (fun s x => match x.handle with | some h => freeHandle s (ltGrove t) h | none => s) s

/-- Every unacknowledged TLP and slot is sent again as it was (R117). -/
def ltReplay (s : State) (t : Nat) : State :=
  let l := nget s.ltSent [] t
  if l.isEmpty then s else l.foldl (fun s x => ltEmit s t (.ltTx t x.typ x.seq x.bytes x.check)) (s.incSat .LT_CNT_REPLAYS t 1)

/-- DL_Active (R117): both sides have initialised flow control, in L0. -/
def ltActive (s : State) (t : Nat) : State :=
  if s.rd .X_LT_FCI t = 15 ∧ s.rd .LT_STAT_LTSSM t = 4 then s.set .LT_STAT_DLUP t else s

/-- Credits that the partner advertises for a type: the limit; at initialisation, 0 stands for no limit. -/
def ltCredits (s : State) (t fc : Nat) (init : Bool) (h d : Nat) : State :=
  let i := 3 * t + fc
  let s := (s.wr .X_LT_PH i h).wr .X_LT_PD i d
  if init then
    let s := s.wr .X_LT_PINF i ((if h = 0 then 1 else 0) + (if d = 0 then 2 else 0))
    let s := ((s.clr .X_LT_CH i).clr .X_LT_CD i).wrBit .X_LT_FCI t (1 + fc) true
    ltActive s t
  else s

/-- LT_TLP_ACK (R117, R123): a DLLP of the partner reaches terminator t: an acknowledgement, a Nak, credits, its features, or a request for ASPM L1, which a Downstream Port refuses
with PM_Active_State_Nak (R116). -/
def execLtTlpAck (t : Fin 32) (d : Dllp) (s : State) : Host.Outcome State Fault Refusal :=
  live s fun s =>
    if !s.ltUp t || s.ltEth t then s
    else match d with
      | .ack q => ltAcked s t q.toNat
      | .nak q => ltReplay (ltAcked s t q.toNat) t
      | .credits fc init h d => ltCredits s t fc init h.toNat d.toNat
      | .features => s.set .X_LT_DLF t
      | .pmL1 => if s.on .LT_PCI_CFG_ROLE t then ltEmit s t (.ltPmNak t) else s

/-- Credits advertised for one type at initialisation (R124): with SIZE 0 the minimum of the Base Specification, which the spec does not state. -/
def fcInitType (t : Nat) (s : State) (fc : Nat) : State :=
  let size := s.rd .LT_RXRING_SIZE t
  let x := s.freshNat
  let y := x.2.freshNat
  let s := if size = 0 then (y.2.wr .X_LT_HC (3 * t + fc) x.1).wr .X_LT_DC (3 * t + fc) y.1
    else (s.wr .X_LT_HC (3 * t + fc) (max 1 (size / 3))).wr .X_LT_DC (3 * t + fc) 2730
  ltEmit s t (.ltCredit t fc (s.rd .X_LT_HC (3 * t + fc)) (s.rd .X_LT_DC (3 * t + fc)))

/-- LT_FC_INIT (R117, R124): terminator t offers its features, scaled flow control among them, and initialises flow control. -/
def execLtFcInit (t : Fin 32) (s : State) : Host.Outcome State Fault Refusal :=
  live s fun s =>
    if s.ltUp t && !s.ltEth t then ltActive ([0, 1, 2].foldl (fcInitType t) (ltEmit (s.wrBit .X_LT_FCI t 0 true) t (.ltFeatures t))) t else s

/-- A state of LT_STAT follows another. PRESUMED (log 79): the LTSSM of the Base Specification. -/
def ltNext (a b : Nat) : Bool :=
  a == b || b == 0 || match a with
    | 0 => b == 1
    | 1 => b == 2
    | 2 => b == 3 || b == 4 || b == 9
    | 3 => b == 2 || b == 4 || b == 8 || b == 9
    | 4 => b == 3
    | _ => false

/-- The training result is one that the terminator can reach (R116, R125, R298): state codes of LT_STAT, a rate within MAXRATE and the target, flit
mode and CXL only as configured, CXL in 256 B flits at 32.0 and 64.0 GT/s. -/
def State.ltCan (s : State) (t st rate : Nat) (flit cxl : Bool) (width : Nat) : Bool :=
  [0, 1, 2, 3, 4, 8, 9].contains st && ltNext (s.rd .LT_STAT_LTSSM t) st && decide (rate ≤ s.rd .LT_PCI_CFG_MAXRATE t)
    && (decide (s.rd .X_LT_TGT t = 0) || decide (rate + 1 ≤ s.rd .X_LT_TGT t))
    && (!flit || s.on .LT_PCI_CFG_FLITEN t) && (decide (rate < 5) || flit)
    && (!cxl || (s.on .LT_PCI_CFG_CXLEN t && flit && (rate == 4 || rate == 5))) && decide (width ≤ s.rd .LINK_CFG_WIDTH (s.ltLink t))

/-- The terminator moves to another state of its LTSSM: its Data Link Layer goes down but for Recovery, its transmitters follow, and in Detect they look for its partner (R116, R179). -/
def ltMove (s : State) (t st : Nat) : State :=
  let n := s.linkFirst (s.ltLink t)
  let s := if st = 3 then s else ((ltDown s t).clr .LNK_PSTAT_RATE (s.ltLink t)).clr .LNK_PSTAT_FLIT (s.ltLink t)
  let s := refreshLink (linkEvent (s.wr .LT_STAT_LTSSM t st) n) n
  if st = 0 then ltDetect s (s.ltLink t) (s.rd .LT_CFG_SIDE t) else s

/-- The set that a terminator sends while it trains at 8.0 GT/s or more: its equalization fields advertise FS = 63 and LF = 16 (R175). PRESUMED (log 79): the other fields are those of a TS1
that offers what its settings allow. -/
def ltOwnSet (s : State) (t : Nat) : State :=
  let L := s.ltLink t
  let side := s.rd .LT_CFG_SIDE t
  if s.rd .LT_STAT_LTSSM t = 3 ∧ 2 ≤ s.rd .LT_STAT_RATE t then
    let eqs := (s.termPorts L side).map fun r => s.ownEq r 1
    let ts : TsInfo := ⟨false, BitVec.ofNat 7 (2 ^ (s.rd .LT_PCI_CFG_MAXRATE t + 1) - 1), s.on .LT_PCI_CFG_FLITEN t, false, false, 0, eqs.headD ⟨1, 0, 63, 16, 0, false⟩, false⟩
    ltEmit s t (.tsOwn L side ts eqs (s.skpEvery L))
  else s

/-- An Ethernet terminator's segment reaches a state (R142 to R144), with Local and Remote Fault received; a LINK record shows a change of state (R374). -/
def ltEthTo (s : State) (t st : Nat) (lf rf : Bool) : State :=
  let same := s.rd .LT_ETH_STAT_STATE t == st
  let s := ((s.wr .LT_ETH_STAT_STATE t st).wrB .LT_ETH_STAT_LF t lf).wrB .LT_ETH_STAT_RF t rf
  let s := if st = 4 then s.clr .X_LT_BUSY t else s
  if same then s else linkEvent s (s.linkFirst (s.ltLink t))

/-- A terminator of a PCIe or CXL link reaches a state, at a rate and width; lanes that its training brings in join at the link position (R217). -/
def ltPciTo (s : State) (t st rate : Nat) (flit cxl : Bool) (width : Nat) (reversed : Bool) (inverted : Nat) : State :=
  let L := s.ltLink t
  let n := s.linkFirst L
  let was := s.rd .LT_STAT_LTSSM t
  let back := st == 0 && was != 0
  let rated := s.rd .LT_STAT_RATE t != rate
  let changed := was != st || rated || s.on .LT_STAT_FLIT t != flit || s.rd .LNK_PSTAT_WIDTH L != width
  let s := if back then ltDown s t else s
  let s := (s.wr .LT_STAT_LTSSM t st).wr .LT_STAT_RATE t rate
  let s := (s.wrB .LT_STAT_FLIT t flit).wrB .LT_STAT_CXL t cxl
  let s := (s.wrB .X_LT_REV t reversed).wr .X_LT_POL t inverted
  let s := if st < 2 ∨ 4 < st then (s.clr .LT_STAT_DLUP t).clr .X_LT_FCI t else ltActive s t
  let s := if rated then ltRated s t else s
  let s := if st = 4 then s.clr .X_LT_BUSY t else s
  let before := if was < 2 then 0 else 2 ^ s.rd .LNK_PSTAT_WIDTH L
  let s := ((s.wr .LNK_PSTAT_RATE L rate).wrB .LNK_PSTAT_FLIT L flit).wr .LNK_PSTAT_WIDTH L width
  let s := lanesJoin s L before width
  let s := refreshLink (if changed then linkEvent s n else s) n
  if back then ltDetect s L (s.rd .LT_CFG_SIDE t) else ltOwnSet s t

/-- TERMINATOR_TRAINING (R116): terminator t's state machines reach a state, with the lane order reversed or not and the lanes whose polarity it inverts. On an Ethernet link st is the
segment's state, with Local Fault (flit) and Remote Fault (cxl) received (R142 to R144). Return to Detect ends the target rate (R298). -/
def execTerminatorTraining (t : Fin 32) (st : Fin 16) (rate : Fin 7) (flit cxl : Bool) (width : Fin 5) (reversed : Bool) (inverted : BitVec 16) (s : State) :
    Host.Outcome State Fault Refusal :=
  live s fun s =>
    if !s.ltUp t then s
    else if s.ltEth t then (if 4 < st.val then s else ltEthTo s t st flit cxl)
    else if s.ltCan t st rate flit cxl width then ltPciTo s t st rate flit cxl width reversed inverted.toNat
    else s

/-- REPLAY_TIMER_EXPIRY (R117): terminator t's replay timer expires, and every unacknowledged TLP is sent again. -/
def execReplayTimerExpiry (t : Fin 32) (s : State) : Host.Outcome State Fault Refusal :=
  live s fun s => if s.ltUp t && s.on .LT_STAT_DLUP t then ltReplay s t else s

end Sys2Proof.Machine
end

