-- ==== Sys2Proof/Machine/Eth.lean ====
section
/-! DEFINITION. Ethernet and raw lanes (R130 to R159): link settings, segments, frames, rates, patterns, delay lines. -/
namespace Sys2Proof.Machine

/-! Delay lines (R152 to R157, R414). -/

/-- Byte address of the cell at index i of path q's line, whose modulus is CELLS (R414). -/
def State.cellAddr (s : State) (q i : Nat) : Nat := s.rd .DLR_CFG_FIRST q * slabSize + 64 * (i % s.rd .X_DLY_IN (s.govPath q))

/-- Read one cell of path q's line for transmission, as stored; an uncorrectable word of it raises the event of the DELAY path (R157, R414, R420). -/
def readCell (s : State) (q i : Nat) : List Byte × State :=
  let x := readBytes s 1 (s.cellAddr q i) 64
  (x.1, if x.2.1 = [] then x.2.2 else pathEventNext x.2.2 q msgUNCORR)

/-- Cells of path q's line that have left its region and are still to be sent, the oldest first. -/
def State.cellHold (s : State) (q : Nat) : List (List Byte) := nget s.dlyHold [] q
def setCellHold (s : State) (q : Nat) (l : List (List Byte)) : State := { s with dlyHold := nset s.dlyHold [] q l }

/-- Index of the oldest cell that path q's region still holds. -/
def State.cellFirst (s : State) (q : Nat) : Nat := s.rd .X_DLY_LO q + (s.cellHold q).length

/-- The oldest cell of path q's region leaves it. -/
def cellOut (s : State) (q : Nat) : State :=
  let x := readCell s q (s.cellFirst q)
  setCellHold x.2 q (x.2.cellHold q ++ [x.1])

/-- Every cell of path q's region leaves it. -/
def cellsOut (s : State) (q : Nat) : State := (List.range (s.rd .X_DLY_CNT q - s.cellFirst q)).foldl (fun s _ => cellOut s q) s

/-- Path q's transmitter sends a cell; nothing goes out while a LOOP path of the lane holds it (R67). -/
def cellSend (q : Nat) (s : State) (b : List Byte) : State :=
  if s.mode (revPath q) = mLOOP then s else s.emit (.tx q b false (s.txInv1 q))

/-- Send every cell that path q's line holds, in its order (R157); under a LOOP path its units are discarded (R67). -/
def dlyDrainLane (s : State) (q : Nat) : State :=
  let s := if s.mode (revPath q) = mLOOP then s.incSat .PATH_DISC_COUNT q (nget s.dly [] q).length else s
  let s := cellsOut s q
  dlyEmpty ((s.cellHold q).foldl (cellSend q) s) q

/-- The same on every lane of governing path p. -/
def dlyDrain (s : State) (p : Nat) : State := s.each (s.linkPaths p) dlyDrainLane

/-- A lane's line holds its next cell when it is due; otherwise filler goes out. -/
def State.fills (s : State) (q : Nat) : Bool := decide (s.rd .X_DLY_CNT q < s.rd .X_DLY_LO q + s.rd .X_DLY_EFF (s.govPath q))

/-- Path q's line keeps the cells of the last new cell times. -/
def cellsKeep (s : State) (q new : Nat) : State :=
  let s := cellsOut s q
  let old := s.rd .X_DLY_LO q
  let lo := max old (s.rd .X_DLY_CNT q - new)
  (setCellHold s q ((s.cellHold q).drop (lo - old))).wr .X_DLY_LO q lo

/-- The delay of a path in DELAY changes at a unit, on every lane (R155): filler before the held units of a longer line; units that a shorter one no longer holds are
discarded. DESIGN CHOICE (log 81): the held cells leave the region, whose modulus changes, and are sent when they are due. -/
def dlyChange (s : State) (p cells : Nat) : State :=
  let new := s.cellsInForce p cells
  let s := s.each (s.linkPaths p) fun s q => cellsKeep s q new
  let lo := s.rd .X_DLY_LO p
  let gone := (nget s.dly [] p).filter fun e => e < lo
  let s := s.incSat .PATH_DISC_COUNT p gone.length
  let s := { s with dly := nset s.dly [] p ((nget s.dly [] p).filter fun e => !(e < lo : Bool)) }
  let s := (s.wr .X_DLY_IN p cells).wr .X_DLY_EFF p new
  s.each (s.linkPaths p) fun s q => s.wrB .PATH_DLYSTAT_FILL q (s.fills q)

/-- LRATE and FEC combinations of R130. -/
def ethPairOk (lrate fec : Nat) : Bool := if lrate = 0 then fec ≤ 2 else lrate ≤ 4 && fec == 3

/-- LNK_ETH of an entry as one word. -/
def State.ethWord (s : State) (L : Nat) : Nat :=
  s.rd .LNK_ETH_LRATE L + 8 * s.rd .LNK_ETH_FEC L + 32 * s.rd .LNK_ETH_ANEN L + 64 * s.rd .LNK_ETH_LTEN L + 128 * s.rd .LNK_ETH_PAUSE L
    + 512 * s.rd .LNK_ETH_POSUNIT L + 1024 * s.rd .LNK_ETH_CLEANALL L + 2048 * s.rd .LNK_ETH_AMALIGN L

/-- Write of LNK_ETH (R130, R159): on a link that is not DARK only CLEANALL and AMALIGN are taken, at once. DESIGN CHOICE (log 23): GRV_LINKERR is then set where the other fields would change. -/
def lnkEthSet (s : State) (L v : Nat) : State :=
  let g := L / 16
  let flags := fun (s : State) =>
    let s := (s.wr .LNK_ETH_CLEANALL L (bitsOf v 10 10)).wr .LNK_ETH_AMALIGN L (bitsOf v 11 11)
    if !s.on .LINK_CFG_EN L then s
    else s.each [2 * s.linkFirst L, 2 * s.linkFirst L + 1] fun s p =>
      if s.mode p = mDELAY ∧ s.cellsInForce p (s.rd .X_DLY_IN p) ≠ s.rd .X_DLY_EFF p then dlyChange s p (s.rd .X_DLY_IN p) else s
  if !ethPairOk (bitsOf v 2 0) (bitsOf v 4 3) then s.set .GRV_LINKERR_ERR g
  else if s.on .LINK_CFG_EN L && !s.entryDark L then
    flags (if bitsOf v 9 0 = s.ethWord L % 1024 then s else s.set .GRV_LINKERR_ERR g)
  else
    let s := (s.wr .LNK_ETH_LRATE L (bitsOf v 2 0)).wr .LNK_ETH_FEC L (bitsOf v 4 3)
    let s := (s.wr .LNK_ETH_ANEN L (bitsOf v 5 5)).wr .LNK_ETH_LTEN L (bitsOf v 6 6)
    flags ((s.wr .LNK_ETH_PAUSE L (bitsOf v 8 7)).wr .LNK_ETH_POSUNIT L (bitsOf v 9 9))

def execLnkEthWrite (r : Route) (L : Fin 256) (v : DW) (s : State) : Host.Outcome State Fault Refusal :=
  live s fun s => gate r (gAddr (L / 16) (0x800 + 4 * (L % 16))) (fun s => lnkEthSet s L v.toNat) s

/-! Segments (R132 to R135). -/

/-- The link of entry L runs auto-negotiation and training on its segments: Ethernet, in a pairing of kind R. -/
def State.segmented (s : State) (L : Nat) : Bool :=
  s.on .LINK_CFG_EN L && s.rd .LINK_CFG_PROTO L == 3 && s.kindR (s.linkFirst L)

/-- AN_FAILURE (R133): auto-negotiation on a segment fails to resolve and restarts, with what the device advertises (R132); a LINK record shows a change of state (R374). -/
def execAnFailure (L : Fin 256) (side : Fin 2) (s : State) : Host.Outcome State Fault Refusal :=
  live s fun s =>
    if s.segmented L && s.on .LNK_ETH_ANEN L then
      let same := s.rd (segFld side) L == 1
      let s := (segEnter s L side 1).set .LNK_ESTAT_ANFAIL L
      pathEventNext (if same then s else linkEvent s (s.linkFirst L)) (s.linkAB L) msgSTATE
    else s

/-- What path p's transmitter sends while its link is segmented: forwarded units only when both segments are in data mode (R134). -/
def State.segsUp (s : State) (p : Nat) : Bool :=
  match s.linkOf (p / 2) with
  | some L => !s.segmented L || (s.rd .LNK_ESTAT_SEGA L == 4 && s.rd .LNK_ESTAT_SEGB L == 4)
  | none => true

/-- The segment that path p transmits on has ended its training (R134). -/
def State.ownSegUp (s : State) (p : Nat) : Bool :=
  match s.linkOf (p / 2) with
  | some L => !s.segmented L || decide (3 ≤ s.rd (segFld (txSide p)) L)
  | none => true

/-- The state that a segment may move on to (R132): from auto-negotiation to training, which LTEN = 0 skips, then to lock, then to data mode. -/
def State.segNext (s : State) (L a b : Nat) : Bool :=
  decide (a < b ∧ b ≤ 4) && (a != 0 || b == s.segStart L) && (if s.on .LNK_ETH_LTEN L then a != 1 || b == 2 else b != 2)

/-- The state that a segment falls back to: auto-negotiation and training only where they are enabled (R132). -/
def State.segBack (s : State) (L st : Nat) : Nat :=
  if st = 1 then s.segStart L else if st = 2 ∧ !s.on .LNK_ETH_LTEN L then 3 else st

/-- SEGMENT_DATA_MODE (R132, R134, R139): a segment of link L moves on to state st, data mode last. The end of link training writes its TRAIN record, with what its FEC counted; from then on its
transmitter sends Local Fault until the other segment is in data mode. -/
def execSegmentDataMode (L : Fin 256) (side : Fin 2) (st : Fin 5) (corr unc sym : BitVec 32) (s : State) : Host.Outcome State Fault Refusal :=
  live s fun s =>
    let was := s.rd (segFld side) L
    if s.segmented L && s.segNext L was st then
      let n := s.linkFirst L
      let s := linkEvent (segEnter s L side st) n
      let s := if was = 2 then trainRec s (2 * n + side) st corr.toNat unc.toNat sym.toNat else s
      if st.val < 3 || s.segsUp (2 * n) then s else s.emitTx (2 * n + (1 - side)) (.txFault (2 * n + (1 - side)))
    else s

/-- The receiving segment of path p is lost (R134, R135, R157): the rest of a delay line, then Local Fault, go out, unless the path's own segment still trains; then it carries the signals of
that training, and what the line holds is discarded (DESIGN CHOICE, log 97). -/
def rxLost (s : State) (p : Nat) : State :=
  if s.ownSegUp p then
    let s := if s.mode p = mDELAY then dlyDrain s p else s
    s.emitTx p (.txFault p)
  else if s.mode p = mDELAY then dlyDrop s p else s

/-- SEGMENT_LOSS (R135, R157): a segment leaves data mode for state st, as its settings allow. Local Fault goes toward the other segment's partner, after what a delay line
holds. -/
def execSegmentLoss (L : Fin 256) (side : Fin 2) (st : Fin 4) (s : State) : Host.Outcome State Fault Refusal :=
  live s fun s =>
    if s.segmented L && s.rd (segFld side) L == 4 then
      let n := s.linkFirst L
      rxLost (linkEvent (segEnter s L side (s.segBack L st)) n) (2 * n + side.val)
    else s

/-! Ethernet terminators (R142 to R145). -/

/-- LT_ETH_RX_FRAME (R143): a frame too long, or one for which there is no room, is discarded and counted. -/
def execLtEthRxFrame (t : Fin 32) (fcsBad : Bool) (bytes : List Byte) (s : State) : Host.Outcome State Fault Refusal :=
  live s fun s =>
    if !s.ltUp t || !s.ltEth t || s.rd .LT_ETH_STAT_STATE t != 4 then s
    else if s.rd .LT_ETH_CFG_MAXLEN t < bytes.length then s.incSat .LT_ETH_STAT_RXDROP t 1
    else (ltDeliver s t 3 (1 + if fcsBad then 4 else 0) 0 0 false bytes).getD (s.incSat .LT_ETH_STAT_RXDROP t 1)

/-- LT_ETH_TX_FRAME (R144): the terminator, in data mode, takes its next transmit descriptor. -/
def execLtEthTxFrame (t : Fin 32) (s : State) : Host.Outcome State Fault Refusal :=
  live s fun s => if s.ltUp t && s.ltEth t && s.rd .LT_ETH_STAT_STATE t == 4 && s.txWaits t then ltTransmit s t else s

/-- Write of LT_ETH_CFG (R145). -/
def ltEthCfgSet (s : State) (t v : Nat) : State :=
  if s.ltLit t then s.set .GRV_LINKERR_ERR (ltGrove t)
  else (s.wr .LT_ETH_CFG_MAXLEN t (bitsOf v 13 0)).wr .LT_ETH_CFG_IPG t (bitsOf v 19 14)

def execLtEthCfgWrite (r : Route) (t : Fin 32) (v : DW) (s : State) : Host.Outcome State Fault Refusal :=
  live s fun s => gate r (ltAddr t 0x14) (fun s => ltEthCfgSet s t v.toNat) s

/-! Raw lanes and patterns (R146 to R151). -/

/-- Write of RAW_RATE of lane n (R146). DESIGN CHOICE (log 98): R146 speaks of raw links; on a link of another protocol the register, which nothing reads there, follows the same rule. -/
def rawRateSet (s : State) (n v : Nat) : State :=
  let k := bitsOf v 27 0
  let ok := if bitOf v 28 then decide (50000000 ≤ k ∧ k ≤ 212500000) else decide (1000000 ≤ k ∧ k ≤ 56000000)
  if s.govLane n ≠ n then s
  else if !(s.linkLanes n).all s.laneDark then s.set .GRV_LINKERR_ERR (n / 16)
  else if ok then (s.wr .RAW_RATE_KBPS n k).wr .RAW_RATE_PAM4 n (bitsOf v 28 28)
  else s

def execRawRateWrite (r : Route) (n : Fin 256) (v : DW) (s : State) : Host.Outcome State Fault Refusal :=
  live s fun s => gate r (gAddr (n / 16) (0xC00 + 4 * (n % 16))) (fun s => rawRateSet s n v.toNat) s

/-- Write of PATH_PAT (R150). A reserved PAT keeps the field (R6). DESIGN CHOICE (log 99): the checker starts again when PAT changes or CHKEN is cleared; a change of GRAY, INV or of the user
pattern alone lets it run on (R151). -/
def pathPatSet (s : State) (p v : Nat) : State :=
  if 4096 < bitsOf v 18 7 + bitsOf v 31 19 then s
  else
    let pat := if bitsOf v 3 0 < 12 then bitsOf v 3 0 else s.rd .PATH_PAT_PAT p
    let keep := s.rd .PATH_PAT_PAT p == pat && bitOf v 6
    let s := ((s.wr .PATH_PAT_PAT p pat).wr .PATH_PAT_GRAY p (bitsOf v 4 4)).wr .PATH_PAT_INV p (bitsOf v 5 5)
    let s := ((s.wr .PATH_PAT_CHKEN p (bitsOf v 6 6)).wr .PATH_PAT_UBASE p (bitsOf v 18 7)).wr .PATH_PAT_ULEN p (bitsOf v 31 19)
    refreshPort (if keep then s else pchkRestart s p) (txPort p)

def execPathPatWrite (r : Route) (p : Fin 512) (v : DW) (s : State) : Host.Outcome State Fault Refusal :=
  live s fun s => gate r (gAddr (gOf p) (0xB00 + 4 * localPath p)) (fun s => pathPatSet s p v.toNat) s

/-- The path checks its received bits against its pattern (R151). -/
def State.checksPat (s : State) (p : Nat) : Bool :=
  s.on .PATH_PAT_CHKEN p && decide (s.rd .PATH_PAT_PAT p ≤ 0xA) && (s.mode p == mSINK || s.mode p == mSOURCE)

/-- PATTERN_LOCK (R151): after 256 consecutive error-free UI. -/
def execPatternLock (p : Fin 512) (s : State) : Host.Outcome State Fault Refusal :=
  live s fun s => if s.checksPat p && decide (256 ≤ s.rd .X_PCHK_RUN p) then s.set .PATH_PCHK_LOCK p else s

/-- A pattern checker within a unit (R151): in lock, error-free UI that precede, the next UI, the errors of the last 1,024 UI by their UI number plus 2,048, errors counted. -/
structure Pchk where
  lock : Bool
  run : Nat
  next : Nat
  win : List Nat
  errs : Nat
  deriving DecidableEq, Repr

/-- One bit in error, at UI u: 256 error-free UI before it give lock; in lock it counts, and the 64th within 1,024 UI ends lock. -/
def Pchk.bad (a : Pchk) (u : Nat) : Pchk :=
  let run := a.run + (u - a.next)
  if a.lock || decide (256 ≤ run) then
    let win := (a.win.filter fun x => decide (2048 + u < x + 1024)) ++ [2048 + u]
    if 64 ≤ win.length then ⟨false, 0, u + 1, [], a.errs + 1⟩ else ⟨true, 0, u + 1, win, a.errs + 1⟩
  else ⟨false, 0, u + 1, [], a.errs⟩

/-- ui UI reach path p's pattern checker, with the given bits in error (R151). -/
def pchkUnit (s : State) (p ui : Nat) (bad : List Nat) : State :=
  if !s.checksPat p || ui = 0 then s
  else
    let k := if s.pam4 (p / 2) then 2 else 1
    let a := (bad.map (· / k)).foldl Pchk.bad ⟨s.on .PATH_PCHK_LOCK p, s.rd .X_PCHK_RUN p, 0, nget s.pchk [] p, 0⟩
    let s := ((s.wrB .PATH_PCHK_LOCK p a.lock).wr .X_PCHK_RUN p (min 256 (a.run + (ui - a.next)))).incSat .PATH_PCHK_ERRS p a.errs
    { s with pchk := nset s.pchk [] p (a.win.filterMap fun x => if ui + 1024 < x then some (x - ui) else none) }

/-! Changes of delay (R152 to R155). -/

/-- CELLS exceeds the bound of an enabled region that it governs (R152). -/
def State.cellsTooMany (s : State) (p cells : Nat) : Bool :=
  (s.linkPaths p).any fun q => s.on .DLR_CFG_EN q && decide (s.rd .DLR_CFG_COUNT q * 1048576 < cells)

/-- Write of PATH_DLY of path p (R152, R154, R155). -/
def pathDlySet (s : State) (p v : Nat) : State :=
  if s.govPath p ≠ p then s
  else if s.cellsTooMany p v then s.set .PATH_DLYSTAT_ERR p
  else
    let s := s.wr .PATH_DLY_CELLS p v
    if s.mode p = mDELAY then (s.set .X_DLYH_V p).wr .X_DLYH_POS p (posAdd (s.pos p) 64) else s

def execPathDlyWrite (r : Route) (p : Fin 512) (v : DW) (s : State) : Host.Outcome State Fault Refusal :=
  live s fun s => gate r (gAddr (gOf p) (0xC40 + 4 * localPath p)) (fun s => pathDlySet s p v.toNat) s

/-- The delay changes that are due at the unit at a position and stamp: the host's, then the program's; one whose path is not in DELAY is cancelled
(R155, R311, R314). -/
def dlyDue (s : State) (p pos stamp : Nat) : State :=
  let s := if s.on .X_DLYH_V p && posReached pos (s.rd .X_DLYH_POS p) then
      let s := s.clr .X_DLYH_V p
      if s.mode p = mDELAY then dlyChange s p (s.rd .PATH_DLY_CELLS p) else s
    else s
  let v := s.rd .X_DLYP_V p
  let m := s.rd .X_DLYP_M p
  if (v = 1 ∧ posReached pos (m % 2 ^ 48)) ∨ (v = 2 ∧ m ≤ stamp) then
    let s := s.clr .X_DLYP_V p
    if s.mode p = mDELAY then
      let c := s.rd .X_DLYP_C p
      dlyChange (s.wr .PATH_DLY_CELLS p c) p c
    else cancelAction s p pos
  else s

/-- DELAY_CHANGE_EFFECT (R155): the change of delay due at the next unit of path p takes effect, after a change of mode that is due there (R314); so does a host's after 1 µs in which no unit arrived (R78), whose unit is then still 64 away. -/
def execDelayChangeEffect (p : Fin 512) (s : State) : Host.Outcome State Fault Refusal :=
  live s fun s =>
    let g := s.govPath p
    let s := if s.on .X_DLYH_V g && s.rd .X_DLYH_POS g == posAdd (s.pos g) 64 then s.wr .X_DLYH_POS g (posAdd (s.pos g) 1) else s
    dlyDue (modeDue s g (posAdd (s.pos g) 1) (s.stampOf g)) g (posAdd (s.pos g) 1) (s.stampOf g)

end Sys2Proof.Machine
end

