-- ==== Sys2Proof/Machine/Xcvr.lean ====
section
/-! DEFINITION. Transceivers (R160 to R184): detection, lock, transmitter settings, receiver detection, quality figures. -/
namespace Sys2Proof.Machine

/-- Address of a transceiver register. -/
def xAddr (x o : Nat) : Nat := gAddr (x / 32) (0x10000 + 0x40 * (x % 32) + o)

/-- Port r's link is a retimed PCIe or CXL link in Detect (R98). -/
def State.inDetect (s : State) (r : Nat) : Bool :=
  match s.linkOf (portPath r / 2) with
  | some L => s.pcie (portPath r / 2) && s.kindR (portPath r / 2) && s.rd .LNK_PSTAT_STATE L == 0
  | none => false

/-- SIGNAL_DETECT_CHANGE (R165): the differential amplitude at receiver r, in mV. In Detect of a retimed link, a receiver that leaves electrical idle makes
every lane of the other pseudo-port detect its partner (R98). -/
def execSignalDetectChange (r : Fin 512) (mv : BitVec 12) (s : State) : Host.Outcome State Fault Refusal :=
  live s fun s =>
    let off := match s.linkOf (portPath r / 2) with | some L => s.rd .LNK_PSTAT_STATE L == 8 && s.retimed L | none => false
    let was := s.on .XCVR_STAT_SIGDET r
    let now := !off && (if 175 < mv.toNat then true else if mv.toNat < 65 then false else was)
    let s := s.wrB .XCVR_STAT_SIGDET r now
    match if now && !was && s.inDetect r then s.linkOf (portPath r / 2) else none with
    | some L => s.each (s.termPorts L (1 - portSide r)) detectBegin
    | none => s

/-- CDR_LOCK (R161, R168): receiver r of a path that is not DARK locks; a transmitter in holdover moves back to its clock. -/
def execCdrLock (r : Fin 512) (s : State) : Host.Outcome State Fault Refusal :=
  live s fun s =>
    if s.mode (portPath r) ≠ mDARK ∧ s.on .XCVR_STAT_SIGDET r then refreshLink (s.set .XCVR_STAT_LOCK r) (portPath r / 2) else s

/-- ADAPTATION_DONE (R161, R162): adaptation of a locked receiver reaches settings. Under FREEZE they are held from when ADAPTED reads 1, which a rate change and DARK end. -/
def execAdaptationDone (r : Fin 512) (ctle : BitVec 5) (dfe : BitVec 7) (s : State) : Host.Outcome State Fault Refusal :=
  live s fun s =>
    if s.on .XCVR_STAT_LOCK r then
      let s := if s.on .XCVR_STAT_ADAPTED r && s.on .XCVR_CTL_FREEZE r then s
        else ((s.set .XCVR_STAT_ADAPTED r).wr .XCVR_STAT_CTLE r ctle.toNat).wr .XCVR_STAT_DFE r dfe.toNat
      if s.margined (portPath r / 2) then s else calResume s (trimPort r)
    else s

/-- What a DELAY path sends when its receiver has lost lock and no segment watches it (R168): what its line holds, and on an Ethernet link Local Fault after it (R157). -/
def holdover (s : State) (p : Nat) : State :=
  let seg := match s.linkOf (p / 2) with | some L => s.segmented L | none => false
  if s.mode p != mDELAY || seg || s.on .X_PATH_STOPPED p then s
  else
    let s := dlyDrainLane s p
    let s := s.wrB .PATH_DLYSTAT_FILL p (s.fills p)
    if s.protoOf (p / 2) = 3 ∧ s.govPath p = p then s.emitTx p (.txFault p) else s

/-- LOSS_OF_LOCK (R166, R168, R203): the CDR of receiver r loses lock, as the protocol or the device's own rate change expects, or not. -/
def execLossOfLock (r : Fin 512) (expected : Bool) (s : State) : Host.Outcome State Fault Refusal :=
  live s fun s =>
    if !s.on .XCVR_STAT_LOCK r then s
    else
      let p := portPath r
      let s := calPause (s.clr .XCVR_STAT_LOCK r) (trimPort r)
      let s := if s.mode p ≠ mDARK ∧ !expected then
          let g := s.govPath p
          errorRec (portEvent (s.set .XCVR_STAT_LOL r) r msgLOSS) g (posAdd (s.pos g) 1) 9 (p / 2 % 16) 0 0
        else s
      refreshLink (holdover s p) (p / 2)

/-! Transmitter settings. A write out of range is ignored: none. -/

/-- TX_PPM (R170). -/
def ppmSet (s : State) (x v : Nat) : Option State :=
  let p := signed 10 (bitsOf v 9 0)
  if -300 ≤ p ∧ p ≤ 300 then some (s.wr .TX_PPM_PPM x (bitsOf v 9 0)) else none

/-- TX_CLK (R171 to R173): it waits for the profile's highest frequency while spread is applied. -/
def clkSet (s : State) (x v : Nat) : Option State :=
  if bitsOf v 12 0 ≤ 5000 ∧ 3000 ≤ bitsOf v 24 13 ∧ bitsOf v 24 13 ≤ 3300 then
    some (refreshPort ((s.wr .TX_CLK_SSCDEPTH x (bitsOf v 12 0)).wr .TX_CLK_SSCFREQ x (bitsOf v 24 13)) x)
  else none

/-- TX_FIR (R174, R176). -/
def firSet (s : State) (x v : Nat) : Option State :=
  if firOk v then
    let s := ((s.wr .TX_FIR_CM2 x (bitsOf v 3 0)).wr .TX_FIR_CM1 x (bitsOf v 8 4)).wr .TX_FIR_C0 x (bitsOf v 14 9)
    some (refreshPort (((s.wr .TX_FIR_C1 x (bitsOf v 19 15)).wr .TX_FIR_C2 x (bitsOf v 24 20)).wr .TX_FIR_C3 x (bitsOf v 29 25)) x)
  else none

/-- TX_LVL (R177). -/
def lvlSet (s : State) (x v : Nat) : Option State :=
  let t := signed 5 (bitsOf v 11 7)
  if 20 ≤ bitsOf v 6 0 ∧ bitsOf v 6 0 ≤ 100 ∧ -15 ≤ t then some ((s.wr .TX_LVL_SWING x (bitsOf v 6 0)).wr .TX_LVL_LVLTRIM x (bitsOf v 11 7))
  else none

/-- A host write: an ignored one sets TXERR. -/
def orTxerr (x : Nat) (s : State) (f : Option State) : State := f.getD (s.set .XCVR_STAT_TXERR x)

def execTxPpmWrite (r : Route) (x : Fin 512) (v : DW) (s : State) : Host.Outcome State Fault Refusal :=
  live s fun s => gate r (xAddr x 0x18) (fun s => orTxerr x s (ppmSet s x v.toNat)) s

def execTxClkWrite (r : Route) (x : Fin 512) (v : DW) (s : State) : Host.Outcome State Fault Refusal :=
  live s fun s => gate r (xAddr x 0x14) (fun s => orTxerr x s (clkSet s x v.toNat)) s

def execTxFirWrite (r : Route) (x : Fin 512) (v : DW) (s : State) : Host.Outcome State Fault Refusal :=
  live s fun s => gate r (xAddr x 0x08) (fun s => orTxerr x s (firSet s x v.toNat)) s

def execTxLvlWrite (r : Route) (x : Fin 512) (v : DW) (s : State) : Host.Outcome State Fault Refusal :=
  live s fun s => gate r (xAddr x 0x10) (fun s => orTxerr x s (lvlSet s x v.toNat)) s

/-- SSC_SETTING_APPLY (R173): the spread profile of port r reaches its highest frequency. -/
def execSscSettingApply (r : Fin 512) (s : State) : Host.Outcome State Fault Refusal :=
  live s fun s => refreshPort (s.wr .X_SSC_EFF r (s.sscWord r)) r

/-- Write of XCVR_CTL (R162, R164, R179). -/
def xcvrCtlSet (s : State) (x v : Nat) : State :=
  let s := ((s.wr .XCVR_CTL_RXINV x (bitsOf v 0 0)).wr .XCVR_CTL_TXINV x (bitsOf v 1 1)).wr .XCVR_CTL_FREEZE x (bitsOf v 2 2)
  if bitOf v 3 then detectBegin s x else s

/-- DETREQ (R179): a write of XCVR_CTL with DETREQ = 1; ctl holds RXINV, TXINV and FREEZE. -/
def execDetreq (r : Route) (x : Fin 512) (ctl : BitVec 3) (s : State) : Host.Outcome State Fault Refusal :=
  live s fun s => gate r (xAddr x 0) (fun s => xcvrCtlSet s x (ctl.toNat + 8)) s

/-- RX_DETECT_DONE (R179): a receiver detection of port r ends. -/
def execRxDetectDone (r : Fin 512) (present : Bool) (s : State) : Host.Outcome State Fault Refusal :=
  live s fun s => if s.on .X_DET_RUN r then (s.clr .X_DET_RUN r).wr .XCVR_STAT_RXDET r (if present then 1 else 2) else s

/-! Quality figures (R180 to R183). -/

/-- log10 of 1 / window bits in 1/256 of a decade, to the nearest unit: -log10(2^24) * 256 and so on (R181). -/
def boundBer (qwin : Nat) : Int := -(([1850, 2158, 2466, 2774, 3083].getD qwin 0 : Nat) : Int)

/-- Load the last completed window. -/
def qualLoad (s : State) (x : Nat) : State :=
  if s.on .QUAL_BER_STALE x then s
  else
    let e := s.rd .X_QW_EYE x
    let b := s.rd .X_QW_BER x
    let s := ((s.wr .QUAL_EYE_EW x (bitsOf e 7 0)).wr .QUAL_EYE_EHLO x (bitsOf e 15 8)).wr .QUAL_EYE_EHMID x (bitsOf e 23 16)
    let s := ((s.wr .QUAL_EYE_EHUP x (bitsOf e 31 24)).wr .QUAL_BER_BER x (bitsOf b 15 0)).wr .QUAL_BER_BOUND x (bitsOf b 16 16)
    ((s.wr .QUAL_BER_OFSIDX x (bitsOf b 20 18)).wr .QUAL_BER_OFS x (bitsOf b 31 24)).incWrap .QUAL_CTL_SEQ x 1

/-- QUAL_WINDOW_END (R180 to R183): a measurement window of receiver r ends with its figures; an interrupted one is discarded. On an NRZ lane EHLO and
EHUP are 0. DESIGN CHOICE (log 100): windows run on across an interruption, and the first that ends after it is the interrupted one. -/
def execQualWindowEnd (r : Fin 512) (eye : BitVec 32) (ber : BitVec 16) (noError : Bool) (ofs : BitVec 8) (ofsIdx : Fin 4) (s : State) :
    Host.Outcome State Fault Refusal :=
  live s fun s =>
    let cut := s.on .X_QW_CUT r
    let s := s.wrB .X_QW_CUT r (s.on .QUAL_BER_STALE r)
    if cut || s.on .QUAL_BER_STALE r then s
    else
      let e := eye.toNat
      let e := if s.pam4 (portPath r / 2) then e else bitsOf e 7 0 + 65536 * bitsOf e 23 16
      let b := if noError then unsigned 16 (boundBer (s.rd .QUAL_CTL_QWIN r)) else ber.toNat
      let s := (s.wr .X_QW_EYE r e).wr .X_QW_BER r (b + (if noError then 65536 else 0) + 2 ^ 18 * ofsIdx.val + 2 ^ 24 * ofs.toNat)
      if s.on .QUAL_CTL_AUTO r then qualLoad s r else s

/-- Write of QUAL_CTL (R182). A reserved QWIN keeps the field (R6). -/
def qualCtlSet (s : State) (x v : Nat) : State :=
  let s := if bitsOf v 2 0 ≤ 4 then s.wr .QUAL_CTL_QWIN x (bitsOf v 2 0) else s
  let s := s.wr .QUAL_CTL_AUTO x (bitsOf v 3 3)
  if bitOf v 4 then qualLoad s x else s

/-- QUAL_SNAP (R182): a write of QUAL_CTL with SNAP = 1; ctl holds QWIN and AUTO. -/
def execQualSnap (r : Route) (x : Fin 512) (ctl : BitVec 4) (s : State) : Host.Outcome State Fault Refusal :=
  live s fun s => gate r (xAddr x 0x1C) (fun s => qualCtlSet s x (ctl.toNat + 16)) s

end Sys2Proof.Machine
end

