-- ==== Sys2Proof/Machine/Cal.lean ====
section
/-! DEFINITION. Calibration and trim (R185 to R213): runs, swaps, foreground calibration, the NVM store and write-back. -/
namespace Sys2Proof.Machine

/-- A slice's trims as a 35-bit field (R207). -/
def State.sliceField (s : State) (x i : Nat) : Nat :=
  let k := 5 * x + i
  s.rd .CAL_SLC_PAIR k + 2 ^ 5 * s.rd .CAL_SLC_GAIN k + 2 ^ 10 * s.rd .CAL_OFS_OFS k + (if s.rd .CAL_SLC_ROLE k = 5 then 2 ^ 34 else 0)

/-- A pass's result as the low 34 bits of a slice field. -/
def trimWord (t : SliceTrim) : Nat := t.pair.val + 2 ^ 5 * t.gain.toNat + 2 ^ 10 * t.ofs.toNat

/-- Put a slice field's trims into a slice. -/
def setTrim (s : State) (x i w : Nat) : State :=
  let k := 5 * x + i
  ((s.wr .CAL_SLC_PAIR k (bitsOf w 4 0)).wr .CAL_SLC_GAIN k (bitsOf w 9 5)).wr .CAL_OFS_OFS k (bitsOf w 33 10)

/-- NOSHADOW bit of a receiver. -/
def noShadowFld (x : Nat) : Fld := if x < 256 then .CAL_LSTAT_NOSHADOW_A else .CAL_LSTAT_NOSHADOW_B
def tlastFld (x : Nat) : Fld := if x < 256 then .CAL_LSTAT_TLAST_A else .CAL_LSTAT_TLAST_B

/-- Sensor reading that serves a lane, rounded to a whole degree (R193): HK_VAL is in 1/8 °C. DESIGN CHOICE (log 84): an exact half degree rounds up. -/
def State.laneTemp (s : State) (n : Nat) : Int :=
  (signed 16 (s.rd .HK_VAL_VALUE (2 * (n / 16) + n % 16 / 8)) + 4) / 8

/-- A receiver may run (R192), while its lane is not margined (R106, R203). -/
def State.calGoes (s : State) (x : Nat) : Bool :=
  s.mode (rxPath x) != mDARK && s.on .XCVR_STAT_LOCK (rxPort (rxPath x)) && !s.margined (rxLane x)

/-- Receivers of a grove in a state. -/
def State.calIn (s : State) (g st : Nat) : List Nat :=
  ((List.range 16).map fun j => laneRx (16 * g + j)).flatten.filter fun x => s.rd .X_CAL_ST x == st

/-- A receiver's run starts. -/
def calStart (s : State) (x : Nat) : State :=
  let s := { s with calq := s.calq.filter (· != x) }
  calSet (calRewind (s.wr .X_CAL_START x (unsigned 8 (s.laneTemp (rxLane x)))) x) x 2

/-- CAL_RUN_START (R195): grove g, with a free slot, takes the first lane in its queue: both its receivers when both are queued. DESIGN CHOICE (log 83): while one of them may not
run, the lane and those behind it wait, a paused receiver keeps its slot, and BGEN = 0 does not hold what is queued already (R197). -/
def execCalRunStart (g : Fin 16) (s : State) : Host.Outcome State Fault Refusal :=
  live s fun s =>
    let free := 2 - ((s.calIn g 2).length + (s.calIn g 3).length)
    match s.calq.find? fun x => rxLane x / 16 == g.val with
    | none => s
    | some x =>
      let xs := (laneRx (rxLane x)).filter fun y => s.calq.contains y
      if xs.length ≤ free && xs.all s.calGoes then s.each xs calStart else s

/-- The lane event of a receiver and a slice. -/
def rxEvent (s : State) (x kind slice : Nat) : State := laneEvent s (rxLane x) kind (x / 256) slice

/-- Mark of a receiver that the next housekeeping round queues (R203). -/
def nextRound : Nat := 2047

/-- A receiver's run ends without success, to be queued again after rounds (R199). -/
def calEnd (s : State) (x rounds : Nat) : State := (calSet (calRewind s x) x 0).wr .X_CAL_RQ x (rounds + 1)

/-- CAL_STEP_FAIL (R199, R200): the run ends, and four failed runs in succession leave the receiver stuck. -/
def calFail (s : State) (x slice : Nat) : State :=
  let n := rxLane x
  let s := (s.incSat .CAL_LCNT_FAILS n 1).wr .X_CAL_CONS x (s.rd .X_CAL_CONS x + 1)
  let s := rxEvent s x msgCHECK slice
  if 4 ≤ s.rd .X_CAL_CONS x then calSet (calRewind s x) x 4 else calEnd s x 1024

/-- SLICE_RETIRE (R201, R202): the slice leaves the rotation, and a receiver without shadow runs no more. -/
def sliceRetire (s : State) (x i : Nat) : State :=
  let s := rxEvent (s.wr .CAL_SLC_ROLE (5 * x + i) 5) x msgCHECK i
  if s.noShadow x then refreshPort (calSet (calRewind (s.set (noShadowFld x) (rxLane x)) x) x 0) (rxPort (rxPath x)) else s

/-- Two passes agree within TOL (R198). -/
def passesAgree (tol a b : Nat) : Bool :=
  bitsOf a 4 0 == bitsOf b 4 0 && decide ((bitsOf a 9 5 : Int) - bitsOf b 9 5 ≤ tol ∧ (bitsOf b 9 5 : Int) - bitsOf a 9 5 ≤ tol)
    && (List.range 4).all fun i =>
      let u := signed 6 (bitsOf a (15 + 6 * i) (10 + 6 * i))
      let v := signed 6 (bitsOf b (15 + 6 * i) (10 + 6 * i))
      decide (u - v ≤ tol ∧ v - u ≤ tol)

/-- CAL_PASS_DONE (R187, R198 to R202): a pass on the shadow slice of receiver x ends with the trims it found, or with no solution. -/
def execCalPassDone (x : Fin 512) (found : Option SliceTrim) (s : State) : Host.Outcome State Fault Refusal :=
  live s fun s =>
    if s.rd .X_CAL_ST x != 2 || s.on .X_CAL_AGREE x || !s.calGoes x then s
    else
      match s.sliceIn x 4 with
      | none => s
      | some i =>
        let k := s.rd .X_CAL_PASS x + 1
        let prev := s.rd .X_CAL_PREV x
        let had := decide (1 < k) && bitOf prev 34
        let s := s.wr .X_CAL_PASS x k
        let s := if 3 ≤ k then s.incSat .CAL_LCNT_RETRIES (rxLane x) 1 else s
        match found with
        | none =>
          if 1 < k ∧ !had then sliceRetire s x i
          else if 5 ≤ k then calFail s x i
          else s.wr .X_CAL_PREV x 0
        | some t =>
          let s := s.wr .X_CAL_PREV x (trimWord t + 2 ^ 34)
          if had && passesAgree (s.rd .CAL_CTL_TOL 0) prev (trimWord t) then s.set .X_CAL_AGREE x
          else if 5 ≤ k then calFail s x i
          else s

/-- A run completes (R189, R194, R200). -/
def calDone (s : State) (x : Nat) : State :=
  let n := rxLane x
  let s := ((s.incSat .CAL_LCNT_RUNS n 1).wr (tlastFld x) n (s.rd .X_CAL_START x)).clr .X_CAL_CONS x
  calSet (calRewind s x) x 0

/-- A swap (R189 to R191): between two units, the calibrated shadow of receiver x takes its step's role and the slice that held it becomes the shadow;
step 5 leaves the slice as the shadow and completes the run. -/
def calSwapDo (s : State) (x : Nat) : State :=
  match s.sliceIn x 4 with
  | none => s
  | some i =>
    let st := s.rd .X_CAL_STEP x
    let s := setTrim s x i (s.rd .X_CAL_PREV x)
    if 5 ≤ st then calDone s x
    else
      let old := s.sliceIn x (st - 1)
      let s := s.wr .CAL_SLC_ROLE (5 * x + i) (st - 1)
      let s := match old with | some j => s.wr .CAL_SLC_ROLE (5 * x + j) 4 | none => s
      (((s.wr .X_CAL_STEP x (st + 1)).clr .X_CAL_PASS x).clr .X_CAL_AGREE x).clr .X_CAL_LATER x

/-- A change of the path's mode may fall on its next unit (R77, R78): one named by position that is due there, or one named by an epoch, which only the unit decides. -/
def State.switchNext (s : State) (p : Nat) : Bool :=
  match s.pendChg p with
  | some ⟨_, .named (.pos a)⟩ => posReached (posAdd (s.pos (s.govPath p)) 1) a
  | some ⟨_, .host a⟩ => posReached (posAdd (s.pos (s.govPath p)) 1) a
  | some ⟨_, .named (.epoch _)⟩ => true
  | _ => false

/-- CAL_SWAP (R188 to R191, R203): the swap, with new codes of the port's transmitter where the engine found some (DESIGN CHOICE, log 101: they come into use with it); where the path's mode may
switch at the next unit, that unit decides. -/
def execCalSwap (x : Fin 512) (tx : Option TxTrim) (s : State) : Host.Outcome State Fault Refusal :=
  live s fun s =>
    if s.rd .X_CAL_ST x != 2 || !s.on .X_CAL_AGREE x || s.on .X_CAL_LATER x then s
    else
      let s := match tx with
        | some t => (s.wr .CAL_TX_Z x t.z.toNat).wr .CAL_LIN_LIN x t.lin.toNat
        | none => s
      if s.switchNext (rxPath x) then s.set .X_CAL_LATER x else calSwapDo s x

/-- A unit of path p comes: a swap that waited for it takes place before it, but not before the unit at which the mode switches (R203). -/
def calLater (s : State) (p : Nat) : State :=
  let x := trimPort (rxPort p)
  if s.on .X_SWITCHED p then s.clr .X_SWITCHED p
  else if s.on .X_CAL_LATER x then calSwapDo (s.clr .X_CAL_LATER x) x else s

/-- CAL_REQUEUE (R199, R203): the rounds that receiver x waits for have passed, and it is queued unless it is stuck. -/
def execCalRequeue (x : Fin 512) (s : State) : Host.Outcome State Fault Refusal :=
  live s fun s => if s.rd .X_CAL_RQ x = 1 then calQueue (s.clr .X_CAL_RQ x) x else s

/-- CAL_NO_UNIT_TIMEOUT (R203): no unit reached receiver x for 10 ms; the next housekeeping round queues it again. -/
def execCalNoUnitTimeout (x : Fin 512) (s : State) : Host.Outcome State Fault Refusal :=
  live s fun s => if s.rd .X_CAL_ST x = 2 then (calSet (calRewind s x) x 0).wr .X_CAL_RQ x nextRound else s

/-! The NVM store (R207 to R212). -/

/-- Bytes of a receiver's 176-bit field. -/
def State.rxField (s : State) (x : Nat) : List Byte :=
  leBytes 22 ((List.range 5).map fun i => 2 ^ (35 * i) * s.sliceField x i).sum

/-- Bytes of a transmitter's field. -/
def State.txField (s : State) (x : Nat) : List Byte := leBytes 6 (s.rd .CAL_TX_Z x + 1024 * s.rd .CAL_LIN_LIN x)

/-- A lane record (R207); dflt: its DEFAULT bit. -/
def State.calRecord (s : State) (n : Nat) (dflt : Bool) : List Byte :=
  let b := leBytes 1 (1 + if dflt then 16 else 0) ++ leBytes 1 n ++ leBytes 1 (s.rd .CAL_LSTAT_TLAST_A n) ++ leBytes 1 (s.rd .CAL_LSTAT_TLAST_B n)
    ++ s.rxField n ++ s.rxField (256 + n) ++ s.txField n ++ s.txField (256 + n)
  b ++ leBytes 4 (crcOf crc32c b)

/-- A record checks (R209). -/
def recordOk (n : Nat) (b : List Byte) : Bool :=
  leNat (sliceBytes b 60 4) == crcOf crc32c (sliceBytes b 0 60) && (b.getD 1 0).toNat == n && (b.getD 0 0).toNat % 32 == 1
    && [4, 26].all fun o => (List.range 5).all fun i => decide (leNat (sliceBytes b o 22) / 2 ^ (35 * i) % 32 < 28)

/-- A directory entry (R208): SEQ and WRITES when it checks. -/
def State.calDir (s : State) (c : Nat) : Option (Nat × Nat) :=
  let b := s.getNvms (0x8000 + 32 * c) 32
  if leNat (sliceBytes b 0 4) = 0x44434C41 ∧ leNat (sliceBytes b 28 4) = crcOf crc32c (sliceBytes b 0 28) then
    some (leNat (sliceBytes b 4 4), leNat (sliceBytes b 8 4))
  else none

/-- The current copy (R208). -/
def State.calCopy (s : State) : Option Nat :=
  match s.calDir 0, s.calDir 1 with
  | some a, some b => some (if a.1 < b.1 then 1 else 0)
  | some _, none => some 0
  | none, some _ => some 1
  | none, none => none

/-- A lane's record in the current copy, when it checks; whether a repeated read of it differs is free (R209). -/
def State.goodRecord (s : State) (n : Nat) : Option (List Byte) :=
  match s.calCopy with
  | none => none
  | some c => let b := s.getNvms (0x4000 * c + 64 * n) 64; if recordOk n b && !Config.nvmReread s.freeCtr n then some b else none

/-- Put a receiver's 176-bit field into its slices; roles go to the usable slices in order (R207); fewer than four raise the lane event (R202). -/
def rxRestore (s : State) (x v : Nat) : State :=
  let s := (List.range 5).foldl (fun s i => setTrim s x i (v / 2 ^ (35 * i))) s
  let usable := (List.range 5).filter fun i => !bitOf v (35 * i + 34)
  let s := (List.range 5).foldl (fun s i => s.wr .CAL_SLC_ROLE (5 * x + i) 5) s
  let s := s.each usable.zipIdx fun s e => s.wr .CAL_SLC_ROLE (5 * x + e.1) e.2
  let s := s.wrB (noShadowFld x) (rxLane x) (s.noShadow x)
  match (List.range 5).find? fun i => bitOf v (35 * i + 34) with
  | some i => if s.usable x < 4 then rxEvent s x msgCHECK i else s
  | none => s

/-- Default trim of a receiver and its port's transmitter: every code at its midpoint (R50, R213). -/
def rxDefault (s : State) (x : Nat) : State :=
  let s := (List.range 5).foldl (fun s i => (setTrim s x i (2 ^ 5 * 16)).wr .CAL_SLC_ROLE (5 * x + i) i) s
  ((s.wr .CAL_TX_Z x 0x210).wr .CAL_LIN_LIN x 0x21084210).clr (noShadowFld x) (rxLane x)

/-- CALIBRATION_RESTORE of a lane (R50, R207, R213): its record's trims, or default trim with its event. -/
def calRestore (s : State) (n : Nat) : State :=
  match s.goodRecord n with
  | some b =>
    let s := (s.wr .CAL_LSTAT_TLAST_A n (b.getD 2 0).toNat).wr .CAL_LSTAT_TLAST_B n (b.getD 3 0).toNat
    let s := rxRestore (rxRestore s n (leNat (sliceBytes b 4 22))) (256 + n) (leNat (sliceBytes b 26 22))
    let tx := fun (s : State) x o => let v := leNat (sliceBytes b o 6); (s.wr .CAL_TX_Z x (v % 1024)).wr .CAL_LIN_LIN x (v / 1024 % 2 ^ 30)
    calShow ((tx (tx s n 48) (256 + n) 54).clr .X_CAL_DFLT n) n
  | none =>
    let s := rxDefault (rxDefault s n) (256 + n)
    laneEvent (calShow ((s.set .X_CAL_DFLT n).set .DEV_STATE_CALRESTORE_PART 0) n) n msgCHECK 0 0

/-- Restore every lane, at INIT step 1 and at wake from STANDBY (R50, R206). -/
def calRestoreAll (s : State) : State :=
  let s := (s.wr .CAL_STAT_COPY 0 (s.calCopy.getD 0)).clr .DEV_STATE_CALRESTORE_PART 0
  let s := (List.range 256).foldl calRestore s
  { s with freeCtr := s.freeCtr + 1 }

/-- The copy that a write-back writes (R210). DESIGN CHOICE (log 102): copy 0, with SEQ 1, when neither directory entry checks. -/
def State.wbCopy (s : State) : Nat := match s.calCopy with | some 0 => 1 | _ => 0

def wearFld (c : Nat) : Fld := if c = 0 then .NVM_WEAR0_WRITES else .NVM_WEAR1_WRITES

/-- Write the 256 records of a write-back (R210); a lane whose record failed and that was not calibrated since keeps its record or is marked DEFAULT. -/
def wbRecords (s : State) (c : Nat) : State :=
  (List.range 256).foldl (fun s n =>
    let b := if s.on .X_CAL_DFLT n then (s.goodRecord n).getD (s.calRecord n true) else s.calRecord n false
    s.setNvms (0x4000 * c + 64 * n) b) s

/-- CAL_CMD 0x1 (R210, R212). -/
def calWriteback (s : State) : State :=
  let c := s.wbCopy
  if s.on .CAL_STAT_WBBUSY 0 then s.wr .CAL_CMD_RESULT 0 2
  else if 100000 ≤ s.rd (wearFld c) 0 then (s.set .CAL_STAT_WORN 0).wr .CAL_CMD_RESULT 0 3
  else
    let s := (wbRecords (s.set .CAL_STAT_WBBUSY 0) c).wr .CAL_CMD_RESULT 0 1
    { s with freeCtr := s.freeCtr + 1 }

/-- CAL_CMD (R196, R204, R210, R212); a reserved CMD does nothing. -/
def calCmd (s : State) (v : Nat) : State :=
  let n := bitsOf v 15 8
  let cmd := bitsOf v 3 0
  if cmd = 1 then calWriteback s
  else if s.on .CAL_STAT_WBBUSY 0 ∧ (cmd = 2 ∨ cmd = 3) then s.wr .CAL_CMD_RESULT 0 2
  else if cmd = 2 then
    let s := s.each (laneRx n) fun s x =>
      let s := (s.clr .X_CAL_CONS x).clr .X_CAL_RQ x
      calQueue (if s.rd .X_CAL_ST x = 4 then calSet s x 0 else s) x
    (calShow s n).wr .CAL_CMD_RESULT 0 0
  else if cmd = 3 then (s.set .X_CAL_FG n).wr .CAL_CMD_RESULT 0 0
  else s

def execWriteback (r : Route) (s : State) : Host.Outcome State Fault Refusal :=
  live s fun s => gate r 0x440004 (fun s => calCmd s 1) s

def execRecal (r : Route) (n : Fin 256) (s : State) : Host.Outcome State Fault Refusal :=
  live s fun s => gate r 0x440004 (fun s => calCmd s (2 + 256 * n.val)) s

def execForeground (r : Route) (n : Fin 256) (s : State) : Host.Outcome State Fault Refusal :=
  live s fun s => gate r 0x440004 (fun s => calCmd s (3 + 256 * n.val)) s

/-- WRITEBACK_DONE (R210, R211): the copy is read back; where it differs the directory entry is not written. DESIGN CHOICE (log 102): the directory entry itself reads back as written. -/
def wbEnd (s : State) (differs : Bool) : State :=
  let c := s.wbCopy
  let s := s.clr .CAL_STAT_WBBUSY 0
  if differs then (s.wr .CAL_CMD_RESULT 0 5).raise 1071 msgCHECK 0
  else
    let seq := match s.calCopy with | some k => ((s.calDir k).getD (0, 0)).1 + 1 | none => 1
    let s := s.incWrap (wearFld c) 0 1
    let s := s.setNvms (0x8000 + 32 * c) (dirEntry seq (s.rd (wearFld c) 0))
    (s.wr .CAL_STAT_COPY 0 c).wr .CAL_CMD_RESULT 0 0

def execWritebackDone (differs : Bool) (s : State) : Host.Outcome State Fault Refusal :=
  live s fun s => if !s.on .CAL_STAT_WBBUSY 0 || s.mgmtAway then s else wbEnd s differs

/-- Trims that a foreground calibration finds for one port (R205): a slice that fails keeps its values and raises the lane event. -/
def fgPort (s : State) (x : Nat) (t : PortTrim) : State :=
  let s := (s.wr .CAL_TX_Z x t.z.toNat).wr .CAL_LIN_LIN x t.lin.toNat
  s.each ((t.slices.take 5).zipIdx) fun s e =>
    match e.1 with
    | some f => setTrim s x e.2 (trimWord f)
    | none => rxEvent s x msgCHECK e.2

/-- FOREGROUND_CAL_DONE (R204, R205): the foreground calibration of lane n, which leaves DARK, ends. Its receivers are queued when a slice failed. -/
def execForegroundCalDone (n : Fin 256) (a b : PortTrim) (s : State) : Host.Outcome State Fault Refusal :=
  live s fun s =>
    let out := [2 * n.val, 2 * n.val + 1].any fun p => match s.pendChg p with | some ⟨_, .fromDark _⟩ => true | _ => false
    if s.calWaits n && out && s.pwrOn (n / 16) then
      let s := fgPort (fgPort s n a) (256 + n.val) b
      let s := calShow ((s.clr .X_CAL_FG n).clr .X_CAL_DFLT n) n
      if (a.slices.take 5 ++ b.slices.take 5).any (·.isNone) then s.each (laneRx n) calQueue else s
    else s

/-- Write of CAL_CTL: a DT outside 2 to 32 is ignored and sets CFGERR. -/
def calCtlSet (s : State) (v : Nat) : State :=
  let s := (s.wr .CAL_CTL_BGEN 0 (bitsOf v 0 0)).wr .CAL_CTL_TOL 0 (bitsOf v 9 7)
  if 2 ≤ bitsOf v 6 1 ∧ bitsOf v 6 1 ≤ 32 then s.wr .CAL_CTL_DT 0 (bitsOf v 6 1) else s.set .CAL_STAT_CFGERR 0

end Sys2Proof.Machine
end

