-- ==== Sys2Proof/Machine/Match.lean ====
section
/-! DEFINITION. Matchers (R319 to R337): arming, comparison, hits and their actions. -/
namespace Sys2Proof.Machine

/-! The ARM block (R324 to R326), as its words. -/

def mPATHS (b : List Word) : Nat := bitsOf (b.getD 0 0).toNat 31 0
def mKIND (b : List Word) : Nat := bitsOf (b.getD 0 0).toNat 35 32
def mWOFS (b : List Word) : Nat := bitsOf (b.getD 0 0).toNat 37 36
def mWLEN (b : List Word) : Nat := bitsOf (b.getD 0 0).toNat 41 38
def mSTATUS (b : List Word) : Nat := bitsOf (b.getD 0 0).toNat 43 42
def mGATEEN (b : List Word) : Bool := bitOf (b.getD 0 0).toNat 44
def mGATETL (b : List Word) : Nat := bitsOf (b.getD 0 0).toNat 50 45
def mREPEAT (b : List Word) : Bool := bitOf (b.getD 0 0).toNat 51
def mNTH (b : List Word) : Nat := bitsOf (b.getD 1 0).toNat 15 0
def mTLEN (b : List Word) : Bool := bitOf (b.getD 1 0).toNat 16
def mTL (b : List Word) : Nat := bitsOf (b.getD 1 0).toNat 22 17
def mCAP (b : List Word) : Nat := bitsOf (b.getD 1 0).toNat 24 23
def mCAPOFS (b : List Word) : Nat := bitsOf (b.getD 1 0).toNat 34 25
def mIACT (b : List Word) : Nat := bitsOf (b.getD 1 0).toNat 38 35
def mIFIX (b : List Word) : Bool := bitOf (b.getD 1 0).toNat 39
def mIOFS (b : List Word) : Nat := bitsOf (b.getD 1 0).toNat 49 40
def mIDATA (b : List Word) : Nat := bitsOf (b.getD 1 0).toNat 61 50

/-- Words of a block whose word 0 is given; an invalid WLEN counts as none. -/
def blockLen (w0 : Nat) : Nat := 2 + 2 * (if bitsOf w0 41 38 ≤ 8 then bitsOf w0 41 38 else 0)

/-- The encodings of a block that R327 refuses. -/
def blockBad (b : List Word) : Bool :=
  decide (4 < mKIND b) || mSTATUS b == 3 || mCAP b == 3 || decide (7 < mIACT b) || decide (8 < mWLEN b)
    || (b.getD 0 0).toNat / 2 ^ 52 != 0 || (b.getD 1 0).toNat / 2 ^ 62 != 0
    || ((mIACT b == 1 || mIACT b == 2 || mIACT b == 5) && decide (4095 < mIDATA b + 1))

/-- The block at a data word of grove g. -/
def State.readBlock (s : State) (g a : Nat) : List Word := (List.range (blockLen (s.getD g a).toNat)).map fun i => s.getD g (a + i)

/-- A block at a data word would reach word 4,096. -/
def State.blockPast (s : State) (g a : Nat) : Bool := decide (4096 < a + 2) || decide (4096 < a + blockLen (s.getD g a).toNat)

/-- Matcher m gives up the units that it agreed with and whose checks it awaits. -/
def candDrop (s : State) (m : Nat) : State :=
  { s with
    items := s.items.map fun e => (e.1, e.2.map fun it => { it with cand := it.cand.filter (·.1 != m) })
    held := s.held.map fun e => (e.1, e.2.map fun u => { u with cand := u.cand.filter (·.1 != m) }) }

/-- Load a matcher and enable it, from the next unit on (R300, R301): its count and last-hit fields are cleared, which a wait for its hits sees. -/
def matchArm (s : State) (m : Nat) (b : List Word) : State :=
  let s := (((candDrop s m).setBlk m b).set .MATCH_STAT_ARMED m).clr .MATCH_CNT_COUNT m
  let s := ((s.clr .MATCH_STAT_LASTPATH m).clr .MATCH_LPOS_POS m).clr .MATCH_LEP_EPOCH m
  pollWaits (s.clr .X_M_FIRED m)

/-- Disable a matcher; it keeps its counts (R301). -/
def matchDisarm (s : State) (m : Nat) : State := (candDrop s m).clr .MATCH_STAT_ARMED m

/-- R257: a GO of grove g would be ignored. -/
def State.goIgnored (s : State) (g : Nat) : Bool :=
  !(s.dev == devSERVICE || s.dev == devIDLE) || s.quadAbsent g || s.profiled g || s.on .SEQ_CTL_CLRBUSY g

/-- MATCH_CMD (R301, R327). -/
def matchCmd (s : State) (g v : Nat) : State :=
  let m := 32 * g + bitsOf v 4 0
  let a := bitsOf v 16 5
  let arm := bitOf v 17
  let dis := bitOf v 18
  if !arm && !dis then s
  else if s.goIgnored g then s.wr .MATCH_CMD_RESULT g 7
  else if arm && dis then s.wr .MATCH_CMD_RESULT g 9
  else if dis then (matchDisarm s m).wr .MATCH_CMD_RESULT g 0
  else if s.blockPast g a || blockBad (s.readBlock g a) then s.wr .MATCH_CMD_RESULT g 9
  else if s.on .MATCH_STAT_ARMED m then s.wr .MATCH_CMD_RESULT g 10
  else (matchArm s m (s.readBlock g a)).wr .MATCH_CMD_RESULT g 0

def execMatchCmdArm (r : Route) (g : Fin 16) (m : Fin 32) (block : BitVec 12) (s : State) : Host.Outcome State Fault Refusal :=
  live s fun s => gate r (gAddr g 0x3400) (fun s => matchCmd s g (m.val + 32 * block.toNat + 0x20000)) s

def execMatchCmdDisarm (r : Route) (g : Fin 16) (m : Fin 32) (s : State) : Host.Outcome State Fault Refusal :=
  live s fun s => gate r (gAddr g 0x3400) (fun s => matchCmd s g (m.val + 0x40000)) s

/-! Comparison (R319 to R326). -/

/-- Window byte b of a window agrees with value and mask (R322, R326). -/
def byteHits (b : List Word) (win : List Byte) (i : Nat) : Bool :=
  let w := mWLEN b
  let byteOf := fun (k : Nat) => (b.getD (2 + k + i / 8) 0).toNat / 2 ^ (8 * (i % 8)) % 256
  let mask := byteOf w
  match win[i]? with
  | some x => Nat.land x.toNat mask == Nat.land (byteOf 0) mask
  | none => mask == 0

/-- A window hits. -/
def winHits (b : List Word) (win : List Byte) : Bool := (List.range (8 * mWLEN b)).all (byteHits b win)

/-- STATUS holds for a unit that fails its check or not. -/
def statusOk (b : List Word) (fails : Bool) : Bool := if mSTATUS b = 1 then !fails else if mSTATUS b = 2 then fails else true

/-- KIND of a decoded unit; 0 for one that no matcher compares on its own. -/
def UKind.code : UKind → Nat
  | .of .tlp => 1
  | .of .dllp => 2
  | .of .os | .of .skp | .of .ts | .of .ei | .of .eieos => 3
  | .frame => 4
  | _ => 0

/-- What a matcher hit: a decoded unit by its number, or the line unit, of a codeword one block (R321). -/
inductive HitAt where
  | item (id : Nat)
  | unit (block : Nat)
  deriving DecidableEq, Repr

/-- A matcher that compares units of path p now: armed, on the path, its gate open (R330). -/
def State.comparing (s : State) (m p : Nat) : Bool :=
  let b := s.getBlk m
  s.on .MATCH_STAT_ARMED m && bitOf (mPATHS b) (localPath p) && (!mGATEEN b || s.tl (mGATETL b))

/-- The LINE windows of a unit with their blocks (R321): of a flit its 64 bytes from WOFS, of a codeword each of its blocks, otherwise the whole. -/
def lineWins (b : List Word) (u : HeldUnit) : List (List Byte × Nat) :=
  match u.enc with
  | .flit256 | .flitLo | .flit68 => [((u.dec.drop (64 * mWOFS b)).take 64, 0)]
  | .codeword => (List.range (blockCount u.line)).map fun i => (blockAt u.line i, i)
  | _ => [(u.line, 0)]

/-- Blocks of the line unit whose window agrees with a block of KIND LINE. -/
def lineAgrees (b : List Word) (u : HeldUnit) : List Nat :=
  if mKIND b != 0 || u.aside then [] else ((lineWins b u).filter fun w => winHits b w.1).map (·.2)

/-- Every decoded unit whose bytes a line unit, or block k of it, carries has ended, so that its check is known (R338). -/
def HeldUnit.known (u : HeldUnit) (items : List Item) (k : Nat) : Bool :=
  !(u.pieces.any fun pc => (u.enc != .codeword || pc.touches k) && items.any fun it => it.id == pc.item && it.going)

/-- The piece brings its item to the last window byte that the block compares (R323, R330); with no byte compared, to its first. -/
def decides (b : List Word) (pc : Piece) : Bool :=
  let need := 8 * mWLEN b
  let now := pc.start + (pc.copies.headD []).length
  (need == 0 && pc.opens) || decide (pc.start < need ∧ need ≤ now) || (pc.last && decide (now < need))

/-- A frame that ended without a last piece brings a block to its decision: it is shorter than what the block compares. -/
def cutDecides (b : List Word) (it : Item) : Bool :=
  let n := (it.wins.headD []).length
  decide (n < 8 * mWLEN b) || n == 0

/-- Decoded units whose window agrees with matcher m at a unit, each with how many bytes of it lie in earlier units (R335): those that a piece of the unit decides, and frames that end at it
without one. -/
def itemAgrees (b : List Word) (items : List Item) (pieces : List Piece) (cut : List Nat) : List (Nat × Nat) :=
  let hits := fun (it : Item) => it.kind.code == mKIND b && it.wins.any (winHits b)
  let before := fun (id n : Nat) => (pieces.find? fun pc => pc.item == id).elim n (·.start)
  ((pieces.filter (decides b)).filterMap fun pc => ((pc.of items).filter hits).map fun it => (it.id, before it.id 0))
    ++ cut.filterMap fun id => ((items.find? fun it => it.id == id).filter fun it => cutDecides b it && hits it).map fun it => (it.id, before it.id (it.wins.headD []).length)

/-! Hits (R328 to R336). -/

/-- A hit: where, its position and stamp, and how many bytes of it lie in earlier units. -/
structure HitInfo where
  at_ : HitAt
  pos : Nat
  stamp : Nat
  before : Nat
  deriving DecidableEq, Repr

/-- The number under which a wait is owed the decision (R268). -/
def HitInfo.key (h : HitInfo) : Nat := match h.at_ with | .item id => id | .unit _ => 2 ^ 32 + h.pos

/-- Place an injection entry for a firing (R334 to R336). One whose named unit has already left is missed. -/
def placeEntry (s : State) (m p : Nat) (b : List Word) (h : HitInfo) : State :=
  let g := m / 32
  let act := mIACT b
  let word := (s.getD g (mIDATA b)).toNat
  let npos := posAdd h.pos (mIOFS b)
  if act = 7 ∧ bitsOf word 15 0 = 0 then s
  else if s.actRefused p act || (act == 7 && decide (4096 < bitsOf word 15 0)) then injNone s g (localPath p) h.pos oINVALID (m % 32)
  else match s.injFree g with
    | none => injNone s g (localPath p) h.pos oFULL (m % 32)
    | some e =>
      let data := if act = 7 then bitsOf word 31 0 else mIDATA b
      let s := injTake s e (localPath p) act (mIFIX b) (.pos npos) data (m % 32)
      let cut := s.cutsThrough p
      let gone := cut && posLater (s.pos p) npos
      if mIOFS b ≠ 0 || 5 ≤ act then (if s.mode p = mSPLICE ∧ gone then injDone s e npos oMISSED else
        if mIOFS b = 0 ∧ s.mode p ≠ mSPLICE then injDone s e npos oCANCELLED else s)
      else
        let s := match h.at_ with
          | .item id => ((s.wr .X_INJ_HIT e 1).wr .X_INJ_ITEM e id).wr .X_INJ_PASSED e (if cut then h.before else 0)
          | .unit k => (s.wr .X_INJ_HIT e 2).wr .X_INJ_BLK e k
        if s.mode p = mSPLICE then s else injDone s e h.pos oCANCELLED

/-- The actions of a firing (R332). -/
def fireActions (s : State) (m p : Nat) (b : List Word) (h : HitInfo) : State :=
  let s := if mTLEN b then tlSet s (mTL b) else s
  let s := if mCAP b = 0 then s else
    let st := s.getStrm p
    s.setStrm p { st with mpend := st.mpend ++ [⟨if mCAP b = 1 then .on else .off, .pos (posAdd h.pos (mCAPOFS b)), 1, m⟩] }
  if mIACT b = 0 then s else placeEntry s m p b h

/-- The last-hit fields take a hit; of hits on several paths in one GCLK cycle that of the lowest path (R329). -/
def lastHit (s : State) (m p : Nat) (h : HitInfo) : State :=
  if s.rd .X_M_CYC m = s.cyc % 2 ^ 32 ∧ s.rd .MATCH_STAT_LASTPATH m < localPath p then s
  else
    let s := (s.wr .X_M_CYC m s.cyc).wr .MATCH_STAT_LASTPATH m (localPath p)
    (s.wr .MATCH_LPOS_POS m h.pos).wr .MATCH_LEP_EPOCH m h.stamp

/-- One hit of matcher m on path p (R328, R331). -/
def matchHit (p : Nat) (s : State) (x : Nat × HitInfo) : State :=
  let m := x.1
  let b := s.getBlk m
  let c := (s.rd .MATCH_CNT_COUNT m + 1) % 2 ^ 32
  let s := lastHit (s.wr .MATCH_CNT_COUNT m c) m p x.2
  let s := owedHit s p m x.2.key
  let s := if c = 0 then (s.set .MATCH_STAT_OVF m).raise (768 + 8 * (m / 32) + 4) msgOVERFLOW (m % 32) else s
  if mNTH b ≠ 0 ∧ (if s.on .X_M_FIRED m then mREPEAT b else c = mNTH b) then fireActions (s.set .X_M_FIRED m) m p b x.2 else s

/-- What a path's pipeline compares: hits by matcher, decoded units, held line units, the newest last. -/
structure Cmp where
  hits : List (Nat × HitInfo)
  items : List Item
  us : List HeldUnit

/-- Matcher m decides the decoded units that have ended and those that need no check (R323): with a STATUS a unit's check is known only at its end. -/
def itemDecide (m : Nat) (b : List Word) (a : Cmp) : Cmp :=
  let now := fun (it : Item) => it.cand.filter fun c => c.1 == m && (mSTATUS b == 0 || !it.going)
  let hit := fun (it : Item) => (now it).filter fun _ => statusOk b it.fails
  { a with
    hits := a.hits ++ a.items.flatMap fun it => (hit it).map fun c => (m, ⟨.item it.id, it.pos, it.stamp, c.2⟩)
    items := a.items.map fun it => { it with cand := it.cand.filter fun c => !(now it).contains c, hits := it.hits ++ (hit it).map fun _ => m % 32 } }

/-- Matcher m decides line units, of which it knows every check (R338). -/
def lineDecide (m : Nat) (b : List Word) (a : Cmp) : Cmp :=
  let now := fun (u : HeldUnit) => u.cand.filter fun c => c.1 == m && (mSTATUS b == 0 || u.known a.items c.2)
  let hit := fun (u : HeldUnit) => (now u).filter fun c => statusOk b (blockFails u a.items c.2)
  { a with
    hits := a.hits ++ a.us.flatMap fun u => (hit u).map fun c => (m, ⟨.unit c.2, u.pos, u.stamp, 0⟩)
    us := a.us.map fun u => { u with cand := u.cand.filter fun c => !(now u).contains c, hits := u.hits ++ (hit u).map fun c => (m % 32, c.2) } }

/-- Matcher m compares the newest unit and what it carries, when its gate is open (R330): what agrees awaits its decision. -/
def compareNew (m : Nat) (b : List Word) (pieces : List Piece) (cut : List Nat) (a : Cmp) : Cmp :=
  if mKIND b = 0 then
    { a with us := a.us.modify (a.us.length - 1) fun u => { u with cand := u.cand ++ (lineAgrees b u).map fun k => (m, k) } }
  else
    let l := itemAgrees b a.items pieces cut
    { a with items := a.items.map fun it => match l.find? fun e => e.1 == it.id with | some e => { it with cand := it.cand ++ [(m, e.2)] } | none => it }

/-- Every matcher of the path's grove compares a unit and what it carries (R319 to R323): all see the trigger lines as they stood before it. cut: frames that it ended. -/
def findHits (s : State) (p : Nat) (pieces : List Piece) (cut : List Nat) (a : Cmp) : Cmp :=
  ((List.range 32).map fun i => 32 * gOf p + i).foldl (fun a m =>
    let b := s.getBlk m
    if !s.on .MATCH_STAT_ARMED m || !bitOf (mPATHS b) (localPath p) then a
    else
      let a := if s.comparing m p then compareNew m b pieces cut a else a
      lineDecide m b (itemDecide m b a)) a

end Sys2Proof.Machine
end

