-- ==== Sys2Proof/Machine/Unit.lean ====
section
/-! DEFINITION. A unit received on a path (R214 to R219): position, waits, switches, matchers, the press (R356 to R377), forwarding (R66, R67, R86,
R414). -/
namespace Sys2Proof.Machine

/-! Forwarding. -/

/-- What a delay line sends while it holds no due cell (R156): on Ethernet Idle control blocks, am saying that an alignment marker falls into the cell; on a raw lane alternating ones
and zeros, on PAM4 levels 0 and 3. -/
def State.filler (s : State) (q n : Nat) : Out :=
  if s.protoOf (q / 2) = 3 then
    let L := (s.linkOf (q / 2)).getD 0
    let period := Config.amCells (s.rd .LNK_ETH_LRATE L) (s.rd .LNK_ETH_FEC L) (s.linkWidth L)
    .txFiller q idleBlock (decide (0 < period ∧ n % period = 0))
  else .txFiller q (List.replicate 64 (if s.pam4 (q / 2) then 0xCC else 0x55)) false

/-- Path q sends the oldest cell of its line. -/
def cellNext (s : State) (q : Nat) : State :=
  let l := s.cellHold q
  (cellSend q (setCellHold s q (l.drop 1)) (l.headD [])).incWrap .X_DLY_LO q 1

/-- DELAY_CELL (R414): the cell that leaves lane path q's region makes room for the cell received; the cell that is due goes out, or filler does. Nothing goes out while a LOOP path holds
the transmitter (R66); a lane stopped under R18 does neither. -/
def delayCell (p : Nat) (s : State) (e : Fin 16 × List Byte) : State :=
  let q := p + 2 * e.1.val
  if s.on .X_PATH_STOPPED q then s
  else
    let i := s.rd .X_DLY_CNT q
    let t := s.rd .DLR_CFG_FIRST q / 1536
    let s := if s.cellFirst q + s.rd .X_DLY_IN p ≤ i then (cellOut s q).incSat .X_DLY_BYTES t 64 else s
    let s := if s.rd .X_DLY_LO q + s.rd .X_DLY_EFF p ≤ i then cellNext s q
      else if s.mode (revPath q) = mLOOP then s else s.emitTx q (s.filler q i)
    let s := writeWords s (s.cellAddr q i) (payN 64 e.2)
    let s := (s.incSat .X_DLY_BYTES t 64).incWrap .X_DLY_CNT q 1
    s.wrB .PATH_DLYSTAT_FILL q (s.fills q)

/-- A unit of a path in DELAY with CELLS = 0 (R153): it passes at forwarding latency, and each cell of it is charged as if it were written and read (R14). While a lane of the link is stopped
(R18), the others send their cells. -/
def delayNone (s : State) (p : Nat) (u : RxUnit) (line : List Byte) : State :=
  let runs := fun q => !s.on .X_PATH_STOPPED q
  let cells := u.cells.filter fun e => runs (p + 2 * e.1.val)
  let s := s.each cells fun s e => s.incSat .X_DLY_BYTES (s.rd .DLR_CFG_FIRST (p + 2 * e.1.val) / 1536) 128
  if (s.linkPaths p).all runs then transmit s p line false
  else
    let s := s.each cells fun s e => cellSend (p + 2 * e.1.val) s (payN 64 e.2)
    if runs p && s.mode (revPath p) == mLOOP then s.incSat .PATH_DISC_COUNT p 1 else s

/-- The cell of path p's line in which a unit ends: the one it leaves open, or the last that it completes. -/
def State.cellOfEnd (s : State) (p : Nat) (u : RxUnit) : Nat :=
  s.rd .X_DLY_CNT p - if !u.spill && u.cells.any (·.1.val == 0) then 1 else 0

/-- A unit enters a delay line (R153, R155, R414). A unit whose last cell has been sent is no longer held; it was discarded if a LOOP path held the transmitter (R67). -/
def delayUnit (s : State) (p : Nat) (u : RxUnit) (line : List Byte) : State :=
  if s.rd .X_DLY_EFF p = 0 then delayNone s p u line
  else
    let s := u.cells.foldl (delayCell p) s
    if s.on .X_PATH_STOPPED p then s
    else
      let lo := s.rd .X_DLY_LO p
      let all := nget s.dly [] p ++ [s.cellOfEnd p u]
      let held := all.filter fun x => decide (lo ≤ x)
      let s := { s with dly := nset s.dly [] p held }
      if s.mode (revPath p) = mLOOP then s.incSat .PATH_DISC_COUNT p (all.length - held.length) else s

/-- A link whose pseudo-ports are in equalization phases 2 and 3 forwards no ordered set (R95). -/
def State.eqPhase (s : State) (p : Nat) : Bool :=
  match s.linkOf (p / 2) with
  | some L => s.pcie (p / 2) && s.kindR (p / 2) && s.rd .LNK_PSTAT_STATE L == 2 && decide (2 ≤ s.rd .X_EQ_PHASE L)
  | none => false

/-- The unit goes where the mode of its path sends it (R66, R67, R82, R134); in SPLICE it awaits the injection stage. -/
def forwardUnit (s : State) (p : Nat) (u : RxUnit) (h : HeldUnit) : State :=
  let m := s.mode p
  let retimed := s.pcie (p / 2) && s.kindR (p / 2)
  if m = mLOOP then
    let rev := s.mode (revPath p)
    if rev == mSOURCE || (s.splitNow (p / 2) && forwards rev) then s.incSat .PATH_DISC_COUNT p 1 else s.emit (.tx (revPath p) h.line false (s.txInv (revPath p)))
  else if !forwards m || m == mSPLICE || s.eqPhase p then s
  else if !s.ownSegUp p then s.emitTx p (.txTrain p)
  else if !s.segsUp p then s.emitTx p (.txFault p)
  else if m = mDELAY then delayUnit s p u h.line
  else if retimed && h.training then s
  else
    let x := regen s p retimed h h.line
    transmit x.2 p x.1 false

/-! The unit. -/

/-- The code of the segment that path p receives on, while its link is segmented. -/
def State.rxSeg (s : State) (p : Nat) : Option Nat :=
  match s.linkOf (p / 2) with
  | some L => if s.segmented L then some (s.rd (segFld (p % 2)) L) else none
  | none => none

/-- The table of R214 does not count the unit: an ordered set between flits, an alignment marker, a signal of auto-negotiation or link training, which is all that a segment receives while it
runs them. -/
def State.notCounted (s : State) (p : Nat) (u : RxUnit) : Bool :=
  let trains := match s.rxSeg p with | some g => g == 1 || g == 2 | none => false
  match s.encOf p with
  | .flit256 | .flitLo | .flit68 => u.aside
  | .block66 => u.aside || trains
  | .codeword => trains || (u.aside && s.rxSeg p == some 0)
  | _ => false

/-- The checks that an encoding has of a line unit itself (R338, R375): those of a flit, of a codeword, of a code or sync header. Where CXL traffic is not decoded no flit is checked (R115). -/
def Enc.checks (e : Enc) (raw : Bool) (k : Nat) : Bool :=
  (k == 6 && !e.raw) || (e.flit && !raw && (k == 2 || k == 3)) || (e.eth && k == 4)

/-- RS FEC guards the path's link. -/
def State.rsFec (s : State) (p : Nat) : Bool :=
  s.protoOf (p / 2) == 3 && decide (2 ≤ s.rd .LNK_ETH_FEC ((s.linkOf (p / 2)).getD 0))

/-- Bytes of a unit that counts (R214, R321): a flit, the blocks of a codeword, or each active lane's share. -/
def State.unitBytes (s : State) (p : Nat) : Nat :=
  let e := s.encOf p
  if e == .codeword then 720 else if e.flit || e.eth then e.laneBytes else e.laneBytes * s.activeWidth (p / 2)

/-- A unit as path p's encoding has it: whether it counts, its length, the checks that it can fail (an uncorrectable codeword fails, R139), its cells as decoded (R164), and a decoded copy where
flits are decoded. -/
def State.recv (s : State) (p : Nat) (u : RxUnit) : RxUnit :=
  let e := s.encOf p
  let aside := s.notCounted p u
  let line := s.rxLine p (if aside then u else { u with line := payN (s.unitBytes p) u.line })
  let own := u.err.filter fun k => e.checks (s.cxlRaw p) k.val && !(aside && k != 6)
  { u with
    aside := aside
    line := line
    dec := if e.flit && !aside && !s.cxlRaw p then payN e.laneBytes u.dec else line
    err := if s.rsFec p && !aside && u.unc != 0 then some 4 else own
    cells := if e.raw then u.cells.map fun c => (c.1, if s.on .XCVR_CTL_RXINV (rxPort (p + 2 * c.1.val)) then c.2.map (~~~ ·) else c.2) else u.cells }

/-- FEC statistics of a link (R139). -/
def fecCount (s : State) (p : Nat) (u : RxUnit) : State :=
  let s := s.incWrap .X_CW p u.cws
  match s.linkOf (p / 2) with
  | none => s
  | some L =>
    if s.protoOf (p / 2) = 3 ∧ 2 ≤ s.rd .LNK_ETH_FEC L then
      let a := s.rd .X_FEC_ACC L + u.cws
      let s := (s.wr .X_FEC_ACC L (a % 256)).incSat .FEC_CW_COUNT L (a / 256)
      ((s.incSat .FEC_CORR_COUNT L u.corr).incSat .FEC_UNC_COUNT L u.unc).incSat .FEC_SYM_COUNT L u.syms
    else s

/-- The paths on which a unit of path p counts: every lane that the link's training has brought in and its partners have not idled, one lane of a raw link (R217 to R219). -/
def State.countPaths (s : State) (p : Nat) : List Nat :=
  if s.protoOf (p / 2) = 0 then [p]
  else ((s.linkPaths p).take (s.activeWidth (p / 2))).filter fun q => !s.on .X_LANE_IDLE (q / 2)

/-- A pending SKPADJ whose path is not in SPLICE at its named unit is cancelled (R314). -/
def skpDue (s : State) (p pos : Nat) : State :=
  if s.on .X_SKP_V p && pos == s.rd .X_SKP_POS p && s.mode p != mSPLICE then cancelAction (s.clr .X_SKP_V p) p pos else s

/-- The profile's program arms a burst of one bit 256 units ahead, at each position that is a multiple of 2^(10 + ERRLOG), while its path is in SPLICE;
one that finds no free entry is skipped (R645). -/
def f5Burst (s : State) (p pos : Nat) : State :=
  let at_ := posAdd pos 256
  if s.profiled (gOf p) && s.mode p == mSPLICE && at_ % 2 ^ (10 + s.rd .F5_MODE_ERRLOG (p / 2)) == 0 then
    match s.injFree (gOf p) with
    | some e => injTake s e (localPath p) 7 false (.pos at_) 1 32
    | none => s.incSat .F5_STAT_SKIP 0 1
  else s

/-- A unit is counted (R214, R217): positions, changes of mode and delay, cancelled actions, waits. -/
def countUnit (s : State) (p : Nat) (u : RxUnit) : State :=
  if u.aside then s
  else
    let ps := s.countPaths p
    let s := s.each ps fun s q => s.incWrap .PATH_POS_POS q 1
    let stamp := s.stampOf p
    let pos := s.pos p
    let s := if s.govPath p = p then
        f5Burst (skpDue (cancelUnspliced (dlyDue (modeDue s p pos stamp) p pos stamp) p pos stamp) p pos) p pos
      else s
    pollWaits (s.each ps calLater)

/-- The unit as the pipeline holds it. -/
def State.heldUnit (s : State) (p : Nat) (u : RxUnit) (pieces : List Piece) : HeldUnit :=
  let e := s.encOf p
  { pos := s.pos p, stamp := s.stampOf p, valid := s.tbValid, enc := e, aside := u.aside, undec := s.cxlRaw p, line := u.line, dec := u.dec
    nop := u.nop, pieces := pieces, err := unitErr e u.line u, hits := [], cand := [], filt := s.filtNow p
    corr := u.corr, unc := u.unc, cw := s.rd .X_CW p - u.cws
    staged := s.mode p == mSPLICE && !s.eqPhase p && s.segsUp p
    pressed := false }

/-- The units of a path once a newer one has ended frames: those that carried them hold their ends. -/
def endCut (a : Intake) (us : List HeldUnit) : List HeldUnit :=
  a.cut.foldl (fun us id => if a.pieces.any (·.item == id) then us else endHeld id us) us

/-- A unit of a path with matchers and a tap: what it carries is read and compared, its hits act, and it is held (R319 to R332, R356). -/
def tapUnit (s : State) (p : Nat) (u : RxUnit) : State :=
  let a := s.intake p (s.pos p) (s.stampOf p) u u.line u.dec
  let us := endCut a (s.getHeld p) ++ [s.heldUnit p u a.pieces]
  let f := findHits s p a.pieces a.cut ⟨[], a.items, us⟩
  let s := ((s.setItems p f.items).wr .X_ITEM p a.next).wr .X_EDS p a.eds
  let s := f.hits.foldl (matchHit p) (s.setHeld p f.us)
  pressDecided (if f.hits = [] then s else pollWaits s) p

/-- An EIOS ends the current rate of a retimed link (R98). -/
def eiosSeen (s : State) (p : Nat) (u : RxUnit) : State :=
  match s.linkOf (p / 2) with
  | some L => if s.retimed L && u.parts.any fun x => x.kind == .ei && x.last then rateSwitch s L else s
  | none => s

/-- A unit that a SPLICE path does not bring to its injection stage: what its transmitter sends instead, and the entries that name it (R134, R342). -/
def unitUnstaged (s : State) (p : Nat) (h : HeldUnit) : State :=
  if s.mode p = mSPLICE ∧ !h.staged then
    let s := if h.aside then s else missUnit s p h.pos h.stamp
    if s.eqPhase p then s else s.emitTx p (if s.ownSegUp p then .txFault p else .txTrain p)
  else s

/-- A unit of path p passes the device. -/
def unitPass (s : State) (p : Nat) (u : RxUnit) : State :=
  if s.govPath p ≠ p then
    pchkUnit (if s.protoOf (p / 2) = 0 then countUnit s p u else s) p u.ui u.bad
  else
    let s := countUnit (settle s p) p u
    if s.mode p = mDARK then s
    else
      let s := pchkUnit (fecCount s p u) p u.ui u.bad
      let h := s.heldUnit p u (s.intake p (s.pos p) (s.stampOf p) u u.line u.dec).pieces
      let s := if hasTap (s.mode p) then tapUnit s p u else applyCaps s p (s.pos p) (s.stampOf p) s.tbValid
      eiosSeen (forwardUnit (unitUnstaged s p h) p u h) p u

/-- The paths whose units a command counts. -/
def State.counts (s : State) (p : Nat) (u : RxUnit) : List Nat :=
  if !u.aside && (s.govPath p == p || s.protoOf (p / 2) == 0) then s.countPaths p else []

/-- UNIT_DECODE (R214): a unit received on path p; same says that it is decoded in the GCLK cycle of the command before (R329). The link's units are those of its governing path; on a raw link
each lane counts its own words (R218). A DARK path receives nothing. The unit counts toward the limits that its paths guard after everything that it makes true (R268). -/
def execUnitDecode (p : Fin 512) (same : Bool) (u : RxUnit) (s : State) : Host.Outcome State Fault Refusal :=
  liveIn same s fun s =>
    if s.mode p = mDARK || !s.groveOn (gOf p) then s
    else
      let u := s.recv p u
      (unitPass s p u).each (s.counts p u) guardUnit

end Sys2Proof.Machine
end

