-- ==== Sys2Proof/Machine/Operands.lean ====
section
/-! DEFINITION. The sequencer's instruction word (R276 to R279, R318): opcodes, fields, formats, decoding, encoding, and the operands that an
instruction reads. -/
namespace Sys2Proof.Machine

/-- The opcodes of R318; an opcode with several forms gives one each. -/
inductive SOp where
  | nop | halt | yield | fence
  | add | sub | and | or | xor | shl | shr | mul
  | addi | andi | ori | ldi | ldhi
  | ld | st
  | br | beq | bne | blt | bge | call | ret | loop
  | wpos | wepoch | rpos | repoch | wany
  | mode | trainRecovery | trainHotReset | trainDisable | trainRestart | rate | ratePpm | eq | eqLvl
  | arm | disarm | wmatch | rmatch
  | capon | capoff | capmark | capsel | filt
  | inj | errb | dly | skpadj
  | tset | tclr | twait | vsend
  | cntr | evt | evtG
  deriving DecidableEq, Repr

/-- Every opcode form. -/
def opForms : List SOp :=
  [.nop, .halt, .yield, .fence, .add, .sub, .and, .or, .xor, .shl, .shr, .mul, .addi, .andi, .ori, .ldi, .ldhi, .ld, .st,
    .br, .beq, .bne, .blt, .bge, .call, .ret, .loop, .wpos, .wepoch, .rpos, .repoch, .wany]
  ++ [.mode, .trainRecovery, .trainHotReset, .trainDisable, .trainRestart, .rate, .ratePpm, .eq, .eqLvl, .arm, .disarm, .wmatch, .rmatch,
    .capon, .capoff, .capmark, .capsel, .filt, .inj, .errb, .dly, .skpadj, .tset, .tclr, .twait, .vsend, .cntr, .evt, .evtG]

/-- OP of a form (R318). -/
def SOp.byte : SOp → Nat
  | .nop => 0x00 | .halt => 0x01 | .yield => 0x02 | .fence => 0x03
  | .add => 0x08 | .sub => 0x09 | .and => 0x0A | .or => 0x0B | .xor => 0x0C | .shl => 0x0D | .shr => 0x0E | .mul => 0x0F
  | .addi => 0x10 | .andi => 0x11 | .ori => 0x12 | .ldi => 0x13 | .ldhi => 0x14
  | .ld => 0x18 | .st => 0x19
  | .br => 0x20 | .beq => 0x21 | .bne => 0x22 | .blt => 0x23 | .bge => 0x24 | .call => 0x25 | .ret => 0x26 | .loop => 0x27
  | .wpos => 0x30 | .wepoch => 0x31 | .rpos => 0x32 | .repoch => 0x33 | .wany => 0x34
  | .mode => 0x38 | .trainRecovery => 0x39 | .trainHotReset => 0x39 | .trainDisable => 0x39 | .trainRestart => 0x39
  | .rate => 0x3A | .ratePpm => 0x3A | .eq => 0x3B | .eqLvl => 0x3B
  | .arm => 0x40 | .disarm => 0x41 | .wmatch => 0x42 | .rmatch => 0x43
  | .capon => 0x48 | .capoff => 0x49 | .capmark => 0x4A | .capsel => 0x4B | .filt => 0x4C
  | .inj => 0x50 | .errb => 0x51 | .dly => 0x52 | .skpadj => 0x53
  | .tset => 0x58 | .tclr => 0x59 | .twait => 0x5A | .vsend => 0x5B
  | .cntr => 0x60 | .evt => 0x61 | .evtG => 0x61

/-- The bits of F that tell the forms of one opcode apart (R294, R296, R317). -/
def SOp.formOk (o : SOp) (x : Nat) : Bool :=
  match o with
  | .trainRecovery => x % 8 == 0
  | .trainHotReset => x % 8 == 1
  | .trainDisable => x % 8 == 2
  | .trainRestart => x % 8 == 3
  | .rate | .eq | .evt => x % 2 == 0
  | .ratePpm | .eqLvl | .evtG => x % 2 == 1
  | _ => true

/-- The fields of a word (R276): OBJ is F[40:35], T is F[34], x is F[33:0]. -/
structure SFields where
  rd : Nat
  rs1 : Nat
  rs2 : Nat
  obj : Nat
  t : Bool
  x : Nat
  deriving DecidableEq, Repr

/-- The guard path of format W, F[34:30]. -/
def SFields.guard (f : SFields) : Nat := (if f.t then 16 else 0) + bitsOf f.x 33 30

/-- What a form uses (R277): registers, T, how many values OBJ has (1: zero only), and the bits of F[33:0]. -/
structure SForm where
  rd : Bool
  rs1 : Bool
  rs2 : Bool
  t : Bool
  objs : Nat
  mask : Nat
  deriving DecidableEq, Repr

def fmtN : SForm := ⟨false, false, false, false, 1, 0⟩
def fmtR : SForm := ⟨true, true, true, false, 1, 0⟩
def fmtI : SForm := ⟨true, true, false, false, 1, 0xFFFFFFFF⟩
def fmtB : SForm := ⟨false, true, true, false, 1, 0x3FFF⟩
/-- Guard path bits within F[33:0]. -/
def guardMask : Nat := 0x3C0000000

def SOp.form : SOp → SForm
  | .nop | .halt | .yield | .fence | .ret => fmtN
  | .add | .sub | .and | .or | .xor | .shl | .shr | .mul => fmtR
  | .addi | .andi | .ori => fmtI
  | .ldi | .ldhi => { fmtI with rs1 := false }
  | .ld => ⟨true, true, false, false, 1, 0xFFFF⟩
  | .st => ⟨false, true, true, false, 1, 0xFFFF⟩
  | .br => ⟨false, false, false, false, 1, 0x3FFFF⟩
  | .beq | .bne | .blt | .bge => fmtB
  | .call => { fmtB with rs1 := false, rs2 := false }
  | .loop => ⟨true, false, false, false, 1, 0x3FFF⟩
  | .wpos | .wmatch => ⟨true, true, true, true, 32, guardMask⟩
  | .wepoch | .wany => ⟨true, true, true, true, 1, guardMask⟩
  | .twait => ⟨true, false, true, true, 64, guardMask + 0x20000000⟩
  | .rpos => ⟨true, false, false, false, 32, 0⟩
  | .repoch => ⟨true, false, false, false, 1, 0⟩
  | .mode => ⟨true, true, false, true, 32, 7⟩
  | .trainRecovery | .trainHotReset | .trainDisable | .trainRestart => ⟨true, false, false, false, 2, 7⟩
  | .rate => ⟨true, false, false, false, 2, 0xF⟩
  | .ratePpm | .eq | .eqLvl => ⟨true, true, false, false, 32, 1⟩
  | .arm => ⟨true, true, false, false, 32, 0⟩
  | .disarm => ⟨true, false, false, false, 32, 0⟩
  | .rmatch => ⟨true, false, false, false, 32, 3⟩
  | .capon | .capoff => ⟨true, true, false, true, 32, 0⟩
  | .capmark | .errb | .dly => ⟨true, true, true, true, 32, 0⟩
  | .capsel => ⟨true, true, false, false, 32, 3⟩
  | .filt => ⟨true, false, false, false, 32, 0x1F⟩
  | .inj => ⟨true, true, true, true, 32, 0x1F⟩
  | .skpadj => ⟨true, true, false, false, 32, 1⟩
  | .tset | .tclr => ⟨false, false, false, false, 64, 0⟩
  | .vsend => ⟨true, true, false, false, 16, 1⟩
  | .cntr => ⟨true, false, false, false, 32, 0xF⟩
  | .evt => ⟨false, true, false, false, 32, 1⟩
  | .evtG => ⟨false, true, false, false, 1, 1⟩

/-- Values of OBJ that a selector of CNTR admits (R316). -/
def cntrObjs (sel : Nat) : Nat :=
  match sel with
  | 0 | 1 | 7 | 9 => 32
  | 2 => 4
  | 6 => 2
  | 10 => 16
  | _ => 1

/-- Enumerated fields hold a defined encoding: CC (R289), the rate code, the action of INJ (R308), selectors (R302, R316). -/
def SOp.enumOk (o : SOp) (f : SFields) : Bool :=
  match o with
  | .br => decide (bitsOf f.x 17 14 ≤ 8)
  | .rate => decide (bitsOf f.x 3 1 ≤ 6)
  | .rmatch => decide (f.x % 4 ≤ 2)
  | .inj => decide (1 ≤ f.x % 16 ∧ f.x % 16 ≤ 6)
  | .cntr => decide (f.x % 16 ≤ 10 ∧ f.obj < cntrObjs (f.x % 16))
  | _ => true

/-- The unused fields are zero and the enumerated ones defined (R277, R278). -/
def SOp.fits (o : SOp) (f : SFields) : Bool :=
  let m := o.form
  (m.rd || f.rd == 0) && (m.rs1 || f.rs1 == 0) && (m.rs2 || f.rs2 == 0) && (m.t || !f.t) && decide (f.obj < m.objs)
    && Nat.land f.x m.mask == f.x && o.enumOk f

/-- A word decoded: an instruction, or a program check with its CAUSE. -/
inductive SDec where
  | ok (o : SOp) (f : SFields)
  | bad (cause : Nat)
  deriving DecidableEq, Repr

/-- OP of a word. -/
def wordOp (w : Nat) : Nat := w / 2 ^ 56 % 256

def wordFields (w : Nat) : SFields :=
  ⟨w / 2 ^ 51 % 32, w / 2 ^ 46 % 32, w / 2 ^ 41 % 32, w / 2 ^ 35 % 64, w / 2 ^ 34 % 2 == 1, w % 2 ^ 34⟩

/-- The form that an OP and F name. -/
def findForm (op x : Nat) : Option SOp := opForms.find? fun o => o.byte == op && o.formOk x

/-- Decode an instruction word: CAUSE 0x1 for a reserved opcode, 0x2 for a field that must be zero or a reserved encoding (R274). -/
def seqDecode (w : Nat) : SDec :=
  let f := wordFields w
  match findForm (wordOp w) f.x with
  | some o => if o.fits f then .ok o f else .bad 2
  | none => if opForms.any (fun o => o.byte == wordOp w) then .bad 2 else .bad 1

/-- The word of an instruction. -/
def seqEncode (o : SOp) (f : SFields) : Nat :=
  o.byte * 2 ^ 56 + f.rd * 2 ^ 51 + f.rs1 * 2 ^ 46 + f.rs2 * 2 ^ 41 + f.obj * 2 ^ 35 + (if f.t then 2 ^ 34 else 0) + f.x

/-- Fields within their widths that fit a form: what the encoding admits. -/
def SOp.wellFormed (o : SOp) (f : SFields) : Bool :=
  decide (f.rd < 32 ∧ f.rs1 < 32 ∧ f.rs2 < 32 ∧ f.obj < 64 ∧ f.x < 2 ^ 34) && o.formOk f.x && o.fits f

/-! Operands. -/

/-- What an instruction is issued with: grove, thread, its fields, its address, whether a STEP issued it, and by how many units or ticks the path
or the epoch moves on from its issue to its acceptance instant (R262, R281). -/
structure SCtx where
  g : Nat
  t : Nat
  f : SFields
  pc : Nat
  step : Bool
  adv : Nat

/-- Number of the thread in the device. -/
def SCtx.th (c : SCtx) : Nat := 4 * c.g + c.t

/-- Where the thread goes on. -/
inductive SNext where
  | next | jump (a : Nat) | fault (cause : Nat) | halt | wait
  deriving DecidableEq, Repr

/-- General register wi of a thread. -/
def State.wreg (s : State) (th i : Nat) : Nat := s.rd .SEQ_REGS_W (32 * th + i)
def setWreg (s : State) (th i v : Nat) : State := s.wr .SEQ_REGS_W (32 * th + i) v

/-- Operand values. -/
def SCtx.a (c : SCtx) (s : State) : Nat := s.wreg c.th c.f.rs1
def SCtx.b (c : SCtx) (s : State) : Nat := s.wreg c.th c.f.rs2
def SCtx.d (c : SCtx) (s : State) : Nat := s.wreg c.th c.f.rd

/-- The 32-bit immediate of format I, and its sign extension to 64 bits. -/
def SCtx.imm (c : SCtx) : Nat := c.f.x % 2 ^ 32
def SCtx.simm (c : SCtx) : Nat := unsigned 64 (signed 32 (c.f.x % 2 ^ 32))

/-- Data word address of format M (R287). -/
def SCtx.addr (c : SCtx) (s : State) : Nat := (c.a s + unsigned 64 (signed 16 (c.f.x % 2 ^ 16))) % 2 ^ 64

/-- Branch target. -/
def SCtx.target (c : SCtx) : Nat := c.f.x % 2 ^ 14

/-- The path, matcher or terminator of the grove that OBJ names. -/
def SCtx.path (c : SCtx) : Nat := 32 * c.g + c.f.obj
def SCtx.matcher (c : SCtx) : Nat := 32 * c.g + c.f.obj
def SCtx.lt (c : SCtx) : Nat := 2 * c.g + c.f.obj

/-- The moment of format A (R279). -/
def SCtx.moment (c : SCtx) (s : State) : Moment := if c.f.t then .epoch (c.a s) else .pos (c.a s % 2 ^ 48)

/-- The named moment had been reached at issue (R281). -/
def State.pastAtIssue (s : State) (p : Nat) (m : Moment) (adv : Nat) : Bool :=
  match m with
  | .pos q => !posLater q ((s.pos p + 2 ^ 48 - adv % 2 ^ 48) % 2 ^ 48)
  | .epoch e => decide (e ≤ s.epochNow - adv)

end Sys2Proof.Machine
end

