-- ==== Sys2Proof/Machine/Flags.lean ====
section
/-! DEFINITION. The flags of a thread (R251, R281 to R283) and the results that set them (R286). -/
namespace Sys2Proof.Machine

/-- Bits of SEQ_TSTAT.FLAGS. -/
def fZ : Nat := 0
def fC : Nat := 1
def fM : Nat := 2
def fE : Nat := 3

def State.flag (s : State) (th b : Nat) : Bool := s.bit .SEQ_TSTAT_FLAGS th b

/-- Bit i of a number where one is given. -/
def putBit (v i : Nat) : Option Bool → Nat
  | some b => setBitTo v i b
  | none => v

/-- Set the flags that an entry names; none leaves a flag as it is (R283). -/
def setFlags (s : State) (th : Nat) (z c m e : Option Bool) : State :=
  s.wr .SEQ_TSTAT_FLAGS th (putBit (putBit (putBit (putBit (s.rd .SEQ_TSTAT_FLAGS th) fZ z) fC c) fM m) fE e)

/-- A 64-bit result with its carry: the value modulo 2^64 and C. -/
def addC (a b : Nat) : Nat × Bool := ((a + b) % 2 ^ 64, decide (2 ^ 64 ≤ a + b))
def subC (a b : Nat) : Nat × Bool := ((a + 2 ^ 64 - b) % 2 ^ 64, decide (a < b))

/-- SHL (R286): C is the last bit shifted out, 0 for a count of 0. -/
def shlC (a n : Nat) : Nat × Bool := (a * 2 ^ n % 2 ^ 64, decide (0 < n) && bitOf a (64 - n))
def shrC (a n : Nat) : Nat × Bool := (a / 2 ^ n, decide (0 < n) && bitOf a (n - 1))

/-- MUL (R286): C says that the high half is not zero. -/
def mulC (a b : Nat) : Nat × Bool := (a * b % 2 ^ 64, decide (2 ^ 64 ≤ a * b))

/-- Write a result to RD and set Z, M, and C when it is given. -/
def putZM (s : State) (c : SCtx) (v : Nat) (carry : Option Bool) : State :=
  setFlags (setWreg s c.th c.f.rd v) c.th (some (v == 0)) carry (some (bitOf v 63)) none

/-- Write a result code, with an entry number above it (R280), and its flags (R281). -/
def putCode (s : State) (c : SCtx) (code entry : Nat) (past : Bool) : State :=
  setFlags (setWreg s c.th c.f.rd (code + 256 * entry)) c.th (some (code == 0)) (some past) (some false) (some (code != 0))

/-- Write a wait's outcome (R267, R282); for WANY the number of its condition above it, or 0xFF (R292). -/
def putOutcome (s : State) (th rd outcome : Nat) (num : Option Nat) (held : Bool) : State :=
  let v := outcome + match num with | some n => 256 * n | none => 0
  setFlags (setWreg s th rd v) th (some (outcome == 0)) (some held) none (some (outcome == 2))

/-- Condition of BR (R289). -/
def brHolds (s : State) (th cc : Nat) : Bool :=
  match cc with
  | 0 => true
  | 1 => s.flag th fZ
  | 2 => !s.flag th fZ
  | 3 => s.flag th fC
  | 4 => !s.flag th fC
  | 5 => s.flag th fM
  | 6 => !s.flag th fM
  | 7 => s.flag th fE
  | _ => !s.flag th fE

end Sys2Proof.Machine
end

