-- ==== Sys2Proof/Machine/Seq.lean ====
section
/-! DEFINITION. The sequencers (R248 to R318): issue, threads' control, memories, and every instruction. -/
namespace Sys2Proof.Machine

def tHALTED : Nat := 0
def tRUNNING : Nat := 1
def tWAITING : Nat := 2
def tFAULTED : Nat := 3

/-- What an instruction leaves: the state, and where its thread goes on. -/
abbrev SRes := State × SNext

/-! Threads. -/

/-- A thread stops in FAULTED with its cause and the faulting instruction's address (R274). -/
def threadFault (s : State) (g t cause pc addr : Nat) : State :=
  let th := 4 * g + t
  let s := ((s.wr .SEQ_TSTAT_STATE th tFAULTED).wr .SEQ_TSTAT_CAUSE th cause).wr .SEQ_TSTAT_PC th pc
  s.raise (768 + 8 * g + (if cause ≤ 2 then 6 else t)) msgFAULT addr

/-- The thread goes on at an address, or faults past word 16,383 (R274). -/
def advance (s : State) (c : SCtx) (nx : Nat) : State :=
  if 16383 < nx then threadFault s c.g c.t 4 c.pc c.pc
  else (s.wr .SEQ_TSTAT_PC c.th nx).wr .SEQ_TSTAT_STATE c.th (if c.step then tHALTED else tRUNNING)

/-- End of an instruction. -/
def finishOp (c : SCtx) (r : SRes) : State :=
  match r.2 with
  | .next => advance r.1 c (c.pc + 1)
  | .jump a => advance r.1 c a
  | .fault k => threadFault r.1 c.g c.t k c.pc c.pc
  | .halt => (r.1.wr .SEQ_TSTAT_PC c.th c.pc).wr .SEQ_TSTAT_STATE c.th tHALTED
  | .wait => (r.1.wr .SEQ_TSTAT_PC c.th c.pc).wr .SEQ_TSTAT_STATE c.th tWAITING

/-- Return stack (R251): depth and its register image. -/
def State.depth (s : State) (th : Nat) : Nat := s.rd .X_RDEPTH th
def setDepth (s : State) (th n : Nat) : State :=
  ((s.wr .X_RDEPTH th n).wr .SEQ_TSTAT_RSD th (min n 7)).wrB .SEQ_TSTAT_FULL th (n == 8)

/-- GCLK runs and the grove is on. -/
def State.threadRuns (s : State) (g t : Nat) : Bool := s.groveOn g && !s.profiled g && s.rd .SEQ_TSTAT_STATE (4 * g + t) == tRUNNING

/-- The word at a thread's program counter. -/
def State.fetch (s : State) (g t : Nat) : Nat := (s.getI g (s.rd .SEQ_TSTAT_PC (4 * g + t))).toNat

/-- An instruction fetch of grove g with its parity checker (R274, R559): the state after, and whether a parity error was seen. -/
def fetchParity (s : State) (g : Nat) : Bool × State := let x := takeInj s g; (x.1.isSome, x.2)

/-- A fetch with a parity error stops the thread; an injected one says so (R274, R561). -/
def parityFault (s : State) (g t : Nat) : State :=
  let pc := s.rd .SEQ_TSTAT_PC (4 * g + t)
  threadFault s g t 6 pc (injAddr pc true false)

/-- Issue of the word at a thread's program counter as opcode form o, which sem carries out. -/
def issueAs (o : SOp) (sem : SCtx → State → SRes) (s : State) (g t : Nat) (step : Bool) (adv : Nat) : State :=
  let pc := s.rd .SEQ_TSTAT_PC (4 * g + t)
  match seqDecode (s.fetch g t) with
  | .ok o' f =>
    if o' = o then
      let x := fetchParity s g
      if x.1 then parityFault x.2 g t
      else
        let c : SCtx := ⟨g, t, f, pc, step, adv⟩
        finishOp c (sem c x.2)
    else s
  | .bad k =>
    if wordOp (s.fetch g t) = o.byte then
      let x := fetchParity s g
      if x.1 then parityFault x.2 g t else threadFault x.2 g t k pc pc
    else s

/-- A running thread issues an instruction of form o. -/
def seqRowIn (same : Bool) (o : SOp) (sem : SCtx → State → SRes) (g : Fin 16) (t : Fin 4) (s : State) : Host.Outcome State Fault Refusal :=
  liveIn same s fun s => if s.threadRuns g t then issueAs o sem s g t false 0 else s

/-- The row of an instruction. -/
def seqRow (o : SOp) (sem : SCtx → State → SRes) (g : Fin 16) (t : Fin 4) (adv : Nat) (s : State) : Host.Outcome State Fault Refusal :=
  live s fun s => if s.threadRuns g t then issueAs o sem s g t false adv else s

/-! Thread control, arithmetic and immediates (R286). -/

def semNop (_ : SCtx) (s : State) : SRes := (s, .next)
def semHalt (_ : SCtx) (s : State) : SRes := (s, .halt)
/-- YIELD's second slot issues nothing. -/
def semYield (_ : SCtx) (s : State) : SRes := (s, .next)
/-- FENCE: triggers, stores and messages take effect where they are issued, so there is nothing left to wait for. -/
def semFence (_ : SCtx) (s : State) : SRes := (s, .next)

/-- A result with a carry. -/
def arith (c : SCtx) (s : State) (r : Nat × Bool) : SRes := (putZM s c r.1 (some r.2), .next)

def semAdd (c : SCtx) (s : State) : SRes := arith c s (addC (c.a s) (c.b s))
def semSub (c : SCtx) (s : State) : SRes := arith c s (subC (c.a s) (c.b s))
def semAnd (c : SCtx) (s : State) : SRes := arith c s (Nat.land (c.a s) (c.b s), false)
def semOr (c : SCtx) (s : State) : SRes := arith c s (Nat.lor (c.a s) (c.b s), false)
def semXor (c : SCtx) (s : State) : SRes := arith c s (Nat.xor (c.a s) (c.b s), false)
def semShl (c : SCtx) (s : State) : SRes := arith c s (shlC (c.a s) (c.b s % 64))
def semShr (c : SCtx) (s : State) : SRes := arith c s (shrC (c.a s) (c.b s % 64))
def semMul (c : SCtx) (s : State) : SRes := arith c s (mulC (c.a s) (c.b s))
def semAddi (c : SCtx) (s : State) : SRes := arith c s (addC (c.a s) c.simm)
def semAndi (c : SCtx) (s : State) : SRes := arith c s (Nat.land (c.a s) c.imm, false)
def semOri (c : SCtx) (s : State) : SRes := arith c s (Nat.lor (c.a s) c.imm, false)
def semLdi (c : SCtx) (s : State) : SRes := (setWreg s c.th c.f.rd c.imm, .next)
def semLdhi (c : SCtx) (s : State) : SRes := (setWreg s c.th c.f.rd (c.imm * 2 ^ 32 + c.d s % 2 ^ 32), .next)

/-! Data memory (R287). -/

def semLd (c : SCtx) (s : State) : SRes :=
  if 4096 ≤ c.addr s then (s, .fault 3) else (putZM s c (s.getD c.g (c.addr s)).toNat none, .next)
def semSt (c : SCtx) (s : State) : SRes :=
  if 4096 ≤ c.addr s then (s, .fault 3) else (dataWrite s c.g (c.addr s) (wordOf (c.b s)), .next)

/-! Branches (R288, R289). -/

def branchIf (c : SCtx) (s : State) (b : Bool) : SRes := (s, if b then .jump c.target else .next)
def semBr (c : SCtx) (s : State) : SRes := branchIf c s (brHolds s c.th (bitsOf c.f.x 17 14))
def semBeq (c : SCtx) (s : State) : SRes := branchIf c s (c.a s == c.b s)
def semBne (c : SCtx) (s : State) : SRes := branchIf c s (c.a s != c.b s)
def semBlt (c : SCtx) (s : State) : SRes := branchIf c s (decide (signed 64 (c.a s) < signed 64 (c.b s)))
def semBge (c : SCtx) (s : State) : SRes := branchIf c s (decide (signed 64 (c.b s) ≤ signed 64 (c.a s)))

def semCall (c : SCtx) (s : State) : SRes :=
  let n := s.depth c.th
  if 8 ≤ n then (s, .fault 5) else (setDepth (s.wr .X_RSTK (8 * c.th + n) (c.pc + 1)) c.th (n + 1), .jump c.target)
def semRet (c : SCtx) (s : State) : SRes :=
  let n := s.depth c.th
  if n = 0 then (s, .fault 5) else (setDepth s c.th (n - 1), .jump (s.rd .X_RSTK (8 * c.th + (n - 1))))
def semLoop (c : SCtx) (s : State) : SRes :=
  if c.d s = 0 then (s, .next)
  else (setWreg s c.th c.f.rd (c.d s - 1), if c.d s - 1 ≠ 0 then .jump c.target else .next)

/-! Time and waits (R267 to R272, R290 to R293). -/

/-- Issue of a wait: it completes at once when its condition holds, when the limit is 0 or a STEP issued it, or when it has no condition. -/
def waitOp (c : SCtx) (s : State) (cond : WaitCond) (anyNum : Bool) (never : Bool) : SRes :=
  match s.condHolds cond with
  | some n => (putOutcome s c.th c.f.rd 0 (if anyNum then some n else none) true, .next)
  | none =>
    if c.step || c.b s == 0 || never then (putOutcome s c.th c.f.rd 1 (if anyNum then some 255 else none) false, .next)
    else
      let left := if c.b s < 2 ^ 47 then some (c.b s) else none
      (s.setWait c.th (some ⟨c.f.rd, cond, 32 * c.g + c.f.guard, left, 0, none, false, []⟩), .wait)

def semWpos (c : SCtx) (s : State) : SRes := waitOp c s (.pos c.path (c.a s % 2 ^ 48)) false false
def semWepoch (c : SCtx) (s : State) : SRes := waitOp c s (.epoch (c.a s)) false false
def semWmatch (c : SCtx) (s : State) : SRes := waitOp c s (.hits c.matcher (c.a s % 2 ^ 32)) false false
def semTwait (c : SCtx) (s : State) : SRes := waitOp c s (.line c.f.obj (bitOf c.f.x 29)) false false
def semRpos (c : SCtx) (s : State) : SRes := (setWreg s c.th c.f.rd (s.pos c.path), .next)
def semRepoch (c : SCtx) (s : State) : SRes :=
  (setFlags (setWreg s c.th c.f.rd s.epochNow) c.th none none none (some (!s.tbValid)), .next)

/-- WANY (R291): its block, read at issue. -/
def semWany (c : SCtx) (s : State) : SRes :=
  let a := c.a s
  if 4096 < a + 4 then (s, .fault 3)
  else
    let w := fun (i : Nat) => (s.getD c.g (a + i)).toNat
    if bitsOf (w 1) 63 43 ≠ 0 then (s, .fault 2)
    else
      let ms := (List.range 32).filter (bitOf (w 1)) |>.map fun i => (32 * c.g + i, s.rd .MATCH_CNT_COUNT (32 * c.g + i))
      let pos := if bitOf (w 1) 36 then some (32 * c.g + bitsOf (w 1) 42 38, w 2 % 2 ^ 48) else none
      let ep := if bitOf (w 1) 37 then some (w 3) else none
      waitOp c s (.any (w 0) ms (bitsOf (w 1) 35 32) pos ep) true (w 0 == 0 && w 1 % 2 ^ 38 == 0)

/-- A waiting thread's wait ends with an outcome, and it resumes (R267, R271). -/
def waitEnd (s : State) (g t : Nat) (w : Wait) (outcome : Nat) : State :=
  let th := 4 * g + t
  let num := match w.cond with
    | .any .. => some (if outcome = 0 then w.hit.getD 255 else 255)
    | _ => none
  let pc := s.rd .SEQ_TSTAT_PC th
  advance (putOutcome (s.setWait th none) th w.rd outcome num false) ⟨g, t, ⟨0, 0, 0, 0, false, 0⟩, pc, false, 0⟩ (pc + 1)

/-- WAIT_COMPLETE (R267, R271): the condition of a waiting thread has held, or the GEN of a WPOS path has changed. -/
def execWaitComplete (g : Fin 16) (t : Fin 4) (s : State) : Host.Outcome State Fault Refusal :=
  live s fun s =>
    match s.getWait (4 * g + t) with
    | some w =>
      if !s.groveOn g then s else if w.hit.isSome then waitEnd s g t w 0 else if w.genChanged then waitEnd s g t w 2 else s
    | none => s

/-- WAIT_LIMIT (R267, R268): the guard path has received L units without the condition, and the matchers that the wait names have decided every unit decoded by then. -/
def execWaitLimit (g : Fin 16) (t : Fin 4) (s : State) : Host.Outcome State Fault Refusal :=
  live s fun s =>
    match s.getWait (4 * g + t) with
    | some w => if s.groveOn g && w.left == some 0 && w.hit.isNone && !w.genChanged && !s.owes w then waitEnd s g t w 1 else s
    | none => s

/-! Link instructions (R294 to R299). -/

/-- MODE: the change waits for its moment; out of DARK it waits as a host's does (R79), its moment kept for R313. -/
def semMode (c : SCtx) (s : State) : SRes :=
  let p := c.path
  let m := c.moment s
  let target := c.f.x % 8
  let ab := p % 2 == 0
  let code := s.chgCode (p / 2) ab (!ab) (if ab then target else s.mode (2 * (p / 2))) (if ab then s.mode (2 * (p / 2) + 1) else target)
    (s.momentPast p m) false
  let s1 := if code = 0 then chgBegin s p target (if s.mode p = mDARK then .fromDark (some m) else .named m) else s
  (putCode s1 c code 0 (s.pastAtIssue p m c.adv), .next)

/-- A TRAIN operation is valid in the state that the terminator reports (R296, R297). The spec does not list the states: Recovery from L0; Hot Reset from L0 or
Recovery, Downstream Port only; Disabled from Configuration on; a restart from any. On Ethernet, training from a segment that has reached it,
auto-negotiation from any. -/
def State.trainValid (s : State) (t op : Nat) : Bool :=
  if s.ltEth t then (op == 3 || (op == 0 && decide (2 ≤ s.rd .LT_ETH_STAT_STATE t ∧ s.rd .LT_ETH_STAT_STATE t ≤ 4)))
  else
    let st := s.rd .LT_STAT_LTSSM t
    match op with
    | 0 => st == 4
    | 1 => s.on .LT_PCI_CFG_ROLE t && (st == 3 || st == 4)
    | 2 => decide (2 ≤ st ∧ st ≤ 4)
    | _ => true

/-- The effect of TRAIN (R296). -/
def trainDo (s : State) (t op : Nat) : State :=
  if s.ltEth t then (ltEthTo s t (if op = 0 then 2 else 1) (s.on .LT_ETH_STAT_LF t) (s.on .LT_ETH_STAT_RF t)).set .X_LT_BUSY t
  else
    match op with
    | 0 => (ltMove s t 3).set .X_LT_BUSY t
    | 1 => (ltMove s t 8).set .X_LT_BUSY t
    | 2 => ltMove s t 9
    | _ => (ltMove s t 0).set .X_LT_BUSY t

/-- Code of TRAIN or RATE (R297). -/
def State.ltCode (s : State) (t : Nat) (valid : Bool) : Nat :=
  if !s.on .LT_CFG_EN t then 2
  else if s.groveAway (32 * (t / 2)) then 7
  else if !valid then 9
  else if s.on .X_LT_BUSY t then 0xA
  else 0

def trainOp (c : SCtx) (s : State) (op : Nat) : SRes :=
  let code := s.ltCode c.lt (s.trainValid c.lt op)
  (putCode (if code = 0 then trainDo s c.lt op else s) c code 0 false, .next)

def semTrainRecovery (c : SCtx) (s : State) : SRes := trainOp c s 0
def semTrainHotReset (c : SCtx) (s : State) : SRes := trainOp c s 1
def semTrainDisable (c : SCtx) (s : State) : SRes := trainOp c s 2
def semTrainRestart (c : SCtx) (s : State) : SRes := trainOp c s 3

/-- RATE (R298). -/
def semRate (c : SCtx) (s : State) : SRes :=
  let t := c.lt
  let r := bitsOf c.f.x 3 1
  let code := s.ltCode t (!s.ltEth t && decide (r ≤ s.rd .LT_PCI_CFG_MAXRATE t))
  let s1 := if code = 0 then
      let l0 := s.rd .LT_STAT_LTSSM t == 4
      let s := (s.wr .X_LT_TGT t (r + 1)).set .X_LT_BUSY t
      if l0 then ltMove s t 3 else s
    else s
  (putCode s1 c code 0 false, .next)

/-- RATE.PPM, EQ and EQ.LVL (R299): the host's write, but a refusal sets no TXERR. -/
def txOp (c : SCtx) (s : State) (r : Option State) : SRes :=
  if s.groveAway c.path then (putCode s c 7 0 false, .next)
  else match r with
    | some s' => (putCode s' c 0 0 false, .next)
    | none => (putCode s c 9 0 false, .next)

def semRatePpm (c : SCtx) (s : State) : SRes := txOp c s (ppmSet s (txPort c.path) (c.a s % 2 ^ 32))
def semEq (c : SCtx) (s : State) : SRes := txOp c s (firSet s (txPort c.path) (c.a s % 2 ^ 30))
def semEqLvl (c : SCtx) (s : State) : SRes := txOp c s (lvlSet s (txPort c.path) (c.a s % 2 ^ 12))

/-! Matchers (R300 to R302). -/

def semArm (c : SCtx) (s : State) : SRes :=
  let a := c.a s
  if s.blockPast c.g a then (s, .fault 3)
  else
    let b := s.readBlock c.g a
    let code := if s.groveAway (32 * c.g) then 7 else if blockBad b then 9 else if s.on .MATCH_STAT_ARMED c.matcher then 0xA else 0
    (putCode (if code = 0 then matchArm s c.matcher b else s) c code 0 false, .next)

def semDisarm (c : SCtx) (s : State) : SRes :=
  if s.groveAway (32 * c.g) then (putCode s c 7 0 false, .next) else (putCode (matchDisarm s c.matcher) c 0 0 false, .next)

def semRmatch (c : SCtx) (s : State) : SRes :=
  let m := c.matcher
  let v := match c.f.x % 4 with
    | 0 => s.rd .MATCH_CNT_COUNT m
    | 1 => s.rd .MATCH_LPOS_POS m
    | _ => s.rd .MATCH_LEP_EPOCH m
  (setWreg s c.th c.f.rd v, .next)

/-! Capture (R303 to R306). -/

/-- CAPON, CAPOFF and CAPMARK. -/
def capOp (c : SCtx) (s : State) (k : CapKind) : SRes :=
  let m := c.moment s
  let x := capAccept s c.path m k 0 c.t
  (putCode x.2 c x.1 0 (s.pastAtIssue c.path m c.adv), .next)

def semCapon (c : SCtx) (s : State) : SRes := capOp c s .on
def semCapoff (c : SCtx) (s : State) : SRes := capOp c s .off
def semCapmark (c : SCtx) (s : State) : SRes := capOp c s (.mark (c.b s % 2 ^ 32))

/-- CAPSEL (R306). -/
def semCapsel (c : SCtx) (s : State) : SRes :=
  let p := c.path
  let k := c.a s
  let code := if k ≤ 255 ∧ !s.on .PUN_CFG_EN k then 2
    else if s.govPath p ≠ p then 4
    else if s.groveAway p then 7
    else if 255 < k then 9
    else if s.strmBusy p then 0xA
    else 0
  (putCode (if code = 0 then strmAssign s p k (c.f.x % 4) else s) c code 0 false, .next)

/-- FILT (R303). -/
def semFilt (c : SCtx) (s : State) : SRes :=
  let p := c.path
  let code := if s.govPath p ≠ p then 4 else if s.groveAway p then 7 else 0
  (putCode (if code = 0 then (s.wr .PATH_FILT_FILT p (c.f.x % 16)).wr .PATH_FILT_NONE p (bitsOf c.f.x 4 4) else s) c code 0 false, .next)

/-! Injection and delay (R307 to R314). -/

/-- Take an injection queue entry for an accepted INJ or ERRB. -/
def takeEntry (c : SCtx) (s : State) (act : Nat) (fix : Bool) (m : Moment) (data : Nat) : Nat × State :=
  match s.injFree c.g with
  | some e => (e % 64, injTake s e c.f.obj act fix m data (32 + c.t))
  | none => (0, s)

/-- INJ (R308, R309). -/
def semInj (c : SCtx) (s : State) : SRes :=
  let p := c.path
  let m := c.moment s
  let act := c.f.x % 16
  let code := if s.govPath p ≠ p then 4
    else if s.momentPast p m then 5
    else if (s.injFree c.g).isNone then 6
    else if s.groveAway p then 7
    else if s.actRefused p act || ((act == 1 || act == 2 || act == 5) && decide (4096 ≤ c.b s)) then 9
    else if s.modeAt p m ≠ mSPLICE then 0xB
    else 0
  let x := if code = 0 then takeEntry c s act (bitOf c.f.x 4) m (c.b s) else (0, s)
  (putCode x.2 c code x.1 (s.pastAtIssue p m c.adv), .next)

/-- ERRB (R310): any lane's path; positions are the link's. -/
def semErrb (c : SCtx) (s : State) : SRes :=
  let p := c.path
  let q := s.govPath p
  let m := c.moment s
  let count := c.b s % 65536
  let code := if s.momentPast q m then 5
    else if count ≠ 0 ∧ (s.injFree c.g).isNone then 6
    else if s.groveAway p then 7
    else if 4096 < count then 9
    else if s.modeAt q m ≠ mSPLICE then 0xB
    else 0
  let x := if code = 0 ∧ count ≠ 0 then takeEntry c s 7 false m (c.b s % 2 ^ 32) else (0, s)
  (putCode x.2 c code x.1 (s.pastAtIssue q m c.adv), .next)

/-- DLY (R311). -/
def semDly (c : SCtx) (s : State) : SRes :=
  let p := c.path
  let m := c.moment s
  let code := if s.govPath p ≠ p then 4
    else if s.momentPast p m then 5
    else if s.rd .X_DLYP_V p ≠ 0 then 6
    else if s.groveAway p then 7
    else if 2 ^ 32 ≤ c.b s ∨ s.cellsTooMany p (c.b s) then 9
    else if s.modeAt p m ≠ mDELAY then 0xB
    else 0
  let s1 := if code = 0 then
      ((s.wr .X_DLYP_V p (if c.f.t then 2 else 1)).wr .X_DLYP_M p (if c.f.t then c.a s else c.a s % 2 ^ 48)).wr .X_DLYP_C p (c.b s)
    else s
  (putCode s1 c code 0 (s.pastAtIssue p m c.adv), .next)

/-- SKPADJ (R312). -/
def semSkpadj (c : SCtx) (s : State) : SRes :=
  let p := c.path
  let m := Moment.pos (c.a s % 2 ^ 48)
  let code := if s.govPath p ≠ p then 4
    else if s.momentPast p m then 5
    else if s.on .X_SKP_V p then 6
    else if s.groveAway p then 7
    else if !s.pcie (p / 2) then 9
    else if s.modeAt p m ≠ mSPLICE then 0xB
    else 0
  let s1 := if code = 0 then ((s.set .X_SKP_V p).wr .X_SKP_POS p (c.a s % 2 ^ 48)).wr .X_SKP_DIR p (c.f.x % 2) else s
  (putCode s1 c code 0 (s.pastAtIssue p m c.adv), .next)

/-! Triggers, counters, events (R315 to R317). -/

def semTset (c : SCtx) (s : State) : SRes := (tlSet s c.f.obj, .next)
def semTclr (c : SCtx) (s : State) : SRes := (tlClr s c.f.obj, .next)
def semVsend (c : SCtx) (s : State) : SRes :=
  let x := vineRequest s c.f.obj (c.f.x % 2 == 1) (c.a s)
  (putCode x.2 c x.1 0 false, .next)

/-- LT_STAT's ten bits. -/
def State.ltStat (s : State) (t : Nat) : Nat :=
  s.rd .LT_STAT_LTSSM t + 16 * s.rd .LT_STAT_DLUP t + 32 * s.rd .LT_STAT_RATE t + 256 * s.rd .LT_STAT_FLIT t + 512 * s.rd .LT_STAT_CXL t

/-- What a selector of CNTR reads (R316). -/
def cntrValue (c : SCtx) (s : State) : Nat :=
  let p := c.path
  match c.f.x % 16 with
  | 0 => s.rd .PATH_POS_GEN p
  | 1 => s.rd .PATH_DISC_COUNT p
  | 2 => if s.rd .GSB_CFG_FUNC (4 * c.g + c.f.obj) = 3 then s.rd .GSB_CFG_LEVEL (4 * c.g + c.f.obj) else 0
  | 3 => s.rd .TL_LVL_LVL 0
  | 4 => c.g + 16 * c.t
  | 5 => s.rd .INJ_STAT_FREE c.g
  | 6 => s.ltStat c.lt
  | 7 => s.rd .PATH_PCHK_ERRS p + 2 ^ 31 * s.rd .PATH_PCHK_LOCK p
  | 8 => s.rd .TB_STAT_VALID 0 + 2 ^ 16 * s.rd .TB_STAT_STEPS 0
  | 9 => match s.pendChg p with | some ch => 1 + 2 * ch.target | none => 0
  | _ => s.rd .VIN_TLAST_T c.f.obj

def semCntr (c : SCtx) (s : State) : SRes := (putZM s c (cntrValue c s) none, .next)
def semEvt (c : SCtx) (s : State) : SRes := (pathEvent s c.path msgPROGRAM (c.a s % 2 ^ 48), .next)
def semEvtG (c : SCtx) (s : State) : SRes := (s.raise (768 + 8 * c.g + 7) msgPROGRAM (c.a s % 2 ^ 48), .next)

/-- What each opcode form does. -/
def SOp.sem : SOp → SCtx → State → SRes
  | .nop => semNop | .halt => semHalt | .yield => semYield | .fence => semFence
  | .add => semAdd | .sub => semSub | .and => semAnd | .or => semOr | .xor => semXor | .shl => semShl | .shr => semShr | .mul => semMul
  | .addi => semAddi | .andi => semAndi | .ori => semOri | .ldi => semLdi | .ldhi => semLdhi
  | .ld => semLd | .st => semSt
  | .br => semBr | .beq => semBeq | .bne => semBne | .blt => semBlt | .bge => semBge | .call => semCall | .ret => semRet | .loop => semLoop
  | .wpos => semWpos | .wepoch => semWepoch | .rpos => semRpos | .repoch => semRepoch | .wany => semWany
  | .mode => semMode | .trainRecovery => semTrainRecovery | .trainHotReset => semTrainHotReset | .trainDisable => semTrainDisable
  | .trainRestart => semTrainRestart | .rate => semRate | .ratePpm => semRatePpm | .eq => semEq | .eqLvl => semEqLvl
  | .arm => semArm | .disarm => semDisarm | .wmatch => semWmatch | .rmatch => semRmatch
  | .capon => semCapon | .capoff => semCapoff | .capmark => semCapmark | .capsel => semCapsel | .filt => semFilt
  | .inj => semInj | .errb => semErrb | .dly => semDly | .skpadj => semSkpadj
  | .tset => semTset | .tclr => semTclr | .twait => semTwait | .vsend => semVsend
  | .cntr => semCntr | .evt => semEvt | .evtG => semEvtG

/-! The rows of the instructions. -/

def execNop (g : Fin 16) (t : Fin 4) (s : State) : Host.Outcome State Fault Refusal := seqRow .nop semNop g t 0 s
def execHalt (g : Fin 16) (t : Fin 4) (s : State) : Host.Outcome State Fault Refusal := seqRow .halt semHalt g t 0 s
def execYield (g : Fin 16) (t : Fin 4) (s : State) : Host.Outcome State Fault Refusal := seqRow .yield semYield g t 0 s
def execFence (g : Fin 16) (t : Fin 4) (s : State) : Host.Outcome State Fault Refusal := seqRow .fence semFence g t 0 s
def execAdd (g : Fin 16) (t : Fin 4) (s : State) : Host.Outcome State Fault Refusal := seqRow .add semAdd g t 0 s
def execSub (g : Fin 16) (t : Fin 4) (s : State) : Host.Outcome State Fault Refusal := seqRow .sub semSub g t 0 s
def execAnd (g : Fin 16) (t : Fin 4) (s : State) : Host.Outcome State Fault Refusal := seqRow .and semAnd g t 0 s
def execOr (g : Fin 16) (t : Fin 4) (s : State) : Host.Outcome State Fault Refusal := seqRow .or semOr g t 0 s
def execXor (g : Fin 16) (t : Fin 4) (s : State) : Host.Outcome State Fault Refusal := seqRow .xor semXor g t 0 s
def execShl (g : Fin 16) (t : Fin 4) (s : State) : Host.Outcome State Fault Refusal := seqRow .shl semShl g t 0 s
def execShr (g : Fin 16) (t : Fin 4) (s : State) : Host.Outcome State Fault Refusal := seqRow .shr semShr g t 0 s
def execMul (g : Fin 16) (t : Fin 4) (s : State) : Host.Outcome State Fault Refusal := seqRow .mul semMul g t 0 s
def execAddi (g : Fin 16) (t : Fin 4) (s : State) : Host.Outcome State Fault Refusal := seqRow .addi semAddi g t 0 s
def execAndi (g : Fin 16) (t : Fin 4) (s : State) : Host.Outcome State Fault Refusal := seqRow .andi semAndi g t 0 s
def execOri (g : Fin 16) (t : Fin 4) (s : State) : Host.Outcome State Fault Refusal := seqRow .ori semOri g t 0 s
def execLdi (g : Fin 16) (t : Fin 4) (s : State) : Host.Outcome State Fault Refusal := seqRow .ldi semLdi g t 0 s
def execLdhi (g : Fin 16) (t : Fin 4) (s : State) : Host.Outcome State Fault Refusal := seqRow .ldhi semLdhi g t 0 s
def execLd (g : Fin 16) (t : Fin 4) (s : State) : Host.Outcome State Fault Refusal := seqRow .ld semLd g t 0 s
def execSt (g : Fin 16) (t : Fin 4) (s : State) : Host.Outcome State Fault Refusal := seqRow .st semSt g t 0 s
def execBr (g : Fin 16) (t : Fin 4) (s : State) : Host.Outcome State Fault Refusal := seqRow .br semBr g t 0 s
def execBeq (g : Fin 16) (t : Fin 4) (s : State) : Host.Outcome State Fault Refusal := seqRow .beq semBeq g t 0 s
def execBne (g : Fin 16) (t : Fin 4) (s : State) : Host.Outcome State Fault Refusal := seqRow .bne semBne g t 0 s
def execBlt (g : Fin 16) (t : Fin 4) (s : State) : Host.Outcome State Fault Refusal := seqRow .blt semBlt g t 0 s
def execBge (g : Fin 16) (t : Fin 4) (s : State) : Host.Outcome State Fault Refusal := seqRow .bge semBge g t 0 s
def execCall (g : Fin 16) (t : Fin 4) (s : State) : Host.Outcome State Fault Refusal := seqRow .call semCall g t 0 s
def execRet (g : Fin 16) (t : Fin 4) (s : State) : Host.Outcome State Fault Refusal := seqRow .ret semRet g t 0 s
def execLoop (g : Fin 16) (t : Fin 4) (s : State) : Host.Outcome State Fault Refusal := seqRow .loop semLoop g t 0 s
def execWpos (g : Fin 16) (t : Fin 4) (s : State) : Host.Outcome State Fault Refusal := seqRow .wpos semWpos g t 0 s
def execWepoch (g : Fin 16) (t : Fin 4) (s : State) : Host.Outcome State Fault Refusal := seqRow .wepoch semWepoch g t 0 s
def execRpos (g : Fin 16) (t : Fin 4) (s : State) : Host.Outcome State Fault Refusal := seqRow .rpos semRpos g t 0 s
def execRepoch (g : Fin 16) (t : Fin 4) (s : State) : Host.Outcome State Fault Refusal := seqRow .repoch semRepoch g t 0 s
def execWany (g : Fin 16) (t : Fin 4) (s : State) : Host.Outcome State Fault Refusal := seqRow .wany semWany g t 0 s
def execWmatch (g : Fin 16) (t : Fin 4) (s : State) : Host.Outcome State Fault Refusal := seqRow .wmatch semWmatch g t 0 s
def execTwait (g : Fin 16) (t : Fin 4) (s : State) : Host.Outcome State Fault Refusal := seqRow .twait semTwait g t 0 s
def execMode (g : Fin 16) (t : Fin 4) (adv : Nat) (s : State) : Host.Outcome State Fault Refusal := seqRow .mode semMode g t adv s
def execTrainRecovery (g : Fin 16) (t : Fin 4) (s : State) : Host.Outcome State Fault Refusal := seqRow .trainRecovery semTrainRecovery g t 0 s
def execTrainHotReset (g : Fin 16) (t : Fin 4) (s : State) : Host.Outcome State Fault Refusal := seqRow .trainHotReset semTrainHotReset g t 0 s
def execTrainDisable (g : Fin 16) (t : Fin 4) (s : State) : Host.Outcome State Fault Refusal := seqRow .trainDisable semTrainDisable g t 0 s
def execTrainRestart (g : Fin 16) (t : Fin 4) (s : State) : Host.Outcome State Fault Refusal := seqRow .trainRestart semTrainRestart g t 0 s
def execRate (g : Fin 16) (t : Fin 4) (s : State) : Host.Outcome State Fault Refusal := seqRow .rate semRate g t 0 s
def execRatePpm (g : Fin 16) (t : Fin 4) (s : State) : Host.Outcome State Fault Refusal := seqRow .ratePpm semRatePpm g t 0 s
def execEq (g : Fin 16) (t : Fin 4) (s : State) : Host.Outcome State Fault Refusal := seqRow .eq semEq g t 0 s
def execEqLvl (g : Fin 16) (t : Fin 4) (s : State) : Host.Outcome State Fault Refusal := seqRow .eqLvl semEqLvl g t 0 s
def execArm (g : Fin 16) (t : Fin 4) (s : State) : Host.Outcome State Fault Refusal := seqRow .arm semArm g t 0 s
def execDisarm (g : Fin 16) (t : Fin 4) (s : State) : Host.Outcome State Fault Refusal := seqRow .disarm semDisarm g t 0 s
def execRmatch (g : Fin 16) (t : Fin 4) (s : State) : Host.Outcome State Fault Refusal := seqRow .rmatch semRmatch g t 0 s
def execCapon (g : Fin 16) (t : Fin 4) (adv : Nat) (s : State) : Host.Outcome State Fault Refusal := seqRow .capon semCapon g t adv s
def execCapoff (g : Fin 16) (t : Fin 4) (adv : Nat) (s : State) : Host.Outcome State Fault Refusal := seqRow .capoff semCapoff g t adv s
def execCapmark (g : Fin 16) (t : Fin 4) (adv : Nat) (s : State) : Host.Outcome State Fault Refusal := seqRow .capmark semCapmark g t adv s
def execCapsel (g : Fin 16) (t : Fin 4) (s : State) : Host.Outcome State Fault Refusal := seqRow .capsel semCapsel g t 0 s
def execFilt (g : Fin 16) (t : Fin 4) (s : State) : Host.Outcome State Fault Refusal := seqRow .filt semFilt g t 0 s
def execInj (g : Fin 16) (t : Fin 4) (adv : Nat) (s : State) : Host.Outcome State Fault Refusal := seqRow .inj semInj g t adv s
def execErrb (g : Fin 16) (t : Fin 4) (adv : Nat) (s : State) : Host.Outcome State Fault Refusal := seqRow .errb semErrb g t adv s
def execDly (g : Fin 16) (t : Fin 4) (adv : Nat) (s : State) : Host.Outcome State Fault Refusal := seqRow .dly semDly g t adv s
def execSkpadj (g : Fin 16) (t : Fin 4) (adv : Nat) (s : State) : Host.Outcome State Fault Refusal := seqRow .skpadj semSkpadj g t adv s
def execTset (g : Fin 16) (t : Fin 4) (same : Bool) (s : State) : Host.Outcome State Fault Refusal := seqRowIn same .tset semTset g t s
def execTclr (g : Fin 16) (t : Fin 4) (same : Bool) (s : State) : Host.Outcome State Fault Refusal := seqRowIn same .tclr semTclr g t s
def execVsend (g : Fin 16) (t : Fin 4) (s : State) : Host.Outcome State Fault Refusal := seqRow .vsend semVsend g t 0 s
def execCntr (g : Fin 16) (t : Fin 4) (s : State) : Host.Outcome State Fault Refusal := seqRow .cntr semCntr g t 0 s
def execEvt (g : Fin 16) (t : Fin 4) (s : State) : Host.Outcome State Fault Refusal := seqRow .evt semEvt g t 0 s
def execEvtG (g : Fin 16) (t : Fin 4) (s : State) : Host.Outcome State Fault Refusal := seqRow .evtG semEvtG g t 0 s

/-- RESERVED_OPCODE (R274, R318): a running thread issues a word whose OP is reserved; or, with parity, the word that it fetches fails its
parity check. -/
def execReservedOpcode (g : Fin 16) (t : Fin 4) (parity : Bool) (s : State) : Host.Outcome State Fault Refusal :=
  live s fun s =>
    let pc := s.rd .SEQ_TSTAT_PC (4 * g + t)
    if !s.threadRuns g t then s
    else if parity then
      let x := fetchParity s g
      threadFault x.2 g t 6 pc (injAddr pc false x.1)
    else if seqDecode (s.fetch g t) = .bad 1 then
      let x := fetchParity s g
      if x.1 then parityFault x.2 g t else threadFault x.2 g t 1 pc pc
    else s

/-! Host control (R252, R255 to R258, R275). -/

/-- A STEP: the thread issues exactly one instruction. -/
def stepThread (s : State) (g t adv : Nat) : State :=
  match seqDecode (s.fetch g t) with
  | .ok o _ => issueAs o o.sem s g t true adv
  | .bad k =>
    let pc := s.rd .SEQ_TSTAT_PC (4 * g + t)
    let x := fetchParity s g
    if x.1 then parityFault x.2 g t else threadFault x.2 g t k pc pc

/-- GO (R255, R256). -/
def goThread (s : State) (th : Nat) : State :=
  let st := s.rd .SEQ_TSTAT_STATE th
  if st = tHALTED ∨ st = tFAULTED then
    setDepth (((s.wr .SEQ_TSTAT_STATE th tRUNNING).wr .SEQ_TSTAT_PC th (s.rd .SEQ_TSTART_PC th)).clr .SEQ_TSTAT_CAUSE th) th 0
  else s

/-- STOP (R255): the thread moves to HALTED, from FAULTED too; a wait in progress ends without an outcome. -/
def stopThread (s : State) (th : Nat) : State :=
  let st := s.rd .SEQ_TSTAT_STATE th
  if st = tHALTED then s else (s.setWait th none).wr .SEQ_TSTAT_STATE th tHALTED

/-- Write of SEQ_CTL (R255, R257): GO, then STEP, then STOP of each thread. -/
def seqCtlSet (s : State) (g v adv : Nat) : State :=
  let s := s.w1c .SEQ_CTL_ERR g (bitsOf v 13 13)
  let start := bitsOf v 3 0 != 0 || bitsOf v 11 8 != 0
  let s := if start && s.goIgnored g then s.set .SEQ_CTL_ERR g
    else s.each (List.range 4) fun s t =>
      let th := 4 * g + t
      let s := if bitOf v t then goThread s th else s
      if bitOf v (8 + t) && s.rd .SEQ_TSTAT_STATE th == tHALTED && s.groveOn g then stepThread s g t adv else s
  s.each (List.range 4) fun s t => if bitOf v (4 + t) then stopThread s (4 * g + t) else s

def execSeqGo (r : Route) (g : Fin 16) (threads : BitVec 4) (s : State) : Host.Outcome State Fault Refusal :=
  live s fun s => gate r (gAddr g 0x2000) (fun s => seqCtlSet s g threads.toNat 0) s

def execSeqStop (r : Route) (g : Fin 16) (threads : BitVec 4) (s : State) : Host.Outcome State Fault Refusal :=
  live s fun s => gate r (gAddr g 0x2000) (fun s => seqCtlSet s g (threads.toNat * 16) 0) s

def execSeqStep (r : Route) (g : Fin 16) (threads : BitVec 4) (adv : Nat) (s : State) : Host.Outcome State Fault Refusal :=
  live s fun s => gate r (gAddr g 0x2000) (fun s => seqCtlSet s g (threads.toNat * 256) adv) s

/-! 64-bit words in halves (R252). -/

def Route.num : Route → Nat
  | .port => 0 | .mgmt => 1 | .twoWire => 2

/-- A low half waits in the staging register of its route. -/
def lowHalf (s : State) (r : Route) (g key v : Nat) : State :=
  { s with halfStage := nset s.halfStage none (3 * g + Route.num r) (some (key, v % 2 ^ 32)) }

/-- A high half commits, with the held low half of the same word or else with the stored one; the staging register is empty after. -/
def highHalf (s : State) (r : Route) (g key old v : Nat) : Nat × State :=
  let lo := match nget s.halfStage none (3 * g + Route.num r) with
    | some (k, l) => if k = key then l else old % 2 ^ 32
    | none => old % 2 ^ 32
  (lo + 2 ^ 32 * (v % 2 ^ 32), { s with halfStage := nset s.halfStage none (3 * g + Route.num r) none })

/-- Write of a half of register wi of thread th (R275). -/
def regHalf (s : State) (r : Route) (g th i : Nat) (hi : Bool) (v : Nat) : State :=
  let st := s.rd .SEQ_TSTAT_STATE th
  let key := 32768 + 32 * (th % 4) + i
  if st = tRUNNING ∨ st = tWAITING then s.set .SEQ_CTL_ERR g
  else if hi then
    let x := highHalf s r g key (s.wreg th i) v
    setWreg x.2 th i x.1
  else lowHalf s r g key v

def execSeqRegsWrite (r : Route) (g : Fin 16) (t : Fin 4) (i : Fin 32) (hi : Bool) (v : DW) (s : State) : Host.Outcome State Fault Refusal :=
  live s fun s => gate r (gAddr g (0x2100 + 0x100 * t + 8 * i + (if hi then 4 else 0))) (fun s => regHalf s r g (4 * g + t) i hi v.toNat) s

/-- Write of a half of a memory word: data says data memory. Discarded while CLRBUSY = 1 (R259). -/
def memHalf (s : State) (r : Route) (g : Nat) (data : Bool) (w : Nat) (hi : Bool) (v : Nat) : State :=
  let key := if data then 16384 + w else w
  if s.on .SEQ_CTL_CLRBUSY g then s
  else if hi then
    if data then
      let x := highHalf s r g key (s.getD g w).toNat v
      dataWrite x.2 g w (wordOf x.1)
    else
      let x := highHalf s r g key (s.getI g w).toNat v
      x.2.setI g w (wordOf x.1)
  else lowHalf s r g key v

def memAddr (g : Nat) (data : Bool) (w : Nat) (hi : Bool) : Nat :=
  gAddr g ((if data then 0xC0000 else 0x80000) + 8 * w + (if hi then 4 else 0))

/-- MEM_LOW_HALF_WRITE: a word of data memory is taken modulo 4,096. -/
def execMemLowHalfWrite (r : Route) (g : Fin 16) (data : Bool) (w : Fin 16384) (v : DW) (s : State) : Host.Outcome State Fault Refusal :=
  let a := if data then w.val % 4096 else w.val
  live s fun s => gate r (memAddr g data a false) (fun s => memHalf s r g data a false v.toNat) s

def execMemHighHalfWrite (r : Route) (g : Fin 16) (data : Bool) (w : Fin 16384) (v : DW) (s : State) : Host.Outcome State Fault Refusal :=
  let a := if data then w.val % 4096 else w.val
  live s fun s => gate r (memAddr g data a true) (fun s => memHalf s r g data a true v.toNat) s

/-- GROVE_CLEAR_DONE (R259): the clearing of the grove's memories ends. -/
def execGroveClearDone (g : Fin 16) (s : State) : Host.Outcome State Fault Refusal := live s fun s => s.clr .SEQ_CTL_CLRBUSY g

end Sys2Proof.Machine
end

