-- ==== Sys2Proof/Machine/Resets.lean ====
section
/-! DEFINITION. Resets (R599 to R603): GROVE (R259), PORT (R445), MGMT (R477), PIN, CHIP and POR (R408, R409, R534, R600), the entry to HOLD (R29), and
the profile's restart of its groves (R640). -/
namespace Sys2Proof.Machine

/-- Register fields that a condition names return to their reset values. -/
def State.drop (s : State) (f : Fld × Nat → Bool) : State := { s with regs := s.regs.filter fun e => !f e.1 }

/-! Columns of the Survives cells (R603). -/
def svPIN : Nat := 0
def svCHIP : Nat := 1
def svMGMT : Nat := 2
def svGROVE : Nat := 3
def svCHAN : Nat := 4
def svPORT : Nat := 5
def svTW : Nat := 6
def svIDLE : Nat := 7
def svSTANDBY : Nat := 8
def svALL : Nat := 9

/-- A field survives a reset kind. -/
def Fld.keeps (f : Fld) (kind : Nat) : Bool := bitOf f.surv kind || bitOf f.surv svALL

/-- Entries of a store keyed by a number that lie in block g of n keys each go. -/
def dropRange {α : Type} (l : List (Nat × α)) (n g : Nat) : List (Nat × α) := l.filter fun e => e.1 / n != g

/-! GROVE reset (R85, R216, R259, R378, R601, R640). -/

/-- The built-in program is loaded and its four threads start (R639, R640). -/
def f5Start (s : State) (g : Nat) : State :=
  (s.wrBit .F5_STAT_ACT 0 g true).each (List.range 4) fun s t => s.wr .SEQ_TSTAT_STATE (4 * g + t) tRUNNING

/-- Grove g's fields return to reset values; GEN of its paths goes on. -/
def groveFields (s : State) (g : Nat) : State :=
  s.drop fun k => k.1.perGrove != 0 && k.2 / k.1.perGrove == g && !k.1.keeps svGROVE

/-- What a grove holds besides registers goes. -/
def groveStores (s : State) (g : Nat) : State :=
  { s with
    imem := dropRange s.imem 16384 g
    dmem := dropRange s.dmem 4096 g
    halfStage := dropRange s.halfStage 3 g
    chg := dropRange s.chg 32 g
    waits := dropRange s.waits 4 g
    mblk := dropRange s.mblk 32 g
    held := dropRange s.held 32 g
    items := dropRange s.items 32 g
    strikes := dropRange s.strikes 32 g
    rpl := dropRange s.rpl 32 g
    dly := dropRange s.dly 32 g
    dlyHold := dropRange s.dlyHold 32 g
    pkts := dropRange s.pkts 4096 g
    ltSent := dropRange s.ltSent 2 g
    ltHdr := dropRange s.ltHdr 2 g
    pchk := dropRange s.pchk 32 g }

/-- Pending capture actions of a stream are dropped, and its template and run with them. -/
def strmForget (s : State) (p : Nat) : State :=
  let st := s.getStrm p
  s.setStrm p { st with pend := [], mpend := [], tmpl := none, run := none }

/-- A GROVE reset of grove g. -/
def groveReset (s : State) (g : Nat) : State :=
  let paths := (List.range 32).map (32 * g + ·)
  let s := s.each paths fun s p => strmForget (capOff s p (posAdd (s.pos p) 1) 3) p
  let s := s.each ((List.range 16).map (16 * g + ·)) fun s n => calDrop (calDrop s n) (256 + n)
  let s := groveStores (groveFields s g) g
  let s := s.each paths fun s p => s.incWrap .PATH_POS_GEN p 1
  let s := s.each ((List.range 16).map (16 * g + ·)) fun s L => s.wr .X_PCI_EFF L (s.pciWord L)
  let s := s.set .SEQ_CTL_CLRBUSY g
  let s := s.each paths fun s r => refreshPort s r
  if s.bit .F5_CTL_EN 0 g then f5Start s g else s

/-- GROVE_RESET: the reset of grove g as R259 describes it; without its power domain there is nothing to reset (R602). -/
def execGroveReset (g : Fin 16) (s : State) : Host.Outcome State Fault Refusal :=
  live s fun s => if s.pwrOn (16 + g.val) then groveReset s g else s

/-! PORT reset (R44, R445, R467). -/

/-- Fields in reach of a PORT reset. -/
def inPort (f : Fld) : Bool := f.blk == .port || f.blk == .harvest || f.blk == .fwmbx || f.blk == .mbox

/-- The bytes of a load are discarded, a check or a chunk's writing ends with them (R49); the idle bank is left empty. -/
def loadDrop (s : State) : State :=
  let s := { s with fwLoad := none }
  ((s.clr .FW_MBX_TOTAL_TOTAL 0).clr .X_FW_CHK 0).clr .X_FW_WR 0 |>.clr .FW_MBX_STAT_BUSY 0

/-- A load is discarded (R49): in ROM's load the device returns to ROM. -/
def loadAbort (s : State) : State :=
  match s.fwLoad with
  | none => s
  | some l => if !l.idle ∧ s.dev = devLOAD then (loadDrop s).setDev devROM else loadDrop s

/-- A boot load: its bytes become a running image only out of LOAD (R29, R48). -/
def State.bootLoads (s : State) : Bool := match s.fwLoad with | some l => !l.idle | none => false

/-- A PORT reset: configuration space, the port's registers, the MSI-X table and the mailbox return to reset values, harvest descriptors end without
write-back, a mailbox load is discarded. Of the requests that waited the two-wire one is left, and is the first (R463). -/
def portReset (s : State) : State :=
  let s := match s.fwLoad with
    | some ⟨.port, _, _⟩ => loadAbort s
    | _ => s
  let up := s.rd .MB_STAT_NOFW 0
  let s := s.drop fun k => inPort k.1 && !k.1.keeps svPORT
  let s := (s.wr .MB_STAT_NOFW 0 up).clr .X_PORT_UP 0
  let s := if s.on .TW_MBSTAT_PEND 0 then s.wr .X_MB_FIRST 0 1 else s
  { s with
    hv := [], b2 := []
    win := s.win.filter fun e => !((0x10000 ≤ e.1 && e.1 < 0x11000) || (0x9400 ≤ e.1 && e.1 < 0x9C00) || (0xC000 ≤ e.1 && e.1 < 0x10000)) }

/-! HOLD (R29, R85). -/

/-- A path is forced DARK: its pending actions are cancelled under R265, its capture turns off with no record. -/
def forceDark (s : State) (p : Nat) : State :=
  if s.govPath p ≠ p then s
  else
    let n := p / 2
    let wasR := s.kindR n
    let old := s.mode p
    let pos := posAdd (s.pos p) 1
    let s := match s.getChg p with
      | some ⟨_, .named _⟩ | some ⟨_, .fromDark (some _)⟩ => cancelAction s p pos
      | _ => s
    let s := ((s.setChg p none).clr (pendFld p) n).clr .X_SPLIT n
    let s := (s.setHeld p []).setItems p []
    let s := s.each (s.linkPaths p) fun s q => s.setStrikes q []
    let s := if old = mDELAY then dlyDrop s p else s
    let s := (s.setRpl p none).wr (modeFld p) n mDARK
    let s := s.each (s.linkPaths p) fun s q => s.clr .X_PATH_STOPPED q
    let s := rxOff (cancelAll s p pos) p
    refreshLink (pairingChanged s n wasR) n

/-- A tower leaves self-refresh, its channels with their repairs. -/
def towerUp (s : State) (t : Nat) : State :=
  if s.rd .TWR_STAT_STATE t = 2 then
    let s := (repApply s t (List.range 16)).wr .TWR_STAT_STATE t 1
    s.each (List.range 16) fun s c => s.wr .CH_STAT_STATE (chI t c) (if s.retired t = some c then 3 else 0)
  else s

/-- Towers of a list in self-refresh become active again (R27, R407, R438): the repair list is read once, and tidied where an entry of it is bad. -/
def towersUpOf (s : State) (ts : List Nat) : State :=
  if ts.any fun t => s.rd .TWR_STAT_STATE t == 2 then repTidy ((repCheck s).each ts towerUp) else s

/-- Towers in self-refresh become active again. -/
def towersUp (s : State) : State := towersUpOf s [0, 1]

/-- Towers that are active go to self-refresh (R27, R407). -/
def towersDown (s : State) : State :=
  s.each [0, 1] fun s t =>
    if s.twrActive t then
      let s := s.wr .TWR_STAT_STATE t 2
      s.each (List.range 16) fun s c => if s.retired t = some c then s else s.wr .CH_STAT_STATE (chI t c) 2
    else s

/-- The switched domains of a list take the condition on, where the host has not switched them off. -/
def domsOn (s : State) (ds : List Nat) : State := s.each ds fun s d => s.wrBit .PWR_STAT_ON 0 d (!s.bit .PWR_OFF_OFF 0 d)

/-- What comes back with the domains after STANDBY (R28, R206, R500, R527, R640): the Rind's self-tests run, trims are restored, spares are counted,
profile groves start again. -/
def standbyLeave (s : State) : State :=
  let s := calRestoreAll ((s.clr .HK_STAT_AONMODE 0).set .RND_STAT_BUSY 0)
  let s := s.each [0, 1] fun s t => s.each (List.range 16) fun s c => spareRecount s t c
  s.each (List.range 16) fun s g => if s.bit .F5_CTL_EN 0 g then f5Start s g else s

/-- The running image. -/
def State.running (s : State) : Option FwImage := if s.on .DEV_STATE_BANK 0 then s.bankB else s.bankA

/-- Entry to HOLD, where the switched domains but PDA are on (R583), also from IDLE and STANDBY. A boot load under way is discarded, since HOLD lasts until
a reset (R29; log 103). -/
def enterHold (s : State) : State :=
  if s.dev = devHOLD then s
  else
    let s := if s.bootLoads then loadDrop s else s
    let s := domsOn s ((List.range 40).map (16 + ·))
    let s := if s.dev = devSTANDBY then (standbyLeave s).wrB .X_CORE 0 s.running.isSome else s
    let s := s.setDev devHOLD
    let s := s.each (List.range 512) fun s p => (s.clr .STRM_CFG_ON p).setStrm p { s.getStrm p with tmpl := none, run := none }
    let s := { s with staged := [] }
    towersUp (s.each (List.range 512) forceDark)

/-! MGMT reset (R12, R466, R477, R482, R599, R602). -/

/-- NOFW of both mailboxes follows the firmware. -/
def fwShow (s : State) (up : Bool) : State :=
  let v := if up then 0 else 1
  ((s.wrB .X_FWUP 0 up).wr .MB_STAT_NOFW 0 v).wr .TW_MBSTAT_NOFW 0 v

/-- The core stops: SPDM sessions end (R482), what the firmware was assembling is gone, a load of the idle bank is lost with the mailbox
registers. -/
def coreStop (s : State) : State :=
  let s := fwShow s false
  { s with spdm := [], mctpin := [], mctpq := [], regs := s.regs.filter (fun e => e.1.1 != .X_SPDM && e.1.1 != .X_MCTP_N) }

/-- Switch back to the old bank (R58), which the Rind verifies by hash before it resumes (MGMT_RESET carries the finding, R477); buffered events wait for it. -/
def switchBack (s : State) : State :=
  match s.hot with
  | .none => s
  | .draining | .switched =>
    let s := if s.hot = .switched then s.wrBit .DEV_STATE_BANK 0 0 (!s.on .DEV_STATE_BANK 0) else s
    let s := (s.wr .DEV_STATE_LASTERR 0 0x0B).wr .DEV_CMD_RESULT 0 5
    { s with hot := .none }.wr .X_CORE 0 1

/-- A MGMT reset may begin: none is in progress. During a hot reload's switch one is, and another acts as the switch-back (R601, R602). -/
def State.mgmtMay (s : State) : Bool := (s.rd .X_CORE 0 == 0 || s.hot == .switched) && s.running.isSome

/-- A MGMT reset begins: from the quiescent point of a hot reload to firmware ready it acts as the switch-back (R602). -/
def mgmtBegin (s : State) (byCmd : Bool) : State :=
  let s := s.incSat .RST_STAT_MGMTCNT 0 1
  let s := s.wrB .X_CORE_CMD 0 byCmd
  if s.hot = .switched then switchBack (coreStop s)
  else
    let s := { s with hot := .none }
    let s := match s.fwLoad with
      | some _ => loadAbort s
      | none => s
    let s := s.drop fun k => (k.1.blk == .fwmbx || k.1 == .CAL_CMD_RESULT) && !k.1.keeps svMGMT
    (coreStop s).wr .X_CORE 0 1

/-! PIN, CHIP and POR. -/

/-- The tower rides a PIN or CHIP reset (R408). -/
def State.preserved (s : State) (t : Nat) : Bool := s.on .TWR_CTL_PRESERVE t

/-- Step 2 of R408: the partial data units of a tower's encrypted punnets are written. -/
def preserveFlush (s : State) (t : Nat) : State :=
  s.each (List.range 256) fun s k => if s.on .PUN_CFG_EN k && s.punTower k == t && s.punEnc k then encFlush s k else s

/-- What is left after a reset of the whole device: the store of fields that f keeps, and what no reset loses. -/
def State.bare (s : State) (f : Fld → Bool) : State :=
  { State.reset with
    pending := s.pending, regs := s.regs.filter (fun e => f e.1.1), nvm := s.nvm, hards := s.hards, opHash := s.opHash,
    freeCtr := s.freeCtr, out := s.out }

/-- The primary address follows the straps (R487). -/
def twPrimary (s : State) : State := s.wr .TW_ADDR_PRIMARY 0 (0x60 + s.rd .X_STRAP_ADDR 0)

/-- A tower that rode the reset: its dies stay in self-refresh, and PRESERVED reads 1. -/
def rideShow (s : State) (t : Nat) : State :=
  let s := (s.wr .TWR_STAT_STATE t 2).set (if t = 0 then .DEV_STATE_PRESERVED0 else .DEV_STATE_PRESERVED1) 0
  s.each (List.range 16) fun s c => s.wr .CH_STAT_STATE (chI t c) (if s.retired t = some c then 3 else 2)

/-- ADVSVN may raise the anti-rollback counter to v (R525): its value range. -/
def State.advRange (s : State) (v : Nat) : Bool :=
  decide (s.rd .RND_STAT_ASC 0 < v) && decide (v ≤ ((s.running.map FwImage.svn).getD 0))

/-- The device is in approved mode as far as DEV_STATE and the debug level say (R530). -/
def State.unlocked (s : State) : Bool := s.on .DEV_STATE_NONAPPR 0 || s.rd .RND_STAT_DBGLVL 0 != 0

/-- An ADVSVN that a reset or loss of power cuts leaves the counter anywhere from its old value to ARG0 (R525): a free value. -/
def advCut (s : State) : State :=
  match s.rjob with
  | some j =>
    if j.cmd = 9 ∧ s.on .RND_STAT_SESS 0 ∧ !s.unlocked ∧ s.advRange j.arg0 then
      let x := s.freshNat
      x.2.wr .RND_STAT_ASC 0 (s.rd .RND_STAT_ASC 0 + x.1 % (j.arg0 + 1 - s.rd .RND_STAT_ASC 0))
    else s
  | none => s

/-- PIN and CHIP reset (R24, R59, R408, R534, R600, R603): to ROM, with LAST. AONRDY stays until POR (R566). A soft repair in a tower that rides the reset completes first
(R443). -/
def chipLike (s : State) (last : Nat) : State :=
  let s := advCut s
  let ride := [0, 1].filter s.preserved
  let s := ride.foldl (fun s t => preserveFlush (softRepairEnd s t) t) s
  let b := s.bare fun f => f.keeps svPIN || f == .CLK_STAT_AONRDY
  let b := { b with
    tower := s.tower.filter (fun e => ride.contains (e.1 / 0x800000 / 1536))
    lost := s.lost.filter (fun e => ride.contains (e.1 / 1536))
    reps := s.reps }
  twPrimary ((ride.foldl rideShow b).wr .RST_STAT_LAST 0 last)

/-- POR (R24, R409, R599): everything that only OTP, NVM and fuses hold remains; the straps are sampled. -/
def porReset (s : State) (addr rdly : Nat) : State :=
  let s := advCut s
  let b := s.bare fun f => f.keeps svALL
  twPrimary ((b.wr .X_STRAP_ADDR 0 addr).wr .X_STRAP_RDLY 0 rdly)

/-- POR: the supplies come into range, or one of the always-on monitors left its range; 1 ms later POR releases. -/
def execPor (addr rdly : Fin 8) (s : State) : Host.Outcome State Fault Refusal := .next (porReset s.start addr rdly)

/-- PIN_RESET: RESET_N low for 500 ns; the device is held in reset until RESET_N_RELEASE. A wake event in STANDBY, it is a reset there too (R28,
R602). -/
def execPinReset (s : State) : Host.Outcome State Fault Refusal :=
  live s fun s => (chipLike s 1).set .X_RESETN_LOW 0

/-- RESET_N_RELEASE: within 10 µs the device is in ROM. -/
def execResetNRelease (s : State) : Host.Outcome State Fault Refusal :=
  .next (s.start.clr .X_RESETN_LOW 0)

/-- A chip reset reaction (R29, R544, R550, R552): HOLD, or a chip reset; in HOLD it has no further effect. esc: the reaction
was escalated (ESC of R552); faultn: escalated from chip reset, so that it asserts FAULT_N (R549, R554). -/
def chipReaction (s : State) (src kind : Nat) (esc faultn : Bool) : State :=
  let s := if faultn then s.set .FLT_GSTAT_FAULTN 0 else s
  if s.dev = devHOLD then s
  else
    let s := (s.wr .FLT_RSTCAUSE_SOURCE 0 src).wr .FLT_RSTCAUSE_KIND 0 kind
    let s := (s.set .FLT_RSTCAUSE_VALID 0).wrB .FLT_RSTCAUSE_ESC 0 esc
    if s.on .DEV_CTL_HOLD_ON_CHIP 0 then enterHold s else chipLike s 2

/-- CHIP_RESET: DEV_CMD 0x04 (R53, R599), valid in every state. -/
def execChipReset (r : Route) (s : State) : Host.Outcome State Fault Refusal :=
  live s fun s => gate r 0x18 (fun s => chipLike s 2) s

/-! MGMT reset: its end. -/

/-- MGMT_RESET (R477, R599): the Rind has hashed the retained bank of a core that a MGMT reset stopped; on a match the core starts. A mismatch
takes the chip reset reaction, recorded as the management device event. -/
def coreHashed (s : State) (hashOk : Bool) : State :=
  if hashOk then s.wr .X_CORE 0 2
  else
    let c := s.freshNat
    let s := (c.2.wr .X_CORE 0 0).raise 1072 msgCHECK (c.1 % 2 ^ 46)
    chipReaction s 1072 msgCHECK false false

def execMgmtReset (hashOk : Bool) (s : State) : Host.Outcome State Fault Refusal :=
  live s fun s => if s.rd .X_CORE 0 = 1 then coreHashed s hashOk else s

/-- WATCHDOG_EXPIRE (R478): the firmware wrote no KICK for 1 s; the watchdog is stopped while a hot reload switches and while no firmware
runs. -/
def execWatchdogExpire (s : State) : Host.Outcome State Fault Refusal :=
  live s fun s =>
    if s.on .X_FWUP 0 && s.hot != .switched then
      let c := s.freshNat
      mgmtBegin (c.2.raise 1072 msgTIMEOUT (c.1 % 2 ^ 46)) false
    else s

/-- KICK (R478): a write of MGT_CTL.KICK restarts the watchdog, whose second the model does not count. -/
def execKick (r : Route) (s : State) : Host.Outcome State Fault Refusal :=
  live s fun s => gate r 0x900C (fun s => s) s

/-- RST_CMD (R601): KIND 1 MGMT, KIND 2 GROVE; reserved kinds start nothing (R6). -/
def rstCmd (s : State) (v : Nat) : State :=
  let g := bitsOf v 3 0
  let kind := bitsOf v 5 4
  if !bitOf v 6 then s
  else if kind = 1 then
    if !s.mgmtMay then s.wr .RST_CMD_RESULT 0 3
    else mgmtBegin (s.wr .RST_CMD_RESULT 0 1) true
  else if kind = 2 then
    if !s.pwrOn (16 + g) then s.wr .RST_CMD_RESULT 0 2
    else if s.on .SEQ_CTL_CLRBUSY g then s.wr .RST_CMD_RESULT 0 3
    else groveReset (s.wr .RST_CMD_RESULT 0 0) g
  else s

def execRstMgmt (r : Route) (s : State) : Host.Outcome State Fault Refusal :=
  live s fun s => gate r 0x5000 (fun s => rstCmd s 0x50) s

def execRstGrove (r : Route) (g : Fin 16) (s : State) : Host.Outcome State Fault Refusal :=
  live s fun s => gate r 0x5000 (fun s => rstCmd s (0x60 + g.val)) s

/-- PORT_RESET (R445): 0 PERST_N asserted, 1 Hot Reset, 2 Function Level Reset, 3 link down. All but a Function Level Reset take the link down, and
link down sends the port's device event (R543). -/
def execPortReset (kind : Fin 4) (s : State) : Host.Outcome State Fault Refusal :=
  live s fun s =>
    let up := s.rd .X_PORT_UP 0
    let s := portReset s
    let s := if kind = 2 then s.wr .X_PORT_UP 0 up else s
    let s := if kind = 0 then s.clr .X_PERSTN_HIGH 0 else s
    if kind = 3 ∧ up = 1 then s.raise 1057 msgSTATE 0 else s

/-- PERST_N_RELEASE (R35): the port starts to train. -/
def execPerstNRelease (s : State) : Host.Outcome State Fault Refusal :=
  live s fun s => s.set .X_PERSTN_HIGH 0

/-- What the host sets in configuration space (R444). -/
def cfgStore (s : State) (c : PortCfg) : State :=
  let s := ((s.wrB .X_CFG_MSE 0 c.mse).wrB .X_CFG_MSIXEN 0 c.msixEn).wrB .X_CFG_MSIXFM 0 c.msixMask
  let s := (s.wr .X_CFG_BAR0 0 (c.bar0.toNat / 0x4000000 * 0x4000000)).wr .X_CFG_BAR2 0 (c.bar2.toNat / 0x1000000000 * 0x1000000000)
  (s.wr .X_CFG_MPS 0 c.mps.val).wr .X_CFG_MRRS 0 c.mrrs.val

/-- Vector v pends and its entry is not masked. -/
def State.msixOwed (s : State) (v : Nat) : Bool :=
  bitOf (s.getWin (0x10800 + v / 8)).toNat (v % 8) && (s.getWin (0x10000 + 16 * v + 12)).toNat % 2 == 0

/-- A pending vector that nothing masks any longer is sent (R452). -/
def msixSend (s : State) (v : Nat) : State :=
  if s.msixHeld ∨ !s.msixOwed v then s
  else
    let a := 0x10800 + v / 8
    (s.setWin a (BitVec.ofNat 8 (setBitTo (s.getWin a).toNat (v % 8) false))).emit (.msix v)

/-- BUS_MASTER_CHANGE (R444, R446, R452): the host writes configuration space. Vectors that pended while MSI-X was off or masked as a whole go out. -/
def execBusMasterChange (bme d3hot : Bool) (cfg : PortCfg) (s : State) : Host.Outcome State Fault Refusal :=
  live s fun s =>
    if s.on .X_PORT_UP 0 then (cfgStore ((s.wrB .X_BME 0 bme).wrB .X_D3HOT 0 d3hot) cfg).each (List.range 64) msixSend else s

end Sys2Proof.Machine
end

