-- ==== Sys2Proof/Machine/Clock.lean ====
section
/-! DEFINITION. References and PLLs (R31, R565, R566), clock failures and restarts (R569 to R573, R580), switching (R567), gating (R576 to R578) and the
frequency meter (R581, R582). -/
namespace Sys2Proof.Machine

/-! References and ready flags. -/

/-- REF_PRESENT (R31): edges seen on reference 0 to 3 (RCLK) or 4 (XREFCLK). -/
def execRefPresent (ref : Fin 5) (s : State) : Host.Outcome State Fault Refusal :=
  live s fun s => s.wrBit .X_REF_PRES 0 ref true

/-- The choice of BREF (R565): RCLK0 if present, else XREFCLK. -/
def brefChoose (s : State) : State := (s.wrB .CLK_SEL_BREF 0 (!s.bit .X_REF_PRES 0 0)).set .X_BREF_SET 0

/-- REF_WAIT_END (R31, R33, R565). The ROM chooses BREF once. -/
def execRefWaitEnd (ref : Fin 5) (s : State) : Host.Outcome State Fault Refusal :=
  live s fun s =>
    if s.bit .X_REF_PRES 0 ref && !s.bit .X_REF_DONE 0 ref then
      let s := s.wrBit .X_REF_DONE 0 ref true
      let s := if ref.val < 4 then s.wrBit .DEV_STATE_QREF_OK 0 ref true else s
      if !s.on .X_BREF_SET 0 && decide (s.dev ≤ devLOAD) && (ref == 0 || ref == 4) then brefChoose s else s
    else s

/-- HCLK and PCLK run from CPLL. -/
def State.onCpll (s : State) : Bool := !s.on .CLK_SEL_HSRC 0 && !s.on .CLK_STAT_FALLBACK 0 && s.rd .X_HSW 0 != 1

/-- A switch of HCLK and PCLK begins: 1 to CPLL, 2 to AONCLK. -/
def switchBegin (s : State) (src : Nat) : State := (s.wr .X_HSW 0 src).set .CLK_STAT_SWBUSY 0

/-- CPLL_LOCK (R566, R567): CPLLRDY sets, and in ROM HCLK and PCLK switch to CPLL. -/
def execCpllLock (s : State) : Host.Outcome State Fault Refusal :=
  live s fun s =>
    let first := !s.on .CLK_STAT_CPLLRDY 0
    let s := s.set .CLK_STAT_CPLLRDY 0
    if first && s.dev == devROM && s.on .CLK_SEL_HSRC 0 then switchBegin (s.clr .CLK_SEL_HSRC 0) 1 else s

/-- AONCLK_READY (R566). -/
def execAonclkReady (s : State) : Host.Outcome State Fault Refusal :=
  live s fun s => s.set .CLK_STAT_AONRDY 0

/-- PLL_LOCK (R566): the flag's own condition must hold. MPLL starts once CPLL has locked to BREF (R567). -/
def execPllLock (pll : Pll) (s : State) : Host.Outcome State Fault Refusal :=
  live s fun s =>
    match pll with
    | .qpll q => if s.bit .DEV_STATE_QREF_OK 0 q then s.wrBit .CLK_STAT_QRDY 0 q true else s
    | .mpll t => if s.on .X_BREF_SET 0 && s.on .CLK_STAT_CPLLRDY 0 then s.wrBit .CLK_STAT_MRDY 0 t true else s
    | .xpll => if s.bit .X_REF_DONE 0 4 then s.set .CLK_STAT_XRDY 0 else s
    | .tpll => s.set .CLK_STAT_TRDY 0

/-! Failures. -/

/-- Mark domains failed; a gate that was held is applied at once (R569, R580). -/
def markFailed (s : State) (ds : List Nat) : State :=
  s.each ds fun s d => (s.wrBit .CLK_FAIL_FAIL 0 d true).wrBit .CLK_GPEND_GATE_PEND 0 d false

/-- DELAY and replay paths of a tower, or of both, stop until R19 restarts them; their transmitters go to electrical idle. -/
def stopLoads (s : State) (ts : List Nat) : State :=
  s.each ts fun s t => s.each (s.loadPaths t false) fun s p => (refreshPath (s.set .X_PATH_STOPPED p) p).emit (.txIdle p)

/-- Tower t is forced into self-refresh, its contents kept. -/
def towerForced (s : State) (t : Nat) : State :=
  if s.twrActive t then
    let s := s.wr .TWR_STAT_STATE t 2
    s.each (List.range 16) fun s c => if s.retired t = some c then s else s.wr .CH_STAT_STATE (chI t c) 2
  else s

/-- Vine transmitters go to electrical idle: every port is down, and a node that is not the root loses its epoch (R242, R569). -/
def vineIdle (s : State) : State :=
  let s := s.each (List.range 4) fun s i => s.wr .VIN_PSTAT_STATE i 0
  if s.on .VIN_CTL_ROOT 0 then s else epochLose s

/-- A quadrant is lost: transmitters of its 128 ports idle, threads stop with their clock, calibration runs are abandoned. -/
def quadFail (s : State) (q : Nat) : State :=
  let s := markFailed (s.wrBit .CLK_STAT_QRDY 0 q false) ((33 + q) :: (List.range 4).map (4 * q + ·))
  let s := s.each ((List.range 64).map (64 * q + ·)) fun s n => calDrop (calDrop s n) (256 + n)
  let s := s.each ((List.range 128).map (128 * q + ·)) fun s r =>
    if s.on .XCVR_STAT_TXIDLE r then refreshPort s r else (refreshPort s r).emit (.txIdle (portOwner r))
  s.raiseCause (1024 + q) msgLOSS 0

/-- Early failure of HCLK or PCLK (R573): every output safe, held in ROM until POR. -/
def earlyFail (s : State) : State :=
  let s := s.each (List.range 512) fun s r => (s.set .XCVR_STAT_TXIDLE r).clr .XCVR_STAT_RXTERM r
  ((vineIdle s).wr .DEV_STATE_STATE 0 devROM).set .DEV_STATE_CLKFAIL_EARLY 0

/-- HCLK or PCLK fails (R572, R573). -/
def hclkFail (s : State) : State :=
  if s.on .CLK_STAT_AONRDY 0 then (s.set .CLK_STAT_FALLBACK 0).raiseCause 1028 msgLOSS 22
  else earlyFail s

/-- CPLL, or BREF with it, is lost (R569, R580): what ran from CPLL falls back; a switch to it is abandoned. -/
def coreFail (s : State) : State :=
  let was := s.onCpll
  let s := s.clr .CLK_STAT_CPLLRDY 0
  let s := if s.rd .X_HSW 0 = 1 then
      let s := (s.clr .X_HSW 0).clr .CLK_STAT_SWBUSY 0
      if s.on .CLK_STAT_FALLBACK 0 then s else s.set .CLK_SEL_HSRC 0
    else s
  let s := stopLoads s [0, 1]
  let s := towerForced (towerForced s 0) 1
  let s := vineIdle (markFailed s [20, 24, 28, 30, 32, 37, 38, 16, 17, 18, 19])
  let s := s.clr .CLK_STAT_MRDY 0
  let s := s.raiseCause 1029 msgLOSS 20
  if was then hclkFail s else s

/-- The readout reference or PLL is lost: a PORT reset follows. -/
def readoutFail (s : State) : State :=
  (portReset (markFailed (s.clr .CLK_STAT_XRDY 0) [26, 27])).raiseCause 1030 msgLOSS 0

/-- A reference goes: a fresh RDLY wait precedes its return (R570). -/
def refGone (s : State) (ref : Nat) : State :=
  (s.wrBit .X_REF_PRES 0 ref false).wrBit .X_REF_DONE 0 ref false

/-- MPLLt is lost. -/
def mpllFail (s : State) (t : Nat) : State :=
  let s := towerForced (stopLoads s [t]) t
  (markFailed (s.wrBit .CLK_STAT_MRDY 0 t false) [16 + t, 18 + t]).raiseCause 1029 msgLOSS (16 + t)

/-- FPLL is lost: the press forms no records. -/
def fpllFail (s : State) : State := (markFailed (stopLoads s [0, 1]) [20]).raiseCause 1029 msgLOSS 20

/-- NPLL is lost. -/
def npllFail (s : State) : State := (vineIdle (markFailed s [30])).raiseCause 1029 msgLOSS 30

/-- One domain fails by its own monitor: with a domain that has a PLL of its own, as its PLL; a GCLK with the source of its quadrant; TCLK is
reported and resumes by itself (R570). -/
def domFail (s : State) (d : Nat) : State :=
  if d < 16 then (markFailed s [d]).raiseCause (1024 + d / 4) msgLOSS 0
  else if d < 20 then mpllFail s (d % 2)
  else if d = 20 then fpllFail s
  else if d = 21 then s.raise 1029 msgLOSS 21
  else if d = 22 ∨ d = 23 then (if s.onCpll then hclkFail s else s)
  else if d = 26 ∨ d = 27 then readoutFail s
  else if d = 30 then npllFail s
  else if 33 ≤ d ∧ d < 37 then quadFail s (d - 33)
  else if d = 24 ∨ d = 28 ∨ d = 32 ∨ d = 37 ∨ d = 38 then (markFailed s [d]).raiseCause 1029 msgLOSS d
  else s

/-- CLOCK_FAILURE (R569). A reference that is BREF takes the core with it. -/
def clockFail (s : State) : ClkFault → State
  | .rclk q =>
    let s := quadFail ((refGone s q).wrBit .DEV_STATE_QREF_OK 0 q false) q
    if q = 0 ∧ s.on .X_BREF_SET 0 ∧ !s.on .CLK_SEL_BREF 0 then coreFail s else s
  | .qpll q => quadFail s q
  | .cpll => coreFail s
  | .fpll => fpllFail s
  | .mpll t => mpllFail s t
  | .npll => npllFail s
  | .xref =>
    let s := readoutFail (refGone s 4)
    if s.on .X_BREF_SET 0 && s.on .CLK_SEL_BREF 0 then coreFail s else s
  | .xpll => readoutFail s
  | .aon =>
    let s := if s.rd .X_HSW 0 = 2 then ((s.clr .X_HSW 0).clr .CLK_STAT_SWBUSY 0).clr .CLK_SEL_HSRC 0 else s
    (markFailed s [25]).raiseCause 1029 msgLOSS 25
  | .dom d => domFail s d

def execClockFailure (f : ClkFault) (s : State) : Host.Outcome State Fault Refusal := aonLive s fun s => clockFail s f

/-! Restart (R571). -/

/-- The domains that a target restarts. -/
def restartDoms (target : Nat) : List Nat :=
  if target < 4 then (33 + target) :: (List.range 4).map (4 * target + ·)
  else if target = 4 then [20, 24, 28, 30, 32, 37, 38, 16, 17, 18, 19]
  else if target < 7 then [16 + (target - 5), 18 + (target - 5)]
  else [26, 27]

/-- The ready flag of a target's source. -/
def State.srcReady (s : State) (target : Nat) : Bool :=
  if target < 4 then s.bit .CLK_STAT_QRDY 0 target
  else if target = 4 then s.on .CLK_STAT_CPLLRDY 0
  else if target < 7 then s.bit .CLK_STAT_MRDY 0 (target - 5)
  else s.on .CLK_STAT_XRDY 0

/-- A write of CLK_CMD. -/
def clkCmd (s : State) (v : Nat) : State :=
  let target := bitsOf v 3 0
  if !bitOf v 4 then s
  else if s.rd .X_CLKR 0 ≠ 0 then s.wr .CLK_CMD_RESULT 0 1
  else if 8 ≤ target then s.wr .CLK_CMD_RESULT 0 4
  else if !s.srcReady target then s.wr .CLK_CMD_RESULT 0 2
  else if !(restartDoms target).any s.clkFailed then s.wr .CLK_CMD_RESULT 0 3
  else (s.wr .CLK_CMD_RESULT 0 1).wr .X_CLKR 0 (target + 1)

def execClkRestart (r : Route) (target : Fin 16) (s : State) : Host.Outcome State Fault Refusal :=
  live s fun s => gate r 0x3020 (fun s => clkCmd s (target.val + 16)) s

/-- Towers of a list leave self-refresh, where the device's state keeps towers active and their clocks have not failed. -/
def towersBack (s : State) (ts : List Nat) : State :=
  if s.dev = devSERVICE ∨ s.dev = devHOLD then towersUpOf s (ts.filter fun t => !s.clkFailed (16 + t)) else s

/-- A restart completes. -/
def restartDone (s : State) (target : Nat) : State :=
  let s := s.each (restartDoms target) fun s d => s.wrBit .CLK_FAIL_FAIL 0 d false
  let s := (s.clr .X_CLKR 0).clr .CLK_CMD_RESULT 0
  let s := if (List.range 39).any fun d => s.clkFailed d && decide (16 ≤ d) && d != 26 && d != 27 && !decide (33 ≤ d ∧ d < 37) then s else s.endCause 1029
  if target < 4 then
    (s.endCause (1024 + target)).each ((List.range 4).map (4 * target + ·)) groveReset
  else if target = 4 then towersBack s [0, 1]
  else if target < 7 then towersBack s [target - 5]
  else s.endCause 1030

/-- CLOCK_RESTART_DONE (R571). -/
def execClockRestartDone (s : State) : Host.Outcome State Fault Refusal :=
  live s fun s => if s.rd .X_CLKR 0 = 0 then s else restartDone s (s.rd .X_CLKR 0 - 1)

/-! Switching (R567). -/

/-- A write of CLK_SEL: FSEL 0b11 is reserved (R6). -/
def clkSelSet (s : State) (v : Nat) : State :=
  let s := if bitsOf v 3 2 = 3 then s else s.wr .CLK_SEL_FSEL 0 (bitsOf v 3 2)
  let aon := bitOf v 1
  if !(if aon then s.on .CLK_STAT_AONRDY 0 else s.on .CLK_STAT_CPLLRDY 0) then (s.set .CLK_STAT_SWREF 0).raise 1031 msgREFUSE 22
  else if aon == s.on .CLK_SEL_HSRC 0 && (aon || !s.on .CLK_STAT_FALLBACK 0) then s
  else switchBegin (s.wrB .CLK_SEL_HSRC 0 aon) (if aon then 2 else 1)

def execClkSelWrite (r : Route) (v : DW) (s : State) : Host.Outcome State Fault Refusal :=
  live s fun s => gate r 0x3000 (fun s => clkSelSet s v.toNat) s

/-- CLOCK_SWITCH_DONE: a return to CPLL ends the fallback (R572). -/
def execClockSwitchDone (s : State) : Host.Outcome State Fault Refusal :=
  live s fun s =>
    let src := s.rd .X_HSW 0
    let s := (s.clr .X_HSW 0).clr .CLK_STAT_SWBUSY 0
    if src = 1 then (s.clr .CLK_STAT_FALLBACK 0).endCause 1028 else s

/-! Gating. -/

/-- Every path of grove g counts as DARK (R650). -/
def State.groveDark (s : State) (g : Nat) : Bool := (List.range 16).all fun i => s.laneDark (16 * g + i)

/-- All threads of grove g are halted. -/
def State.groveHalted (s : State) (g : Nat) : Bool := (List.range 4).all fun t => s.rd .SEQ_TSTAT_STATE (4 * g + t) == tHALTED

/-- The gate condition of R563 for a domain. -/
def State.mayGate (s : State) (d : Nat) : Bool :=
  if d < 16 then s.groveDark d && s.groveHalted d
  else if d = 20 then
    !((List.range 512).any fun p => s.on .STRM_CFG_ON p || decide ((s.getStrm p).pend ≠ []) || s.mode p == mDELAY || s.replaying p)
  else if d = 30 then s.rd .VIN_CTL_PEN 0 == 0 && !s.on .VIN_CTL_P0EN 0
  else if d = 32 then
    !s.on .CAL_CTL_BGEN 0 && !s.on .CAL_STAT_WBBUSY 0 && !((List.range 512).any fun x => s.rd .X_CAL_ST x == 2 || s.rd .X_CAL_ST x == 3)
      && !((List.range 256).any fun n => s.on .X_CAL_FG n)
  else if 33 ≤ d ∧ d < 37 then (List.range 4).all fun i => !s.bit .CLK_RUN_EN 0 (4 * (d - 33) + i)
  else if d = 37 then
    !((List.range 256).any fun k => s.on .PUN_CFG_EN k && s.on .PUN_CFG_ENC k) && !((List.range 128).any fun i => s.on .IDE_BIND_EN i)
  else d == 38

/-- A write that clears one run enable (R577, R578): busy, a bus access to the domain is in progress. -/
def gateBit (s : State) (d : Nat) (busy : Bool) : State :=
  if s.mayGate d then (s.wrBit .CLK_RUN_EN 0 d false).wrBit .CLK_GPEND_GATE_PEND 0 d (busy && s.dev != devIDLE && s.dev != devSTANDBY)
  else (s.set .CLK_STAT_GATEERR 0).raise 1031 msgREFUSE d

/-- A write of CLK_RUN_LO or CLK_RUN_HI. -/
def clkRunSet (s : State) (hi : Bool) (v busy : Nat) : State :=
  s.each (if hi then (List.range 7).map (32 + ·) else List.range 32) fun s d =>
    let b := bitOf v (d % 32)
    if d = 25 ∨ d = 31 ∨ b == s.bit .CLK_RUN_EN 0 d then s
    else if b then (s.wrBit .CLK_RUN_EN 0 d true).wrBit .CLK_GPEND_GATE_PEND 0 d false
    else gateBit s d (bitOf busy d)

def execClkRunWrite (r : Route) (hi : Bool) (v : DW) (busy : BitVec 39) (s : State) : Host.Outcome State Fault Refusal :=
  live s fun s => gate r (if hi then 0x3034 else 0x3030) (fun s => clkRunSet s hi v.toNat busy.toNat) s

/-- GATE_APPLY: the domain's bridge is idle. -/
def execGateApply (d : Fin 39) (s : State) : Host.Outcome State Fault Refusal :=
  live s fun s => s.wrBit .CLK_GPEND_GATE_PEND 0 d false

/-- The reset that a forced gate applies (last column of R563's table). -/
def gateReset (s : State) (d : Nat) : State :=
  if d < 16 then groveReset s d
  else if d < 20 then s.each (List.range 16) fun s c =>
    if s.retired (d % 2) = some c then s
    else if !s.twrActive (d % 2) then s.clr .CH_CMD_RESULT (chI (d % 2) c)
    else chanResetBegin s (d % 2) c
  else if d = 20 then { s with staged := [] }
  else if d = 22 then mgmtBegin s false
  else if d = 26 ∨ d = 27 then portReset s
  else if d = 30 then vineIdle s
  else if d = 32 then s.each (List.range 512) calDrop
  else if 33 ≤ d ∧ d < 37 then s.each ((List.range 4).map (4 * (d - 33) + ·)) groveReset
  else s

/-- GATE_FORCE (R578). -/
def execGateForce (d : Fin 39) (s : State) : Host.Outcome State Fault Refusal :=
  live s fun s =>
    if s.bit .CLK_GPEND_GATE_PEND 0 d then (gateReset (s.wrBit .CLK_GPEND_GATE_PEND 0 d false) d).raise 1031 msgTIMEOUT d else s

/-! Frequency meter. -/

/-- TGT encodings of R581. -/
def fmTarget (t : Nat) : Bool := decide (t ≤ 0x26) || decide (0x40 ≤ t ∧ t ≤ 0x45) || decide (0x48 ≤ t ∧ t ≤ 0x4B) || decide (0x200 ≤ t)

/-- Transceiver of receiver number r of R581: n for An, 256 + n for Bn. -/
def fmPort (r : Nat) : Nat := 32 * (r % 256 / 16) + (if r < 256 then 0 else 16) + r % 16

/-- The clock that a TGT or REF names runs. -/
def State.fmAlive (s : State) (t : Nat) : Bool :=
  if t ≤ 0x26 then s.clkRuns t
  else if t < 0x44 then s.bit .X_REF_PRES 0 (t - 0x40)
  else if t = 0x44 then s.bit .X_REF_PRES 0 4
  else if t = 0x45 then s.on .X_TREF_ACQ 0
  else if t < 0x4C then s.vpUp (t - 0x48)
  else s.on .XCVR_STAT_LOCK (fmPort (t - 0x200))

/-- A GO is refused. -/
def State.fmRefused (s : State) : Bool :=
  let ref := s.rd .FM_CTL_REF 0
  let g := s.rd .FM_CTL_GATE 0
  !s.fmAlive (s.rd .FM_CTL_TGT 0)
    || (!s.on .FM_CTL_MODE 0 && (!(decide (ref ≤ 0x26) || decide (0x40 ≤ ref ∧ ref ≤ 0x45)) || !s.fmAlive ref || decide (g < 10 ∨ 30 < g)))

/-- A write of FM_CTL. A measurement in progress keeps its settings' registers as written; a second GO starts none. -/
def fmCtlSet (s : State) (v : Nat) : State :=
  let s := s.w1c .FM_CTL_ERR 0 (bitsOf v 25 25)
  let s := if fmTarget (bitsOf v 9 0) then s.wr .FM_CTL_TGT 0 (bitsOf v 9 0) else s
  let s := s.wr .FM_CTL_REF 0 (bitsOf v 16 10)
  let s := (s.wr .FM_CTL_GATE 0 (bitsOf v 21 17)).wr .FM_CTL_MODE 0 (bitsOf v 22 22)
  if !bitOf v 23 || s.on .FM_CTL_BUSY 0 then s
  else if s.fmRefused then s.set .FM_CTL_ERR 0
  else s.set .FM_CTL_BUSY 0

def execFmGo (r : Route) (v : DW) (s : State) : Host.Outcome State Fault Refusal :=
  live s fun s => gate r 0x3080 (fun s => fmCtlSet s (setBitTo v.toNat 23 true)) s

/-- FM_DONE: the count, or the profile (R582). -/
def execFmDone (count : BitVec 48) (fmax fmin mean : BitVec 16) (modf : BitVec 12) (crossings : Nat) (s : State) : Host.Outcome State Fault Refusal :=
  live s fun s =>
    if !s.on .FM_CTL_BUSY 0 then s
    else
      let s := s.clr .FM_CTL_BUSY 0
      if s.on .FM_CTL_MODE 0 then
        let depth := (fmax.toInt - fmin.toInt).toNat
        let flat := decide (depth < 200 ∨ crossings < 16)
        let s := (s.wr .FM_SSC_FMAX 0 fmax.toNat).wr .FM_SSC_FMIN 0 fmin.toNat
        let s := (s.wr .FM_SSC2_DEPTH 0 depth).wr .FM_SSC2_MODF 0 (if flat then 0 else modf.toNat)
        (s.wrB .FM_SSC2_NOSSC 0 flat).wr .FM_MEAN_MEAN 0 mean.toNat
      else s.wr .FM_COUNT_COUNT 0 count.toNat

end Sys2Proof.Machine
end

