-- ==== Sys2Proof/Machine/Power.lean ====
section
/-! DEFINITION. Power domains (R583 to R586), housekeeping (R588 to R591), droop (R592), throttling (R593 to R596), thermal shutdown (R597, R598) and the
refresh and ceiling changes of the round (R398, R399). -/
namespace Sys2Proof.Machine

/-! Domains. -/

/-- Blocks of registers that a power domain holds (R583, R612). -/
def domHolds (d : Nat) (k : Fld × Nat) : Bool :=
  match k.1.blk with
  | .grove => decide (16 ≤ d ∧ d < 32) && k.2 / max k.1.perGrove 1 == d - 16
  | .tower => (d == 32 || d == 33) && k.1 != .TWR_CTL_PRESERVE
  | .ecc => d == 36 || d == 37
  | .press => d == 38 && k.1.perGrove == 0
  | .trig => d == 39
  | .port => d == 41
  | .harvest => d == 42
  | .cu => d == 43
  | .rind => d == 45
  | .vine => d == 47
  | .cal => d == 48
  | .timebase => d == 50
  | .nvm => d == 51
  | _ => false

/-- Domain d is on, with its registers at their reset values (R586). PDG g is a GROVE reset. -/
def domUp (s : State) (d : Nat) : State :=
  let s := s.wrBit .PWR_STAT_ON 0 d true
  if 16 ≤ d ∧ d < 32 then groveReset s (d - 16)
  else
    let s := s.drop fun k => domHolds d k && !k.1.keeps svALL
    if d = 42 then { s with hv := [] } else s

/-- Domain d is off. -/
def domDown (s : State) (d : Nat) : State :=
  let s := s.wrBit .PWR_STAT_ON 0 d false
  if d = 42 then { s with hv := [] } else if d = 47 then vineIdle s else if 52 ≤ d then s.wrBit .CLK_STAT_QRDY 0 (d - 52) false else s

/-- Domains whose PWR_OFF bit is writable (last column of R583). -/
def hostSwitch (d : Nat) : Bool := decide (16 ≤ d ∧ d < 32) || d == 42 || d == 46 || d == 47 || d == 49 || decide (52 ≤ d ∧ d < 56)

/-- The host may switch domain d off. -/
def State.mayOff (s : State) (d : Nat) : Bool :=
  s.dev == devSERVICE &&
    (if d < 32 then s.mayGate (d - 16)
     else if d = 42 then !((List.range 8).any fun e => s.on .HV_CTL_EN e)
     else if d = 46 then s.mayGate 37
     else if d = 47 then s.mayGate 30
     else if d = 49 then true
     else !((List.range 4).any fun i => s.pwrOn (16 + 4 * (d - 52) + i)))

/-- The domain is one that the device's present state keeps on. -/
def State.mayOn (s : State) : Bool := s.dev == devSERVICE || s.dev == devHOLD || s.dev == devIDLE || s.dev == devINIT

/-- A write of PWR_OFF_LO or PWR_OFF_HI (R585). -/
def pwrOffSet (s : State) (hi : Bool) (v : Nat) : State :=
  s.each (if hi then (List.range 24).map (32 + ·) else List.range 32) fun s d =>
    let b := bitOf v (d % 32)
    if !hostSwitch d || b == s.bit .PWR_OFF_OFF 0 d then s
    else if b then (if s.mayOff d then domDown (s.wrBit .PWR_OFF_OFF 0 d true) d else s.set .PWR_STAT_ERR 0)
    else
      let s := s.wrBit .PWR_OFF_OFF 0 d false
      if s.mayOn then domUp s d else s

def execPwrOffWrite (r : Route) (hi : Bool) (v : DW) (s : State) : Host.Outcome State Fault Refusal :=
  live s fun s => gate r (if hi then 0x400C else 0x4008) (fun s => pwrOffSet s hi v.toNat) s

/-- A change out of DARK is pending in grove g. -/
def State.wantsOut (s : State) (g : Nat) : Bool :=
  (List.range 32).any fun i => match s.getChg (32 * g + i) with | some ⟨_, .fromDark _⟩ => true | _ => false

/-- PDA_POWER_ON (R584): 20 µs after a change out of DARK was accepted with the domain off. -/
def execPdaPowerOn (g : Fin 16) (s : State) : Host.Outcome State Fault Refusal :=
  live s fun s => if s.wantsOut g && (s.dev == devSERVICE) then s.wrBit .PWR_STAT_ON 0 g true else s

/-- PDA_POWER_OFF (R584): 1 ms after the last path of the grove entered DARK. -/
def execPdaPowerOff (g : Fin 16) (s : State) : Host.Outcome State Fault Refusal :=
  live s fun s => if s.groveDark g then s.wrBit .PWR_STAT_ON 0 g false else s

/-! Conversions (R589, R590, R597). -/

/-- Range of a supply monitor in mV (R619, R620); VDDIO_MS has two. -/
def supplyOk (m v : Nat) : Bool :=
  let i := fun (lo hi : Nat) => decide (lo ≤ v ∧ v ≤ hi)
  if m < 4 then i 820 880
  else if m < 8 then i 1160 1240
  else if m < 12 then i 720 780
  else if m = 12 then i 760 840
  else if m = 13 then i 810 890
  else if m < 16 then i 1067 1133
  else if m < 18 then i 1746 1854
  else if m < 20 then i 580 620
  else if m = 20 then i 820 880
  else if m = 21 then i 1160 1240
  else if m = 22 then i 1710 1890
  else i 1710 1890 || i 3135 3465

/-- The domains that a monitored supply feeds (R619): none, a supply of the always-on domain or of the dies. -/
def supplyDoms (m : Nat) : List Nat :=
  if m < 8 then (List.range 4).map (4 * (m % 4) + ·)
  else if m < 12 then (List.range 16).map (16 + ·) ++ [38, 39, 46, 48, 43]
  else if m = 13 then (List.range 16).map (16 + ·) ++ [44]
  else if m = 18 ∨ m = 19 then [34 + (m - 18)]
  else if m = 20 ∨ m = 21 then [40]
  else []

/-- In STANDBY the retained domains. -/
def standbyKept (d : Nat) : Bool := decide (16 ≤ d ∧ d < 32) || d == 40 || d == 41 || d == 44

/-- The supply feeds only domains that are off. -/
def State.supplyIdle (s : State) (m : Nat) : Bool :=
  let ds := supplyDoms m
  ds != [] && ds.all fun d => !s.pwrOn d && !(s.dev == devSTANDBY && standbyKept d)

/-- Shutdown threshold of a temperature channel, in 1/8 °C. -/
def shutAt (ch : Nat) : Int := if ch < 32 then 944 else 864

/-- LATCHED (R23, R597, R598): THERM_N and FAULT_N low, every switched domain off, both towers lost. The straps, the address that they give (R25, R487) and the pins stay. -/
def latch (s : State) : State :=
  let b := s.bare fun f => f.keeps svALL || f == .X_STRAP_ADDR || f == .X_STRAP_RDLY || f == .CLK_STAT_AONRDY || f == .X_PERSTN_HIGH
  twPrimary (((b.wr .DEV_STATE_STATE 0 devLATCHED).set .X_THERMN_LOW 0).set .FLT_GSTAT_FAULTN 0)

/-- The sampler runs on AONCLK (R568, R588) and converts channels of temperature below 32, and supplies that are compared, in STANDBY (R588). -/
def State.sampled (s : State) (ch : Nat) : Bool :=
  s.aonRuns && (s.dev != devSTANDBY || decide (ch < 32) || (decide (64 ≤ ch ∧ ch < 88) && !s.supplyIdle (ch - 64)))

/-- An invalid reading. -/
def hkInvalid (s : State) (ch : Nat) : State := (s.clr .HK_VAL_VALID ch).raiseCauseAt 1052 msgLOSS ch ch

/-- A valid reading is shown. -/
def hkShow (s : State) (ch v : Nat) : State := ((s.wr .HK_VAL_VALUE ch v).set .HK_VAL_VALID ch).endCauseAt 1052 ch

/-- A supply's reading is compared (R590, R622). -/
def supplyCheck (s : State) (m v : Nat) : State :=
  if supplyOk m v then s.endCauseAt 1048 m
  else
    let s := if 14 ≤ m ∧ m < 18 then towerLost s (m % 2) else s
    s.raiseCauseAt 1048 msgLIMIT m m

/-- HK_CONVERSION: channel ch reads value, one of 92 to 95 a valid 0 (R589); second is the reading that the sampler takes at once when a temperature reaches its shutdown threshold. -/
def hkConvert (s : State) (ch : Nat) (value : BitVec 16) (valid : Bool) (second : BitVec 16) (secondValid : Bool) : State :=
  if !s.sampled ch then s
  else if 64 ≤ ch ∧ ch < 88 ∧ s.supplyIdle (ch - 64) then (s.clr .HK_VAL_VALID ch).endCauseAt 1048 (ch - 64)
  else if !valid && decide (ch < 92) then hkInvalid s ch
  else
    let s := hkShow s ch (if ch < 92 then value.toNat else 0)
    if ch < 64 then
      if value.toInt < shutAt ch then s
      else if !secondValid then hkInvalid s ch
      else if shutAt ch ≤ second.toInt then latch s
      else (hkShow s ch second.toNat).raise 1052 msgCHECK ch
    else if ch < 88 then supplyCheck s (ch - 64) value.toNat
    else s

/-- HK_CONVERSION on a device held in reset or in ROM's hold: it still crosses to LATCHED (R23, R602), and a supply of the DRAM out of range still loses its
tower (R622). -/
def hkHeld (s : State) (ch : Nat) (value : BitVec 16) (valid : Bool) (second : BitVec 16) (secondValid : Bool) : State :=
  if !s.aonRuns || !valid then s
  else if ch < 64 ∧ secondValid ∧ shutAt ch ≤ value.toInt ∧ shutAt ch ≤ second.toInt then latch s
  else if 78 ≤ ch ∧ ch < 82 ∧ !supplyOk (ch - 64) value.toNat then towerLost s ((ch - 64) % 2)
  else s

def execHkConversion (ch : Fin 96) (value : BitVec 16) (valid : Bool) (second : BitVec 16) (secondValid : Bool) (s : State) :
    Host.Outcome State Fault Refusal :=
  if s.dead && s.dev != devLATCHED then .next (hkHeld s.start ch value valid second secondValid)
  else live s fun s => hkConvert s ch value valid second secondValid

/-! The end of a round (R591). -/

/-- Reading of a channel in 1/8 °C, when its last is valid. -/
def State.temp (s : State) (ch : Nat) : Option Int :=
  if s.on .HK_VAL_VALID ch then some (signed 16 (s.rd .HK_VAL_VALUE ch)) else none

/-- Whole degrees of a reading, rounded to nearest. -/
def degrees (v : Int) : Int := (v + 4) / 8

/-- Die c of tower t: refresh rate, temperature and sensor state of its channel (R398, R399). -/
def dieStep (t : Nat) (s : State) (c : Nat) : State :=
  let n := 16 * t + c
  match s.temp (32 + n) with
  | none => (((s.set .CH_STAT_REF2X n).set .CH_STAT_SENSERR n)).raiseCauseAt (1053 + t) msgLOSS c c
  | some v =>
    let s := (s.wrB .CH_STAT_REF2X n (decide (680 < v))).clr .CH_STAT_SENSERR n
    (s.wr .CH_STAT_TEMP n (unsigned 8 (degrees v))).endCauseAt (1053 + t) c

/-- The hottest of the channels first to first + n - 1 that has a valid reading: its offset and its reading. -/
def State.hottest (s : State) (first n : Nat) : Option (Nat × Int) :=
  (List.range n).foldl (fun acc i =>
    match s.temp (first + i), acc with
    | some v, some (j, w) => if w < v then some (i, v) else some (j, w)
    | some v, none => some (i, v)
    | none, a => a) none

/-- Tower t at step 1: its flags follow its dies; the ceiling follows REF2X (R13, R398). -/
def towerStep (s : State) (t : Nat) : State :=
  let s := (List.range 16).foldl (dieStep t) s
  let s := s.wrB .TWR_STAT_REF2X t ((List.range 16).any fun c => s.on .CH_STAT_REF2X (16 * t + c))
  let s := s.wrB .TWR_STAT_SENSERR t ((List.range 16).any fun c => s.on .CH_STAT_SENSERR (16 * t + c))
  match s.hottest (32 + 16 * t) 16 with
  | some (i, v) => (s.wr .TWR_STAT_HOTDIE t i).wr .TWR_STAT_TMAX t (unsigned 8 (degrees v))
  | none => s

/-- Warning threshold of a temperature channel, in 1/8 °C. -/
def State.warnAt (s : State) (ch : Nat) : Int := 8 * (if ch < 32 then s.rd .THM_CFG_DIEWARN 0 else s.rd .THM_CFG_DRAMWARN 0 : Nat)

/-- Above its threshold, or counted so (R594, R596). -/
def State.chanHot (s : State) (ch : Nat) : Bool := match s.temp ch with | some v => decide (s.warnAt ch < v) | none => true

/-- At or below the threshold less 3 °C. -/
def State.chanCool (s : State) (ch : Nat) : Bool := match s.temp ch with | some v => decide (v ≤ s.warnAt ch - 24) | none => false

/-- PRS_PLIM.EFF and THROT follow THR and LIMIT. -/
def plimShow (s : State) : State :=
  let e := min (s.rd .X_THR 0) (s.rd .PRS_PLIM_LIMIT 0)
  (s.wr .PRS_PLIM_EFF 0 e).wrB .PRS_PLIM_THROT 0 (decide (e < s.rd .PRS_PLIM_LIMIT 0))

/-- The throttle step (R594). -/
def throttle (s : State) : State :=
  let hot := (List.range 64).any s.chanHot
  let cool := (List.range 64).all s.chanCool
  let s := s.wrB .THM_STAT_HOT 0 hot
  if hot then plimShow ((s.wr .X_THR 0 (min (s.rd .X_THR 0) (s.rd .PRS_PLIM_LIMIT 0) - 8)).clr .THM_STAT_COOLCNT 0)
  else if cool then
    if s.rd .THM_STAT_COOLCNT 0 = 15 then plimShow ((s.wr .X_THR 0 (min 104 (s.rd .X_THR 0 + 8))).clr .THM_STAT_COOLCNT 0)
    else plimShow (s.wr .THM_STAT_COOLCNT 0 (s.rd .THM_STAT_COOLCNT 0 + 1))
  else plimShow (s.clr .THM_STAT_COOLCNT 0)

/-- DIEMAX and DRAMMAX. -/
def maxShow (s : State) : State :=
  let put := fun (s : State) (f : Fld) (first : Nat) => match s.hottest first 32 with
    | some (_, v) => s.wr f 0 (unsigned 8 (degrees v))
    | none => s
  put (put s .THM_STAT_DIEMAX 0) .THM_STAT_DRAMMAX 32

/-- Step 3: one warning for each channel above its threshold. -/
def warnStep (s : State) : State :=
  s.each (List.range 64) fun s ch =>
    let src := if ch < 32 then 1049 else 1050
    match s.temp ch with
    | some v => if s.warnAt ch < v then s.raiseCauseAt src msgLIMIT (ch % 32) ch else s.endCauseAt src ch
    | none => s.endCauseAt src ch

/-- A receiver is eligible (R193). One whose run failed waits its 1,024 rounds first (R199). DESIGN CHOICE (log 84): with its sensor's last reading invalid it is not eligible. -/
def State.eligible (s : State) (x : Nat) : Bool :=
  let n := rxLane x
  let last := signed 8 (s.rd (if x < 256 then .CAL_LSTAT_TLAST_A else .CAL_LSTAT_TLAST_B) n)
  s.mode (rxPath x) != mDARK && s.rd .X_CAL_ST x != 4 && s.rd .X_CAL_RQ x == 0
    && s.on .HK_VAL_VALID (2 * (n / 16) + n % 16 / 8) && decide ((s.rd .CAL_CTL_DT 0 : Int) < (s.laneTemp n - last).natAbs)

/-- Step 4: receivers that wait count the round; eligible ones, and those that no unit reached, are queued, lowest lane first (R193, R195, R199, R203). -/
def calStep (s : State) : State :=
  let s := s.each (List.range 512) fun s x => if 1 < s.rd .X_CAL_RQ x && s.rd .X_CAL_RQ x != nextRound then s.wr .X_CAL_RQ x (s.rd .X_CAL_RQ x - 1) else s
  s.each (List.range 256) fun s n => s.each (laneRx n) fun s x => if s.rd .X_CAL_RQ x = nextRound then calQueue (s.clr .X_CAL_RQ x) x else if s.eligible x then calQueue s x else s

/-- HOUSEKEEPING_ROUND_END. In STANDBY the sampler only samples (R588). -/
def roundEnd (s : State) : State :=
  let s := s.incWrap .HK_STAT_ROUNDS 0 1
  if s.dev = devSTANDBY then s
  else
    let s := towerStep (towerStep s 0) 1
    let s := warnStep (maxShow (throttle s))
    if s.pwrOn 48 && s.clkRuns 32 then calStep s else s

/-- A write of THM_CFG (R593). -/
def thmCfgSet (s : State) (v : Nat) : State :=
  let a := bitsOf v 7 0
  let b := bitsOf v 15 8
  if a < 70 ∨ 110 < a ∨ b < 70 ∨ 100 < b then s.set .THM_STAT_CFGERR 0
  else (s.wr .THM_CFG_DIEWARN 0 a).wr .THM_CFG_DRAMWARN 0 b

/-- A write of PRS_PLIM. -/
def prsPlimSet (s : State) (v : Nat) : State :=
  let a := bitsOf v 6 0
  let b := bitsOf v 12 8
  if 104 < a ∨ 16 < b then s.set .THM_STAT_CFGERR 0
  else plimShow ((s.wr .PRS_PLIM_LIMIT 0 a).wr .PRS_PLIM_SHARE0 0 b)

/-- DROOP (R592): a dip of more than 50 mV in grove g; report, that no reported dip lies within the last 1 µs. -/
def execDroop (g : Fin 16) (report : Bool) (s : State) : Host.Outcome State Fault Refusal :=
  live s fun s =>
    if s.pwrOn (16 + g.val) then
      let s := s.incSat .DROOP_CNT_COUNT g 1
      if report then s.raise (1032 + g.val) msgLIMIT 0 else s
    else s

end Sys2Proof.Machine
end

