-- ==== Sys2Proof/Machine/Fault.lean ====
section
/-! DEFINITION. The fault collector: reactions, escalation, first fault, delivery, clearing and injection (R544 to R561). -/
namespace Sys2Proof.Machine

/-- Reaction levels (R544). -/
def rLOG : Nat := 0
def rIRQ : Nat := 1
def rTRAP : Nat := 2
def rBLOCK : Nat := 3
def rCHIP : Nat := 4
def rFAULTN : Nat := 5

/-- The MSI-X vector of a source (R452). -/
def srcVector (src : Nat) : Nat :=
  if src < 512 then 12 + src / 32
  else if src < 768 then 12 + (src - 512) / 16
  else if src < 896 then 12 + (src - 768) / 8
  else if src < 1024 then 3
  else 2

/-- The source has a block reset (R543, R545). -/
def hasBlockReset (src : Nat) : Bool :=
  decide (src < 1024) || src == 1030 || decide (1032 ≤ src ∧ src < 1048) || src == 1055 || src == 1057 || decide (1060 ≤ src ∧ src < 1068)
    || src == 1069 || src == 1072

/-- Check unit u returns to its reset values. -/
def cuReset (s : State) (u : Nat) : State := s.drop fun k => k.1.blk == .cu && k.2 == u

/-- A harvest engine is aborted (R460): its descriptor ends at its next burst, and EN clears. -/
def hvAbort (s : State) (e : Nat) : State :=
  let s := match nget s.hv none e with
    | some j => { s with hv := nset s.hv none e (some { j with abort := true }) }
    | none => s
  s.clr .HV_CTL_EN e

/-- A grove's reset as a reaction: ignored with its power off (R602), and one with a reset already going on (R558). -/
def groveReact (s : State) (g : Nat) : State := if s.pwrOn (16 + g) then groveReset s g else s

/-- A CHAN reset as a reaction (R410, R545). -/
def chanReact (s : State) (t c : Nat) : State :=
  if s.twrActive t && s.rd .CH_STAT_STATE (chI t c) == 0 then chanResetBegin s t c else s

/-- A TW reset as a reaction (R499, R545). Transactions are whole commands, so none is in progress (log 92). -/
def twReact (s : State) : State := (s.set .TW_STAT_TOUT 0).raise 1055 msgTIMEOUT 0

/-- The block reset of a source (R545). -/
def blockReset (s : State) (src : Nat) : State :=
  if src < 512 then groveReact s (src / 32)
  else if src < 768 then groveReact s ((src - 512) / 16)
  else if src < 896 then groveReact s ((src - 768) / 8)
  else if src < 1024 then chanReact s ((src - 896) / 64) ((src - 896) % 64 / 4)
  else if src = 1030 ∨ src = 1057 then portReset s
  else if src < 1048 then groveReact s (src - 1032)
  else if src = 1055 then twReact s
  else if 1060 ≤ src ∧ src < 1068 then cuReset s (src - 1060)
  else if src = 1069 then s.each (List.range 8) hvAbort
  else if src = 1072 then (if s.mgmtMay then mgmtBegin s false else s)
  else s

/-- A trap reaches the firmware, or is held (R548). -/
def trapTo (s : State) : State := if s.on .X_FWUP 0 then s.emit .trap else s.set .FLT_GSTAT_TRAPPEND 0

/-- One level up (R549): the new level, and whether the message counts as escalated. -/
def escalate (src react : Nat) : Nat × Bool :=
  if react = rLOG then (rIRQ, true)
  else if react = rIRQ then (rTRAP, true)
  else if react = rTRAP then (if hasBlockReset src then rBLOCK else rCHIP, true)
  else if react = rBLOCK then (rCHIP, true)
  else if react = rCHIP then (rCHIP, true)
  else (react, false)

/-- The status bit of some source of a class is set (R549). -/
def State.classSet (s : State) (c : Nat) : Bool :=
  c != 0 && (List.range 1152).any fun t => s.rd .FLT_SEV_CLASS t == c && s.status t

/-- The effective reaction of a message of a source, and whether it is escalated. -/
def State.effective (s : State) (src : Nat) : Nat × Bool :=
  let r := s.rd .FLT_SEV_REACT src
  if s.classSet (s.rd .FLT_SEV_CLASS src) then escalate src r else (r, false)

/-- Interrupt (R553): IRQ, and the source's vector once. -/
def interrupt (s : State) (src : Nat) : State := (s.set .FLT_GSTAT_IRQ 0).msix (srcVector src)

/-- A reaction is applied (R544). -/
def react (s : State) (m : Msg) (lvl : Nat) (esc : Bool) : State :=
  if lvl = rLOG then s
  else
    let s := interrupt s m.src
    if lvl = rTRAP ∨ (lvl = rBLOCK ∧ !hasBlockReset m.src) then trapTo s
    else if lvl = rBLOCK then blockReset s m.src
    else if lvl = rCHIP then chipReaction s m.src m.kind esc (esc && s.rd .FLT_SEV_REACT m.src == rCHIP)
    else if lvl = rFAULTN then s.set .FLT_GSTAT_FAULTN 0
    else s

/-- A source that uses ADDR[47:46] as INJ and COLLIDE (R542). -/
def markedSrc (src : Nat) : Bool :=
  (decide (768 ≤ src ∧ src < 896) && decide (src % 8 < 4)) || decide (896 ≤ src ∧ src < 1024) || decide (1060 ≤ src ∧ src ≤ 1068)
    || src == 1070 || src == 1072 || src == 1074

/-- The first-fault latch (R551, R561). -/
def firstFault (s : State) (m : Msg) (lvl : Nat) (esc : Bool) : State :=
  if lvl = rLOG then s
  else if s.on .FLT_FIRST_SRC_VALID 0 then s.set .FLT_FIRST_SRC_OVF 0
  else
    let s := (s.wr .FLT_FIRST_ADDR 0 m.addr).wr .FLT_FIRST_SRC_SOURCE 0 m.src
    let s := (s.wr .FLT_FIRST_SRC_KIND 0 m.kind).wr .FLT_FIRST_SRC_REACT 0 lvl
    let s := (s.set .FLT_FIRST_SRC_VALID 0).wrB .FLT_FIRST_SRC_ESC 0 esc
    let s := s.wrB .FLT_FIRST_SRC_INJ 0 (markedSrc m.src && bitOf m.addr 47)
    let s := s.wrB .FLT_FIRST_SRC_COLLIDE 0 (markedSrc m.src && bitOf m.addr 46)
    s.wr .FLT_FIRST_EPOCH 0 s.epochNow

/-- The hardware event buffer takes a message (R555). -/
def bufferEvent (s : State) (m : Msg) (lvl : Nat) : State :=
  if s.evbuf.length < 4096 then { s with evbuf := s.evbuf ++ [⟨m, s.epochNow, s.tbValid, lvl⟩] }
  else s.incSat .FLT_EVLOST_COUNT 0 1

/-- The collector takes a message from its queue. -/
def takeMessage (s : State) (m : Msg) : State :=
  let e := s.effective m.src
  let s := s.setStatus m.src
  react (firstFault (bufferEvent s m e.1) m e.1 e.2) m e.1 e.2

/-- A message that found the queue full takes its configured reaction (R557). -/
def takeOver (s : State) (m : Msg) : State := react s m (s.rd .FLT_SEV_REACT m.src) false

/-- FAULT_MESSAGE (R557): the reactions of messages past a full queue, then the queue's oldest message. Room in the queue ends a run of such messages,
and source 1074 is raised for it. -/
def faultMessage (s : State) : State :=
  match s.fqOver with
  | m :: r => takeOver { s with fqOver := r } m
  | [] =>
    match s.fq with
    | [] => s
    | m :: r =>
      let s := { s with fq := r }
      let s := if s.on .X_FQ_RUN 0 then (s.clr .X_FQ_RUN 0).raise 1074 msgOVERFLOW 0 else s
      takeMessage s m

def execFaultMessage (s : State) : Host.Outcome State Fault Refusal := live s faultMessage

/-! Registers. -/

/-- A write of FLT_STAT(i) (R556): a persistent cause that still holds sends a new message. -/
def statClear (s : State) (i v : Nat) : State :=
  let old := s.rd .FLT_STAT_STAT i
  let s := s.w1c .FLT_STAT_STAT i v
  s.each (List.range 32) fun s b =>
    if bitOf v b && bitOf old b then
      match s.causes.filterMap (·.2) |>.find? fun m => m.src == 32 * i + b with
      | some m => s.raise m.src m.kind m.addr
      | none => s
    else s

def execStatusClear (r : Route) (i : Fin 36) (v : DW) (s : State) : Host.Outcome State Fault Refusal :=
  live s fun s => gate r (0x100100 + 4 * i.val) (fun s => statClear s i v.toNat) s

/-- A write of FLT_FIRST_SRC (R551). -/
def firstClear (s : State) (v : Nat) : State :=
  if bitOf v 24 then
    s.drop fun k => [Fld.FLT_FIRST_ADDR, .FLT_FIRST_SRC_SOURCE, .FLT_FIRST_SRC_KIND, .FLT_FIRST_SRC_REACT, .FLT_FIRST_SRC_VALID, .FLT_FIRST_SRC_OVF,
      .FLT_FIRST_SRC_INJ, .FLT_FIRST_SRC_COLLIDE, .FLT_FIRST_SRC_ESC, .FLT_FIRST_EPOCH].contains k.1
  else s

def execFirstFaultClear (r : Route) (s : State) : Host.Outcome State Fault Refusal :=
  live s fun s => gate r 0x100018 (fun s => firstClear s 0x1000000) s

/-- A write of FLT_CTL (R554). -/
def fltCtlSet (s : State) (v : Nat) : State :=
  let s := s.wr .FLT_CTL_IRQEN 0 (bitsOf v 0 0)
  if bitOf v 1 then s.clr .FLT_GSTAT_FAULTN 0 else s

/-- FAULTN_CLR: a write of FLT_CTL with FAULTN_CLR = 1 and an IRQEN. -/
def execFaultnClr (r : Route) (irqen : Bool) (s : State) : Host.Outcome State Fault Refusal :=
  live s fun s => gate r 0x100000 (fun s => fltCtlSet s (2 + if irqen then 1 else 0)) s

/-- IRQ sets again at once while a status bit stands whose source has more than log only (R553). -/
def State.irqHeld (s : State) : Bool := (List.range 1152).any fun t => s.status t && s.rd .FLT_SEV_REACT t != rLOG

/-- A write of FLT_GSTAT (R553). -/
def gstatSet (s : State) (v : Nat) : State :=
  if bitOf v 1 then s.wrB .FLT_GSTAT_IRQ 0 (s.on .FLT_GSTAT_IRQ 0 && s.irqHeld) else s

/-- Pin IRQ_N is low (R553). -/
def State.irqPin (s : State) : Bool := s.on .FLT_GSTAT_IRQ 0 && s.on .FLT_CTL_IRQEN 0

/-- A write of FLT_SEV(src) (R546, R562): reserved sources discard it, reserved REACT values keep the field (R6), 1051 keeps 0b101. -/
def sevSet (s : State) (src v : Nat) : State :=
  if 1075 ≤ src then s
  else
    let s := s.wr .FLT_SEV_CLASS src (bitsOf v 6 3)
    if bitsOf v 2 0 < 6 ∧ src ≠ 1051 then s.wr .FLT_SEV_REACT src (bitsOf v 2 0) else s

def execFltSevWrite (r : Route) (src : Fin 1152) (v : DW) (s : State) : Host.Outcome State Fault Refusal :=
  live s fun s => gate r (0x101000 + 4 * src.val) (fun s => sevSet s src v.toNat) s

/-- Most check bits that a checker takes (R559); 0: reserved. -/
def injMax (c : Nat) : Nat :=
  if c < 0x10 then 1 else if c < 0x12 then 3 else if c < 0x15 then 2 else if c = 0x15 then 1 else if c < 0x1F then 3 else 0

/-- A write of FLT_INJ (R559). -/
def fltInjSet (s : State) (v : Nat) : State :=
  let c := bitsOf v 5 0
  let b := bitsOf v 7 6
  let n := bitsOf v 15 8
  let s := if c < 0x1F then s.wr .FLT_INJ_CHECKER 0 c else s
  let s := (s.wr .FLT_INJ_BITS 0 b).wr .FLT_INJ_COUNT 0 n
  if !bitOf v 16 then s
  else if s.on .FLT_INJ_BUSY 0 then s.wr .FLT_INJ_RESULT 0 2
  else if b = 0 ∨ n = 0 then s.wr .FLT_INJ_RESULT 0 0
  else if injMax c < b then s.wr .FLT_INJ_RESULT 0 3
  else
    let s := ((s.wr .X_INJ_CHECKER 0 c).wr .X_INJ_BITS 0 b).wr .X_INJ_LEFT 0 n
    (s.set .FLT_INJ_BUSY 0).wr .FLT_INJ_RESULT 0 0

def execFltInjArm (r : Route) (v : DW) (s : State) : Host.Outcome State Fault Refusal :=
  live s fun s => gate r 0x100040 (fun s => fltInjSet s (setBitTo v.toNat 16 true)) s

end Sys2Proof.Machine
end

