-- ==== Sys2Proof/Machine/Readout.lean ====
section
/-! DEFINITION. The readout port and harvest: BAR2 (R448 to R451), the admission window with the reads it leaves room for (R16, R17, R383), the eight
harvest engines (R453 to R460). -/
namespace Sys2Proof.Machine

/-! BAR2. -/

/-- A refusal or discard of the port sets its bit and sends the port's message (R449, R450, R543). -/
def xpNote (s : State) (f : Fld) (kind : Nat) : State := (s.set f 0).raise 1057 kind 0

/-- The port answers (R35, R612): before INIT as soon as it is ready for enumeration, then while its domain is on and clocked. -/
def State.portReady (s : State) : Bool := s.on .X_PORT_UP 0 && (decide (s.dev < devINIT) || (s.pwrOn 41 && s.clkRuns 26))

/-- Tower byte address of a BAR2 offset (R448); none: the aperture is disabled, or shows no page of tower space. -/
def State.bar2Addr (s : State) (x : Nat) : Option Nat :=
  let i := x / 2 ^ 30
  let A := s.rd .BAR2_MAP_PAGE i * 2 ^ 30 + x % 2 ^ 30
  if s.on .BAR2_MAP_EN i && decide (s.rd .BAR2_MAP_PAGE i < 192) && !s.withdrawn (slabOf A) then some A else none

/-- The tower refuses accesses: not initialised, in self-refresh, under hard repair or retirement (R434, R449). -/
def State.twrRefuses (s : State) (t : Nat) : Bool := !s.twrActive t || s.rd .X_REP_OP t == 2 || s.rd .X_REP_OP t == 4

/-- Accesses to n bytes at A wait: a CHAN reset, a TSV swap, a soft repair of a row they touch, or a tower controller without its clock (R410, R435, R440). -/
def State.twrWaits (s : State) (A n : Nat) : Bool :=
  let t := towerOf A
  s.rd .TWR_STAT_STATE t == 3 || s.rd .X_REP_OP t == 3 || !s.clkRuns (16 + t)
    || (s.rd .X_REP_OP t == 1 && (List.range ((A % 8 + n + 7) / 8)).any fun i =>
          (s.locOf (A / 8 * 8 + 8 * i)).key == ⟨t, s.rd .X_REP_CH t, s.rd .X_REP_PC t, s.rd .X_REP_BANK t, s.rd .X_REP_ROW t⟩)

/-- A read of n bytes fits the tower bandwidth that capture has left (R16, R17); while the press admits nothing, all of it is left. -/
def State.readFits (s : State) (t n : Nat) : Bool := !s.pressRuns || decide ((n : Int) ≤ s.readRoom t)

/-- The punnet whose plaintext a read at A returns (R389). -/
def State.plainAt (s : State) (A : Nat) : Option Nat :=
  match s.punAt (slabOf A) with
  | some k => if s.punEnc k && s.on .PUN_CFG_RDDEC k && (s.punKey k).isSome then some k else none
  | none => none

/-- Readout of n bytes at A, all in one data unit: bytes, poisoned words, and whether they were decrypted. The bytes are charged to the tower. -/
def readOut (s : State) (A n : Nat) : List Byte × List Nat × Bool × State :=
  let t := towerOf A
  let s := readCharge s t n
  match s.plainAt A with
  | some k =>
    let x := punRead s 2 k (A - s.punBase k) n true
    (x.1, x.2.1, true, x.2.2)
  | none =>
    let x := readBytes s 2 A n
    (x.1, x.2.1, false, x.2.2)

/-- Some byte from a to b - 1 lies in a poisoned word, or when decrypted in its cipher block (R451). -/
def epIn (bad : List Nat) (plain : Bool) (a b : Nat) : Bool :=
  let g := if plain then 16 else 8
  bad.any fun w => decide (a < w / g * g + g ∧ w / g * g < b)

/-- Completions of a read, split at 256-byte boundaries of the tower address (R451). -/
def completions (bad : List Nat) (plain : Bool) (A : Nat) (l : List Byte) : List Out :=
  let first := A / 256
  (List.range ((A + l.length + 255) / 256 - first)).map fun i =>
    let a := max A (256 * (first + i))
    let b := min (A + l.length) (256 * (first + i + 1))
    .bar2Data a (sliceBytes l (a - A) (b - a)) (epIn bad plain a b)

/-- Refuse a BAR2 access (R449). -/
def b2Refuse (s : State) (b : B2Acc) : State :=
  let s := match b.data with
    | none => s.emit (.bar2Abort b.addr)
    | some _ => s
  xpNote s .XP_STAT_BADADDR msgREFUSE

/-- Store bytes of a BAR2 write where its byte enables are set (R403, R404). -/
def b2Store (s : State) (A : Nat) (l : List Byte) (en : List Bool) : State :=
  let first := A / 8
  let pad := A % 8
  let l := List.replicate pad 0 ++ l
  let en := List.replicate pad false ++ en
  s.each (List.range ((l.length + 7) / 8)) fun s i =>
    let e := (List.range 8).map fun j => en.getD (8 * i + j) false
    let w := sliceBytes l (8 * i) 8
    if e.all id then writeWord s (8 * (first + i)) (BitVec.ofNat 64 (leNat w))
    else if e.any id then writePart s 2 (8 * (first + i)) w e
    else s

/-- Carry a BAR2 access out, or none while it waits (R449, R450). -/
def b2Serve (s : State) (b : B2Acc) : Option State :=
  if s.twrRefuses (towerOf b.addr) then some (b2Refuse s b)
  else if s.twrWaits b.addr b.len then none
  else
    match b.data with
    | none =>
      if s.readFits (towerOf b.addr) b.len then
        let r := readOut s b.addr b.len
        some ((completions r.2.1 r.2.2.1 b.addr r.1).foldl State.emit r.2.2.2)
      else none
    | some (l, en) =>
      let sl := slabOf b.addr
      if (s.punAt sl).isSome || (s.dlrAt sl).isSome || s.clearing sl then some (xpNote s .XP_STAT_WRDISC msgREFUSE)
      else some (b2Store s b.addr l en)

/-- A BAR2 access arrives: refused, served, or queued behind those of its tower that wait. -/
def b2Arrive (s : State) (x n : Nat) (data : Option (List Byte × List Bool)) : State :=
  if n = 0 then s
  else match s.bar2Addr x with
    | none => b2Refuse s ⟨x, n, data⟩
    | some A =>
      let b : B2Acc := ⟨A, n, data⟩
      if s.b2.any fun c => towerOf c.addr == towerOf A then { s with b2 := s.b2 ++ [b] }
      else match b2Serve s b with
        | some t => t
        | none => { s with b2 := s.b2 ++ [b] }

/-- BAR2_READ (R448 to R451) of len bytes at offset x of BAR2, within one 4,096-byte page as PCI Express requests are. -/
def execBar2Read (x : BitVec 36) (len : Nat) (s : State) : Host.Outcome State Fault Refusal :=
  live s fun s => if s.portReady then b2Arrive s x.toNat (min len (4096 - x.toNat % 4096)) none else s.emit (.bar2Abort x.toNat)

/-- BAR2_WRITE (R448, R449) of bytes with their byte enables. -/
def execBar2Write (x : BitVec 36) (bytes : List Byte) (en : List Bool) (s : State) : Host.Outcome State Fault Refusal :=
  live s fun s =>
    let l := bytes.take (4096 - x.toNat % 4096)
    if s.portReady then b2Arrive s x.toNat l.length (some (l, en)) else s

/-- Serve the waiting accesses of a tower in order until one still waits. -/
def b2Drain (t : Nat) : List B2Acc → State → List B2Acc × State
  | [], s => ([], s)
  | b :: r, s =>
    if towerOf b.addr = t then
      match b2Serve s b with
      | some u => b2Drain t r u
      | none => (b :: r, s)
    else
      let x := b2Drain t r s
      (b :: x.1, x.2)

/-- BAR2_STARVE (R450): the oldest read that waits for tower bandwidth has waited 10 ms. One that a reset or a repair holds waits for that (DESIGN CHOICE, log 40). -/
def execBar2Starve (s : State) : Host.Outcome State Fault Refusal :=
  live s fun s =>
    match s.b2.find? fun b => b.data.isNone && !s.twrWaits b.addr b.len with
    | some b => xpNote ({ s with b2 := s.b2.erase b }.emit (.bar2Abort b.addr)) .XP_STAT_STARVE msgTIMEOUT
    | none => s

/-- ADMISSION_WINDOW (R383) of tower t. Outside SERVICE, and without its power and clock, the press admits nothing, and staged records are discarded.
BAR2 accesses that wait take what capture has left. -/
def execAdmissionWindow (t : Fin 2) (s : State) : Host.Outcome State Fault Refusal :=
  live s fun s =>
    let s := if s.pressRuns then admissionWindow s t else ((s.setStaged t []).clr .X_DLY_BYTES t).clr .X_RD_BYTES t
    let x := b2Drain t s.b2 s
    { x.2 with b2 := x.1 }

/-! Rings (R454). -/

/-- WRAP of an engine's ring; 0 with no slots. -/
def State.hvWrap (s : State) (e : Nat) : Nat := let z := s.rd .HV_RSIZE_SIZE e; if z = 0 then 0 else z * (65536 / z)

/-- A ring write that is not to be taken. -/
def hvBad (s : State) (e : Nat) : State := s.set .HV_STAT_CFGERR e

/-- Write of HV_PROD. -/
def hvProdSet (s : State) (e v : Nat) : State := if s.hvWrap e ≤ bitsOf v 15 0 then hvBad s e else s.wr .HV_PROD_IDX e (bitsOf v 15 0)

/-- The ring holds descriptors. -/
def State.hvLoaded (s : State) (e : Nat) : Bool := s.rd .HV_PROD_IDX e != s.rd .HV_CONS_IDX e

/-- Write of HV_RSIZE. -/
def hvSizeSet (s : State) (e v : Nat) : State :=
  if s.hvLoaded e || decide (32768 < bitsOf v 15 0) then hvBad s e else s.wr .HV_RSIZE_SIZE e (bitsOf v 15 0)

/-- Write of HV_RBASE's low (0) or high (1) half. -/
def hvBaseSet (s : State) (e half v : Nat) : State :=
  if s.hvLoaded e then hvBad s e
  else
    let a := s.rd .HV_RBASE_ADDR e
    s.wr .HV_RBASE_ADDR e (if half = 0 then a / 2 ^ 32 * 2 ^ 32 + v else v * 2 ^ 32 + a % 2 ^ 32)

/-- Write of HV_CTL (R460). -/
def hvCtlSet (s : State) (e v : Nat) : State := if bitOf v 1 then hvAbort s e else s.wr .HV_CTL_EN e (v % 2)

def addrHv (e : Nat) : Nat := 0x3900000 + 0x40 * e

def execHvProdWrite (r : Route) (e : Fin 8) (v : DW) (s : State) : Host.Outcome State Fault Refusal :=
  live s fun s => gate r (addrHv e + 0x10) (fun s => hvProdSet s e v.toNat) s

def execHvAbort (r : Route) (e : Fin 8) (s : State) : Host.Outcome State Fault Refusal :=
  live s fun s => gate r (addrHv e) (fun s => hvCtlSet s e 2) s

def execHvEnable (r : Route) (e : Fin 8) (en : Bool) (s : State) : Host.Outcome State Fault Refusal :=
  live s fun s => gate r (addrHv e) (fun s => hvCtlSet s e (if en then 1 else 0)) s

/-! Descriptors (R455 to R460). -/

def State.getHv (s : State) (e : Nat) : Option HvJob := nget s.hv none e
def State.setHv (s : State) (e : Nat) (j : Option HvJob) : State := { s with hv := nset s.hv none e j }

/-- An engine may issue requests (R446), with its power and clock. -/
def State.hvMay (s : State) : Bool :=
  s.portReady && s.on .X_BME 0 && !s.on .X_D3HOT 0 && s.pwrOn 42 && (s.dev == devSERVICE || s.dev == devHOLD)

/-- Host address of the slot of the engine's next descriptor; [5:0] of RBASE are ignored. -/
def State.hvSlot (s : State) (e : Nat) : Nat :=
  s.rd .HV_RBASE_ADDR e / 64 * 64 + 64 * (s.rd .HV_CONS_IDX e % s.rd .HV_RSIZE_SIZE e)

/-- Code 0x02 of R456 applies to the 32 bytes that host software wrote. -/
def descBad (d : List Byte) : Bool :=
  let op := (d.getD 0 0).toNat
  !(op == 1 || op == 2) || (d.getD 1 0).toNat / 2 != 0 || (op == 1 && leNat (sliceBytes d 2 2) != 0)
    || leNat (sliceBytes d 24 8) != 0 || leNat (sliceBytes d 4 4) % 16 != 0 || leNat (sliceBytes d 8 8) % 16 != 0
    || leNat (sliceBytes d 16 8) % 16 != 0

/-- Code 0x03 of R456 applies. -/
def State.hvNoSource (s : State) (j : HvJob) : Bool :=
  if j.records then
    decide (256 ≤ j.pun) || !s.on .PUN_CFG_EN j.pun
      || (s.punEnc j.pun && !(s.on .PUN_CFG_RDDEC j.pun && (s.punKey j.pun).isSome))
  else
    decide (towerTop < j.src + j.len)
      || (List.range (slabOf (j.src + j.len + slabSize - 1) - slabOf j.src)).any fun i => s.withdrawn (slabOf j.src + i)

/-- A descriptor as the engine takes it. -/
def hvJobOf (s : State) (d : List Byte) : HvJob :=
  let rec_ := d.getD 0 0 == 2
  let pun := leNat (sliceBytes d 2 2)
  let src := leNat (sliceBytes d 8 8)
  { records := rec_, irq := bitOf (d.getD 1 0).toNat 0, pun := pun, len := leNat (sliceBytes d 4 4), src := src,
    dst := leNat (sliceBytes d 16 8), off := src, bytes := 0, marks := 0, recs := 0, paddr := none,
    stop := if rec_ then s.rd .PUN_HEAD_OFS pun else 0, cut := false, abort := false, held := [], heldOff := src }

/-! Turns (R453; DESIGN CHOICE, log 104): the active engines move data in turn by bursts of 4 KiB. -/

/-- Engine e has data to move and its tower serves it now. -/
def State.hvActive (s : State) (e : Nat) : Bool :=
  match s.getHv e with
  | none => false
  | some j =>
    if j.abort || j.cut then false
    else if j.records then
      let A := s.punBase j.pun + j.off
      !s.twrRefuses (s.punTower j.pun) && !s.twrWaits A (min 4096 (s.punData j.pun - j.off)) && s.readFits (s.punTower j.pun) 4096
    else
      let n := min (4096 - j.off % 4096) (j.len - j.bytes)
      !s.twrRefuses (towerOf j.off) && !s.twrWaits j.off n && s.readFits (towerOf j.off) n

/-- It is engine e's turn: of the engines from the one whose turn it is on, none before e is active. -/
def State.hvTurn (s : State) (e : Nat) : Bool :=
  let f := s.rd .X_HV_TURN 0
  (List.range ((e + 8 - f) % 8)).all fun i => !s.hvActive ((f + i) % 8)

/-- Engine e has moved n bytes: after 4 KiB the turn passes on. -/
def hvPass (s : State) (e n : Nat) : State :=
  let b := (if s.rd .X_HV_TURN 0 = e then s.rd .X_HV_BURST 0 else 0) + n
  if 4096 ≤ b then (s.wr .X_HV_TURN 0 ((e + 1) % 8)).wr .X_HV_BURST 0 0 else (s.wr .X_HV_TURN 0 e).wr .X_HV_BURST 0 b

/-- The descriptor ends with a status (R454, R455): bytes 32 to 63 are written back, byte 33 last, HV_CONS advances, and the vector is signalled. -/
def hvEnd (s : State) (e : Nat) (j : HvJob) (status next : Nat) : State :=
  let a := s.hvSlot e
  let s := s.emit (.hostWrite (a + 32) (leBytes 1 status))
  let s := s.emit (.hostWrite (a + 34) (leBytes 2 (min j.marks 65535) ++ leBytes 4 j.recs ++ leBytes 8 j.bytes ++ leBytes 8 next
    ++ leBytes 8 (j.paddr.getD (2 ^ 64 - 1))))
  let s := s.emit (.hostWrite (a + 33) [1])
  let s := s.wr .HV_CONS_IDX e ((s.rd .HV_CONS_IDX e + 1) % s.hvWrap e)
  let s := ((s.clr .HV_STAT_BUSY e).clr .X_HV_TWR e).setHv e none
  let s := if s.rd .X_HV_TURN 0 = e then hvPass s e 4096 else s
  if j.irq then s.msix (4 + e) else s

/-- Bytes go to host memory and are counted. -/
def hvWrite (s : State) (e : Nat) (j : HvJob) (l : List Byte) : State :=
  let n := s.rd .X_HV_REM e + l.length
  ((s.emit (.hostWrite (j.dst + j.bytes) l)).wr .X_HV_REM e (n % 4096)).incSat .HV_BYTES_COUNT e (n / 4096)

/-- Towers that a descriptor's range lies in, as a mask (R434). -/
def State.hvTowers (s : State) (j : HvJob) : Nat :=
  if j.records then 2 ^ s.punTower j.pun
  else if towerOf j.src = towerOf (j.src + j.len - 1) then 2 ^ towerOf j.src else 3

/-- Take the next descriptor: want says whether it is of the kind asked for. Codes 0x02 and 0x03 end it at once, and so does LEN = 0. -/
def hvTake (s : State) (e : Nat) (desc : Option (List Byte)) (want : List Byte → Bool) : State :=
  if s.hvMay && s.on .HV_CTL_EN e && s.hvLoaded e && s.rd .HV_RSIZE_SIZE e != 0 && !s.on .HV_STAT_FETCHERR e then
    match desc with
    | none => ((s.set .HV_STAT_FETCHERR e).msix (4 + e)).raise 1069 msgTIMEOUT e
    | some d =>
      if want d then
        let j := hvJobOf s d
        if descBad d then hvEnd s e j 2 j.off
        else if s.hvNoSource j then hvEnd s e j 3 j.off
        else if j.len = 0 then hvEnd s e j 0 j.off
        else
          ((s.set .HV_STAT_BUSY e).wr .X_HV_TWR e (s.hvTowers j)).setHv e (some j)
      else s
  else s

/-- One 4 KiB burst of a RAW descriptor (R457), when its turn has come. -/
def hvRaw (s : State) (e : Nat) (j : HvJob) : State :=
  if j.abort then hvEnd s e j 5 j.off
  else
    let A := j.off
    let n := min (4096 - A % 4096) (j.len - j.bytes)
    let t := towerOf A
    if s.twrRefuses t || s.twrWaits A n || !s.readFits t n || !s.hvTurn e then s
    else
      let r := readOut (hvPass s e n) A n
      let bad := r.2.1.filter fun w => decide (A < w + 8 ∧ w < A + n)
      let s := hvWrite r.2.2.2 e j r.1
      let j := { j with off := A + n, bytes := j.bytes + n, marks := j.marks + bad.length, paddr := j.paddr.orElse fun _ => bad.head? }
      if j.bytes = j.len then hvEnd s e j 0 j.off else s.setHv e (some j)

/-- HARVEST_RAW (R457): engine e takes a RAW descriptor or an invalid one, whose 32 bytes desc gives (none: the fetch failed), and copies one burst; or
it copies the next burst of the RAW descriptor in progress. -/
def execHarvestRaw (e : Fin 8) (desc : Option (List Byte)) (s : State) : Host.Outcome State Fault Refusal :=
  live s fun s =>
    match s.getHv e with
    | some j => if s.hvMay && !j.records then hvRaw s e j else s
    | none =>
      let s := hvTake s e desc fun d => d.getD 0 0 != 2
      match s.getHv e with
      | some j => hvRaw s e j
      | none => s

/-! RECORDS (R458, R459). -/

/-- A marker. -/
def hvMarker (kind a n : Nat) : List Byte :=
  let h := [0, 2] ++ leBytes 2 0xFFFE ++ leBytes 1 kind ++ leBytes 3 0 ++ leBytes 8 a ++ leBytes 6 n
  h ++ leBytes 2 (crcOf crc16 h) ++ leBytes 8 0

/-- Bytes from one data-area offset to another in ring order; a stop-mode punnet has no wrap. -/
def State.ringDist (s : State) (k a b : Nat) : Nat :=
  if s.on .PUN_CFG_MODE k then b - a else (b + s.punData k - a) % s.punData k

/-- Of a list of words those in the n bytes of punnet k's ring from an offset on. -/
def State.ringWords (s : State) (k off n : Nat) (ws : List Nat) : List Nat :=
  let area := s.punData k
  ws.filter fun w => decide (w - s.punBase k < area ∧ (w - s.punBase k + area - off) % area < n)

/-- Offset of the next index entry after an offset in ring order, or stop. -/
def State.nextIndexed (s : State) (k off stop : Nat) : Nat :=
  let n := min ((s.rd .PUN_RECS_COUNT k + 2 ^ s.rd .PUN_CFG_IDXK k - 1) / 2 ^ s.rd .PUN_CFG_IDXK k) (s.punIndex k / 16)
  (List.range n).foldl (fun best e =>
    let o := leNat (sliceBytes (s.indexEntry k e) 8 6)
    if 0 < s.ringDist k off o ∧ s.ringDist k off o < s.ringDist k off best then o else best) stop

/-- Hold a marker for the record that follows it: they are put together or not at all. -/
def HvJob.hold (j : HvJob) (m : List Byte) (off : Nat) : HvJob :=
  { j with held := j.held ++ m, heldOff := if j.held = [] then j.off else j.heldOff, off := off, skip := 0 }

/-- Where a follow-on descriptor resumes. -/
def HvJob.resume (j : HvJob) : Nat := if j.held = [] then j.off else j.heldOff

/-- Room left for n bytes after the markers held. -/
def HvJob.fits (j : HvJob) (n : Nat) : Bool := decide (j.bytes + j.held.length + n ≤ j.len)

/-- The head snapshot is reached: markers still held are put. -/
def hvAtStop (s : State) (e : Nat) (j : HvJob) : State :=
  if j.held = [] then hvEnd s e j 1 j.off
  else
    let s := hvWrite s e j j.held
    hvEnd s e { j with bytes := j.bytes + j.held.length, marks := j.marks + j.held.length / 32, held := [] } 1 j.off

/-- One step of the walk: a marker, one record whole, or up to 4,096 of the bytes that a RESYNC skips (R17, R458). -/
def hvRecord (s : State) (e : Nat) (j : HvJob) : State :=
  let k := j.pun
  let area := s.punData k
  let tail := s.rd .PUN_TAIL_OFS k
  if j.cut then hvEnd s e j 6 j.resume
  else if j.abort then hvEnd s e j 5 j.resume
  else if j.off = j.stop then hvAtStop s e j
  else if s.ringDist k tail j.stop ≤ s.ringDist k tail j.off ∨ area ≤ j.off then
    if j.fits 32 then s.setHv e (some (j.hold (hvMarker 3 j.off (s.ringDist k j.off tail)) tail)) else hvEnd s e j 0 j.resume
  else if s.twrRefuses (s.punTower k) || s.twrWaits (s.punBase k + j.off) (min 4096 (area - j.off)) || !s.readFits (s.punTower k) 4096
      || !s.hvTurn e then s
  else
    let charge := fun (s : State) n => readCharge (hvPass s e n) (s.punTower k) n
    let hd := (punReadRing s 2 k j.off 32).1
    let size := 16 * (hd.getD 1 0).toNat
    if size < 32 ∨ crcOf crc16 (hd.take 22) ≠ leNat (sliceBytes hd 22 2) then
      let nxt := s.nextIndexed k j.off j.stop
      let n := s.ringDist k j.off nxt
      let m := min (n - j.skip) 4096
      let x := punReadRing (charge s m) 2 k ((j.off + j.skip) % area) m
      let j := { j with paddr := j.paddr.orElse fun _ => (s.ringWords k ((j.off + j.skip) % area) m x.2.1).head? }
      if j.skip + m < n then x.2.2.setHv e (some { j with skip := j.skip + m })
      else if j.fits 32 then x.2.2.setHv e (some (j.hold (hvMarker 2 j.off n) nxt))
      else hvEnd x.2.2 e j 0 j.resume
    else
      let x := punReadRing (charge s size) 2 k j.off size
      let s := x.2.2
      let bad := s.ringWords k j.off size x.2.1
      let dmg := match bad with
        | [] => []
        | w :: _ => hvMarker 1 w bad.length
      let j := { j with paddr := j.paddr.orElse fun _ => bad.head? }
      let l := j.held ++ dmg ++ x.1
      if j.bytes + l.length ≤ j.len then
        let s := hvWrite s e j l
        let next := if s.on .PUN_CFG_MODE k then j.off + size else (j.off + size) % area
        s.setHv e (some { j with
          off := next, bytes := j.bytes + l.length, recs := j.recs + 1, marks := j.marks + (l.length - size) / 32, held := [], heldOff := next })
      else hvEnd s e j 0 j.resume

/-- HARVEST_RECORDS (R458): engine e takes a RECORDS descriptor, or makes the next step of the one in progress. -/
def execHarvestRecords (e : Fin 8) (desc : Option (List Byte)) (s : State) : Host.Outcome State Fault Refusal :=
  live s fun s =>
    match s.getHv e with
    | some j => if s.hvMay && j.records then hvRecord s e j else s
    | none => hvTake s e desc fun d => d.getD 0 0 == 2

end Sys2Proof.Machine
end

