-- ==== Sys2Proof/Machine/Check.lean ====
section
/-! DEFINITION. The check-value units (R604 to R611). -/
namespace Sys2Proof.Machine

/-- The algorithm of a unit. -/
def State.cuAlg (s : State) (u : Nat) : CrcAlg := crcSel (s.rd .CU_CTL_POLY u)

/-- The result of a unit (R605). -/
def State.cuRes (s : State) (u : Nat) : Nat := Nat.xor (s.rd .CU_VAL_VAL u) (s.cuAlg u).fin % 2 ^ (s.cuAlg u).width

/-- CU_RES follows CU_VAL. -/
def cuShow (s : State) (u : Nat) : State := s.wr .CU_RES_RES u (s.cuRes u)

/-- INIT (R605). -/
def cuInit (s : State) (u : Nat) : State :=
  let s := (s.wr .CU_VAL_VAL u (s.cuAlg u).init).clr .CU_CNT_CNT u
  cuShow ((s.clr .X_CU_FLD u).clr .X_CU_SEEN u) u

/-- Source 1060 + u sends CHECK (R542, R607, R608). -/
def cuSend (s : State) (u : Nat) (inj collide : Bool) : State := s.raise (1060 + u) msgCHECK (injAddr 0 inj collide)

/-- Step 1 of a message end: the compare, with an armed injection (R560, R561, R607, R611). -/
def cuCompare (s : State) (u : Nat) : State :=
  if s.on .CU_CTL_CMPEN u then
    let w := (s.cuAlg u).width
    let x := takeInj s (0x16 + u)
    let mask := match x.1 with
      | some b => 2 ^ b - 1
      | none => 0
    let syn := Nat.xor (s.cuRes u) (Nat.xor (s.rd .CU_EXP_EXP u % 2 ^ w) mask)
    let s := x.2
    let s := if syn = 0 then s.set .CU_STAT_MATCH u else s.set .CU_STAT_MISM u
    if mask ≠ 0 then cuSend s u (syn == mask) (syn != mask)
    else if syn = 0 then s else cuSend s u false false
  else s

/-- Bytes of the alive field. -/
def State.cuBytes (s : State) (u : Nat) : Nat := [1, 2, 4].getD (s.rd .CU_CTL_AWID u) 4

/-- The alive field of the message. Bytes that the unit was not fed itself since its last INIT, because a context was restored after them, are free: no
register holds them. -/
def cuField (s : State) (u : Nat) : Nat × State :=
  let n := s.cuBytes u
  if (List.range n).all fun i => s.bit .X_CU_SEEN u i then (s.rd .X_CU_FLD u % 2 ^ (8 * n), s)
  else
    let x := s.freshBytes n
    (leNat ((List.range n).map fun i => if s.bit .X_CU_SEEN u i then BitVec.ofNat 8 (s.rd .X_CU_FLD u / 2 ^ (8 * i)) else x.1.getD i 0), x.2)

/-- Step 2 of a message end: the alive check (R608). -/
def cuAlive (s : State) (u : Nat) : State :=
  let mode := s.rd .CU_CTL_AMODE u
  let n := s.cuBytes u
  if mode = 0 ∨ s.rd .CU_CTL_LEN u < s.rd .CU_ALIVE_AOFS u + n then s
  else
    let x := cuField s u
    let s := x.2
    let last := s.rd .CU_ALAST_LAST u % 2 ^ (8 * n)
    let s := if s.on .CU_STAT_AVALID u then
        let s := if x.1 = last then cuSend (s.set .CU_STAT_REPEAT u) u false false else s
        if mode = 2 ∧ x.1 ≠ (last + 1) % 2 ^ (8 * n) then cuSend (s.set .CU_STAT_SKIP u) u false false else s
      else s
    (s.wr .CU_ALAST_LAST u x.1).set .CU_STAT_AVALID u

/-- CU_MESSAGE_END (R607). -/
def cuEnd (s : State) (u : Nat) : State :=
  let s := cuAlive (cuCompare s u) u
  cuInit (s.wr .CU_LRES_RES u (s.cuRes u)) u

/-- One byte fed (R606, R607); done says that the message of this feed has ended and the byte is beyond it. -/
def cuByte (u : Nat) (a : State × Bool) (b : Byte) : State × Bool :=
  if a.2 then (a.1.set .CU_STAT_OVERRUN u, true)
  else
    let s := a.1
    let c := s.rd .CU_CNT_CNT u
    let s := s.wr .CU_VAL_VAL u (crcByte (s.cuAlg u) (s.rd .CU_VAL_VAL u % 2 ^ (s.cuAlg u).width) b)
    let i := c - s.rd .CU_ALIVE_AOFS u
    let s := if s.rd .CU_ALIVE_AOFS u ≤ c ∧ i < s.cuBytes u then
        let f := s.rd .X_CU_FLD u
        (s.wr .X_CU_FLD u (f - bitsOf f (8 * i + 7) (8 * i) * 2 ^ (8 * i) + b.toNat * 2 ^ (8 * i))).wrBit .X_CU_SEEN u i true
      else s
    let s := cuShow (s.incWrap .CU_CNT_CNT u 1) u
    let len := s.rd .CU_CTL_LEN u
    if len ≠ 0 ∧ s.rd .CU_CNT_CNT u = len then (cuEnd s u, true) else (s, false)

/-- Feed n bytes of a word (R606). -/
def cuFeed (s : State) (u n v : Nat) : State := ((leBytes n v).foldl (cuByte u) (s, false)).1

/-- A write of CU_CNT or CU_ALIVE that moves the alive field against the count: what was fed is no byte of it any more. -/
def cuPlace (s : State) (f : Fld) (u v : Nat) : State :=
  if s.rd f u = bitsOf v 15 0 then s else (s.wr f u (bitsOf v 15 0)).clr .X_CU_SEEN u

/-- A write of CU_CMD. -/
def cuCmd (s : State) (u v : Nat) : State := if bitOf v 0 then cuInit (s.clr .CU_STAT_AVALID u) u else s

/-- A write of CU_CTL (R6, R605, R611). -/
def cuCtlSet (s : State) (u v : Nat) : State :=
  let poly := if bitsOf v 2 0 < 5 then bitsOf v 2 0 else s.rd .CU_CTL_POLY u
  let change := poly != s.rd .CU_CTL_POLY u
  let s := (s.wr .CU_CTL_POLY u poly).wr .CU_CTL_CMPEN u (bitsOf v 3 3)
  let s := if bitsOf v 5 4 < 3 then s.wr .CU_CTL_AMODE u (bitsOf v 5 4) else s
  let s := if bitsOf v 7 6 < 3 then s.wr .CU_CTL_AWID u (bitsOf v 7 6) else s
  let s := s.wr .CU_CTL_LEN u (bitsOf v 31 16)
  let s := if change then cuInit (s.wr .CU_EXP_EXP u (s.rd .CU_EXP_EXP u % 2 ^ (s.cuAlg u).width)) u else s
  if bitsOf v 31 16 ≠ 0 ∧ bitsOf v 31 16 ≤ s.rd .CU_CNT_CNT u then cuEnd s u else s

/-- A write of CU_STAT (R610). -/
def cuStatSet (s : State) (u v : Nat) : State :=
  let s := s.wr .CU_STAT_AVALID u (bitsOf v 5 5)
  [(0, Fld.CU_STAT_MATCH), (1, .CU_STAT_MISM), (2, .CU_STAT_REPEAT), (3, .CU_STAT_SKIP), (4, .CU_STAT_OVERRUN)].foldl
    (fun s e => if bitOf v e.1 then s.clr e.2 u else s) s

/-- A write of one half of CU_VAL: bits above WIDTH read zero (R604). -/
def cuValSet (s : State) (u half v : Nat) : State :=
  let a := s.rd .CU_VAL_VAL u
  let a := if half = 0 then a / 2 ^ 32 * 2 ^ 32 + v else v * 2 ^ 32 + a % 2 ^ 32
  cuShow (s.wr .CU_VAL_VAL u (a % 2 ^ (s.cuAlg u).width)) u

/-- A write of one half of CU_EXP. -/
def cuExpSet (s : State) (u half v : Nat) : State :=
  let a := s.rd .CU_EXP_EXP u
  let a := if half = 0 then a / 2 ^ 32 * 2 ^ 32 + v else v * 2 ^ 32 + a % 2 ^ 32
  s.wr .CU_EXP_EXP u (a % 2 ^ (s.cuAlg u).width)

def addrCu (u : Nat) : Nat := 0x400000 + 0x80 * u

def execCuFeed8 (r : Route) (u : Fin 8) (v : DW) (s : State) : Host.Outcome State Fault Refusal :=
  live s fun s => gate r (addrCu u + 8) (fun s => cuFeed s u 1 v.toNat) s

def execCuFeed16 (r : Route) (u : Fin 8) (v : DW) (s : State) : Host.Outcome State Fault Refusal :=
  live s fun s => gate r (addrCu u + 0xC) (fun s => cuFeed s u 2 v.toNat) s

def execCuFeed32 (r : Route) (u : Fin 8) (v : DW) (s : State) : Host.Outcome State Fault Refusal :=
  live s fun s => gate r (addrCu u + 0x10) (fun s => cuFeed s u 4 v.toNat) s

def execCuInit (r : Route) (u : Fin 8) (s : State) : Host.Outcome State Fault Refusal :=
  live s fun s => gate r (addrCu u + 4) (fun s => cuCmd s u 1) s

def execCuCtlWrite (r : Route) (u : Fin 8) (v : DW) (s : State) : Host.Outcome State Fault Refusal :=
  live s fun s => gate r (addrCu u) (fun s => cuCtlSet s u v.toNat) s

def execCuStatWrite (r : Route) (u : Fin 8) (v : DW) (s : State) : Host.Outcome State Fault Refusal :=
  live s fun s => gate r (addrCu u + 0x34) (fun s => cuStatSet s u v.toNat) s

end Sys2Proof.Machine
end

