-- ==== Sys2Proof/Machine/Mgmt.lean ====
section
/-! DEFINITION. What the management firmware does for the host: requests and responses (R461 to R468), the event queue (R469 to R471), the budget check (R472
to R474), measurements (R476), MCTP (R479, R480) and SPDM (R481, R482). -/
namespace Sys2Proof.Machine

/-- The firmware runs and has reported ready, in INIT or a later state. -/
def State.fwRuns (s : State) : Bool := s.on .X_FWUP 0 && decide (devINIT ≤ s.dev)

/-- The firmware reads its SRAM: an armed injection of the running bank's ECC checker takes effect (R559). The cause code that source 1072 carries is not
given: free. -/
def bankRead (s : State) : State :=
  let x := takeInj s (0x13 + s.rd .DEV_STATE_BANK 0)
  match x.1 with
  | none => x.2
  | some b =>
    let c := x.2.freshNat
    c.2.raise 1072 (if b = 1 then msgCORR else msgUNCORR) (injAddr c.1 true false)

/-! Mailboxes. Mailbox 0 is the BAR0 mailbox, mailbox 1 the two-wire one (R465, R504). -/

def mbPend (m : Nat) : Fld := if m = 0 then .MB_STAT_PEND else .TW_MBSTAT_PEND
def mbRsp (m : Nat) : Fld := if m = 0 then .MB_STAT_RSP else .TW_MBSTAT_RSP
def mbErr (m : Nat) : Fld := if m = 0 then .MB_STAT_ERR else .TW_MBSTAT_ERR
def mbReqAt (m : Nat) : Nat := if m = 0 then 0x9400 else 0x301000
def mbRspAt (m : Nat) : Nat := if m = 0 then 0x9800 else 0x301400

/-- A request waits in mailbox m. -/
def State.mbWaits (s : State) (m : Nat) : Bool := s.on (mbPend m) 0

/-- The firmware is free to take mailbox requests: no hard repair or retirement is under way (R475). -/
def State.fwFree (s : State) : Bool := !([0, 1].any fun t => s.rd .X_REP_OP t == 2 || s.rd .X_REP_OP t == 4)

/-- It is mailbox m's turn (R463). -/
def State.mbTurn (s : State) (m : Nat) : Bool :=
  s.fwRuns && s.fwFree && s.mbWaits m && (!s.mbWaits (1 - m) || s.rd .X_MB_FIRST 0 == m)

/-- The request that mailbox m holds. -/
def State.mbReq (s : State) (m : Nat) : List Byte := s.getWins (mbReqAt m) 1024

/-- A response message (R461). -/
def respMsg (req : List Byte) (status : Nat) (payload : List Byte) : List Byte :=
  sliceBytes req 0 2 ++ leBytes 2 payload.length ++ sliceBytes req 4 4 ++ leBytes 1 status ++ leBytes 7 0 ++ payload

/-- A response goes to mailbox m (R465, R504). -/
def mbAnswer (s : State) (m : Nat) (msg : List Byte) : State :=
  let s := ((s.setWins (mbRspAt m) msg).clr (mbPend m) 0).set (mbRsp m) 0
  let s := s.wr .X_MB_FIRST 0 (1 - m)
  if m = 0 then s.msix 1 else s.alert 2

/-- Packets of at most n bytes. -/
def chunksOf (n : Nat) : Nat → List Byte → List (List Byte)
  | 0, _ => []
  | k + 1, l => if l.length ≤ n then [l] else l.take n :: chunksOf n k (l.drop n)

/-- Transmission unit of the PCI Express binding: 64 bytes until the bus owner selects 256 (R479). -/
def State.mctpUnit (s : State) : Nat := if s.on .X_MCTP_TU 0 then 256 else 64

/-- An MCTP message goes out on a binding: as packets of 64 bytes that wait for the two-wire bus, or as vendor-defined messages of the port, routed as
the requester addressed the device (R479, R480, R508). -/
def mctpSend (s : State) (b : Bind) (msg : List Byte) : State :=
  match b with
  | .twoWire => { s with mctpq := s.mctpq ++ [chunksOf 64 (msg.length + 1) msg] }
  | .rootComplex => s.emit (.mctp none (chunksOf s.mctpUnit (msg.length + 1) msg))
  | .byId r => s.emit (.mctp (some r.toNat) (chunksOf s.mctpUnit (msg.length + 1) msg))

/-- MCTP messages of a binding are served. -/
def State.mctpUp (s : State) (b : Bind) : Bool := s.fwRuns && (b.ix == 0 || s.on .X_PORT_UP 0)

/-- The request of a route, if it is served now: an MCTP message after the requests that the mailboxes delivered before it (R463). -/
def State.request (s : State) : Via → Option (List Byte)
  | .mbox => if s.mbTurn 0 then some (s.mbReq 0) else none
  | .twMbox => if s.mbTurn 1 then some (s.mbReq 1) else none
  | .mctp b r => if s.mctpUp b && s.fwFree && !s.mbWaits 0 && !s.mbWaits 1 then some r else none

/-- Answer a request on its route. -/
def answer (s : State) (v : Via) (req : List Byte) (status : Nat) (payload : List Byte) : State :=
  match v with
  | .mbox => mbAnswer s 0 (respMsg req status payload)
  | .twMbox => mbAnswer s 1 (respMsg req status payload)
  | .mctp b _ => mctpSend { s with mctpin := [] } b (respMsg req status payload)

/-- CMD of a request. -/
def reqCmd (req : List Byte) : Nat := leNat (sliceBytes req 0 2)
/-- LEN of a request. -/
def reqLen (req : List Byte) : Nat := leNat (sliceBytes req 2 2)
/-- Payload of a request. -/
def reqPay (req : List Byte) : List Byte := sliceBytes req 16 (reqLen req)

/-- The CMD values of R468. -/
def knownCmd (c : Nat) : Bool := [1, 2, 3, 0x10, 0x11, 0x20].contains c

/-- The device has not reached SERVICE since its image started: in INIT, and in HOLD entered from it (R464). -/
def State.preService (s : State) : Bool := s.dev == devINIT || (s.dev == devHOLD && s.rd .DEV_STATE_INITSTEP 0 != 4)

/-- Status of a request whose CMD no command has (R462, R464, R466; log 87). -/
def State.unknownStatus (s : State) : Nat := if s.hot = .draining then 3 else if s.preService then 4 else 1

/-- Serve a request of a route whose CMD is cmd and whose payload has len bytes, by body. While a hot switch is under way every request is busy (R466);
before SERVICE only GET_INFO and GET_EVENTS are served (R464); a wrong length or header is refused (R462, R468). An MCTP message with a CMD that no command has is
answered so; a mailbox's is answered by serveUnknown. -/
def serve (s : State) (v : Via) (cmd len : Nat) (body : State → List Byte → Nat × List Byte × State) : State :=
  match s.request v with
  | none => s
  | some req =>
    if reqCmd req ≠ cmd then
      match v with
      | .mctp _ _ => if knownCmd (reqCmd req) then s else answer (bankRead s) v req s.unknownStatus []
      | _ => s
    else
      let s := bankRead s
      if s.hot = .draining then answer s v req 3 []
      else if s.preService ∧ cmd ≠ 1 ∧ cmd ≠ 3 then answer s v req 4 []
      else if reqLen req ≠ len ∨ leNat (sliceBytes req 8 8) ≠ 0 then answer s v req 2 []
      else
        let x := body s (reqPay req)
        answer x.2.2 v req x.1 x.2.1

/-- Requests of the mailboxes with a CMD that no command has are answered (R462), in their turn. -/
def serveUnknown (s : State) : State :=
  [0, 1, 0].foldl (fun s m =>
    if s.mbTurn m && !knownCmd (reqCmd (s.mbReq m)) then
      mbAnswer s m (respMsg (s.mbReq m) s.unknownStatus [])
    else s) s

/-- DOORBELL of mailbox m (R465). -/
def mbDoorbell (s : State) (m v : Nat) : State :=
  if !bitOf v 0 then s
  else if s.mbWaits m then s.set (mbErr m) 0
  else
    let s := if s.mbWaits (1 - m) then s else s.wr .X_MB_FIRST 0 m
    serveUnknown (s.set (mbPend m) 0)

def execMbDoorbell (r : Route) (s : State) : Host.Outcome State Fault Refusal :=
  live s fun s => gate r 0x9000 (fun s => mbDoorbell s 0 1) s

def execTwMbDoorbell (r : Route) (s : State) : Host.Outcome State Fault Refusal :=
  live s fun s => gate r 0x300040 (fun s => mbDoorbell s 1 1) s

/-! GET_INFO, GET_MEAS, NVM_READ (R468, R476). -/

/-- GET_INFO's payload. -/
def State.infoPay (s : State) : List Byte :=
  let i := s.running
  leBytes 4 ((i.map FwImage.fwver).getD 0) ++ leBytes 4 ((i.map FwImage.svn).getD 0)
    ++ leBytes 1 (s.rd .DEV_STATE_BANK 0 + 2 * s.rd .DEV_STATE_NONAPPR 0 + 4 * s.rd .DEV_STATE_HR_PEND 0) ++ leBytes 7 0

def execGetInfo (v : Via) (s : State) : Host.Outcome State Fault Refusal :=
  live s fun s => serveUnknown (serve s v 1 0 fun s _ => (0, s.infoPay, s))

/-- The image in the idle bank. -/
def State.idleImage (s : State) : Option FwImage := if s.on .DEV_STATE_BANK 0 then s.bankA else s.bankB

/-- BODYHASH of an image. -/
def bodyHash (i : Option FwImage) : List Byte := match i with | some i => sliceBytes i.bytes 32 48 | none => List.replicate 48 0

/-- The value of a measurement (R476). -/
def State.measValue (s : State) (i : Nat) : List Byte :=
  match i with
  | 1 => leBytes 48 Config.romDigest
  | 2 => bodyHash s.running
  | 3 => leBytes 4 ((s.running.map FwImage.fwver).getD 0) ++ leBytes 4 ((s.running.map FwImage.svn).getD 0) ++ leBytes 4 (s.rd .RND_STAT_ASC 0)
  | 4 => if s.on .DEV_STATE_HR_PEND 0 then bodyHash s.idleImage else List.replicate 48 0
  | 5 => leBytes 1 (s.rd .DEV_STATE_NONAPPR 0 + (if s.rd .RND_STAT_DBGLVL 0 ≠ 0 then 2 else 0)
      + (match s.running with | some i => if i.eng then 4 else 0 | none => 0)) ++ leBytes 3 0
  | _ => leBytes 4 (s.rd .DEV_REV_STEP 0 + 256 * s.rd .DEV_REV_ROMVER 0)

/-- A measurement block: index, specification, size, and the value with its type (R476). -/
def State.measBlock (s : State) (i : Nat) : List Byte :=
  let v := s.measValue i
  leBytes 1 i ++ [1] ++ leBytes 2 (v.length + 3) ++ [Config.measType i] ++ leBytes 2 v.length ++ v

def execGetMeas (v : Via) (s : State) : Host.Outcome State Fault Refusal :=
  live s fun s => serveUnknown (serve s v 2 1 fun s p =>
    let i := (p.getD 0 0).toNat
    if 1 ≤ i ∧ i ≤ 6 then (0, s.measBlock i, s) else (2, [], s))

def execNvmRead (v : Via) (s : State) : Host.Outcome State Fault Refusal :=
  live s fun s => serveUnknown (serve s v 0x10 4 fun s p =>
    let o := leNat (sliceBytes p 0 2)
    let n := leNat (sliceBytes p 2 2)
    if o + n ≤ 65536 ∧ n ≤ 1008 then (0, s.getNvms o n, s) else (2, [], s))

/-- CAL_WRITEBACK (R468): the write-back of R210, to its end; differs says that the read-back differs. -/
def execCalWriteback (v : Via) (differs : Bool) (s : State) : Host.Outcome State Fault Refusal :=
  live s fun s => serveUnknown (serve s v 0x11 0 fun s _ =>
    if s.on .CAL_STAT_WBBUSY 0 then (3, [], s)
    else
      let s := calCmd s 1
      if s.on .CAL_STAT_WBBUSY 0 then
        let s := wbEnd s differs
        (if s.rd .CAL_CMD_RESULT 0 = 0 then 0 else 5, leBytes 1 (s.rd .CAL_CMD_RESULT 0), s)
      else (6, leBytes 1 (s.rd .CAL_CMD_RESULT 0), s))

/-! Events (R469 to R471). -/

/-- An event record (R470). -/
def EvRec.image (e : EvRec) : List Byte := leBytes 2 (e.msg.src + 4096 * e.msg.kind) ++ leBytes 6 e.msg.addr ++ leBytes 8 e.epoch

/-- MGT_EVSTAT.QUEUED follows the queue. -/
def evShow (s : State) : State := s.wr .MGT_EVSTAT_QUEUED 0 s.hostq.length

/-- Queue sequence number of the record with n records at or after it in the queue (R471). -/
def State.evSeq (s : State) (n : Nat) : Nat := (s.rd .X_EV_TOTAL 0 + 2 ^ 32 - n) % 2 ^ 32

def execGetEvents (v : Via) (s : State) : Host.Outcome State Fault Refusal :=
  live s fun s => serveUnknown (serve s v 3 2 fun s p =>
    let m := leNat (sliceBytes p 0 2)
    if 62 < m then (2, [], s)
    else
      let l := s.hostq.take m
      let seq := s.evSeq s.hostq.length
      let s := evShow { s with hostq := s.hostq.drop m }
      (0, leBytes 2 l.length ++ leBytes 2 s.hostq.length ++ leBytes 4 seq ++ leBytes 4 (s.rd .MGT_EVSTAT_LOST 0) ++ leBytes 4 0
        ++ (l.map EvRec.image).flatten, s))

/-- EVENT_DRAIN (R469): the oldest entry of the hardware buffer goes into the host event queue, not before SERVICE (R52) and while the firmware runs. The read
is checked (R559): parity says that the entry's parity is bad. The record of a discarded alert makes none pending (R506). -/
def execEventDrain (parity : Bool) (s : State) : Host.Outcome State Fault Refusal :=
  live s fun s =>
    match s.evbuf with
    | [] => s
    | e :: r =>
      if !s.fwRuns || s.hot == .switched || s.preService then s
      else
        let s := bankRead { s with evbuf := r }
        let x := takeInj s 0x15
        let s := x.2
        let s := if x.1.isSome then s.raise 1074 msgCHECK (injAddr 0 (!parity) parity)
          else if parity then s.raise 1074 msgCHECK 0 else s
        let s := if 4096 ≤ s.hostq.length then
            { s with hostq := s.hostq.drop 1 ++ [e] }.incSat .MGT_EVSTAT_LOST 0 1
          else { s with hostq := s.hostq ++ [e] }
        let s := evShow (s.incWrap .X_EV_TOTAL 0 1)
        if e.msg.src = 1055 ∧ e.msg.kind = msgCANCEL then s else s.alert 0

/-! The budget check (R472 to R474). -/

/-- Highest line rate, in kb/s, that the side of a path's link can reach: side 0 is the partners of the A ports. -/
def State.topKbps (s : State) (p side : Nat) : Nat :=
  match s.linkOf (p / 2) with
  | some L =>
    let pr := s.rd .LINK_CFG_PROTO L
    if pr = 1 ∨ pr = 2 then
      pcieKbps (match s.termAt L side with
        | some t => s.rd .LT_PCI_CFG_MAXRATE t
        | none => s.rd .LNK_PCI_MAXRATE L)
    else if pr = 3 then ethKbps (s.rd .LNK_ETH_LRATE L)
    else s.rd .RAW_RATE_KBPS (s.govLane (p / 2))
  | none => s.rd .RAW_RATE_KBPS (p / 2)

/-- Lanes that a path's link declares. -/
def State.topLanes (s : State) (p : Nat) : Nat :=
  match s.linkOf (p / 2) with
  | some L => s.linkWidth L
  | none => 1

/-- A stream whose capture is on or has a pending CAPON. -/
def State.capCounts (s : State) (p : Nat) : Bool :=
  s.on .STRM_CFG_ON p || (s.getStrm p).pend.any (·.kind == .on) || (s.getStrm p).mpend.any (·.kind == .on)

/-- Worst-case demand of a tower, in kb/s times thousandths (R472). -/
def State.worst (s : State) (t : Nat) : Nat :=
  ((List.range 512).map fun p =>
    let cap := if s.capCounts p && s.punTower (s.rd .STRM_CFG_PUN p) == t then
        let k := s.topKbps p (1 - txSide p)
        k * s.topLanes p * s.formFactor p k
      else 0
    let load := match s.towerLoad p with
      | some (u, 2) => if u = t then 2000 * s.topKbps p (1 - txSide p) else 0
      | some (u, _) => if u = t then
          let k := s.topKbps p (txSide p)
          k * s.topLanes p * s.formFactor (s.rd .RPL_CFG_STREAM p) k
        else 0
      | none => 0
    cap + load).sum

/-- Worst-case demand in GB/s, rounded up. -/
def State.demandGB (s : State) (t : Nat) : Nat := (s.worst t + 7999999999) / 8000000000

/-- WARN of a tower (R473). -/
def State.warns (s : State) (t : Nat) : Bool := decide (s.capCeil t / 128 * 8000000000 < s.worst t)

/-- The 16 bytes of a tower (R473). -/
def State.budgetPay (s : State) (t : Nat) : List Byte :=
  leBytes 4 (s.demandGB t) ++ leBytes 4 (s.capCeil t / 128) ++ leBytes 4 (s.rd .PRS_CEIL_CEIL t)
    ++ leBytes 1 ((if s.warns t then 1 else 0) + 2 * s.rd .TWR_STAT_REF2X t) ++ leBytes 3 0

/-- The check of a tower is made: an event for each change of WARN from 0 to 1 under AUTO (R474). -/
def budgetNote (s : State) (auto : Bool) : State :=
  s.each [0, 1] fun s t =>
    let w := s.warns t
    let s := if auto && w && !s.on .X_BUDGET t then s.raise 1072 msgLIMIT t else s
    s.wrB .X_BUDGET t w

def execBudget (v : Via) (s : State) : Host.Outcome State Fault Refusal :=
  live s fun s => serveUnknown (serve s v 0x20 1 fun s p =>
    let b := (p.getD 0 0).toNat
    if 4 ≤ b then (2, [], s)
    else
      let s := if bitOf b 1 then s.wrB .MGT_CTL_AUTO 0 (bitOf b 0) else s
      (0, s.budgetPay 0 ++ s.budgetPay 1, s))

/-- The firmware repeats the check while AUTO = 1 (R474). -/
def budgetAuto (s : State) : State := if s.fwRuns && s.on .MGT_CTL_AUTO 0 && decide (devSERVICE ≤ s.dev) then budgetNote (bankRead s) true else s

/-- BUDGET_AUTO_CHECK (R474). -/
def execBudgetAutoCheck (s : State) : Host.Outcome State Fault Refusal := live s budgetAuto

/-- HOUSEKEEPING_ROUND_END. A change of a tower's ceiling repeats the budget check under AUTO (R398, R474). -/
def execHousekeepingRoundEnd (s : State) : Host.Outcome State Fault Refusal :=
  aonLive s fun s =>
    let t := roundEnd s
    if [0, 1].any fun i => s.rd .TWR_STAT_REF2X i != t.rd .TWR_STAT_REF2X i then budgetAuto t else t

/-! The ends of a hard repair and of a retirement: what waited for them is served (R462, R475). -/

/-- HARD_REPAIR_DONE (R437, R475). -/
def execHardRepairDone (t : Fin 2) (s : State) : Host.Outcome State Fault Refusal := live s fun s => serveUnknown (hardRepairEnd s t)

/-- RETIRE_DONE (R441, R442, R475). -/
def execRetireDone (t : Fin 2) (s : State) : Host.Outcome State Fault Refusal := live s fun s => serveUnknown (retireEnd s t)

/-! MCTP control messages (R479). -/

/-- Serve an MCTP message of a binding. -/
def mctpServe (s : State) (b : Bind) (f : State → State) : State :=
  if s.mctpUp b then f (bankRead { s with mctpin := if b.ix = 0 then [] else s.mctpin }) else s

/-- Serve an MCTP control message: while a hot switch is under way it is answered busy (R56), with a completion code that the spec does not name. -/
def mctpControl (s : State) (b : Bind) (f : State → State) : State :=
  mctpServe s b fun s => if s.hot = .draining then mctpSend s b [Config.mctpBusy] else f s

/-- SET_ENDPOINT_ID (R479). wide: the bus owner selects the transmission unit of the PCI Express binding with it, 256 bytes (true) or 64; by what message
it does so the spec does not say (log 105). -/
def execSetEndpointId (b : Bind) (eid : Byte) (wide : Option Bool) (s : State) : Host.Outcome State Fault Refusal :=
  live s fun s => mctpControl s b fun s =>
    let s := match b, wide with
      | .twoWire, _ | _, none => s
      | _, some w => s.wrB .X_MCTP_TU 0 w
    mctpSend (s.wr .X_EID b.ix eid.toNat) b [0, eid]

def execGetEndpointId (b : Bind) (s : State) : Host.Outcome State Fault Refusal :=
  live s fun s => mctpControl s b fun s => mctpSend s b (0 :: leBytes 1 (s.rd .X_EID b.ix))

def execGetMctpVersionSupport (b : Bind) (s : State) : Host.Outcome State Fault Refusal :=
  live s fun s => mctpControl s b fun s => mctpSend s b (0 :: Config.mctpVersions)

/-- Types 0x00, 0x05, 0x06 and 0x7E. -/
def execGetMessageTypeSupport (b : Bind) (s : State) : Host.Outcome State Fault Refusal :=
  live s fun s => mctpControl s b fun s => mctpSend s b [0, 4, 0x00, 0x05, 0x06, 0x7E]

def execGetEndpointUuid (b : Bind) (s : State) : Host.Outcome State Fault Refusal :=
  live s fun s => mctpControl s b fun s => mctpSend s b (0 :: leBytes 16 Config.uuid)

/-! SPDM (R481, R482). -/

/-- The responder's answer goes out. -/
def spdmSend (s : State) (b : Bind) (a : SpdmAns) (l : List Byte) : State := mctpSend (s.emit (.spdm b.ix a l)) b l

/-- Serve an SPDM request: busy while a hot switch is under way, unexpected before the connection has come to a stage. -/
def spdmServe (s : State) (b : Bind) (stage : Nat) (f : State → State) : State :=
  mctpServe s b fun s =>
    if s.hot = .draining then spdmSend s b .busy []
    else if s.rd .X_SPDM b.ix < stage then spdmSend s b .unexpectedRequest []
    else f s

/-- A response that the device key signs (R482): refused in the Rind's error state and after DECOMMISSION (R529, R536). The signature is free. -/
def spdmSigned (s : State) (b : Bind) (l : List Byte) (f : State → State) : State :=
  if s.on .RND_STAT_ERROR 0 || s.on .RND_STAT_DECOM 0 then spdmSend s b .unspecified []
  else if s.on .RND_STAT_BUSY 0 then spdmSend s b .busy []
  else
    let x := s.freshBytes 96
    spdmSend (f x.2) b .ok (l ++ x.1)

/-- GET_VERSION answers 1.3, and the connection begins anew. -/
def execGetVersion (b : Bind) (s : State) : Host.Outcome State Fault Refusal :=
  live s fun s => spdmServe s b 0 fun s => spdmSend (s.wr .X_SPDM b.ix 1) b .ok [0x00, 0x13]

def execGetCapabilities (b : Bind) (s : State) : Host.Outcome State Fault Refusal :=
  live s fun s => spdmServe s b 1 fun s =>
    let x := s.freshBytes 4
    spdmSend (x.2.wr .X_SPDM b.ix 2) b .ok x.1

/-- NEGOTIATE_ALGORITHMS selects ECDSA P-384, SHA-384, secp384r1 and AES-256-GCM (R481): BaseAsymSel, BaseHashSel, DHE and AEAD, in the codes of DMTF's
DSP0274 (PRESUMED, log 106). -/
def execNegotiateAlgorithms (b : Bind) (s : State) : Host.Outcome State Fault Refusal :=
  live s fun s => spdmServe s b 2 fun s =>
    spdmSend (s.wr .X_SPDM b.ix 3) b .ok (leBytes 4 0x80 ++ leBytes 4 0x02 ++ leBytes 2 0x10 ++ leBytes 2 0x02)

def execGetDigests (b : Bind) (s : State) : Host.Outcome State Fault Refusal :=
  live s fun s => spdmServe s b 3 fun s => spdmSend s b .ok (leBytes 1 1 ++ leBytes 48 Config.certDigest)

/-- Serve a request that names a certificate slot: only slot 0 is populated (R481). -/
def spdmSlot (s : State) (b : Bind) (slot : Fin 8) (f : State → State) : State :=
  spdmServe s b 3 fun s => if slot ≠ 0 then spdmSend s b .invalidRequest [] else f s

/-- GET_CERTIFICATE returns a portion of the chain of slot 0 (R516). -/
def execGetCertificate (b : Bind) (slot : Fin 8) (ofs len : BitVec 16) (s : State) : Host.Outcome State Fault Refusal :=
  live s fun s => spdmSlot s b slot fun s => spdmSend s b .ok ((Config.certChain.drop ofs.toNat).take len.toNat)

def execChallenge (b : Bind) (slot : Fin 8) (s : State) : Host.Outcome State Fault Refusal :=
  live s fun s => spdmSlot s b slot fun s => spdmSigned s b (leBytes 48 Config.certDigest) id

/-- GET_MEASUREMENTS: the block of an index; index 0 the number of blocks, 0xFF all blocks. A signature is asked of the key of a slot. -/
def execGetMeasurements (b : Bind) (slot : Fin 8) (index : Byte) (signed : Bool) (s : State) : Host.Outcome State Fault Refusal :=
  live s fun s => spdmSlot s b (if signed then slot else 0) fun s =>
    let l := if index = 0 then [6] else if index = 0xFF then ([1, 2, 3, 4, 5, 6].map s.measBlock).flatten
      else if index.toNat ≤ 6 then s.measBlock index.toNat else []
    if l = [] then spdmSend s b .unspecified []
    else if signed then spdmSigned s b l id else spdmSend s b .ok l

/-- KEY_EXCHANGE: at most two sessions across both bindings. -/
def execKeyExchange (b : Bind) (slot : Fin 8) (s : State) : Host.Outcome State Fault Refusal :=
  live s fun s => spdmSlot s b slot fun s =>
    if 2 ≤ s.spdm.length then spdmSend s b .sessionLimitExceeded []
    else
      let id := (s.rd .X_SPDM_ID 0 + 1) % 2 ^ 16
      spdmSigned s b (leBytes 2 id) fun s => ({ s with spdm := s.spdm ++ [⟨id, b.ix, false⟩] } : State).wr .X_SPDM_ID 0 id

/-- A request within a session of the binding, established when est. -/
def spdmIn (s : State) (b : Bind) (id : Nat) (est : Bool) (f : State → State) : State :=
  spdmServe s b 0 fun s =>
    if s.spdm.any fun x => x.id == id && x.binding == b.ix && x.established == est then spdmSend (f s) b .ok [] else spdmSend s b .invalidSession []

def execFinish (b : Bind) (id : BitVec 16) (s : State) : Host.Outcome State Fault Refusal :=
  live s fun s => spdmIn s b id.toNat false fun s =>
    { s with spdm := s.spdm.map fun (x : SpdmSess) => if x.id == id.toNat then ⟨x.id, x.binding, true⟩ else x }

def execHeartbeat (b : Bind) (id : BitVec 16) (s : State) : Host.Outcome State Fault Refusal :=
  live s fun s => spdmIn s b id.toNat true fun s => s

/-- KEY_UPDATE: the session's keys, which no register shows, are updated. -/
def execKeyUpdate (b : Bind) (id : BitVec 16) (s : State) : Host.Outcome State Fault Refusal :=
  live s fun s => spdmIn s b id.toNat true fun s => s

def execEndSession (b : Bind) (id : BitVec 16) (s : State) : Host.Outcome State Fault Refusal :=
  live s fun s => spdmIn s b id.toNat true fun s => { s with spdm := s.spdm.filter fun x => x.id != id.toNat }

end Sys2Proof.Machine
end

