-- ==== Sys2Proof/Machine/Rind.lean ====
section
/-! DEFINITION. The Rind: its commands (R517 to R526, R536 to R538), self-tests and error state (R527 to R529), approved mode (R530), zeroisation
(R523, R524, R534), debug unlock and the TAP (R532, R533). What its cryptography finds for a command is an operand of the command. -/
namespace Sys2Proof.Machine

/-- RND_STAT.APPR (R530). -/
def apprShow (s : State) : State := s.wrB .RND_STAT_APPR 0 (!s.unlocked && !s.on .RND_STAT_ERROR 0)

/-- RND_NONCE, 32 bytes. -/
def State.nonce (s : State) : List Byte := s.getWins 0x500100 32

/-- A fresh nonce from the DRBG (R519). -/
def nonceNew (s : State) : State := let x := s.freshBytes 32; x.2.setWins 0x500100 x.1

/-- Bytes from a to b - 1 of the windows read zero again. -/
def winClear (s : State) (a b : Nat) : State := { s with win := s.win.filter fun e => !(decide (a ≤ e.1 ∧ e.1 < b)) }

/-! Images (R39, R49, R529). -/

/-- An image check fails: its code in LASTERR, the image is discarded, and a boot load returns the device to ROM (R39). -/
def imageFail (s : State) (code : Nat) : State :=
  let s := loadAbort s
  let s := ((s.wr .DEV_STATE_LASTERR 0 code).set .FW_MBX_STAT_ERR 0).clr .FW_MBX_STAT_ACCEPTED 0
  s.alert 3

/-! Keys (R520 to R524). -/

/-- Whether punnet k's key is held, as RND_PKEY shows it. -/
def pkeyShow (s : State) (k : Nat) : State := s.wrBit .RND_PKEY_LOADED (k / 32) (k % 32) (s.punKey k).isSome

/-- An IDE key set of a binding. -/
def State.ikey (s : State) (b set_ : Nat) : Option (List Byte) := nget s.ikeys none (2 * b + set_)

/-- RND_IKEY and IDE_STAT.KEY of a binding follow its key sets (R524). -/
def ikeyShow (s : State) (b : Nat) : State :=
  let s := [0, 1].foldl (fun s j => s.wrBit .RND_IKEY_LOADED (b / 16) (2 * (b % 16) + j) (s.ikey b j).isSome) s
  s.wrB .IDE_STAT_KEY b ((s.ikey b 0).isSome || (s.ikey b 1).isSome)

/-- The punnet is enabled with ENC = 1. -/
def State.punEncOn (s : State) (k : Nat) : Bool := s.on .PUN_CFG_EN k && s.punEnc k

/-- The key of punnet k is destroyed (R523). -/
def pkeyLose (s : State) (k : Nat) : State :=
  if (s.punKey k).isNone then s
  else
    let s := pkeyShow { s with pkeys := nset s.pkeys none k none } k
    if s.punEncOn k then
      let s := (s.setEnc (2 * k) none).setEnc (2 * k + 1) none
      let s := if s.punTakes k then (s.wr .PUN_STAT_STATE k pSTOPPED).msix 28 else s
      s.each ((List.range 512).filter fun p => s.replaying p && s.rd .RPL_CFG_PUN p == k && (s.getRpl p).isSome) fun s p =>
        pathEventNext (refreshPath (((s.setRpl p none).set .RPL_STAT_DONE p).emit (.txIdle p)) p) p msgSTATE
    else s

/-- A key set of a binding is destroyed (R524). -/
def ikeyLose (s : State) (b set_ : Nat) : State :=
  if (s.ikey b set_).isNone then s
  else ikeyShow ({ s with ikeys := nset s.ikeys none (2 * b + set_) none }.clr .IDE_STAT_SYNC b) b

/-- The session ends and its KLK goes (R519). -/
def sessClose (s : State) : State := { s with klk := none }.clr .RND_STAT_SESS 0

/-- Some key is held. -/
def State.holdsKey (s : State) : Bool := s.pkeys.any (·.2.isSome) || s.ikeys.any (·.2.isSome) || s.klk.isSome

/-- Every volatile secret is zeroised (R523, R534, R535). -/
def zeroise (s : State) : State :=
  let s := if s.holdsKey && !s.on .RND_STAT_ERROR 0 then s.raise 1056 msgSECURITY 0 else s
  let s := s.each (List.range 256) pkeyLose
  let s := s.each (List.range 128) fun s b => ikeyLose (ikeyLose s b 0) b 1
  ({ sessClose s with spdm := [] }).incSat .RND_ZCNT_COUNT 0 1

/-- The error state (R529). -/
def rindFail (s : State) : State :=
  let s := (s.set .RND_STAT_ERROR 0).raiseCause 1056 msgSECURITY 0
  let s := apprShow (zeroise s)
  if s.on .X_FW_CHK 0 then imageFail s 4 else s

/-! Commands: each answers its RESULT and its effect. -/

/-- OPEN (R518, R519). Hashes of operator keys are held by the keys they are of. ok: the signature verifies. The KLK and the output, which come from the
Rind's own random pair and the device key, are free. -/
def rndOpen (s : State) (input : List Byte) (ok : Bool) : Nat × State :=
  let slot := (input.getD 0 0).toNat
  let used := nonceNew s
  if 4 ≤ slot ∨ leNat (sliceBytes input 1 7) ≠ 0 then (3, used)
  else if !s.bit .RND_STAT_OPSLOT 0 slot || s.bit .RND_STAT_OPREV 0 slot || nget s.opHash [] slot != sliceBytes input 8 96 || !ok then (4, used)
  else
    let k := used.freshBytes 32
    let o := k.2.freshBytes 192
    let s := ({ o.2 with klk := some k.1 }.set .RND_STAT_SESS 0).wr .X_RND_SLOT 0 slot
    (0, (winClear s 0x501400 0x501800).setWins 0x501400 o.1)

/-- LOADPK (R520, R521): plain is what the unwrap yields. -/
def rndLoadpk (s : State) (k : Nat) (plain : Option (List Byte)) : Nat × State :=
  match plain with
  | none => (5, s)
  | some p =>
    if p.length ≠ 72 ∨ p.take 8 ≠ [1] ++ leBytes 1 k ++ leBytes 6 0 then (5, s)
    else if sliceBytes p 8 32 = sliceBytes p 40 32 then (3, s)
    else if s.punEncOn k then (6, s)
    else (0, pkeyShow { s with pkeys := nset s.pkeys none k (some (leNat (p.drop 8))) } k)

/-- GENPK (R522): both keys are drawn from the DRBG, so they are free. -/
def rndGenpk (s : State) (k : Nat) : Nat × State :=
  if s.punEncOn k then (6, s)
  else
    let x := s.freshNat
    (0, pkeyShow { x.2 with pkeys := nset s.pkeys none k (some (x.1 % 2 ^ 512)) } k)

/-- LOADIDE (R520, R521). The counters of a binding whose keys are loaded are in step, for every sub-stream (R386). -/
def rndLoadide (s : State) (b arg1 : Nat) (plain : Option (List Byte)) : Nat × State :=
  if 128 ≤ b ∨ 2 ≤ arg1 then (3, s)
  else match plain with
    | none => (5, s)
    | some p =>
      if p.length ≠ 128 ∨ p.take 8 ≠ [2] ++ leBytes 1 b ++ leBytes 1 arg1 ++ leBytes 5 0 then (5, s)
      else if s.rd .X_IDE_LAST b = 1 + arg1 then (6, s)
      else (0, ikeyShow ({ s with ikeys := nset s.ikeys none (2 * b + arg1) (some (p.drop 8)) }.set .IDE_STAT_SYNC b |>.clr .X_IDE_OFF b) b)

/-- CLEARKEY (R523, R524). -/
def rndClearkey (s : State) (i arg1 : Nat) : Nat × State :=
  if 3 ≤ arg1 ∨ (arg1 ≠ 0 ∧ 128 ≤ i) then (3, s)
  else
    let held := if arg1 = 0 then (s.punKey i).isSome else (s.ikey i (arg1 - 1)).isSome
    let s := if held then s.raise 1056 msgSECURITY 0 else s
    (0, if arg1 = 0 then pkeyLose s i else ikeyLose s i (arg1 - 1))

/-- ADVSVN (R525, R526). -/
def rndAdvsvn (s : State) (v : Nat) : Nat × State :=
  if s.rd .RND_STAT_ASC 0 = 64 then (8, s)
  else if !s.advRange v then (9, s)
  else
    let s := s.wr .RND_STAT_ASC 0 v
    match s.idleImage with
    | some i =>
      if s.on .DEV_STATE_HR_PEND 0 && decide (i.svn < v) then
        let s := s.clr .DEV_STATE_HR_PEND 0
        (0, if s.on .DEV_STATE_BANK 0 then { s with bankA := none } else { s with bankB := none })
      else (0, s)
    | none => (0, s)

/-- ENROLL (R517). -/
def rndEnroll (s : State) (slot : Nat) (input : List Byte) : Nat × State :=
  if 4 ≤ slot then (3, s)
  else if s.bit .RND_STAT_OPSLOT 0 slot || s.bit .RND_STAT_OPREV 0 slot then (8, s)
  else (0, { s with opHash := nset s.opHash [] slot (input.take 96) }.wrBit .RND_STAT_OPSLOT 0 slot true)

/-- REVOKE (R517). -/
def rndRevoke (s : State) (slot : Nat) : Nat × State :=
  if 4 ≤ slot then (3, s)
  else if s.rd .X_RND_SLOT 0 = slot then (2, s)
  else if s.bit .RND_STAT_OPREV 0 slot then (8, s)
  else (0, s.wrBit .RND_STAT_OPREV 0 slot true)

/-- A debug token's fields are right (R533). -/
def State.tokenOk (s : State) (t : List Byte) : Bool :=
  let lvl := (t.getD 4 0).toNat
  t.take 4 == [0x44, 0x42, 0x47, 0x54] && (lvl == 1 || lvl == 2) && leNat (sliceBytes t 5 3) == 0
    && sliceBytes t 8 8 == leBytes 8 (s.rd .RND_SERIAL_SERIAL 0) && sliceBytes t 16 32 == s.nonce

/-- A debug unlock (R519, R531, R533). ok: the signature verifies under a key allowed for the token's level. -/
def rndUnlock (s : State) (t : List Byte) (ok : Bool) : Nat × State :=
  if s.tokenOk t && ok then
    let lvl := (t.getD 4 0).toNat
    let s := zeroise (nonceNew s)
    let s := (s.wr .RND_STAT_DBGLVL 0 lvl).set .DEV_STATE_NONAPPR 0
    (0, (apprShow s).raise 1073 msgSECURITY lvl)
  else (4, nonceNew s)

/-- DECOMMISSION (R536). -/
def rndDecommission (s : State) (arg0 : Nat) : Nat × State := if arg0 = 0xA5 then (0, zeroise (s.set .RND_STAT_DECOM 0)) else (3, s)

/-- A command needs the Crypto Officer's session (R513, R537); ENROLL not at first use (R517). -/
def State.needsSess (s : State) (cmd : Nat) : Bool :=
  [3, 4, 5, 6, 7, 9, 0xB, 0xE].contains cmd || (cmd == 0xA && s.rd .RND_STAT_OPSLOT 0 != 0)

/-- A command is not permitted: in the error state, in non-approved mode, or after DECOMMISSION (R529, R531, R536). -/
def State.rndBarred (s : State) (cmd : Nat) : Bool :=
  s.on .RND_STAT_ERROR 0 || (s.unlocked && [9, 0xA, 0xB].contains cmd) || (s.on .RND_STAT_DECOM 0 && cmd == 2)

/-- A command is carried out. -/
def rndDo (s : State) (j : RindJob) : Nat × State :=
  let plain := if j.ok then some j.plain else none
  if s.rndBarred j.cmd then (7, s)
  else if s.needsSess j.cmd && !s.on .RND_STAT_SESS 0 then (2, s)
  else match j.cmd with
    | 1 => (0, nonceNew s)
    | 2 => rndOpen s j.input j.ok
    | 3 => (0, sessClose s)
    | 4 => rndLoadpk s j.arg0 plain
    | 5 => rndGenpk s j.arg0
    | 6 => rndLoadide s j.arg0 j.arg1 plain
    | 7 => rndClearkey s j.arg0 j.arg1
    | 8 => (0, zeroise s)
    | 9 => rndAdvsvn s j.arg0
    | 0xA => rndEnroll s j.arg0 j.input
    | 0xB => rndRevoke s j.arg0
    | 0xD => rndUnlock s (j.input.take 240) j.ok
    | 0xE => rndDecommission s j.arg0
    | _ => (0, s)

/-- A command ends: its RESULT, and RND_IN cleared (R537, R538). -/
def rndFinish (s : State) (j : RindJob) : State :=
  let x := rndDo s j
  winClear ({ x.2 with rjob := none }.wr .RND_CMD_RESULT 0 x.1) 0x501000 0x501400

/-- Commands that end at once: NONCE, CLOSE, CLEARKEY, ZEROISE. -/
def rndQuick (cmd : Nat) : Bool := [1, 3, 7, 8].contains cmd

/-- A write of RND_CMD (R537). Services wait while self-tests run (R527, R528); SELFTEST begins them. -/
def rndStart (s : State) (cmd arg0 arg1 : Nat) (ok : Bool) (plain : List Byte) : State :=
  if s.rd .RND_CMD_RESULT 0 = 1 then s.set .RND_STAT_CMDERR 0
  else if cmd = 0 ∨ 0xE < cmd then s
  else
    let j : RindJob := ⟨cmd, arg0, arg1, s.getWins 0x501000 1024, ok, plain, []⟩
    if rndQuick cmd && !s.on .RND_STAT_BUSY 0 then rndFinish s j
    else
      let s := { s with rjob := some j }.wr .RND_CMD_RESULT 0 1
      if cmd = 0xC ∧ !s.on .RND_STAT_ERROR 0 then s.set .RND_STAT_BUSY 0 else s

/-- A write of RND_CMD from the readout port, the only route that reaches it (R512). -/
def rndWrite (s : State) (cmd arg0 arg1 : Nat) (ok : Bool) (plain : List Byte) : Host.Outcome State Fault Refusal :=
  live s fun s => gate .port 0x500010 (fun s => rndStart s cmd arg0 arg1 ok plain) s

def execNonce (s : State) : Host.Outcome State Fault Refusal := rndWrite s 1 0 0 true []
def execRndOpen (ok : Bool) (s : State) : Host.Outcome State Fault Refusal := rndWrite s 2 0 0 ok []
def execClose (s : State) : Host.Outcome State Fault Refusal := rndWrite s 3 0 0 true []
def execLoadpk (punnet : Byte) (plain : Option (List Byte)) (s : State) : Host.Outcome State Fault Refusal :=
  rndWrite s 4 punnet.toNat 0 plain.isSome (plain.getD [])
def execGenpk (punnet : Byte) (s : State) : Host.Outcome State Fault Refusal := rndWrite s 5 punnet.toNat 0 true []
def execLoadide (binding arg1 : Byte) (plain : Option (List Byte)) (s : State) : Host.Outcome State Fault Refusal :=
  rndWrite s 6 binding.toNat arg1.toNat plain.isSome (plain.getD [])
def execClearkey (index arg1 : Byte) (s : State) : Host.Outcome State Fault Refusal := rndWrite s 7 index.toNat arg1.toNat true []
def execZeroise (s : State) : Host.Outcome State Fault Refusal := rndWrite s 8 0 0 true []
def execAdvsvn (counter : Byte) (s : State) : Host.Outcome State Fault Refusal := rndWrite s 9 counter.toNat 0 true []
def execEnroll (slot : Byte) (s : State) : Host.Outcome State Fault Refusal := rndWrite s 0xA slot.toNat 0 true []
def execRevoke (slot : Byte) (s : State) : Host.Outcome State Fault Refusal := rndWrite s 0xB slot.toNat 0 true []
def execSelftest (s : State) : Host.Outcome State Fault Refusal := rndWrite s 0xC 0 0 true []
def execDbgunlock (ok : Bool) (s : State) : Host.Outcome State Fault Refusal := rndWrite s 0xD 0 0 ok []
def execDecommission (arg0 : Byte) (s : State) : Host.Outcome State Fault Refusal := rndWrite s 0xE arg0.toNat 0 true []

/-- The Rind runs: it serves ROM, and from INIT on with its domain on and clocked. -/
def State.rindRuns (s : State) : Bool := decide (s.dev < devINIT) || (s.pwrOn 45 && s.clkRuns 28)

/-- RIND_COMMAND_DONE (R537): the command in progress ends, once no self-test runs. -/
def execRindCommandDone (s : State) : Host.Outcome State Fault Refusal :=
  live s fun s =>
    match s.rjob with
    | some j => if s.on .RND_STAT_BUSY 0 then s else rndFinish s j
    | none => s

/-- RIND_SELFTEST_DONE (R527 to R529). With no self-test running it is the end of a test that runs continuously or on condition (R528, log 92), which changes nothing unless
it fails. -/
def execRindSelftestDone (ok : Bool) (s : State) : Host.Outcome State Fault Refusal :=
  live s fun s =>
    if s.on .RND_STAT_BUSY 0 then
      let s := s.clr .RND_STAT_BUSY 0
      let s := if ok then apprShow (nonceNew s) else rindFail s
      match s.rjob with
      | some j => if j.cmd = 0xC then rndFinish s j else s
      | none => s
    else if !ok && s.rindRuns && !s.on .RND_STAT_ERROR 0 then rindFail s
    else s

/-! The TAP (R532, R533). -/

/-- Debug level that serves an instruction. -/
def tapLevel : TapIr → Nat
  | .bypass | .idcode | .dbgauth => 0
  | .debug => 2
  | _ => 1

/-- What the selected register shifts out: the bypass bit, IDCODE (R636), or what boundary scan and the debug unit give. -/
def tapOut : TapIr → Nat
  | .bypass => 0
  | .idcode => 0x19256AB7
  | i => Config.tapData i.ctorIdx

/-- TAP_INSTRUCTION (R532): an instruction above the level in force selects BYPASS, and the debug source reports it. -/
def execTapInstruction (i : TapIr) (s : State) : Host.Outcome State Fault Refusal :=
  live s fun s =>
    if tapLevel i ≤ s.rd .RND_STAT_DBGLVL 0 then (s.wr .X_TAP_IR 0 i.ctorIdx).emit (.tdo (tapOut i))
    else ((s.wr .X_TAP_IR 0 TapIr.bypass.ctorIdx).raise 1073 msgREFUSE (s.rd .RND_STAT_DBGLVL 0)).emit (.tdo 0)

/-- TAP_DBGAUTH (R533): a token through the TAP, with the result in RND_CMD's codes; in progress while the Rind is busy with another command or its
self-tests. -/
def execTapDbgauth (token : List Byte) (ok : Bool) (s : State) : Host.Outcome State Fault Refusal :=
  live s fun s =>
    if s.rd .X_TAP_IR 0 ≠ TapIr.dbgauth.ctorIdx then s
    else if !s.rindRuns || s.rd .RND_CMD_RESULT 0 == 1 || s.on .RND_STAT_BUSY 0 then s.emit (.tdo 1)
    else if s.on .RND_STAT_ERROR 0 then s.emit (.tdo 7)
    else
      let x := rndUnlock s (sliceBytes token 0 240) ok
      x.2.emit (.tdo x.1)

end Sys2Proof.Machine
end

