-- ==== Sys2Proof/Machine/F5.lean ====
section
/-! DEFINITION. The MRN-5104 profile (R638 to R647): F5_CTL and the lanes' mode words. The periodic bursts of R645 stand with the units (f5Burst), capture
at switch points (R646) with the modes. -/
namespace Sys2Proof.Machine

/-! F5_CTL. -/

/-- Grove g may enter or leave the profile (R638): every path counts as DARK, its four threads are HALTED or FAULTED. -/
def State.f5May (s : State) (g : Nat) : Bool :=
  ((List.range 16).all fun j => s.laneDark (16 * g + j))
    && (List.range 4).all fun t => s.rd .SEQ_TSTAT_STATE (4 * g + t) == tHALTED || s.rd .SEQ_TSTAT_STATE (4 * g + t) == tFAULTED

/-- Every field of grove g's mode words returns to its reset value (R639). -/
def f5Words (s : State) (g : Nat) : State :=
  s.drop fun k => k.2 / 16 == g &&
    [Fld.F5_MODE_AB, .F5_MODE_BA, .F5_MODE_PAT, .F5_MODE_PROTO, .F5_MODE_WIDTH, .F5_MODE_RATE, .F5_MODE_ERRLOG, .F5_MODE_UPSIDE, .F5_MODE_SRIS,
      .F5_MODE_CODE].contains k.1

/-- An accepted change of EN bit g (R639). A grove that enters has mode words that declare an x1 raw link on each lane and no terminator. -/
def f5Change (s : State) (g : Nat) (en : Bool) : State :=
  let s := (s.wrBit .F5_CTL_EN 0 g en).wrBit .F5_STAT_ACT 0 g false
  let s := f5Words s g
  let s := if en then
      let s := s.each ((List.range 16).map (16 * g + ·)) fun s L => s.clr .LINK_CFG_EN L
      s.each [2 * g, 2 * g + 1] fun s t => s.clr .LT_CFG_EN t
    else s
  groveReset s g

/-- Write of F5_CTL (R638, R646). -/
def f5CtlSet (s : State) (v : Nat) : State :=
  let cap := s.rd .F5_CTL_CAP 0
  let s := s.wr .F5_CTL_CAP 0 (bitsOf v 31 16)
  let s := s.each (List.range 16) fun s g =>
    if bitOf cap g && !bitOf v (16 + g) && s.profiled g then
      s.each ((List.range 32).map (32 * g + ·)) fun s p => if s.govPath p = p then capOff s p (posAdd (s.pos p) 1) 0 else s
    else s
  s.each (List.range 16) fun s g =>
    if bitOf v g = s.bit .F5_CTL_EN 0 g then s
    else if s.f5May g then f5Change s g (bitOf v g)
    else s.set .F5_STAT_CTLERR 0

def execF5CtlWrite (r : Route) (v : DW) (s : State) : Host.Outcome State Fault Refusal :=
  live s fun s => gate r 0x700000 (fun s => f5CtlSet s v.toNat) s

/-! Mode words. -/

/-- A mode word's fields. -/
structure F5Word where
  ab : Nat
  ba : Nat
  pat : Nat
  proto : Nat
  width : Nat
  rate : Nat
  errlog : Nat
  upside : Nat
  sris : Nat

/-- The word of lane n. -/
def State.f5Word (s : State) (n : Nat) : F5Word :=
  ⟨s.rd .F5_MODE_AB n, s.rd .F5_MODE_BA n, s.rd .F5_MODE_PAT n, s.rd .F5_MODE_PROTO n, s.rd .F5_MODE_WIDTH n, s.rd .F5_MODE_RATE n,
    s.rd .F5_MODE_ERRLOG n, s.rd .F5_MODE_UPSIDE n, s.rd .F5_MODE_SRIS n⟩

/-- RATE is defined for PROTO: 0 raw, 1 PCIe, 2 CXL, 3 Ethernet. -/
def f5RateOk (proto rate : Nat) : Bool :=
  match proto with
  | 0 => decide (rate ≤ 4)
  | 3 => decide (rate ≤ 2)
  | _ => decide (rate ≤ 5)

/-- The word that a write gives: a reserved encoding keeps its field (R6, R642). -/
def F5Word.written (o : F5Word) (v : Nat) : F5Word :=
  let keep := fun (ok : Bool) (new old : Nat) => if ok then new else old
  let proto := bitsOf v 11 10
  { ab := keep (bitsOf v 2 0 ≠ 7) (bitsOf v 2 0) o.ab
    ba := keep (bitsOf v 5 3 ≠ 7) (bitsOf v 5 3) o.ba
    pat := keep (bitsOf v 9 6 ≤ 0xA) (bitsOf v 9 6) o.pat
    proto := proto
    width := keep (bitsOf v 14 12 ≤ 4) (bitsOf v 14 12) o.width
    rate := keep (f5RateOk proto (bitsOf v 17 15)) (bitsOf v 17 15) o.rate
    errlog := bitsOf v 21 18, upside := bitsOf v 22 22, sris := bitsOf v 23 23 }

/-- Store a word. -/
def f5Store (s : State) (n : Nat) (w : F5Word) : State :=
  let s := ((s.wr .F5_MODE_AB n w.ab).wr .F5_MODE_BA n w.ba).wr .F5_MODE_PAT n w.pat
  let s := ((s.wr .F5_MODE_PROTO n w.proto).wr .F5_MODE_WIDTH n w.width).wr .F5_MODE_RATE n w.rate
  ((s.wr .F5_MODE_ERRLOG n w.errlog).wr .F5_MODE_UPSIDE n w.upside).wr .F5_MODE_SRIS n w.sris

/-- The native mode of a forerunner mode (R643). -/
def f5Native (m : Nat) : Nat := [mDARK, mRELAY, mTAP, mSPLICE, mSINK, mSOURCE, mLOOP].getD m mDARK

/-- Native modes of both paths: against LPBK a GEN path becomes SINK (R644). -/
def F5Word.modes (w : F5Word) : Nat × Nat :=
  (if w.ab = 5 ∧ w.ba = 6 then mSINK else f5Native w.ab, if w.ba = 5 ∧ w.ab = 6 then mSINK else f5Native w.ba)

/-- The setting of a link that only a DARK link may change (R642). -/
def F5Word.sameLink (a b : F5Word) : Bool :=
  a.proto == b.proto && a.width == b.width && a.rate == b.rate && a.upside == b.upside && a.sris == b.sris

/-- The refusals of R641 and R642 that precede the native writes: 0 none. -/
def State.f5Code (s : State) (n : Nat) (o w : F5Word) : Nat :=
  let g := n / 16
  let new := lanesFrom g (n % 16) (2 ^ w.width)
  let old := s.linkLanes n
  if s.govLane n ≠ n ∨ n % 16 % 2 ^ w.width ≠ 0 then 0x04
  else if !w.sameLink o && (new ++ old).any fun m => !s.laneDark m then 0x10
  else if (List.range 16).any fun k =>
      let M := 16 * g + k
      M != n && s.on .LINK_CFG_EN M && decide (0 < s.rd .LINK_CFG_WIDTH M) && (new.any fun m => (s.linkLanes M).contains m) then 0x11
  else 0

/-- The native LINK_CFG writes of a word: its link, and x1 links of their own protocols for the lanes that leave it (R641). -/
def f5Link (s : State) (n : Nat) (w : F5Word) : State :=
  let g := n / 16
  let new := lanesFrom g (n % 16) (2 ^ w.width)
  let freed := (s.linkLanes n).filter fun m => !new.contains m
  let s := s.each new fun s m => s.clr .LINK_CFG_EN m
  let s := linkCfgSet s n (1 + 2 * w.width + 16 * (n % 16) + 256 * w.proto)
  s.each freed fun s m => linkCfgSet s m (1 + 16 * (m % 16) + 256 * s.rd .F5_MODE_PROTO m)

/-- RAW_RATE for a RATE code. -/
def f5Raw (rate : Nat) : Nat := [10312500, 25781250, 28125000, 53125000 + 2 ^ 28, 56250000 + 2 ^ 28].getD rate 0

/-- The native protocol and rate writes of a word: other fields keep their values. -/
def f5Rate (s : State) (n : Nat) (w : F5Word) : State :=
  if !f5RateOk w.proto w.rate then s
  else match w.proto with
    | 0 => rawRateSet s n (f5Raw w.rate)
    | 3 =>
      let lrate := w.rate
      lnkEthSet s n (s.ethWord n - s.ethWord n % 32 + lrate + 8 * (if w.rate = 0 then 2 else 3))
    | _ =>
      let o := s.pciWord n
      lnkPciSet s n (w.upside + 2 * w.rate + 16 * bitsOf o 4 4 + 32 * (2 * w.sris) + 128 * bitsOf o 8 7)

/-- The native PATH_SRC and PATH_PAT writes for a path that is to generate (R643). -/
def f5Gen (s : State) (p pat : Nat) : State :=
  (pathSrcSet s p 1).each ((pathSrcSet s p 1).linkPaths p) fun s q =>
    pathPatSet s q (pat + 16 + 32 * s.rd .PATH_PAT_INV q + 64 * s.rd .PATH_PAT_CHKEN q + 128 * s.rd .PATH_PAT_UBASE q
      + 2 ^ 19 * s.rd .PATH_PAT_ULEN q)

/-- Write of lane n's mode word (R640 to R644): the code of the first refusal, with nothing else changed, or the native writes. -/
def f5ModeSet (s : State) (n v : Nat) : State :=
  if !s.bit .F5_CTL_EN 0 (n / 16) then s
  else
    let o := s.f5Word n
    let w := o.written v
    let m := w.modes
    let c := s.f5Code n o w
    if c ≠ 0 then s.wr .F5_MODE_CODE n c
    else
      let dark := (lanesFrom (n / 16) (n % 16) (2 ^ w.width)).all s.laneDark
      let x := if dark then f5Rate (f5Link s n w) n w else s
      let x := if m.1 = mSOURCE then f5Gen x (2 * n) w.pat else x
      let x := if m.2 = mSOURCE then f5Gen x (2 * n + 1) w.pat else x
      let y := chgHost x n m.1 m.2 true
      if y.1 ≠ 0 then s.wr .F5_MODE_CODE n y.1
      else ((f5Store y.2 n w).wr .F5_MODE_CODE n 0).wr .PATH_MODE_CODE n 0

def execF5ModeWrite (r : Route) (g j : Fin 16) (v : DW) (s : State) : Host.Outcome State Fault Refusal :=
  live s fun s => gate r (0x701000 + 0x100 * g + 4 * j) (fun s => f5ModeSet s (16 * g + j) v.toNat) s

end Sys2Proof.Machine
end

