-- ==== Sys2Proof/Machine/Boot.lean ====
section
/-! DEFINITION. Bring-up (R35, R41 to R52), firmware images (R39, R40, R648), INIT (R33, R431, R649), IDLE and STANDBY (R26 to R28, R407, R583), hot
reload (R53 to R58). -/
namespace Sys2Proof.Machine

/-- READOUT_READY (R35): after PERST_N release and the end of the wait for XREFCLK. -/
def execReadoutReady (s : State) : Host.Outcome State Fault Refusal :=
  live s fun s => if s.on .X_PERSTN_HIGH 0 && s.bit .X_REF_DONE 0 4 then s.set .X_PORT_UP 0 else s

/-! Loads. -/

/-- Store the image of a bank. -/
def State.setBank (s : State) (b : Bool) (i : Option FwImage) : State := if b then { s with bankB := i } else { s with bankA := i }

/-- A load of either kind may begin or go on (R48, R54): a boot load in ROM or LOAD, a load of the idle bank under running firmware that no hot switch
drains (R56). -/
def State.loadOk (s : State) (idle : Bool) : Bool :=
  if idle then decide (devINIT ≤ s.dev) && s.dev != devSTANDBY && s.hot == .none else s.dev == devROM || s.dev == devLOAD

/-- Append bytes to the load of a route, or begin one with them: the first byte of a boot load enters LOAD; a new load into the idle bank clears HR_PEND
and discards the image staged there (R55). -/
def loadAppend (s : State) (r : Route) (idle : Bool) (bytes : List Byte) : State :=
  if bytes = [] then s
  else
    let s := match s.fwLoad with
      | some l => { s with fwLoad := some { l with bytes := l.bytes ++ bytes } }
      | none =>
        let s := { s with fwLoad := some ⟨r, idle, bytes⟩ }
        if idle then (s.clr .DEV_STATE_HR_PEND 0).setBank (!s.on .DEV_STATE_BANK 0) none else s.setDev devLOAD
    (s.wr .FW_MBX_TOTAL_TOTAL 0 (s.rd .FW_MBX_TOTAL_TOTAL 0 + bytes.length)).set .X_FW_WR 0

/-- A chunk or an image is refused with a code. -/
def mbxFail (s : State) (code : Nat) : State := (s.wr .DEV_STATE_LASTERR 0 code).set .FW_MBX_STAT_ERR 0

/-- The other route owns the load (R48). -/
def State.loadTaken (s : State) (r : Route) : Bool := match s.fwLoad with | some l => l.route != r | none => false

/-- The kind of the load in progress, else the one that TARGET names. -/
def State.loadIdle (s : State) : Bool := match s.fwLoad with | some l => l.idle | none => s.rd .FW_MBX_CTL_TARGET 0 == 1

/-- GO (R41, R42, R48): refused where the other route owns the load, its checks included. While checks run it takes nothing (log 51). DESIGN CHOICE (R54, log 107): where
TARGET names a load that the state does not allow, a boot load under running firmware or a load of the idle bank without it, GO and DONE change nothing. -/
def mbxGo (s : State) : State :=
  let n := s.rd .FW_MBX_LEN_LEN 0
  if n = 0 then s.clr .FW_MBX_STAT_ERR 0
  else if s.loadTaken .port then mbxFail s 7
  else if s.on .X_FW_CHK 0 || !s.loadOk s.loadIdle then s
  else if s.rd .FW_MBX_OFS_OFS 0 ≠ s.rd .FW_MBX_TOTAL_TOTAL 0 then mbxFail s 8
  else loadAppend (s.clr .FW_MBX_STAT_ERR 0) .port s.loadIdle (s.getWins 0xC000 n)

/-- DONE and FWDONE: the checks start (R648); an image without bytes fails them. The cases without effect are those of GO. -/
def loadDone (s : State) (r : Route) (idle : Bool) : State :=
  if s.loadTaken r then mbxFail s 7
  else if s.on .X_FW_CHK 0 || !s.loadOk idle then s
  else
    let s := match s.fwLoad with
      | some _ => s
      | none => { s with fwLoad := some ⟨r, idle, []⟩ }
    (s.set .X_FW_CHK 0).set .FW_MBX_STAT_BUSY 0

/-- A write of FW_MBX_CTL: TARGET, then ABORT, GO and DONE. Reserved TARGETs keep the field (R6). -/
def fwMbxCtl (s : State) (v : Nat) : State :=
  let s := if bitsOf v 5 4 ≤ 1 then s.wr .FW_MBX_CTL_TARGET 0 (bitsOf v 5 4) else s
  let s := if bitOf v 1 then loadAbort s else s
  let s := if bitOf v 0 then mbxGo s else s
  if bitOf v 2 then loadDone s .port s.loadIdle else s

def execFwMbxGo (r : Route) (target : Fin 4) (s : State) : Host.Outcome State Fault Refusal :=
  live s fun s => gate r 0x8000 (fun s => fwMbxCtl s (1 + 16 * target.val)) s

def execFwMbxAbort (r : Route) (target : Fin 4) (s : State) : Host.Outcome State Fault Refusal :=
  live s fun s => gate r 0x8000 (fun s => fwMbxCtl s (2 + 16 * target.val)) s

def execFwMbxDone (r : Route) (target : Fin 4) (s : State) : Host.Outcome State Fault Refusal :=
  live s fun s => gate r 0x8000 (fun s => fwMbxCtl s (4 + 16 * target.val)) s

/-! Checks (R39). -/

/-- Bytes from a to b - 1 of an image are zero. -/
def zeroIn (l : List Byte) (a b : Nat) : Bool := (sliceBytes l a (b - a)).all (· == 0)

/-- Check 1. -/
def lenOk (l : List Byte) : Bool :=
  let n := leNat (sliceBytes l 8 4)
  decide (512 < n ∧ n ≤ 1572864 ∧ l.length = n)

/-- Check 2. -/
def hdrOk (l : List Byte) : Bool :=
  l.take 4 == [0x43, 0x48, 0x46, 0x57] && leNat (sliceBytes l 4 2) == 1 && l.getD 6 0 == 1 && decide ((l.getD 7 0).toNat ≤ 1)
    && zeroIn l 24 32 && zeroIn l 320 512

/-- ENG of an image. -/
def engOf (l : List Byte) : Bool := (l.getD 7 0).toNat % 2 == 1

/-- Check 3, from what OTP says of the key (R40). -/
def keyOk (l : List Byte) (key : KeyVerdict) (keyid : Bool) : Bool :=
  keyid && match key with
    | .unknown => false
    | .production => !Config.engineeringPart && !engOf l
    | .engineering => engOf l

/-- The first check of R39 that an image fails: 0 none. In the error state the Rind verifies nothing (R529). -/
def State.imageCode (s : State) (l : FwLoad) (key : KeyVerdict) (keyid sig hash : Bool) : Nat :=
  if s.on .RND_STAT_ERROR 0 then 4
  else if !lenOk l.bytes then 1
  else if !hdrOk l.bytes then 2
  else if !keyOk l.bytes key keyid then 3
  else if !sig then 4
  else if !hash then 5
  else if leNat (sliceBytes l.bytes 16 4) < s.rd .RND_STAT_ASC 0 then 6
  else if l.idle && (s.running.map FwImage.eng) != some (engOf l.bytes) then 9
  else 0

/-- A verified image. -/
def imageOf (l : List Byte) : FwImage := ⟨leNat (sliceBytes l 16 4), leNat (sliceBytes l 20 4), engOf l, l⟩

/-- Firmware reports ready, or runs for the first time: held requests and traps reach it (R466, R548). -/
def fwUp (s : State) : State :=
  let s := fwShow s true
  let s := if s.on .FLT_GSTAT_TRAPPEND 0 then (s.clr .FLT_GSTAT_TRAPPEND 0).emit .trap else s
  serveUnknown s

/-- The domains of a list go off. -/
def domsOff (s : State) (ds : List Nat) : State := s.each ds fun s d => s.wrBit .PWR_STAT_ON 0 d false

/-- Quadrants without a reference are marked at INIT step 1 (R33). -/
def quadMarks (s : State) : State :=
  s.each (List.range 4) fun s q =>
    if s.bit .DEV_STATE_QREF_OK 0 q then s
    else (markFailed s ((33 + q) :: (List.range 4).map (4 * q + ·))).raiseCause (1024 + q) msgLOSS 0

/-- The verified boot image starts: INIT step 1 restores calibration and re-applies the repair list. -/
def bootStart (s : State) (i : FwImage) : State :=
  let s := { s with bankA := some i }
  let s := apprShow ((s.clr .DEV_STATE_BANK 0).wrB .DEV_STATE_NONAPPR 0 i.eng)
  let s := domsOn (s.setDev devINIT) ((List.range 40).map (16 + ·))
  let s := fwUp ((s.clr .X_CORE 0).wr .DEV_STATE_INITSTEP 0 1)
  let s := repCheck (calRestoreAll (quadMarks s))
  repTidy (repApply (repApply s 0 (List.range 16)) 1 (List.range 16))

/-- IMAGE_CHECK_DONE (R39, R648): the checks end, once the Rind's self-tests have ended (R527). key, keyid, sig and hash are what the Rind finds for
checks 3 to 5. -/
def execImageCheckDone (key : KeyVerdict) (keyid sig hash : Bool) (s : State) : Host.Outcome State Fault Refusal :=
  live s fun s =>
    match s.fwLoad with
    | none => s
    | some l =>
      if !s.on .X_FW_CHK 0 || s.on .RND_STAT_BUSY 0 then s
      else
        let c := s.imageCode l key keyid sig hash
        if c ≠ 0 then imageFail s c
        else
          let s := { s with fwLoad := none }
          let s := ((s.clr .X_FW_CHK 0).clr .FW_MBX_STAT_BUSY 0).clr .FW_MBX_TOTAL_TOTAL 0
          let s := ((s.set .FW_MBX_STAT_ACCEPTED 0).clr .FW_MBX_STAT_ERR 0).alert 3
          if l.idle then ((s.setBank (!s.on .DEV_STATE_BANK 0) (some (imageOf l.bytes))).set .DEV_STATE_HR_PEND 0).msix 0
          else bootStart s (imageOf l.bytes)

/-! INIT. -/

/-- Tower t was not preserved, and its steps 2 and 3 run (R51). -/
def State.towerFresh (s : State) (t : Nat) : Bool := !s.on (if t = 0 then .DEV_STATE_PRESERVED0 else .DEV_STATE_PRESERVED1) 0

/-- The n-th free spare row of a bank. -/
def State.spareAfter (s : State) (k : RowKey) (n : Nat) : Option Nat :=
  ((List.range (4 - s.hardIn k)).filter fun i => !(s.softIn k).contains i)[n]?

/-- The self-test gives a failing TSV a spare: whether it had one. -/
def testTsv (s : State) (t c lane : Nat) : Bool × State :=
  match (List.range 4).find? fun i => !(s.tsvIn t c).contains i with
  | some sp => (true, repQueueNvm (spareRecount { s with reps := s.reps ++ [.tsv t c lane sp] } t c) (.tsv t c lane sp))
  | none => (false, s)

/-- The self-test repairs a failing row, with the first free spare that passes its own test; bad spares fail it. A row that fails under its repair of step 1 gets
another spare. -/
def testRow (s : State) (k : RowKey) (bad : Nat) : Bool × State :=
  match s.spareAfter k bad with
    | some sp => (true, repQueueNvm (spareRecount { s with reps := s.reps ++ [.soft k sp] } k.t k.c) (.soft k sp))
    | none => (false, s)

/-- A channel that cannot be repaired is retired, or the device holds (R431): whether the device must hold. -/
def testLost (s : State) (t c : Nat) : Bool × State :=
  if s.retired t = some c then (false, s)
  else if s.on .ECC_CFG_AUTORETIRE t && (s.retired t).isNone then
    (false, repAppend ((s.set .REP_STAT_RETIRED t).wr .REP_STAT_RCH t c) (.retire t c))
  else (true, s)

/-- One repair of the self-test, after the others: the channel that it leaves unrepairable is lost. -/
def testStep (acc : Bool × State) (t c : Nat) (fix : State → Bool × State) : Bool × State :=
  if acc.2.retired t = some c then acc
  else
    let x := fix acc.2
    if x.1 then (acc.1, x.2)
    else
      let y := testLost x.2 t c
      (acc.1 || y.1, y.2)

/-- The first failing word of each row, in order. -/
def rowFirsts (s : State) : List RowKey → List (BitVec 38 × Fin 5) → List (RowKey × Nat)
  | _, [] => []
  | seen, e :: r =>
    let k := (s.locOf e.1.toNat).key
    if seen.contains k then rowFirsts s seen r else (k, e.2.val) :: rowFirsts s (k :: seen) r

/-- INIT step 2 (R431, R432): failing TSVs, then rows that hold failing words, each with how many spares fail before one passes. -/
def selfTest (s : State) (tsvs : List (Fin 2 × Fin 16 × Fin 160)) (words : List (BitVec 38 × Fin 5)) : Bool × State :=
  let ts := tsvs.filter fun e => s.towerFresh e.1
  let ws := words.filter fun e => decide (e.1.toNat < towerTop) && s.towerFresh (towerOf e.1.toNat)
  let a := ts.foldl (fun a e => testStep a e.1 e.2.1 fun s => testTsv s e.1 e.2.1 e.2.2) (false, s)
  (rowFirsts s [] ws).foldl (fun a e => testStep a e.1.t e.1.c fun s => testRow s e.1 e.2) a

/-- A tower becomes active, its retired channel apart. -/
def towerActive (s : State) (t : Nat) : State :=
  let s := s.wr .TWR_STAT_STATE t 1
  s.each (List.range 16) fun s c => s.wr .CH_STAT_STATE (chI t c) (if s.retired t = some c then 3 else 0)

/-- INIT steps 3 and 4 end: swept towers are active, and the device serves (R402, R649). -/
def initServe (s : State) : State := (s.wr .DEV_STATE_INITSTEP 0 4).setDev devSERVICE

/-- INIT_STEP_DONE (R649): step 1 ends with preserved towers out of self-refresh; step 2 with what the self-test found; step 3 with the sweep. -/
def execInitStepDone (tsvs : List (Fin 2 × Fin 16 × Fin 160)) (words : List (BitVec 38 × Fin 5)) (s : State) : Host.Outcome State Fault Refusal :=
  live s fun s =>
    if s.dev ≠ devINIT then s
    else
      let fresh := [0, 1].filter s.towerFresh
      match s.rd .DEV_STATE_INITSTEP 0 with
      | 1 =>
        let s := s.each [0, 1] fun s t => if s.towerFresh t then s else towerActive s t
        if fresh = [] then initServe s else s.wr .DEV_STATE_INITSTEP 0 2
      | 2 =>
        let x := selfTest s tsvs words
        if x.1 then enterHold (fresh.foldl towerLost x.2) else x.2.wr .DEV_STATE_INITSTEP 0 3
      | 3 => initServe (fresh.foldl (fun s t => towerActive (sweepSlabs s (1536 * t) 1536) t) s)
      | _ => s

/-! Low-power states. -/

/-- DEV_CMD (R53, R56): a command that is valid in the present state, else result 0x02. While a hot switch is in progress RESULT reads 0x03 and no command but
a chip reset has an effect. -/
def devCmd (s : State) (ok : Bool) (f : State → State) : State :=
  if s.hot ≠ .none then s else if ok then f s else s.wr .DEV_CMD_RESULT 0 2

/-- Status fields of engines that run on in IDLE (R227) or that show what a queue holds: they follow what they show. -/
def idleLive : List Fld :=
  [.DEV_STATE_CLKFAIL_EARLY, .MB_STAT_PEND, .MB_STAT_RSP, .MB_STAT_ERR, .TW_MBSTAT_PEND, .TW_MBSTAT_RSP, .TW_MBSTAT_ERR, .VIN_NODE_HOPS, .VIN_PSTAT_STATE,
    .VIN_HOPD_DELAY, .VIN_HOPD_OFS, .VIN_STAT_RSEQ, .VIN_TLAST_T, .VIN_TLAST_ORG_ORIGIN, .VIN_TLAST_ORG_LATEO, .STRM_CFG_PEND, .REP_STAT_NVMPEND]

/-- A field returns to its reset value on entry to IDLE (R603): its Survives cell names other kinds and not IDLE. -/
def Fld.idleLoses (f : Fld) : Bool := f.surv != 0 && !f.keeps svIDLE && !idleLive.contains f

/-- Clock gates that a change of state requests: domains enabled before and not after; those with a bus access in progress are held (R578). -/
def stateGates (s : State) (was : Nat → Bool) (busy : Nat) : State :=
  s.each (List.range 39) fun s d => s.wrBit .CLK_GPEND_GATE_PEND 0 d (was d && !s.clkEn d && bitOf busy d && !s.clkFailed d)

/-- Every path counts as DARK and no harvest descriptor is active (R26). -/
def State.mayIdle (s : State) : Bool := ((List.range 256).all s.laneDark) && !(s.hv.any (·.2.isSome))

/-- Domains that are off in IDLE: PDA and PDT. -/
def idleOff : List Nat := List.range 16 ++ [34, 35]

/-- ENTER_IDLE (R26, R27, R576, R583). -/
def idleEnter (s : State) (busy : Nat) : State :=
  if !s.mayIdle then s.wr .DEV_CMD_RESULT 0 1
  else
    let was := s.clkEn
    let s := domsOff (towersDown s) idleOff
    let s := s.drop fun k => k.1.idleLoses
    (stateGates (s.setDev devIDLE) was busy).wr .DEV_CMD_RESULT 0 0

def execEnterIdle (r : Route) (busy : BitVec 39) (s : State) : Host.Outcome State Fault Refusal :=
  live s fun s => gate r 0x18 (fun s => devCmd s (s.dev == devSERVICE) fun s => idleEnter s busy.toNat) s

/-- EXIT_IDLE (R27, R407): towers leave self-refresh with their repairs. -/
def idleExit (s : State) (busy : Nat) : State :=
  let was := s.clkEn
  let s := (domsOn s [34, 35]).setDev devSERVICE
  (stateGates (towersBack s [0, 1]) was busy).wr .DEV_CMD_RESULT 0 0

def execExitIdle (r : Route) (busy : BitVec 39) (s : State) : Host.Outcome State Fault Refusal :=
  live s fun s => gate r 0x18 (fun s => devCmd s (s.dev == devIDLE) fun s => idleExit s busy.toNat) s

/-- A field is lost in STANDBY (R603): of a block in a switched domain, one whose cell does not name STANDBY; of the always-on domain, one whose cell
names other kinds and not STANDBY. -/
def Fld.standbyLoses (f : Fld) : Bool :=
  !f.keeps svSTANDBY && !idleLive.contains f &&
    match f.blk with
    | .aon | .mbox => f.surv != 0
    | _ => true

/-- ENTER_STANDBY (R28, R261, R337, R534, R583, R603): threads stop, switched domains go to retention or off, keys and sessions are lost; the towers' contents,
the grove memories, the firmware banks and the event buffer are kept. -/
def standbyEnter (s : State) : State :=
  let s := loadAbort s
  let s := coreStop (domsOff s (List.range 56))
  let s := s.drop fun k => k.1.standbyLoses || [Fld.MB_STAT_PEND, .MB_STAT_RSP, .MB_STAT_ERR, .TW_MBSTAT_PEND, .TW_MBSTAT_RSP, .TW_MBSTAT_ERR,
    .REP_STAT_NVMPEND, .STRM_CFG_PEND].contains k.1 || k.1.blk == .timebase || k.1.blk == .vine
  let s := s.each [1024, 1025, 1026, 1027, 1029] State.endCause
  let s := ((s.clr .X_INJ_LEFT 0).clr .FLT_INJ_BUSY 0).clr .FM_CTL_BUSY 0
  let s := ((s.clr .X_CLKR 0).clr .CLK_GPEND_GATE_PEND 0).clr .X_CORE 0
  let s := { s with
    hiLatch := [], halfStage := [], waits := [], mblk := [], held := [], items := [], strikes := [], strm := [], staged := [], carry := [], hostq := [], hot := .none, vreq := [], vwait := [],
    vheld := [], bursts := [], banks := [], scrRows := [], scrTsv := [], softq := [], nvmPend := [], punLens := [], encBuf := [], pkeys := [], rpl := [],
    vdel := [], vofs := [], dly := [], dlyHold := [], pkts := [], ltSent := [], ltHdr := [], pchk := [], calq := [], ikeys := [], klk := none, rjob := none, hv := [], b2 := [],
    mctpq := [], spdm := [], mctpin := [] }
  let s := winClear (winClear s 0xC000 0x11000) 0x500100 0x502000
  let s := s.each [0, 1] fun s t =>
    let s := s.wr .TWR_STAT_STATE t 2
    s.each (List.range 16) fun s c => s.wr .CH_STAT_STATE (chI t c) (if s.retired t = some c then 3 else 2)
  let s := s.each (List.range 256) fun s L => s.wr .X_PCI_EFF L (s.pciWord L)
  let s := s.each (List.range 512) refreshPort
  ((s.setDev devSTANDBY).set .HK_STAT_AONMODE 0).wr .DEV_CMD_RESULT 0 0

def execEnterStandby (r : Route) (s : State) : Host.Outcome State Fault Refusal :=
  live s fun s => gate r 0x18 (fun s => devCmd s (s.dev == devIDLE) standbyEnter) s

/-- STANDBY_WAKE (R28, R206, R477, R500, R527, R640): a two-wire address match or a readout link exit. Domains come on, the Rind's self-tests run, the
retained bank is hashed, trims are restored, profile groves start again. -/
def wake (s : State) (hashOk : Bool) : State :=
  let s := (standbyLeave (domsOn s ((List.range 56).filter fun d => !idleOff.contains d))).setDev devIDLE
  if s.running.isSome then coreHashed s hashOk else s

def execStandbyWake (hashOk : Bool) (s : State) : Host.Outcome State Fault Refusal :=
  live s fun s => if s.dev = devSTANDBY then wake s hashOk else s

/-! Hot reload (R53 to R58). -/

/-- A hot switch may begin (R53). -/
def State.maySwitch (s : State) : Bool := (s.dev == devSERVICE || s.dev == devIDLE) && s.on .DEV_STATE_HR_PEND 0

/-- A hot switch begins (R56). -/
def hotBegin (s : State) : State := { s with hot := .draining }.wr .DEV_CMD_RESULT 0 3

/-- HOT_SWITCH: valid in SERVICE or IDLE with HR_PEND = 1. -/
def execHotSwitch (r : Route) (s : State) : Host.Outcome State Fault Refusal :=
  live s fun s => gate r 0x18 (fun s => devCmd s s.maySwitch hotBegin) s

/-- HOT_SWITCH_QUIESCENT (R57): no service step runs; the old firmware stops and the bank switches. -/
def execHotSwitchQuiescent (s : State) : Host.Outcome State Fault Refusal :=
  live s fun s =>
    if s.hot = .draining ∧ s.on .X_FWUP 0 ∧ s.fwFree then
      let s := { coreStop s with hot := .switched }
      (s.wrB .DEV_STATE_BANK 0 (!s.on .DEV_STATE_BANK 0)).wr .X_CORE 0 2
    else s

/-- HOT_SWITCH_TIMEOUT (R56). -/
def execHotSwitchTimeout (s : State) : Host.Outcome State Fault Refusal :=
  live s fun s =>
    if s.hot = .draining then ({ s with hot := .none }.wr .DEV_CMD_RESULT 0 4).wr .DEV_STATE_LASTERR 0 0x0A else s

/-- FW_READY (R56, R438, R466, R548, R599): the core that was started reports ready; a repair list that was found bad meanwhile is written again. -/
def execFwReady (s : State) : Host.Outcome State Fault Refusal :=
  live s fun s =>
    if s.rd .X_CORE 0 ≠ 2 then s
    else
      let s := s.wr .X_CORE 0 0
      let s := if s.hot = .switched then ({ s with hot := .none }.wr .DEV_CMD_RESULT 0 0).clr .DEV_STATE_HR_PEND 0 else s
      let s := if s.on .X_CORE_CMD 0 then (s.clr .X_CORE_CMD 0).wr .RST_CMD_RESULT 0 0 else s
      repTidy (fwUp s)

/-- SWITCH_BACK (R58): the new firmware is not ready within 200 ms. -/
def execSwitchBack (s : State) : Host.Outcome State Fault Refusal :=
  live s fun s => if s.hot = .switched then switchBack s else s

end Sys2Proof.Machine
end

