-- ==== Sys2Proof/Machine/Bus.lean ====
section
/-! DEFINITION. Accesses to the BAR0 address map by offset (R6, R43, R447, R576, R612 to R617): which register an offset names, what a read returns and does, what
a write does. A write of a register with a command of its own goes to that command's operation. -/
namespace Sys2Proof.Machine

/-! Offsets. -/

/-- Instance that an offset from instance 0 names, indices outermost first; none: between instances or beyond the last (R615). -/
def dimIndex : List (Nat × Nat) → Nat → Nat → Option Nat
  | [], off, acc => if off = 0 then some acc else none
  | (stride, n) :: r, off, acc => if off / stride < n then dimIndex r (off % stride) (acc * n + off / stride) else none

/-- Instance of a row at an offset. -/
def RegRow.at (w : RegRow) (a : Nat) : Option Nat := if a < w.base then none else dimIndex w.dims (a - w.base) 0

/-- Register at an offset, with its instance. -/
def regAt (a : Nat) : Option (RegRow × Nat) := regRows.findSome? fun w => (w.at a).map fun i => (w, i)

/-- Byte windows of the map. -/
inductive Win where
  | wo | ro | msix
  deriving DecidableEq, Repr

/-- Window at an offset. -/
def winAt (a : Nat) : Option Win :=
  if 0x9400 ≤ a ∧ a < 0x9800 ∨ 0xC000 ≤ a ∧ a < 0x10000 ∨ 0x301000 ≤ a ∧ a < 0x301400 ∨ 0x501000 ≤ a ∧ a < 0x501400 then some .wo
  else if 0x9800 ≤ a ∧ a < 0x9C00 ∨ 0x10800 ≤ a ∧ a < 0x10808 ∨ 0x301400 ≤ a ∧ a < 0x301800 ∨ 0x501400 ≤ a ∧ a < 0x501800
      ∨ 0x500100 ≤ a ∧ a < 0x500120 then some .ro
  else if 0x10000 ≤ a ∧ a < 0x10400 then some .msix
  else none

/-- Memory word at an offset: grove, whether data memory, word, high half (R252). -/
def memAt (a : Nat) : Option (Nat × Bool × Nat × Bool) :=
  match groveOfs a with
  | some (g, o) =>
    if 0x80000 ≤ o ∧ o < 0xA0000 then some (g, false, (o - 0x80000) / 8, o % 8 == 4)
    else if 0xC0000 ≤ o ∧ o < 0xC8000 then some (g, true, (o - 0xC0000) / 8, o % 8 == 4)
    else none
  | none => none

/-- The offset lies in a block of R612. -/
def inBlock (a : Nat) : Bool :=
  decide (a < 0x800000) || decide (0x1000000 ≤ a ∧ a < 0x2020000) || decide (0x2040000 ≤ a ∧ a < 0x2040800) || decide (0x2100000 ≤ a ∧ a < 0x2120000)
    || decide (0x3000000 ≤ a ∧ a < 0x3042000) || decide (0x3800000 ≤ a ∧ a < 0x3800400) || decide (0x3900000 ≤ a ∧ a < 0x3900200)

/-- Something stands at the offset. -/
def mapped (a : Nat) : Bool := (winAt a).isSome || (memAt a).isSome || (regAt a).isSome

/-- An access to an offset fails: by its block's availability (R36, R512), or, where something stands, by its domain (R614). -/
def State.busErr (s : State) (r : Route) (a : Nat) (write : Bool) : Bool := inBlock a && (s.routeErr r a write || (mapped a && s.domErr a))

/-! Reads. -/

/-- Level of a sideband pin as GSB_CFG shows it: as a trigger output it drives its line's level (R111). -/
def State.gsbShown (s : State) (k : Nat) : Nat :=
  if s.rd .GSB_CFG_FUNC k = 4 then (if s.tl (s.rd .GSB_CFG_TL k) then 1 else 0) else s.rd .GSB_CFG_LEVEL k

/-- Value of a field as a register shows it: the mode, delay and rate registers of a link's other lanes read as the lowest lane's (R65, R146, R154). -/
def State.shown (s : State) (f : Fld) (i : Nat) : Nat :=
  if f = .GSB_CFG_LEVEL then s.gsbShown i
  else if f ∈ [.PATH_MODE_AB, .PATH_MODE_BA, .PATH_MODE_PEND_AB, .PATH_MODE_PEND_BA, .PATH_MODE_CODE] then s.rd f (s.govLane i)
  else if f ∈ [.PATH_SRC_SEL, .PATH_DLY_CELLS] then s.rd f (s.govPath i)
  else if f ∈ [.RAW_RATE_KBPS, .RAW_RATE_PAM4] ∧ s.protoOf i = 0 then s.rd f (s.govLane i)
  else s.rd f i

/-- Value of instance i of a register. -/
def State.regVal (s : State) (w : RegRow) (i : Nat) : Nat :=
  w.slots.foldl (fun n e => n + s.shown e.fld i / 2 ^ e.shift % 2 ^ e.width * 2 ^ e.lo) 0

/-- A field that a read clears; with the correctable count the mark that its threshold was reported goes (R421). -/
def rcClear (s : State) (f : Fld) (i : Nat) : State := if f = .ECC_CECNT_COUNT then (s.clr f i).clr .X_CE_RAISED i else s.clr f i

/-- RC fields of a register clear. -/
def regClear (s : State) (w : RegRow) (i : Nat) : State := w.slots.foldl (fun s e => if e.fld.acc == .rc then rcClear s e.fld i else s) s

/-- The high register of a pair of R616 whose low register is given. -/
def highOf (w : RegRow) : Option RegRow :=
  regRows.find? fun h => h.base == w.base + 4 && h.dims == w.dims && w.slots.any fun e => e.shift == 0 && h.slots.any fun f => f.fld == e.fld && f.shift == 32

/-- Latch a high half for the next read. -/
def keepHigh (s : State) (a v : Nat) : State := { s with hiLatch := nset s.hiLatch none a (some v) }

/-- A high half is read: the latched value, else the current one. -/
def unlatch (s : State) (a cur : Nat) : Nat × State := ((nget s.hiLatch none a).getD cur, { s with hiLatch := nset s.hiLatch none a none })

/-- Read of the register at an offset. -/
def readReg (s : State) (w : RegRow) (i a : Nat) : Nat × State :=
  let x := unlatch s a (s.regVal w i)
  let s := regClear x.2 w i
  match highOf w with
  | some h => (x.1, keepHigh s (a + 4) (s.regVal h i))
  | none => (x.1, s)

/-- Read of half a memory word. -/
def readMem (s : State) (g : Nat) (data : Bool) (w : Nat) (hi : Bool) (a : Nat) : Nat × State :=
  let v := (if data then s.getD g w else s.getI g w).toNat
  if hi then unlatch s a (v / 2 ^ 32) else (v % 2 ^ 32, keepHigh s (a + 4) (v / 2 ^ 32))

/-- Read of the DW at an offset: its value and the state after. Nothing there reads zero (R613); WO windows read zero. -/
def readDw (s : State) (a : Nat) : Nat × State :=
  match winAt a with
  | some .wo => (0, s)
  | some _ => (leNat (s.getWins a 4), s)
  | none =>
    match memAt a with
    | some (g, data, w, hi) => readMem s g data w hi a
    | none =>
      match regAt a with
      | some (w, i) => readReg s w i a
      | none => (0, s)

/-- Read of one DW by a route: none where it completes with an error. -/
def busDw (s : State) (r : Route) (a : Nat) : Option Nat × State :=
  if s.busErr r a false then (none, s.accessFail r a) else let x := readDw s a; (some x.1, x.2)

/-- Read of n DWs from offset a on, each answered. A request of the port is one of 1 or 2 DW, aligned to its length, and completes whole (R447). -/
def busRead (s : State) (r : Route) (a n : Nat) : State :=
  if n = 0 then s
  else if r = .port ∧ (2 < n ∨ n = 2 ∧ a % 8 ≠ 0) then s.emit (.completerAbort a)
  else if r = .port ∧ (List.range n).any (fun k => s.busErr r (a + 4 * k) false) then s.accessFail r a
  else s.each (List.range n) fun s k =>
    let x := busDw s r (a + 4 * k)
    match x.1 with
    | some v => x.2.emit (.readData r (a + 4 * k) v)
    | none => x.2

/-- PAIR_LOW_READ (R616): a route's read of n DWs from DW a on. -/
def execPairLowRead (r : Route) (a : BitVec 24) (n : Nat) (s : State) : Host.Outcome State Fault Refusal :=
  live s fun s => busRead s r (4 * a.toNat) n

/-- RC_FIELD_READ (R501): likewise, of registers with fields that a read clears. -/
def execRcFieldRead (r : Route) (a : BitVec 24) (n : Nat) (s : State) : Host.Outcome State Fault Refusal :=
  live s fun s => busRead s r (4 * a.toNat) n

/-! Writes. -/

/-- x with w bits from bit lo on replaced. -/
def putBits (x lo w b : Nat) : Nat := x % 2 ^ lo + b % 2 ^ w * 2 ^ lo + x / 2 ^ (lo + w) * 2 ^ (lo + w)

/-- Write of one slot of a register: RW takes the bits, W1C clears those written 1, others keep. -/
def slotWrite (s : State) (i v : Nat) (e : Slot) : State :=
  let b := v / 2 ^ e.lo % 2 ^ e.width
  match e.fld.acc with
  | .rw => s.wr e.fld i (putBits (s.rd e.fld i) e.shift e.width b)
  | .w1c => s.w1c e.fld i (b * 2 ^ e.shift)
  | _ => s

/-- Write of a register's slots. -/
def plainWrite (s : State) (w : RegRow) (i v : Nat) : State := w.slots.foldl (fun s e => slotWrite s i v e) s

/-- Write of CLK_DIV (R6): reserved dividers keep the field. -/
def clkDivSet (s : State) (v : Nat) : State :=
  let h := bitsOf v 3 0
  let p := bitsOf v 7 4
  let s := if 4 ≤ h then s.wr .CLK_DIV_HDIV 0 h else s
  if 1 ≤ p ∧ p ≤ 8 then s.wr .CLK_DIV_PDIV 0 p else s

/-- Write of CLK_SLP or CLK_DSLP (R576): AONCLK and WCLK stay enabled, and CLK_DSLP has XREF's bit alone. -/
def clkVecSet (s : State) (f : Fld) (hi : Bool) (v : Nat) (ds : List Nat) : State :=
  ds.foldl (fun s d => if decide (32 ≤ d) == hi then s.wrBit f 0 d (bitOf v (d % 32)) else s) s

/-- Domains whose bit of CLK_SLP takes a write. -/
def slpDoms : List Nat := (List.range 39).filter fun d => d != 25 && d != 31

/-- A write of DEV_CMD (R53): codes that no command has start nothing (R6). -/
def devCmdSet (s : State) (v : Nat) : State :=
  match bitsOf v 7 0 with
  | 1 => devCmd s (s.dev == devSERVICE) fun s => idleEnter s 0
  | 2 => devCmd s (s.dev == devIDLE) fun s => idleExit s 0
  | 3 => devCmd s (s.dev == devIDLE) standbyEnter
  | 4 => chipLike s 2
  | 5 => devCmd s s.maySwitch hotBegin
  | _ => s

/-- Write of FW_MBX_LEN (R43): a length past 16,384 keeps the field. -/
def fwLenSet (s : State) (v : Nat) : State :=
  if s.on .FW_MBX_STAT_BUSY 0 ∨ 16384 < bitsOf v 14 0 then s else s.wr .FW_MBX_LEN_LEN 0 (bitsOf v 14 0)

/-- Write of GSB_CFG (R6, R111): reserved functions keep the field. -/
def gsbSet (s : State) (k v : Nat) : State :=
  let s := if bitsOf v 2 0 ≤ 4 then s.wr .GSB_CFG_FUNC k (bitsOf v 2 0) else s
  (s.wr .GSB_CFG_LINK k (bitsOf v 6 3)).wr .GSB_CFG_TL k (bitsOf v 13 8)

/-- Write of FLT_CFG (R338): bit 7 of CLASS is reserved. -/
def filtSet (s : State) (k v : Nat) : State :=
  (((s.wr .FLT_CFG_CLASS k (bitsOf v 6 0)).wr .FLT_CFG_MINV k (bitsOf v 8 8)).wr .FLT_CFG_TRUNC k (bitsOf v 9 9)).wr .FLT_CFG_KEEP k (bitsOf v 17 10)

/-- Write of RND_CMD whose cryptography the command does not give: its findings are free values. -/
def rndCmdSet (s : State) (v : Nat) : State :=
  let x := s.freshNat
  let y := x.2.freshBytes (if bitsOf v 7 0 = 4 then 72 else 128)
  rndStart y.2 (bitsOf v 7 0) (bitsOf v 15 8) (bitsOf v 23 16) (x.1 % 2 == 1) y.1

/-- A write of a register of the device control, fault, housekeeping, two-wire, check unit, calibration, Rind, timebase or profile blocks that is more than
storing its fields; none: no such register. -/
def lowWrite (s : State) (base i v : Nat) : Option State :=
  match base with
  | 0x18 => some (devCmdSet s v)
  | 0x3000 => some (clkSelSet s v)
  | 0x3004 => some (clkDivSet s v)
  | 0x3020 => some (clkCmd s v)
  | 0x3030 => some (clkRunSet s false v 0)
  | 0x3034 => some (clkRunSet s true v 0)
  | 0x3038 => some (clkVecSet s .CLK_SLP_EN false v slpDoms)
  | 0x303C => some (clkVecSet s .CLK_SLP_EN true v slpDoms)
  | 0x3040 => some (clkVecSet s .CLK_DSLP_EN false v [27])
  | 0x3044 => some s
  | 0x3080 => some (fmCtlSet s v)
  | 0x4008 => some (pwrOffSet s false v)
  | 0x400C => some (pwrOffSet s true v)
  | 0x5000 => some (rstCmd s v)
  | 0x8000 => some (fwMbxCtl s v)
  | 0x8008 => some (fwLenSet s v)
  | 0x800C => some (if s.on .FW_MBX_STAT_BUSY 0 then s else s.wr .FW_MBX_OFS_OFS 0 v)
  | 0x9000 => some (mbDoorbell s 0 v)
  | 0x100000 => some (fltCtlSet s v)
  | 0x100004 => some (gstatSet s v)
  | 0x100018 => some (firstClear s v)
  | 0x100040 => some (fltInjSet s v)
  | 0x100100 => some (statClear s i v)
  | 0x101000 => some (sevSet s i v)
  | 0x200190 => some (thmCfgSet s v)
  | 0x300040 => some (mbDoorbell s 1 v)
  | 0x400000 => some (cuCtlSet s i v)
  | 0x400004 => some (cuCmd s i v)
  | 0x400008 => some (cuFeed s i 1 v)
  | 0x40000C => some (cuFeed s i 2 v)
  | 0x400010 => some (cuFeed s i 4 v)
  | 0x400014 => some (cuValSet s i 0 v)
  | 0x400018 => some (cuValSet s i 1 v)
  | 0x400024 => some (cuExpSet s i 0 v)
  | 0x400028 => some (cuExpSet s i 1 v)
  | 0x40002C => some (cuPlace s .CU_ALIVE_AOFS i v)
  | 0x400034 => some (cuStatSet s i v)
  | 0x400038 => some (cuPlace s .CU_CNT_CNT i v)
  | 0x440000 => some (calCtlSet s v)
  | 0x440004 => some (calCmd s v)
  | 0x500010 => some (rndCmdSet s v)
  | 0x600010 => some (vinCtlSet s v)
  | 0x600014 => some (vinNodeSet s v)
  | 0x600048 => some (vinSendWrite s v)
  | 0x700000 => some (f5CtlSet s v)
  | 0x701000 => some (f5ModeSet s i v)
  | _ => none

/-- The same for a register of a grove. -/
def groveWrite (s : State) (r : Route) (base i v : Nat) : Option State :=
  match base - 0x1000000 with
  | 0x0 => some (linkCfgSet s i v)
  | 0x100 => some (pathModeSet s i v)
  | 0x280 => some (pathSrcSet s i v)
  | 0x400 => some (ltCfgSet s i v)
  | 0x500 => some (lnkPciSet s i v)
  | 0x600 => some (ltPciCfgSet s i v)
  | 0x604 => some (ltRingSet s i false v)
  | 0x608 => some (ltRingSet s i true v)
  | 0x614 => some (ltEthCfgSet s i v)
  | 0x700 => some (gsbSet s i v)
  | 0x800 => some (lnkEthSet s i v)
  | 0xB00 => some (pathPatSet s i v)
  | 0xC00 => some (rawRateSet s i v)
  | 0xC40 => some (pathDlySet s i v)
  | 0x2000 => some (seqCtlSet s i v 0)
  | 0x2100 => some (regHalf s r (i / 128) (i / 32) (i % 32) false v)
  | 0x2104 => some (regHalf s r (i / 128) (i / 32) (i % 32) true v)
  | 0x3400 => some (matchCmd s i v)
  | 0x3500 => some (filtSet s i v)
  | 0x3704 => some (injCmd s i v)
  | 0x10000 => some (xcvrCtlSet s i v)
  | 0x10008 => some (orTxerr i s (firSet s i v))
  | 0x10010 => some (orTxerr i s (lvlSet s i v))
  | 0x10014 => some (orTxerr i s (clkSet s i v))
  | 0x10018 => some (orTxerr i s (ppmSet s i v))
  | 0x1001C => some (qualCtlSet s i v)
  | _ => none

/-- The same for a register of the towers, the press, the trigger fabric or the harvest engines. -/
def highWrite (s : State) (w : RegRow) (i v : Nat) : Option State :=
  match w.base with
  | 0x2000008 => some (twrClr s i v)
  | 0x2000010 => some (rfmSet s i v)
  | 0x2001004 => some (chCmd s (i / 16) (i % 16) v)
  | 0x2040000 => some (dlrCfgSet s i v)
  | 0x2100200 => some (scrCfgSet s (i / 16) (i % 16) v)
  | 0x2100304 => some (logAck s i v)
  | 0x2100800 => some (repCmd s i v)
  | 0x2100A14 => some (tstCmd s i v)
  | 0x3000030 => some (prsPlimSet s v)
  | 0x3010000 => some (strmCfgSet s i v)
  | 0x3012000 => some (strmCmd s v)
  | 0x3020000 => some (punCfgSet s i v)
  | 0x3020004 => some (punIfOff s i fun s => plainWrite s w i v)
  | 0x3020008 => some (punIfOff s i fun s => plainWrite s w i v)
  | 0x302000C => some (punIfOff s i fun s => plainWrite s w i v)
  | 0x3028000 => some (punCmd s v)
  | 0x3040000 => some (rplCfgSet s i v)
  | 0x3800108 => some (tlSet s (bitsOf v 5 0))
  | 0x380010C => some (tlClr s (bitsOf v 5 0))
  | 0x3900000 => some (hvCtlSet s i v)
  | 0x3900004 => some (hvBaseSet s i 0 v)
  | 0x3900008 => some (hvBaseSet s i 1 v)
  | 0x390000C => some (hvSizeSet s i v)
  | 0x3900010 => some (hvProdSet s i v)
  | _ => none

/-- Write of instance i of a register. -/
def writeReg (s : State) (r : Route) (w : RegRow) (i v : Nat) : State :=
  (if w.base < 0x1000000 then lowWrite s w.base i v else if w.base < 0x2000000 then groveWrite s r w.base i v else highWrite s w i v).getD
    (plainWrite s w i v)

/-- Write of a DW of the MSI-X table: vector control keeps its mask bit alone; unmasking a pending vector sends it (R452). -/
def msixWrite (s : State) (a v : Nat) : State :=
  if a % 16 = 12 then
    msixSend (s.setWin a (BitVec.ofNat 8 (v % 2))) ((a - 0x10000) / 16)
  else s.setWins a (leBytes 4 v)

/-- Write of the DW at an offset; where nothing stands it is discarded (R613). The firmware window takes nothing while BUSY = 1 (R43). -/
def writeDw (s : State) (r : Route) (a v : Nat) : State :=
  match winAt a with
  | some .ro => s
  | some .msix => msixWrite s a v
  | some .wo => if 0xC000 ≤ a ∧ a < 0x10000 ∧ s.on .FW_MBX_STAT_BUSY 0 then s else s.setWins a (leBytes 4 v)
  | none =>
    match memAt a with
    | some (g, data, w, hi) => memHalf s r g data w hi v
    | none =>
      match regAt a with
      | some (w, i) => writeReg s r w i v
      | none => s

/-- Write of one DW by a route (R640: a register that the profile owns takes none). -/
def busWriteDw (s : State) (r : Route) (a v : Nat) : State :=
  if s.busErr r a true then s.accessFail r a
  else if mapped a && s.ownedWrite a then s.set .F5_STAT_OWNERR 0
  else writeDw s r a v

/-- Write of DWs from offset a on, low first, each a write of its own. -/
def busWrite (s : State) (r : Route) (a : Nat) (vs : List Nat) : State := s.each vs.zipIdx fun s e => busWriteDw s r (a + 4 * e.2) e.1

/-- REGISTER_WRITE (R6, R447): a route's write of DWs from DW a on; whole says that the byte enables cover whole DWs. The port takes 1 or 2 DW, aligned to
their length. -/
def execRegisterWrite (r : Route) (a : BitVec 24) (vs : List DW) (whole : Bool) (s : State) : Host.Outcome State Fault Refusal :=
  live s fun s =>
    if r = .port ∧ (!whole ∨ 2 < vs.length ∨ vs.length = 2 ∧ a.toNat % 2 = 1) then xpNote s .XP_STAT_BE msgREFUSE
    else busWrite s r (4 * a.toNat) (vs.map BitVec.toNat)

end Sys2Proof.Machine
end

