-- ==== Sys2Proof/Machine/TwoWire.lean ====
section
/-! DEFINITION. The two-wire bus (R484 to R510): the commands of R489 as whole transactions, addressing, where the device answers NAK, PEC, broken transactions,
register access, alerts and the sending of MCTP packets. -/
namespace Sys2Proof.Machine

/-! Addressing and service. -/

/-- The device answers to a 7-bit address (R487, R488). -/
def State.twMine (s : State) (a : Nat) : Bool :=
  decide (8 ≤ a ∧ a < 0x78) &&
    (a == s.rd .TW_ADDR_PRIMARY 0
      || (s.on .TW_CFG_ADDR2EN 0 &&
          let m := if s.on .TW_CFG_MASKEN 0 then 127 - s.rd .TW_ADDR_MASK 0 else 127
          Nat.land a m == Nat.land (s.rd .TW_ADDR_ADDR2 0) m))

/-- Command codes that are served in the present state (R497). -/
def State.twServed (s : State) : List Nat :=
  if s.dead then [0x01, 0x02]
  else if s.dev < devINIT then [0x01, 0x02, 0x20, 0x21, 0x3F]
  else if s.fwRuns then [0x01, 0x02, 0x03, 0x0F, 0x10, 0x11, 0x20, 0x21, 0x30, 0x3F]
  else [0x01, 0x02, 0x10, 0x11, 0x30, 0x3F]

/-- A NAK at the address byte, for a busy device (R492). -/
def busyNak (s : State) : State := (s.incSat .TW_CNT_NAKBUSY 0 1).emit (.twNak .address)

/-- The device cannot take the transaction at once: images are being checked (R38). -/
def State.twBusy (s : State) (cmd : Nat) : Bool := s.on .X_FW_CHK 0 && (decide (s.dev < devINIT) || cmd == 0x20 || cmd == 0x21) && !s.dead

/-- The transaction may find the last chunk being written (R38). -/
def State.twWrites (s : State) (cmd : Nat) : Bool := s.on .X_FW_WR 0 && (decide (s.dev < devINIT) || cmd == 0x20 || cmd == 0x21) && !s.dead

/-- The running firmware, which a hot switch drains, answers a new command busy (DESIGN CHOICE, R56, log 108): the commands that it serves are NAKed at the address byte. -/
def State.twDrains (s : State) (cmd : Nat) : Bool := s.hot == .draining && [0x03, 0x0F, 0x20, 0x21].contains cmd

/-- Another route owns the load that FWCHUNK or FWDONE would act on (R48). -/
def State.twTaken (s : State) (cmd : Nat) : Bool := (cmd == 0x20 || cmd == 0x21) && s.loadTaken .twoWire

/-- A transaction to address a with command code cmd, in the order of R492: f is what follows the command code. A device held in reset by RESET_N, or whose kernel has no
clock (R568), answers nothing. -/
def twXfer (s : State) (a : BitVec 7) (cmd : Nat) (f : State → State) : Host.Outcome State Fault Refusal :=
  let s := s.start
  if s.on .X_RESETN_LOW 0 || !s.aonRuns || !s.twMine a.toNat then .next s
  else if s.dev = devSTANDBY then .next (s.emit (.twNak .address))
  else if s.twBusy cmd || s.twDrains cmd then .next (busyNak s)
  else if s.twWrites cmd && Config.chunkWriting s.freeCtr then .next (busyNak { s with freeCtr := s.freeCtr + 1 })
  else
    let s := if s.twWrites cmd then { s.clr .X_FW_WR 0 with freeCtr := s.freeCtr + 1 } else s
    if !s.twServed.contains cmd || s.twTaken cmd then .next (s.emit (.twNak .command)) else .next (f s)

/-! PEC (R493, R494). -/

/-- The PEC of bytes. -/
def pecOf (l : List Byte) : Byte := BitVec.ofNat 8 (crcOf crc8 l)

/-- The bytes of a transaction up to the command code: write address, code. -/
def twHead (a : BitVec 7) (cmd : Nat) : List Byte := [BitVec.ofNat 8 (2 * a.toNat), BitVec.ofNat 8 cmd]

/-- End of a write whose bytes are l: f executes it (R490, R492, R494); pec: a PEC byte is required. -/
def twWrite (s : State) (l : List Byte) (pec : Bool) (e : TwEnd) (f : State → State) : State :=
  match e with
  | .early => s.set .TW_STAT_PROTO 0
  | .over => s.emit (.twNak .data)
  | .stop none => if pec then s.set .TW_STAT_PECMISS 0 else f s
  | .stop (some p) =>
    if !pec then s.emit (.twNak .data) else if p = pecOf l then f s else (s.set .TW_STAT_PECERR 0).emit (.twNak .pec)

/-- Every command carries PEC. -/
def State.twPec (s : State) : Bool := s.on .TW_CFG_PEC 0

/-- Read part: the device returns the bytes of a form and its PEC, and 0xFF beyond; the controller takes n bytes. l are the bytes of the transaction before
it (R489 to R493). -/
def twRead (s : State) (l form : List Byte) (pec : Bool) (n : Nat) : State :=
  let full := if pec then form ++ [pecOf (l ++ form)] else form
  let s := if n = full.length then s else s.set .TW_STAT_PROTO 0
  s.emit (.twoWire (full.take n ++ List.replicate (n - full.length) 0xFF))

/-- The read address byte after a repeated START. -/
def twRdAddr (a : BitVec 7) : Byte := BitVec.ofNat 8 (2 * a.toNat + 1)

/-! Identification and state (the table of spec/02). -/

/-- The 8 bytes of IDENT. -/
def State.identForm (s : State) : List Byte :=
  leBytes 2 (s.rd .DEV_IDENT_VID 0) ++ leBytes 2 (s.rd .DEV_IDENT_DID 0) ++ leBytes 1 (s.rd .DEV_REV_STEP 0) ++ leBytes 1 s.dev
    ++ leBytes 1 ((if s.dev < devINIT then 1 else 0) + 2 * s.rd .DEV_STATE_NONAPPR 0) ++ leBytes 1 (s.rd .X_STRAP_ADDR 0 + 8 * s.rd .X_STRAP_RDLY 0)

/-- The 4 bytes of STATE. -/
def State.stateForm (s : State) : List Byte :=
  leBytes 1 s.dev ++ leBytes 1 (s.rd .DEV_STATE_LASTERR 0) ++ leBytes 1 (s.rd .DEV_STATE_INITSTEP 0)
    ++ leBytes 1 (s.rd .DEV_STATE_BANK 0 + 2 * s.rd .DEV_STATE_NONAPPR 0 + 4 * s.rd .DEV_STATE_CLKFAIL_EARLY 0 + 8 * s.rd .DEV_STATE_HR_PEND 0)

/-- A fixed or block read without further bytes of the controller: extra says that it writes one after the command code, which is the form's last byte. -/
def twGet (s : State) (a : BitVec 7) (cmd : Nat) (form : List Byte) (extra : Bool) (n : Nat) : State :=
  if extra then s.emit (.twNak .data) else twRead s (twHead a cmd ++ [twRdAddr a]) form s.twPec n

def execTwIdent (a : BitVec 7) (extra : Bool) (n : Nat) (s : State) : Host.Outcome State Fault Refusal :=
  twXfer s a 0x01 fun s => twGet s a 0x01 s.identForm extra n

def execTwState (a : BitVec 7) (extra : Bool) (n : Nat) (s : State) : Host.Outcome State Fault Refusal :=
  twXfer s a 0x02 fun s => twGet s a 0x02 s.stateForm extra n

/-- EVENTSUM (R503), its count byte first. -/
def State.eventsumForm (s : State) : List Byte :=
  let k := s.hostq.length
  let l := s.hostq.drop (k - 15)
  leBytes 1 (12 + 16 * l.length) ++ leBytes 2 k ++ leBytes 4 (s.evSeq l.length) ++ leBytes 4 (s.rd .MGT_EVSTAT_LOST 0) ++ leBytes 2 l.length
    ++ (l.map EvRec.image).flatten

def execEventsum (a : BitVec 7) (extra : Bool) (n : Nat) (s : State) : Host.Outcome State Fault Refusal :=
  twXfer s a 0x03 fun s => twGet s a 0x03 s.eventsumForm extra n

/-! Register access (R501, R502). -/

/-- Little-endian DWs of bytes. -/
def dwsOf : Nat → List Byte → List Nat
  | 0, _ => []
  | n + 1, l => leNat (l.take 4) :: dwsOf n (l.drop 4)

/-- DWs that a REGRD of k DWs reads when the controller takes n bytes of its read part: the first before it, each further one as the first byte of the one before
is sent. -/
def regrdDws (k n : Nat) : Nat := if k = 0 then 0 else 1 + min (k - 1) ((n + 2) / 4)

/-- Read DWs from offset a on; one that fails, or that is late (its bit of late), is sent as ones with REGERR. A late access still has its effect. -/
def regrdGo : Nat → Nat → Nat → State → List Byte × State
  | _, 0, _, s => ([], s)
  | late, k + 1, a, s =>
    let x := busDw s .twoWire a
    let x := if bitOf late 0 then (none, x.2.set .TW_STAT_REGERR 0) else x
    let r := regrdGo (late / 2) k (a + 4) x.2
    (leBytes 4 (x.1.getD 0xFFFFFFFF) ++ r.1, r.2)

/-- REGRD's read part: L bytes at an offset, of which the controller takes n bytes with count and PEC. Bit i of late: DW i's access has not completed when its
first byte is due; the first is due at the read address byte. -/
def regrdServe (s : State) (a : BitVec 7) (ofs len late n : Nat) : State :=
  if bitOf late 0 then busyNak s
  else
    let k := regrdDws (len / 4) n
    let x := regrdGo late k (ofs / 4 * 4) s
    let form := leBytes 1 len ++ x.1 ++ List.replicate (len - 4 * k) 0
    twRead x.2 [twRdAddr a] form s.twPec n

/-- REGRD (R489, R496, R501): block write of offset and length, ended by a repeated START with its PEC, and the block read. The PEC of the read part covers
the bytes after the write part's PEC, which reduces what precedes it to zero. -/
def execRegrd (a : BitVec 7) (count : Byte) (ofs : BitVec 32) (len : Byte) (e : TwEnd) (late n : Nat) (s : State) :
    Host.Outcome State Fault Refusal :=
  twXfer s a 0x10 fun s =>
    if count ≠ 5 then s.emit (.twNak .count)
    else if 252 < len.toNat ∨ len.toNat % 4 ≠ 0 then s.emit (.twNak .data)
    else
      let go := fun s => regrdServe s a ofs.toNat len.toNat late n
      let l := twHead a 0x10 ++ [count] ++ leBytes 4 ofs.toNat ++ [len]
      if e = .stop none ∧ s.twPec then (s.set .TW_STAT_PROTO 0).emit (.twNak .address) else twWrite s l s.twPec e go

/-- REGWR of a block: offset, then DWs (R496, R502). -/
def regwrDo (s : State) (l : List Byte) : State :=
  if l = [] then s else busWrite s .twoWire (leNat (l.take 4) / 4 * 4) (dwsOf (l.length / 4 - 1) (l.drop 4))

/-- A count that REGWR takes (R492). -/
def regwrCount (n : Nat) : Bool := n == 0 || decide (4 ≤ n ∧ n ≤ 255 ∧ n % 4 = 0)

def execRegwr (a : BitVec 7) (block : List Byte) (e : TwEnd) (s : State) : Host.Outcome State Fault Refusal :=
  twXfer s a 0x11 fun s =>
    if !regwrCount block.length then s.emit (.twNak .count)
    else twWrite s (twHead a 0x11 ++ leBytes 1 block.length ++ block) s.twPec e fun s => regwrDo s block

/-! Firmware loads (R45 to R48, R498). -/

/-- The kind of load that the two-wire route delivers: that of the load in progress, else of the idle bank once firmware runs. -/
def State.twIdle (s : State) : Bool := match s.fwLoad with | some l => l.idle | none => decide (devINIT ≤ s.dev)

def execFwchunk (a : BitVec 7) (data : List Byte) (e : TwEnd) (s : State) : Host.Outcome State Fault Refusal :=
  twXfer s a 0x20 fun s =>
    if 240 < data.length then s.emit (.twNak .count)
    else twWrite s (twHead a 0x20 ++ leBytes 1 data.length ++ data) s.twPec e fun s =>
      if s.loadOk s.twIdle then loadAppend s .twoWire s.twIdle data else s

def execFwdone (a : BitVec 7) (e : TwEnd) (s : State) : Host.Outcome State Fault Refusal :=
  twXfer s a 0x21 fun s => twWrite s (twHead a 0x21) s.twPec e fun s => loadDone s .twoWire s.twIdle

/-! Settings. -/

/-- ALERTCFG: host address with EN, cause mask; its reserved bits are zero (R492). -/
def execAlertcfg (a : BitVec 7) (b0 b1 : Byte) (e : TwEnd) (s : State) : Host.Outcome State Fault Refusal :=
  twXfer s a 0x30 fun s =>
    if 16 ≤ b1.toNat then s.emit (.twNak .data)
    else twWrite s (twHead a 0x30 ++ [b0, b1]) s.twPec e fun s =>
      ((s.wr .TW_ALERT_HOSTADDR 0 (b0.toNat % 128)).wr .TW_ALERT_EN 0 (b0.toNat / 128)).wr .TW_ALERT_CAUSES 0 b1.toNat

/-- BUSCFG: TW_CFG, ADDR2, MASK, zero. -/
def execBuscfg (a : BitVec 7) (b0 b1 b2 b3 : Byte) (e : TwEnd) (s : State) : Host.Outcome State Fault Refusal :=
  twXfer s a 0x3F fun s =>
    if 16 ≤ b0.toNat ∨ 128 ≤ b1.toNat ∨ 128 ≤ b2.toNat ∨ b3 ≠ 0 then s.emit (.twNak .data)
    else twWrite s (twHead a 0x3F ++ [b0, b1, b2, b3]) s.twPec e fun s =>
      let v := b0.toNat
      let s := ((s.wr .TW_CFG_PEC 0 (bitsOf v 0 0)).wr .TW_CFG_TOEN 0 (bitsOf v 1 1)).wr .TW_CFG_ADDR2EN 0 (bitsOf v 2 2)
      ((s.wr .TW_CFG_MASKEN 0 (bitsOf v 3 3)).wr .TW_ADDR_ADDR2 0 b1.toNat).wr .TW_ADDR_MASK 0 b2.toNat

/-- TW_CONFIG_WRITE (R510): a route's write of TW_CFG, TW_ADDR, TW_SETUP, TW_CCLK or TW_ALERT. Transactions are whole commands, so the next one sees it. -/
def execTwConfigWrite (r : Route) (reg : Fin 5) (v : DW) (s : State) : Host.Outcome State Fault Refusal :=
  live s fun s => busWriteDw s r (0x300000 + 4 * reg.val) v.toNat

/-! Broken transactions. -/

/-- The bus sends its device event (R543). -/
def twEvent (s : State) (kind : Nat) : State := s.raise 1055 kind 0

/-- TW_REPEATED_START_ABORT (R495). In STANDBY every transaction ends at its address byte. -/
def execTwRepeatedStartAbort (s : State) : Host.Outcome State Fault Refusal :=
  aonLive s fun s => if s.dev = devSTANDBY then s else twEvent (s.set .TW_STAT_PROTO 0) msgPROTOCOL

/-! Alerts and MCTP packets (R505 to R508). -/

/-- An attempt failed: n attempts had failed before. After 8 failed retries it is given up. -/
def tryCount (s : State) (f : Fld) (gone : State → State) : State :=
  if s.rd f 0 = 8 then twEvent (gone (s.clr f 0)) msgCANCEL else s.incWrap f 0 1

/-- A failed attempt of the alert. -/
def alertMiss (s : State) : State := tryCount s .X_ALERT_N fun s => (s.clr .X_ALERT 0).set .TW_STAT_ALERTFAIL 0

/-- A failed attempt of the packet in hand: its message is dropped with it. -/
def mctpMiss (s : State) : State := tryCount s .X_MCTP_N fun s => { s with mctpq := s.mctpq.drop 1 }.set .TW_STAT_MCTPFAIL 0

/-- The alert's bytes: host address, primary address, causes, sequence number of the newest queued record; with none queued that number is a free value. -/
def alertBytes (s : State) : List Byte × State :=
  let x := s.freshNat
  let q := if s.hostq = [] then x.1 else s.evSeq 1
  let l := leBytes 1 (2 * s.rd .TW_ALERT_HOSTADDR 0) ++ leBytes 1 (2 * s.rd .TW_ADDR_PRIMARY 0) ++ leBytes 1 (s.rd .X_ALERT 0) ++ leBytes 2 q
  (if s.twPec then l ++ [pecOf l] else l, if s.hostq = [] then x.2 else s)

/-- An attempt of the alert. -/
def alertTry (s : State) (o : TwTry) : State :=
  match o with
  | .acked =>
    let x := alertBytes s
    ((x.2.clr .X_ALERT 0).clr .X_ALERT_N 0).emit (.twoWire x.1)
  | .lost | .nak => alertMiss s

/-- The device may send an alert. -/
def State.alertDue (s : State) : Bool := s.on .TW_ALERT_EN 0 && s.rd .X_ALERT 0 != 0

/-- ALERT (R505): the first attempt. -/
def execAlert (o : TwTry) (s : State) : Host.Outcome State Fault Refusal :=
  aonLive s fun s => if s.alertDue && s.rd .X_ALERT_N 0 == 0 then alertTry s o else s

/-- An attempt of the oldest packet. -/
def mctpTry (s : State) (o : TwTry) : State :=
  match s.mctpq with
  | [] => s
  | [] :: r => { s with mctpq := r }
  | (p :: t) :: r =>
    match o with
    | .acked => ({ s with mctpq := if t = [] then r else t :: r }.clr .X_MCTP_N 0).emit (.twoWire p)
    | .lost | .nak => mctpMiss s

/-- A further attempt counts as a retry. -/
def retryCount (s : State) (f : Fld) : State := if s.rd f 0 = 0 then s else s.incSat .TW_CNT_RETRIES 0 1

/-- ALERT_RETRY (R506, R508): a retry of the alert, or an attempt, first or further, of the oldest MCTP packet. -/
def execAlertRetry (mctp : Bool) (o : TwTry) (s : State) : Host.Outcome State Fault Refusal :=
  aonLive s fun s =>
    if mctp then (if s.mctpq = [] then s else mctpTry (retryCount s .X_MCTP_N) o)
    else if s.alertDue && s.rd .X_ALERT_N 0 != 0 then alertTry (retryCount s .X_ALERT_N) o
    else s

/-- TW_TIMEOUT (R499): a TW reset where TOEN = 1. cut: the controller-role transaction that it cuts, an alert (false) or a packet (true), which counts as a failed
attempt. -/
def execTwTimeout (cut : Option Bool) (s : State) : Host.Outcome State Fault Refusal :=
  aonLive s fun s =>
    if s.on .TW_CFG_TOEN 0 then
      let s := match cut with
        | some true => if s.mctpq = [] then s else mctpMiss (retryCount s .X_MCTP_N)
        | some false => if s.alertDue then alertMiss (retryCount s .X_ALERT_N) else s
        | none => s
      twEvent (s.set .TW_STAT_TOUT 0) msgTIMEOUT
    else s

/-- Least count of an MCTP packet: source address and transport header. -/
def mctpLeast : Nat := 5

/-- MCTP_PACKET (R496, R508): a block write that delivers a packet; room: the firmware can take one. It always carries PEC (R493). -/
def execMctpPacket (a : BitVec 7) (block : List Byte) (room : Bool) (e : TwEnd) (s : State) : Host.Outcome State Fault Refusal :=
  twXfer s a 0x0F fun s =>
    if !(room && s.fwFree) then s.emit (.twNak .address)
    else if block ≠ [] ∧ block.length < mctpLeast ∨ 255 < block.length then s.emit (.twNak .count)
    else twWrite s (twHead a 0x0F ++ leBytes 1 block.length ++ block) true e fun s =>
      if block = [] then s else { s with mctpin := s.mctpin ++ [block] }

end Sys2Proof.Machine
end

