-- ==== Sys2Proof/Machine/Dispatch.lean ====
section
/-! DEFINITION. One arm per command: its meaning, or a refusal by name. -/
namespace Sys2Proof.Machine

/-- The effect of a command on everything but the queue. -/
def exec (i : Instr) (s : State) : Host.Outcome State Fault Refusal :=
  match i with
  | .por addr rdly => Sys2Proof.Machine.execPor addr rdly s
  | .pinReset => Sys2Proof.Machine.execPinReset s
  | .chipReset r => Sys2Proof.Machine.execChipReset r s
  | .refPresent ref => Sys2Proof.Machine.execRefPresent ref s
  | .refWaitEnd ref => Sys2Proof.Machine.execRefWaitEnd ref s
  | .cpllLock => Sys2Proof.Machine.execCpllLock s
  | .readoutReady => Sys2Proof.Machine.execReadoutReady s
  | .fwMbxGo r target => Sys2Proof.Machine.execFwMbxGo r target s
  | .fwMbxAbort r target => Sys2Proof.Machine.execFwMbxAbort r target s
  | .fwMbxDone r target => Sys2Proof.Machine.execFwMbxDone r target s
  | .imageCheckDone key keyid sig hash => Sys2Proof.Machine.execImageCheckDone key keyid sig hash s
  | .initStepDone tsvs words => Sys2Proof.Machine.execInitStepDone tsvs words s
  | .enterIdle r busy => Sys2Proof.Machine.execEnterIdle r busy s
  | .exitIdle r busy => Sys2Proof.Machine.execExitIdle r busy s
  | .enterStandby r => Sys2Proof.Machine.execEnterStandby r s
  | .standbyWake hashOk => Sys2Proof.Machine.execStandbyWake hashOk s
  | .hotSwitch r => Sys2Proof.Machine.execHotSwitch r s
  | .hotSwitchQuiescent => Sys2Proof.Machine.execHotSwitchQuiescent s
  | .hotSwitchTimeout => Sys2Proof.Machine.execHotSwitchTimeout s
  | .fwReady => Sys2Proof.Machine.execFwReady s
  | .switchBack => Sys2Proof.Machine.execSwitchBack s
  | .linkCfgWrite r g k v => Sys2Proof.Machine.execLinkCfgWrite r g k v s
  | .ltCfgWrite r g t v => Sys2Proof.Machine.execLtCfgWrite r g t v s
  | .pathModeWrite r n v => Sys2Proof.Machine.execPathModeWrite r n v s
  | .pathSrcWrite r p v => Sys2Proof.Machine.execPathSrcWrite r p v s
  | .modeSwitch p => Sys2Proof.Machine.execModeSwitch p s
  | .modeChangeTimeout p => Sys2Proof.Machine.execModeChangeTimeout p s
  | .modeFromDarkEffect p => Sys2Proof.Machine.execModeFromDarkEffect p s
  | .unitDecode p same u => Sys2Proof.Machine.execUnitDecode p same u s
  | .trainingOrderedSet L side ts tgt => Sys2Proof.Machine.execTrainingOrderedSet L side ts tgt s
  | .eqPresetRequest r req => Sys2Proof.Machine.execEqPresetRequest r req s
  | .eqPhaseDone r missed => Sys2Proof.Machine.execEqPhaseDone r missed s
  | .skpOrderedSet p drift => Sys2Proof.Machine.execSkpOrderedSet p drift s
  | .ebRecentre p overflow units => Sys2Proof.Machine.execEbRecentre p overflow units s
  | .marginCommand n side c => Sys2Proof.Machine.execMarginCommand n side c s
  | .marginTimeout r => Sys2Proof.Machine.execMarginTimeout r s
  | .linkPowerState L st idled dirs => Sys2Proof.Machine.execLinkPowerState L st idled dirs s
  | .gsbPerst g ix level => Sys2Proof.Machine.execGsbPerst g ix level s
  | .cxlNegotiation L fmt => Sys2Proof.Machine.execCxlNegotiation L fmt s
  | .lnkPciWrite r L v => Sys2Proof.Machine.execLnkPciWrite r L v s
  | .ltPciCfgWrite r t v => Sys2Proof.Machine.execLtPciCfgWrite r t v s
  | .ltRingWrite r t tx v => Sys2Proof.Machine.execLtRingWrite r t tx v s
  | .ltRxTlp t slot checkOk ecrc ep ecrcBad seq bytes => Sys2Proof.Machine.execLtRxTlp t slot checkOk ecrc ep ecrcBad seq bytes s
  | .ltTxDescriptor t => Sys2Proof.Machine.execLtTxDescriptor t s
  | .ltTlpAck t d => Sys2Proof.Machine.execLtTlpAck t d s
  | .ltFcInit t => Sys2Proof.Machine.execLtFcInit t s
  | .lnkEthWrite r L v => Sys2Proof.Machine.execLnkEthWrite r L v s
  | .anFailure L side => Sys2Proof.Machine.execAnFailure L side s
  | .segmentDataMode L side st corr unc sym => Sys2Proof.Machine.execSegmentDataMode L side st corr unc sym s
  | .segmentLoss L side st => Sys2Proof.Machine.execSegmentLoss L side st s
  | .ltEthRxFrame t fcsBad bytes => Sys2Proof.Machine.execLtEthRxFrame t fcsBad bytes s
  | .ltEthTxFrame t => Sys2Proof.Machine.execLtEthTxFrame t s
  | .ltEthCfgWrite r t v => Sys2Proof.Machine.execLtEthCfgWrite r t v s
  | .rawRateWrite r n v => Sys2Proof.Machine.execRawRateWrite r n v s
  | .pathPatWrite r p v => Sys2Proof.Machine.execPathPatWrite r p v s
  | .patternLock p => Sys2Proof.Machine.execPatternLock p s
  | .pathDlyWrite r p v => Sys2Proof.Machine.execPathDlyWrite r p v s
  | .delayChangeEffect p => Sys2Proof.Machine.execDelayChangeEffect p s
  | .signalDetectChange r mv => Sys2Proof.Machine.execSignalDetectChange r mv s
  | .cdrLock r => Sys2Proof.Machine.execCdrLock r s
  | .adaptationDone r ctle dfe => Sys2Proof.Machine.execAdaptationDone r ctle dfe s
  | .lossOfLock r expected => Sys2Proof.Machine.execLossOfLock r expected s
  | .txPpmWrite r x v => Sys2Proof.Machine.execTxPpmWrite r x v s
  | .txClkWrite r x v => Sys2Proof.Machine.execTxClkWrite r x v s
  | .sscSettingApply r => Sys2Proof.Machine.execSscSettingApply r s
  | .txFirWrite r x v => Sys2Proof.Machine.execTxFirWrite r x v s
  | .txLvlWrite r x v => Sys2Proof.Machine.execTxLvlWrite r x v s
  | .detreq r x ctl => Sys2Proof.Machine.execDetreq r x ctl s
  | .rxDetectDone r present => Sys2Proof.Machine.execRxDetectDone r present s
  | .qualWindowEnd r eye ber noError ofs ofsIdx => Sys2Proof.Machine.execQualWindowEnd r eye ber noError ofs ofsIdx s
  | .qualSnap r x ctl => Sys2Proof.Machine.execQualSnap r x ctl s
  | .calRunStart g => Sys2Proof.Machine.execCalRunStart g s
  | .calPassDone x found => Sys2Proof.Machine.execCalPassDone x found s
  | .calSwap x tx => Sys2Proof.Machine.execCalSwap x tx s
  | .calRequeue x => Sys2Proof.Machine.execCalRequeue x s
  | .calNoUnitTimeout x => Sys2Proof.Machine.execCalNoUnitTimeout x s
  | .writeback r => Sys2Proof.Machine.execWriteback r s
  | .writebackDone differs => Sys2Proof.Machine.execWritebackDone differs s
  | .recal r n => Sys2Proof.Machine.execRecal r n s
  | .foreground r n => Sys2Proof.Machine.execForeground r n s
  | .foregroundCalDone n a b => Sys2Proof.Machine.execForegroundCalDone n a b s
  | .trefFrame sync epochBytes crc late => Sys2Proof.Machine.execTrefFrame sync epochBytes crc late s
  | .trefEdgeLoss => Sys2Proof.Machine.execTrefEdgeLoss s
  | .epochSlewTick => Sys2Proof.Machine.execEpochSlewTick s
  | .tlSet r ix same => Sys2Proof.Machine.execTlSet r ix same s
  | .tlClr r ix same => Sys2Proof.Machine.execTlClr r ix same s
  | .tlPulseEnd ix => Sys2Proof.Machine.execTlPulseEnd ix s
  | .vinePortState ix st => Sys2Proof.Machine.execVinePortState ix st s
  | .vineEpochSend => Sys2Proof.Machine.execVineEpochSend s
  | .vineEpochFrame epoch valid hops parent => Sys2Proof.Machine.execVineEpochFrame epoch valid hops parent s
  | .epochFrameTimeout => Sys2Proof.Machine.execEpochFrameTimeout s
  | .vineDreqSend => Sys2Proof.Machine.execVineDreqSend s
  | .vineDreq ix seq turn => Sys2Proof.Machine.execVineDreq ix seq turn s
  | .vineDrsp seq t2 t3 wait => Sys2Proof.Machine.execVineDrsp seq t2 t3 wait s
  | .vineStatusSend => Sys2Proof.Machine.execVineStatusSend s
  | .vineStatusFrame ix id hops valid miss => Sys2Proof.Machine.execVineStatusFrame ix id hops valid miss s
  | .vinSend r vl clear => Sys2Proof.Machine.execVinSend r vl clear s
  | .vineTrigup ix origin vl clear t lateO => Sys2Proof.Machine.execVineTrigup ix origin vl clear t lateO s
  | .rootTriggerAdmit => Sys2Proof.Machine.execRootTriggerAdmit s
  | .vineTrig seq origin vl clear t lateO => Sys2Proof.Machine.execVineTrig seq origin vl clear t lateO s
  | .vineTriggerAct same => Sys2Proof.Machine.execVineTriggerAct same s
  | .vinCtlWrite r node v => Sys2Proof.Machine.execVinCtlWrite r node v s
  | .seqGo r g threads => Sys2Proof.Machine.execSeqGo r g threads s
  | .seqStop r g threads => Sys2Proof.Machine.execSeqStop r g threads s
  | .seqStep r g threads adv => Sys2Proof.Machine.execSeqStep r g threads adv s
  | .seqRegsWrite r g t ix hi v => Sys2Proof.Machine.execSeqRegsWrite r g t ix hi v s
  | .memLowHalfWrite r g data w v => Sys2Proof.Machine.execMemLowHalfWrite r g data w v s
  | .memHighHalfWrite r g data w v => Sys2Proof.Machine.execMemHighHalfWrite r g data w v s
  | .groveReset g => Sys2Proof.Machine.execGroveReset g s
  | .groveClearDone g => Sys2Proof.Machine.execGroveClearDone g s
  | .nop g t => Sys2Proof.Machine.execNop g t s
  | .halt g t => Sys2Proof.Machine.execHalt g t s
  | .yield g t => Sys2Proof.Machine.execYield g t s
  | .fence g t => Sys2Proof.Machine.execFence g t s
  | .add g t => Sys2Proof.Machine.execAdd g t s
  | .sub g t => Sys2Proof.Machine.execSub g t s
  | .and g t => Sys2Proof.Machine.execAnd g t s
  | .or g t => Sys2Proof.Machine.execOr g t s
  | .xor g t => Sys2Proof.Machine.execXor g t s
  | .shl g t => Sys2Proof.Machine.execShl g t s
  | .shr g t => Sys2Proof.Machine.execShr g t s
  | .mul g t => Sys2Proof.Machine.execMul g t s
  | .addi g t => Sys2Proof.Machine.execAddi g t s
  | .andi g t => Sys2Proof.Machine.execAndi g t s
  | .ori g t => Sys2Proof.Machine.execOri g t s
  | .ldi g t => Sys2Proof.Machine.execLdi g t s
  | .ldhi g t => Sys2Proof.Machine.execLdhi g t s
  | .ld g t => Sys2Proof.Machine.execLd g t s
  | .st g t => Sys2Proof.Machine.execSt g t s
  | .br g t => Sys2Proof.Machine.execBr g t s
  | .beq g t => Sys2Proof.Machine.execBeq g t s
  | .bne g t => Sys2Proof.Machine.execBne g t s
  | .blt g t => Sys2Proof.Machine.execBlt g t s
  | .bge g t => Sys2Proof.Machine.execBge g t s
  | .call g t => Sys2Proof.Machine.execCall g t s
  | .ret g t => Sys2Proof.Machine.execRet g t s
  | .loop g t => Sys2Proof.Machine.execLoop g t s
  | .wpos g t => Sys2Proof.Machine.execWpos g t s
  | .wepoch g t => Sys2Proof.Machine.execWepoch g t s
  | .rpos g t => Sys2Proof.Machine.execRpos g t s
  | .repoch g t => Sys2Proof.Machine.execRepoch g t s
  | .wany g t => Sys2Proof.Machine.execWany g t s
  | .wmatch g t => Sys2Proof.Machine.execWmatch g t s
  | .twait g t => Sys2Proof.Machine.execTwait g t s
  | .waitComplete g t => Sys2Proof.Machine.execWaitComplete g t s
  | .waitLimit g t => Sys2Proof.Machine.execWaitLimit g t s
  | .mode g t adv => Sys2Proof.Machine.execMode g t adv s
  | .trainRecovery g t => Sys2Proof.Machine.execTrainRecovery g t s
  | .trainHotReset g t => Sys2Proof.Machine.execTrainHotReset g t s
  | .trainDisable g t => Sys2Proof.Machine.execTrainDisable g t s
  | .trainRestart g t => Sys2Proof.Machine.execTrainRestart g t s
  | .rate g t => Sys2Proof.Machine.execRate g t s
  | .ratePpm g t => Sys2Proof.Machine.execRatePpm g t s
  | .eq g t => Sys2Proof.Machine.execEq g t s
  | .eqLvl g t => Sys2Proof.Machine.execEqLvl g t s
  | .arm g t => Sys2Proof.Machine.execArm g t s
  | .disarm g t => Sys2Proof.Machine.execDisarm g t s
  | .rmatch g t => Sys2Proof.Machine.execRmatch g t s
  | .capon g t adv => Sys2Proof.Machine.execCapon g t adv s
  | .capoff g t adv => Sys2Proof.Machine.execCapoff g t adv s
  | .capmark g t adv => Sys2Proof.Machine.execCapmark g t adv s
  | .capsel g t => Sys2Proof.Machine.execCapsel g t s
  | .filt g t => Sys2Proof.Machine.execFilt g t s
  | .inj g t adv => Sys2Proof.Machine.execInj g t adv s
  | .errb g t adv => Sys2Proof.Machine.execErrb g t adv s
  | .dly g t adv => Sys2Proof.Machine.execDly g t adv s
  | .skpadj g t adv => Sys2Proof.Machine.execSkpadj g t adv s
  | .tset g t same => Sys2Proof.Machine.execTset g t same s
  | .tclr g t same => Sys2Proof.Machine.execTclr g t same s
  | .vsend g t => Sys2Proof.Machine.execVsend g t s
  | .cntr g t => Sys2Proof.Machine.execCntr g t s
  | .evt g t => Sys2Proof.Machine.execEvt g t s
  | .evtG g t => Sys2Proof.Machine.execEvtG g t s
  | .matchCmdArm r g m block => Sys2Proof.Machine.execMatchCmdArm r g m block s
  | .matchCmdDisarm r g m => Sys2Proof.Machine.execMatchCmdDisarm r g m s
  | .captureSwitch p => Sys2Proof.Machine.execCaptureSwitch p s
  | .injEntryFire p => Sys2Proof.Machine.execInjEntryFire p s
  | .insertSearchExpire g e => Sys2Proof.Machine.execInsertSearchExpire g e s
  | .injCancel r g e => Sys2Proof.Machine.execInjCancel r g e s
  | .strmCfgWrite r p v => Sys2Proof.Machine.execStrmCfgWrite r p v s
  | .strmOn r p => Sys2Proof.Machine.execStrmOn r p s
  | .strmOff r p => Sys2Proof.Machine.execStrmOff r p s
  | .strmCmdTimeout p => Sys2Proof.Machine.execStrmCmdTimeout p s
  | .elideRunClose p => Sys2Proof.Machine.execElideRunClose p s
  | .admissionWindow t => Sys2Proof.Machine.execAdmissionWindow t s
  | .punCfgWrite r k v => Sys2Proof.Machine.execPunCfgWrite r k v s
  | .punTrig r k => Sys2Proof.Machine.execPunTrig r k s
  | .punRestart r k => Sys2Proof.Machine.execPunRestart r k s
  | .punFlush r k => Sys2Proof.Machine.execPunFlush r k s
  | .punnetLineTrigger k => Sys2Proof.Machine.execPunnetLineTrigger k s
  | .xtsUnitRewrite k => Sys2Proof.Machine.execXtsUnitRewrite k s
  | .rplCfgWrite r p v => Sys2Proof.Machine.execRplCfgWrite r p v s
  | .replaySend p => Sys2Proof.Machine.execReplaySend p s
  | .refreshCommand t c pc => Sys2Proof.Machine.execRefreshCommand t c pc s
  | .refreshManagement t c pc bank => Sys2Proof.Machine.execRefreshManagement t c pc bank s
  | .towerClear r t first count => Sys2Proof.Machine.execTowerClear r t first count s
  | .towerClearDone t => Sys2Proof.Machine.execTowerClearDone t s
  | .chReset r t c => Sys2Proof.Machine.execChReset r t c s
  | .chanResetDone t c => Sys2Proof.Machine.execChanResetDone t c s
  | .dlrCfgWrite r p v => Sys2Proof.Machine.execDlrCfgWrite r p v s
  | .burstRewrite t => Sys2Proof.Machine.execBurstRewrite t s
  | .scrubBurst t c => Sys2Proof.Machine.execScrubBurst t c s
  | .queuedSoftRepairStart t => Sys2Proof.Machine.execQueuedSoftRepairStart t s
  | .repSoft r t => Sys2Proof.Machine.execRepSoft r t s
  | .softRepairDone t => Sys2Proof.Machine.execSoftRepairDone t s
  | .nvmRepairAppend => Sys2Proof.Machine.execNvmRepairAppend s
  | .repHard r t => Sys2Proof.Machine.execRepHard r t s
  | .hardRepairDone t => Sys2Proof.Machine.execHardRepairDone t s
  | .repTsv r t c lane => Sys2Proof.Machine.execRepTsv r t c lane s
  | .tsvSwapDone t => Sys2Proof.Machine.execTsvSwapDone t s
  | .repRetire r t c => Sys2Proof.Machine.execRepRetire r t c s
  | .retireDone t => Sys2Proof.Machine.execRetireDone t s
  | .tstRead r t => Sys2Proof.Machine.execTstRead r t s
  | .tstReadraw r t => Sys2Proof.Machine.execTstReadraw r t s
  | .tstWrite r t => Sys2Proof.Machine.execTstWrite r t s
  | .tstWriteraw r t => Sys2Proof.Machine.execTstWriteraw r t s
  | .logFree r t e => Sys2Proof.Machine.execLogFree r t e s
  | .logFreeAll r t => Sys2Proof.Machine.execLogFreeAll r t s
  | .portReset kind => Sys2Proof.Machine.execPortReset kind s
  | .busMasterChange bme d3hot cfg => Sys2Proof.Machine.execBusMasterChange bme d3hot cfg s
  | .bar2Read x len => Sys2Proof.Machine.execBar2Read x len s
  | .bar2Write x bytes en => Sys2Proof.Machine.execBar2Write x bytes en s
  | .bar2Starve => Sys2Proof.Machine.execBar2Starve s
  | .hvProdWrite r e v => Sys2Proof.Machine.execHvProdWrite r e v s
  | .harvestRaw e desc => Sys2Proof.Machine.execHarvestRaw e desc s
  | .harvestRecords e desc => Sys2Proof.Machine.execHarvestRecords e desc s
  | .hvAbort r e => Sys2Proof.Machine.execHvAbort r e s
  | .hvEnable r e en => Sys2Proof.Machine.execHvEnable r e en s
  | .mbDoorbell r => Sys2Proof.Machine.execMbDoorbell r s
  | .twMbDoorbell r => Sys2Proof.Machine.execTwMbDoorbell r s
  | .getInfo v => Sys2Proof.Machine.execGetInfo v s
  | .getMeas v => Sys2Proof.Machine.execGetMeas v s
  | .getEvents v => Sys2Proof.Machine.execGetEvents v s
  | .nvmRead v => Sys2Proof.Machine.execNvmRead v s
  | .calWriteback v differs => Sys2Proof.Machine.execCalWriteback v differs s
  | .budget v => Sys2Proof.Machine.execBudget v s
  | .budgetAutoCheck => Sys2Proof.Machine.execBudgetAutoCheck s
  | .eventDrain parity => Sys2Proof.Machine.execEventDrain parity s
  | .kick r => Sys2Proof.Machine.execKick r s
  | .watchdogExpire => Sys2Proof.Machine.execWatchdogExpire s
  | .mgmtReset hashOk => Sys2Proof.Machine.execMgmtReset hashOk s
  | .setEndpointId b eid wide => Sys2Proof.Machine.execSetEndpointId b eid wide s
  | .getEndpointId b => Sys2Proof.Machine.execGetEndpointId b s
  | .getMctpVersionSupport b => Sys2Proof.Machine.execGetMctpVersionSupport b s
  | .getMessageTypeSupport b => Sys2Proof.Machine.execGetMessageTypeSupport b s
  | .getEndpointUuid b => Sys2Proof.Machine.execGetEndpointUuid b s
  | .getVersion b => Sys2Proof.Machine.execGetVersion b s
  | .getCapabilities b => Sys2Proof.Machine.execGetCapabilities b s
  | .negotiateAlgorithms b => Sys2Proof.Machine.execNegotiateAlgorithms b s
  | .getDigests b => Sys2Proof.Machine.execGetDigests b s
  | .getCertificate b slot ofs len => Sys2Proof.Machine.execGetCertificate b slot ofs len s
  | .challenge b slot => Sys2Proof.Machine.execChallenge b slot s
  | .getMeasurements b slot index signed => Sys2Proof.Machine.execGetMeasurements b slot index signed s
  | .keyExchange b slot => Sys2Proof.Machine.execKeyExchange b slot s
  | .finish b id => Sys2Proof.Machine.execFinish b id s
  | .heartbeat b id => Sys2Proof.Machine.execHeartbeat b id s
  | .keyUpdate b id => Sys2Proof.Machine.execKeyUpdate b id s
  | .endSession b id => Sys2Proof.Machine.execEndSession b id s
  | .twIdent a extra n => Sys2Proof.Machine.execTwIdent a extra n s
  | .twState a extra n => Sys2Proof.Machine.execTwState a extra n s
  | .eventsum a extra n => Sys2Proof.Machine.execEventsum a extra n s
  | .mctpPacket a block room e => Sys2Proof.Machine.execMctpPacket a block room e s
  | .regrd a count ofs len e late n => Sys2Proof.Machine.execRegrd a count ofs len e late n s
  | .regwr a block e => Sys2Proof.Machine.execRegwr a block e s
  | .fwchunk a data e => Sys2Proof.Machine.execFwchunk a data e s
  | .fwdone a e => Sys2Proof.Machine.execFwdone a e s
  | .alertcfg a b0 b1 e => Sys2Proof.Machine.execAlertcfg a b0 b1 e s
  | .buscfg a b0 b1 b2 b3 e => Sys2Proof.Machine.execBuscfg a b0 b1 b2 b3 e s
  | .twRepeatedStartAbort => Sys2Proof.Machine.execTwRepeatedStartAbort s
  | .twTimeout cut => Sys2Proof.Machine.execTwTimeout cut s
  | .alert o => Sys2Proof.Machine.execAlert o s
  | .alertRetry mctp o => Sys2Proof.Machine.execAlertRetry mctp o s
  | .twConfigWrite r reg v => Sys2Proof.Machine.execTwConfigWrite r reg v s
  | .nonce => Sys2Proof.Machine.execNonce s
  | .rndOpen ok => Sys2Proof.Machine.execRndOpen ok s
  | .close => Sys2Proof.Machine.execClose s
  | .loadpk punnet plain => Sys2Proof.Machine.execLoadpk punnet plain s
  | .genpk punnet => Sys2Proof.Machine.execGenpk punnet s
  | .loadide binding arg1 plain => Sys2Proof.Machine.execLoadide binding arg1 plain s
  | .clearkey index arg1 => Sys2Proof.Machine.execClearkey index arg1 s
  | .zeroise => Sys2Proof.Machine.execZeroise s
  | .advsvn counter => Sys2Proof.Machine.execAdvsvn counter s
  | .enroll slot => Sys2Proof.Machine.execEnroll slot s
  | .revoke slot => Sys2Proof.Machine.execRevoke slot s
  | .selftest => Sys2Proof.Machine.execSelftest s
  | .dbgunlock ok => Sys2Proof.Machine.execDbgunlock ok s
  | .decommission arg0 => Sys2Proof.Machine.execDecommission arg0 s
  | .tapDbgauth token ok => Sys2Proof.Machine.execTapDbgauth token ok s
  | .tapInstruction ix => Sys2Proof.Machine.execTapInstruction ix s
  | .rindSelftestDone ok => Sys2Proof.Machine.execRindSelftestDone ok s
  | .faultMessage => Sys2Proof.Machine.execFaultMessage s
  | .statusClear r ix v => Sys2Proof.Machine.execStatusClear r ix v s
  | .firstFaultClear r => Sys2Proof.Machine.execFirstFaultClear r s
  | .faultnClr r irqen => Sys2Proof.Machine.execFaultnClr r irqen s
  | .fltSevWrite r src v => Sys2Proof.Machine.execFltSevWrite r src v s
  | .fltInjArm r v => Sys2Proof.Machine.execFltInjArm r v s
  | .clockFailure f => Sys2Proof.Machine.execClockFailure f s
  | .clkRestart r target => Sys2Proof.Machine.execClkRestart r target s
  | .clockRestartDone => Sys2Proof.Machine.execClockRestartDone s
  | .clkSelWrite r v => Sys2Proof.Machine.execClkSelWrite r v s
  | .clockSwitchDone => Sys2Proof.Machine.execClockSwitchDone s
  | .clkRunWrite r hi v busy => Sys2Proof.Machine.execClkRunWrite r hi v busy s
  | .gateApply d => Sys2Proof.Machine.execGateApply d s
  | .gateForce d => Sys2Proof.Machine.execGateForce d s
  | .fmGo r v => Sys2Proof.Machine.execFmGo r v s
  | .fmDone count fmax fmin mean modf crossings => Sys2Proof.Machine.execFmDone count fmax fmin mean modf crossings s
  | .pdaPowerOn g => Sys2Proof.Machine.execPdaPowerOn g s
  | .pdaPowerOff g => Sys2Proof.Machine.execPdaPowerOff g s
  | .pwrOffWrite r hi v => Sys2Proof.Machine.execPwrOffWrite r hi v s
  | .hkConversion ch value valid second secondValid => Sys2Proof.Machine.execHkConversion ch value valid second secondValid s
  | .housekeepingRoundEnd => Sys2Proof.Machine.execHousekeepingRoundEnd s
  | .droop g report => Sys2Proof.Machine.execDroop g report s
  | .rstMgmt r => Sys2Proof.Machine.execRstMgmt r s
  | .rstGrove r g => Sys2Proof.Machine.execRstGrove r g s
  | .cuFeed8 r u v => Sys2Proof.Machine.execCuFeed8 r u v s
  | .cuFeed16 r u v => Sys2Proof.Machine.execCuFeed16 r u v s
  | .cuFeed32 r u v => Sys2Proof.Machine.execCuFeed32 r u v s
  | .cuInit r u => Sys2Proof.Machine.execCuInit r u s
  | .cuCtlWrite r u v => Sys2Proof.Machine.execCuCtlWrite r u v s
  | .cuStatWrite r u v => Sys2Proof.Machine.execCuStatWrite r u v s
  | .f5CtlWrite r v => Sys2Proof.Machine.execF5CtlWrite r v s
  | .f5ModeWrite r g j v => Sys2Proof.Machine.execF5ModeWrite r g j v s
  | .pairLowRead r a n => Sys2Proof.Machine.execPairLowRead r a n s
  | .registerWrite r a vs whole => Sys2Proof.Machine.execRegisterWrite r a vs whole s
  | .resetNRelease => Sys2Proof.Machine.execResetNRelease s
  | .perstNRelease => Sys2Proof.Machine.execPerstNRelease s
  | .aonclkReady => Sys2Proof.Machine.execAonclkReady s
  | .pllLock pll => Sys2Proof.Machine.execPllLock pll s
  | .terminatorTraining t st rate flit cxl width reversed inverted => Sys2Proof.Machine.execTerminatorTraining t st rate flit cxl width reversed inverted s
  | .replayTimerExpiry t => Sys2Proof.Machine.execReplayTimerExpiry t s
  | .rcFieldRead r a n => Sys2Proof.Machine.execRcFieldRead r a n s
  | .rindCommandDone => Sys2Proof.Machine.execRindCommandDone s
  | .testWindowDone t => Sys2Proof.Machine.execTestWindowDone t s
  | .reservedOpcode g t parity => Sys2Proof.Machine.execReservedOpcode g t parity s

end Sys2Proof.Machine
end

