-- ==== Sys2Proof/Machine/Tick.lean ====
section
/-! DEFINITION. What time does when nothing is commanded: one tick of 125 ps. The epoch advances (R221, R222, R226), and SOURCE paths send their patterns (R149, R150). -/
namespace Sys2Proof.Machine

/-! Patterns. -/

/-- Length and taps of the register of a pseudo-random pattern. PRESUMED (log 86): the polynomials of ITU-T O.150 and IEEE 802.3; PRBS13Q and PRBS31Q carry the bits of PRBS13 and
PRBS31. -/
def prbs : Nat → Nat × List Nat
  | 0 => (7, [7, 6])
  | 1 => (9, [9, 5])
  | 2 => (11, [11, 9])
  | 3 | 7 => (13, [13, 12, 2, 1])
  | 4 => (15, [15, 14])
  | 5 => (23, [23, 18])
  | _ => (31, [31, 28])

/-- The next bit of a pseudo-random pattern after the bits of a register. -/
def prbsBit (k reg : Nat) : Bool := ((prbs k).2.foldl (fun b t => b != bitOf reg (t - 1)) false)

/-- The register after a bit. -/
def prbsNext (k reg : Nat) : Nat := (2 * reg + if prbsBit k reg then 1 else 0) % 2 ^ (prbs k).1

/-- The next n bits of a pseudo-random pattern, and the register after them. -/
def prbsRun (k : Nat) : Nat → Nat → List Bool × Nat
  | 0, reg => ([], reg)
  | n + 1, reg => let x := prbsRun k n (prbsNext k reg); (prbsBit k reg :: x.1, x.2)

/-- Bits that path p sends in a word of 64 UI. -/
def State.uiBits (s : State) (p : Nat) : Nat := if s.pam4 (p / 2) then 128 else 64

/-- Bit i of a user pattern: its words from UBASE on, each bit 0 first, repeated without a gap (R150). -/
def State.userBit (s : State) (p i : Nat) : Bool :=
  (s.getD (gOf p) (s.rd .PATH_PAT_UBASE p + i / 64 % s.rd .PATH_PAT_ULEN p)).getLsbD (i % 64)

/-- A symbol of two bits, the first the more significant, Gray-coded (R149). -/
def grayPairs : List Bool → List Bool
  | a :: b :: r => a :: (a != b) :: grayPairs r
  | l => l

/-- Bits as bytes, the first bit the lowest of the first byte. -/
def packBits (l : List Bool) : List Byte :=
  leBytes (l.length / 8) ((l.zipIdx.map fun e => if e.1 then 2 ^ e.2 else 0).sum)

/-- The pattern bits of path p's next word, and its register after them. A square wave counts UI, at the outer levels on PAM4. -/
def State.patWord (s : State) (p : Nat) : List Bool × Nat :=
  let k := s.rd .PATH_PAT_PAT p
  let n := s.uiBits p
  let i := s.rd .X_PAT_IX p
  let reg := s.rd .X_PAT_REG p
  if k = 0xB then ((List.range n).map fun j => s.userBit p (i + j), reg)
  else if k = 0xA then ((List.range n).map fun j => j / (n / 64) % 16 < 8, reg)
  else if k = 9 then ((List.range n).map fun j => Config.ssprbs (i + j), reg)
  else prbsRun k n reg

/-- Path p is a pattern SOURCE whose transmitter a LOOP path still holds (R82). -/
def State.patHeld (s : State) (p : Nat) : Bool := s.mode p == mSOURCE && s.srcSel p == 1 && s.mode (revPath p) == mLOOP

/-- Path p sends its next pattern word, or counts the unit that it could not send while a LOOP path holds its transmitter (R82). On a PAM4 lane GRAY codes the symbols, those of a square wave excepted, which are levels; INV inverts what is sent (log 86). -/
def patSend (s : State) (p : Nat) : State :=
  let k := s.rd .PATH_PAT_PAT p
  let n := s.uiBits p
  let x := s.patWord p
  let l := if n = 128 ∧ k ≠ 0xA ∧ s.on .PATH_PAT_GRAY p then grayPairs x.1 else x.1
  let l := if s.on .PATH_PAT_INV p then l.map (!·) else l
  let i := s.rd .X_PAT_IX p + n
  let s := (s.wr .X_PAT_REG p x.2).wr .X_PAT_IX p (if k = 0xB then i % (64 * s.rd .PATH_PAT_ULEN p) else i)
  if s.patHeld p then (if s.govPath p = p then s.incSat .PATH_DISC_COUNT p 1 else s) else s.emit (.tx p (packBits l) false (s.txInv1 p))

/-- Path p transmits its pattern. -/
def State.patRuns (s : State) (p : Nat) : Bool := s.mode p == mSOURCE && s.srcSel p == 1 && s.carries (txPort p) == .gen p

/-- A pattern starts where the device pleases: its register is free, but not all zeros. -/
def patStart (s : State) (p : Nat) : State :=
  let k := s.rd .PATH_PAT_PAT p
  let reg := Config.patSeed s.freeCtr % (2 ^ (prbs k).1 - 1) + 1
  let s := { ((s.wr .X_PAT_RUN p (k + 1)).wr .X_PAT_REG p reg) with freeCtr := s.freeCtr + 1 }
  (s.clr .X_PAT_IX p).clr .X_PAT_ACC p

/-- Bits of generated units that a transmitter of path p sends in 1,000 s, by its rate in kb/s and the offset of TX_PPM (R170). -/
def State.genRate (s : State) (p : Nat) : Nat :=
  let ppm := s.rd .TX_PPM_PPM (txPort p)
  s.kbps p * (if ppm < 512 then 1000000 + ppm else 1000000 - (1024 - ppm))

/-- 125 ps of path p's pattern: a word goes out when its bits have become due. -/
def patTick (s : State) (p : Nat) : State :=
  if !s.patRuns p && !s.patHeld p then s.clr .X_PAT_RUN p
  else
    let s := if s.rd .X_PAT_RUN p = s.rd .PATH_PAT_PAT p + 1 then s else patStart s p
    let due := s.rd .X_PAT_ACC p + s.genRate p
    let word := 8000000000000 * s.uiBits p
    if due < word then s.wr .X_PAT_ACC p due else patSend (s.wr .X_PAT_ACC p (due - word)) p

/-! The tick. -/

/-- The epoch advances while VALID = 1 (R221, R222). A slew back holds it for one tick (R226). -/
def epochTick (s : State) : State :=
  if !s.tbRuns || !s.tbValid then s
  else if s.on .X_SLEW_HOLD 0 then s.clr .X_SLEW_HOLD 0
  else epochMoved (s.incWrap .TB_EPOCH_EPOCH 0 1)

/-- One tick of 125 ps with nothing commanded. -/
def tick (s : State) : State :=
  let s := s.start
  if s.dead then s else (epochTick s).each (List.range 512) patTick

end Sys2Proof.Machine
end

