-- ==== Sys2Proof/Safety.lean ====
section
/-! DEFINITION. What a safe run is, in the terms claims use: the device is in a state of its table, its stores are in canonical form, and each step answers a
next state. -/
namespace Sys2Proof.Machine

/-- DEV_STATE.STATE holds a state of the device (spec/02). -/
def State.devLegal (s : State) : Bool := decide (devROM ≤ s.dev ∧ s.dev ≤ devLATCHED)

/-- The register store is in canonical form. -/
def regsWf (m : List ((Fld × Nat) × Nat)) : Bool := storeWf fldCode fldReset m

/-- The addressed memories are in canonical form: instruction and data memories, NVM, byte windows. -/
def State.memWf (s : State) : Bool :=
  storeWf id (fun _ => (0 : Word)) s.imem && storeWf id (fun _ => (0 : Word)) s.dmem && storeWf id nvmReset s.nvm
    && storeWf id winReset s.win

/-- The words of the towers are in canonical form. -/
def State.towerWf (s : State) : Bool := storeWf id s.towerDflt s.tower

/-- The invariant of the machine: a state of the device's table, and every store in canonical form. -/
def State.inv (s : State) : Prop := s.devLegal = true ∧ regsWf s.regs = true ∧ s.memWf = true ∧ s.towerWf = true

/-- A write by a route to the register at an offset arrives: the device is live, the access does not fail, and the profile does not own the register. -/
abbrev State.takes (s : State) (r : Route) (a : Nat) : Prop := s.dead = false ∧ s.accessErr r a true = false ∧ s.ownedWrite a = false

/-- Every register field but the instances named reads in t as in s. -/
def State.regsBut (s t : State) (l : List (Fld × Nat)) : Prop := ∀ f i, (f, i) ∉ l → t.rd f i = s.rd f i

/-- Every register field but those named reads in t as in s, in every instance. -/
def State.fldsBut (s t : State) (l : List Fld) : Prop := ∀ f i, f ∉ l → t.rd f i = s.rd f i

/-- Every word of the sequencers' memories and of the towers, and every byte of the NVM and of the byte windows, reads in t as in s. -/
def State.memSame (s t : State) : Prop :=
  (∀ g w, t.getI g w = s.getI g w) ∧ (∀ g w, t.getD g w = s.getD g w) ∧ t.tower = s.tower ∧ (∀ a, t.getNvm a = s.getNvm a) ∧ ∀ a, t.getWin a = s.getWin a

/-! Sequencer instructions. -/

/-- Thread t of grove g is about to issue the instruction of form o with fields f, and the word after it can be fetched: the device is live, the thread runs, no
armed injection inverts its fetch, and its word decodes so. -/
abbrev State.issues (s : State) (g : Fin 16) (t : Fin 4) (o : SOp) (f : SFields) : Prop :=
  s.dead = false ∧ s.threadRuns g t = true ∧ (s.rd .X_INJ_LEFT 0 = 0 ∨ s.rd .X_INJ_CHECKER 0 ≠ g) ∧ seqDecode (s.fetch g t) = .ok o f
    ∧ s.rd .SEQ_TSTAT_PC (4 * g + t) < 16383

/-- The fields that an instruction of thread th may write: register rd, the flags, the program counter and the condition. -/
def seqKeys (th rd : Nat) : List (Fld × Nat) := [(.SEQ_REGS_W, 32 * th + rd), (.SEQ_TSTAT_FLAGS, th), (.SEQ_TSTAT_PC, th), (.SEQ_TSTAT_STATE, th)]

/-- The four flags of a thread. -/
def State.flags (s : State) (th : Nat) : Bool × Bool × Bool × Bool := (s.flag th fZ, s.flag th fC, s.flag th fM, s.flag th fE)

/-- x is a next state in which thread th runs on at the next word, register rd holds v, the flags Z, C, M and E are as given, and no other register and no memory
has changed. -/
def SeqEnds (s : State) (x : Host.Outcome State Fault Refusal) (th rd v : Nat) (z c m e : Bool) : Prop :=
  ∃ t, x = .next t ∧ t.wreg th rd = v ∧ t.flags th = (z, c, m, e) ∧ t.rd .SEQ_TSTAT_PC th = s.rd .SEQ_TSTAT_PC th + 1
    ∧ t.rd .SEQ_TSTAT_STATE th = tRUNNING ∧ s.regsBut t (seqKeys th rd) ∧ s.memSame t

/-- As SeqEnds, with Z and M taken from the value and E unchanged. -/
def SeqResult (s : State) (x : Host.Outcome State Fault Refusal) (th rd v : Nat) (c : Bool) : Prop :=
  SeqEnds s x th rd v (v == 0) c (decide (2 ^ 63 ≤ v)) (s.flag th fE)

/-- x is a next state in which thread th runs on at the word at address pc, and nothing else of the registers and memories has changed. -/
def SeqGoes (s : State) (x : Host.Outcome State Fault Refusal) (th pc : Nat) : Prop :=
  ∃ t, x = .next t ∧ t.rd .SEQ_TSTAT_PC th = pc ∧ t.rd .SEQ_TSTAT_STATE th = tRUNNING ∧ s.regsBut t [(.SEQ_TSTAT_PC, th), (.SEQ_TSTAT_STATE, th)]
    ∧ s.memSame t

/-- x is a next state in which thread th has stopped in FAULTED at its instruction with a CAUSE, and no general register, no flag and no memory has changed. -/
def SeqFaults (s : State) (x : Host.Outcome State Fault Refusal) (th cause : Nat) : Prop :=
  ∃ t, x = .next t ∧ t.rd .SEQ_TSTAT_STATE th = tFAULTED ∧ t.rd .SEQ_TSTAT_CAUSE th = cause ∧ t.rd .SEQ_TSTAT_PC th = s.rd .SEQ_TSTAT_PC th
    ∧ (∀ i, t.rd .SEQ_REGS_W i = s.rd .SEQ_REGS_W i) ∧ (∀ i, t.rd .SEQ_TSTAT_FLAGS i = s.rd .SEQ_TSTAT_FLAGS i) ∧ s.memSame t

/-- x is a next state in which thread th runs on at the next word with a result code in rd, an entry number above it, and the flags of R281; no register but the
thread's own and the fields named has changed, and P holds. -/
def SeqDone (s : State) (x : Host.Outcome State Fault Refusal) (th rd code entry : Nat) (past : Bool) (l : List Fld) (P : State → Prop) : Prop :=
  ∃ t, x = .next t ∧ t.wreg th rd = code + 256 * entry ∧ t.flags th = (code == 0, past, false, code != 0)
    ∧ t.rd .SEQ_TSTAT_PC th = s.rd .SEQ_TSTAT_PC th + 1 ∧ t.rd .SEQ_TSTAT_STATE th = tRUNNING ∧ P t
    ∧ (∀ f i, f ∉ l → (f, i) ∉ seqKeys th rd → t.rd f i = s.rd f i) ∧ s.memSame t

/-! What a command does. -/

/-- x is a next state that P describes; no register field but those named, and no memory, has changed. -/
def Does (s : State) (x : Host.Outcome State Fault Refusal) (l : List Fld) (P : State → Prop) : Prop :=
  ∃ t, x = .next t ∧ P t ∧ s.fldsBut t l ∧ s.memSame t

/-- As Does, where memory may change as P says. -/
def DoesMem (s : State) (x : Host.Outcome State Fault Refusal) (l : List Fld) (P : State → Prop) : Prop :=
  ∃ t, x = .next t ∧ P t ∧ s.fldsBut t l

/-- As Does, naming the instances of the fields. -/
def DoesAt (s : State) (x : Host.Outcome State Fault Refusal) (l : List (Fld × Nat)) (P : State → Prop) : Prop :=
  ∃ t, x = .next t ∧ P t ∧ s.regsBut t l ∧ s.memSame t

/-- All memories but the towers read in t as in s; all but the sequencers' data memories. -/
def State.chipSame (s t : State) : Prop :=
  (∀ g w, t.getI g w = s.getI g w) ∧ (∀ g w, t.getD g w = s.getD g w) ∧ (∀ a, t.getNvm a = s.getNvm a) ∧ ∀ a, t.getWin a = s.getWin a
def State.dataBut (s t : State) : Prop :=
  (∀ g w, t.getI g w = s.getI g w) ∧ t.tower = s.tower ∧ (∀ a, t.getNvm a = s.getNvm a) ∧ ∀ a, t.getWin a = s.getWin a

/-- As Does, where the towers may change as P says; where data memory may. -/
def DoesTower (s : State) (x : Host.Outcome State Fault Refusal) (l : List Fld) (P : State → Prop) : Prop :=
  ∃ t, x = .next t ∧ P t ∧ s.fldsBut t l ∧ s.chipSame t
def DoesData (s : State) (x : Host.Outcome State Fault Refusal) (l : List Fld) (P : State → Prop) : Prop :=
  ∃ t, x = .next t ∧ P t ∧ s.fldsBut t l ∧ s.dataBut t

/-- As Does, where the NVM may change as P says. -/
def DoesNvm (s : State) (x : Host.Outcome State Fault Refusal) (l : List Fld) (P : State → Prop) : Prop :=
  ∃ t, x = .next t ∧ P t ∧ s.fldsBut t l ∧ (∀ g w, t.getI g w = s.getI g w) ∧ (∀ g w, t.getD g w = s.getD g w) ∧ t.tower = s.tower ∧ ∀ a, t.getWin a = s.getWin a

/-- As Does, where towers and byte windows (the pending bits of MSI-X) may change as P says. -/
def DoesCore (s : State) (x : Host.Outcome State Fault Refusal) (l : List Fld) (P : State → Prop) : Prop :=
  ∃ t, x = .next t ∧ P t ∧ s.fldsBut t l ∧ (∀ g w, t.getI g w = s.getI g w) ∧ (∀ g w, t.getD g w = s.getD g w) ∧ ∀ a, t.getNvm a = s.getNvm a

/-- As Does, where pending bits of MSI-X may change. -/
def DoesPend (s : State) (x : Host.Outcome State Fault Refusal) (l : List Fld) (P : State → Prop) : Prop :=
  ∃ t, x = .next t ∧ P t ∧ s.fldsBut t l ∧ (∀ g w, t.getI g w = s.getI g w) ∧ (∀ g w, t.getD g w = s.getD g w) ∧ t.tower = s.tower
    ∧ (∀ a, t.getNvm a = s.getNvm a) ∧ ∀ a, ¬(0x10800 ≤ a ∧ a < 0x10804) → t.getWin a = s.getWin a

/-- As DoesPend, where the NVM may change as P says. -/
def DoesPendNvm (s : State) (x : Host.Outcome State Fault Refusal) (l : List Fld) (P : State → Prop) : Prop :=
  ∃ t, x = .next t ∧ P t ∧ s.fldsBut t l ∧ (∀ g w, t.getI g w = s.getI g w) ∧ (∀ g w, t.getD g w = s.getD g w) ∧ t.tower = s.tower
    ∧ ∀ a, ¬(0x10800 ≤ a ∧ a < 0x10804) → t.getWin a = s.getWin a

/-- The requests' mailboxes keep all but responses and the pending bits of MSI-X: every other memory of the machine but the NVM reads in t as in s. -/
def State.mailSame (s t : State) : Prop :=
  (∀ g w, t.getI g w = s.getI g w) ∧ (∀ g w, t.getD g w = s.getD g w) ∧ t.tower = s.tower
    ∧ ∀ a, ¬(0x9800 ≤ a ∧ a < 0x9C00) → ¬(0x301400 ≤ a ∧ a < 0x301800) → a ≠ 0x10800 → t.getWin a = s.getWin a

/-- As Does, where responses may come and, for DoesMailNvm, the NVM may change as P says. -/
def DoesMail (s : State) (x : Host.Outcome State Fault Refusal) (l : List Fld) (P : State → Prop) : Prop :=
  ∃ t, x = .next t ∧ P t ∧ s.fldsBut t l ∧ s.mailSame t ∧ ∀ a, t.getNvm a = s.getNvm a
def DoesMailNvm (s : State) (x : Host.Outcome State Fault Refusal) (l : List Fld) (P : State → Prop) : Prop :=
  ∃ t, x = .next t ∧ P t ∧ s.fldsBut t l ∧ s.mailSame t

/-- An MCTP message has gone out on a binding: its packets of 64 bytes wait for the two-wire bus, or the port has sent them, of 64 bytes or the 256 that
the bus owner selected, to the root complex or to the requester (R479, R480, R508). -/
def State.mctpGone (s t : State) (b : Bind) (m : List Byte) : Prop :=
  match b with
  | .twoWire => t.mctpq = s.mctpq ++ [chunksOf 64 (m.length + 1) m]
  | .rootComplex => .mctp none (chunksOf s.mctpUnit (m.length + 1) m) ∈ t.out
  | .byId r => .mctp (some r.toNat) (chunksOf s.mctpUnit (m.length + 1) m) ∈ t.out

/-- A response has gone out on the route of its request: it stands in the mailbox, whose RSP is set and PEND clear (R465, R504), or on MCTP. -/
def State.answered (s t : State) (v : Via) (m : List Byte) : Prop :=
  match v with
  | .mbox => t.getWins 0x9800 m.length = m ∧ t.on .MB_STAT_RSP 0 = true ∧ t.on .MB_STAT_PEND 0 = false
  | .twMbox => t.getWins 0x301400 m.length = m ∧ t.on .TW_MBSTAT_RSP 0 = true ∧ t.on .TW_MBSTAT_PEND 0 = false
  | .mctp b _ => s.mctpGone t b m

/-- A coded message has entered the collector's queue, if that had room (R557). -/
def State.sent (s t : State) (src kind addr : Nat) : Prop := s.fq.length < 64 → t.fq = s.fq ++ [⟨src, kind, addr % 2 ^ 48⟩]

/-! Fields that one shared operation moves. -/

/-- A coded message past a full queue (R557). -/
def msgFlds : List Fld := [.FLT_STAT_STAT, .FLT_DROP_COUNT, .X_FQ_RUN]

/-- A trigger line (R230 to R233). -/
def lineFlds : List Fld := [.TL_LVL_LVL, .TL_LAST_EPOCH, .X_TL_PULSE, .X_PUN_EDGE, .X_PUN_EDGE_T, .PUN_STAT_TRIGIGN, .TL_COLL_COLL, .X_TL_SETC]

/-- A trigger that a vine root admits (R243 to R245). -/
def vineFlds : List Fld := msgFlds ++ lineFlds ++ ([.VIN_STAT_HELD, .VIN_STAT_RSEQ, .VIN_TLAST_T, .VIN_TLAST_ORG_ORIGIN, .VIN_TLAST_ORG_LATE, .VIN_TLAST_ORG_LATEO, .X_TL_CLRC, .X_TL_WAS, .X_TL_FELL] : List Fld)

/-- What a transceiver shows of its path and settings (R160 to R184). -/
def portFlds : List Fld := [.QUAL_BER_STALE, .TX_FIRACT_ACT, .XCVR_STAT_RXTERM, .XCVR_STAT_SSCACT, .XCVR_STAT_TXCLK, .XCVR_STAT_TXIDLE, .X_SSC_EFF, .CAL_SLC_ROLE, .X_QW_CUT]

/-- The rotation on a receiver (R185, R203). -/
def calFlds : List Fld := [.X_CAL_LATER, .CAL_LSTAT_CONSEC, .CAL_LSTAT_STATE, .X_CAL_AGREE, .X_CAL_PASS, .X_CAL_ST, .X_CAL_STEP]

/-- A retimed link that enters Detect (R93, R94). -/
def detectFlds : List Fld := portFlds ++ calFlds ++ ([.XCVR_STAT_ADAPTED, .XCVR_STAT_LOCK, .X_RATE_NEXT, .X_TS_CUT, .LNK_PSTAT_FLIT, .LNK_PSTAT_FMT, .LNK_PSTAT_PMIS, .LNK_PSTAT_RATE, .LNK_PSTAT_RTPOS, .LNK_PSTAT_STATE, .X_PCI_EFF, .PATH_POS_POS, .X_EQ_DONE, .X_EQ_PHASE, .X_L0S, .X_L12, .X_LANE_IDLE, .X_LANE_LAG, .X_PRECODE] : List Fld)

/-- A retimed link that takes a position (R98). -/
def linkFlds : List Fld := detectFlds ++ ([.LNK_PSTAT_WIDTH, .PUN_DISC_COUNT] : List Fld)

/-- Errors found in tower memory (R420 to R427). -/
def eccFlds : List Fld := msgFlds ++ ([.ECC_CECNT_COUNT, .ECC_LOGSTAT_COUNT, .ECC_LOGSTAT_LOST, .ECC_LOGSTAT_OVF, .ECC_UECNT_COUNT, .ERR_LOG_ADDR, .ERR_LOG_DLY,
  .ERR_LOG_EPOCH, .ERR_LOG_KIND, .ERR_LOG_PUN, .ERR_LOG_SRC, .ERR_LOG_SYN, .ERR_LOG_VALID, .X_CE_RAISED, .X_LOG_ORD, .X_LOG_SEQ] : List Fld)

/-- A terminator's state, and the records of its link's events. -/
def termFlds : List Fld := calFlds ++ ([.XCVR_STAT_ADAPTED, .XCVR_STAT_LOCK, .LT_ETH_STAT_LF, .LT_ETH_STAT_RF, .LT_ETH_STAT_STATE, .LT_STAT_CXL, .LT_STAT_DLUP, .LT_STAT_FLIT, .LT_STAT_LTSSM, .LT_STAT_RATE,
  .X_LT_BUSY, .X_LT_SEQ, .X_LT_TGT, .PUN_DISC_COUNT, .X_LT_DLF, .X_LT_FCI, .X_LT_NAKD, .X_LT_POL, .X_LT_REV, .X_LT_RSEQ] : List Fld)

/-- An injection queue entry and its grove's counts (R342). -/
def entFlds : List Fld := [.INJ_ENT_INFO_ACT, .INJ_ENT_INFO_FIX, .INJ_ENT_INFO_PATH, .INJ_ENT_INFO_STATE, .INJ_ENT_INFO_T, .INJ_ENT_MOMENT, .INJ_STAT_FREE,
  .X_INJ_DATA, .X_INJ_HIT, .X_INJ_ORD, .X_INJ_REACH, .X_INJ_SEQ, .X_INJ_SRC, .X_INJ_BLK, .X_INJ_ITEM, .X_INJ_PASSED]

/-- The end of an injection queue entry: its log record, its event (R350, R351). -/
def logFlds : List Fld := msgFlds ++ ([.INJ_ENT_INFO_STATE, .INJ_LOG_ENTRY, .INJ_LOG_OUTCOME, .INJ_LOG_PATH, .INJ_LOG_POS, .INJ_LOG_SRC_SOURCE, .INJ_STAT_FREE,
  .INJ_STAT_LOST, .INJ_STAT_WIDX, .PUN_DISC_COUNT, .SEQ_ACNT_CANCEL, .X_INJ_LOGN] : List Fld)

/-- A path's switch point (R77 to R86). -/
def modeFlds : List Fld := msgFlds ++ detectFlds ++ logFlds ++ termFlds ++ ([.RPL_NEXT_SEQ, .X_IDE_OFF, .X_PCHK_RUN, .X_SWITCHED, .F5_STAT_CAPERR, .LNK_ESTAT_SEGA, .LNK_ESTAT_SEGB, .MATCH_STAT_ACTSKIP,
  .PATH_DISC_COUNT, .PATH_DLYSTAT_FILL, .PATH_MODE_AB, .PATH_MODE_BA, .PATH_MODE_PEND_AB, .PATH_MODE_PEND_BA, .PATH_PCHK_LOCK, .PATH_POS_GEN, .PATH_POS_POS,
  .RPL_STAT_DONE, .STRM_CFG_ON, .STRM_CFG_PEND, .XCVR_STAT_ADAPTED, .XCVR_STAT_LOCK, .X_CAL_RQ, .X_CAP_FROM, .X_DLYH_V, .X_DLYP_V, .X_DLY_CNT, .X_DLY_EFF, .X_DLY_LO, .X_INJ_NPOS, .X_INJ_REACH, .X_PATH_STOPPED, .X_SKP_V, .X_SPLIT, .FLT_CNT_COUNT, .IDE_STAT_MACFAIL, .IDE_STAT_SYNC, .X_CAL_LATER, .X_CW_CLEAN, .X_DET_RUN, .X_DLY_IN, .X_IDE_LAST] : List Fld)

/-- A received unit (R214 and what follows from it). -/
def unitFlds : List Fld := eccFlds ++ modeFlds ++ entFlds ++ lineFlds ++ ([.F5_STAT_SKIP, .FEC_CORR_COUNT, .FEC_CW_COUNT, .FEC_SYM_COUNT, .FEC_UNC_COUNT, .MATCH_CNT_COUNT, .MATCH_LEP_EPOCH, .MATCH_LPOS_POS, .MATCH_STAT_LASTPATH, .MATCH_STAT_OVF, .PATH_DLY_CELLS, .PATH_PCHK_ERRS,
  .X_DLY_BYTES, .X_FEC_ACC, .X_M_FIRED, .X_PCHK_RUN, .CAL_LCNT_RUNS, .CAL_LSTAT_TLAST_A, .CAL_LSTAT_TLAST_B, .CAL_OFS_OFS, .CAL_SLC_GAIN, .CAL_SLC_PAIR, .X_CAL_CONS, .X_CW, .X_EDS, .X_ITEM, .X_M_CYC] : List Fld)

/-- What a GROVE reset moves besides the grove's own registers: calibration of its receivers, records, what its ports show (R259). -/
def groveFlds : List Fld := portFlds ++ ([.CAL_LSTAT_CONSEC, .CAL_LSTAT_STATE, .X_CAL_AGREE, .X_CAL_PASS, .X_CAL_RQ, .X_CAL_ST, .X_CAL_STEP, .F5_STAT_ACT, .PATH_POS_GEN,
  .PUN_DISC_COUNT, .SEQ_CTL_CLRBUSY, .SEQ_TSTAT_STATE, .STRM_CFG_ON, .X_PCI_EFF, .X_CAL_LATER] : List Fld)

/-- What a MGMT reset moves besides the mailbox load's registers (R466, R477). -/
def mgmtFlds : List Fld := [.DEV_CMD_RESULT, .DEV_STATE_BANK, .DEV_STATE_LASTERR, .DEV_STATE_STATE, .MB_STAT_NOFW, .TW_MBSTAT_NOFW, .RST_STAT_MGMTCNT, .X_ALERT, .X_CORE,
  .X_CORE_CMD, .X_FWUP, .X_FW_CHK, .X_FW_WR, .X_SPDM, .X_MCTP_N, .CAL_CMD_RESULT, .FW_MBX_STAT_BUSY, .FW_MBX_TOTAL_TOTAL]

/-- What the end of a housekeeping round moves (R591 to R596). -/
def roundFlds : List Fld := msgFlds ++ ([.HK_STAT_ROUNDS, .CH_STAT_REF2X, .CH_STAT_SENSERR, .CH_STAT_TEMP, .TWR_STAT_HOTDIE, .TWR_STAT_REF2X, .TWR_STAT_SENSERR, .TWR_STAT_TMAX,
  .PRS_PLIM_EFF, .PRS_PLIM_THROT, .THM_STAT_COOLCNT, .THM_STAT_DIEMAX, .THM_STAT_DRAMMAX, .THM_STAT_HOT, .X_THR, .CAL_LSTAT_CONSEC, .CAL_LSTAT_STATE, .X_CAL_AGREE,
  .X_CAL_PASS, .X_CAL_RQ, .X_CAL_ST, .X_CAL_STEP, .FLT_INJ_BUSY, .X_BUDGET, .X_CAL_LATER, .X_INJ_LEFT] : List Fld)

/-- The loss of the epoch's source (R224). -/
def loseFlds : List Fld := msgFlds ++ ([.TB_STAT_VALID, .TB_STAT_LOST, .TB_STAT_SLEW, .X_SLEW_LEFT, .X_TREF_ACQ, .X_TREF_BAD, .X_TREF_DIS, .X_EPF_OK, .X_EXCH, .CLK_STAT_TRDY,
  .PUN_DISC_COUNT] : List Fld)

/-- What a clock failure moves besides the port's registers (R242, R569 to R573). -/
def failFlds : List Fld := loseFlds ++ portFlds ++ ([.CAL_LSTAT_CONSEC, .CAL_LSTAT_STATE, .X_CAL_AGREE, .X_CAL_PASS, .X_CAL_RQ, .X_CAL_ST, .X_CAL_STEP, .CH_STAT_STATE, .TWR_STAT_STATE,
  .CLK_FAIL_FAIL, .CLK_GPEND_GATE_PEND, .CLK_SEL_HSRC, .CLK_STAT_CPLLRDY, .CLK_STAT_FALLBACK, .CLK_STAT_MRDY, .CLK_STAT_QRDY, .CLK_STAT_SWBUSY, .CLK_STAT_XRDY,
  .DEV_STATE_CLKFAIL_EARLY, .DEV_STATE_QREF_OK, .DEV_STATE_STATE, .VIN_PSTAT_STATE, .XCVR_STAT_RXTERM, .XCVR_STAT_TXIDLE, .X_ALERT, .X_FW_CHK, .X_FW_WR, .X_MB_FIRST, .X_HSW, .X_PATH_STOPPED,
  .X_PORT_UP, .X_REF_DONE, .X_REF_PRES, .FW_MBX_TOTAL_TOTAL, .CAL_SLC_ROLE, .FW_MBX_STAT_BUSY, .MB_STAT_NOFW, .X_CAL_LATER] : List Fld)

/-- Status, first fault and interrupt of the fault collector (R549, R551, R553, R555). -/
def firstFlds : List Fld := [.FLT_STAT_STAT, .FLT_EVLOST_COUNT, .FLT_GSTAT_IRQ, .FLT_FIRST_ADDR, .FLT_FIRST_SRC_SOURCE, .FLT_FIRST_SRC_KIND, .FLT_FIRST_SRC_REACT,
  .FLT_FIRST_SRC_VALID, .FLT_FIRST_SRC_OVF, .FLT_FIRST_SRC_INJ, .FLT_FIRST_SRC_COLLIDE, .FLT_FIRST_SRC_ESC, .FLT_FIRST_EPOCH]

/-- A load of the epoch, with the triggers that it releases (R225). -/
def loadFlds : List Fld := vineFlds ++ ([.TB_EPOCH_EPOCH, .TB_STAT_VALID, .TB_STAT_STEPS, .CLK_STAT_TRDY, .PUN_DISC_COUNT, .TB_STAT_SLEW, .X_SLEW_HOLD, .X_SLEW_LEFT] : List Fld)

/-- A firmware action's read of its SRAM (R559). -/
def sramFlds : List Fld := msgFlds ++ ([.FLT_INJ_BUSY, .X_INJ_LEFT] : List Fld)

/-- A firmware action that may answer a mailbox (R465, R504). -/
def mailFlds : List Fld := sramFlds ++ ([.MB_STAT_PEND, .MB_STAT_RSP, .TW_MBSTAT_PEND, .TW_MBSTAT_RSP, .X_ALERT, .X_MB_FIRST] : List Fld)

/-- Trims that a restore of calibration gives (R50, R206). -/
def trimFlds : List Fld := [.CAL_LIN_LIN, .CAL_LSTAT_CONSEC, .CAL_LSTAT_NOSHADOW_A, .CAL_LSTAT_NOSHADOW_B, .CAL_LSTAT_STATE, .CAL_LSTAT_TLAST_A,
  .CAL_LSTAT_TLAST_B, .CAL_OFS_OFS, .CAL_SLC_GAIN, .CAL_SLC_PAIR, .CAL_SLC_ROLE, .CAL_STAT_COPY, .CAL_TX_Z, .DEV_STATE_CALRESTORE_PART, .X_CAL_DFLT]

/-- The start of verified firmware (R49, R50). -/
def bootFlds : List Fld := mailFlds ++ trimFlds ++ ([.CLK_FAIL_FAIL, .CLK_GPEND_GATE_PEND, .DEV_STATE_BANK, .DEV_STATE_INITSTEP, .DEV_STATE_NONAPPR, .DEV_STATE_STATE,
  .FLT_GSTAT_TRAPPEND, .MB_STAT_NOFW, .PWR_STAT_ON, .REP_SPARE_HARD, .REP_SPARE_ROWS, .REP_SPARE_TSV, .RND_STAT_APPR, .TW_MBSTAT_NOFW, .X_CORE, .X_FWUP,
  .X_FW_CHK, .X_FW_WR, .FW_MBX_STAT_BUSY, .FW_MBX_STAT_ERR, .FW_MBX_STAT_ACCEPTED, .FW_MBX_TOTAL_TOTAL, .DEV_STATE_HR_PEND, .DEV_STATE_LASTERR] : List Fld)

/-- A load of an image (R39, R48, R49, R54, R55). -/
def fwFlds : List Fld := [.FW_MBX_CTL_TARGET, .FW_MBX_STAT_BUSY, .FW_MBX_STAT_ERR, .FW_MBX_STAT_ACCEPTED, .FW_MBX_TOTAL_TOTAL, .DEV_STATE_STATE, .DEV_STATE_HR_PEND,
  .DEV_STATE_LASTERR, .X_ALERT, .X_FW_CHK, .X_FW_WR]

/-- The native settings that a mode word of the profile writes (R641 to R644). -/
def nativeFlds : List Fld := eccFlds ++ portFlds ++ ([.GRV_LINKERR_ERR, .LINK_CFG_EN, .LINK_CFG_FIRST, .LINK_CFG_PROTO, .LINK_CFG_WIDTH, .LNK_ETH_AMALIGN,
  .LNK_ETH_ANEN, .LNK_ETH_CLEANALL, .LNK_ETH_FEC, .LNK_ETH_LRATE, .LNK_ETH_LTEN, .LNK_ETH_PAUSE, .LNK_ETH_POSUNIT, .LNK_PCI_CLKMODE, .LNK_PCI_EQBYP,
  .LNK_PCI_FLITEN, .LNK_PCI_MARGEN, .LNK_PCI_MAXRATE, .LNK_PCI_UPSIDE, .PATH_MODE_CODE, .PATH_MODE_PEND_AB, .PATH_MODE_PEND_BA, .PATH_PAT_CHKEN, .PATH_PAT_GRAY,
  .PATH_PAT_INV, .PATH_PAT_PAT, .PATH_PAT_UBASE, .PATH_PAT_ULEN, .PATH_PCHK_LOCK, .PATH_SRC_SEL, .RAW_RATE_KBPS, .RAW_RATE_PAM4, .X_PCHK_RUN, .X_PCI_EFF, .X_SPLIT, .PUN_DISC_COUNT] : List Fld)

/-- The fields of a mode word (R641). -/
def wordFlds : List Fld := [.F5_MODE_AB, .F5_MODE_BA, .F5_MODE_PAT, .F5_MODE_PROTO, .F5_MODE_WIDTH, .F5_MODE_RATE, .F5_MODE_ERRLOG, .F5_MODE_UPSIDE, .F5_MODE_SRIS,
  .F5_MODE_CODE]

/-- What the destruction of every volatile secret moves (R523, R524, R534). -/
def zeroFlds : List Fld := msgFlds ++ portFlds ++ ([.IDE_STAT_KEY, .IDE_STAT_SYNC, .PUN_DISC_COUNT, .PUN_STAT_STATE, .RND_IKEY_LOADED, .RND_PKEY_LOADED, .RND_STAT_SESS,
  .RND_ZCNT_COUNT, .RPL_STAT_DONE] : List Fld)

/-! The Rind. -/

/-- As Does, where the Rind's nonce and its input and output windows may change, and the pending bits of MSI-X. -/
def DoesRind (s : State) (x : Host.Outcome State Fault Refusal) (l : List Fld) (P : State → Prop) : Prop :=
  ∃ t, x = .next t ∧ P t ∧ s.fldsBut t l ∧ (∀ g w, t.getI g w = s.getI g w) ∧ (∀ g w, t.getD g w = s.getD g w) ∧ t.tower = s.tower
    ∧ (∀ a, t.getNvm a = s.getNvm a)
    ∧ ∀ a, ¬(0x500100 ≤ a ∧ a < 0x500120) → ¬(0x501000 ≤ a ∧ a < 0x501800) → ¬(0x10800 ≤ a ∧ a < 0x10804) → t.getWin a = s.getWin a

/-- Every volatile secret is gone, ZCNT has counted, and a message tells when a key was held (R523, R529, R534). -/
def State.zeroised (s t : State) : Prop :=
  (∀ k < 256, t.punKey k = none) ∧ (∀ b < 128, ∀ j < 2, t.ikey b j = none) ∧ t.klk = none ∧ t.spdm = [] ∧ t.on .RND_STAT_SESS 0 = false
    ∧ t.rd .RND_ZCNT_COUNT 0 = min (s.rd .RND_ZCNT_COUNT 0 + 1) (2 ^ Fld.RND_ZCNT_COUNT.width - 1)
    ∧ (s.holdsKey = true → s.fq.length < 64 → ⟨1056, msgSECURITY, 0⟩ ∈ t.fq)

/-- A command of the Rind ends with a RESULT, RND_IN cleared (R537, R538). -/
def RindEnds (s : State) (x : Host.Outcome State Fault Refusal) (l : List Fld) (code : Nat) (P : State → Prop) : Prop :=
  DoesRind s x (.RND_CMD_RESULT :: l) fun t =>
    t.rjob = none ∧ t.rd .RND_CMD_RESULT 0 = code ∧ (∀ a, 0x501000 ≤ a → a < 0x501400 → t.getWin a = 0) ∧ P t

/-- NONCE (1), CLOSE (3), CLEARKEY (7) of object i and kind a, ZEROISE (8), when p holds of the command's number (R513, R519, R523, R524, R529, R537). -/
def RindQuick (s : State) (x : Host.Outcome State Fault Refusal) (p : Nat → Prop) (i a : Nat) : Prop :=
  let err := s.on .RND_STAT_ERROR 0 = true
  let open_ := s.on .RND_STAT_SESS 0 = true
  let bad := 3 ≤ a ∨ (a ≠ 0 ∧ 128 ≤ i)
  let held := if a = 0 then (s.punKey i).isSome = true else (s.ikey i (a - 1)).isSome = true
  (∀ c ∈ [1, 3, 7, 8], p c → err → RindEnds s x [] 7 fun _ => True)
    ∧ (p 1 → ¬err → RindEnds s x [] 0 fun _ => True)
    ∧ (∀ c ∈ [3, 7], p c → ¬err → ¬open_ → RindEnds s x [] 2 fun _ => True)
    ∧ (p 3 → ¬err → open_ → RindEnds s x [.RND_STAT_SESS] 0 fun t => t.on .RND_STAT_SESS 0 = false ∧ t.klk = none)
    ∧ (p 7 → ¬err → open_ → bad → RindEnds s x [] 3 fun _ => True)
    ∧ (p 7 → ¬err → open_ → ¬bad → RindEnds s x zeroFlds 0 fun t => (a = 0 → t.punKey i = none) ∧ (a ≠ 0 → t.ikey i (a - 1) = none)
        ∧ (held → (a = 0 → t.bit .RND_PKEY_LOADED (i / 32) (i % 32) = false) ∧ (a ≠ 0 → t.on .IDE_STAT_SYNC i = false)
          ∧ (s.fq.length < 64 → ⟨1056, msgSECURITY, 0⟩ ∈ t.fq)))
    ∧ (p 8 → ¬err → RindEnds s x zeroFlds 0 fun t => s.zeroised t)

/-- A step of this state answers a next state. -/
def Safe (s : State) : Prop := ∃ t, step s = .next t

end Sys2Proof.Machine
end

