-- ==== Sys2Proof/Certificates/Slice0/Obligations.lean ====
section
/-! DEFINITION. The statements for the provers: what each family of commands does, what a step and the reset are, and what every step keeps. Each
docstring names the rules of the spec that it rests on. -/
open Sys2Proof Sys2Proof.Machine

/-- A step with commands waiting is the effect of the command at the front on the state with the queue's rest. With nothing waiting it is one tick of the epoch
counter, which is the model's choice (log entry 1). -/
def Obligations.StepRunsFrontCommand : Prop :=
  (∀ (c : Instr) (r : List Instr) (s : State), s.pending = c :: r → step s = exec c { s with pending := r })
    ∧ ∀ s : State, s.pending = [] → step s = .next (tick s)

/-- Right after reset the device is in ROM with no image running, nothing waits, every memory reads as its reset contents, every lane's path is DARK, no punnet
holds anything, the Rind is busy with its self-tests, the severities are those of R562, and the invariant holds. That data memory and instruction memory read zero
is the model's choice (log entry 2); the NVM reads as manufacture left it (R212), with contents the model names (log entries 2, 52). -/
def Obligations.ResetState : Prop :=
  let s := State.reset
  s.inv ∧ s.pending = [] ∧ s.dev = devROM ∧ s.dead = false ∧ s.fwLoad = none ∧ s.bankA = none ∧ s.bankB = none ∧ s.hostq = [] ∧ s.evbuf = [] ∧ s.fq = []
    ∧ (∀ g w, s.getI g w = 0 ∧ s.getD g w = 0) ∧ (∀ a, s.getNvm a = nvmReset a) ∧ (∀ p < 512, s.mode p = mDARK) ∧ (∀ k < 256, s.punKey k = none)
    ∧ s.on .RND_STAT_BUSY 0 = true ∧ s.on .MB_STAT_NOFW 0 = true ∧ (∀ g < 16, s.groveOn g = false)
    ∧ (∀ i < 1075, s.rd .FLT_SEV_REACT i = if i < 768 then 0 else if i = 1051 then 5 else if i = 1028 ∨ i = 1074 then 2 else 1)

/-- Every command has an effect in every state: the machine never faults and never refuses, and so no step of any state stops it. -/
def Obligations.EveryCommandAnswers : Prop :=
  (∀ (c : Instr) (s : State), ∃ t, exec c s = .next t) ∧ ∀ s : State, Safe s

/-- Every step keeps the invariant: the device stays in a state of its table, and every store, of registers, memories and towers, stays in canonical form. -/
def Obligations.StepKeepsCanonicalForm : Prop :=
  ∀ s t : State, s.inv → step s = .next t → t.inv

/-- R276 to R279: decoding the word of a well-formed sequencer instruction gives that instruction back, with each of its fields, and a word that decodes is the
word of what it decodes to. -/
def Obligations.SequencerWordsRoundTrip : Prop :=
  (∀ (o : SOp) (f : SFields), o.wellFormed f = true → seqDecode (seqEncode o f) = .ok o f)
    ∧ ∀ (w : Nat) (o : SOp) (f : SFields), w < 2 ^ 64 → seqDecode w = .ok o f → o.wellFormed f = true ∧ seqEncode o f = w

/-- R286, R283: ADD, SUB, AND, OR, XOR write rs1 op rs2 modulo 2^64 to rd, set Z and M by it and C as carry, borrow or 0, leave E, and nothing else changes. SHL
and SHR shift rs1 by rs2[5:0]; C is the last bit shifted out, and 0 for a count of 0. MUL writes the low 64 bits of the unsigned product, and C says that the
high 64 bits are non-zero. R286: ADDI adds the sign-extended immediate, ANDI and ORI take it zero-extended, LDI writes it and LDHI writes it to the high half
of rd; LDI and LDHI leave the flags. -/
def Obligations.ArithmeticResults : Prop :=
  (∀ (s : State) (g : Fin 16) (t : Fin 4) (f : SFields),
     let th := 4 * g.val + t.val
     let a := s.wreg th f.rs1
     let b := s.wreg th f.rs2
     let n := b % 64
     (s.issues g t .add f → SeqResult s (exec (.add g t) s) th f.rd ((a + b) % 2 ^ 64) (decide (2 ^ 64 ≤ a + b)))
     ∧ (s.issues g t .sub f → SeqResult s (exec (.sub g t) s) th f.rd ((a + 2 ^ 64 - b) % 2 ^ 64) (decide (a < b)))
     ∧ (s.issues g t .and f → SeqResult s (exec (.and g t) s) th f.rd (Nat.land a b) false)
     ∧ (s.issues g t .or f → SeqResult s (exec (.or g t) s) th f.rd (Nat.lor a b) false)
     ∧ (s.issues g t .xor f → SeqResult s (exec (.xor g t) s) th f.rd (Nat.xor a b) false)
     ∧ (s.issues g t .shl f → SeqResult s (exec (.shl g t) s) th f.rd (a * 2 ^ n % 2 ^ 64) (decide (a * 2 ^ n / 2 ^ 64 % 2 = 1)))
     ∧ (s.issues g t .shr f → SeqResult s (exec (.shr g t) s) th f.rd (a / 2 ^ n) (decide (0 < n ∧ a / 2 ^ (n - 1) % 2 = 1)))
     ∧ (s.issues g t .mul f → SeqResult s (exec (.mul g t) s) th f.rd (a * b % 2 ^ 64) (decide (2 ^ 64 ≤ a * b))))
    ∧ ∀ (s : State) (g : Fin 16) (t : Fin 4) (f : SFields),
      let th := 4 * g.val + t.val
      let a := s.wreg th f.rs1
      let i := f.x % 2 ^ 32
      let si := if i < 2 ^ 31 then i else i + 2 ^ 64 - 2 ^ 32
      let fl := s.flags th
      (s.issues g t .addi f → SeqResult s (exec (.addi g t) s) th f.rd ((a + si) % 2 ^ 64) (decide (2 ^ 64 ≤ a + si)))
      ∧ (s.issues g t .andi f → SeqResult s (exec (.andi g t) s) th f.rd (Nat.land a i) false)
      ∧ (s.issues g t .ori f → SeqResult s (exec (.ori g t) s) th f.rd (Nat.lor a i) false)
      ∧ (s.issues g t .ldi f → SeqEnds s (exec (.ldi g t) s) th f.rd i fl.1 fl.2.1 fl.2.2.1 fl.2.2.2)
      ∧ (s.issues g t .ldhi f → SeqEnds s (exec (.ldhi g t) s) th f.rd (i * 2 ^ 32 + s.wreg th f.rd % 2 ^ 32) fl.1 fl.2.1 fl.2.2.1 fl.2.2.2)

/-- R286: NOP, YIELD and FENCE change nothing but the thread's program counter. HALT leaves the thread HALTED with SEQ_TSTAT.PC at its own address. R274, R318: a
thread whose word has a reserved opcode stops in FAULTED with CAUSE 0x1, one whose fetch fails its parity check with CAUSE 0x6, and its message goes out. -/
def Obligations.ThreadControlInstructions : Prop :=
  (∀ (s : State) (g : Fin 16) (t : Fin 4) (f : SFields),
     let th := 4 * g.val + t.val
     let pc := s.rd .SEQ_TSTAT_PC th
     (s.issues g t .nop f → SeqGoes s (exec (.nop g t) s) th (pc + 1))
     ∧ (s.issues g t .yield f → SeqGoes s (exec (.yield g t) s) th (pc + 1))
     ∧ (s.issues g t .fence f → SeqGoes s (exec (.fence g t) s) th (pc + 1))
     ∧ (s.issues g t .halt f → ∃ u, exec (.halt g t) s = .next u ∧ u.rd .SEQ_TSTAT_STATE th = tHALTED ∧ u.rd .SEQ_TSTAT_PC th = pc
         ∧ s.regsBut u [(.SEQ_TSTAT_STATE, th)] ∧ s.memSame u))
    ∧ ∀ (s : State) (g : Fin 16) (t : Fin 4),
      let th := 4 * g.val + t.val
      s.dead = false → s.threadRuns g t = true → (s.rd .X_INJ_LEFT 0 = 0 ∨ s.rd .X_INJ_CHECKER 0 ≠ g) →
      (seqDecode (s.fetch g t) = .bad 1 → SeqFaults s (exec (.reservedOpcode g t false) s) th 1
        ∧ ∀ u, exec (.reservedOpcode g t false) s = .next u → s.sent u (768 + 8 * g.val + 6) msgFAULT (s.rd .SEQ_TSTAT_PC th))
      ∧ SeqFaults s (exec (.reservedOpcode g t true) s) th 6

/-- R287: LD reads the data word at rs1 plus the sign-extended offset into rd, sets Z and M by it and leaves C and E; ST stores rs2 there, and every other word and
byte of memory, the general registers and the flags stay. The two credit counters of a terminator may move, since the word may be its ring's consumer index (R124). An
address of 4,096 or more faults with CAUSE 0x3 and no access takes place. -/
def Obligations.DataMemoryAccesses : Prop :=
  ∀ (s : State) (g : Fin 16) (t : Fin 4) (f : SFields),
    let th := 4 * g.val + t.val
    let o := f.x % 2 ^ 16
    let a := (s.wreg th f.rs1 + (if o < 2 ^ 15 then o else o + 2 ^ 64 - 2 ^ 16)) % 2 ^ 64
    let v := (s.getD g a).toNat
    (s.issues g t .ld f → a < 4096 → SeqEnds s (exec (.ld g t) s) th f.rd v (v == 0) (s.flag th fC) (decide (2 ^ 63 ≤ v)) (s.flag th fE))
    ∧ (s.issues g t .ld f → 4096 ≤ a → SeqFaults s (exec (.ld g t) s) th 3)
    ∧ (s.issues g t .st f → a < 4096 → ∃ u, exec (.st g t) s = .next u ∧ (u.getD g a).toNat = s.wreg th f.rs2
        ∧ (∀ g' w, g' * 4096 + w ≠ g * 4096 + a → u.getD g' w = s.getD g' w)
        ∧ (∀ g' w, u.getI g' w = s.getI g' w) ∧ u.tower = s.tower ∧ (∀ b, u.getNvm b = s.getNvm b) ∧ (∀ b, u.getWin b = s.getWin b)
        ∧ u.rd .SEQ_TSTAT_PC th = s.rd .SEQ_TSTAT_PC th + 1 ∧ u.rd .SEQ_TSTAT_STATE th = tRUNNING
        ∧ s.fldsBut u [.SEQ_TSTAT_PC, .SEQ_TSTAT_STATE, .X_LT_HC, .X_LT_DC])
    ∧ (s.issues g t .st f → 4096 ≤ a → SeqFaults s (exec (.st g t) s) th 3)

/-- R288, with R251, R274, R289: BR goes to F[13:0] when its condition holds, BEQ, BNE, BLT and BGE when their comparison does (BLT and BGE signed), and to the
next word otherwise; nothing else changes. CALL pushes the address of the next word and branches, RET pops it, and neither changes a general register, a flag
or a memory; a CALL on a full stack and a RET on an empty one fault with CAUSE 0x5. LOOP counts rd down and branches while it is not zero, and falls through
on 0. -/
def Obligations.BranchCallLoop : Prop :=
  (∀ (s : State) (g : Fin 16) (t : Fin 4) (f : SFields),
     let th := 4 * g.val + t.val
     let pc := s.rd .SEQ_TSTAT_PC th
     let a := s.wreg th f.rs1
     let b := s.wreg th f.rs2
     let ia : Int := if a < 2 ^ 63 then (a : Int) else (a : Int) - 2 ^ 64
     let ib : Int := if b < 2 ^ 63 then (b : Int) else (b : Int) - 2 ^ 64
     let z := s.flag th fZ
     let c := s.flag th fC
     let m := s.flag th fM
     let e := s.flag th fE
     let cond := [true, z, !z, c, !c, m, !m, e, !e].getD (f.x / 2 ^ 14 % 16) false
     let goes := fun (taken : Bool) => if taken then f.x % 2 ^ 14 else pc + 1
     (s.issues g t .br f → SeqGoes s (exec (.br g t) s) th (goes cond))
     ∧ (s.issues g t .beq f → SeqGoes s (exec (.beq g t) s) th (goes (a == b)))
     ∧ (s.issues g t .bne f → SeqGoes s (exec (.bne g t) s) th (goes (a != b)))
     ∧ (s.issues g t .blt f → SeqGoes s (exec (.blt g t) s) th (goes (decide (ia < ib))))
     ∧ (s.issues g t .bge f → SeqGoes s (exec (.bge g t) s) th (goes (decide (ib ≤ ia)))))
    ∧ ∀ (s : State) (g : Fin 16) (t : Fin 4) (f : SFields),
      let th := 4 * g.val + t.val
      let pc := s.rd .SEQ_TSTAT_PC th
      let n := s.depth th
      let d := s.wreg th f.rd
      let stack : List (Fld × Nat) := [(.X_RDEPTH, th), (.SEQ_TSTAT_RSD, th), (.SEQ_TSTAT_FULL, th), (.SEQ_TSTAT_PC, th), (.SEQ_TSTAT_STATE, th)]
      (s.issues g t .call f → n < 8 → ∃ u, exec (.call g t) s = .next u ∧ u.depth th = n + 1 ∧ u.rd .X_RSTK (8 * th + n) = pc + 1
          ∧ u.rd .SEQ_TSTAT_PC th = f.x % 2 ^ 14 ∧ u.rd .SEQ_TSTAT_STATE th = tRUNNING ∧ s.regsBut u ((.X_RSTK, 8 * th + n) :: stack) ∧ s.memSame u)
      ∧ (s.issues g t .call f → 8 ≤ n → SeqFaults s (exec (.call g t) s) th 5)
      ∧ (s.issues g t .ret f → 0 < n → s.rd .X_RSTK (8 * th + (n - 1)) ≤ 16383 → ∃ u, exec (.ret g t) s = .next u ∧ u.depth th = n - 1
          ∧ u.rd .SEQ_TSTAT_PC th = s.rd .X_RSTK (8 * th + (n - 1)) ∧ u.rd .SEQ_TSTAT_STATE th = tRUNNING ∧ s.regsBut u stack ∧ s.memSame u)
      ∧ (s.issues g t .ret f → n = 0 → SeqFaults s (exec (.ret g t) s) th 5)
      ∧ (s.issues g t .loop f → d = 0 → SeqGoes s (exec (.loop g t) s) th (pc + 1))
      ∧ (s.issues g t .loop f → d ≠ 0 → ∃ u, exec (.loop g t) s = .next u ∧ u.wreg th f.rd = d - 1
          ∧ u.rd .SEQ_TSTAT_PC th = (if d = 1 then pc + 1 else f.x % 2 ^ 14) ∧ u.rd .SEQ_TSTAT_STATE th = tRUNNING
          ∧ s.regsBut u [(.SEQ_REGS_W, 32 * th + f.rd), (.SEQ_TSTAT_PC, th), (.SEQ_TSTAT_STATE, th)] ∧ s.memSame u)

/-- R267, R270, R282, R290: WPOS, WEPOCH, WMATCH and TWAIT end at once with outcome 0x00, setting Z and C, when their condition holds at issue; at once with 0x01,
clearing both, when the limit in rs2 is 0; and otherwise the thread WAITS at its instruction. E is cleared and M left. R291, R292, R293: a WANY block that
reaches word 4,096 faults with CAUSE 0x3, and one with a reserved bit set with CAUSE 0x2. A block that enables nothing ends with outcome 0x01 and number 0xFF,
and one that awaits trigger lines alone, of which i is the lowest at level 1, with outcome 0x00 and number 38 + i. R267, R271: a thread whose awaited
condition has held resumes at the next word with outcome 0x00, one whose limit has run out with nothing undecided left before it with 0x01, and one whose path's GEN has changed
with 0x02; C is cleared, Z set for outcome 0x00 alone and E for 0x02 alone,
and M left. -/
def Obligations.WaitInstructions : Prop :=
  ((∀ (s : State) (g : Fin 16) (t : Fin 4) (f : SFields),
      let th := 4 * g.val + t.val
      let a := s.wreg th f.rs1
      let ends := fun (x : Host.Outcome State Fault Refusal) (held : Bool) =>
        if held then SeqEnds s x th f.rd 0 true true (s.flag th fM) false
        else if s.wreg th f.rs2 = 0 then SeqEnds s x th f.rd 1 false false (s.flag th fM) false
        else ∃ u, x = .next u ∧ u.rd .SEQ_TSTAT_STATE th = tWAITING ∧ u.rd .SEQ_TSTAT_PC th = s.rd .SEQ_TSTAT_PC th ∧ (u.getWait th).isSome
          ∧ s.regsBut u [(.SEQ_TSTAT_STATE, th)] ∧ s.memSame u
      (s.issues g t .wpos f → ends (exec (.wpos g t) s) (posReached (s.pos (32 * g.val + f.obj)) (a % 2 ^ 48)))
      ∧ (s.issues g t .wepoch f → ends (exec (.wepoch g t) s) (s.tbValid && decide (a ≤ s.epochNow)))
      ∧ (s.issues g t .wmatch f → ends (exec (.wmatch g t) s) (s.rd .MATCH_CNT_COUNT (32 * g.val + f.obj) != a % 2 ^ 32))
      ∧ (s.issues g t .twait f → ends (exec (.twait g t) s) (s.tl f.obj == (f.x / 2 ^ 29 % 2 == 1))))
     ∧ ∀ (s : State) (g : Fin 16) (t : Fin 4) (f : SFields),
       let th := 4 * g.val + t.val
       let a := s.wreg th f.rs1
       let w := fun (i : Nat) => (s.getD g (a + i)).toNat
       (s.issues g t .wany f → 4096 < a + 4 → SeqFaults s (exec (.wany g t) s) th 3)
       ∧ (s.issues g t .wany f → a + 4 ≤ 4096 → w 1 / 2 ^ 43 ≠ 0 → SeqFaults s (exec (.wany g t) s) th 2)
       ∧ (s.issues g t .wany f → a + 4 ≤ 4096 → w 0 = 0 → w 1 = 0 → SeqEnds s (exec (.wany g t) s) th f.rd 0xFF01 false false (s.flag th fM) false)
       ∧ (∀ i : Fin 64, s.issues g t .wany f → a + 4 ≤ 4096 → w 1 = 0 → w 0 / 2 ^ i.val % 2 = 1 → s.tl i = true →
           (∀ j < i.val, w 0 / 2 ^ j % 2 = 1 → s.tl j = false) →
           SeqEnds s (exec (.wany g t) s) th f.rd (256 * (38 + i.val)) true true (s.flag th fM) false))
    ∧ ∀ (s : State) (g : Fin 16) (t : Fin 4) (w : Wait),
      let th := 4 * g.val + t.val
      s.dead = false → s.groveOn g = true → s.rd .SEQ_TSTAT_PC th < 16383 → s.getWait th = some w → (∀ l m n p e, w.cond ≠ .any l m n p e) →
      (w.hit.isSome = true → SeqEnds s (exec (.waitComplete g t) s) th w.rd 0 true false (s.flag th fM) false)
      ∧ (w.hit = none → w.genChanged = true → SeqEnds s (exec (.waitComplete g t) s) th w.rd 2 false false (s.flag th fM) true)
      ∧ (w.left = some 0 → w.hit = none → w.genChanged = false → s.owes w = false → SeqEnds s (exec (.waitLimit g t) s) th w.rd 1 false false (s.flag th fM) false)

/-- R290, R302, R316: RPOS, REPOCH, RMATCH and CNTR write what they read. RPOS and RMATCH leave the flags, REPOCH sets E when the epoch is not valid, CNTR sets Z
and M from the value. -/
def Obligations.ReadInstructions : Prop :=
  ∀ (s : State) (g : Fin 16) (t : Fin 4) (f : SFields),
    let th := 4 * g.val + t.val
    let p := 32 * g.val + f.obj
    let fl := s.flags th
    let lt := 2 * g.val + f.obj
    let m := [s.rd .MATCH_CNT_COUNT p, s.rd .MATCH_LPOS_POS p, s.rd .MATCH_LEP_EPOCH p].getD (f.x % 4) 0
    let pin := 4 * g.val + f.obj
    let v := [s.rd .PATH_POS_GEN p, s.rd .PATH_DISC_COUNT p, if s.rd .GSB_CFG_FUNC pin = 3 then s.rd .GSB_CFG_LEVEL pin else 0, s.rd .TL_LVL_LVL 0,
      g.val + 16 * t.val, s.rd .INJ_STAT_FREE g,
      s.rd .LT_STAT_LTSSM lt + 16 * s.rd .LT_STAT_DLUP lt + 32 * s.rd .LT_STAT_RATE lt + 256 * s.rd .LT_STAT_FLIT lt + 512 * s.rd .LT_STAT_CXL lt,
      s.rd .PATH_PCHK_ERRS p + 2 ^ 31 * s.rd .PATH_PCHK_LOCK p, s.rd .TB_STAT_VALID 0 + 2 ^ 16 * s.rd .TB_STAT_STEPS 0,
      (match s.pendChg p with | some c => 1 + 2 * c.target | none => 0), s.rd .VIN_TLAST_T f.obj].getD (f.x % 16) 0 % 2 ^ 64
    (s.issues g t .rpos f → SeqEnds s (exec (.rpos g t) s) th f.rd (s.pos p) fl.1 fl.2.1 fl.2.2.1 fl.2.2.2)
    ∧ (s.issues g t .repoch f → SeqEnds s (exec (.repoch g t) s) th f.rd s.epochNow fl.1 fl.2.1 fl.2.2.1 (!s.tbValid))
    ∧ (s.issues g t .rmatch f → SeqEnds s (exec (.rmatch g t) s) th f.rd m fl.1 fl.2.1 fl.2.2.1 fl.2.2.2)
    ∧ (s.issues g t .cntr f → SeqEnds s (exec (.cntr g t) s) th f.rd v (v == 0) fl.2.1 (decide (2 ^ 63 ≤ v)) fl.2.2.2)

/-- R296, R297, R298: TRAIN and RATE answer 0x02 with the terminator disabled, 0x07 with its grove unavailable, 0x09 in a state where the request is not valid,
0x0A while one is running, and else 0x00 and begin: Recovery, Hot Reset, Disabled or a restart at Detect on PCIe and CXL, training or the restart on Ethernet; RATE
notes its target and leaves L0 for Recovery. Which states a request is valid in is the model's reading (log entry 34). -/
def Obligations.TrainInstructions : Prop :=
  ∀ (s : State) (g : Fin 16) (t : Fin 4) (f : SFields),
    let th := 4 * g.val + t.val
    let l := 2 * g.val + f.obj
    let ends := fun (x : Host.Outcome State Fault Refusal) (valid : Bool) (P : State → Prop) =>
      let code := if s.rd .LT_CFG_EN l = 0 then 2 else if s.dev ≠ devSERVICE ∨ s.quadAbsent g = true then 7 else if valid = false then 9
        else if s.rd .X_LT_BUSY l ≠ 0 then 10 else 0
      SeqDone s x th f.rd code 0 false (if code = 0 then termFlds ++ portFlds ++ ([.LNK_PSTAT_RATE, .LNK_PSTAT_FLIT, .X_DET_RUN] : List Fld) else []) fun u => code = 0 → P u
    let st := fun (eth pci : Nat) (u : State) => if s.ltEth l then u.rd .LT_ETH_STAT_STATE l = eth else u.rd .LT_STAT_LTSSM l = pci
    let r := f.x / 2 % 8
    (s.issues g t .trainRecovery f → ends (exec (.trainRecovery g t) s) (s.trainValid l 0) fun u => st 2 3 u ∧ u.rd .X_LT_BUSY l = 1)
    ∧ (s.issues g t .trainHotReset f → ends (exec (.trainHotReset g t) s) (s.trainValid l 1) fun u => st 1 8 u ∧ u.rd .X_LT_BUSY l = 1)
    ∧ (s.issues g t .trainDisable f → ends (exec (.trainDisable g t) s) (s.trainValid l 2) (st 1 9))
    ∧ (s.issues g t .trainRestart f → ends (exec (.trainRestart g t) s) (s.trainValid l 3) fun u => st 1 0 u ∧ u.rd .X_LT_BUSY l = 1)
    ∧ (s.issues g t .rate f → ends (exec (.rate g t) s) (!s.ltEth l && decide (r ≤ s.rd .LT_PCI_CFG_MAXRATE l)) fun u =>
        u.rd .X_LT_TGT l = r + 1 ∧ u.rd .X_LT_BUSY l = 1 ∧ u.rd .LT_STAT_LTSSM l = (if s.rd .LT_STAT_LTSSM l = 4 then 3 else s.rd .LT_STAT_LTSSM l))

/-- R299, R170, R174, R177: RATE.PPM, EQ and EQ.LVL set the transmitter of the path as the host's write would, answer 0x09 for a value out of range and 0x07 with
the grove unavailable, and in both cases leave the settings and TXERR as they are. -/
def Obligations.TransmitterInstructions : Prop :=
  ∀ (s : State) (g : Fin 16) (t : Fin 4) (f : SFields),
    let th := 4 * g.val + t.val
    let p := 32 * g.val + f.obj
    let x := txPort p
    let a := s.wreg th f.rs1
    let ppm := signed 10 (a % 2 ^ 10)
    let w := a % 2 ^ 30
    let swing := a % 2 ^ 7
    let trim := signed 5 (a / 2 ^ 7 % 2 ^ 5)
    let ends := fun (y : Host.Outcome State Fault Refusal) (ok : Bool) (fl : List Fld) (P : State → Prop) =>
      let code := if s.dev ≠ devSERVICE ∨ s.quadAbsent g = true then 7 else if ok = true then 0 else 9
      SeqDone s y th f.rd code 0 false (if code = 0 then fl else []) fun u => code = 0 → P u
    (s.issues g t .ratePpm f → ends (exec (.ratePpm g t) s) (decide (-300 ≤ ppm ∧ ppm ≤ 300)) [.TX_PPM_PPM] fun u => u.rd .TX_PPM_PPM x = a % 2 ^ 10)
    ∧ (s.issues g t .eq f → ends (exec (.eq g t) s) (firOk w) (([.TX_FIR_CM2, .TX_FIR_CM1, .TX_FIR_C0, .TX_FIR_C1, .TX_FIR_C2, .TX_FIR_C3] : List Fld) ++ portFlds) fun u =>
        u.rd .TX_FIR_CM2 x = w % 2 ^ 4 ∧ u.rd .TX_FIR_CM1 x = w / 2 ^ 4 % 2 ^ 5 ∧ u.rd .TX_FIR_C0 x = w / 2 ^ 9 % 2 ^ 6
          ∧ u.rd .TX_FIR_C1 x = w / 2 ^ 15 % 2 ^ 5 ∧ u.rd .TX_FIR_C2 x = w / 2 ^ 20 % 2 ^ 5 ∧ u.rd .TX_FIR_C3 x = w / 2 ^ 25 % 2 ^ 5)
    ∧ (s.issues g t .eqLvl f → ends (exec (.eqLvl g t) s) (decide (20 ≤ swing ∧ swing ≤ 100 ∧ -15 ≤ trim)) [.TX_LVL_SWING, .TX_LVL_LVLTRIM] fun u =>
        u.rd .TX_LVL_SWING x = swing ∧ u.rd .TX_LVL_LVLTRIM x = a / 2 ^ 7 % 2 ^ 5)

/-- R300, R301, R327: ARM of a block that would reach word 4,096 faults with CAUSE 0x3; else it answers 0x07 with the grove unavailable, 0x09 for an invalid
block, 0x0A for an armed matcher, and 0x00, loading and enabling the matcher with its counts cleared. DISARM disables it and keeps its counts. R303 to R306:
CAPON, CAPOFF and CAPMARK answer the lowest code of R305 that applies, or 0x00 and wait for their moment, of which the stream holds four; CAPSEL assigns the
stream, FILT sets its filter. With a code other than 0 nothing changes but the thread's own registers. -/
def Obligations.MatcherAndCaptureInstructions : Prop :=
  (∀ (s : State) (g : Fin 16) (t : Fin 4) (f : SFields),
     let th := 4 * g.val + t.val
     let m := 32 * g.val + f.obj
     let a := s.wreg th f.rs1
     let b := s.readBlock g a
     let away := s.dev ≠ devSERVICE ∨ s.quadAbsent g = true
     let code := if away then 7 else if blockBad b = true then 9 else if s.rd .MATCH_STAT_ARMED m ≠ 0 then 10 else 0
     let past := 4096 < a + 2 ∨ 4096 < a + blockLen (s.getD g a).toNat
     (s.issues g t .arm f → past → SeqFaults s (exec (.arm g t) s) th 3)
     ∧ (s.issues g t .arm f → ¬past → SeqDone s (exec (.arm g t) s) th f.rd code 0 false
         (if code = 0 then [.MATCH_STAT_ARMED, .MATCH_CNT_COUNT, .MATCH_STAT_LASTPATH, .MATCH_LPOS_POS, .MATCH_LEP_EPOCH, .X_M_FIRED] else []) fun u =>
         code = 0 → u.rd .MATCH_STAT_ARMED m = 1 ∧ u.getBlk m = b ∧ u.rd .MATCH_CNT_COUNT m = 0 ∧ u.rd .MATCH_STAT_LASTPATH m = 0
           ∧ u.rd .MATCH_LPOS_POS m = 0 ∧ u.rd .MATCH_LEP_EPOCH m = 0)
     ∧ (s.issues g t .disarm f → SeqDone s (exec (.disarm g t) s) th f.rd (if away then 7 else 0) 0 false [.MATCH_STAT_ARMED] fun u =>
         u.rd .MATCH_STAT_ARMED m = (if away then s.rd .MATCH_STAT_ARMED m else 0) ∧ u.getBlk m = s.getBlk m))
    ∧ ∀ (s : State) (g : Fin 16) (t : Fin 4) (f : SFields) (adv : Nat),
      let th := 4 * g.val + t.val
      let p := 32 * g.val + f.obj
      let a := s.wreg th f.rs1
      let m : Moment := if f.t then .epoch a else .pos (a % 2 ^ 48)
      let away := s.dev ≠ devSERVICE ∨ s.quadAbsent g = true
      let st := s.getStrm p
      let code := if s.rd .PUN_CFG_EN (s.rd .STRM_CFG_PUN p) = 0 then 2 else if s.govPath p ≠ p then 4 else if s.momentPast p m = true then 5
        else if 4 ≤ st.pend.length then 6 else if away then 7 else if hasTap (s.modeAt p m) = false then 11 else 0
      let takes := fun (x : Host.Outcome State Fault Refusal) (k : CapKind) =>
        SeqDone s x th f.rd code 0 (s.pastAtIssue p m adv) (if code = 0 then [.STRM_CFG_PEND] else []) fun u =>
          (code = 0 → (u.getStrm p).pend = st.pend ++ [⟨k, m, 0, t.val⟩] ∧ u.rd .STRM_CFG_PEND p = st.pend.length + 1) ∧ (code ≠ 0 → u.strm = s.strm)
      let sel := if a ≤ 255 ∧ s.rd .PUN_CFG_EN a = 0 then 2 else if s.govPath p ≠ p then 4 else if away then 7 else if 255 < a then 9
        else if s.strmBusy p = true then 10 else 0
      let fil := if s.govPath p ≠ p then 4 else if away then 7 else 0
      (s.issues g t .capon f → takes (exec (.capon g t adv) s) .on)
      ∧ (s.issues g t .capoff f → takes (exec (.capoff g t adv) s) .off)
      ∧ (s.issues g t .capmark f → takes (exec (.capmark g t adv) s) (.mark (s.wreg th f.rs2 % 2 ^ 32)))
      ∧ (s.issues g t .capsel f → SeqDone s (exec (.capsel g t) s) th f.rd sel 0 false (if sel = 0 then [.STRM_CFG_PUN, .STRM_CFG_CLASS, .STRM_SEQ_SEQ] else []) fun u =>
          sel = 0 → u.rd .STRM_CFG_PUN p = a ∧ u.rd .STRM_CFG_CLASS p = f.x % 4
            ∧ u.rd .STRM_SEQ_SEQ p = (if s.rd .STRM_CFG_PUN p = a ∧ s.rd .STRM_CFG_CLASS p = f.x % 4 then s.rd .STRM_SEQ_SEQ p else 0))
      ∧ (s.issues g t .filt f → SeqDone s (exec (.filt g t) s) th f.rd fil 0 false (if fil = 0 then [.PATH_FILT_FILT, .PATH_FILT_NONE] else []) fun u =>
          fil = 0 → u.rd .PATH_FILT_FILT p = f.x % 16 ∧ u.rd .PATH_FILT_NONE p = f.x / 16 % 2)

/-- R307 to R313: INJ and ERRB answer the lowest code that applies, or 0x00 with the number of the grove's lowest free queue entry, which they take; ERRB of no bits
takes none. DLY and SKPADJ answer likewise, and their change waits on the path. With a code other than 0 nothing changes but the thread's own registers. -/
def Obligations.InjectionInstructions : Prop :=
  ∀ (s : State) (g : Fin 16) (t : Fin 4) (f : SFields) (adv : Nat),
    let th := 4 * g.val + t.val
    let p := 32 * g.val + f.obj
    let q := s.govPath p
    let a := s.wreg th f.rs1
    let b := s.wreg th f.rs2
    let at_ := if f.t then a else a % 2 ^ 48
    let m : Moment := if f.t then .epoch a else .pos (a % 2 ^ 48)
    let away := s.dev ≠ devSERVICE ∨ s.quadAbsent g = true
    let act := f.x % 16
    let e := (s.injFree g).getD 0
    let inj := if q ≠ p then 4 else if s.momentPast p m = true then 5 else if s.injFree g = none then 6 else if away then 7
      else if s.actRefused p act = true ∨ (act ∈ [1, 2, 5] ∧ 4096 ≤ b) then 9 else if s.modeAt p m ≠ mSPLICE then 11 else 0
    let bits := b % 2 ^ 16
    let errb := if s.momentPast q m = true then 5 else if bits ≠ 0 ∧ s.injFree g = none then 6 else if away then 7 else if 4096 < bits then 9
      else if s.modeAt q m ≠ mSPLICE then 11 else 0
    let dly := if q ≠ p then 4 else if s.momentPast p m = true then 5 else if s.rd .X_DLYP_V p ≠ 0 then 6 else if away then 7
      else if 2 ^ 32 ≤ b ∨ s.cellsTooMany p b = true then 9 else if s.modeAt p m ≠ mDELAY then 11 else 0
    let m' : Moment := .pos (a % 2 ^ 48)
    let skp := if q ≠ p then 4 else if s.momentPast p m' = true then 5 else if s.rd .X_SKP_V p ≠ 0 then 6 else if away then 7
      else if s.pcie (p / 2) = false then 9 else if s.modeAt p m' ≠ mSPLICE then 11 else 0
    let taken := fun (u : State) (k fix : Nat) => u.rd .INJ_ENT_INFO_STATE e = 1 ∧ u.rd .INJ_ENT_INFO_PATH e = f.obj ∧ u.rd .INJ_ENT_INFO_ACT e = k
      ∧ u.rd .INJ_ENT_INFO_FIX e = fix ∧ u.rd .INJ_ENT_INFO_T e = (if f.t then 1 else 0) ∧ u.rd .INJ_ENT_MOMENT e = at_
      ∧ u.rd .INJ_STAT_FREE g = s.rd .INJ_STAT_FREE g - 1
    (s.issues g t .inj f → SeqDone s (exec (.inj g t adv) s) th f.rd inj (if inj = 0 then e % 64 else 0) (s.pastAtIssue p m adv)
        (if inj = 0 then entFlds else []) fun u => inj = 0 → taken u act (f.x / 16 % 2))
    ∧ (s.issues g t .errb f → SeqDone s (exec (.errb g t adv) s) th f.rd errb (if errb = 0 ∧ bits ≠ 0 then e % 64 else 0) (s.pastAtIssue q m adv)
        (if errb = 0 ∧ bits ≠ 0 then entFlds else []) fun u => errb = 0 → bits ≠ 0 → taken u 7 0)
    ∧ (s.issues g t .dly f → SeqDone s (exec (.dly g t adv) s) th f.rd dly 0 (s.pastAtIssue p m adv)
        (if dly = 0 then [.X_DLYP_V, .X_DLYP_M, .X_DLYP_C] else []) fun u =>
        dly = 0 → u.rd .X_DLYP_V p = (if f.t then 2 else 1) ∧ u.rd .X_DLYP_M p = at_ ∧ u.rd .X_DLYP_C p = b)
    ∧ (s.issues g t .skpadj f → SeqDone s (exec (.skpadj g t adv) s) th f.rd skp 0 (s.pastAtIssue p m' adv)
        (if skp = 0 then [.X_SKP_V, .X_SKP_POS, .X_SKP_DIR] else []) fun u =>
        skp = 0 → u.rd .X_SKP_V p = 1 ∧ u.rd .X_SKP_POS p = a % 2 ^ 48 ∧ u.rd .X_SKP_DIR p = f.x % 2)

/-- R232, R315, R317, R243, R294, R295: TSET and TCLR set and clear the line that OBJ names, a set and a clear in one cycle leaving it set and noting TL_COLL, EVT and EVTG send kind 0xE with rs1's low 48 bits, VSEND requests a trigger of
a vine line, MODE makes a change of the path pending; the thread goes on. VSEND answers 0x01 for a time that the lead cannot meet and 0x02 with no room, MODE the code of
R76. -/
def Obligations.TriggerEventModeInstructions : Prop :=
  ∀ (s : State) (g : Fin 16) (t : Fin 4) (f : SFields) (adv : Nat) (same : Bool),
    let th := 4 * g.val + t.val
    let a := s.wreg th f.rs1
    let p := 32 * g.val + f.obj
    let edge := (s.startIn same).edge
    let goes := fun (x : Host.Outcome State Fault Refusal) (l : List Fld) (P : State → Prop) =>
      Does s x (l ++ ([.SEQ_TSTAT_PC, .SEQ_TSTAT_STATE] : List Fld)) fun u =>
        u.rd .SEQ_TSTAT_PC th = s.rd .SEQ_TSTAT_PC th + 1 ∧ u.rd .SEQ_TSTAT_STATE th = tRUNNING ∧ P u
    let others := fun (u : State) => ∀ i < 64, i ≠ f.obj → u.tl i = s.tl i
    let lat := s.rd .VIN_LATB_TICKS 0
    let late := lat ≠ 0 ∧ a < s.epochNow + lat
    let root := s.rd .VIN_CTL_ROOT 0 ≠ 0
    let up := s.rd .VIN_PSTAT_STATE 0 = 2
    let vcode := if root ∨ up ∨ s.vreq.length < 4 then (if late then 1 else 0) else 2
    let m : Moment := if f.t then .epoch a else .pos (a % 2 ^ 48)
    let ab := p % 2 == 0
    let target := f.x % 8
    let mcode := s.chgCode (p / 2) ab (!ab) (if ab then target else s.mode (2 * (p / 2))) (if ab then s.mode (2 * (p / 2) + 1) else target) (s.momentPast p m) false
    (s.issues g t .tset f → goes (exec (.tset g t same) s) lineFlds fun u => u.tl f.obj = true ∧ others u
        ∧ (s.rd .X_TL_CLRC f.obj = edge → u.bit .TL_COLL_COLL 0 f.obj = true))
    ∧ (s.issues g t .tclr f → goes (exec (.tclr g t same) s) [.TL_LVL_LVL, .X_TL_PULSE, .X_TL_CLRC, .X_TL_WAS, .X_TL_FELL, .TL_COLL_COLL] fun u => others u
        ∧ (if s.rd .X_TL_SETC f.obj = edge then u.tl f.obj = s.tl f.obj ∧ u.bit .TL_COLL_COLL 0 f.obj = true
          else if s.rd .X_TL_CLRC f.obj = edge then u.tl f.obj = s.tl f.obj else u.tl f.obj = false))
    ∧ (s.issues g t .evt f → goes (exec (.evt g t) s) (.PUN_DISC_COUNT :: msgFlds) fun u => s.sent u p msgPROGRAM a)
    ∧ (s.issues g t .evtG f → goes (exec (.evtG g t) s) msgFlds fun u => s.sent u (768 + 8 * g.val + 7) msgPROGRAM a)
    ∧ (s.issues g t .vsend f → SeqDone s (exec (.vsend g t) s) th f.rd vcode 0 false (if root then vineFlds else []) fun u =>
        ¬root → (up → u.out = [.vine 0 3 [s.rd .VIN_NODE_ID 0, f.obj, f.x % 2, a, if late then 1 else 0]] ∧ u.vreq = s.vreq)
          ∧ (¬up → u.out = [] ∧ u.vreq.length = min (s.vreq.length + 1) (max 4 s.vreq.length)))
    ∧ (s.issues g t .mode f → SeqDone s (exec (.mode g t adv) s) th f.rd mcode 0 (s.pastAtIssue p m adv) (if mcode = 0 then [pendFld p] else []) fun u =>
        if mcode = 0 then u.getChg p = some ⟨target, if s.mode p = mDARK then (.fromDark (some m)) else .named m⟩ ∧ u.rd (pendFld p) (p / 2) = 1 else u.chg = s.chg)

/-- R255 to R257: GO starts every named thread that is HALTED or FAULTED at its SEQ_TSTART, with an empty return stack and CAUSE 0, STOP halts every named thread,
faulted ones too, STEP lets a HALTED thread issue one instruction and leaves it HALTED or FAULTED. Where a GO is to be ignored it sets SEQ_CTL.ERR and does
nothing else. R252, R259, R275: the low half of a 64-bit word waits in its route's staging register; the high half commits with it, or with the stored low
half where another word's is held. SEQ_REGS of a thread that runs or waits refuses, with SEQ_CTL.ERR; the memories discard writes while CLRBUSY is set, and
their clearing ends it. -/
def Obligations.ThreadAndMemoryWrites : Prop :=
  (∀ (s : State) (r : Route) (g : Fin 16) (n : BitVec 4) (adv : Nat), s.takes r (gAddr g 0x2000) →
     let th := fun (t : Fin 4) => 4 * g.val + t.val
     let named := fun (t : Fin 4) => n.getLsbD t.val = true
     let st := fun (u : State) (t : Fin 4) => u.rd .SEQ_TSTAT_STATE (th t)
     let mine := fun (i : Nat) => i / 4 = g.val
     (n ≠ 0 → s.goIgnored g = true → Does s (exec (.seqGo r g n) s) [.SEQ_CTL_ERR] fun u => u.rd .SEQ_CTL_ERR g = 1)
     ∧ (s.goIgnored g = false →
         Does s (exec (.seqGo r g n) s) [.SEQ_TSTAT_STATE, .SEQ_TSTAT_PC, .SEQ_TSTAT_CAUSE, .X_RDEPTH, .SEQ_TSTAT_RSD, .SEQ_TSTAT_FULL] fun u => ∀ t,
           if named t ∧ (st s t = tHALTED ∨ st s t = tFAULTED) then
             st u t = tRUNNING ∧ u.rd .SEQ_TSTAT_PC (th t) = s.rd .SEQ_TSTART_PC (th t) ∧ u.rd .SEQ_TSTAT_CAUSE (th t) = 0 ∧ u.depth (th t) = 0
           else st u t = st s t ∧ u.rd .SEQ_TSTAT_PC (th t) = s.rd .SEQ_TSTAT_PC (th t) ∧ u.depth (th t) = s.depth (th t))
     ∧ (Does s (exec (.seqStop r g n) s) [.SEQ_TSTAT_STATE] fun u =>
         (∀ t, st u t = if named t then tHALTED else st s t)
           ∧ ∀ i, ¬mine i → u.rd .SEQ_TSTAT_STATE i = s.rd .SEQ_TSTAT_STATE i)
     ∧ (∀ t : Fin 4, n = 1#4 <<< t.val → s.goIgnored g = false → s.groveOn g = true → st s t = tHALTED →
         (s.rd .X_INJ_LEFT 0 = 0 ∨ s.rd .X_INJ_CHECKER 0 ≠ g) →
         ∃ u, exec (.seqStep r g n adv) s = .next u ∧ (st u t = tHALTED ∨ st u t = tFAULTED)
           ∧ ∀ f, seqDecode (s.fetch g t) = .ok .add f → s.rd .SEQ_TSTAT_PC (th t) < 16383 →
             st u t = tHALTED ∧ u.wreg (th t) f.rd = (s.wreg (th t) f.rs1 + s.wreg (th t) f.rs2) % 2 ^ 64
               ∧ u.rd .SEQ_TSTAT_PC (th t) = s.rd .SEQ_TSTAT_PC (th t) + 1))
    ∧ ∀ (s : State) (r : Route) (g : Fin 16) (t : Fin 4) (i : Fin 32) (w : Fin 16384) (data hi : Bool) (v : DW),
      let th := 4 * g.val + t.val
      let slot := 3 * g.val + Route.num r
      let w' := if data then w.val % 4096 else w.val
      let rkey := 32768 + 32 * t.val + i.val
      let mkey := if data then 16384 + w' else w'
      let low := fun (key old : Nat) => match nget s.halfStage none slot with | some (k, l) => if k = key then l else old % 2 ^ 32 | none => old % 2 ^ 32
      let st := s.rd .SEQ_TSTAT_STATE th
      let ra := gAddr g (0x2100 + 0x100 * t.val + 8 * i.val + (if hi then 4 else 0))
      let at_ := fun (u : State) (d : Bool) (x : Nat) => (if d then u.getD g x else u.getI g x).toNat
      (s.takes r ra → (st = tRUNNING ∨ st = tWAITING) → Does s (exec (.seqRegsWrite r g t i hi v) s) [.SEQ_CTL_ERR] fun u => u.rd .SEQ_CTL_ERR g = 1)
      ∧ (s.takes r ra → st ≠ tRUNNING → st ≠ tWAITING → hi = false →
          Does s (exec (.seqRegsWrite r g t i hi v) s) [] fun u => nget u.halfStage none slot = some (rkey, v.toNat))
      ∧ (s.takes r ra → st ≠ tRUNNING → st ≠ tWAITING → hi = true →
          Does s (exec (.seqRegsWrite r g t i hi v) s) [.SEQ_REGS_W] fun u => u.wreg th i = (low rkey (s.wreg th i) + 2 ^ 32 * v.toNat) % 2 ^ 64
            ∧ nget u.halfStage none slot = none ∧ ∀ k, k ≠ 32 * th + i.val → u.rd .SEQ_REGS_W k = s.rd .SEQ_REGS_W k)
      ∧ (s.takes r (memAddr g data w' false) →
          Does s (exec (.memLowHalfWrite r g data w v) s) [] fun u =>
            nget u.halfStage none slot = if s.rd .SEQ_CTL_CLRBUSY g = 0 then some (mkey, v.toNat) else nget s.halfStage none slot)
      ∧ (s.takes r (memAddr g data w' true) → s.rd .SEQ_CTL_CLRBUSY g ≠ 0 → Does s (exec (.memHighHalfWrite r g data w v) s) [] fun _ => True)
      ∧ (s.takes r (memAddr g data w' true) → s.rd .SEQ_CTL_CLRBUSY g = 0 →
          DoesMem s (exec (.memHighHalfWrite r g data w v) s) [.X_LT_HC, .X_LT_DC] fun u =>
            at_ u data w' = (low mkey (at_ s data w') + 2 ^ 32 * v.toNat) % 2 ^ 64
            ∧ (∀ d g' x, x < (if d then 4096 else 16384) → ¬(d = data ∧ g' = g.val ∧ x = w') → (if d then u.getD g' x = s.getD g' x else u.getI g' x = s.getI g' x))
            ∧ u.tower = s.tower ∧ u.nvm = s.nvm ∧ u.win = s.win)
      ∧ (s.dead = false → Does s (exec (.groveClearDone g) s) [.SEQ_CTL_CLRBUSY] fun u => u.rd .SEQ_CTL_CLRBUSY g = 0)

/-- R60 to R65, R71 to R82, R90: the link table and the terminators' assignments are written while dark and refused with GRV_LINKERR otherwise, a write of PATH_MODE reports its code
and leaves the change pending, a source is selected outside SOURCE or its refusal shows a code (log 18), and a change takes effect at its unit, by its limit of time or out of DARK. -/
def Obligations.LinkTableAndModes : Prop :=
  ∀ (s : State) (r : Route) (g k : Fin 16) (t : Fin 2) (n : Fin 256) (p : Fin 512) (v : DW),
    let w := v.toNat
    let refused := fun (y : Host.Outcome State Fault Refusal) => DoesAt s y [(.GRV_LINKERR_ERR, g)] fun u => u.on .GRV_LINKERR_ERR g = true
    let L := 16 * g.val + k.val
    let width := if w / 2 % 8 ≤ 4 then w / 2 % 8 else s.rd .LINK_CFG_WIDTH L
    let proto := if w / 256 % 8 ≤ 3 then w / 256 % 8 else s.rd .LINK_CFG_PROTO L
    let bad := s.linkRefused L (w % 2 == 1) width (w / 16 % 16) proto = true
    let T := 2 * g.val + t.val
    let o := 2 * g.val + (1 - t.val)
    let M := 16 * g.val + w / 4 % 16
    let free := fun (M : Nat) => s.on .LINK_CFG_EN M = false ∨ s.entryDark M = true
    let taken := s.on .LT_CFG_EN o = true ∧ s.rd .LT_CFG_LINK o = w / 4 % 16 ∧ s.rd .LT_CFG_SIDE o = w / 2 % 2
    let ltOk := free M ∧ free (16 * g.val + s.rd .LT_CFG_LINK T) ∧ ¬taken ∧ ¬(w % 2 = 1 ∧ s.rd .LINK_CFG_PROTO M = 0)
    let a := w % 8
    let b := w / 16 % 8
    let ca := a ≠ s.mode (2 * n)
    let cb := b ≠ s.mode (2 * n + 1)
    let code := s.chgCode n (a != s.mode (2 * n)) (b != s.mode (2 * n + 1)) a b false false
    let pm := exec (.pathModeWrite r n v) s
    let pa := s.takes r (gAddr (n / 16) (0x100 + 4 * (n % 16)))
    let sel := w % 4
    let h := p.val / 2
    let selA := if p.val % 2 = 0 then sel else s.srcSel (2 * h)
    let selB := if p.val % 2 = 0 then s.srcSel (2 * h + 1) else sel
    let pairOk := ∀ x ∈ s.srcPairings h, s.termRule h x.1 x.2 selA selB = true
    let pw := exec (.pathSrcWrite r p v) s
    let ps := s.takes r (gAddr (gOf p) (0x280 + 4 * localPath p))
    let srcCode := fun (c : Nat) => DoesAt s pw [(.PATH_MODE_CODE, s.govLane h)] fun u => u.rd .PATH_MODE_CODE (s.govLane h) = c
    let q := s.govPath p
    let switches := fun (y : Host.Outcome State Fault Refusal) (m : Nat) => Does s y modeFlds fun u => u.rd (modeFld q) (q / 2) = m % 8 ∧ u.getChg q = none
    let nothing := fun (y : Host.Outcome State Fault Refusal) => DoesAt s y [] fun _ => True
    (s.takes r (gAddr g (4 * k.val)) → ¬bad → DoesAt s (exec (.linkCfgWrite r g k v) s) ([.LINK_CFG_EN, .LINK_CFG_WIDTH, .LINK_CFG_FIRST, .LINK_CFG_PROTO].map fun f => (f, L))
        fun u => u.rd .LINK_CFG_EN L = w % 2 ∧ u.rd .LINK_CFG_WIDTH L = width % 8 ∧ u.rd .LINK_CFG_FIRST L = w / 16 % 16 ∧ u.rd .LINK_CFG_PROTO L = proto % 8)
    ∧ (s.takes r (gAddr g (4 * k.val)) → bad → refused (exec (.linkCfgWrite r g k v) s))
    ∧ (s.takes r (gAddr g (0x400 + 4 * t.val)) → ltOk → DoesAt s (exec (.ltCfgWrite r g t v) s) [(.LT_CFG_EN, T), (.LT_CFG_SIDE, T), (.LT_CFG_LINK, T)] fun u =>
        u.rd .LT_CFG_EN T = w % 2 ∧ u.rd .LT_CFG_SIDE T = w / 2 % 2 ∧ u.rd .LT_CFG_LINK T = w / 4 % 16)
    ∧ (s.takes r (gAddr g (0x400 + 4 * t.val)) → ¬ltOk → refused (exec (.ltCfgWrite r g t v) s))
    ∧ (pa → code ≠ 0 → DoesAt s pm [(.PATH_MODE_CODE, s.govLane n)] fun u => u.rd .PATH_MODE_CODE (s.govLane n) = code ∧ u.chg = s.chg)
    ∧ (pa → code = 0 → DoesAt s pm [(.PATH_MODE_PEND_AB, n), (.PATH_MODE_PEND_BA, n), (.X_SPLIT, n), (.PATH_MODE_CODE, n)] fun u => u.rd .PATH_MODE_CODE n = 0
        ∧ (ca → u.getChg (2 * n) = some ⟨a, s.hostWhen (2 * n)⟩ ∧ u.on .PATH_MODE_PEND_AB n = true)
        ∧ (cb → u.getChg (2 * n + 1) = some ⟨b, s.hostWhen (2 * n + 1)⟩ ∧ u.on .PATH_MODE_PEND_BA n = true)
        ∧ (¬ca → u.rd .PATH_MODE_PEND_AB n = s.rd .PATH_MODE_PEND_AB n) ∧ (¬cb → u.rd .PATH_MODE_PEND_BA n = s.rd .PATH_MODE_PEND_BA n))
    ∧ (ps → (s.mode p = mSOURCE ∨ sel = 3 ∧ s.govLane h = h) → nothing pw)
    ∧ (ps → s.mode p ≠ mSOURCE → s.govLane h ≠ h → srcCode 4)
    ∧ (ps → sel ≠ 3 → s.mode p ≠ mSOURCE → s.govLane h = h → ¬pairOk → srcCode 8)
    ∧ (ps → sel ≠ 3 → s.mode p ≠ mSOURCE → s.govLane h = h → pairOk → DoesAt s pw [(.PATH_SRC_SEL, p)] fun u => u.rd .PATH_SRC_SEL p = sel)
    ∧ (∀ c, s.dead = false → s.getChg q = some c → c.due (posAdd (s.pos q) 1) (s.stampOf q) = true → switches (exec (.modeSwitch p) s) c.target)
    ∧ (∀ c, s.dead = false → s.getChg q = some c → c.due (posAdd (s.pos q) 1) (s.stampOf q) = false → nothing (exec (.modeSwitch p) s))
    ∧ (∀ m, s.dead = false → s.getChg q = some ⟨m, .host (posAdd (s.pos q) 64)⟩ → switches (exec (.modeChangeTimeout p) s) m)
    ∧ (∀ m y, s.dead = false → s.getChg q = some ⟨m, .host y⟩ → y ≠ posAdd (s.pos q) 64 → nothing (exec (.modeChangeTimeout p) s))
    ∧ (∀ m z, s.dead = false → s.getChg q = some ⟨m, .fromDark z⟩ → s.pwrOn (gOf q) = true → (s.linkLanes (q / 2)).any s.calWaits = false →
        switches (exec (.modeFromDarkEffect p) s) m)
    ∧ (∀ m z, s.dead = false → s.getChg q = some ⟨m, .fromDark z⟩ → (s.pwrOn (gOf q) = false ∨ (s.linkLanes (q / 2)).any s.calWaits = true) →
        nothing (exec (.modeFromDarkEffect p) s))

/-- R161 to R166, R168, R179 to R182: signal detection between its two thresholds, lock, adaptation and its freeze, loss of lock with its event and its error flag, receiver
detection at electrical idle, and the figures of a window that nothing interrupted, loaded at its end under AUTO and by SNAP. -/
def Obligations.ReceiverEvents : Prop :=
  ∀ (s : State) (r : Route) (x : Fin 512) (mv : BitVec 12) (ctle : BitVec 5) (dfe : BitVec 7) (ctl : BitVec 3) (qctl : BitVec 4) (present : Bool)
      (eye : BitVec 32) (ber : BitVec 16) (ofs : BitVec 8) (idx : Fin 4),
    let p := portPath x
    let l2 := ∃ L, s.linkOf (p / 2) = some L ∧ s.retimed L = true ∧ s.rd .LNK_PSTAT_STATE L = 8
    let idle := s.carries x = .idle
    let seq := (s.rd .QUAL_CTL_SEQ x + 1) % 256
    let figures : List Fld := [.QUAL_EYE_EW, .QUAL_EYE_EHLO, .QUAL_EYE_EHMID, .QUAL_EYE_EHUP, .QUAL_BER_BER, .QUAL_BER_BOUND, .QUAL_BER_OFS, .QUAL_BER_OFSIDX, .QUAL_CTL_SEQ]
    (s.dead = false → ¬l2 → Does s (exec (.signalDetectChange x mv) s) [.XCVR_STAT_SIGDET, .X_DET_RUN] fun u =>
        u.on .XCVR_STAT_SIGDET x = (if 175 < mv.toNat then true else if mv.toNat < 65 then false else s.on .XCVR_STAT_SIGDET x)
          ∧ ∀ k, k ≠ x.val → u.rd .XCVR_STAT_SIGDET k = s.rd .XCVR_STAT_SIGDET k)
    ∧ (s.dead = false → l2 → DoesAt s (exec (.signalDetectChange x mv) s) [(.XCVR_STAT_SIGDET, x)] fun u => u.on .XCVR_STAT_SIGDET x = false)
    ∧ (s.dead = false → s.mode p ≠ mDARK → s.on .XCVR_STAT_SIGDET x = true → Does s (exec (.cdrLock x) s) (.XCVR_STAT_LOCK :: portFlds) fun u =>
        u.on .XCVR_STAT_LOCK x = true ∧ ∀ k, k ≠ x.val → u.rd .XCVR_STAT_LOCK k = s.rd .XCVR_STAT_LOCK k)
    ∧ (s.dead = false → s.mode p = mDARK → DoesAt s (exec (.cdrLock x) s) [] fun _ => True)
    ∧ (s.dead = false → s.on .XCVR_STAT_LOCK x = true → ¬(s.on .XCVR_STAT_ADAPTED x = true ∧ s.on .XCVR_CTL_FREEZE x = true) →
        Does s (exec (.adaptationDone x ctle dfe) s) (([.XCVR_STAT_ADAPTED, .XCVR_STAT_CTLE, .XCVR_STAT_DFE] : List Fld) ++ calFlds) fun u =>
          u.on .XCVR_STAT_ADAPTED x = true ∧ u.rd .XCVR_STAT_CTLE x = ctle.toNat ∧ u.rd .XCVR_STAT_DFE x = dfe.toNat)
    ∧ (s.dead = false → s.on .XCVR_STAT_LOCK x = true → s.on .XCVR_STAT_ADAPTED x = true → s.on .XCVR_CTL_FREEZE x = true →
        Does s (exec (.adaptationDone x ctle dfe) s) calFlds fun _ => True)
    ∧ (s.dead = false → s.on .XCVR_STAT_LOCK x = true → s.mode p ≠ mDARK → s.mode p ≠ mDELAY →
        Does s (exec (.lossOfLock x false) s) (msgFlds ++ calFlds ++ portFlds ++ ([.XCVR_STAT_LOCK, .XCVR_STAT_LOL, .PUN_DISC_COUNT] : List Fld)) fun u =>
          u.on .XCVR_STAT_LOCK x = false ∧ u.on .XCVR_STAT_LOL x = true
            ∧ s.sent u (512 + p / 2) msgLOSS (if x.val % 32 < 16 then 0 else 1))
    ∧ (s.dead = false → s.on .XCVR_STAT_LOCK x = true → s.mode p ≠ mDELAY → Does s (exec (.lossOfLock x true) s) (.XCVR_STAT_LOCK :: calFlds ++ portFlds) fun u =>
        u.on .XCVR_STAT_LOCK x = false)
    ∧ (∀ expected, s.dead = false → s.on .XCVR_STAT_LOCK x = true → s.mode p = mDELAY → DoesTower s (exec (.lossOfLock x expected) s) (eccFlds ++ calFlds ++ portFlds
          ++ ([.XCVR_STAT_LOCK, .XCVR_STAT_LOL, .PUN_DISC_COUNT, .PATH_DISC_COUNT, .PATH_DLYSTAT_FILL, .X_DLY_CNT, .X_DLY_LO] : List Fld)) fun u => u.on .XCVR_STAT_LOCK x = false
        ∧ (expected = false → u.on .XCVR_STAT_LOL x = true) ∧ ((∀ L, s.linkOf (p / 2) = some L → s.segmented L = false) → s.on .X_PATH_STOPPED p = false →
          nget u.dly [] p = [] ∧ u.rd .X_DLY_CNT p = 0))
    ∧ (s.takes r (xAddr x 0) → DoesAt s (exec (.detreq r x ctl) s) [(.XCVR_CTL_RXINV, x), (.XCVR_CTL_TXINV, x), (.XCVR_CTL_FREEZE, x), (.X_DET_RUN, x)] fun u =>
        u.rd .XCVR_CTL_RXINV x = ctl.toNat % 2 ∧ u.rd .XCVR_CTL_TXINV x = ctl.toNat / 2 % 2 ∧ u.rd .XCVR_CTL_FREEZE x = ctl.toNat / 4
          ∧ u.rd .X_DET_RUN x = if idle then 1 else s.rd .X_DET_RUN x)
    ∧ (s.dead = false → s.on .X_DET_RUN x = true → DoesAt s (exec (.rxDetectDone x present) s) [(.XCVR_STAT_RXDET, x), (.X_DET_RUN, x)] fun u =>
        u.rd .XCVR_STAT_RXDET x = (if present then 1 else 2) ∧ u.on .X_DET_RUN x = false)
    ∧ (s.dead = false → s.on .QUAL_BER_STALE x = false → s.on .X_QW_CUT x = false → s.on .QUAL_CTL_AUTO x = true →
        DoesAt s (exec (.qualWindowEnd x eye ber false ofs idx) s) ((.X_QW_CUT :: .X_QW_EYE :: .X_QW_BER :: figures).map fun f => (f, x.val)) fun u =>
          u.rd .QUAL_EYE_EW x = eye.toNat % 256 ∧ u.rd .QUAL_EYE_EHMID x = eye.toNat / 65536 % 256 ∧ u.rd .QUAL_BER_BER x = ber.toNat ∧ u.rd .QUAL_BER_BOUND x = 0
            ∧ u.rd .QUAL_EYE_EHLO x = (if s.pam4 (p / 2) then eye.toNat / 256 % 256 else 0)
            ∧ u.rd .QUAL_EYE_EHUP x = (if s.pam4 (p / 2) then eye.toNat / 16777216 else 0)
            ∧ u.rd .QUAL_BER_OFSIDX x = idx.val ∧ u.rd .QUAL_BER_OFS x = ofs.toNat ∧ u.rd .QUAL_CTL_SEQ x = seq)
    ∧ (s.dead = false → (s.on .QUAL_BER_STALE x = true ∨ s.on .X_QW_CUT x = true) → DoesAt s (exec (.qualWindowEnd x eye ber false ofs idx) s) [(.X_QW_CUT, x)] fun u =>
        u.on .X_QW_CUT x = s.on .QUAL_BER_STALE x)
    ∧ (s.takes r (xAddr x 0x1C) → DoesAt s (exec (.qualSnap r x qctl) s) ((.QUAL_CTL_QWIN :: .QUAL_CTL_AUTO :: figures).map fun f => (f, x.val)) fun u =>
        u.rd .QUAL_CTL_AUTO x = qctl.toNat / 8 ∧ u.rd .QUAL_CTL_QWIN x = (if qctl.toNat % 8 ≤ 4 then qctl.toNat % 8 else s.rd .QUAL_CTL_QWIN x)
          ∧ (s.on .QUAL_BER_STALE x = false → u.rd .QUAL_CTL_SEQ x = seq ∧ u.rd .QUAL_EYE_EW x = s.rd .X_QW_EYE x % 256 ∧ u.rd .QUAL_BER_BER x = s.rd .X_QW_BER x % 65536)
          ∧ (s.on .QUAL_BER_STALE x = true → ∀ f ∈ figures, u.rd f x = s.rd f x))

/-- R170 to R174, R177: a transmitter setting within its limits is taken and one outside them is ignored and sets TXERR; coefficients act at once where training sets none,
and a spread setting waits for the profile's highest frequency while spread is applied. -/
def Obligations.TransmitterSettings : Prop :=
  ∀ (s : State) (r : Route) (x : Fin 512) (v : DW),
    let w := v.toNat
    let at_ := fun (l : List Fld) => l.map fun f => (f, x.val)
    let refused := fun (y : Host.Outcome State Fault Refusal) => DoesAt s y [(.XCVR_STAT_TXERR, x)] fun u => u.on .XCVR_STAT_TXERR x = true
    let ppm := -300 ≤ signed 10 (w % 1024) ∧ signed 10 (w % 1024) ≤ 300
    let clk := w % 8192 ≤ 5000 ∧ 3000 ≤ w / 8192 % 4096 ∧ w / 8192 % 4096 ≤ 3300
    let lvl := 20 ≤ w % 128 ∧ w % 128 ≤ 100 ∧ w / 128 % 32 ≠ 16
    (s.takes r (xAddr x 0x18) → ppm → DoesAt s (exec (.txPpmWrite r x v) s) [(.TX_PPM_PPM, x)] fun u => u.rd .TX_PPM_PPM x = w % 1024)
    ∧ (s.takes r (xAddr x 0x18) → ¬ppm → refused (exec (.txPpmWrite r x v) s))
    ∧ (s.takes r (xAddr x 0x14) → clk → DoesAt s (exec (.txClkWrite r x v) s) (at_ (([.TX_CLK_SSCDEPTH, .TX_CLK_SSCFREQ] : List Fld) ++ portFlds)) fun u =>
        u.rd .TX_CLK_SSCDEPTH x = w % 8192 ∧ u.rd .TX_CLK_SSCFREQ x = w / 8192 % 4096
          ∧ (s.on .XCVR_STAT_SSCACT x = true → s.spreads x = true → u.rd .X_SSC_EFF x = s.rd .X_SSC_EFF x)
          ∧ (s.spreads x = false → u.on .XCVR_STAT_SSCACT x = false))
    ∧ (s.takes r (xAddr x 0x14) → ¬clk → refused (exec (.txClkWrite r x v) s))
    ∧ (s.dead = false → DoesAt s (exec (.sscSettingApply x) s) (at_ portFlds) fun u => u.rd .X_SSC_EFF x = s.sscWord x % 2 ^ Fld.X_SSC_EFF.width
        ∧ u.on .XCVR_STAT_SSCACT x = (s.spreads x && s.rd .TX_CLK_SSCDEPTH x % 8192 != 0))
    ∧ (s.takes r (xAddr x 0x08) → firOk w = true →
        DoesAt s (exec (.txFirWrite r x v) s) (at_ (([.TX_FIR_CM2, .TX_FIR_CM1, .TX_FIR_C0, .TX_FIR_C1, .TX_FIR_C2, .TX_FIR_C3] : List Fld) ++ portFlds)) fun u =>
          u.rd .TX_FIR_CM2 x = w % 16 ∧ u.rd .TX_FIR_CM1 x = w / 16 % 32 ∧ u.rd .TX_FIR_C0 x = w / 512 % 64 ∧ u.rd .TX_FIR_C1 x = w / 32768 % 32
            ∧ u.rd .TX_FIR_C2 x = w / 1048576 % 32 ∧ u.rd .TX_FIR_C3 x = w / 33554432 % 32
            ∧ (s.trainedFir x = false → u.rd .TX_FIRACT_ACT x = u.firWord x % 2 ^ Fld.TX_FIRACT_ACT.width))
    ∧ (s.takes r (xAddr x 0x08) → firOk w = false → refused (exec (.txFirWrite r x v) s))
    ∧ (s.takes r (xAddr x 0x10) → lvl → DoesAt s (exec (.txLvlWrite r x v) s) (at_ [.TX_LVL_SWING, .TX_LVL_LVLTRIM]) fun u =>
        u.rd .TX_LVL_SWING x = w % 128 ∧ u.rd .TX_LVL_LVLTRIM x = w / 128 % 32)
    ∧ (s.takes r (xAddr x 0x10) → ¬lvl → refused (exec (.txLvlWrite r x v) s))

/-- R91, R93 to R95, R98 to R107, R113, R114, R175: a training set that a retimed link admits goes on altered, gives the position on the Upstream Pseudo Port and moves the link, its new rate
at the EIOS; in equalization phases 2 and 3 the device sends its own. A partner's preset or coefficients act, or are rejected; an evaluation completes, its missed target an event. At a SKP Ordered Set an
elastic buffer adjusts one granule, or as SKPADJ asks, or re-centres. A margining command for this device's receivers is answered, any other goes on; 100 ms after the last one margining
ends. A negotiation sets FMT and PMIS; LNK_PCI is in force at once on a dark link. The codes of margining are the model's reading (log entry 77). -/
def Obligations.RetimedLinks : Prop :=
  ∀ (s : State) (r : Route) (L M : Fin 256) (side : Fin 2) (ts : TsInfo) (pos : LinkPos) (x p : Fin 512) (preset : Fin 11) (coef : BitVec 30) (drift : Fin 3) (n : Fin 256)
      (command : BitVec 16) (overflow : Bool) (units : Nat) (fmt : Fin 4) (v : DW),
    let retimed := s.retimed L = true
    let alt : TsInfo := { ts with
      rates := ts.rates &&& BitVec.ofNat 7 (2 ^ (s.pciMax L + 1) - 1)
      flit := ts.flit && s.pciFlit L
      noEq := ts.noEq && s.pciEqbyp L
      bypass := ts.bypass && s.pciEqbyp L
      retimers := if ts.ts2 && s.upSide L == side.val then (if ts.retimers = 0 then 1 else 2) else ts.retimers }
    let fir := fun (b : State) (r : Nat) (k : Nat) => Config.presetFir (b.rd .LNK_PSTAT_RATE r) k % 2 ^ 30
    let q0 := 2 * s.linkFirst L + side.val
    let trains := fun (b : State) => let now := b.rd .LNK_PSTAT_STATE L; let phase := b.rd .X_EQ_PHASE L; let rate := b.rd .LNK_PSTAT_RATE L
      Does b (exec (.trainingOrderedSet L side ts pos) s) (.X_FIR_TRN :: .X_EQ_PSET :: msgFlds ++ linkFlds) fun u =>
        u.rd .LNK_PSTAT_STATE L = pos.state.val ∧ u.rd .LNK_PSTAT_RATE L = (if pos.state = 0 ∧ now ≠ 0 then 0 else rate)
          ∧ u.rd .X_RATE_NEXT L = (if pos.state = 1 ∧ pos.rate.val ≠ rate then pos.rate.val + 1 else 0)
          ∧ u.on .LNK_PSTAT_FLIT L = (pos.flit && pos.state != 0) ∧ u.rd .LNK_PSTAT_WIDTH L = pos.width.val
          ∧ ((now ≠ 2 ∨ phase < 2) → b.on .X_TS_CUT q0 = false → ∃ e lanes, (now ≠ 2 → ∀ x ∈ lanes, x = ts.eq)
              ∧ b.txOut q0 (.ts L (1 - side.val) { alt with eq := e } lanes) ∈ u.out)
          ∧ (now = 2 → 2 ≤ phase → ∃ own lanes, b.txOut (b.sidePath L side) (.tsOwn L side own lanes (b.skpEvery L)) ∈ u.out)
          ∧ (now = 2 → phase = 0 → ∀ q ∈ s.termPorts L side, u.rd .X_FIR_TRN q = fir b L ts.eq.preset.toNat + 2 ^ 30)
          ∧ (s.upSide L = side.val → ts.ts2 = true → pos.state ≠ 0 → u.rd .LNK_PSTAT_RTPOS L = ts.retimers.val + 1)
    let E := (s.linkOf (portOwner x / 2)).getD 0
    let takes := s.dead = false ∧ s.eqTakes x = true
    let eqs := (.X_FIR_TRN :: .X_EQ_PSET :: portFlds).map fun f => (f, x.val)
    let evaluates := s.dead = false ∧ s.eqEvaluates x = true
    let g := s.govPath p
    let due := fun (b : State) => b.on .X_SKP_V g = true ∧ posReached (b.pos g) (b.rd .X_SKP_POS g) = true
      ∧ (if b.on .X_SKP_DIR g then 0 < b.rd .X_EB_OFS g else b.rd .X_EB_OFS g < 2)
    let ready := fun (b : State) => s.dead = false ∧ b.hasEb g = true ∧ b.atStage g = []
    let adjusts := fun (b : State) => ready b → let o := b.rd .X_EB_OFS g; let size := granule (b.rateOf g); let y := exec (.skpOrderedSet p drift) s
      (due b → DoesAt b y [(.X_SKP_V, g), (.X_EB_OFS, g)] fun u => u.on .X_SKP_V g = false
        ∧ u.rd .X_EB_OFS g = (if b.on .X_SKP_DIR g then o - 1 else o + 1) % 4 ∧ u.out.getLast? = some (.skp g (if b.on .X_SKP_DIR g then -1 else 1) size))
      ∧ (¬due b → DoesAt b y [(.X_EB_OFS, g)] fun u => u.rd .X_EB_OFS g = (if drift = 1 ∧ o < 2 then o + 1 else if drift = 2 ∧ 0 < o then o - 1 else o) % 4
        ∧ u.out.getLast? = some (.skp g (if drift = 1 ∧ o < 2 then 1 else if drift = 2 ∧ 0 < o then -1 else 0) size))
    let recentres := fun (b : State) => ready b → b.linkOf (g / 2) = some M.val →
      Does b (exec (.ebRecentre p overflow units) s) (msgFlds ++ ([.X_EB_OFS, .LNK_PSTAT_EBERR, .PUN_DISC_COUNT] : List Fld)) fun u =>
        u.rd .X_EB_OFS g = 1 ∧ u.on .LNK_PSTAT_EBERR M = true ∧ b.sent u g msgOVERFLOW (posAdd (b.pos g) 1) ∧ .ebUnits g overflow units ∈ u.out
    let port := fun (d : Nat) => if d = 0 then rxPort (2 * n) else rxPort (2 * n + 1)
    let up := port (s.upSide M)
    let rcv := command.toNat % 8
    let type := command.toNat / 8 % 8
    let pay := command.toNat / 256
    let lane := s.dead = false ∧ s.linkOf n = some M.val ∧ s.retimed M = true
    let mine := fun (d : Nat) => side.val = s.upSide M ∧ s.pciMargen M = true ∧ 3 ≤ s.rd .LNK_PSTAT_RATE M ∧ rcv ≠ 0 ∧ rcv = s.rcvNumber M d
    let margin := exec (.marginCommand n side command) s
    let margFlds := ([.LNK_PSTAT_MARGACT, .X_MARG] : List Fld) ++ calFlds ++ portFlds
    let echo := leBytes 1 (command.toNat % 256)
    let w := v.toNat
    let agrees := if s.rd .LINK_CFG_PROTO L = 1 then fmt = 0 else fmt ≠ 0
    (s.dead = false → retimed → s.posOk L pos = true → (s.getHeld q0 = [] → trains s) ∧ trains (settle s.start q0))
    ∧ (s.dead = false → (retimed → s.posOk L pos = false) → DoesAt s (exec (.trainingOrderedSet L side ts pos) s) [] fun _ => True)
    ∧ (takes → DoesAt s (exec (.eqPresetRequest x (.preset preset)) s) eqs fun u => u.rd .TX_FIRACT_ACT x = fir s E preset ∧ u.out = [.eqAnswer x (fir s E preset) false])
    ∧ (takes → firOk coef.toNat = true → DoesAt s (exec (.eqPresetRequest x (.coef coef)) s) eqs fun u =>
        u.rd .TX_FIRACT_ACT x = coef.toNat ∧ u.out = [.eqAnswer x coef.toNat false])
    ∧ (takes → firOk coef.toNat = false → DoesAt s (exec (.eqPresetRequest x (.coef coef)) s) [] fun u => u.out = [.eqAnswer x coef.toNat true])
    ∧ (evaluates → Does s (exec (.eqPhaseDone x true) s) (.X_EQ_DONE :: msgFlds) fun u => u.on .X_EQ_DONE x = true
        ∧ s.sent u (512 + portPath x / 2) msgLIMIT (if x.val % 32 < 16 then 0 else 1))
    ∧ (evaluates → DoesAt s (exec (.eqPhaseDone x false) s) [(.X_EQ_DONE, x)] fun u => u.on .X_EQ_DONE x = true ∧ u.fq = s.fq)
    ∧ (s.getHeld g = [] → adjusts s) ∧ adjusts (settle s.start g)
    ∧ (s.getHeld g = [] → recentres s) ∧ recentres (settle s.start g)
    ∧ (∀ d < 2, lane → mine d → (type = 3 ∨ type = 4) → Does s margin margFlds fun u => u.on .X_MARG (port d) = true ∧ u.on .LNK_PSTAT_MARGACT M = true
        ∧ ∃ count, u.out = [.margin up (echo ++ leBytes 1 count)])
    ∧ (∀ d < 2, lane → mine d → type = 2 → pay = 15 → Does s margin margFlds fun u => u.on .X_MARG (port d) = false ∧ u.out = [.margin up (echo ++ leBytes 1 15)])
    ∧ (∀ d < 2, ∀ value, lane → mine d → type = 1 → marginParam (s.pam4 (portPath (port d) / 2)) pay = some value →
        DoesAt s margin [] fun u => u.out = [.margin up (echo ++ leBytes 1 value)])
    ∧ (lane → ¬mine 0 → ¬mine 1 → DoesAt s margin [] fun u => u.out = [.margin (port (1 - side.val)) (leBytes 2 command.toNat)])
    ∧ (s.dead = false → s.linkOf (portPath x / 2) = some M.val → s.on .X_MARG x = true → Does s (exec (.marginTimeout x) s) margFlds fun u => u.on .X_MARG x = false)
    ∧ (s.dead = false → retimed → Does s (exec (.cxlNegotiation L fmt) s) (msgFlds ++ ([.LNK_PSTAT_FMT, .LNK_PSTAT_PMIS, .PUN_DISC_COUNT] : List Fld)) fun u =>
        u.rd .LNK_PSTAT_FMT L = fmt.val ∧ u.rd .LNK_PSTAT_PMIS L = (if agrees then 0 else 1)
          ∧ (agrees → u.fq = s.fq) ∧ (¬agrees → s.sent u (s.linkAB L) msgPROTOCOL (posAdd (s.pos (s.linkAB L)) 1)))
    ∧ (s.takes r (gAddr (L / 16) (0x500 + 4 * (L % 16))) → DoesAt s (exec (.lnkPciWrite r L v) s)
        ([.LNK_PCI_UPSIDE, .LNK_PCI_MAXRATE, .LNK_PCI_FLITEN, .LNK_PCI_CLKMODE, .LNK_PCI_MARGEN, .LNK_PCI_EQBYP, .X_PCI_EFF].map fun f => (f, L.val)) fun u =>
          u.rd .LNK_PCI_UPSIDE L = w % 2 ∧ u.rd .LNK_PCI_MAXRATE L = (if w / 2 % 8 = 7 then s.rd .LNK_PCI_MAXRATE L else w / 2 % 8) ∧ u.rd .LNK_PCI_FLITEN L = w / 16 % 2
            ∧ u.rd .LNK_PCI_CLKMODE L = (if w / 32 % 4 = 3 then s.rd .LNK_PCI_CLKMODE L else w / 32 % 4) ∧ u.rd .LNK_PCI_MARGEN L = w / 128 % 2
            ∧ u.rd .LNK_PCI_EQBYP L = w / 256 % 2
            ∧ u.rd .X_PCI_EFF L = if s.on .LINK_CFG_EN L = true ∧ s.entryDark L = false then s.rd .X_PCI_EFF L else u.pciWord L % 512)

/-- R108 to R111, R165, R273: the partners' power states with the lanes and directions that they idle, L1.2 only where a CLKREQ# pin senses high; a sideband pin's level: PERST# returning
the link's retimer state to Detect, CLKREQ# admitting L1.2; a pin that is a trigger output is the device's own. The lowest lane in L0p and the state after CLKREQ# goes low are
the model's choices (log entry 78), and so is the level that admits L1.2 (log entry 91). -/
def Obligations.PowerStatesAndSideband : Prop :=
  ∀ (s : State) (L : Fin 256) (st : Fin 13) (idled : BitVec 16) (dirs : BitVec 2) (g : Fin 16) (i : Fin 4) (level : Bool),
    let high := match s.clkreqPin L with | some k => s.on .X_GSB_EXT k | none => false
    let st' := if st.val = 8 ∧ high = false then 7 else st.val
    let first := s.linkFirst L
    let k := 4 * g.val + i.val
    let f := s.rd .GSB_CFG_FUNC k
    let M := 16 * g.val + s.rd .GSB_CFG_LINK k
    let pin := exec (.gsbPerst g i level) s
    let falls := f = 1 ∧ s.on .GSB_CFG_LEVEL k = true ∧ level = false ∧ s.on .LINK_CFG_EN M = true
    let enters := f = 2 ∧ s.retimed M = true ∧ s.on .X_L12 M = true ∧ s.rd .LNK_PSTAT_STATE M = 7 ∧ level = true
    let wakes := f = 2 ∧ s.retimed M = true ∧ s.rd .LNK_PSTAT_STATE M = 8 ∧ level = false
    let seen := fun (u : State) => u.on .X_GSB_EXT k = level ∧ u.on .GSB_CFG_LEVEL k = (level && !(f == 2 && s.on .X_CLKREQ k))
    let lines : List Fld := [.GSB_CFG_LEVEL, .X_GSB_EXT]
    (s.dead = false → s.retimed L = true → s.powerOk L st = true → Does s (exec (.linkPowerState L st idled dirs) s)
        (([.LNK_PSTAT_STATE, .PATH_POS_POS, .X_LANE_IDLE, .X_LANE_LAG, .X_L0S, .X_L12, .X_CLKREQ, .GSB_CFG_LEVEL, .XCVR_STAT_SIGDET, .PUN_DISC_COUNT] : List Fld) ++ portFlds) fun u =>
          u.rd .LNK_PSTAT_STATE L = st' ∧ u.rd .X_L0S L = (if st' = 5 then dirs.toNat else 0) ∧ (∀ N, N ≠ L.val → u.rd .LNK_PSTAT_STATE N = s.rd .LNK_PSTAT_STATE N)
            ∧ ∀ m ∈ s.entryLanes L, u.on .X_LANE_IDLE m = (st.val == 4 && idled.getLsbD (m - first) && m != first))
    ∧ (s.dead = false → (s.retimed L = false ∨ s.powerOk L st = false) → DoesAt s (exec (.linkPowerState L st idled dirs) s) [] fun _ => True)
    ∧ (s.dead = false → f = 4 → DoesAt s pin [] fun _ => True)
    ∧ (s.dead = false → f ≠ 4 → ¬falls → ¬enters → ¬wakes → DoesAt s pin [(.GSB_CFG_LEVEL, k), (.X_GSB_EXT, k)] seen)
    ∧ (s.dead = false → falls → Does s pin (lines ++ ([.X_FIR_TRN, .X_EQ_PSET] : List Fld) ++ msgFlds ++ linkFlds) fun u => seen u ∧ s.sent u (s.linkAB M) msgSTATE (posAdd (s.pos (s.linkAB M)) 1)
        ∧ (∀ q ∈ s.termPorts M 0 ++ s.termPorts M 1, u.rd .X_FIR_TRN q = 0)
        ∧ (s.retimed M = true → u.rd .LNK_PSTAT_STATE M = 0 ∧ u.rd .LNK_PSTAT_RATE M = 0 ∧ u.rd .LNK_PSTAT_RTPOS M = 0))
    ∧ (s.dead = false → enters → Does s pin (lines ++ ([.LNK_PSTAT_STATE, .XCVR_STAT_SIGDET, .X_CLKREQ, .PUN_DISC_COUNT] : List Fld) ++ portFlds) fun u =>
        u.rd .LNK_PSTAT_STATE M = 8 ∧ u.on .X_GSB_EXT k = true ∧ ∀ m ∈ s.entryLanes M, ∀ q ∈ lanePorts m, u.on .XCVR_STAT_SIGDET q = false)
    ∧ (s.dead = false → wakes → Does s pin (lines ++ ([.LNK_PSTAT_STATE, .X_L12, .X_CLKREQ, .PUN_DISC_COUNT] : List Fld) ++ portFlds) fun u =>
        u.rd .LNK_PSTAT_STATE M = 6 ∧ u.on .X_GSB_EXT k = false ∧ u.on .X_L12 M = false
          ∧ ∀ k', s.clkreqPin M = some k' → u.on .X_CLKREQ k' = true ∧ u.on .GSB_CFG_LEVEL k' = false ∧ .gsbLow k' ∈ u.out)

/-- R78, R130, R132 to R135, R146, R150 to R152, R154 to R157, R159: Ethernet and raw settings while DARK, a segment's negotiation, what it moves on to and its loss with
Local Fault toward the other side, patterns and their lock, and a delay line's length changed at a unit. R152, R154, R155, R311, R314: a host's CELLS within
the bound waits 64 units on a path in DELAY, and the change due at a unit takes effect there, the host's and the program's, or is cancelled where the path is
not in DELAY. What a line holds when its own segment still trains, RAW_RATE of other protocols and PATH_PAT with PAT unchanged are the model's choices (log entries 97 to 99). -/
def Obligations.EthernetAndRawLanes : Prop :=
  (∀ (s : State) (r : Route) (L n : Fin 256) (p : Fin 512) (v : DW) (side : Fin 2) (corr unc sym : BitVec 32) (next : Fin 5) (st : Fin 4),
     let w := v.toNat
     let refused := fun (y : Host.Outcome State Fault Refusal) (g : Nat) => DoesAt s y [(.GRV_LINKERR_ERR, g)] fun u => u.on .GRV_LINKERR_ERR g = true
     let nothing := fun (y : Host.Outcome State Fault Refusal) => DoesAt s y [] fun _ => True
     let lit := s.on .LINK_CFG_EN L = true ∧ s.entryDark L = false
     let pair := ethPairOk (w % 8) (w / 8 % 4) = true
     let flags := fun (u : State) => u.rd .LNK_ETH_CLEANALL L = w / 1024 % 2 ∧ u.rd .LNK_ETH_AMALIGN L = w / 2048 % 2
     let eth := exec (.lnkEthWrite r L v) s
     let ea := gAddr (L / 16) (0x800 + 4 * (L % 16))
     let k := w % 2 ^ 28
     let fast := w / 2 ^ 28 % 2
     let dark := (s.linkLanes n).all s.laneDark = true
     let legal := if fast = 1 then 50000000 ≤ k ∧ k ≤ 212500000 else 1000000 ≤ k ∧ k ≤ 56000000
     let seg := segFld side
     let other := segFld (1 - side)
     let a := s.linkFirst L
     let q := 2 * a + side.val
     let pat := w % 16
     let page := s.txOut (2 * a + (1 - side.val)) (.anPage L side (s.rd .LNK_ETH_LRATE L) (s.rd .LINK_CFG_WIDTH L) (s.rd .LNK_ETH_FEC L) (s.rd .LNK_ETH_PAUSE L))
     let fault := fun (p : Nat) => s.txOut p (.txFault p)
     let back := s.segBack L st
     let keep := (if pat < 12 then pat else s.rd .PATH_PAT_PAT p) = s.rd .PATH_PAT_PAT p ∧ w / 64 % 2 = 1
     (s.takes r ea → pair → ¬lit → DoesAt s eth ([.LNK_ETH_LRATE, .LNK_ETH_FEC, .LNK_ETH_ANEN, .LNK_ETH_LTEN, .LNK_ETH_PAUSE, .LNK_ETH_POSUNIT, .LNK_ETH_CLEANALL,
         .LNK_ETH_AMALIGN].map fun f => (f, L.val)) fun u => u.rd .LNK_ETH_LRATE L = w % 8 ∧ u.rd .LNK_ETH_FEC L = w / 8 % 4 ∧ u.rd .LNK_ETH_ANEN L = w / 32 % 2
           ∧ u.rd .LNK_ETH_LTEN L = w / 64 % 2 ∧ u.rd .LNK_ETH_PAUSE L = w / 128 % 4 ∧ u.rd .LNK_ETH_POSUNIT L = w / 512 % 2 ∧ flags u)
     ∧ (s.takes r ea → pair → lit → s.mode (2 * a) ≠ mDELAY → s.mode (2 * a + 1) ≠ mDELAY → DoesAt s eth [(.LNK_ETH_CLEANALL, L), (.LNK_ETH_AMALIGN, L), (.GRV_LINKERR_ERR, L / 16)] fun u => flags u
         ∧ u.rd .GRV_LINKERR_ERR (L / 16) = if w % 1024 = s.ethWord L % 1024 then s.rd .GRV_LINKERR_ERR (L / 16) else 1)
     ∧ (s.takes r ea → pair → lit → DoesTower s eth (eccFlds ++ ([.LNK_ETH_CLEANALL, .LNK_ETH_AMALIGN, .GRV_LINKERR_ERR, .PATH_DISC_COUNT, .PATH_DLYSTAT_FILL, .PUN_DISC_COUNT, .X_DLY_IN, .X_DLY_EFF, .X_DLY_LO] : List Fld))
         fun u => flags u ∧ ∀ d < 2, s.mode (2 * a + d) = mDELAY →
           u.rd .X_DLY_EFF (2 * a + d) = u.cellsInForce (2 * a + d) (s.rd .X_DLY_IN (2 * a + d)) % 2 ^ Fld.X_DLY_EFF.width)
     ∧ (s.takes r ea → ¬pair → refused eth (L / 16))
     ∧ (s.dead = false → s.segmented L = true → s.on .LNK_ETH_ANEN L = true → Does s (exec (.anFailure L side) s) (msgFlds ++ [seg, .LNK_ESTAT_ANFAIL, .PUN_DISC_COUNT]) fun u =>
         u.rd seg L = 1 ∧ u.on .LNK_ESTAT_ANFAIL L = true ∧ page ∈ u.out ∧ s.sent u (s.linkAB L) msgSTATE (posAdd (s.pos (s.linkAB L)) 1))
     ∧ (s.dead = false → s.segmented L = true → s.segNext L (s.rd seg L) next = true → s.linkOf a = some L.val →
         Does s (exec (.segmentDataMode L side next corr unc sym) s) [seg, .PUN_DISC_COUNT] fun u => u.rd seg L = next.val
           ∧ u.out = (if next = 1 then [page] else []) ++ (if next.val < 3 ∨ (next = 4 ∧ s.rd other L = 4) then [] else [fault (2 * a + (1 - side.val))]))
     ∧ (s.dead = false → s.segmented L = true → s.rd seg L = 4 → s.mode q ≠ mDELAY → Does s (exec (.segmentLoss L side st) s) [seg, .PUN_DISC_COUNT] fun u =>
         u.rd seg L = back ∧ u.out = (if back = 1 then [page] else []) ++ (if s.ownSegUp q then [fault q] else []))
     ∧ (s.dead = false → s.segmented L = true → s.rd seg L = 4 → s.mode q = mDELAY → DoesTower s (exec (.segmentLoss L side st) s)
         (eccFlds ++ [seg, .PATH_DISC_COUNT, .PATH_DLYSTAT_FILL, .PUN_DISC_COUNT, .X_DLY_CNT, .X_DLY_LO]) fun u => u.rd seg L = back
           ∧ (s.ownSegUp q = true → u.out.getLast? = some (fault q)) ∧ (s.ownSegUp q = false → u.out = if back = 1 then [page] else []))
     ∧ (s.takes r (gAddr (n / 16) (0xC00 + 4 * (n % 16))) → s.govLane n = n.val → dark → legal →
         DoesAt s (exec (.rawRateWrite r n v) s) [(.RAW_RATE_KBPS, n), (.RAW_RATE_PAM4, n)] fun u => u.rd .RAW_RATE_KBPS n = k ∧ u.rd .RAW_RATE_PAM4 n = fast)
     ∧ (s.takes r (gAddr (n / 16) (0xC00 + 4 * (n % 16))) → s.govLane n = n.val → ¬dark → refused (exec (.rawRateWrite r n v) s) (n / 16))
     ∧ (s.takes r (gAddr (n / 16) (0xC00 + 4 * (n % 16))) → s.govLane n ≠ n.val → nothing (exec (.rawRateWrite r n v) s))
     ∧ (s.takes r (gAddr (gOf p) (0xB00 + 4 * localPath p)) → 4096 < w / 128 % 4096 + w / 2 ^ 19 → nothing (exec (.pathPatWrite r p v) s))
     ∧ (s.takes r (gAddr (gOf p) (0xB00 + 4 * localPath p)) → w / 128 % 4096 + w / 2 ^ 19 ≤ 4096 → Does s (exec (.pathPatWrite r p v) s)
         (([.PATH_PAT_PAT, .PATH_PAT_GRAY, .PATH_PAT_INV, .PATH_PAT_CHKEN, .PATH_PAT_UBASE, .PATH_PAT_ULEN, .PATH_PCHK_LOCK, .X_PCHK_RUN] : List Fld) ++ portFlds) fun u =>
           u.rd .PATH_PAT_PAT p = (if pat < 12 then pat else s.rd .PATH_PAT_PAT p % 16) ∧ u.rd .PATH_PAT_GRAY p = w / 16 % 2 ∧ u.rd .PATH_PAT_INV p = w / 32 % 2
             ∧ u.rd .PATH_PAT_CHKEN p = w / 64 % 2 ∧ u.rd .PATH_PAT_UBASE p = w / 128 % 4096 ∧ u.rd .PATH_PAT_ULEN p = w / 2 ^ 19
             ∧ u.rd .PATH_PCHK_LOCK p = if keep then s.rd .PATH_PCHK_LOCK p else 0)
     ∧ (s.dead = false → s.checksPat p = true → 256 ≤ s.rd .X_PCHK_RUN p → DoesAt s (exec (.patternLock p) s) [(.PATH_PCHK_LOCK, p)] fun u => u.on .PATH_PCHK_LOCK p = true))
    ∧ ∀ (s : State) (r : Route) (p : Fin 512) (v : DW),
      let cfg := s.takes r (gAddr (gOf p) (0xC40 + 4 * localPath p))
      let w := exec (.pathDlyWrite r p v) s
      let q := s.govPath p
      let pos := posAdd (s.pos q) 1
      let changes : List Fld := eccFlds ++ ([.PATH_DISC_COUNT, .PATH_DLYSTAT_FILL, .PUN_DISC_COUNT, .X_DLY_IN, .X_DLY_EFF, .X_DLY_LO] : List Fld)
      let stays := ∀ c, s.getChg q = some c → c.due pos (s.stampOf q) = false
      let x := exec (.delayChangeEffect p) s
      let host := s.on .X_DLYH_V q = true ∧ (posReached pos (s.rd .X_DLYH_POS q) = true ∨ s.rd .X_DLYH_POS q = posAdd (s.pos q) 64)
      let m := s.rd .X_DLYP_M q
      let program := (s.rd .X_DLYP_V q = 1 ∧ posReached pos (m % 2 ^ 48) = true) ∨ (s.rd .X_DLYP_V q = 2 ∧ m ≤ s.stampOf q)
      (cfg → q ≠ p.val → DoesAt s w [] fun _ => True)
      ∧ (cfg → q = p.val → s.cellsTooMany p v.toNat = true → DoesAt s w [(.PATH_DLYSTAT_ERR, p)] fun u => u.on .PATH_DLYSTAT_ERR p = true)
      ∧ (cfg → q = p.val → s.cellsTooMany p v.toNat = false → s.mode p ≠ mDELAY → DoesAt s w [(.PATH_DLY_CELLS, p)] fun u => u.rd .PATH_DLY_CELLS p = v.toNat)
      ∧ (cfg → q = p.val → s.cellsTooMany p v.toNat = false → s.mode p = mDELAY → DoesAt s w [(.PATH_DLY_CELLS, p), (.X_DLYH_V, p), (.X_DLYH_POS, p)] fun u =>
          u.rd .PATH_DLY_CELLS p = v.toNat ∧ u.on .X_DLYH_V p = true ∧ u.rd .X_DLYH_POS p = posAdd (s.pos p) 64)
      ∧ (∀ c, s.dead = false → s.getChg q = some c → c.due pos (s.stampOf q) = true → ∃ u, x = .next u ∧ u.rd (modeFld q) (q / 2) = c.target % 8 ∧ u.getChg q = none
          ∧ (host → u.on .X_DLYH_V q = false) ∧ (program → u.rd .X_DLYP_V q = 0))
      ∧ (s.dead = false → stays → ¬host → ¬program → DoesAt s x [] fun _ => True)
      ∧ (s.dead = false → stays → host → ¬program → s.mode q = mDELAY → DoesTower s x (.X_DLYH_V :: .X_DLYH_POS :: changes) fun u => u.on .X_DLYH_V q = false
          ∧ u.rd .X_DLY_EFF q = s.cellsInForce q (s.rd .PATH_DLY_CELLS q) % 2 ^ Fld.X_DLY_EFF.width)
      ∧ (s.dead = false → stays → host → ¬program → s.mode q ≠ mDELAY → DoesAt s x [(.X_DLYH_V, q), (.X_DLYH_POS, q)] fun u => u.on .X_DLYH_V q = false)
      ∧ (s.dead = false → stays → ¬host → program → s.mode q = mDELAY → DoesTower s x (.X_DLYP_V :: .PATH_DLY_CELLS :: changes) fun u => u.rd .X_DLYP_V q = 0
          ∧ u.rd .PATH_DLY_CELLS q = s.rd .X_DLYP_C q % 2 ^ 32 ∧ u.rd .X_DLY_EFF q = s.cellsInForce q (s.rd .X_DLYP_C q) % 2 ^ Fld.X_DLY_EFF.width)
      ∧ (s.dead = false → stays → ¬host → program → s.mode q ≠ mDELAY → Does s x (.X_DLYP_V :: .SEQ_ACNT_CANCEL :: .PUN_DISC_COUNT :: msgFlds) fun u => u.rd .X_DLYP_V q = 0
          ∧ s.sent u q msgCANCEL pos)

/-- R116, R117, R120, R123 to R125, R129, R142, R145: terminator settings are taken while its link is DARK and refused with GRV_LINKERR otherwise, a ring must fit the data
memory, training moves the state within what is configured, flow control is initialised on both sides, and unacknowledged TLPs are sent again
or done with. The order of the states of LT_STAT is the model's reading (log entry 79). -/
def Obligations.TerminatorSettingsAndStates : Prop :=
  ∀ (s : State) (r : Route) (t : Fin 32) (tx : Bool) (v : DW) (st : Fin 16) (rate : Fin 7) (flit cxl reversed init : Bool) (width : Fin 5) (inverted h d : BitVec 16) (seq : BitVec 12) (fc : Fin 3),
    let w := v.toNat
    let at_ := fun (l : List Fld) => l.map fun f => (f, t.val)
    let lit := s.ltLit t = true
    let refused := fun (y : Host.Outcome State Fault Refusal) => DoesAt s y [(.GRV_LINKERR_ERR, t / 2)] fun u => u.on .GRV_LINKERR_ERR (t / 2) = true
    let fits := w % 4096 + 1 + 4 * (w / 4096 % 1024) ≤ 4095
    let base : Fld := if tx then .LT_TXRING_BASE else .LT_RXRING_BASE
    let size : Fld := if tx then .LT_TXRING_SIZE else .LT_RXRING_SIZE
    let trains := exec (.terminatorTraining t st rate flit cxl width reversed inverted) s
    let sent := nget s.ltSent [] t
    let left := sent.filter fun x => !seqCovered (seqMod (s.on .LT_STAT_FLIT t)) x.seq seq.toNat
    let pci := s.dead = false ∧ s.ltUp t = true ∧ s.ltEth t = false
    let dllp := fun (d : Dllp) => exec (.ltTlpAck t d) s
    let i := 3 * t.val + fc.val
    let out := fun (o : Out) => s.txOut (s.ltTxPath t) o
    let again := fun (x : LtTx) => out (.ltTx t x.typ x.seq x.bytes x.check)
    (s.takes r (ltAddr t 0) → ¬lit → DoesAt s (exec (.ltPciCfgWrite r t v) s) (at_ [.LT_PCI_CFG_ROLE, .LT_PCI_CFG_MAXRATE, .LT_PCI_CFG_FLITEN, .LT_PCI_CFG_CXLEN]) fun u =>
        u.rd .LT_PCI_CFG_ROLE t = w % 2 ∧ u.rd .LT_PCI_CFG_MAXRATE t = (if w / 2 % 8 = 7 then s.rd .LT_PCI_CFG_MAXRATE t else w / 2 % 8)
          ∧ u.rd .LT_PCI_CFG_FLITEN t = w / 16 % 2 ∧ u.rd .LT_PCI_CFG_CXLEN t = w / 32 % 2)
    ∧ (s.takes r (ltAddr t 0) → lit → refused (exec (.ltPciCfgWrite r t v) s))
    ∧ (s.takes r (ltAddr t (if tx then 8 else 4)) → ¬lit → fits → DoesAt s (exec (.ltRingWrite r t tx v) s) (at_ [base, size]) fun u =>
        u.rd base t = w % 4096 ∧ u.rd size t = w / 4096 % 1024)
    ∧ (s.takes r (ltAddr t (if tx then 8 else 4)) → (lit ∨ ¬fits) → refused (exec (.ltRingWrite r t tx v) s))
    ∧ (s.takes r (ltAddr t 0x14) → ¬lit → DoesAt s (exec (.ltEthCfgWrite r t v) s) (at_ [.LT_ETH_CFG_MAXLEN, .LT_ETH_CFG_IPG]) fun u =>
        u.rd .LT_ETH_CFG_MAXLEN t = w % 16384 ∧ u.rd .LT_ETH_CFG_IPG t = w / 16384 % 64)
    ∧ (s.takes r (ltAddr t 0x14) → lit → refused (exec (.ltEthCfgWrite r t v) s))
    ∧ (pci → s.ltCan t st rate flit cxl width = true →
        Does s trains (termFlds ++ portFlds ++ calFlds ++ ([.LNK_PSTAT_RATE, .LNK_PSTAT_FLIT, .LNK_PSTAT_WIDTH, .X_DET_RUN, .PATH_POS_POS, .X_LANE_IDLE, .X_LANE_LAG] : List Fld)) fun u =>
          u.rd .LT_STAT_LTSSM t = st.val ∧ u.rd .LT_STAT_RATE t = rate.val ∧ u.on .LT_STAT_FLIT t = flit ∧ u.on .LT_STAT_CXL t = cxl
            ∧ u.on .X_LT_REV t = reversed ∧ u.rd .X_LT_POL t = inverted.toNat
            ∧ u.on .LT_STAT_DLUP t = (if st.val < 2 ∨ 4 < st.val then false else s.on .LT_STAT_DLUP t || (st.val == 4 && s.rd .X_LT_FCI t == 15)) ∧ u.rd .LNK_PSTAT_RATE (s.ltLink t) = rate.val
            ∧ u.rd .LNK_PSTAT_WIDTH (s.ltLink t) = width.val
            ∧ (st.val = 3 → 2 ≤ rate.val → ∃ own, ∃ lanes : List EqInfo, (∀ e ∈ lanes, e.c1 = 63 ∧ e.c2 = 16)
              ∧ u.txOut (s.ltTxPath t) (.tsOwn (s.ltLink t) (s.rd .LT_CFG_SIDE t) own lanes (u.skpEvery (s.ltLink t))) ∈ u.out)
            ∧ (st.val = 0 → s.rd .LT_STAT_LTSSM t ≠ 0 → nget u.ltSent [] t = [] ∧ u.rd .X_LT_TGT t = 0))
    ∧ (s.dead = false → s.ltUp t = true → s.ltEth t = true → st.val ≤ 4 →
        Does s trains [.LT_ETH_STAT_STATE, .LT_ETH_STAT_LF, .LT_ETH_STAT_RF, .X_LT_BUSY, .PUN_DISC_COUNT] fun u =>
          u.rd .LT_ETH_STAT_STATE t = st.val ∧ u.on .LT_ETH_STAT_LF t = flit ∧ u.on .LT_ETH_STAT_RF t = cxl)
    ∧ (pci → 0 < s.rd .LT_RXRING_SIZE t → Does s (exec (.ltFcInit t) s) [.X_LT_HC, .X_LT_DC, .X_LT_FCI, .LT_STAT_DLUP] fun u =>
        let h := max 1 (s.rd .LT_RXRING_SIZE t / 3) % 65536
        u.out = [.ltFeatures t, .ltCredit t 0 h 2730, .ltCredit t 1 h 2730, .ltCredit t 2 h 2730].map out ∧ (∀ c < 3, u.rd .X_LT_HC (3 * t + c) = h ∧ u.rd .X_LT_DC (3 * t + c) = 2730)
        ∧ u.on .LT_STAT_DLUP t = (s.on .LT_STAT_DLUP t || (s.rd .X_LT_FCI t / 2 == 7 && s.rd .LT_STAT_LTSSM t == 4)))
    ∧ (s.dead = false → s.ltUp t = true → s.on .LT_STAT_DLUP t = true → sent ≠ [] → DoesAt s (exec (.replayTimerExpiry t) s) [(.LT_CNT_REPLAYS, t)] fun u =>
        u.rd .LT_CNT_REPLAYS t = min (s.rd .LT_CNT_REPLAYS t + 1) 65535 ∧ u.out = sent.map again)
    ∧ (pci → Does s (dllp (.ack seq)) [.X_LT_HC, .X_LT_DC] fun u => nget u.ltSent [] t = left)
    ∧ (pci → Does s (dllp (.nak seq)) [.X_LT_HC, .X_LT_DC, .LT_CNT_REPLAYS] fun u => nget u.ltSent [] t = left
        ∧ (∀ x ∈ left, again x ∈ u.out)
        ∧ u.rd .LT_CNT_REPLAYS t = if left = [] then s.rd .LT_CNT_REPLAYS t else min (s.rd .LT_CNT_REPLAYS t + 1) 65535)
    ∧ (pci → Does s (dllp (.credits fc init h d)) [.X_LT_PH, .X_LT_PD, .X_LT_PINF, .X_LT_CH, .X_LT_CD, .X_LT_FCI, .LT_STAT_DLUP] fun u =>
        u.rd .X_LT_PH i = h.toNat ∧ u.rd .X_LT_PD i = d.toNat ∧ (init = false → u.rd .X_LT_PINF i = s.rd .X_LT_PINF i ∧ u.rd .X_LT_FCI t = s.rd .X_LT_FCI t)
          ∧ (init = true → u.bit .X_LT_PINF i 0 = (h == 0) ∧ u.bit .X_LT_PINF i 1 = (d == 0) ∧ u.rd .X_LT_CH i = 0 ∧ u.rd .X_LT_CD i = 0
            ∧ u.bit .X_LT_FCI t (1 + fc) = true ∧ (u.rd .X_LT_FCI t = 15 → s.rd .LT_STAT_LTSSM t = 4 → u.on .LT_STAT_DLUP t = true)))
    ∧ (pci → DoesAt s (dllp .features) [(.X_LT_DLF, t)] fun u => u.on .X_LT_DLF t = true)
    ∧ (pci → DoesAt s (dllp .pmL1) [] fun u => u.out = if s.on .LT_PCI_CFG_ROLE t then [out (.ltPmNak t)] else [])

/-- R117, R119, R121, R122, R125, R142 to R144: a received packet in its order for which the ring and the buffer have room becomes the descriptor at the producer index; without room it is
dropped (log 22); one that fails its check or skips a number brings a Nak, one that came before an acknowledgement. A transmit descriptor that carries its bytes itself is sent with its number and
check while credits and the replay buffer last, one of LEN 0 does nothing, one with DROP frees its packet, and one that names none is skipped with its event. -/
def Obligations.TerminatorTraffic : Prop :=
  ∀ (s : State) (t : Fin 32) (slot checkOk ecrc ep bad : Bool) (number : BitVec 12) (bytes : List Byte),
    let g := t.val / 2
    let up := s.dead = false ∧ s.ltUp t = true
    let pci := up ∧ s.ltEth t = false ∧ s.on .LT_STAT_DLUP t = true
    let eth := up ∧ s.ltEth t = true ∧ s.rd .LT_ETH_STAT_STATE t = 4
    let size := s.rd .LT_RXRING_SIZE t
    let base := s.rd .LT_RXRING_BASE t
    let ringRoom := size ≠ 0 ∧ s.ringHeld g base size < size
    let room := fun (slot : Bool) => ringRoom ∧ (slot = true ∨ (bytes.length + 63) / 64 ≤ (s.freeCells g).length)
    let x := s.ringProd g base
    let delivers := fun (y : Host.Outcome State Fault Refusal) (l : List Fld) (typ flags : Nat) => DoesData s y l fun u =>
      (size < 1024 → u.ringProd g base = (x + 1) % ringWrap size) ∧ (u.getD g (ringSlot base size x)).toNat % 2 ^ 32 = typ + 256 * flags + 65536 * (bytes.length % 65536)
        ∧ (u.getD g (ringSlot base size x + 1)).toNat = s.pos (s.ltRxPath t) % 2 ^ 64
        ∧ ∀ h w, (h ≠ g ∨ (w ≠ base ∧ ¬(ringSlot base size x ≤ w ∧ w < ringSlot base size x + 4))) → h < 16 → w < 4096 → base + 1 + 4 * size ≤ 4095 → u.getD h w = s.getD h w
    let rx := exec (.ltRxTlp t slot checkOk ecrc ep bad number bytes) s
    let m := seqMod (s.on .LT_STAT_FLIT t)
    let ahead := (number.toNat + m - s.ltExpect t) % m
    let last := (s.ltExpect t + m - 1) % m
    let inFlit := s.on .LT_STAT_FLIT t = true ∧ ahead = m - 1
    let fails := checkOk = false ∨ (0 < ahead ∧ ahead < m / 2)
    let rxFlds : List Fld := [.X_LT_RSEQ, .X_LT_NAKD]
    let txb := s.rd .LT_TXRING_BASE t
    let d := s.txDesc t
    let takes := fun (y : Host.Outcome State Fault Refusal) (l : List Fld) (P : State → Prop) => DoesData s y l fun u => P u
      ∧ (s.rd .LT_TXRING_SIZE t < 1024 → u.ringCons g txb = (s.ringCons g txb + 1) % ringWrap (s.rd .LT_TXRING_SIZE t))
      ∧ ∀ h w, h * 4096 + w ≠ g * 4096 + (txb + 1) → u.getD h w = s.getD h w
    let inline := d.len ≠ 0 ∧ d.len ≤ 16 ∧ d.handle = 0xFFFFFFFF ∧ bitOf d.flags 2 = false
    let raw := d.hdr.take d.len
    let tlp := ecrcFixed d raw
    let frame := if bitOf d.flags 1 then raw.take (d.len - 4) ++ fcsOf (raw.take (d.len - 4)) else raw
    let seq := s.rd .X_LT_SEQ t % m
    let flit := s.on .LT_STAT_FLIT t
    let out := fun (o : Out) => s.txOut (s.ltTxPath t) o
    let held := ((nget s.ltSent [] t).map fun y => y.bytes.length).sum
    let skips := fun (y : Host.Outcome State Fault Refusal) => takes y (.PUN_DISC_COUNT :: msgFlds) fun u =>
      s.sent u (s.ltSource t) msgREFUSE (posAdd (s.pos (s.ltSource t)) 1) ∧ u.out = []
    let cxl := slot = true → s.on .LT_STAT_CXL t = true
    (pci → checkOk = true → ahead = 0 ∨ inFlit → slot = false → room false → delivers rx rxFlds 1 ((if ecrc then 1 else 0) + (if ep then 2 else 0) + (if bad then 4 else 0)))
    ∧ (pci → checkOk = true → ahead = 0 ∨ inFlit → slot = true → s.on .LT_STAT_CXL t = true → room true → delivers rx rxFlds 2 0)
    ∧ (pci → cxl → checkOk = true → ahead = 0 ∨ inFlit → ¬room slot → DoesAt s rx [(.X_LT_RSEQ, t), (.X_LT_NAKD, t)] fun u => u.out = [out (.ltAck t true (number.toNat % m))]
        ∧ u.rd .X_LT_RSEQ t = (if ahead = 0 then (s.ltExpect t + 1) % m else s.rd .X_LT_RSEQ t) ∧ u.on .X_LT_NAKD t = false)
    ∧ (pci → cxl → fails → s.on .X_LT_NAKD t = false → DoesAt s rx [(.LT_CNT_NAKS, t), (.X_LT_NAKD, t)] fun u => u.rd .LT_CNT_NAKS t = min (s.rd .LT_CNT_NAKS t + 1) 65535
        ∧ u.on .X_LT_NAKD t = true ∧ u.out = [out (.ltAck t false last)])
    ∧ (pci → cxl → fails → s.on .X_LT_NAKD t = true → DoesAt s rx [] fun u => u.out = [])
    ∧ (pci → cxl → ¬fails → ahead ≠ 0 → ¬inFlit → DoesAt s rx [] fun u => u.out = [out (.ltAck t true last)])
    ∧ (eth → bytes.length ≤ s.rd .LT_ETH_CFG_MAXLEN t → room false → delivers (exec (.ltEthRxFrame t bad bytes) s) [] 3 (1 + if bad then 4 else 0))
    ∧ (eth → (s.rd .LT_ETH_CFG_MAXLEN t < bytes.length ∨ ¬room false) → DoesAt s (exec (.ltEthRxFrame t bad bytes) s) [(.LT_ETH_STAT_RXDROP, t)] fun u =>
        u.rd .LT_ETH_STAT_RXDROP t = min (s.rd .LT_ETH_STAT_RXDROP t + 1) (2 ^ Fld.LT_ETH_STAT_RXDROP.width - 1))
    ∧ (pci → s.txWaits t = true → inline → d.typ = 1 → held + d.len ≤ 65536 → s.txCredit t tlp = true →
        takes (exec (.ltTxDescriptor t) s) [.X_LT_SEQ, .X_LT_CH, .X_LT_CD] fun u => u.out = [out (.ltTx t 1 seq tlp (txCheck flit seq tlp))] ∧ u.rd .X_LT_SEQ t = (seq + 1) % m
          ∧ nget u.ltSent [] t = nget s.ltSent [] t ++ [⟨1, seq, none, tlp, txCheck flit seq tlp⟩])
    ∧ (pci → s.txWaits t = true → inline → d.typ = 1 → (65536 < held + d.len ∨ s.txCredit t tlp = false) → DoesAt s (exec (.ltTxDescriptor t) s) [] fun u => u.out = [])
    ∧ (pci → s.txWaits t = true → inline → d.typ = 2 → held + d.len ≤ 65536 → takes (exec (.ltTxDescriptor t) s) [.X_LT_SEQ] fun u => u.out = [out (.ltTx t 2 seq raw (txCheck flit seq raw))]
          ∧ u.rd .X_LT_SEQ t = (seq + 1) % m ∧ nget u.ltSent [] t = nget s.ltSent [] t ++ [⟨2, seq, none, raw, txCheck flit seq raw⟩])
    ∧ (pci → s.txWaits t = true → inline → d.typ = 2 → 65536 < held + d.len → DoesAt s (exec (.ltTxDescriptor t) s) [] fun u => u.out = [])
    ∧ (pci → s.txWaits t = true → d.len ≠ 0 → s.txSkipped t d = false → bitOf d.flags 2 = true → takes (exec (.ltTxDescriptor t) s) [.X_LT_HC, .X_LT_DC] fun u =>
        d.handle ≠ 0xFFFFFFFF → u.pkt g d.handle = none)
    ∧ (pci → s.txWaits t = true → d.len = 0 → takes (exec (.ltTxDescriptor t) s) [] fun u => u.out = [])
    ∧ (pci → s.txWaits t = true → d.len ≠ 0 → s.txSkipped t d = true → skips (exec (.ltTxDescriptor t) s))
    ∧ (eth → s.txWaits t = true → inline → d.typ = 3 → takes (exec (.ltEthTxFrame t) s) [] fun u =>
        u.out = [out (.ltTx t 3 0 frame []), out (.ltGap t (s.rd .LT_ETH_CFG_IPG t))])
    ∧ (eth → s.txWaits t = true → d.len ≠ 0 → s.txSkipped t d = true → skips (exec (.ltEthTxFrame t) s))

/-- R230 to R233, R243 to R246: TL_SET and TL_CLR, a set winning over a clear of the same edge, which TL_COLL notes; a pulse line falls; a requested trigger goes up the vine or is held, the root
numbers and spreads it, and a node acts on it at its time, at once where that has passed. -/
def Obligations.TriggerLinesAndVine : Prop :=
  ∀ (s : State) (r : Route) (i : Fin 64) (same : Bool) (vl : Fin 16) (clear lateO : Bool) (k : Fin 4) (origin seq : BitVec 16) (t : BitVec 64),
    let others := fun (u : State) (j : Nat) => ∀ n < 64, n ≠ j → u.tl n = s.tl n
    let edge := (s.startIn same).edge
    let clash := s.rd .X_TL_CLRC i = edge
    let moved := fun (u : State) (n e : Nat) (clr : Bool) => u.tl n = (!clr || ((s.rd .X_TL_SETC n == e || s.rd .X_TL_CLRC n == e) && s.tl n))
    let root := s.rd .VIN_CTL_ROOT 0 ≠ 0
    let up := fun (n : Nat) => s.rd .VIN_PSTAT_STATE n = 2
    let T := s.rd .VIN_SENDT_T 0
    let lat := s.rd .VIN_LATB_TICKS 0
    let late := lat ≠ 0 ∧ T < s.epochNow + lat
    let code := if root ∨ up 0 ∨ s.vreq.length < 4 then (if late then 1 else 0) else 2
    let c := if clear then 1 else 0
    let q := (s.rd .VIN_STAT_RSEQ 0 + 1) % 65536
    let spread := fun (v : VTrig) (n : Nat) => s.upPorts.map fun p => Out.vine p 4 [n, v.origin, v.vl, if v.clear then 1 else 0, v.t, if v.lateO then 1 else 0]
    let v : VTrig := ⟨origin.toNat, vl, clear, t.toNat, lateO, seq.toNat⟩
    let later := s.tbValid = false ∨ s.epochNow < t.toNat
    (s.takes r 0x3800108 → Does s (exec (.tlSet r i same) s) lineFlds fun u => u.tl i = true ∧ others u i ∧ u.rd .X_TL_PULSE i = s.rd .TL_CFG_PULSE i
        ∧ u.rd .TL_LAST_EPOCH i = (if s.tl i ∨ clash ∧ s.on .X_TL_WAS i then s.rd .TL_LAST_EPOCH i else s.epochNow)
        ∧ u.bit .TL_COLL_COLL 0 i = (s.bit .TL_COLL_COLL 0 i || decide clash) ∧ u.rd .X_TL_SETC i = edge)
    ∧ (s.takes r 0x380010C → s.rd .X_TL_SETC i ≠ edge → ¬clash → Does s (exec (.tlClr r i same) s) [.TL_LVL_LVL, .X_TL_PULSE, .X_TL_CLRC, .X_TL_WAS, .X_TL_FELL] fun u =>
        u.tl i = false ∧ others u i ∧ u.rd .X_TL_PULSE i = 0 ∧ u.rd .X_TL_CLRC i = edge)
    ∧ (s.takes r 0x380010C → s.rd .X_TL_SETC i ≠ edge → clash → DoesAt s (exec (.tlClr r i same) s) [] fun _ => True)
    ∧ (s.takes r 0x380010C → s.rd .X_TL_SETC i = edge → Does s (exec (.tlClr r i same) s) [.TL_COLL_COLL] fun u => u.bit .TL_COLL_COLL 0 i = true)
    ∧ (s.dead = false → s.rd .X_TL_PULSE i ≠ 0 → Does s (exec (.tlPulseEnd i) s) [.TL_LVL_LVL, .X_TL_PULSE] fun u => u.tl i = false ∧ others u i)
    ∧ (s.takes r 0x600048 → Does s (exec (.vinSend r vl clear) s) (.VIN_SEND_RESULT :: (if root then vineFlds else [])) fun u => u.rd .VIN_SEND_RESULT 0 = code
        ∧ (¬root → up 0 → u.out = [.vine 0 3 [s.rd .VIN_NODE_ID 0, vl, c, T, if late then 1 else 0]]) ∧ (¬root → ¬up 0 → s.vreq.length < 4 → u.vreq.length = s.vreq.length + 1 ∧ u.out = []))
    ∧ (s.dead = false → k.val ≠ 0 → up k → ¬root → up 0 → Does s (exec (.vineTrigup k origin vl clear t lateO) s) [] fun u =>
        u.out = [.vine 0 3 [origin.toNat, vl, c, t.toNat, if lateO then 1 else 0]])
    ∧ (s.dead = false → k.val ≠ 0 → up k → root → (64 ≤ s.vheld.length ∨ s.vwait ≠ []) →
        Does s (exec (.vineTrigup k origin vl clear t lateO) s) [] fun u => u.vwait = s.vwait ++ [{ v with seq := 0 }])
    ∧ (s.dead = false → k.val ≠ 0 → up k → root → s.vheld.length < 64 → s.vwait = [] → later →
        Does s (exec (.vineTrigup k origin vl clear t lateO) s) [.VIN_STAT_RSEQ, .VIN_STAT_HELD] fun u =>
          u.rd .VIN_STAT_RSEQ 0 = q ∧ u.out = spread v q ∧ u.vheld = s.vheld ++ [{ v with seq := q }])
    ∧ (∀ x rest, s.dead = false → root → s.vwait = x :: rest → s.vheld.length < 64 → Does s (exec .rootTriggerAdmit s) vineFlds fun u =>
        u.vwait = rest ∧ u.rd .VIN_STAT_RSEQ 0 = q ∧ ((s.tbValid = false ∨ s.epochNow < x.t) → u.out = spread x q ∧ u.vheld = s.vheld ++ [{ x with seq := q }]))
    ∧ (s.dead = false → ¬root → up 0 → Does s (exec (.vineTrig seq origin vl clear t lateO) s) (vineFlds ++ ([.VIN_STAT_MISS, .X_RSEQ_SEEN] : List Fld)) fun u =>
        u.rd .VIN_STAT_RSEQ 0 = seq.toNat ∧ u.rd .X_RSEQ_SEEN 0 = 1
          ∧ (s.rd .X_RSEQ_SEEN 0 ≠ 0 → seq.toNat ≠ q → u.rd .VIN_STAT_MISS 0 = 1 ∧ (⟨1058, msgLOSS, s.rd .VIN_NODE_ID 0⟩ ∈ u.fq ∨ 64 ≤ s.fq.length))
          ∧ (later → u.vheld = s.vheld ++ [v] ∧ u.out = spread v seq.toNat)
          ∧ (¬later → u.vheld = s.vheld ∧ moved u (48 + vl.val) s.start.edge clear ∧ u.rd .VIN_TLAST_T vl = t.toNat ∧ u.rd .VIN_TLAST_ORG_ORIGIN vl = origin.toNat
              ∧ u.rd .VIN_TLAST_ORG_LATE vl = 1))
    ∧ (s.dead = false → s.tbValid = true → Does s (exec (.vineTriggerAct same) s) vineFlds fun u => u.vheld = s.vheld.filter (fun v => decide (s.epochNow < v.t))
        ∧ ∀ x, s.vheld.filter (fun v => decide (v.t ≤ s.epochNow)) = [x] → x.vl < 16 → x.t < 2 ^ 64 → moved u (48 + x.vl) edge x.clear ∧ u.rd .VIN_TLAST_T x.vl = x.t)

/-- R221 to R229, R235 to R242, R247: the epoch is loaded, slewed and lost as the frames say, the vine's frames go out and come in, a port follows its link and its enable, and a
write that changes ROOT or the node's number drops the epoch. -/
def Obligations.TimebaseAndVineFrames : Prop :=
  ∀ (s : State) (r : Route) (sync valid miss : Bool) (e t2 t3 : BitVec 64) (crc : BitVec 8) (age hops wait : Nat) (par seq : BitVec 16) (i st : Fin 4) (v : DW),
    let root := s.rd .VIN_CTL_ROOT 0 ≠ 0
    let up0 := s.rd .VIN_PSTAT_STATE 0 = 2
    let good := sync = true ∧ crcOf crc8 (leBytes 8 e.toNat).reverse = crc.toNat
    let ofs : Int := ((e.toNat + age : Nat) : Int) - (s.epochNow : Int)
    let loses := fun (x : Host.Outcome State Fault Refusal) (l : List Fld) (P : State → Prop) => Does s x (l ++ loseFlds) fun u => P u ∧ u.tbValid = false
      ∧ (s.tbValid = true → u.rd .TB_STAT_LOST 0 = 1 ∧ s.sent u 1059 msgLOSS 0)
    let o := signed 8 (s.rd .X_SLEW_LEFT 0)
    let t4 := if s.tbValid then s.epochNow else s.rd .X_DREQ_T1 0 + wait
    let d : Int := ((t4 : Int) - s.rd .X_DREQ_T1 0 - ((t3.toNat : Int) - t2.toNat)) / 2
    let sends := fun (x : Host.Outcome State Fault Refusal) (l : List Fld) (o : List Out) => Does s x l fun u => u.out = o
    let w := v.toNat
    (s.dead = false → s.tbRuns = true → root → s.tbValid = true → good → -8 < ofs → ofs < 8 →
        Does s (exec (.trefFrame sync e crc age) s) [.X_TREF_BAD, .X_TREF_DIS, .TB_STAT_SLEW, .X_SLEW_LEFT] fun u =>
          u.rd .X_TREF_BAD 0 = 0 ∧ u.rd .TB_STAT_SLEW 0 = (if ofs = 0 then 0 else 1) ∧ signed 8 (u.rd .X_SLEW_LEFT 0) = ofs)
    ∧ (s.dead = false → s.tbRuns = true → root → s.tbValid = true → ¬good → s.rd .X_TREF_BAD 0 = 2 → loses (exec (.trefFrame sync e crc age) s) [] fun _ => True)
    ∧ (s.dead = false → s.tbRuns = true → root → s.tbValid = true → ¬good → s.rd .X_TREF_BAD 0 < 2 → Does s (exec (.trefFrame sync e crc age) s) [.X_TREF_BAD] fun u =>
        u.rd .X_TREF_BAD 0 = s.rd .X_TREF_BAD 0 + 1)
    ∧ (s.dead = false → s.tbRuns = true → root → s.tbValid = false → good → s.rd .X_TREF_ACQ 0 ≠ 0 → s.rd .X_TREF_LAST 0 + 800000 = e.toNat →
        Does s (exec (.trefFrame sync e crc age) s) (loadFlds ++ ([.X_TREF_ACQ, .X_TREF_LAST] : List Fld)) fun u =>
          u.tbValid = true ∧ u.epochNow = (e.toNat + age) % 2 ^ 64 ∧ u.rd .CLK_STAT_TRDY 0 = 1)
    ∧ (s.dead = false → s.tbRuns = true → root → loses (exec .trefEdgeLoss s) [] fun _ => True)
    ∧ (s.dead = false → s.tbRuns = true → s.tbValid = true → 0 < o → Does s (exec .epochSlewTick s) (vineFlds ++ ([.TB_EPOCH_EPOCH, .TB_STAT_SLEW, .X_SLEW_LEFT] : List Fld)) fun u =>
        u.epochNow = (s.epochNow + 1) % 2 ^ 64 ∧ signed 8 (u.rd .X_SLEW_LEFT 0) = o - 1)
    ∧ (s.dead = false → s.tbRuns = true → s.tbValid = true → o < 0 → Does s (exec .epochSlewTick s) (vineFlds ++ ([.X_SLEW_HOLD, .TB_STAT_SLEW, .X_SLEW_LEFT] : List Fld)) fun u =>
        u.epochNow = s.epochNow ∧ u.rd .X_SLEW_HOLD 0 = 1 ∧ signed 8 (u.rd .X_SLEW_LEFT 0) = o + 1)
    ∧ (s.dead = false → ¬root → loses (exec .epochFrameTimeout s) [] fun _ => True)
    ∧ (s.dead = false → ¬root → up0 → hops < 16 → valid = false → loses (exec (.vineEpochFrame e valid hops par) s) [.VIN_NODE_HOPS, .X_PARENT] fun u =>
        u.rd .VIN_NODE_HOPS 0 = hops + 1 ∧ u.rd .X_PARENT 0 = par.toNat)
    ∧ (s.dead = false → ¬root → up0 → hops < 16 → valid = true → s.tbValid = true →
        Does s (exec (.vineEpochFrame e valid hops par) s) [.VIN_NODE_HOPS, .X_PARENT, .X_EPF_OK] fun u =>
          u.rd .VIN_NODE_HOPS 0 = hops + 1 ∧ u.rd .X_PARENT 0 = par.toNat ∧ u.epochNow = s.epochNow)
    ∧ (s.dead = false → ¬root → up0 → hops < 16 → valid = true → s.tbValid = false → 1 ≤ s.rd .X_EPF_OK 0 → 16 ≤ s.rd .X_EXCH 0 →
        Does s (exec (.vineEpochFrame e valid hops par) s) (loadFlds ++ ([.VIN_NODE_HOPS, .X_PARENT, .X_EPF_OK] : List Fld)) fun u => u.tbValid = true
          ∧ u.epochNow = ((e.toNat : Int) + meanInt s.vdel - signed 8 (s.rd .VIN_ASYM_ASYM 0)).toNat % 2 ^ 64)
    ∧ (s.dead = false → ¬root → up0 → seq.toNat = s.rd .X_DREQ_SEQ 0 → Does s (exec (.vineDrsp seq t2 t3 wait) s) (loadFlds ++ ([.X_EXCH, .VIN_HOPD_DELAY, .VIN_HOPD_OFS, .TB_STAT_SLEW,
        .X_SLEW_LEFT] : List Fld)) fun u => u.vdel.getLast? = some d ∧ (s.vdel.length ≤ 16 → u.vdel.length = min 16 (s.vdel.length + 1))
          ∧ u.rd .VIN_HOPD_DELAY 0 = (meanInt u.vdel).toNat % 2 ^ Fld.VIN_HOPD_DELAY.width)
    ∧ (s.dead = false → sends (exec .vineEpochSend s) []
        (s.upPorts.map fun p => .vine p 0 [s.epochNow, s.rd .TB_STAT_VALID 0, s.rd .VIN_NODE_HOPS 0, s.rd .VIN_NODE_ID 0]))
    ∧ (s.dead = false → ¬root → up0 → let q := (s.rd .X_DREQ_SEQ 0 + 1) % 65536
        Does s (exec .vineDreqSend s) [.X_DREQ_SEQ, .X_DREQ_T1] fun u => u.out = [.vine 0 1 [q]] ∧ u.rd .X_DREQ_SEQ 0 = q ∧ u.rd .X_DREQ_T1 0 = s.epochNow)
    ∧ (s.dead = false → i.val ≠ 0 → s.rd .VIN_PSTAT_STATE i = 2 → sends (exec (.vineDreq i seq wait) s) []
        [.vine i 2 [seq.toNat, s.epochNow, (s.epochNow + if s.tbValid then wait else 0) % 2 ^ 64]])
    ∧ (s.dead = false → ¬root → up0 → sends (exec .vineStatusSend s) []
        [.vine 0 5 [s.rd .VIN_NODE_ID 0, s.rd .VIN_NODE_HOPS 0, s.rd .TB_STAT_VALID 0, s.rd .VIN_STAT_MISS 0]])
    ∧ (s.dead = false → sends (exec (.vineStatusFrame i par hops valid miss) s) [] [])
    ∧ (s.dead = false → i.val ≠ 0 → Does s (exec (.vinePortState i st) s) [.VIN_PSTAT_STATE] fun u =>
        u.rd .VIN_PSTAT_STATE i = (if s.vpEnabled i then st.val else 0) ∧ ∀ k, k ≠ i.val → u.rd .VIN_PSTAT_STATE k = s.rd .VIN_PSTAT_STATE k)
    ∧ (s.dead = false → s.vpEnabled 0 = true → Does s (exec (.vinePortState 0 2) s) [.VIN_PSTAT_STATE] fun u => u.rd .VIN_PSTAT_STATE 0 = 2 ∧ u.vreq = []
        ∧ u.out = s.vreq.map fun x => .vine 0 3 [x.origin, x.vl, if x.clear then 1 else 0, x.t, if x.lateO then 1 else 0])
    ∧ (s.dead = false → ¬root → (st.val ≠ 2 ∨ s.vpEnabled 0 = false) → loses (exec (.vinePortState 0 st) s) [.VIN_PSTAT_STATE] fun u =>
        u.rd .VIN_PSTAT_STATE 0 = if s.vpEnabled 0 then st.val else 0)
    ∧ (s.takes r 0x600014 → w % 65536 = s.rd .VIN_NODE_ID 0 → Does s (exec (.vinCtlWrite r true v) s) [] fun _ => True)
    ∧ (s.takes r 0x600014 → w % 65536 ≠ s.rd .VIN_NODE_ID 0 → loses (exec (.vinCtlWrite r true v) s) [.VIN_NODE_ID] fun u => u.rd .VIN_NODE_ID 0 = w % 65536)
    ∧ (s.takes r 0x600010 → Does s (exec (.vinCtlWrite r false v) s) (loseFlds ++ ([.VIN_CTL_ROOT, .VIN_CTL_PEN, .VIN_CTL_P0EN, .VIN_NODE_HOPS, .VIN_PSTAT_STATE] : List Fld)) fun u =>
        u.rd .VIN_CTL_ROOT 0 = w % 2 ∧ u.rd .VIN_CTL_PEN 0 = w / 2 % 8 ∧ u.rd .VIN_CTL_P0EN 0 = w / 16 % 2
          ∧ (∀ k < 4, u.rd .VIN_PSTAT_STATE k = if u.vpEnabled k then s.rd .VIN_PSTAT_STATE k else 0)
          ∧ (w % 2 ≠ s.rd .VIN_CTL_ROOT 0 → u.tbValid = false ∧ (w % 2 = 1 → u.rd .VIN_NODE_HOPS 0 = 0)))

/-- R300, R301, R327, R310, R314, R342, R347 to R352: the host arms and disarms a matcher with its result code, a waiting entry is cancelled or found missed with its log record
and its path event, and the units at the injection stage pass as received, with the bytes that a
replace names replaced, or struck by the burst that begins at them. -/
def Obligations.MatchersAndInjectionQueue : Prop :=
  ∀ (s : State) (r : Route) (g : Fin 16) (m : Fin 32) (block : BitVec 12) (e : Fin 64) (p : Fin 512),
    let M := 32 * g.val + m.val
    let cmd := s.takes r (gAddr g 0x3400)
    let arm := exec (.matchCmdArm r g m block) s
    let dis := exec (.matchCmdDisarm r g m) s
    let bad := s.blockPast g block.toNat = true ∨ blockBad (s.readBlock g block.toNat) = true
    let answers := fun (y : Host.Outcome State Fault Refusal) (code : Nat) => DoesAt s y [(.MATCH_CMD_RESULT, g)] fun u => u.rd .MATCH_CMD_RESULT g = code
    let E := 64 * g.val + e.val
    let q := s.injPath E
    let row := 64 * g.val + s.rd .INJ_STAT_WIDX g
    let ends := fun (y : Host.Outcome State Fault Refusal) (outcome pos : Nat) => Does s y logFlds fun u => u.rd .INJ_ENT_INFO_STATE E = 0
      ∧ u.rd .INJ_LOG_OUTCOME row = outcome ∧ u.rd .INJ_LOG_ENTRY row = e.val ∧ u.rd .INJ_LOG_POS row = pos % 2 ^ 48 ∧ s.sent u q msgCANCEL pos
    let begun := s.injBegun E = true
    let searches := s.injBusy E = true ∧ s.rd .INJ_ENT_INFO_ACT E = 5 ∧ s.on .X_INJ_REACH E = true ∧ 65536 ≤ (s.pos q + 2 ^ 48 - s.rd .X_INJ_NPOS E) % 2 ^ 48
    let fire := exec (.injEntryFire p) s
    let held := fun (w : HeldUnit) => s.dead = false ∧ s.settled p = true ∧ s.getHeld p = [w] ∧ w.staged = true ∧ w.pressed = true ∧ w.pieces = [] ∧ ∀ q, s.getStrikes q = []
    let loops := s.mode (revPath p) = mLOOP
    let goes := fun (u : State) (l : List Byte) => u.getHeld p = [] ∧ (¬loops → s.linkIdle p = false → u.out = [.tx p l false (s.txInv p)])
      ∧ (loops → u.rd .PATH_DISC_COUNT p = min (s.rd .PATH_DISC_COUNT p + 1) (2 ^ Fld.PATH_DISC_COUNT.width - 1))
    let logged := fun (u : State) (b pos : Nat) => u.rd .INJ_ENT_INFO_STATE b = 0 ∧ u.rd .INJ_LOG_OUTCOME (64 * (b / 64) + s.rd .INJ_STAT_WIDX (b / 64)) = 0
      ∧ u.rd .INJ_LOG_POS (64 * (b / 64) + s.rd .INJ_STAT_WIDX (b / 64)) = pos % 2 ^ 48
    let raw := fun (w : HeldUnit) => w.enc = .rawNrz ∧ w.aside = false ∧ s.linkOf (p / 2) = none
    (cmd → s.goIgnored g = true → answers arm 7 ∧ answers dis 7)
    ∧ (cmd → s.goIgnored g = false → bad → answers arm 9)
    ∧ (cmd → s.goIgnored g = false → ¬bad → s.on .MATCH_STAT_ARMED M = true → answers arm 10)
    ∧ (cmd → s.goIgnored g = false → ¬bad → s.on .MATCH_STAT_ARMED M = false → DoesAt s arm [(.MATCH_CMD_RESULT, g), (.MATCH_STAT_ARMED, M), (.MATCH_CNT_COUNT, M),
        (.MATCH_STAT_LASTPATH, M), (.MATCH_LPOS_POS, M), (.MATCH_LEP_EPOCH, M), (.X_M_FIRED, M)] fun u => u.rd .MATCH_CMD_RESULT g = 0 ∧ u.on .MATCH_STAT_ARMED M = true
          ∧ u.rd .MATCH_CNT_COUNT M = 0 ∧ u.rd .MATCH_LPOS_POS M = 0 ∧ u.rd .MATCH_LEP_EPOCH M = 0 ∧ u.getBlk M = s.readBlock g block.toNat)
    ∧ (cmd → s.goIgnored g = false → DoesAt s dis [(.MATCH_CMD_RESULT, g), (.MATCH_STAT_ARMED, M)] fun u => u.rd .MATCH_CMD_RESULT g = 0 ∧ u.on .MATCH_STAT_ARMED M = false)
    ∧ (s.takes r (0x1003704 + g.val * 0x100000) → s.injBusy E = true → ¬begun → ends (exec (.injCancel r g e) s) 4 (posAdd (s.pos q) 1))
    ∧ (s.takes r (0x1003704 + g.val * 0x100000) → (s.injBusy E = false ∨ begun) → DoesAt s (exec (.injCancel r g e) s) [] fun _ => True)
    ∧ (s.dead = false → searches → ends (exec (.insertSearchExpire g e) s) 3 (s.pos q))
    ∧ (s.dead = false → ¬searches → DoesAt s (exec (.insertSearchExpire g e) s) [] fun _ => True)
    ∧ (s.dead = false → (s.settled p = false ∨ s.getHeld p = []) → DoesAt s fire [] fun u => u.out = [] ∧ u.getHeld p = s.getHeld p)
    ∧ (s.dead = false → s.settled p = true → Does s fire (logFlds ++ ([.FLT_CNT_COUNT, .IDE_STAT_MACFAIL, .IDE_STAT_SYNC, .MATCH_STAT_ACTSKIP, .PATH_DISC_COUNT, .STRM_CFG_ON, .STRM_CFG_PEND,
        .X_CAP_FROM, .X_CW_CLEAN, .X_IDE_LAST, .X_IDE_OFF, .X_INJ_NPOS, .X_INJ_REACH, .X_TS_CUT] : List Fld)) fun u => ∀ h ∈ u.getHeld p, h.staged = false)
    ∧ (∀ w, held w → s.injOf p = [] → Does s fire [.PATH_DISC_COUNT] fun u => goes u w.line)
    ∧ (∀ w b, held w → raw w → s.injOf p = [b] → s.rd .INJ_ENT_INFO_ACT b = 1 → s.rd .X_INJ_HIT b = 2 → s.rd .X_INJ_BLK b = 0 → s.rd .INJ_ENT_MOMENT b = w.pos →
        let d := s.injBlock b
        d.len ≠ 0 → d.fits = true → d.ofs + d.len ≤ w.line.length → s.rd .X_INJ_PASSED b ≤ d.ofs → Does s fire (.PATH_DISC_COUNT :: logFlds) fun u =>
          goes u (putBytes w.line d.ofs d.bytes) ∧ logged u b w.pos)
    ∧ (∀ w b, held w → raw w → s.injOf p = [b] → s.injPath b = p → s.rd .INJ_ENT_INFO_ACT b = 7 → s.injReached b w.pos w.stamp = true →
        let skip := bitsOf (s.rd .X_INJ_DATA b) 31 16
        let n := bitsOf (s.rd .X_INJ_DATA b) 15 0
        let struck := min n (64 - skip)
        Does s fire (.PATH_DISC_COUNT :: logFlds) fun u => goes u (flipBits w.line skip struck) ∧ logged u b w.pos
          ∧ u.getStrikes p = if n = struck then [] else [(skip - 64, n - struck)])

/-- R9, R61, R66, R214, R215, R217, R328, R341: a unit received on a path that is not DARK counts on every active lane, a RELAY path sends it on as received, and a DARK path
receives nothing. -/
def Obligations.ReceivedUnits : Prop :=
  ∀ (s : State) (p : Fin 512) (same : Bool) (w : RxUnit),
    let x := exec (.unitDecode p same w) s
    let v := s.recv p w
    let lit := s.dead = false ∧ s.mode p ≠ mDARK ∧ s.groveOn (gOf p) = true
    let still := lit ∧ s.govPath p = p.val ∧ s.getChg p = none ∧ s.getChg (revPath p) = none
    (s.dead = false → (s.mode p = mDARK ∨ s.groveOn (gOf p) = false) → DoesAt s x [] fun u => u.out = [])
    ∧ (lit → DoesTower s x unitFlds fun _ => True)
    ∧ (still → ∃ u, x = .next u ∧ ∀ q, u.rd .PATH_POS_POS q =
        (if v.aside = false ∧ q ∈ s.countPaths p then (s.rd .PATH_POS_POS q + 1) % 2 ^ 48 else s.rd .PATH_POS_POS q))
    ∧ (still → (s.pcie (p / 2) = false ∨ v.parts = []) → s.mode p = mRELAY → s.segsUp p = true → s.eqPhase p = false → s.linkIdle p = false → s.mode (revPath p) ≠ mLOOP →
        ∃ u, x = .next u ∧ Out.tx p v.line false (s.txInv p) ∈ u.out)
    ∧ (still → s.mode p = mLOOP → s.mode (revPath p) ≠ mSOURCE → s.splitNow (p / 2) = false →
        ∃ u, x = .next u ∧ Out.tx (revPath p) v.line false (s.txInv (revPath p)) ∈ u.out)

/-- R305, R333, R354, R355, R377, R391 to R393: a stream's settings, the host's switches with their codes, the switches that are due at a unit or by their limit of time, the end
of a run of elided units, and one unit time of a replay. -/
def Obligations.CaptureStreams : Prop :=
  ∀ (s : State) (r : Route) (p : Fin 512) (v : DW),
    let w := v.toNat
    let st := s.getStrm p
    let due := fun (h : HeldUnit) => st.pend.filter (·.due h.pos h.stamp)
    let mdue := fun (h : HeldUnit) => st.mpend.filter (·.due h.pos h.stamp)
    let rest := fun (h : HeldUnit) => st.pend.filter fun a => !a.due h.pos h.stamp
    let waits := s.decided p = false ∨ s.ideWaits p = true
    let one := fun (h : HeldUnit) => s.getHeld p = [h] ∧ h.pressed = false ∧ h.staged = false ∧ s.getItems p = []
    let tap := hasTap (s.mode p) = true
    let caps : List Fld := [.STRM_CFG_ON, .STRM_CFG_PEND, .X_CAP_FROM, .PUN_DISC_COUNT]
    let pressed : List Fld := caps ++ ([.FLT_CNT_COUNT, .IDE_STAT_MACFAIL, .IDE_STAT_SYNC, .X_IDE_LAST, .X_IDE_OFF] : List Fld) ++ msgFlds
    let switch := exec (.captureSwitch p) s
    let m := Moment.pos (posAdd (s.pos p) 64)
    let code := if s.on .PUN_CFG_EN (s.rd .STRM_CFG_PUN p) = false then 2 else if s.govPath p ≠ p.val then 4 else if s.momentPast p m then 5 else if 4 ≤ st.pend.length then 6
      else if s.groveAway p then 7 else if hasTap (s.modeAt p m) = false then 0x0B else 0
    let cmd := fun (y : Host.Outcome State Fault Refusal) (k : CapKind) => DoesAt s y [(.STRM_CMD_RESULT, 0), (.STRM_CFG_PEND, p)] fun u => u.rd .STRM_CMD_RESULT 0 = code
      ∧ (u.getStrm p).pend = (if code = 0 then st.pend ++ [⟨k, m, 2, 0⟩] else st.pend) ∧ (code = 0 → u.rd .STRM_CFG_PEND p = st.pend.length + 1)
    let busy := s.strmBusy p = true
    let same := s.rd .STRM_CFG_PUN p = w % 256 ∧ s.rd .STRM_CFG_CLASS p = w / 256 % 4
    let cfg := exec (.strmCfgWrite r p v) s
    let ca := s.takes r (0x3010000 + 16 * p.val)
    let flags : List Fld := [.STRM_CFG_CFGERR, .STRM_CFG_ELIDE, .STRM_CFG_RAW, .STRM_CFG_ETHUNIT, .STRM_CFG_IDE, .PUN_DISC_COUNT]
    let set := fun (u : State) => u.rd .STRM_CFG_ELIDE p = w / 1024 % 2 ∧ u.rd .STRM_CFG_RAW p = w / 2048 % 2 ∧ u.rd .STRM_CFG_ETHUNIT p = w / 4096 % 2
      ∧ u.rd .STRM_CFG_IDE p = w / 8192 % 2
    let send := exec (.replaySend p) s
    let loops := s.mode (revPath p) = mLOOP
    let plays := s.replaying p = true ∧ s.on .X_PATH_STOPPED p = false
    (s.dead = false → waits → DoesAt s switch [] fun u => u.getStrm p = st ∧ u.getHeld p = s.getHeld p)
    ∧ (s.dead = false → ¬waits → s.getHeld p = [] → DoesAt s switch [] fun u => u.getStrm p = st)
    ∧ (∀ h a, s.dead = false → ¬waits → one h → due h = [a] → mdue h = [] → tap → Does s switch pressed fun u => u.getHeld p = [] ∧ (u.getStrm p).pend = rest h
        ∧ (a.kind = .on → u.on .STRM_CFG_ON p = true) ∧ (a.kind = .off → u.on .STRM_CFG_ON p = false)
        ∧ (a.kind = .on → s.on .STRM_CFG_ON p = false → u.rd .X_CAP_FROM p = h.pos % 2 ^ 48))
    ∧ (∀ h a, s.dead = false → ¬waits → one h → due h = [] → mdue h = [a] → tap → (a.kind = .on ∨ a.kind = .off) → Does s switch pressed fun u => u.getHeld p = []
        ∧ u.on .STRM_CFG_ON p = decide (a.kind = .on) ∧ (u.getStrm p).mpend = st.mpend.filter fun a => !a.due h.pos h.stamp)
    ∧ (ca → ¬busy → Does s cfg (flags ++ ([.STRM_CFG_PUN, .STRM_CFG_CLASS, .STRM_SEQ_SEQ] : List Fld)) fun u => set u ∧ u.rd .STRM_CFG_PUN p = w % 256
        ∧ u.rd .STRM_CFG_CLASS p = w / 256 % 4 ∧ (¬same → u.rd .STRM_SEQ_SEQ p = 0) ∧ (w / 2 ^ 20 % 2 = 1 → u.on .STRM_CFG_CFGERR p = false))
    ∧ (ca → busy → Does s cfg flags fun u => set u ∧ u.on .STRM_CFG_CFGERR p = true)
    ∧ (s.takes r 0x3012000 → cmd (exec (.strmOn r p) s) .on ∧ cmd (exec (.strmOff r p) s) .off)
    ∧ (∀ a, s.dead = false → tap → (st.pend.filter fun a => a.waits64 (s.pos p)) = [a] → Does s (exec (.strmCmdTimeout p) s) caps fun u =>
        (u.getStrm p).pend = (st.pend.filter fun a => !a.waits64 (s.pos p)) ∧ (a.kind = .on → u.on .STRM_CFG_ON p = true) ∧ (a.kind = .off → u.on .STRM_CFG_ON p = false))
    ∧ (s.dead = false → Does s (exec (.elideRunClose p) s) [.PUN_DISC_COUNT] fun u => (u.getStrm p).run = none)
    ∧ (s.takes r (0x3040000 + 16 * p.val) → s.mode p = mSOURCE → DoesAt s (exec (.rplCfgWrite r p v) s) [] fun _ => True)
    ∧ (s.takes r (0x3040000 + 16 * p.val) → s.mode p ≠ mSOURCE →
        DoesAt s (exec (.rplCfgWrite r p v) s) [(.RPL_CFG_PUN, p), (.RPL_CFG_STREAM, p), (.RPL_CFG_LOOP, p), (.RPL_CFG_FROMTRIG, p)] fun u =>
          u.rd .RPL_CFG_PUN p = w % 256 ∧ u.rd .RPL_CFG_STREAM p = w / 256 % 512 ∧ u.rd .RPL_CFG_LOOP p = w / 2 ^ 17 % 2 ∧ u.rd .RPL_CFG_FROMTRIG p = w / 2 ^ 18 % 2)
    ∧ (s.dead = false → (¬plays ∨ s.getRpl p = none) → DoesAt s send [] fun u => u.out = [])
    ∧ (∀ x, s.dead = false → plays → s.getRpl p = some x → 0 < x.fill → DoesAt s send [] fun u => u.out = (if loops then [] else [s.txOut p (.txFiller p [] false)]) ∧ u.getRpl p = some { x with fill := x.fill - 1 })
    ∧ (∀ x, s.dead = false → plays → s.getRpl p = some x → x.fill = 0 → 0 < x.elide → DoesAt s send [(.PATH_DISC_COUNT, p), (.RPL_NEXT_SEQ, p)] fun u =>
        (¬loops → ∃ inv, u.out = [.tx p x.elUnit true inv]) ∧ (loops → u.out = [] ∧ u.rd .PATH_DISC_COUNT p = min (s.rd .PATH_DISC_COUNT p + 1) (2 ^ Fld.PATH_DISC_COUNT.width - 1))
        ∧ u.getRpl p = some { x with elide := x.elide - 1 })
    ∧ (s.dead = false → plays → DoesTower s send (eccFlds ++ portFlds ++ ([.PATH_DISC_COUNT, .PUN_DISC_COUNT, .RPL_NEXT_SEQ, .RPL_STAT_DONE, .RPL_STAT_TRUNCSTOP, .X_DLY_BYTES] : List Fld)) fun _ => True)

/-- R357, R359, R361, R364, R380, R387, R388: a punnet is enabled, disabled and set up by PUN_CFG, triggered by its line or by command, restarted and flushed. -/
def Obligations.Punnets : Prop :=
  ∀ (s : State) (r : Route) (k : Fin 256) (v : DW),
    let w := v.toNat
    let en := s.on .PUN_CFG_EN k = true
    let idxk := if 8 ≤ w / 16 % 32 ∧ w / 16 % 32 ≤ 16 then w / 16 % 32 else s.rd .PUN_CFG_IDXK k
    let same := s.rd .PUN_CFG_MODE k = w / 2 % 2 ∧ s.rd .PUN_CFG_ENC k = w / 4 % 2 ∧ s.rd .PUN_CFG_RDDEC k = w / 8 % 2 ∧ s.rd .PUN_CFG_IDXK k = idxk
      ∧ s.rd .PUN_CFG_TL k = w / 512 % 64 ∧ s.rd .PUN_CFG_TLEN k = w / 2 ^ 15 % 2
    let takes := s.takes r (0x3020000 + 0x40 * k.val)
    let cfg := exec (.punCfgWrite r k v) s
    let at_ := fun (l : List Fld) => l.map fun f => (f, k.val)
    let err := DoesAt s cfg (at_ [.PUN_STAT_CFGERR]) fun u => u.on .PUN_STAT_CFGERR k = true
    let fields : List Fld := [.PUN_CFG_MODE, .PUN_CFG_ENC, .PUN_CFG_RDDEC, .PUN_CFG_IDXK, .PUN_CFG_TL, .PUN_CFG_TLEN]
    let set := fun (u : State) => u.rd .PUN_CFG_MODE k = w / 2 % 2 ∧ u.rd .PUN_CFG_ENC k = w / 4 % 2 ∧ u.rd .PUN_CFG_RDDEC k = w / 8 % 2 ∧ u.rd .PUN_CFG_IDXK k = idxk % 32
      ∧ u.rd .PUN_CFG_TL k = w / 512 % 64 ∧ u.rd .PUN_CFG_TLEN k = w / 2 ^ 15 % 2
    let empty : List Fld := [.PUN_HEAD_OFS, .PUN_TAIL_OFS, .PUN_RECS_COUNT, .PUN_STAT_DAMAGE, .PUN_STAT_WRAP, .PUN_STAT_STATE, .X_PUN_SINCE, .X_PUN_EDGE]
    let starts := fun (u : State) (stop : Bool) => u.rd .PUN_HEAD_OFS k = 0 ∧ u.rd .PUN_TAIL_OFS k = 0 ∧ u.rd .PUN_RECS_COUNT k = 0 ∧ u.rd .PUN_STAT_DAMAGE k = 0
      ∧ u.rd .PUN_STAT_WRAP k = 0 ∧ nget u.punLens [] k.val = []
      ∧ u.rd .PUN_STAT_STATE k = (if stop then pRUN else if s.rd .PUN_PRE_KIB k = 0 then pREADY else pFILL)
    let state := s.rd .PUN_STAT_STATE k
    let answers := fun (y : Host.Outcome State Fault Refusal) (c : Nat) => DoesAt s y [(.PUN_CMD_RESULT, 0)] fun u => u.rd .PUN_CMD_RESULT 0 = c
    let trig : List Fld := [.PUN_HEAD_OFS, .PUN_TAIL_OFS, .PUN_RECS_COUNT, .PUN_STAT_STATE, .PUN_STAT_WRAP, .PUN_TRIGOFS_OFS, .PUN_TRIG_EPOCH, .X_PUN_SEQ, .X_PUN_SINCE, .X_PUN_EDGE]
    let fires := fun (u : State) (e : Nat) => u.rd .PUN_TRIG_EPOCH k = e % 2 ^ 64 ∧ u.rd .PUN_TRIGOFS_OFS k = s.rd .PUN_HEAD_OFS k % 2 ^ Fld.PUN_TRIGOFS_OFS.width
      ∧ u.rd .PUN_STAT_STATE k = if s.rd .PUN_POST_KIB k = 0 then pSTOPPED else pPOST
    (takes → en → w % 2 = 1 → same → DoesAt s cfg [] fun _ => True)
    ∧ (takes → en → w % 2 = 1 → ¬same → err)
    ∧ (takes → en → w % 2 = 0 → s.punUsed k = true → err)
    ∧ (takes → en → w % 2 = 0 → s.punUsed k = false → DoesTower s cfg (([.PUN_CFG_EN, .PUN_STAT_STATE, .X_PUN_EDGE, .PUN_TAIL_OFS] : List Fld) ++ fields) fun u =>
        u.on .PUN_CFG_EN k = false ∧ u.rd .PUN_STAT_STATE k = pDISABLED ∧ set u ∧ (s.punEnc k = false → u.tower = s.tower))
    ∧ (takes → ¬en → w % 2 = 0 → DoesAt s cfg (at_ fields) set)
    ∧ (takes → ¬en → w % 2 = 1 → s.rd .PUN_SLAB_COUNT k = 0 → DoesAt s cfg [] fun _ => True)
    ∧ (takes → ¬en → w % 2 = 1 → s.rd .PUN_SLAB_COUNT k ≠ 0 → s.punEnableOk k (w / 2 % 2) (w / 4 % 2) = false → err)
    ∧ (takes → ¬en → w % 2 = 1 → s.rd .PUN_SLAB_COUNT k ≠ 0 → s.punEnableOk k (w / 2 % 2) (w / 4 % 2) = true → DoesAt s cfg (at_ (.PUN_CFG_EN :: fields ++ empty)) fun u =>
        u.on .PUN_CFG_EN k = true ∧ set u ∧ starts u (w / 2 % 2 == 1))
    ∧ (s.takes r 0x3028000 → ¬en → answers (exec (.punTrig r k) s) 2 ∧ answers (exec (.punRestart r k) s) 2 ∧ answers (exec (.punFlush r k) s) 2)
    ∧ (s.takes r 0x3028000 → en → state = pREADY → DoesCore s (exec (.punTrig r k) s) (.PUN_CMD_RESULT :: trig) fun u => u.rd .PUN_CMD_RESULT 0 = 0 ∧ fires u s.epochNow)
    ∧ (s.takes r 0x3028000 → en → state = pFILL → DoesAt s (exec (.punTrig r k) s) [(.PUN_CMD_RESULT, 0), (.PUN_STAT_TRIGIGN, k)] fun u =>
        u.rd .PUN_CMD_RESULT 0 = 1 ∧ u.on .PUN_STAT_TRIGIGN k = true)
    ∧ (s.takes r 0x3028000 → en → state ≠ pREADY → state ≠ pFILL → answers (exec (.punTrig r k) s) 1)
    ∧ (s.takes r 0x3028000 → en → state = pSTOPPED → DoesAt s (exec (.punRestart r k) s) ((.PUN_CMD_RESULT, 0) :: at_ (.X_PUN_SEQ :: empty)) fun u =>
        u.rd .PUN_CMD_RESULT 0 = 0 ∧ u.rd .X_PUN_SEQ k = 0 ∧ starts u (s.on .PUN_CFG_MODE k))
    ∧ (s.takes r 0x3028000 → en → state ≠ pSTOPPED → answers (exec (.punRestart r k) s) 1)
    ∧ (s.takes r 0x3028000 → en → DoesTower s (exec (.punFlush r k) s) [.PUN_CMD_RESULT, .PUN_TAIL_OFS] fun u => u.rd .PUN_CMD_RESULT 0 = 0
        ∧ (s.punEnc k = false → u.tower = s.tower ∧ u.rd .PUN_TAIL_OFS k = s.rd .PUN_TAIL_OFS k))
    ∧ (s.dead = false → s.on .X_PUN_EDGE k = false → DoesAt s (exec (.punnetLineTrigger k) s) [] fun _ => True)
    ∧ (s.dead = false → s.on .X_PUN_EDGE k = true → state = pREADY → DoesCore s (exec (.punnetLineTrigger k) s) trig fun u =>
        u.on .X_PUN_EDGE k = false ∧ fires u (s.rd .X_PUN_EDGE_T k))
    ∧ (∀ key e, s.dead = false → s.punKey k = some key → s.getEnc (2 * k) = some e → s.getEnc (2 * k + 1) = none → DoesTower s (exec (.xtsUnitRewrite k) s) [.PUN_TAIL_OFS] fun u =>
        let a := s.punBase k + 4096 * e.unit
        u.tower = (writeWords s a (xtsEnc key (a / 4096) (payN 4096 e.bytes))).tower ∧ (s.on .PUN_CFG_MODE k = true → u.rd .PUN_TAIL_OFS k = s.rd .PUN_TAIL_OFS k))
    ∧ (s.dead = false → s.getEnc (2 * k) = none → s.getEnc (2 * k + 1) = none → DoesAt s (exec (.xtsUnitRewrite k) s) [] fun _ => True)

/-- R187 to R203: a queued lane's receivers start where a slot is free, passes agree or fail, a slice without solution twice is retired, an agreeing shadow takes its step's role, one unit later where a mode switches at the next unit, with new codes of its port's transmitter, and
a run that ends without success is queued again after its rounds. The corners of log entries 83, 84 and 101 are the model's choices. -/
def Obligations.CalibrationRuns : Prop :=
  ∀ (s : State) (g : Fin 16) (x : Fin 512) (found : Option SliceTrim) (tx : Option TxTrim),
    let next := s.calq.find? fun y => rxLane y / 16 == g.val
    let pair := fun (y : Nat) => (laneRx (rxLane y)).filter fun z => s.calq.contains z
    let room := fun (y : Nat) => (pair y).length ≤ 2 - ((s.calIn g 2).length + (s.calIn g 3).length) ∧ (pair y).all s.calGoes = true
    let n := rxLane x
    let runs := s.dead = false ∧ s.rd .X_CAL_ST x = 2 ∧ s.on .X_CAL_AGREE x = false ∧ s.calGoes x = true
    let k := s.rd .X_CAL_PASS x + 1
    let prev := s.rd .X_CAL_PREV x
    let had := 1 < k ∧ bitOf prev 34 = true
    let agree := fun (t : SliceTrim) => had ∧ passesAgree (s.rd .CAL_CTL_TOL 0) prev (trimWord t) = true
    let pass := exec (.calPassDone x found) s
    let swap := exec (.calSwap x tx) s
    let ready := s.dead = false ∧ s.rd .X_CAL_ST x = 2 ∧ s.on .X_CAL_AGREE x = true ∧ s.on .X_CAL_LATER x = false
    let later := s.switchNext (rxPath x) = true
    let codes := fun (u : State) => ∀ t, tx = some t → u.rd .CAL_TX_Z x = t.z.toNat ∧ u.rd .CAL_LIN_LIN x = t.lin.toNat
    let cons := s.rd .X_CAL_CONS x
    let fails := Does s pass (msgFlds ++ calFlds ++ ([.X_CAL_PREV, .X_CAL_CONS, .X_CAL_RQ, .CAL_LCNT_FAILS, .CAL_LCNT_RETRIES] : List Fld)) fun u =>
      (cons < 3 → u.rd .X_CAL_ST x = 0 ∧ u.rd .X_CAL_RQ x = 1025) ∧ (cons = 3 → u.rd .X_CAL_ST x = 4)
        ∧ u.rd .CAL_LCNT_FAILS n = min (s.rd .CAL_LCNT_FAILS n + 1) (2 ^ Fld.CAL_LCNT_FAILS.width - 1)
    (s.dead = false → next = none → DoesAt s (exec (.calRunStart g) s) [] fun _ => True)
    ∧ (∀ y, s.dead = false → next = some y → room y → Does s (exec (.calRunStart g) s) (.X_CAL_START :: calFlds) fun u =>
        ∀ z ∈ pair y, z ∉ u.calq ∧ u.rd .X_CAL_ST z = 2 ∧ u.rd .X_CAL_STEP z = 1 ∧ u.rd .X_CAL_PASS z = 0 ∧ u.rd .X_CAL_START z = unsigned 8 (s.laneTemp (rxLane z)))
    ∧ (∀ y, s.dead = false → next = some y → ¬room y → DoesAt s (exec (.calRunStart g) s) [] fun u => u.calq = s.calq)
    ∧ (∀ i t, runs → s.sliceIn x 4 = some i → found = some t → agree t → Does s pass [.X_CAL_PASS, .X_CAL_PREV, .X_CAL_AGREE, .CAL_LCNT_RETRIES] fun u =>
        u.on .X_CAL_AGREE x = true ∧ u.rd .X_CAL_PREV x = trimWord t + 2 ^ 34)
    ∧ (∀ i t, runs → s.sliceIn x 4 = some i → found = some t → ¬agree t → k < 5 → Does s pass [.X_CAL_PASS, .X_CAL_PREV, .CAL_LCNT_RETRIES] fun u =>
        u.on .X_CAL_AGREE x = false ∧ u.rd .X_CAL_PREV x = trimWord t + 2 ^ 34 ∧ u.rd .X_CAL_PASS x = k)
    ∧ (∀ i t, runs → s.sliceIn x 4 = some i → found = some t → ¬agree t → 5 ≤ k → fails)
    ∧ (∀ i, runs → s.sliceIn x 4 = some i → found = none → 1 < k → ¬had → Does s pass
        (msgFlds ++ calFlds ++ portFlds ++ ([.X_CAL_PREV, .CAL_LCNT_RETRIES, .CAL_SLC_ROLE, noShadowFld x] : List Fld)) fun u => u.rd .CAL_SLC_ROLE (5 * x + i) = 5
          ∧ s.sent u (512 + n) msgCHECK (x / 256 + 2 * i))
    ∧ (∀ i, runs → s.sliceIn x 4 = some i → found = none → (k = 1 ∨ (had ∧ k < 5)) → Does s pass [.X_CAL_PASS, .X_CAL_PREV, .CAL_LCNT_RETRIES] fun u =>
        u.rd .X_CAL_PREV x = 0 ∧ u.rd .X_CAL_PASS x = k)
    ∧ (∀ i, runs → s.sliceIn x 4 = some i → found = none → had → 5 ≤ k → fails)
    ∧ (ready → later → Does s swap [.CAL_TX_Z, .CAL_LIN_LIN, .X_CAL_LATER] fun u => u.on .X_CAL_LATER x = true ∧ codes u)
    ∧ (∀ i j, ready → ¬later → s.sliceIn x 4 = some i → let st := s.rd .X_CAL_STEP x
        st < 5 → s.sliceIn x (st - 1) = some j → Does s swap [.CAL_SLC_PAIR, .CAL_SLC_GAIN, .CAL_OFS_OFS, .CAL_SLC_ROLE, .X_CAL_STEP, .X_CAL_PASS, .X_CAL_AGREE, .CAL_TX_Z, .CAL_LIN_LIN]
          fun u => u.rd .CAL_SLC_ROLE (5 * x + i) = st - 1 ∧ u.rd .CAL_SLC_ROLE (5 * x + j) = 4 ∧ u.rd .X_CAL_STEP x = st + 1 ∧ u.rd .CAL_SLC_PAIR (5 * x + i) = prev % 32
            ∧ u.rd .CAL_SLC_GAIN (5 * x + i) = prev / 32 % 32 ∧ u.rd .CAL_OFS_OFS (5 * x + i) = prev / 1024 % 2 ^ 24 ∧ codes u)
    ∧ (∀ i, ready → ¬later → s.sliceIn x 4 = some i → 5 ≤ s.rd .X_CAL_STEP x →
        Does s swap (calFlds ++ ([.CAL_SLC_PAIR, .CAL_SLC_GAIN, .CAL_OFS_OFS, .CAL_LCNT_RUNS, tlastFld x, .X_CAL_CONS, .CAL_TX_Z, .CAL_LIN_LIN] : List Fld)) fun u => u.rd .X_CAL_ST x = 0
          ∧ u.rd (tlastFld x) n = s.rd .X_CAL_START x % 256 ∧ u.rd .X_CAL_CONS x = 0 ∧ u.rd .CAL_LCNT_RUNS n = min (s.rd .CAL_LCNT_RUNS n + 1) 65535 ∧ codes u)
    ∧ (s.dead = false → s.rd .X_CAL_RQ x = 1 → s.on .CAL_CTL_BGEN 0 = true → s.rd .X_CAL_ST x = 0 → s.noShadow x = false →
        Does s (exec (.calRequeue x) s) (.X_CAL_RQ :: calFlds) fun u => u.rd .X_CAL_RQ x = 0 ∧ u.rd .X_CAL_ST x = 1 ∧ u.calq = s.calq ++ [x.val])
    ∧ (s.dead = false → s.rd .X_CAL_RQ x ≠ 1 → DoesAt s (exec (.calRequeue x) s) [] fun _ => True)
    ∧ (s.dead = false → s.rd .X_CAL_ST x = 2 → Does s (exec (.calNoUnitTimeout x) s) (.X_CAL_RQ :: calFlds) fun u => u.rd .X_CAL_ST x = 0 ∧ u.rd .X_CAL_RQ x = nextRound
        ∧ u.rd .X_CAL_STEP x = 1)
    ∧ (s.dead = false → s.rd .X_CAL_ST x ≠ 2 → DoesAt s (exec (.calNoUnitTimeout x) s) [] fun _ => True)

/-- R196, R204, R205, R207, R210 to R212: CAL_CMD's write-back stores every lane's record in the copy that is not current and its directory entry after a read-back that agrees;
RECAL queues a lane's receivers and FOREGROUND calibrates it before it leaves DARK. Which copy is written where neither entry checks is the model's choice (log entry 102). -/
def Obligations.CalibrationCommands : Prop :=
  ∀ (s : State) (r : Route) (n : Fin 256) (a b : PortTrim),
    let cmd := s.takes r 0x440004
    let busy := s.on .CAL_STAT_WBBUSY 0 = true
    let c := s.wbCopy
    let wb := exec (.writeback r) s
    let recal := exec (.recal r n) s
    let fg := exec (.foreground r n) s
    let refused := fun (y : Host.Outcome State Fault Refusal) => DoesAt s y [(.CAL_CMD_RESULT, 0)] fun u => u.rd .CAL_CMD_RESULT 0 = 2
    let leaves := [2 * n.val, 2 * n.val + 1].any fun p => match s.pendChg p with | some ⟨_, .fromDark _⟩ => true | _ => false
    (cmd → busy → refused wb ∧ refused recal ∧ refused fg)
    ∧ (cmd → ¬busy → 100000 ≤ s.rd (wearFld c) 0 → DoesAt s wb [(.CAL_STAT_WORN, 0), (.CAL_CMD_RESULT, 0)] fun u => u.on .CAL_STAT_WORN 0 = true ∧ u.rd .CAL_CMD_RESULT 0 = 3)
    ∧ (cmd → ¬busy → s.rd (wearFld c) 0 < 100000 → DoesNvm s wb [.CAL_STAT_WBBUSY, .CAL_CMD_RESULT] fun u => u.on .CAL_STAT_WBBUSY 0 = true ∧ u.rd .CAL_CMD_RESULT 0 = 1
        ∧ (∀ m < 256, s.on .X_CAL_DFLT m = false → u.getNvms (0x4000 * c + 64 * m) 64 = s.calRecord m false)
        ∧ ∀ d, ¬(0x4000 * c ≤ d ∧ d < 0x4000 * c + 0x4000) → u.getNvm d = s.getNvm d)
    ∧ (s.dead = false → (¬busy ∨ s.mgmtAway = true) → DoesAt s (exec (.writebackDone false) s) [] fun _ => True)
    ∧ (s.dead = false → busy → s.mgmtAway = false → Does s (exec (.writebackDone true) s) (msgFlds ++ ([.CAL_STAT_WBBUSY, .CAL_CMD_RESULT] : List Fld)) fun u =>
        u.on .CAL_STAT_WBBUSY 0 = false ∧ u.rd .CAL_CMD_RESULT 0 = 5 ∧ s.sent u 1071 msgCHECK 0)
    ∧ (s.dead = false → busy → s.mgmtAway = false → DoesNvm s (exec (.writebackDone false) s) [.CAL_STAT_WBBUSY, .CAL_CMD_RESULT, .CAL_STAT_COPY, wearFld c] fun u =>
        u.on .CAL_STAT_WBBUSY 0 = false ∧ u.rd .CAL_CMD_RESULT 0 = 0 ∧ u.rd .CAL_STAT_COPY 0 = c ∧ u.rd (wearFld c) 0 = (s.rd (wearFld c) 0 + 1) % 2 ^ (wearFld c).width
          ∧ leNat (u.getNvms (0x8000 + 32 * c) 4) = 0x44434C41 ∧ leNat (u.getNvms (0x8000 + 32 * c + 28) 4) = crcOf crc32c (u.getNvms (0x8000 + 32 * c) 28) % 2 ^ 32
          ∧ ∀ d, ¬(0x8000 + 32 * c ≤ d ∧ d < 0x8000 + 32 * c + 32) → u.getNvm d = s.getNvm d)
    ∧ (cmd → ¬busy → Does s recal (calFlds ++ ([.CAL_CMD_RESULT, .X_CAL_CONS, .X_CAL_RQ] : List Fld)) fun u => u.rd .CAL_CMD_RESULT 0 = 0 ∧ ∀ x ∈ laneRx n, u.rd .X_CAL_CONS x = 0
        ∧ (s.on .CAL_CTL_BGEN 0 = true → (s.rd .X_CAL_ST x = 0 ∨ s.rd .X_CAL_ST x = 4) → s.noShadow x = false → u.rd .X_CAL_ST x = 1 ∧ x ∈ u.calq))
    ∧ (cmd → ¬busy → DoesAt s fg [(.CAL_CMD_RESULT, 0), (.X_CAL_FG, n)] fun u => u.rd .CAL_CMD_RESULT 0 = 0 ∧ u.on .X_CAL_FG n = true)
    ∧ (s.dead = false → s.calWaits n = true → leaves = true → s.pwrOn (n / 16) = true → Does s (exec (.foregroundCalDone n a b) s)
        (msgFlds ++ calFlds ++ ([.CAL_TX_Z, .CAL_LIN_LIN, .CAL_SLC_PAIR, .CAL_SLC_GAIN, .CAL_OFS_OFS, .X_CAL_FG, .X_CAL_DFLT, .X_CAL_RQ] : List Fld)) fun u =>
          u.on .X_CAL_FG n = false ∧ u.on .X_CAL_DFLT n = false ∧ u.rd .CAL_TX_Z n = a.z.toNat ∧ u.rd .CAL_TX_Z (256 + n) = b.z.toNat
            ∧ u.rd .CAL_LIN_LIN n = a.lin.toNat ∧ u.rd .CAL_LIN_LIN (256 + n) = b.lin.toNat
            ∧ ∀ i f, i < 5 → a.slices[i]? = some (some f) → u.rd .CAL_SLC_PAIR (5 * n + i) = f.pair.val ∧ u.rd .CAL_SLC_GAIN (5 * n + i) = f.gain.toNat
              ∧ u.rd .CAL_OFS_OFS (5 * n + i) = f.ofs.toNat)
    ∧ (s.dead = false → s.calWaits n = false → DoesAt s (exec (.foregroundCalDone n a b) s) [] fun _ => True)

/-- R397, R400, R405, R406, R410 to R412: refresh commands and refresh management count down a bank's activations, a clear sweeps its slabs, a delay-line region is taken or refused,
and a CHAN reset holds its channel until it ends. What counts as an activation, and the rows of
a bank's table and their neighbours, are the model's choices (log entry 12). -/
def Obligations.TowerUpkeep : Prop :=
  ∀ (s : State) (r : Route) (t : Fin 2) (c : Fin 16) (pc : Fin 2) (bank : Fin 16) (first count : BitVec 12) (p : Fin 512) (v : DW),
    let i := chI t c
    let row := fun (u : State) (b : Nat) => nget u.banks noAct (pcI t c pc * 16 + b)
    let thr := s.rd .TWR_RFM_THRESH t
    let works := s.twrActive t = true ∧ s.rd .CH_STAT_STATE i = 0
    let f := first.toNat
    let n := count.toNat
    let clr := exec (.towerClear r t first count) s
    let code := if n = 0 then 0 else if s.runInTower t f n = false then 2 else if s.meetsPun f n none || s.meetsDlr f n none then 3 else if s.on .TWR_CLRSTAT_BUSY t then 4 else 1
    let x := s.rd .X_CLR_FIRST t
    let m := s.rd .X_CLR_COUNT t
    let swept := fun (A : Nat) => x ≤ slabOf A ∧ slabOf A < x + m
    let w := v.toNat
    let df := w % 4096
    let dn := w / 4096 % 4096
    let dlr := exec (.dlrCfgWrite r p v) s
    let da := s.takes r (0x2040000 + 4 * p.val)
    let region := fun (en : Nat) => DoesAt s dlr [(.DLR_CFG_EN, p), (.DLR_CFG_FIRST, p), (.DLR_CFG_COUNT, p), (.DLR_CFG_CFGERR, p)] fun u =>
      u.rd .DLR_CFG_EN p = en ∧ u.rd .DLR_CFG_FIRST p = df ∧ u.rd .DLR_CFG_COUNT p = dn
    let err := DoesAt s dlr [(.DLR_CFG_CFGERR, p)] fun u => u.on .DLR_CFG_CFGERR p = true
    let fits := s.runInTower (df / 1536) df dn = true ∧ df < 3072 ∧ s.meetsPun df dn none = false ∧ s.meetsDlr df dn (some p.val) = false ∧ s.meetsClear df dn = false
    let ch := exec (.chReset r t c) s
    let ca := s.takes r (addrTwr t + 0x1004 + 0x100 * c.val)
    let may := s.twrActive t = true ∧ s.rd .CH_STAT_STATE i ≠ 3 ∧ s.otherReset t c = false
    let repairs := s.rd .X_REP_OP t = 1 ∨ s.rd .X_REP_OP t = 3
    let ends := s.rd .CH_STAT_STATE i = 1 ∧ s.rd .TWR_STAT_STATE t = 3 ∧ ¬(s.rd .X_REP_OP t = 2 ∧ s.rd .X_REP_CH t = c.val)
    (s.dead = false → works → DoesAt s (exec (.refreshCommand t c pc) s) [(.CH_REFCNT_COUNT, i)] fun u =>
        u.rd .CH_REFCNT_COUNT i = min (s.rd .CH_REFCNT_COUNT i + 1) (2 ^ 32 - 1) ∧ ∀ b < 16, row u b = { row s b with count := (row s b).count - thr })
    ∧ (s.dead = false → ¬works → DoesAt s (exec (.refreshCommand t c pc) s) [] fun u => u.banks = s.banks)
    ∧ (s.dead = false → thr ≤ (row s bank).count → s.twrActive t = true → DoesAt s (exec (.refreshManagement t c pc bank) s) [(.TWR_RFMCNT_COUNT, t)] fun u =>
        u.rd .TWR_RFMCNT_COUNT t = min (s.rd .TWR_RFMCNT_COUNT t + 1) (2 ^ 32 - 1) ∧ row u bank = { row s bank with count := (row s bank).count - thr, rows := [] } ∧ u.out = [.rowRefresh t c pc bank (neighbours (row s bank).table)])
    ∧ (s.dead = false → (row s bank).count < thr → DoesAt s (exec (.refreshManagement t c pc bank) s) [] fun _ => True)
    ∧ (s.takes r (addrTwr t + 8) → code ≠ 1 → DoesAt s clr [(.TWR_CLRSTAT_RESULT, t)] fun u => u.rd .TWR_CLRSTAT_RESULT t = code)
    ∧ (s.takes r (addrTwr t + 8) → code = 1 → DoesAt s clr [(.TWR_CLRSTAT_RESULT, t), (.TWR_CLRSTAT_BUSY, t), (.TWR_CLRSTAT_DONE, t), (.X_CLR_FIRST, t), (.X_CLR_COUNT, t)] fun u =>
        u.rd .TWR_CLRSTAT_RESULT t = 1 ∧ u.on .TWR_CLRSTAT_BUSY t = true ∧ u.rd .TWR_CLRSTAT_DONE t = 0 ∧ u.rd .X_CLR_FIRST t = f ∧ u.rd .X_CLR_COUNT t = n)
    ∧ (s.dead = false → s.on .TWR_CLRSTAT_BUSY t = true → 0 < s.avail t → DoesTower s (exec (.towerClearDone t) s)
        [.TWR_CLRSTAT_RESULT, .TWR_CLRSTAT_BUSY, .TWR_CLRSTAT_DONE, .X_CLR_FIRST, .X_CLR_COUNT] fun u => u.on .TWR_CLRSTAT_BUSY t = false ∧ u.rd .TWR_CLRSTAT_RESULT t = 0
          ∧ u.rd .TWR_CLRSTAT_DONE t = m % 4096 ∧ (∀ A, swept A → u.getT A = blankCode) ∧ ∀ A, ¬swept A → u.getT A = s.getT A)
    ∧ (s.dead = false → (s.on .TWR_CLRSTAT_BUSY t = false ∨ s.avail t = 0) → DoesAt s (exec (.towerClearDone t) s) [] fun _ => True)
    ∧ (da → s.inDelay p = true → err)
    ∧ (da → s.inDelay p = false → w / 2 ^ 24 % 2 = 0 → region 0)
    ∧ (da → s.inDelay p = false → w / 2 ^ 24 % 2 = 1 → dn = 0 → DoesAt s dlr [(.DLR_CFG_CFGERR, p)] fun _ => True)
    ∧ (da → s.inDelay p = false → w / 2 ^ 24 % 2 = 1 → dn ≠ 0 → ¬fits → err)
    ∧ (da → s.inDelay p = false → w / 2 ^ 24 % 2 = 1 → dn ≠ 0 → fits → region 1)
    ∧ (ca → ¬may → DoesAt s ch [(.CH_CMD_RESULT, i)] fun u => u.rd .CH_CMD_RESULT i = 2)
    ∧ (ca → may → repairs → DoesAt s ch [(.CH_CMD_RESULT, i), (.X_CHRST_WAIT, i)] fun u => u.rd .CH_CMD_RESULT i = 1 ∧ u.on .X_CHRST_WAIT i = true)
    ∧ (ca → may → ¬repairs → DoesAt s ch [(.CH_CMD_RESULT, i), (.X_CHRST_WAIT, i), (.CH_STAT_STATE, i), (.TWR_STAT_STATE, t)] fun u => u.rd .CH_CMD_RESULT i = 1
        ∧ u.rd .CH_STAT_STATE i = 1 ∧ u.rd .TWR_STAT_STATE t = 3)
    ∧ (s.dead = false → ends → Does s (exec (.chanResetDone t c) s)
        (msgFlds ++ ([.CH_CMD_RESULT, .CH_STAT_STATE, .TWR_STAT_STATE, .REP_SPARE_ROWS, .REP_SPARE_HARD, .REP_SPARE_TSV] : List Fld)) fun u =>
          u.rd .CH_STAT_STATE i = 0 ∧ u.rd .CH_CMD_RESULT i = 0 ∧ u.rd .TWR_STAT_STATE t = if s.otherReset t c then 3 else 1)
    ∧ (s.dead = false → ¬ends → DoesAt s (exec (.chanResetDone t c) s) [] fun _ => True)

/-- R427, R433 to R443: a repair command answers the first code that applies or starts its repair, a queued soft repair starts in its turn, and each repair ends with its spare in
use, its list entry waiting or written, and its row or tower blank where it says so. -/
def Obligations.Repairs : Prop :=
  ∀ (s : State) (r : Route) (t : Fin 2) (c : Fin 16) (lane : Fin 160),
    let at_ := fun (l : List Fld) => l.map fun f => (f, t.val)
    let ra := s.takes r (addrEcc t + 0x800)
    let A := s.rd .REP_ADDR_ADDR t
    let k : RowKey := { (s.locOf A).key with t := t.val }
    let code := fun (op ch : Nat) => s.repCode t op k A ch
    let soft := exec (.repSoft r t) s
    let hard := exec (.repHard r t) s
    let tsv := exec (.repTsv r t c lane) s
    let retire := exec (.repRetire r t c) s
    let answers := fun (y : Host.Outcome State Fault Refusal) (n : Nat) => DoesAt s y [(.REP_CMD_RESULT, t)] fun u => u.rd .REP_CMD_RESULT t = n
    let job : List Fld := [.REP_CMD_RESULT, .X_REP_OP, .X_REP_CH, .X_REP_LANE, .X_REP_PC, .X_REP_BANK, .X_REP_ROW, .X_REP_CMD]
    let begun := fun (u : State) (op ch : Nat) => u.rd .REP_CMD_RESULT t = 1 ∧ u.rd .X_REP_OP t = op ∧ u.rd .X_REP_CH t = ch % 16 ∧ u.on .X_REP_CMD t = true
    let q := s.softq.find? fun e => e.1.t == t.val
    let qs := exec (.queuedSoftRepairStart t) s
    let free := s.rd .X_REP_OP t = 0 ∧ s.nvmWaits t < 16
    let qA := fun (k : RowKey) => addrOf (s.retired t) t k.c ((k.row * 2 ^ 15 + k.bank * 2 ^ 11) * 2 + k.pc * 64)
    let op := s.rd .X_REP_OP t
    let rk := s.repKey t
    let ended := fun (u : State) => u.rd .X_REP_OP t = 0 ∧ (s.on .X_REP_CMD t = true → u.rd .REP_CMD_RESULT t = 0)
    let done : List Fld := [.REP_CMD_RESULT, .X_REP_OP, .X_REP_CMD, .X_CHRST_WAIT, .CH_STAT_STATE, .TWR_STAT_STATE]
    let spares : List Fld := [.REP_SPARE_ROWS, .REP_SPARE_HARD, .REP_SPARE_TSV]
    let append := exec (.nvmRepairAppend) s
    let stays := fun (y : Host.Outcome State Fault Refusal) => DoesAt s y [] fun u => u.reps = s.reps ∧ u.hards = s.hards
    let slot := 0x8060 + 8 * s.repCount
    (ra → code 1 0 ≠ 0 → answers soft (code 1 0))
    ∧ (ra → code 2 0 ≠ 0 → answers hard (code 2 0))
    ∧ (ra → code 3 c ≠ 0 → answers tsv (code 3 c))
    ∧ (ra → code 4 c ≠ 0 → answers retire (code 4 c))
    ∧ (ra → code 1 0 = 0 → s.nvmWaits t < 16 → DoesAt s soft (at_ job) fun u => begun u 1 k.c)
    ∧ (ra → code 1 0 = 0 → 16 ≤ s.nvmWaits t → DoesAt s soft [(.REP_CMD_RESULT, t)] fun u => u.rd .REP_CMD_RESULT t = 1 ∧ u.softq = s.softq ++ [(k, true)])
    ∧ (ra → code 2 0 = 0 → DoesAt s hard ((.CH_STAT_STATE, chI t k.c) :: at_ (.TWR_STAT_STATE :: job)) fun u => begun u 2 k.c ∧ u.rd .CH_STAT_STATE (chI t k.c) = 1
        ∧ u.rd .TWR_STAT_STATE t = 3)
    ∧ (ra → code 3 c = 0 → DoesAt s tsv (at_ job) fun u => begun u 3 c ∧ u.rd .X_REP_LANE t = lane.val)
    ∧ (ra → code 4 c = 0 → DoesAt s retire ((.CH_STAT_STATE, chI t c) :: at_ job) fun u => begun u 4 c ∧ u.rd .CH_STAT_STATE (chI t c) = 3)
    ∧ (s.dead = false → (q = none ∨ ¬free) → DoesAt s qs [] fun u => u.softq = s.softq)
    ∧ (∀ e cmd, s.dead = false → q = some (e, cmd) → free → s.repCode t 1 e (qA e) e.c = 0 → DoesAt s qs (at_ job) fun u => u.rd .X_REP_OP t = 1
        ∧ u.on .X_REP_CMD t = cmd ∧ u.softq = s.softq.erase (e, cmd))
    ∧ (∀ e cmd, s.dead = false → q = some (e, cmd) → free → s.repCode t 1 e (qA e) e.c ≠ 0 → Does s qs (.REP_CMD_RESULT :: msgFlds) fun u =>
        s.sent u (memSrc t e.c e.pc 1) msgUNCORR (qA e) ∧ u.softq = s.softq.erase (e, cmd))
    ∧ (∀ sp, s.dead = false → op = 1 → s.freeSpare rk = some sp → DoesTower s (exec (.softRepairDone t) s) (eccFlds ++ spares ++ done ++ ([.REP_STAT_NVMPEND] : List Fld)) fun u =>
        ended u ∧ u.reps = s.reps ++ [.soft rk sp] ∧ u.nvmPend = s.nvmPend ++ [.soft rk sp])
    ∧ (s.dead = false → s.mgmtAway = true → (op = 2 → stays (exec (.hardRepairDone t) s)) ∧ (op = 4 → stays (exec (.retireDone t) s)))
    ∧ (s.dead = false → op = 2 → s.mgmtAway = false → ∃ u, exec (.hardRepairDone t) s = .next u ∧ ended u ∧ u.hards = s.hards ++ [rk] ∧ (∀ B ∈ s.rowAddrs rk, u.getT B = blankCode)
        ∧ u.rd .TWR_STAT_STATE t = (if (List.range 16).any fun d => s.on .X_CHRST_WAIT (chI t d) then 3 else 1) ∧ s.fldsBut u (mailFlds ++ spares ++ done)
        ∧ (∀ g w, u.getI g w = s.getI g w) ∧ (∀ g w, u.getD g w = s.getD g w) ∧ ∀ a, ¬(0x9800 ≤ a ∧ a < 0x9C00) → ¬(0x301400 ≤ a ∧ a < 0x301800) → a ≠ 0x10800 → u.getWin a = s.getWin a)
    ∧ (∀ sp, s.dead = false → op = 3 → ((List.range 4).find? fun i => !(s.tsvIn t (s.rd .X_REP_CH t)).contains i) = some sp →
        Does s (exec (.tsvSwapDone t) s) (spares ++ done ++ ([.REP_STAT_NVMPEND] : List Fld)) fun u => ended u
          ∧ u.reps = s.reps ++ [.tsv t (s.rd .X_REP_CH t) (s.rd .X_REP_LANE t) sp] ∧ u.nvmPend = s.nvmPend ++ [.tsv t (s.rd .X_REP_CH t) (s.rd .X_REP_LANE t) sp])
    ∧ (s.dead = false → op = 4 → s.mgmtAway = false → ∃ u, exec (.retireDone t) s = .next u ∧ ended u ∧ u.on .REP_STAT_RETIRED t = true ∧ u.rd .REP_STAT_RCH t = s.rd .X_REP_CH t % 16
        ∧ (∀ B, 1536 * t.val ≤ slabOf B → slabOf B < 1536 * t.val + 1536 → u.getT B = blankCode) ∧ s.fldsBut u (([.REP_STAT_RETIRED, .REP_STAT_RCH] : List Fld) ++ mailFlds ++ done)
        ∧ (∀ g w, u.getI g w = s.getI g w) ∧ (∀ g w, u.getD g w = s.getD g w) ∧ ∀ a, ¬(0x9800 ≤ a ∧ a < 0x9C00) → ¬(0x301400 ≤ a ∧ a < 0x301800) → a ≠ 0x10800 → u.getWin a = s.getWin a)
    ∧ (s.dead = false → (s.nvmPend = [] ∨ s.mgmtAway = true ∨ 2036 ≤ s.repCount) → DoesAt s append [] fun u => u.nvmPend = s.nvmPend)
    ∧ (∀ e l, s.dead = false → s.nvmPend = e :: l → s.mgmtAway = false → s.repCount < 2036 → DoesNvm s append [.REP_STAT_NVMPEND] fun u => u.nvmPend = l
        ∧ u.getNvms slot 8 = e.image ∧ ∀ a, ¬(0x8040 ≤ a ∧ a < 0x8060) → ¬(slot ≤ a ∧ a < slot + 8) → u.getNvm a = s.getNvm a)

/-- R420, R423 to R425, R428 to R430: a burst is rewritten corrected, the scrubber goes on burst by burst, the test window reads and writes a word whole and raw or refuses, and
entries of the error log are freed. -/
def Obligations.ScrubAndTestWindow : Prop :=
  ∀ (s : State) (r : Route) (t : Fin 2) (c : Fin 16) (e : Fin 64),
    let i := chI t c
    let n := s.rd .X_SCR_POS i
    let b := s.bursts.find? fun b => towerOf b == t.val
    let rewrite := exec (.burstRewrite t) s
    let scrubs := s.twrActive t = true ∧ s.rd .CH_STAT_STATE i = 0 ∧ s.rd .SCR_CFG_PERIOD i ≠ 0 ∧ s.pwrOn (36 + t.val) = true ∧ s.clkRuns (16 + t.val) = true
    let scrub := exec (.scrubBurst t c) s
    let ta := s.takes r (addrEcc t + 0xA14)
    let code := s.tstCode t
    let A := s.tstAddr t
    let w := s.getT A
    let window : List Fld := [.TST_CMD_BUSY, .TST_DATA_DATA, .TST_TAG_CHK, .TST_TAG_U, .TST_TAG_P, .X_TST_OUT]
    let at_ := fun (l : List Fld) => l.map fun f => (f, t.val)
    let refused := fun (y : Host.Outcome State Fault Refusal) => DoesAt s y [(.TST_CMD_RESULT, t)] fun u => u.rd .TST_CMD_RESULT t = code
    let shows := fun (u : State) (d : Nat) => u.on .TST_CMD_BUSY t = true ∧ u.rd .TST_DATA_DATA t = d ∧ u.rd .TST_TAG_CHK t = codeChk w ∧ u.on .TST_TAG_U t = codeU w
      ∧ u.on .TST_TAG_P t = codeP w
    let D := BitVec.ofNat 64 (s.rd .TST_DATA_DATA t)
    let U := s.on .TST_TAG_U t
    let P := s.on .TST_TAG_P t
    let stores := fun (y : Host.Outcome State Fault Refusal) (v : Code) => DoesTower s y [.TST_CMD_BUSY, .X_TST_OUT] fun u => u.on .TST_CMD_BUSY t = true ∧ u.getT A = v
      ∧ ∀ B, B / 8 ≠ A / 8 → u.getT B = s.getT B
    let o := s.rd .X_TST_OUT t
    let rewrites := fun (x : Nat) => s.twrActive t = true ∧ s.rd .CH_STAT_STATE (chI t (s.locOf x).c) = 0
    (s.dead = false → (b = none ∨ ∃ x, b = some x ∧ ¬rewrites x) → DoesAt s rewrite [] fun u => u.bursts = s.bursts)
    ∧ (∀ x, s.dead = false → b = some x → rewrites x → DoesTower s rewrite eccFlds fun u => u.bursts = s.bursts.erase x
        ∧ (∀ j < 8, ∀ y z, (decodeWord (s.getT (x + 8 * j)) = (.single y, z) ∨ ∃ y', decodeWord (s.getT (x + 8 * j)) = (.double y y', z)) → u.getT (x + 8 * j) = z)
        ∧ ∀ B, B / 8 < x / 8 ∨ x / 8 + 8 ≤ B / 8 → u.getT B = s.getT B)
    ∧ (s.dead = false → ¬scrubs → DoesAt s scrub [] fun _ => True)
    ∧ (s.dead = false → scrubs → DoesTower s scrub (eccFlds ++ ([.PUN_STAT_DAMAGE, .SCR_STAT_PASSES, .SCR_STAT_PROG, .X_REP_BANK, .X_REP_CH, .X_REP_CMD, .X_REP_LANE, .X_REP_OP,
        .X_REP_PC, .X_REP_ROW, .X_SCR_POS] : List Fld)) fun u => u.rd .X_SCR_POS i = (n + 1) % chanBursts
          ∧ u.rd .SCR_STAT_PASSES i = (if n + 1 = chanBursts then min (s.rd .SCR_STAT_PASSES i + 1) 65535 else s.rd .SCR_STAT_PASSES i))
    ∧ (ta → code ≠ 0 → refused (exec (.tstRead r t) s) ∧ refused (exec (.tstReadraw r t) s) ∧ refused (exec (.tstWrite r t) s) ∧ refused (exec (.tstWriteraw r t) s))
    ∧ (ta → code = 0 → DoesAt s (exec (.tstReadraw r t) s) (at_ window) fun u => shows u (codeData w).toNat ∧ u.rd .X_TST_OUT t = 0)
    ∧ (ta → code = 0 → s.rd .X_INJ_LEFT 0 = 0 → (decodeWord w).1 = .clean → DoesAt s (exec (.tstRead r t) s) (at_ window) fun u =>
        shows u (if codeU w && !codeP w then 0 else (codeData w).toNat) ∧ u.rd .X_TST_OUT t = 1)
    ∧ (ta → code = 0 → DoesTower s (exec (.tstRead r t) s) (eccFlds ++ window ++ ([.FLT_INJ_BUSY, .X_INJ_LEFT] : List Fld)) fun u => u.on .TST_CMD_BUSY t = true)
    ∧ (ta → code = 0 → stores (exec (.tstWrite r t) s) (encodeWord D U P))
    ∧ (ta → code = 0 → stores (exec (.tstWriteraw r t) s) (rawWord D U P (s.rd .TST_TAG_CHK t)))
    ∧ (s.dead = false → s.on .TST_CMD_BUSY t = true → DoesAt s (exec (.testWindowDone t) s) (at_ [.TST_CMD_BUSY, .TST_CMD_RESULT, .TST_CMD_OUTCOME, .X_TST_OUT]) fun u =>
        u.on .TST_CMD_BUSY t = false ∧ u.rd .TST_CMD_RESULT t = 0 ∧ (o ≠ 0 → u.rd .TST_CMD_OUTCOME t = (o - 1) % 4) ∧ (o = 0 → u.rd .TST_CMD_OUTCOME t = s.rd .TST_CMD_OUTCOME t))
    ∧ (s.dead = false → s.on .TST_CMD_BUSY t = false → DoesAt s (exec (.testWindowDone t) s) [] fun _ => True)
    ∧ (s.takes r (addrEcc t + 0x304) → DoesAt s (exec (.logFree r t e) s) [(.ERR_LOG_VALID, 64 * t + e), (.ECC_LOGSTAT_COUNT, t)] fun u =>
        u.on .ERR_LOG_VALID (64 * t + e) = false ∧ u.rd .ECC_LOGSTAT_COUNT t = u.logCount t)
    ∧ (s.takes r (addrEcc t + 0x304) → Does s (exec (.logFreeAll r t) s) [.ERR_LOG_VALID, .ECC_LOGSTAT_COUNT] fun u => (∀ j < 64, u.on .ERR_LOG_VALID (64 * t + j) = false)
        ∧ u.rd .ECC_LOGSTAT_COUNT t = 0 ∧ u.rd .ECC_LOGSTAT_COUNT (1 - t.val) = s.rd .ECC_LOGSTAT_COUNT (1 - t.val))

/-- R461 to R468, R471, R473, R476, R504: a DOORBELL queues the request of its mailbox; the firmware answers it in its turn, an MCTP message after those of the
mailboxes, with a status and the payload of its command; where no command has its CMD, so too. -/
def Obligations.MailboxCommands : Prop :=
  ∀ (s : State) (r : Route) (v : Via) (req : List Byte) (differs : Bool) (m : Nat),
    let info := exec (.getInfo v) s
    let meas := exec (.getMeas v) s
    let events := exec (.getEvents v) s
    let nvm := exec (.nvmRead v) s
    let back := exec (.calWriteback v differs) s
    let budget := exec (.budget v) s
    let rows : List (Nat × Nat × Host.Outcome State Fault Refusal) := [(1, 0, info), (2, 1, meas), (3, 2, events), (0x10, 4, nvm), (0x11, 0, back), (0x20, 1, budget)]
    let ill := fun (n : Nat) => reqLen req ≠ n ∨ leNat (sliceBytes req 8 8) ≠ 0
    let pre := s.dev = devINIT ∨ (s.dev = devHOLD ∧ s.rd .DEV_STATE_INITSTEP 0 ≠ 4)
    let early := fun (c : Nat) => pre ∧ c ≠ 1 ∧ c ≠ 3
    let none_ := if s.hot = .draining then 3 else if pre then 4 else 1
    let has := fun (c : Nat) => s.dead = false ∧ s.request v = some req ∧ reqCmd req = c
    let serves := fun (c n : Nat) => has c ∧ s.hot ≠ .draining ∧ ¬early c ∧ ¬ill n
    let pay := reqPay req
    let gives := fun (x : Host.Outcome State Fault Refusal) (l : List Fld) (st : Nat) (p : List Byte) (P : State → Prop) =>
      DoesMail s x (mailFlds ++ l) fun u => s.answered u v (respMsg req st p) ∧ P u
    let i := (pay.getD 0 0).toNat
    let o := leNat (sliceBytes pay 0 2)
    let k := leNat (sliceBytes pay 2 2)
    let q := s.hostq
    let c := s.wbCopy
    let bell := if m = 0 then exec (.mbDoorbell r) s else exec (.twMbDoorbell r) s
    let rings := m < 2 ∧ s.takes r (if m = 0 then 0x9000 else 0x300040)
    let unknown := s.fwRuns = true ∧ s.fwFree = true ∧ knownCmd (reqCmd (s.mbReq m)) = false
    (rings → s.mbWaits m = true → DoesAt s bell [(mbErr m, 0)] fun u => u.on (mbErr m) 0 = true)
    ∧ (rings → s.mbWaits m = false → s.mbWaits (1 - m) = false → ¬unknown → DoesAt s bell [(mbPend m, 0), (.X_MB_FIRST, 0)] fun u =>
        u.mbWaits m = true ∧ u.rd .X_MB_FIRST 0 = m)
    ∧ (rings → s.mbWaits m = false → s.mbWaits (1 - m) = true → s.fwRuns = false → DoesAt s bell [(mbPend m, 0)] fun u => u.mbWaits m = true)
    ∧ (rings → s.mbWaits m = false → s.mbWaits (1 - m) = false → unknown → DoesMail s bell mailFlds fun u =>
        s.answered u (if m = 0 then .mbox else .twMbox) (respMsg (s.mbReq m) none_ []))
    ∧ (∀ y ∈ rows, (s.dead = false → s.request v = none → DoesMail s y.2.2 mailFlds fun u => u.hostq = q)
        ∧ (s.dead = false → s.request v = some req → knownCmd (reqCmd req) = true → reqCmd req ≠ y.1 → DoesMail s y.2.2 mailFlds fun u => u.hostq = q)
        ∧ (∀ b, s.dead = false → v = .mctp b req → s.request v = some req → knownCmd (reqCmd req) = false → gives y.2.2 [] none_ [] fun _ => True)
        ∧ (has y.1 → s.hot = .draining → gives y.2.2 [] 3 [] fun _ => True)
        ∧ (has y.1 → s.hot ≠ .draining → early y.1 → gives y.2.2 [] 4 [] fun _ => True)
        ∧ (has y.1 → s.hot ≠ .draining → ¬early y.1 → ill y.2.1 → gives y.2.2 [] 2 [] fun _ => True))
    ∧ (serves 1 0 → gives info [] 0 (leBytes 4 ((s.running.map FwImage.fwver).getD 0) ++ leBytes 4 ((s.running.map FwImage.svn).getD 0)
        ++ leBytes 1 (s.rd .DEV_STATE_BANK 0 + 2 * s.rd .DEV_STATE_NONAPPR 0 + 4 * s.rd .DEV_STATE_HR_PEND 0) ++ leBytes 7 0) fun _ => True)
    ∧ (serves 2 1 → 1 ≤ i → i ≤ 6 → gives meas [] 0 (s.measBlock i) fun _ => True)
    ∧ (serves 2 1 → ¬(1 ≤ i ∧ i ≤ 6) → gives meas [] 2 [] fun _ => True)
    ∧ (serves 3 2 → 62 < o → gives events [] 2 [] fun u => u.hostq = q)
    ∧ (serves 3 2 → o ≤ 62 → gives events [.MGT_EVSTAT_QUEUED] 0 (leBytes 2 (q.take o).length ++ leBytes 2 (q.length - o)
        ++ leBytes 4 ((s.rd .X_EV_TOTAL 0 + 2 ^ 32 - q.length) % 2 ^ 32) ++ leBytes 4 (s.rd .MGT_EVSTAT_LOST 0) ++ leBytes 4 0 ++ ((q.take o).map EvRec.image).flatten)
        fun u => u.hostq = q.drop o ∧ u.rd .MGT_EVSTAT_QUEUED 0 = (q.length - o) % 2 ^ 13)
    ∧ (serves 0x10 4 → o + k ≤ 65536 → k ≤ 1008 → gives nvm [] 0 (s.getNvms o k) fun _ => True)
    ∧ (serves 0x10 4 → ¬(o + k ≤ 65536 ∧ k ≤ 1008) → gives nvm [] 2 [] fun _ => True)
    ∧ (serves 0x20 1 → 4 ≤ i → gives budget [] 2 [] fun _ => True)
    ∧ (serves 0x20 1 → i < 4 → gives budget [.MGT_CTL_AUTO] 0 (s.budgetPay 0 ++ s.budgetPay 1) fun u => bitOf i 1 = true → u.on .MGT_CTL_AUTO 0 = bitOf i 0)
    ∧ (serves 0x20 1 → i < 2 → gives budget [] 0 (s.budgetPay 0 ++ s.budgetPay 1) fun _ => True)
    ∧ (serves 0x11 0 → s.on .CAL_STAT_WBBUSY 0 = true → gives back [] 3 [] fun _ => True)
    ∧ (serves 0x11 0 → s.on .CAL_STAT_WBBUSY 0 = false → 100000 ≤ s.rd (wearFld c) 0 → gives back [.CAL_STAT_WORN, .CAL_CMD_RESULT] 6 [3] fun u =>
        u.on .CAL_STAT_WORN 0 = true ∧ u.rd .CAL_CMD_RESULT 0 = 3)
    ∧ (serves 0x11 0 → s.on .CAL_STAT_WBBUSY 0 = false → s.rd (wearFld c) 0 < 100000 → DoesMailNvm s back
        (mailFlds ++ ([.CAL_STAT_WBBUSY, .CAL_CMD_RESULT, .CAL_STAT_COPY, wearFld c] : List Fld)) fun u => let code := if differs then 5 else 0
          s.answered u v (respMsg req code [BitVec.ofNat 8 code]) ∧ u.on .CAL_STAT_WBBUSY 0 = false ∧ u.rd .CAL_CMD_RESULT 0 = code
            ∧ (differs = false → u.rd .CAL_STAT_COPY 0 = c ∧ u.rd (wearFld c) 0 = (s.rd (wearFld c) 0 + 1) % 2 ^ (wearFld c).width)
            ∧ (differs = true → s.rd .X_INJ_LEFT 0 = 0 → s.sent u 1071 msgCHECK 0)
            ∧ ∀ d, ¬(0x4000 * c ≤ d ∧ d < 0x4000 * c + 0x4000) → ¬(0x8000 + 32 * c ≤ d ∧ d < 0x8000 + 32 * c + 32) → u.getNvm d = s.getNvm d)

/-- R469, R471, R474, R479, R480, R508: the firmware takes buffered events into the host event queue from SERVICE on, repeats the budget check, and answers MCTP control messages,
busy while a hot switch is under way, in the model's form (log entry 108). -/
def Obligations.FirmwareServices : Prop :=
  ∀ (s : State) (parity : Bool) (b : Bind) (eid : Byte) (wide : Option Bool),
    let drain := exec (.eventDrain parity) s
    let check := exec .budgetAutoCheck s
    let away := s.fwRuns = false ∨ s.hot = .switched ∨ s.dev = devINIT ∨ (s.dev = devHOLD ∧ s.rd .DEV_STATE_INITSTEP 0 ≠ 4)
    let full := 4096 ≤ s.hostq.length
    let checks := s.fwRuns = true ∧ s.on .MGT_CTL_AUTO 0 = true ∧ devSERVICE ≤ s.dev
    let up := s.dead = false ∧ s.mctpUp b = true
    let controls : List (Host.Outcome State Fault Refusal × List Byte) := [(exec (.getEndpointId b) s, 0 :: leBytes 1 (s.rd .X_EID b.ix)),
      (exec (.getMctpVersionSupport b) s, 0 :: Config.mctpVersions), (exec (.getMessageTypeSupport b) s, [0, 4, 0x00, 0x05, 0x06, 0x7E]),
      (exec (.getEndpointUuid b) s, 0 :: leBytes 16 Config.uuid)]
    (s.dead = false → s.evbuf = [] → DoesAt s drain [] fun u => u.hostq = s.hostq)
    ∧ (s.dead = false → away → DoesAt s drain [] fun u => u.evbuf = s.evbuf ∧ u.hostq = s.hostq)
    ∧ (∀ e q, s.dead = false → s.evbuf = e :: q → ¬away →
        Does s drain (sramFlds ++ ([.MGT_EVSTAT_LOST, .MGT_EVSTAT_QUEUED, .X_ALERT, .X_EV_TOTAL] : List Fld)) fun u =>
          u.evbuf = q ∧ u.hostq = (if full then s.hostq.drop 1 else s.hostq) ++ [e] ∧ u.rd .MGT_EVSTAT_QUEUED 0 = u.hostq.length % 2 ^ 13
            ∧ u.rd .X_EV_TOTAL 0 = (s.rd .X_EV_TOTAL 0 + 1) % 2 ^ 32
            ∧ u.rd .MGT_EVSTAT_LOST 0 = (if full then min (s.rd .MGT_EVSTAT_LOST 0 + 1) 65535 else s.rd .MGT_EVSTAT_LOST 0)
            ∧ (s.rd .X_INJ_LEFT 0 = 0 → parity = true → s.sent u 1074 msgCHECK 0)
            ∧ (¬(e.msg.src = 1055 ∧ e.msg.kind = msgCANCEL) → s.on .TW_ALERT_EN 0 = true → s.bit .TW_ALERT_CAUSES 0 0 = true → u.bit .X_ALERT 0 0 = true)
            ∧ (e.msg.src = 1055 → e.msg.kind = msgCANCEL → u.rd .X_ALERT 0 = s.rd .X_ALERT 0))
    ∧ (s.dead = false → ¬checks → DoesAt s check [] fun _ => True)
    ∧ (s.dead = false → checks → Does s check (.X_BUDGET :: sramFlds) fun u => (∀ t < 2, u.on .X_BUDGET t = s.warns t)
        ∧ (s.rd .X_INJ_LEFT 0 = 0 → s.fq.length < 63 →
            u.fq = s.fq ++ ([0, 1].filter fun t => s.warns t && !s.on .X_BUDGET t).map fun t => ⟨1072, msgLIMIT, t⟩))
    ∧ (s.dead = false → s.mctpUp b = false → DoesAt s (exec (.setEndpointId b eid wide) s) [] fun _ => True)
    ∧ (up → s.hot = .draining → Does s (exec (.setEndpointId b eid wide) s) sramFlds fun u => s.mctpGone u b [Config.mctpBusy])
    ∧ (up → s.hot ≠ .draining → Does s (exec (.setEndpointId b eid wide) s) (.X_EID :: .X_MCTP_TU :: sramFlds) fun u => u.rd .X_EID b.ix = eid.toNat ∧ s.mctpGone u b [0, eid]
        ∧ u.mctpUnit = if b.ix = 1 then (match wide with | none => s.mctpUnit | some w => if w then 256 else 64) else s.mctpUnit)
    ∧ ∀ y ∈ controls, (s.dead = false → s.mctpUp b = false → DoesAt s y.1 [] fun _ => True) ∧ (up → s.hot = .draining → Does s y.1 sramFlds fun u => s.mctpGone u b [Config.mctpBusy])
        ∧ (up → s.hot ≠ .draining → Does s y.1 sramFlds fun u => s.mctpGone u b y.2)

/-- R481, R482: the SPDM responder answers the stages of a connection, its certificates and measurements, signs with the device key of slot 0, and keeps at most two sessions across both
bindings. The order of the stages is the model's reading (log entry 61), and so are the codes
of the algorithms (log entry 106). -/
def Obligations.SpdmRequests : Prop :=
  ∀ (s : State) (b : Bind) (slot : Fin 8) (ofs len id : BitVec 16) (index : Byte) (signed : Bool),
    let version := exec (.getVersion b) s
    let caps := exec (.getCapabilities b) s
    let algs := exec (.negotiateAlgorithms b) s
    let digests := exec (.getDigests b) s
    let cert := exec (.getCertificate b slot ofs len) s
    let chal := exec (.challenge b slot) s
    let meas := exec (.getMeasurements b slot index signed) s
    let kex := exec (.keyExchange b slot) s
    let fin := exec (.finish b id) s
    let beat := exec (.heartbeat b id) s
    let upd := exec (.keyUpdate b id) s
    let bye := exec (.endSession b id) s
    let rows : List (Nat × Host.Outcome State Fault Refusal) := [(0, version), (1, caps), (2, algs), (3, digests), (3, cert), (3, chal), (3, meas), (3, kex),
      (0, fin), (0, beat), (0, upd), (0, bye)]
    let up := s.dead = false ∧ s.mctpUp b = true
    let at_ := fun (n : Nat) => up ∧ s.hot ≠ .draining ∧ n ≤ s.rd .X_SPDM b.ix
    let slotted := at_ 3 ∧ slot = 0
    let gives := fun (x : Host.Outcome State Fault Refusal) (l : List Fld) (a : SpdmAns) (m : List Byte) (P : State → Prop) =>
      Does s x (sramFlds ++ l) fun u => u.out.head? = some (.spdm b.ix a m) ∧ s.mctpGone u b m ∧ P u
    let free := fun (x : Host.Outcome State Fault Refusal) (l : List Fld) (n : Nat) (pre : List Byte) (P : State → Prop) =>
      Does s x (sramFlds ++ l) fun u => ∃ m : List Byte, m.length = n ∧ u.out.head? = some (.spdm b.ix .ok (pre ++ m)) ∧ s.mctpGone u b (pre ++ m) ∧ P u
    let shut := s.on .RND_STAT_ERROR 0 = true ∨ s.on .RND_STAT_DECOM 0 = true
    let busy := s.on .RND_STAT_BUSY 0 = true
    let signs := fun (x : Host.Outcome State Fault Refusal) (l : List Fld) (pre : List Byte) (P : State → Prop) => (shut → gives x [] .unspecified [] fun u => u.spdm = s.spdm)
      ∧ (¬shut → busy → gives x [] .busy [] fun u => u.spdm = s.spdm) ∧ (¬shut → ¬busy → free x l 96 pre P)
    let n := index.toNat
    let blocks := if n = 0 then [6] else if n = 255 then ([1, 2, 3, 4, 5, 6].map s.measBlock).flatten else s.measBlock n
    let mine := fun (est : Bool) => s.spdm.any fun x => x.id == id.toNat && x.binding == b.ix && x.established == est
    let new := (s.rd .X_SPDM_ID 0 + 1) % 2 ^ 16
    (∀ y ∈ rows, (s.dead = false → s.mctpUp b = false → DoesAt s y.2 [] fun u => u.out = [] ∧ u.spdm = s.spdm)
        ∧ (up → s.hot = .draining → gives y.2 [] .busy [] fun u => u.spdm = s.spdm)
        ∧ (up → s.hot ≠ .draining → s.rd .X_SPDM b.ix < y.1 → gives y.2 [] .unexpectedRequest [] fun u => u.spdm = s.spdm))
    ∧ (at_ 0 → gives version [.X_SPDM] .ok [0x00, 0x13] fun u => u.rd .X_SPDM b.ix = 1)
    ∧ (at_ 1 → free caps [.X_SPDM] 4 [] fun u => u.rd .X_SPDM b.ix = 2)
    ∧ (at_ 2 → gives algs [.X_SPDM] .ok [0x80, 0, 0, 0, 2, 0, 0, 0, 0x10, 0, 2, 0] fun u => u.rd .X_SPDM b.ix = 3)
    ∧ (at_ 3 → gives digests [] .ok (leBytes 1 1 ++ leBytes 48 Config.certDigest) fun _ => True)
    ∧ (at_ 3 → slot ≠ 0 → gives cert [] .invalidRequest [] (fun _ => True) ∧ gives chal [] .invalidRequest [] (fun _ => True) ∧ gives kex [] .invalidRequest [] (fun u => u.spdm = s.spdm)
        ∧ (signed = true → gives meas [] .invalidRequest [] fun _ => True))
    ∧ (slotted → gives cert [] .ok ((Config.certChain.drop ofs.toNat).take len.toNat) fun _ => True)
    ∧ (slotted → signs chal [] (leBytes 48 Config.certDigest) fun _ => True)
    ∧ (at_ 3 → n ≤ 6 ∨ n = 255 → signed = false → gives meas [] .ok blocks fun _ => True)
    ∧ (slotted → n ≤ 6 ∨ n = 255 → signed = true → signs meas [] blocks fun _ => True)
    ∧ (at_ 3 → 6 < n → n ≠ 255 → (signed = true → slot = 0) → gives meas [] .unspecified [] fun _ => True)
    ∧ (slotted → 2 ≤ s.spdm.length → gives kex [] .sessionLimitExceeded [] fun u => u.spdm = s.spdm)
    ∧ (slotted → s.spdm.length < 2 → signs kex [.X_SPDM_ID] (leBytes 2 new) fun u => u.rd .X_SPDM_ID 0 = new ∧ u.spdm = s.spdm ++ [⟨new, b.ix, false⟩])
    ∧ (at_ 0 → mine false = true → gives fin [] .ok [] fun u => u.spdm = s.spdm.map fun x => if x.id = id.toNat then ⟨x.id, x.binding, true⟩ else x)
    ∧ (at_ 0 → mine false = false → gives fin [] .invalidSession [] fun u => u.spdm = s.spdm)
    ∧ (at_ 0 → mine true = true → (gives beat [] .ok [] fun u => u.spdm = s.spdm) ∧ (gives upd [] .ok [] fun u => u.spdm = s.spdm)
        ∧ gives bye [] .ok [] fun u => u.spdm = s.spdm.filter fun x => x.id != id.toNat)
    ∧ (at_ 0 → mine true = false → (gives beat [] .invalidSession [] fun u => u.spdm = s.spdm) ∧ (gives upd [] .invalidSession [] fun u => u.spdm = s.spdm)
        ∧ gives bye [] .invalidSession [] fun u => u.spdm = s.spdm)

/-- R512, R513, R519, R523, R524, R529, R537, R538: a write of RND_CMD from the readout port begins a command, or sets CMDERR while one is in progress; NONCE,
CLOSE, CLEARKEY and ZEROISE end at once. R527 to R530, R532, R533, R537, R636: the end of the Rind's self-tests, and the debug instructions of the TAP at the
level in force. -/
def Obligations.RindCommands : Prop :=
  (∀ (s : State) (a b : Byte) (ok : Bool) (plain : Option (List Byte)),
     let rows : List (Nat × Nat × Nat × Bool × List Byte × Host.Outcome State Fault Refusal) := [(1, 0, 0, true, [], exec .nonce s), (2, 0, 0, ok, [], exec (.rndOpen ok) s),
       (3, 0, 0, true, [], exec .close s), (4, a.toNat, 0, plain.isSome, plain.getD [], exec (.loadpk a plain) s), (5, a.toNat, 0, true, [], exec (.genpk a) s),
       (6, a.toNat, b.toNat, plain.isSome, plain.getD [], exec (.loadide a b plain) s), (7, a.toNat, b.toNat, true, [], exec (.clearkey a b) s),
       (8, 0, 0, true, [], exec .zeroise s), (9, a.toNat, 0, true, [], exec (.advsvn a) s), (10, a.toNat, 0, true, [], exec (.enroll a) s),
       (11, a.toNat, 0, true, [], exec (.revoke a) s), (12, 0, 0, true, [], exec .selftest s), (13, 0, 0, ok, [], exec (.dbgunlock ok) s),
       (14, a.toNat, 0, true, [], exec (.decommission a) s)]
     let cmd := s.takes .port 0x500010
     let taken := s.rd .RND_CMD_RESULT 0 = 1
     let tests := s.on .RND_STAT_BUSY 0 = true
     ∀ y ∈ rows,
       (cmd → taken → DoesAt s y.2.2.2.2.2 [(.RND_STAT_CMDERR, 0)] fun u => u.on .RND_STAT_CMDERR 0 = true ∧ u.rjob = s.rjob)
       ∧ (cmd → ¬taken → (tests ∨ rndQuick y.1 = false) → DoesAt s y.2.2.2.2.2 [(.RND_CMD_RESULT, 0), (.RND_STAT_BUSY, 0)] fun u => u.rd .RND_CMD_RESULT 0 = 1
           ∧ u.rjob = some ⟨y.1, y.2.1, y.2.2.1, s.getWins 0x501000 1024, y.2.2.2.1, y.2.2.2.2.1, []⟩
           ∧ (y.1 = 12 → s.on .RND_STAT_ERROR 0 = false → u.on .RND_STAT_BUSY 0 = true) ∧ (y.1 ≠ 12 → u.rd .RND_STAT_BUSY 0 = s.rd .RND_STAT_BUSY 0))
       ∧ RindQuick s y.2.2.2.2.2 (fun c => cmd ∧ ¬taken ∧ ¬tests ∧ y.1 = c) y.2.1 y.2.2.1)
    ∧ ∀ (s : State) (ok : Bool) (i : TapIr) (token : List Byte),
      let test := exec (.rindSelftestDone ok) s
      let tests := s.on .RND_STAT_BUSY 0 = true
      let mine := ∃ j, s.rjob = some j ∧ j.cmd = 12
      let tap := exec (.tapInstruction i) s
      let auth := exec (.tapDbgauth token ok) s
      let ir := s.rd .X_TAP_IR 0 = TapIr.dbgauth.ctorIdx
      let wait := s.rindRuns = false ∨ s.rd .RND_CMD_RESULT 0 = 1 ∨ tests
      let err := s.on .RND_STAT_ERROR 0 = true
      let fails := ok = false ∧ (tests ∨ s.rindRuns = true ∧ ¬err)
      let tk := sliceBytes token 0 240
      let good := s.tokenOk tk = true ∧ ok = true
      (s.dead = false → ¬tests → ¬fails → DoesAt s test [] fun _ => True)
      ∧ (s.dead = false → tests → ok = true → ¬mine → DoesRind s test [.RND_STAT_BUSY, .RND_STAT_APPR] fun u => u.on .RND_STAT_BUSY 0 = false ∧ u.rjob = s.rjob
          ∧ u.on .RND_STAT_APPR 0 = (!s.unlocked && !s.on .RND_STAT_ERROR 0))
      ∧ (s.dead = false → tests → ok = true → mine → RindEnds s test [.RND_STAT_BUSY, .RND_STAT_APPR] (if err then 7 else 0) fun u => u.on .RND_STAT_BUSY 0 = false)
      ∧ (s.dead = false → fails → DoesRind s test (zeroFlds ++ ([.RND_CMD_RESULT, .RND_STAT_BUSY, .RND_STAT_APPR, .RND_STAT_ERROR, .DEV_STATE_LASTERR, .DEV_STATE_STATE,
            .FW_MBX_STAT_ACCEPTED, .FW_MBX_STAT_BUSY, .FW_MBX_STAT_ERR, .FW_MBX_TOTAL_TOTAL, .X_ALERT, .X_FW_CHK] : List Fld)) fun u =>
          u.on .RND_STAT_BUSY 0 = false ∧ u.on .RND_STAT_ERROR 0 = true ∧ u.on .RND_STAT_APPR 0 = false ∧ s.zeroised u
            ∧ (s.fq.length < 64 → ⟨1056, msgSECURITY, 0⟩ ∈ u.fq) ∧ (tests → mine → u.rd .RND_CMD_RESULT 0 = 7)
            ∧ (s.on .X_FW_CHK 0 = true → u.rd .DEV_STATE_LASTERR 0 = 4 ∧ u.on .FW_MBX_STAT_ERR 0 = true))
      ∧ (s.dead = false → tapLevel i ≤ s.rd .RND_STAT_DBGLVL 0 → DoesAt s tap [(.X_TAP_IR, 0)] fun u => u.rd .X_TAP_IR 0 = i.ctorIdx ∧ u.out = [.tdo (tapOut i)])
      ∧ (s.dead = false → s.rd .RND_STAT_DBGLVL 0 < tapLevel i → Does s tap (.X_TAP_IR :: msgFlds) fun u => u.rd .X_TAP_IR 0 = TapIr.bypass.ctorIdx ∧ u.out = [.tdo 0]
          ∧ s.sent u 1073 msgREFUSE (s.rd .RND_STAT_DBGLVL 0))
      ∧ (s.dead = false → ¬ir → DoesAt s auth [] fun u => u.out = [])
      ∧ (s.dead = false → ir → wait → DoesAt s auth [] fun u => u.out = [.tdo 1])
      ∧ (s.dead = false → ir → ¬wait → err → DoesAt s auth [] fun u => u.out = [.tdo 7])
      ∧ (s.dead = false → ir → ¬wait → ¬err → ¬good → DoesRind s auth [] fun u => u.out = [.tdo 4])
      ∧ (s.dead = false → ir → ¬wait → ¬err → good → DoesRind s auth (zeroFlds ++ ([.RND_STAT_DBGLVL, .DEV_STATE_NONAPPR, .RND_STAT_APPR] : List Fld)) fun u => .tdo 0 ∈ u.out
          ∧ s.zeroised u ∧ u.rd .RND_STAT_DBGLVL 0 = (tk.getD 4 0).toNat ∧ u.on .DEV_STATE_NONAPPR 0 = true)

/-- R517 to R526, R528, R530 to R533, R536 to R538: the result and the effect of each command of the Rind when it ends, with RND_IN cleared. That LOADIDE sets
IDE_STAT.SYNC is the model's choice (log 90). -/
def Obligations.RindOutcomes : Prop :=
  ∀ (s : State) (j : RindJob),
    let done := exec .rindCommandDone s
    let tests := s.on .RND_STAT_BUSY 0 = true
    let runs := fun (c : Nat) => s.dead = false ∧ ¬tests ∧ s.rjob = some j ∧ j.cmd = c
    let can := fun (c : Nat) => runs c ∧ s.rndBarred c = false ∧ (s.needsSess c = true → s.on .RND_STAT_SESS 0 = true)
    let ends := RindEnds s done
    let i := j.arg0
    let slot := (j.input.getD 0 0).toNat
    let ill := 4 ≤ slot ∨ leNat (sliceBytes j.input 1 7) ≠ 0
    let signed := s.bit .RND_STAT_OPSLOT 0 slot = true ∧ s.bit .RND_STAT_OPREV 0 slot = false ∧ nget s.opHash [] slot = sliceBytes j.input 8 96 ∧ j.ok = true
    let p := j.plain
    let pkBad := j.ok = false ∨ p.length ≠ 72 ∨ p.take 8 ≠ [1] ++ leBytes 1 i ++ leBytes 6 0
    let pkSame := sliceBytes p 8 32 = sliceBytes p 40 32
    let used := s.punEncOn i = true
    let ideNo := 128 ≤ i ∨ 2 ≤ j.arg1
    let ideBad := j.ok = false ∨ p.length ≠ 128 ∨ p.take 8 ≠ [2] ++ leBytes 1 i ++ leBytes 1 j.arg1 ++ leBytes 5 0
    let ideUsed := s.rd .X_IDE_LAST i = 1 + j.arg1
    let full := s.rd .RND_STAT_ASC 0 = 64
    let enrolled := s.bit .RND_STAT_OPSLOT 0 i = true ∨ s.bit .RND_STAT_OPREV 0 i = true
    let unlocks := s.tokenOk (j.input.take 240) = true ∧ j.ok = true
    let lvl := ((j.input.take 240).getD 4 0).toNat
    let drops := s.on .DEV_STATE_HR_PEND 0 = true ∧ ∃ x, s.idleImage = some x ∧ x.svn < i
    (s.dead = false → (tests ∨ s.rjob = none) → DoesAt s done [] fun u => u.rjob = s.rjob)
    ∧ RindQuick s done runs i j.arg1
    ∧ (∀ c < 15, runs c → s.rndBarred c = true → ends [] 7 fun _ => True)
    ∧ (∀ c < 15, runs c → s.rndBarred c = false → s.needsSess c = true → s.on .RND_STAT_SESS 0 = false → ends [] 2 fun _ => True)
    ∧ (can 2 → ill → ends [] 3 fun u => u.klk = s.klk)
    ∧ (can 2 → ¬ill → ¬signed → ends [] 4 fun u => u.klk = s.klk)
    ∧ (can 2 → ¬ill → signed → ends [.RND_STAT_SESS, .X_RND_SLOT] 0 fun u => u.on .RND_STAT_SESS 0 = true ∧ u.rd .X_RND_SLOT 0 = slot ∧ u.klk.isSome = true)
    ∧ (can 4 → pkBad → ends [] 5 fun u => u.pkeys = s.pkeys)
    ∧ (can 4 → ¬pkBad → pkSame → ends [] 3 fun u => u.pkeys = s.pkeys)
    ∧ (can 4 → ¬pkBad → ¬pkSame → used → ends [] 6 fun u => u.pkeys = s.pkeys)
    ∧ (can 4 → ¬pkBad → ¬pkSame → ¬used → ends [.RND_PKEY_LOADED] 0 fun u => u.punKey i = some (leNat (p.drop 8))
        ∧ u.bit .RND_PKEY_LOADED (i / 32) (i % 32) = true)
    ∧ (can 5 → used → ends [] 6 fun u => u.pkeys = s.pkeys)
    ∧ (can 5 → ¬used → ends [.RND_PKEY_LOADED] 0 fun u => (u.punKey i).isSome = true ∧ u.bit .RND_PKEY_LOADED (i / 32) (i % 32) = true)
    ∧ (can 6 → ideNo → ends [] 3 fun u => u.ikeys = s.ikeys)
    ∧ (can 6 → ¬ideNo → ideBad → ends [] 5 fun u => u.ikeys = s.ikeys)
    ∧ (can 6 → ¬ideNo → ¬ideBad → ideUsed → ends [] 6 fun u => u.ikeys = s.ikeys)
    ∧ (can 6 → ¬ideNo → ¬ideBad → ¬ideUsed → ends [.RND_IKEY_LOADED, .IDE_STAT_KEY, .IDE_STAT_SYNC] 0 fun u => u.ikey i j.arg1 = some (p.drop 8) ∧ u.on .IDE_STAT_KEY i = true ∧ u.on .IDE_STAT_SYNC i = true
        ∧ u.bit .RND_IKEY_LOADED (i / 16) (2 * (i % 16) + j.arg1) = true)
    ∧ (can 9 → full → ends [] 8 fun _ => True)
    ∧ (can 9 → ¬full → s.advRange i = false → ends [] 9 fun _ => True)
    ∧ (can 9 → ¬full → s.advRange i = true → ¬drops → ends [.RND_STAT_ASC] 0 fun u => u.rd .RND_STAT_ASC 0 = i % 2 ^ Fld.RND_STAT_ASC.width)
    ∧ (can 9 → ¬full → s.advRange i = true → drops → ends [.RND_STAT_ASC, .DEV_STATE_HR_PEND] 0 fun u => u.rd .RND_STAT_ASC 0 = i % 2 ^ Fld.RND_STAT_ASC.width
        ∧ u.on .DEV_STATE_HR_PEND 0 = false ∧ u.idleImage = none)
    ∧ (can 10 → 4 ≤ i → ends [] 3 fun _ => True)
    ∧ (can 10 → i < 4 → enrolled → ends [] 8 fun u => u.opHash = s.opHash)
    ∧ (can 10 → i < 4 → ¬enrolled → ends [.RND_STAT_OPSLOT] 0 fun u => u.bit .RND_STAT_OPSLOT 0 i = true ∧ nget u.opHash [] i = j.input.take 96)
    ∧ (can 11 → 4 ≤ i → ends [] 3 fun _ => True)
    ∧ (can 11 → i < 4 → s.rd .X_RND_SLOT 0 = i → ends [] 2 fun _ => True)
    ∧ (can 11 → i < 4 → s.rd .X_RND_SLOT 0 ≠ i → s.bit .RND_STAT_OPREV 0 i = true → ends [] 8 fun _ => True)
    ∧ (can 11 → i < 4 → s.rd .X_RND_SLOT 0 ≠ i → s.bit .RND_STAT_OPREV 0 i = false → ends [.RND_STAT_OPREV] 0 fun u => u.bit .RND_STAT_OPREV 0 i = true)
    ∧ (can 12 → ends [] 0 fun _ => True)
    ∧ (can 13 → ¬unlocks → ends [] 4 fun u => u.pkeys = s.pkeys)
    ∧ (can 13 → unlocks → ends (zeroFlds ++ ([.RND_STAT_DBGLVL, .DEV_STATE_NONAPPR, .RND_STAT_APPR] : List Fld)) 0 fun u => s.zeroised u ∧ u.rd .RND_STAT_DBGLVL 0 = lvl
        ∧ u.on .DEV_STATE_NONAPPR 0 = true ∧ u.on .RND_STAT_APPR 0 = false)
    ∧ (can 14 → i ≠ 0xA5 → ends [] 3 fun u => u.pkeys = s.pkeys)
    ∧ (can 14 → i = 0xA5 → ends (.RND_STAT_DECOM :: zeroFlds) 0 fun u => s.zeroised u ∧ u.on .RND_STAT_DECOM 0 = true)

/-- R35, R39 to R42, R45, R48, R49, R54, R55, R648, R649: chunks of an image load in order for the route that owns the load, ABORT discards them, DONE starts the checks; an image that
passes them starts the firmware in INIT or waits in the idle bank, and one that fails is discarded with its code in LASTERR. What GO and DONE do during checks, and with a TARGET that the state does not
allow, is the model's choice (log entries 51, 107). -/
def Obligations.FirmwareLoads : Prop :=
  ∀ (s : State) (r : Route) (target : Fin 4) (key : KeyVerdict) (keyid sig hash : Bool),
    let cmd := s.takes r 0x8000
    let go := exec (.fwMbxGo r target) s
    let abort := exec (.fwMbxAbort r target) s
    let done := exec (.fwMbxDone r target) s
    let checked := exec (.imageCheckDone key keyid sig hash) s
    let tgt := if target.val ≤ 1 then target.val else s.rd .FW_MBX_CTL_TARGET 0
    let idle := match s.fwLoad with | some l => l.idle | none => tgt == 1
    let had := match s.fwLoad with | some l => l.bytes | none => []
    let n := s.rd .FW_MBX_LEN_LEN 0
    let shut := s.on .X_FW_CHK 0 = true ∨ s.loadOk idle = false
    let taken := s.loadTaken .port = true
    let ordered := s.rd .FW_MBX_OFS_OFS 0 = s.rd .FW_MBX_TOTAL_TOTAL 0
    let fails := fun (x : Host.Outcome State Fault Refusal) (code : Nat) => DoesAt s x [(.FW_MBX_CTL_TARGET, 0), (.DEV_STATE_LASTERR, 0), (.FW_MBX_STAT_ERR, 0)] fun u =>
      u.rd .FW_MBX_CTL_TARGET 0 = tgt ∧ u.rd .DEV_STATE_LASTERR 0 = code ∧ u.on .FW_MBX_STAT_ERR 0 = true ∧ u.fwLoad = s.fwLoad
    let only := fun (x : Host.Outcome State Fault Refusal) => DoesAt s x [(.FW_MBX_CTL_TARGET, 0)] fun u => u.rd .FW_MBX_CTL_TARGET 0 = tgt ∧ u.fwLoad = s.fwLoad
    let checks := s.dead = false ∧ s.on .X_FW_CHK 0 = true ∧ s.on .RND_STAT_BUSY 0 = false
    let code := fun (l : FwLoad) => s.imageCode l key keyid sig hash
    (s.dead = false → s.on .X_PERSTN_HIGH 0 = true → s.bit .X_REF_DONE 0 4 = true → DoesAt s (exec .readoutReady s) [(.X_PORT_UP, 0)] fun u => u.on .X_PORT_UP 0 = true)
    ∧ (s.dead = false → ¬(s.on .X_PERSTN_HIGH 0 = true ∧ s.bit .X_REF_DONE 0 4 = true) → DoesAt s (exec .readoutReady s) [] fun _ => True)
    ∧ (cmd → n = 0 → DoesAt s go [(.FW_MBX_CTL_TARGET, 0), (.FW_MBX_STAT_ERR, 0)] fun u => u.on .FW_MBX_STAT_ERR 0 = false ∧ u.fwLoad = s.fwLoad)
    ∧ (cmd → n ≠ 0 → taken → fails go 7)
    ∧ (cmd → n ≠ 0 → ¬taken → shut → only go)
    ∧ (cmd → n ≠ 0 → ¬shut → ¬taken → ¬ordered → fails go 8)
    ∧ (cmd → n ≠ 0 → ¬shut → ¬taken → ordered → DoesPend s go fwFlds fun u => u.fwLoad = some ⟨.port, idle, had ++ s.getWins 0xC000 n⟩ ∧ u.on .FW_MBX_STAT_ERR 0 = false
        ∧ u.rd .FW_MBX_TOTAL_TOTAL 0 = (s.rd .FW_MBX_TOTAL_TOTAL 0 + n) % 2 ^ Fld.FW_MBX_TOTAL_TOTAL.width
        ∧ (s.fwLoad = none → (idle = false → u.dev = devLOAD) ∧ (idle = true → u.on .DEV_STATE_HR_PEND 0 = false ∧ u.idleImage = none)))
    ∧ (cmd → s.fwLoad = none → only abort)
    ∧ (∀ l, cmd → s.fwLoad = some l → DoesPend s abort fwFlds fun u => u.fwLoad = none ∧ u.rd .FW_MBX_TOTAL_TOTAL 0 = 0 ∧ u.on .FW_MBX_STAT_BUSY 0 = false
        ∧ u.on .X_FW_CHK 0 = false ∧ u.dev = (if l.idle = false ∧ s.dev = devLOAD then devROM else s.dev))
    ∧ (cmd → taken → fails done 7)
    ∧ (cmd → ¬taken → shut → only done)
    ∧ (cmd → ¬shut → ¬taken → DoesAt s done [(.FW_MBX_CTL_TARGET, 0), (.X_FW_CHK, 0), (.FW_MBX_STAT_BUSY, 0)] fun u => u.on .X_FW_CHK 0 = true
        ∧ u.on .FW_MBX_STAT_BUSY 0 = true ∧ u.fwLoad = some ⟨.port, idle, had⟩)
    ∧ (s.dead = false → (s.fwLoad = none ∨ s.on .X_FW_CHK 0 = false ∨ s.on .RND_STAT_BUSY 0 = true) → DoesAt s checked [] fun u => u.fwLoad = s.fwLoad)
    ∧ (∀ l, checks → s.fwLoad = some l → code l ≠ 0 → DoesPend s checked fwFlds fun u => u.rd .DEV_STATE_LASTERR 0 = code l ∧ u.on .FW_MBX_STAT_ERR 0 = true
        ∧ u.on .FW_MBX_STAT_ACCEPTED 0 = false ∧ u.fwLoad = none ∧ u.dev = (if l.idle = false ∧ s.dev = devLOAD then devROM else s.dev))
    ∧ (∀ l, checks → s.fwLoad = some l → code l = 0 → l.idle = true → DoesPend s checked fwFlds fun u => u.on .FW_MBX_STAT_ACCEPTED 0 = true
        ∧ u.on .FW_MBX_STAT_ERR 0 = false ∧ u.on .DEV_STATE_HR_PEND 0 = true ∧ u.fwLoad = none ∧ u.idleImage = some (imageOf l.bytes) ∧ u.dev = s.dev)
    ∧ (∀ l, checks → s.fwLoad = some l → code l = 0 → l.idle = false → DoesMailNvm s checked bootFlds fun u => (s.repBad = [] → ∀ a, u.getNvm a = s.getNvm a) ∧ u.dev = devINIT ∧ u.rd .DEV_STATE_INITSTEP 0 = 1
        ∧ u.fwLoad = none ∧ u.rd .DEV_STATE_BANK 0 = 0 ∧ u.running = some (imageOf l.bytes) ∧ u.on .DEV_STATE_NONAPPR 0 = engOf l.bytes ∧ u.on .X_FWUP 0 = true
        ∧ u.rd .MB_STAT_NOFW 0 = 0 ∧ u.on .FW_MBX_STAT_ACCEPTED 0 = true)

/-- R26 to R28, R50, R51, R402, R407, R431, R527, R603, R649: INIT's steps lead to SERVICE, or to HOLD when the self-test leaves a channel that cannot be repaired or retired;
IDLE needs every path DARK and no descriptor in progress, and puts the towers in self-refresh; STANDBY drops keys and sessions and keeps memories; a wake returns to IDLE. -/
def Obligations.InitAndLowPower : Prop :=
  ∀ (s : State) (r : Route) (tsvs : List (Fin 2 × Fin 16 × Fin 160)) (words : List (BitVec 38 × Fin 5)) (busy : BitVec 39) (hashOk : Bool),
    let step_ := exec (.initStepDone tsvs words) s
    let at_ := fun (n : Nat) => s.dead = false ∧ s.dev = devINIT ∧ s.rd .DEV_STATE_INITSTEP 0 = n
    let fresh := fun (t : Nat) => s.towerFresh t = true
    let none_ := ¬fresh 0 ∧ ¬fresh 1
    let found := selfTest s tsvs words
    let spares : List Fld := [.REP_SPARE_HARD, .REP_SPARE_ROWS, .REP_SPARE_TSV]
    let cmd := s.takes r 0x18
    let idle := exec (.enterIdle r busy) s
    let exit_ := exec (.exitIdle r busy) s
    let stby := exec (.enterStandby r) s
    let wake_ := exec (.standbyWake hashOk) s
    let free := s.hot = .none
    let no := fun (x : Host.Outcome State Fault Refusal) (code : Nat) => DoesAt s x [(.DEV_CMD_RESULT, 0)] fun u => u.rd .DEV_CMD_RESULT 0 = code
    let shown : List Fld := [.CH_STAT_STATE, .CLK_GPEND_GATE_PEND, .DEV_CMD_RESULT, .DEV_STATE_STATE, .PWR_STAT_ON, .TWR_STAT_STATE, .X_ALERT]
    let kept := fun (u : State) => u.imem = s.imem ∧ u.dmem = s.dmem ∧ u.tower = s.tower ∧ u.nvm = s.nvm
    let lost := fun (f : Fld) => f.standbyLoses = true ∨ f ∈ [Fld.MB_STAT_PEND, .MB_STAT_RSP, .MB_STAT_ERR, .TW_MBSTAT_PEND, .TW_MBSTAT_RSP, .TW_MBSTAT_ERR,
      .REP_STAT_NVMPEND, .STRM_CFG_PEND] ∨ f.blk = .timebase ∨ f.blk = .vine
    let moved : List Fld := shown ++ portFlds ++ ([.FLT_INJ_BUSY, .FM_CTL_BUSY, .FW_MBX_STAT_BUSY, .FW_MBX_TOTAL_TOTAL, .HK_STAT_AONMODE, .MB_STAT_NOFW, .TW_MBSTAT_NOFW, .X_CLKR, .X_CORE,
      .X_FWUP, .X_FW_CHK, .X_FW_WR, .X_INJ_LEFT, .X_PCI_EFF, .X_SPDM, .X_MCTP_N] : List Fld)
    (s.dead = false → (s.dev ≠ devINIT ∨ ¬(1 ≤ s.rd .DEV_STATE_INITSTEP 0 ∧ s.rd .DEV_STATE_INITSTEP 0 ≤ 3)) → DoesAt s step_ [] fun _ => True)
    ∧ (at_ 1 → ¬none_ → Does s step_ [.TWR_STAT_STATE, .CH_STAT_STATE, .DEV_STATE_INITSTEP] fun u => u.rd .DEV_STATE_INITSTEP 0 = 2
        ∧ ∀ t < 2, ¬fresh t → u.rd .TWR_STAT_STATE t = 1)
    ∧ (at_ 1 → none_ → DoesPend s step_ [.TWR_STAT_STATE, .CH_STAT_STATE, .DEV_STATE_INITSTEP, .DEV_STATE_STATE, .X_ALERT] fun u => u.dev = devSERVICE
        ∧ u.rd .DEV_STATE_INITSTEP 0 = 4 ∧ ∀ t < 2, u.rd .TWR_STAT_STATE t = 1)
    ∧ (at_ 2 → found.1 = false → DoesNvm s step_ (spares ++ ([.REP_STAT_NVMPEND, .REP_STAT_RCH, .REP_STAT_RETIRED, .DEV_STATE_INITSTEP] : List Fld)) fun u =>
        u.rd .DEV_STATE_INITSTEP 0 = 3 ∧ u.reps = found.2.reps ∧ (tsvs = [] → words = [] → u.reps = s.reps ∧ u.nvm = s.nvm))
    ∧ (at_ 2 → found.1 = true → ∃ u, step_ = .next u ∧ u.dev = devHOLD)
    ∧ (at_ 3 → ∃ u, step_ = .next u ∧ u.dev = devSERVICE ∧ u.rd .DEV_STATE_INITSTEP 0 = 4 ∧ (∀ t < 2, fresh t → u.rd .TWR_STAT_STATE t = 1)
        ∧ (∀ e ∈ u.tower, e ∈ s.tower ∧ ∀ t < 2, e.1 / 0x800000 / 1536 = t → ¬fresh t) ∧ s.fldsBut u [.TWR_STAT_STATE, .CH_STAT_STATE, .DEV_STATE_INITSTEP, .DEV_STATE_STATE, .X_ALERT]
        ∧ u.imem = s.imem ∧ u.dmem = s.dmem ∧ u.nvm = s.nvm)
    ∧ (cmd → ¬free → ∀ y ∈ [idle, exit_, stby], DoesAt s y [] fun u => u.hot = s.hot)
    ∧ (cmd → free → (s.dev ≠ devSERVICE → no idle 2) ∧ (s.dev ≠ devIDLE → no exit_ 2 ∧ no stby 2) ∧ (s.dev = devSERVICE → s.mayIdle = false → no idle 1))
    ∧ (cmd → free → s.dev = devSERVICE → s.mayIdle = true → ∃ u, idle = .next u ∧ u.dev = devIDLE ∧ u.rd .DEV_CMD_RESULT 0 = 0 ∧ kept u
        ∧ (∀ d ∈ idleOff, u.bit .PWR_STAT_ON 0 d = false) ∧ (∀ t < 2, s.twrActive t = true → u.rd .TWR_STAT_STATE t = 2)
        ∧ (∀ f i, f.idleLoses = true → u.rd f i = State.reset.rd f i) ∧ ∀ f i, f.idleLoses = false → f ∉ shown → u.rd f i = s.rd f i)
    ∧ (cmd → free → s.dev = devIDLE → DoesPendNvm s exit_ (shown ++ spares ++ msgFlds) fun u => ((s.repBad = [] ∨ s.mgmtAway = true) → ∀ a, u.getNvm a = s.getNvm a) ∧ u.dev = devSERVICE ∧ u.rd .DEV_CMD_RESULT 0 = 0
        ∧ (∀ d ∈ [34, 35], u.bit .PWR_STAT_ON 0 d = !s.bit .PWR_OFF_OFF 0 d) ∧ ∀ t < 2, s.rd .TWR_STAT_STATE t = 2 → s.clkFailed (16 + t) = false → u.rd .TWR_STAT_STATE t = 1)
    ∧ (cmd → free → s.dev = devIDLE → ∃ u, stby = .next u ∧ u.dev = devSTANDBY ∧ u.rd .DEV_CMD_RESULT 0 = 0 ∧ kept u ∧ u.evbuf = s.evbuf ∧ u.klk = none ∧ u.pkeys = []
        ∧ u.ikeys = [] ∧ u.spdm = [] ∧ u.on .X_FWUP 0 = false ∧ (∀ d < 56, u.bit .PWR_STAT_ON 0 d = false) ∧ (∀ t < 2, u.rd .TWR_STAT_STATE t = 2)
        ∧ (∀ f i, lost f → f ∉ moved → u.rd f i = State.reset.rd f i) ∧ ∀ f i, ¬lost f → f ∉ moved → u.rd f i = s.rd f i)
    ∧ (s.dead = false → s.dev ≠ devSTANDBY → DoesAt s wake_ [] fun _ => True)
    ∧ (s.dead = false → s.dev = devSTANDBY → (hashOk = true ∨ s.running = none) → DoesPend s wake_ (msgFlds ++ trimFlds ++ spares
          ++ ([.DEV_STATE_STATE, .X_ALERT, .HK_STAT_AONMODE, .RND_STAT_BUSY, .F5_STAT_ACT, .SEQ_TSTAT_STATE, .PWR_STAT_ON, .X_CORE] : List Fld)) fun u =>
        u.dev = devIDLE ∧ u.on .RND_STAT_BUSY 0 = true ∧ u.on .HK_STAT_AONMODE 0 = false ∧ (s.running ≠ none → u.rd .X_CORE 0 = 2)
          ∧ (∀ d < 56, d ∉ idleOff → u.bit .PWR_STAT_ON 0 d = !s.bit .PWR_OFF_OFF 0 d) ∧ ∀ g < 16, s.bit .F5_CTL_EN 0 g = true → ∀ t < 4, u.rd .SEQ_TSTAT_STATE (4 * g + t) = tRUNNING)
    ∧ (s.dead = false → s.dev = devSTANDBY → hashOk = false → s.running ≠ none → ∃ u, wake_ = .next u
        ∧ u.dev = (if s.rd .DEV_CTL_HOLD_ON_CHIP 0 ≠ 0 then devHOLD else devROM) ∧ u.rd .FLT_RSTCAUSE_SOURCE 0 = 1072 ∧ u.rd .FLT_RSTCAUSE_VALID 0 = 1)

/-- R53, R56 to R58, R466, R548, R599: a hot switch to the image of the idle bank: it begins in SERVICE or IDLE with HR_PEND, the bank switches at the quiescent point, and the
firmware that then reports ready ends it; without a quiescent point or without ready firmware the old bank stays or comes back. -/
def Obligations.HotReload : Prop :=
  ∀ (s : State) (r : Route),
    let begin_ := exec (.hotSwitch r) s
    let quiet := exec .hotSwitchQuiescent s
    let late := exec .hotSwitchTimeout s
    let ready := exec .fwReady s
    let back := exec .switchBack s
    let stops := s.hot = .draining ∧ s.on .X_FWUP 0 = true ∧ s.fwFree = true
    (s.takes r 0x18 → s.hot ≠ .none → DoesAt s begin_ [] fun u => u.hot = s.hot)
    ∧ (s.takes r 0x18 → s.hot = .none → s.maySwitch = false → DoesAt s begin_ [(.DEV_CMD_RESULT, 0)] fun u => u.rd .DEV_CMD_RESULT 0 = 2 ∧ u.hot = .none)
    ∧ (s.takes r 0x18 → s.hot = .none → s.maySwitch = true → DoesAt s begin_ [(.DEV_CMD_RESULT, 0)] fun u => u.rd .DEV_CMD_RESULT 0 = 3 ∧ u.hot = .draining)
    ∧ (s.dead = false → ¬stops → DoesAt s quiet [] fun u => u.hot = s.hot)
    ∧ (s.dead = false → stops → Does s quiet [.DEV_STATE_BANK, .MB_STAT_NOFW, .TW_MBSTAT_NOFW, .X_CORE, .X_FWUP, .X_SPDM, .X_MCTP_N] fun u => u.hot = .switched
        ∧ u.on .DEV_STATE_BANK 0 = (!s.on .DEV_STATE_BANK 0) ∧ u.rd .X_CORE 0 = 2 ∧ u.on .X_FWUP 0 = false ∧ u.rd .MB_STAT_NOFW 0 = 1 ∧ u.spdm = [])
    ∧ (s.dead = false → s.hot ≠ .draining → DoesAt s late [] fun u => u.hot = s.hot)
    ∧ (s.dead = false → s.hot = .draining → DoesAt s late [(.DEV_CMD_RESULT, 0), (.DEV_STATE_LASTERR, 0)] fun u => u.hot = .none ∧ u.rd .DEV_CMD_RESULT 0 = 4
        ∧ u.rd .DEV_STATE_LASTERR 0 = 0x0A)
    ∧ (s.dead = false → s.rd .X_CORE 0 ≠ 2 → DoesAt s ready [] fun u => u.hot = s.hot)
    ∧ (s.dead = false → s.rd .X_CORE 0 = 2 → DoesMailNvm s ready (mailFlds ++ ([.DEV_CMD_RESULT, .DEV_STATE_HR_PEND, .FLT_GSTAT_TRAPPEND, .MB_STAT_NOFW, .RST_CMD_RESULT,
          .TW_MBSTAT_NOFW, .X_CORE, .X_CORE_CMD, .X_FWUP] : List Fld)) fun u => (s.repBad = [] → ∀ a, u.getNvm a = s.getNvm a) ∧ u.rd .X_CORE 0 = 0 ∧ u.on .X_FWUP 0 = true ∧ u.rd .MB_STAT_NOFW 0 = 0
        ∧ (s.hot = .switched → u.hot = .none ∧ u.rd .DEV_CMD_RESULT 0 = 0 ∧ u.on .DEV_STATE_HR_PEND 0 = false) ∧ (s.hot ≠ .switched → u.hot = s.hot)
        ∧ (s.on .X_CORE_CMD 0 = true → u.rd .RST_CMD_RESULT 0 = 0) ∧ (s.on .FLT_GSTAT_TRAPPEND 0 = true → u.on .FLT_GSTAT_TRAPPEND 0 = false ∧ .trap ∈ u.out))
    ∧ (s.dead = false → s.hot ≠ .switched → DoesAt s back [] fun u => u.hot = s.hot)
    ∧ (s.dead = false → s.hot = .switched → DoesAt s back [(.DEV_STATE_BANK, 0), (.DEV_STATE_LASTERR, 0), (.DEV_CMD_RESULT, 0), (.X_CORE, 0)] fun u => u.hot = .none
        ∧ u.on .DEV_STATE_BANK 0 = (!s.on .DEV_STATE_BANK 0) ∧ u.rd .DEV_STATE_LASTERR 0 = 0x0B ∧ u.rd .DEV_CMD_RESULT 0 = 5 ∧ u.rd .X_CORE 0 = 1)

/-- R638 to R644: a grove enters or leaves the profile only with its paths DARK and its threads stopped, with a GROVE reset; a mode word is refused with the code of its first
refusal and nothing else changed, or makes the native writes and holds what was written. -/
def Obligations.ProfileWrites : Prop :=
  ∀ (s : State) (r : Route) (v : DW) (g j : Fin 16),
    let ctl := exec (.f5CtlWrite r v) s
    let w := v.toNat
    let change := fun (g : Nat) => bitOf w g ≠ s.bit .F5_CTL_EN 0 g ∧ s.f5May g = true
    let ofGrove := fun (f : Fld) (i g : Nat) => f.perGrove ≠ 0 ∧ i / f.perGrove = g
    let mode := exec (.f5ModeWrite r g j v) s
    let at_ := s.takes r (0x701000 + 0x100 * g.val + 4 * j.val)
    let n := 16 * g.val + j.val
    let o := s.f5Word n
    let x := o.written w
    let c := s.f5Code n o x
    let dark := (lanesFrom (n / 16) (n % 16) (2 ^ x.width)).all s.laneDark
    let y := if dark then f5Rate (f5Link s.start n x) n x else s.start
    let y := if x.modes.1 = mSOURCE then f5Gen y (2 * n) x.pat else y
    let y := if x.modes.2 = mSOURCE then f5Gen y (2 * n + 1) x.pat else y
    let code := (chgHost y n x.modes.1 x.modes.2 true).1
    let refused := fun (k : Nat) => DoesAt s mode [(.F5_MODE_CODE, n)] fun u => u.rd .F5_MODE_CODE n = k % 2 ^ Fld.F5_MODE_CODE.width
    (s.takes r 0x700000 → ∃ u, ctl = .next u ∧ u.rd .F5_CTL_CAP 0 = w / 2 ^ 16 ∧ u.tower = s.tower ∧ u.nvm = s.nvm ∧ u.win = s.win
      ∧ (∀ g < 16, (bitOf w g = s.bit .F5_CTL_EN 0 g ∨ change g → u.bit .F5_CTL_EN 0 g = bitOf w g)
        ∧ (bitOf w g ≠ s.bit .F5_CTL_EN 0 g → s.f5May g = false → u.bit .F5_CTL_EN 0 g = s.bit .F5_CTL_EN 0 g ∧ u.on .F5_STAT_CTLERR 0 = true)
        ∧ (change g → u.profiled g = bitOf w g ∧ u.on .SEQ_CTL_CLRBUSY g = true ∧ (∀ k < 16384, u.getI g k = 0)
          ∧ (∀ t < 4, u.rd .SEQ_TSTAT_STATE (4 * g + t) = if bitOf w g then tRUNNING else tHALTED)
          ∧ ∀ f ∈ wordFlds, ∀ k < 16, u.rd f (16 * g + k) = State.reset.rd f (16 * g + k))
        ∧ (¬change g → (∀ k < 16384, u.getI g k = s.getI g k) ∧ ∀ k < 4096, u.getD g k = s.getD g k))
      ∧ ∀ f i, (∀ g < 16, change g → ¬ofGrove f i g) → f ∉ groveFlds ++ ([.F5_CTL_CAP, .F5_CTL_EN, .F5_STAT_CTLERR] : List Fld) → u.rd f i = s.rd f i)
    ∧ (at_ → s.bit .F5_CTL_EN 0 g = false → DoesAt s mode [] fun _ => True)
    ∧ (at_ → s.bit .F5_CTL_EN 0 g = true → c ≠ 0 → refused c)
    ∧ (at_ → s.bit .F5_CTL_EN 0 g = true → c = 0 → code ≠ 0 → refused code)
    ∧ (at_ → s.bit .F5_CTL_EN 0 g = true → c = 0 → code = 0 → DoesTower s mode (wordFlds ++ nativeFlds) fun u => u.rd .F5_MODE_CODE n = 0
        ∧ u.rd .PATH_MODE_CODE n = 0
        ∧ u.rd .F5_MODE_AB n = x.ab % 8 ∧ u.rd .F5_MODE_BA n = x.ba % 8 ∧ u.rd .F5_MODE_PAT n = x.pat % 16 ∧ u.rd .F5_MODE_PROTO n = x.proto ∧ u.rd .F5_MODE_WIDTH n = x.width % 8
        ∧ u.rd .F5_MODE_RATE n = x.rate % 8 ∧ u.rd .F5_MODE_ERRLOG n = x.errlog ∧ u.rd .F5_MODE_UPSIDE n = x.upside ∧ u.rd .F5_MODE_SRIS n = x.sris)

/-- R16, R17, R383, R389, R403, R404, R434, R448 to R451: a BAR2 access reaches the tower byte that its aperture shows, or is refused, or waits in order for its tower; reads complete in
parts of 256 bytes; an admission window of the press takes up its settings, charges what was read and lets waiting accesses go on. -/
def Obligations.HostTowerAccess : Prop :=
  ∀ (s : State) (x : BitVec 36) (len : Nat) (bytes : List Byte) (en : List Bool) (t : Fin 2),
    let read := exec (.bar2Read x len) s
    let write := exec (.bar2Write x bytes en) s
    let room := 4096 - x.toNat % 4096
    let n := min len room
    let l := bytes.take room
    let m := l.length
    let up := s.dead = false ∧ s.portReady = true
    let sees := fun (A : Nat) => s.bar2Addr x.toNat = some A
    let queued := fun (A : Nat) => (s.b2.any fun c => towerOf c.addr == towerOf A) = true
    let no := fun (A : Nat) => s.twrRefuses (towerOf A) = true
    let refused := fun (y : Host.Outcome State Fault Refusal) (f : Fld) (o : List Out) => Does s y (f :: msgFlds) fun u => u.on f 0 = true ∧ u.out = o ∧ u.b2 = s.b2
      ∧ s.sent u 1057 msgREFUSE 0
    let waits := fun (y : Host.Outcome State Fault Refusal) (b : B2Acc) => DoesAt s y [] fun u => u.b2 = s.b2 ++ [b] ∧ u.out = []
    let held := fun (A : Nat) => (s.punAt (slabOf A)).isSome = true ∨ (s.dlrAt (slabOf A)).isSome = true ∨ s.clearing (slabOf A) = true
    let win := exec (.admissionWindow t) s
    let alone := ∀ b ∈ s.b2, towerOf b.addr ≠ t
    (s.dead = false → s.portReady = false → (DoesAt s read [] fun u => u.out = [.bar2Abort x.toNat] ∧ u.b2 = s.b2) ∧ DoesAt s write [] fun u => u.out = [] ∧ u.b2 = s.b2)
    ∧ (up → n = 0 → DoesAt s read [] fun u => u.b2 = s.b2) ∧ (up → m = 0 → DoesAt s write [] fun u => u.b2 = s.b2)
    ∧ (up → n ≠ 0 → s.bar2Addr x.toNat = none → refused read .XP_STAT_BADADDR [.bar2Abort x.toNat])
    ∧ (up → m ≠ 0 → s.bar2Addr x.toNat = none → refused write .XP_STAT_BADADDR [])
    ∧ (∀ A, up → n ≠ 0 → sees A → queued A → waits read ⟨A, n, none⟩)
    ∧ (∀ A, up → m ≠ 0 → sees A → queued A → waits write ⟨A, m, some (l, en)⟩)
    ∧ (∀ A, up → n ≠ 0 → sees A → ¬queued A → no A → refused read .XP_STAT_BADADDR [.bar2Abort A])
    ∧ (∀ A, up → m ≠ 0 → sees A → ¬queued A → no A → refused write .XP_STAT_BADADDR [])
    ∧ (∀ A, up → n ≠ 0 → sees A → ¬queued A → ¬no A → (s.twrWaits A n = true ∨ s.readFits (towerOf A) n = false) → waits read ⟨A, n, none⟩)
    ∧ (∀ A, up → m ≠ 0 → sees A → ¬queued A → ¬no A → s.twrWaits A m = true → waits write ⟨A, m, some (l, en)⟩)
    ∧ (∀ A, up → n ≠ 0 → sees A → ¬queued A → ¬no A → s.twrWaits A n = false → s.readFits (towerOf A) n = true → DoesTower s read (.X_RD_BYTES :: eccFlds) fun u =>
        let r := readOut s.start A n
        u.out = completions r.2.1 r.2.2.1 A r.1 ∧ u.b2 = s.b2
          ∧ u.rd .X_RD_BYTES (towerOf A) = if s.pressRuns then (s.rd .X_RD_BYTES (towerOf A) + n) % 2 ^ Fld.X_RD_BYTES.width else s.rd .X_RD_BYTES (towerOf A))
    ∧ (∀ A, up → m ≠ 0 → sees A → ¬queued A → ¬no A → s.twrWaits A m = false → held A → refused write .XP_STAT_WRDISC [])
    ∧ (∀ A, up → m ≠ 0 → sees A → ¬queued A → ¬no A → s.twrWaits A m = false → ¬held A → DoesTower s write eccFlds fun u => u.out = [] ∧ u.b2 = s.b2
        ∧ (A % 8 = 0 → m % 8 = 0 → (∀ i < m, en.getD i false = true) → u.tower = (writeWords s A l).tower)
        ∧ ∀ B, ¬(A / 8 ≤ B / 8 ∧ B / 8 ≤ (A + m - 1) / 8) → u.getT B = s.getT B)
    ∧ (∀ b, s.dead = false → s.b2.find? (fun b => b.data.isNone && !s.twrWaits b.addr b.len) = some b → Does s (exec .bar2Starve s) (.XP_STAT_STARVE :: msgFlds) fun u => u.b2 = s.b2.erase b
        ∧ u.out = [.bar2Abort b.addr] ∧ u.on .XP_STAT_STARVE 0 = true ∧ s.sent u 1057 msgTIMEOUT 0)
    ∧ (s.dead = false → (∀ b ∈ s.b2, b.data.isSome = true ∨ s.twrWaits b.addr b.len = true) → DoesAt s (exec .bar2Starve s) [] fun u => u.b2 = s.b2)
    ∧ (s.dead = false → s.pressRuns = false → alone → DoesAt s win [(.X_DLY_BYTES, t), (.X_RD_BYTES, t)] fun u => u.getStaged t = [] ∧ u.b2 = s.b2
        ∧ u.rd .X_DLY_BYTES t = 0 ∧ u.rd .X_RD_BYTES t = 0)
    ∧ (s.dead = false → s.pressRuns = true → s.getStaged t = [] → s.loadPaths t true = [] → s.loadPaths t false = [] → s.on .TWR_CLRSTAT_BUSY t = false → alone →
        DoesAt s win [(.PRS_PLIM_EFF, 0), (.PRS_PLIM_THROT, 0), (.PRS_CEIL_CEIL, t), (if t = 0 then .PRS_STAT_DROP0 else .PRS_STAT_DROP1, 0), (.X_DLY_BYTES, t), (.X_RD_BYTES, t),
          (.X_WINDOW, t)] fun u => u.rd .PRS_PLIM_EFF 0 = min (s.rd .X_THR 0) (s.rd .PRS_PLIM_LIMIT 0) % 2 ^ Fld.PRS_PLIM_EFF.width
        ∧ u.rd .X_WINDOW t = (s.rd .X_WINDOW t + 1) % 2 ^ 32 ∧ u.rd .X_RD_BYTES t = 0 ∧ u.rd .X_DLY_BYTES t = 0
        ∧ u.getCarry t = min (s.getCarry t - s.rd .X_RD_BYTES t) 8192 + u.avail t - s.rd .X_DLY_BYTES t)
    ∧ (s.dead = false → s.pressRuns = true → DoesCore s win (eccFlds ++ portFlds ++ ([.PATH_DLYSTAT_FILL, .TWR_CLRSTAT_BUSY, .TWR_CLRSTAT_DONE, .TWR_CLRSTAT_RESULT, .X_CLR_ACC, .X_CLR_COUNT, .X_CLR_FIRST, .PRS_CEIL_CEIL, .PRS_DROPT_COUNT, .PRS_PLIM_EFF, .PRS_PLIM_THROT, .PRS_STAT_DROP0, .PRS_STAT_DROP1,
          .PUN_DISC_COUNT, .PUN_HEAD_OFS, .PUN_RECS_COUNT, .PUN_STAT_STATE, .PUN_STAT_WRAP, .PUN_TAIL_OFS, .STRM_LOSTB_COUNT, .STRM_LOSTR_COUNT, .STRM_SEQ_SEQ, .X_DLY_BYTES,
          .X_DLY_CNT, .X_DLY_LO, .X_PATH_STOPPED, .X_PUN_SINCE, .X_RD_BYTES, .X_WINDOW, .XP_STAT_BADADDR, .XP_STAT_WRDISC] : List Fld)) fun u =>
        u.rd .X_WINDOW t = (s.rd .X_WINDOW t + 1) % 2 ^ 32)

/-- R446, R453 to R460: the ring registers of the harvest engines, how a descriptor is taken, refused with its code, worked off in bursts of at most 4 KiB or record by record, and
ended with a write-back whose last byte is DONE. How turns pass between engines is the model's choice (log entry 104). -/
def Obligations.HarvestDescriptors : Prop :=
  ∀ (s : State) (r : Route) (e : Fin 8) (v : DW) (on : Bool) (desc : Option (List Byte)),
    let w := v.toNat % 65536
    let raw := exec (.harvestRaw e desc) s
    let recs := exec (.harvestRecords e desc) s
    let idle := s.dead = false ∧ s.getHv e = none
    let load := s.hvMay = true ∧ s.on .HV_CTL_EN e = true ∧ s.hvLoaded e = true ∧ s.rd .HV_RSIZE_SIZE e ≠ 0 ∧ s.on .HV_STAT_FETCHERR e = false
    let a := s.hvSlot e
    let ended := fun (u : State) (j : HvJob) (st next : Nat) => u.getHv e = none ∧ u.on .HV_STAT_BUSY e = false
      ∧ u.rd .HV_CONS_IDX e = (s.rd .HV_CONS_IDX e + 1) % s.hvWrap e % 65536
      ∧ ∃ m, m.length ≤ 1 ∧ u.out = [.hostWrite (a + 32) (leBytes 1 st), .hostWrite (a + 34) (leBytes 2 (min j.marks 65535) ++ leBytes 4 j.recs ++ leBytes 8 j.bytes
        ++ leBytes 8 next ++ leBytes 8 (j.paddr.getD (2 ^ 64 - 1))), .hostWrite (a + 33) [1]] ++ m
    let ends := fun (y : Host.Outcome State Fault Refusal) (j : HvJob) (st next : Nat) =>
      DoesPend s y [.HV_CONS_IDX, .HV_STAT_BUSY, .X_HV_TWR, .X_HV_TURN, .X_HV_BURST] fun u => ended u j st next
    let stays := fun (y : Host.Outcome State Fault Refusal) => DoesAt s y [] fun u => u.getHv e = s.getHv e ∧ u.out = []
    let moves : List Fld := eccFlds ++ ([.HV_BYTES_COUNT, .HV_CONS_IDX, .HV_STAT_BUSY, .X_HV_REM, .X_HV_TWR, .X_HV_TURN, .X_HV_BURST, .X_RD_BYTES] : List Fld)
    let stops := fun (A n : Nat) => s.twrRefuses (towerOf A) = true ∨ s.twrWaits A n = true ∨ s.readFits (towerOf A) n = false ∨ s.hvTurn e = false
    let burst := fun (j : HvJob) => min (4096 - j.off % 4096) (j.len - j.bytes)
    let goes := fun (j : HvJob) => DoesCore s raw moves fun u =>
      u.out.head? = some (.hostWrite (j.dst + j.bytes) (readOut s.start j.off (burst j)).1)
        ∧ (j.bytes + burst j = j.len → u.getHv e = none ∧ u.on .HV_STAT_BUSY e = false)
        ∧ (j.bytes + burst j ≠ j.len → ∃ k, u.getHv e = some k ∧ k.off = j.off + burst j ∧ k.bytes = j.bytes + burst j)
    let kind := fun (y : Host.Outcome State Fault Refusal) (want : List Byte → Prop) =>
      (idle → ¬load → stays y)
      ∧ (idle → load → desc = none → DoesPend s y (.HV_STAT_FETCHERR :: msgFlds) fun u => u.on .HV_STAT_FETCHERR e = true ∧ u.getHv e = none ∧ s.sent u 1069 msgTIMEOUT e)
      ∧ ∀ d, idle → load → desc = some d → (¬want d → stays y)
        ∧ (want d → descBad d = true → ends y (hvJobOf s d) 2 (hvJobOf s d).off)
        ∧ (want d → descBad d = false → s.hvNoSource (hvJobOf s d) = true → ends y (hvJobOf s d) 3 (hvJobOf s d).off)
        ∧ (want d → descBad d = false → s.hvNoSource (hvJobOf s d) = false → (hvJobOf s d).len = 0 → ends y (hvJobOf s d) 0 (hvJobOf s d).off)
    let good := fun (d : List Byte) => idle ∧ load ∧ desc = some d ∧ descBad d = false ∧ s.hvNoSource (hvJobOf s d) = false ∧ (hvJobOf s d).len ≠ 0
    let runs := fun (j : HvJob) (recs : Bool) => s.dead = false ∧ s.getHv e = some j ∧ s.hvMay = true ∧ j.records = recs
    (s.takes r (addrHv e + 0x10) → s.hvWrap e ≤ w → DoesAt s (exec (.hvProdWrite r e v) s) [(.HV_STAT_CFGERR, e)] fun u => u.on .HV_STAT_CFGERR e = true)
    ∧ (s.takes r (addrHv e + 0x10) → w < s.hvWrap e → DoesAt s (exec (.hvProdWrite r e v) s) [(.HV_PROD_IDX, e)] fun u => u.rd .HV_PROD_IDX e = w)
    ∧ (s.takes r (addrHv e) → DoesAt s (exec (.hvEnable r e on) s) [(.HV_CTL_EN, e)] fun u => u.on .HV_CTL_EN e = on)
    ∧ (s.takes r (addrHv e) → DoesAt s (exec (.hvAbort r e) s) [(.HV_CTL_EN, e)] fun u => u.on .HV_CTL_EN e = false
        ∧ u.getHv e = (s.getHv e).map fun j => { j with abort := true })
    ∧ kind raw (fun d => d.getD 0 0 ≠ 2) ∧ kind recs (fun d => d.getD 0 0 = 2)
    ∧ (∀ d, good d → d.getD 0 0 = 2 → DoesAt s recs [(.HV_STAT_BUSY, e), (.X_HV_TWR, e)] fun u => u.on .HV_STAT_BUSY e = true ∧ u.getHv e = some (hvJobOf s d) ∧ u.out = [])
    ∧ (∀ d, good d → d.getD 0 0 ≠ 2 → stops (hvJobOf s d).off (burst (hvJobOf s d)) → DoesAt s raw [(.HV_STAT_BUSY, e), (.X_HV_TWR, e)] fun u => u.on .HV_STAT_BUSY e = true
        ∧ u.getHv e = some (hvJobOf s d) ∧ u.out = [])
    ∧ (∀ d, good d → d.getD 0 0 ≠ 2 → ¬stops (hvJobOf s d).off (burst (hvJobOf s d)) → DoesCore s raw moves fun u =>
        (burst (hvJobOf s d) = (hvJobOf s d).len → u.getHv e = none) ∧ (burst (hvJobOf s d) ≠ (hvJobOf s d).len → ∃ k, u.getHv e = some k ∧ k.bytes = burst (hvJobOf s d)))
    ∧ (∀ j, s.dead = false → s.getHv e = some j → (s.hvMay = false ∨ j.records = true) → stays raw)
    ∧ (∀ j, s.dead = false → s.getHv e = some j → (s.hvMay = false ∨ j.records = false) → stays recs)
    ∧ (∀ j, runs j false → j.abort = true → ends raw j 5 j.off)
    ∧ (∀ j, runs j false → j.abort = false → stops j.off (burst j) → stays raw)
    ∧ (∀ j, runs j false → j.abort = false → ¬stops j.off (burst j) → goes j)
    ∧ (∀ j, runs j true → j.cut = true → ends recs j 6 j.resume)
    ∧ (∀ j, runs j true → j.cut = false → j.abort = true → ends recs j 5 j.resume)
    ∧ (∀ j, runs j true → j.cut = false → j.abort = false → j.off = j.stop → j.held = [] → ends recs j 1 j.off)
    ∧ (∀ j, runs j true → j.cut = false → j.abort = false → j.off = j.stop → j.held ≠ [] → DoesPend s recs [.HV_CONS_IDX, .HV_STAT_BUSY, .X_HV_TWR, .X_HV_TURN, .X_HV_BURST, .X_HV_REM, .HV_BYTES_COUNT] fun u =>
        u.getHv e = none ∧ u.out.head? = some (.hostWrite (j.dst + j.bytes) j.held))
    ∧ ∀ j, runs j true → j.cut = false → j.abort = false → j.off ≠ j.stop →
      let k := j.pun
      let tail := s.rd .PUN_TAIL_OFS k
      let area := s.punData k
      let passed := s.ringDist k tail j.stop ≤ s.ringDist k tail j.off ∨ area ≤ j.off
      let still := s.twrRefuses (s.punTower k) = true ∨ s.twrWaits (s.punBase k + j.off) (min 4096 (area - j.off)) = true ∨ s.readFits (s.punTower k) 4096 = false ∨ s.hvTurn e = false
      let head := (punReadRing s.start 2 k j.off 32).1
      let size := 16 * (head.getD 1 0).toNat
      let whole := 32 ≤ size ∧ crcOf crc16 (head.take 22) = leNat (sliceBytes head 22 2)
      let x := punReadRing s.start 2 k j.off size
      let sound := x.2.1 = [] ∧ j.held = []
      let next := if s.on .PUN_CFG_MODE k then j.off + size else (j.off + size) % area
      (passed → j.fits 32 = true → DoesAt s recs [] fun u => u.getHv e = some (j.hold (hvMarker 3 j.off (s.ringDist k j.off tail)) tail) ∧ u.out = [])
      ∧ (passed → j.fits 32 = false → ends recs j 0 j.resume)
      ∧ (¬passed → still → stays recs)
      ∧ (¬passed → ¬still → DoesCore s recs moves fun u =>
          (whole → sound → j.bytes + x.1.length ≤ j.len → u.out = [.hostWrite (j.dst + j.bytes) x.1]
            ∧ ∃ i, u.getHv e = some i ∧ i.off = next ∧ i.bytes = j.bytes + x.1.length ∧ i.recs = j.recs + 1 ∧ i.marks = j.marks + (x.1.length - size) / 32)
          ∧ (whole → sound → j.len < j.bytes + x.1.length → u.getHv e = none))

/-- R447, R613, R614, R616: a read of 32-bit registers returns the fields that each shows, clears those that a read clears, and latches the other half of a pair;
nothing there reads zero, and a read that may not be made completes with the error of its route. R6, R447, R613, R614, R616, R640: a write of 32-bit registers
is one write for each, low first; a register without a rule of its own takes its RW fields, clears the W1C bits written 1 and keeps the rest; one with a
command of its own does what the command does; a write that may not be made completes with the error of its route. -/
def Obligations.RegisterAccesses : Prop :=
  (∀ (s : State) (r : Route) (a : BitVec 24) (n : Nat) (rc : Bool),
     let x := if rc then exec (.rcFieldRead r a n) s else exec (.pairLowRead r a n) s
     let A := 4 * a.toNat
     let one := s.dead = false ∧ n = 1 ∧ s.busErr r A false = false
     let ill := r = .port ∧ (2 < n ∨ n = 2 ∧ A % 8 ≠ 0)
     let bad := fun (k : Nat) => s.busErr r (A + 4 * k) false = true
     let latched := fun (v : Nat) => (nget s.hiLatch none A).getD v
     let bare := winAt A = none ∧ memAt A = none
     let gives := fun (l : List (Fld × Nat)) (v : Nat) (P : State → Prop) => DoesAt s x l fun u => u.out = [.readData r A v] ∧ P u
     let same := fun (u : State) => u.hiLatch = s.hiLatch
     (s.dead = false → n = 0 → DoesAt s x [] fun u => u.out = [] ∧ same u)
     ∧ (s.dead = false → n ≠ 0 → ill → DoesAt s x [] fun u => u.out = [.completerAbort A] ∧ same u)
     ∧ (s.dead = false → ¬ill → r = .port → (∃ k < n, bad k) → DoesAt s x [] fun u => u.out = [.completerAbort A] ∧ same u)
     ∧ (s.dead = false → n = 1 → r = .mgmt → bad 0 → DoesAt s x [] fun u => u.out = [.busError A] ∧ same u)
     ∧ (s.dead = false → n = 1 → r = .twoWire → bad 0 → DoesAt s x [(.TW_STAT_REGERR, 0)] fun u => u.on .TW_STAT_REGERR 0 = true ∧ u.out = [] ∧ same u)
     ∧ (one → winAt A = some .wo → gives [] 0 same)
     ∧ (one → (winAt A = some .ro ∨ winAt A = some .msix) → gives [] (leNat (s.getWins A 4)) same)
     ∧ (one → bare → regAt A = none → gives [] 0 same)
     ∧ (∀ g d w, one → winAt A = none → memAt A = some (g, d, w, false) →
         let v := (if d then s.getD g w else s.getI g w).toNat
         gives [] (v % 2 ^ 32) fun u => nget u.hiLatch none (A + 4) = some (v / 2 ^ 32))
     ∧ (∀ g d w, one → winAt A = none → memAt A = some (g, d, w, true) →
         gives [] (latched ((if d then s.getD g w else s.getI g w).toNat / 2 ^ 32)) fun u => nget u.hiLatch none A = none)
     ∧ (∀ w i, one → bare → regAt A = some (w, i) →
         gives (((w.slots.filter fun e => e.fld.acc == .rc).map fun e => (e.fld, i)) ++ (if w.slots.any (·.fld == .ECC_CECNT_COUNT) then [(.X_CE_RAISED, i)] else []))
             (latched (s.regVal w i)) fun u => (∀ e ∈ w.slots, e.fld.acc = .rc → u.rd e.fld i = 0) ∧ (∀ e ∈ w.slots, e.fld = .ECC_CECNT_COUNT → u.on .X_CE_RAISED i = false) ∧ (∀ h, highOf w = some h → nget u.hiLatch none (A + 4) = some (u.regVal h i))
             ∧ (highOf w = none → nget u.hiLatch none A = none)))
    ∧ ∀ (s : State) (r : Route) (a : BitVec 24) (v : DW) (vs : List DW) (whole : Bool),
      let A := 4 * a.toNat
      let x := exec (.registerWrite r a [v] whole) s
      let ill := r = .port ∧ (whole = false ∨ 2 < vs.length ∨ vs.length = 2 ∧ a.toNat % 2 = 1)
      let ok := s.dead = false ∧ (r = .port → whole = true)
      let bad := s.busErr r A true = true
      let goes := ok ∧ ¬bad ∧ ¬(mapped A = true ∧ s.ownedWrite A = true)
      let bare := winAt A = none ∧ memAt A = none
      let own := fun (w : RegRow) (i : Nat) => if w.base < 0x1000000 then lowWrite s.start w.base i v.toNat else if w.base < 0x2000000 then groveWrite s.start r w.base i v.toNat
        else highWrite s.start w i v.toNat
      let bits := fun (e : Slot) => v.toNat / 2 ^ e.lo % 2 ^ e.width
      let cmd := fun (b : Nat) (c : Instr) => ok → A = b → x = exec c s
      (s.dead = false → ill → Does s (exec (.registerWrite r a vs whole) s) (.XP_STAT_BE :: msgFlds) fun u => u.on .XP_STAT_BE 0 = true ∧ u.out = [] ∧ s.sent u 1057 msgREFUSE 0)
      ∧ (s.dead = false → ¬ill → vs = [] → DoesAt s (exec (.registerWrite r a vs whole) s) [] fun u => u.out = [])
      ∧ (∀ t, s.dead = false → r ≠ .port → x = .next t → exec (.registerWrite r a (v :: vs) whole) s = .next (busWrite t r (A + 4) (vs.map BitVec.toNat)))
      ∧ (ok → bad → r = .port → DoesAt s x [] fun u => u.out = [.completerAbort A]) ∧ (ok → bad → r = .mgmt → DoesAt s x [] fun u => u.out = [.busError A])
      ∧ (ok → bad → r = .twoWire → DoesAt s x [(.TW_STAT_REGERR, 0)] fun u => u.on .TW_STAT_REGERR 0 = true)
      ∧ (ok → ¬bad → mapped A = true → s.ownedWrite A = true → DoesAt s x [(.F5_STAT_OWNERR, 0)] fun u => u.on .F5_STAT_OWNERR 0 = true)
      ∧ (goes → bare → regAt A = none → DoesAt s x [] fun u => u.out = [])
      ∧ (goes → winAt A = some .ro → DoesAt s x [] fun u => u.out = [])
      ∧ (goes → winAt A = some .wo → (0xC000 ≤ A ∧ A < 0x10000 ∧ s.on .FW_MBX_STAT_BUSY 0 = true) → DoesAt s x [] fun u => u.out = [])
      ∧ (goes → winAt A = some .wo → ¬(0xC000 ≤ A ∧ A < 0x10000 ∧ s.on .FW_MBX_STAT_BUSY 0 = true) → DoesMem s x [] fun u => u.getWins A 4 = leBytes 4 v.toNat
          ∧ (∀ b, ¬(A ≤ b ∧ b < A + 4) → u.getWin b = s.getWin b) ∧ u.imem = s.imem ∧ u.dmem = s.dmem ∧ u.tower = s.tower ∧ u.nvm = s.nvm)
      ∧ (goes → winAt A = some .msix → A % 16 ≠ 12 → DoesMem s x [] fun u => u.getWins A 4 = leBytes 4 v.toNat ∧ (∀ b, ¬(A ≤ b ∧ b < A + 4) → u.getWin b = s.getWin b)
          ∧ u.imem = s.imem ∧ u.dmem = s.dmem ∧ u.tower = s.tower ∧ u.nvm = s.nvm)
      ∧ (goes → winAt A = some .msix → A % 16 = 12 → DoesMem s x [] fun u => let k := (A - 0x10000) / 16
          u.getWin A = BitVec.ofNat 8 (v.toNat % 2) ∧ (v.toNat % 2 = 0 → bitOf (s.getWin (0x10800 + k / 8)).toNat (k % 8) = true → s.msixHeld = false → u.out = [.msix k]
            ∧ bitOf (u.getWin (0x10800 + k / 8)).toNat (k % 8) = false) ∧ ((s.msixHeld = true ∨ v.toNat % 2 = 1) → u.out = [] ∧ ∀ b, b ≠ A → u.getWin b = s.getWin b) ∧ u.imem = s.imem ∧ u.dmem = s.dmem ∧ u.tower = s.tower ∧ u.nvm = s.nvm)
      ∧ (∀ w i, goes → bare → regAt A = some (w, i) → own w i = none → DoesAt s x (w.slots.map fun e => (e.fld, i)) fun u => u.out = [] ∧ ∀ e ∈ w.slots,
          (e.fld.acc = .rw → u.rd e.fld i = putBits (s.rd e.fld i) e.shift e.width (bits e) % 2 ^ e.fld.width)
            ∧ (e.fld.acc = .w1c → u.rd e.fld i = Nat.land (s.rd e.fld i) (2 ^ e.fld.width - 1 - bits e * 2 ^ e.shift % 2 ^ e.fld.width) % 2 ^ e.fld.width)
            ∧ (e.fld.acc ≠ .rw → e.fld.acc ≠ .w1c → u.rd e.fld i = s.rd e.fld i))
      ∧ (∀ w i u, goes → bare → regAt A = some (w, i) → own w i = some u → x = .next u)
      ∧ (v.toNat % 256 = 4 → cmd 0x18 (.chipReset r)) ∧ cmd 0x700000 (.f5CtlWrite r v) ∧ (v = 1 → cmd 0x9000 (.mbDoorbell r) ∧ cmd 0x300040 (.twMbDoorbell r))

/-- R36, R38, R48, R56, R487 to R489, R492, R493, R496, R497, R500, R503, R568: a two-wire transaction is not for the device, answered NAK where R492 puts it, at the device's choice while a chunk may still be being written, or served; IDENT, STATE and EVENTSUM return the bytes of
their forms with PEC where it applies, ones past the last, and a length that is not the form's sets PROTO. The form of a busy answer while a hot switch drains the firmware,
and the early end of a transaction, are the model's choices (log entries 63, 87, 108). -/
def Obligations.TwoWireReads : Prop :=
  ∀ (s : State) (a : BitVec 7) (n : Nat) (count len b0 b1 b2 b3 : Byte) (ofs : BitVec 32) (e : TwEnd) (late : Nat) (room extra : Bool) (block : List Byte),
    let ident := exec (.twIdent a extra n) s
    let state := exec (.twState a extra n) s
    let sum := exec (.eventsum a extra n) s
    let rows : List (Nat × Instr) := [(1, .twIdent a extra n), (2, .twState a extra n), (3, .eventsum a extra n),
      (0x0F, .mctpPacket a block room e), (0x10, .regrd a count ofs len e late n), (0x11, .regwr a block e), (0x20, .fwchunk a block e),
      (0x21, .fwdone a e), (0x30, .alertcfg a b0 b1 e), (0x3F, .buscfg a b0 b1 b2 b3 e)]
    let mine := s.on .X_RESETN_LOW 0 = false ∧ s.aonRuns = true ∧ s.twMine a.toNat = true
    let awake := mine ∧ s.dev ≠ devSTANDBY
    let takes := fun (c : Nat) => c ∈ s.twServed ∧ s.twTaken c = false
    let away := fun (c : Nat) => s.twBusy c = true ∨ (s.hot = .draining ∧ c ∈ [3, 0x0F, 0x20, 0x21])
    let served := fun (c : Nat) => awake ∧ ¬away c ∧ s.twWrites c = false ∧ takes c
    let says_ := fun (u : State) (o : List Out) => u.out = o
    let reads := fun (x : Host.Outcome State Fault Refusal) (c : Nat) (form : List Byte) =>
      let full := if s.twPec then form ++ [pecOf ([BitVec.ofNat 8 (2 * a.toNat), BitVec.ofNat 8 c, BitVec.ofNat 8 (2 * a.toNat + 1)] ++ form)] else form
      DoesAt s x [(.TW_STAT_PROTO, 0)] fun u => u.out = [.twoWire (full.take n ++ List.replicate (n - full.length) 0xFF)]
        ∧ (n ≠ full.length → u.on .TW_STAT_PROTO 0 = true) ∧ (n = full.length → u.rd .TW_STAT_PROTO 0 = s.rd .TW_STAT_PROTO 0) ∧ u.hostq = s.hostq
    let q := s.hostq
    let newest := q.drop (q.length - 15)
    let busy := fun (x : Host.Outcome State Fault Refusal) => DoesAt s x [(.TW_CNT_NAKBUSY, 0)] fun u => says_ u [.twNak .address]
      ∧ u.rd .TW_CNT_NAKBUSY 0 = min (s.rd .TW_CNT_NAKBUSY 0 + 1) 65535
    let written := { s.clr .X_FW_WR 0 with freeCtr := s.freeCtr + 1 }
    (∀ y ∈ rows, (¬mine → DoesAt s (exec y.2 s) [] fun u => says_ u [])
        ∧ (mine → s.dev = devSTANDBY → DoesAt s (exec y.2 s) [] fun u => says_ u [.twNak .address])
        ∧ (awake → away y.1 → busy (exec y.2 s))
        ∧ (awake → ¬away y.1 → s.twWrites y.1 = true → busy (exec y.2 s) ∨ exec y.2 s = exec y.2 written)
        ∧ (awake → ¬away y.1 → s.twWrites y.1 = false → ¬takes y.1 → DoesAt s (exec y.2 s) [] fun u => says_ u [.twNak .command]))
    ∧ (∀ y ∈ ([(1, ident), (2, state), (3, sum)] : List (Nat × Host.Outcome State Fault Refusal)), served y.1 → extra = true → DoesAt s y.2 [] fun u => says_ u [.twNak .data])
    ∧ (served 1 → extra = false → reads ident 1 (leBytes 2 (s.rd .DEV_IDENT_VID 0) ++ leBytes 2 (s.rd .DEV_IDENT_DID 0) ++ leBytes 1 (s.rd .DEV_REV_STEP 0) ++ leBytes 1 s.dev
        ++ leBytes 1 ((if s.dev < devINIT then 1 else 0) + 2 * s.rd .DEV_STATE_NONAPPR 0) ++ leBytes 1 (s.rd .X_STRAP_ADDR 0 + 8 * s.rd .X_STRAP_RDLY 0)))
    ∧ (served 2 → extra = false → reads state 2 (leBytes 1 s.dev ++ leBytes 1 (s.rd .DEV_STATE_LASTERR 0) ++ leBytes 1 (s.rd .DEV_STATE_INITSTEP 0)
        ++ leBytes 1 (s.rd .DEV_STATE_BANK 0 + 2 * s.rd .DEV_STATE_NONAPPR 0 + 4 * s.rd .DEV_STATE_CLKFAIL_EARLY 0 + 8 * s.rd .DEV_STATE_HR_PEND 0)))
    ∧ (served 3 → extra = false → reads sum 3 (leBytes 1 (12 + 16 * newest.length) ++ leBytes 2 q.length ++ leBytes 4 ((s.rd .X_EV_TOTAL 0 + 2 ^ 32 - newest.length) % 2 ^ 32)
        ++ leBytes 4 (s.rd .MGT_EVSTAT_LOST 0) ++ leBytes 2 newest.length ++ (newest.map EvRec.image).flatten))

/-- R45 to R48, R490, R492 to R494, R496, R498, R501, R502, R508, R510: a two-wire write executes at its STOP, with the PEC that applies; one that is cut short, too long, without its PEC
or with a wrong one has no effect but its status bit. REGRD reads and REGWR writes registers, FWCHUNK and FWDONE load an image, MCTP delivers a packet. What an early end sets, the REGRD without
its PEC and the byte at which an MCTP packet without room is answered NAK are the model's choices (log entries 62, 63, 109). -/
def Obligations.TwoWireWrites : Prop :=
  ∀ (s : State) (a : BitVec 7) (n : Nat) (count len b0 b1 b2 b3 : Byte) (ofs : BitVec 32) (e : TwEnd) (late : Nat) (room : Bool) (block : List Byte),
    let m := block.length
    let regrd := exec (.regrd a count ofs len e late n) s
    let regwr := exec (.regwr a block e) s
    let chunk := exec (.fwchunk a block e) s
    let done := exec (.fwdone a e) s
    let alert := exec (.alertcfg a b0 b1 e) s
    let bus := exec (.buscfg a b0 b1 b2 b3 e) s
    let mctp := exec (.mctpPacket a block room e) s
    let on := s.twPec
    let rows : List (Nat × Host.Outcome State Fault Refusal × Bool × Bool × List Byte × TwPos) := [
      (0x11, regwr, on, m == 0 || decide (4 ≤ m ∧ m ≤ 255 ∧ m % 4 = 0), leBytes 1 m ++ block, .count), (0x20, chunk, on, decide (m ≤ 240), leBytes 1 m ++ block, .count), (0x21, done, on, true, [], .data),
      (0x30, alert, on, decide (b1.toNat < 16), [b0, b1], .data), (0x3F, bus, on, decide (b0.toNat < 16 ∧ b1.toNat < 128 ∧ b2.toNat < 128 ∧ b3 = 0), [b0, b1, b2, b3], .data),
      (0x0F, mctp, true, room && s.fwFree && decide (m = 0 ∨ 5 ≤ m ∧ m ≤ 255), leBytes 1 m ++ block, if room && s.fwFree then .count else .address)]
    let served := fun (c : Nat) => s.on .X_RESETN_LOW 0 = false ∧ s.aonRuns = true ∧ s.twMine a.toNat = true ∧ s.dev ≠ devSTANDBY ∧ s.twBusy c = false ∧ ¬(s.hot = .draining ∧ c ∈ [3, 0x0F, 0x20, 0x21]) ∧ s.twWrites c = false ∧ c ∈ s.twServed ∧ s.twTaken c = false
    let nak := fun (x : Host.Outcome State Fault Refusal) (k : TwPos) => DoesAt s x [] fun u => u.out = [.twNak k]
    let bit := fun (x : Host.Outcome State Fault Refusal) (f : Fld) (o : List Out) => DoesAt s x [(f, 0)] fun u => u.on f 0 = true ∧ u.out = o
    let pec := fun (c : Nat) (l : List Byte) => pecOf ([BitVec.ofNat 8 (2 * a.toNat), BitVec.ofNat 8 c] ++ l)
    let runs := fun (c : Nat) (p : Bool) (l : List Byte) => served c ∧ e = .stop (if p then some (pec c l) else none)
    let idle := match s.fwLoad with | some l => l.idle | none => decide (devINIT ≤ s.dev)
    let had := match s.fwLoad with | some l => l.bytes | none => []
    let head := [count] ++ leBytes 4 ofs.toNat ++ [len]
    let fits := count = 5 ∧ len.toNat ≤ 252 ∧ len.toNat % 4 = 0
    let k := regrdDws (len.toNat / 4) n
    let got := regrdGo late k (ofs.toNat / 4 * 4) s.start
    let form := leBytes 1 len.toNat ++ got.1 ++ List.replicate (len.toNat - 4 * k) 0
    let full := if on then form ++ [pecOf (BitVec.ofNat 8 (2 * a.toNat + 1) :: form)] else form
    let at_ := leNat (block.take 4)
    (∀ y ∈ rows, served y.1 → (y.2.2.2.1 = false → nak y.2.1 y.2.2.2.2.2)
        ∧ (y.2.2.2.1 = true → e = .early → bit y.2.1 .TW_STAT_PROTO [])
        ∧ (y.2.2.2.1 = true → e = .over → nak y.2.1 .data)
        ∧ (y.2.2.2.1 = true → y.2.2.1 = true → e = .stop none → bit y.2.1 .TW_STAT_PECMISS [])
        ∧ (∀ p, y.2.2.2.1 = true → y.2.2.1 = false → e = .stop (some p) → nak y.2.1 .data)
        ∧ (∀ p, y.2.2.2.1 = true → y.2.2.1 = true → e = .stop (some p) → p ≠ pec y.1 y.2.2.2.2.1 → bit y.2.1 .TW_STAT_PECERR [.twNak .pec]))
    ∧ (served 0x10 → ¬fits → nak regrd (if count = 5 then .data else .count))
    ∧ (served 0x10 → fits → e = .early → bit regrd .TW_STAT_PROTO [])
    ∧ (served 0x10 → fits → e = .over → nak regrd .data)
    ∧ (served 0x10 → fits → on = true → e = .stop none → bit regrd .TW_STAT_PROTO [.twNak .address])
    ∧ (∀ p, served 0x10 → fits → on = true → e = .stop (some p) → p ≠ pec 0x10 head → bit regrd .TW_STAT_PECERR [.twNak .pec])
    ∧ (∀ p, served 0x10 → fits → on = false → e = .stop (some p) → nak regrd .data)
    ∧ (runs 0x10 on head → fits → bitOf late 0 = true → DoesAt s regrd [(.TW_CNT_NAKBUSY, 0)] fun u => u.out = [.twNak .address]
        ∧ u.rd .TW_CNT_NAKBUSY 0 = min (s.rd .TW_CNT_NAKBUSY 0 + 1) 65535)
    ∧ (runs 0x10 on head → fits → bitOf late 0 = false → Does got.2 regrd [.TW_STAT_PROTO] fun u => (n ≠ full.length → u.on .TW_STAT_PROTO 0 = true)
        ∧ u.out = got.2.out ++ [.twoWire (full.take n ++ List.replicate (n - full.length) 0xFF)])
    ∧ (∀ i < k, bitOf late i = true → sliceBytes got.1 (4 * i) 4 = [0xFF, 0xFF, 0xFF, 0xFF] ∧ got.2.on .TW_STAT_REGERR 0 = true)
    ∧ (runs 0x11 on (leBytes 1 m ++ block) → m = 0 → DoesAt s regwr [] fun u => u.out = [])
    ∧ (runs 0x11 on (leBytes 1 m ++ block) → 4 ≤ m → m ≤ 255 → m % 4 = 0 → at_ < 2 ^ 26 →
        regwr = exec (.registerWrite .twoWire (BitVec.ofNat 24 (at_ / 4)) ((dwsOf (m / 4 - 1) (block.drop 4)).map (BitVec.ofNat 32)) true) s)
    ∧ (runs 0x20 on (leBytes 1 m ++ block) → m ≤ 240 → (m = 0 ∨ s.loadOk idle = false) → DoesAt s chunk [] fun u => u.fwLoad = s.fwLoad ∧ u.out = [])
    ∧ (runs 0x20 on (leBytes 1 m ++ block) → m ≤ 240 → m ≠ 0 → s.loadOk idle = true → DoesPend s chunk fwFlds fun u => u.fwLoad = some ⟨.twoWire, idle, had ++ block⟩
        ∧ u.rd .FW_MBX_TOTAL_TOTAL 0 = (s.rd .FW_MBX_TOTAL_TOTAL 0 + m) % 2 ^ Fld.FW_MBX_TOTAL_TOTAL.width
        ∧ (s.fwLoad = none → (idle = false → u.dev = devLOAD) ∧ (idle = true → u.on .DEV_STATE_HR_PEND 0 = false ∧ u.idleImage = none)))
    ∧ (runs 0x21 on [] → (s.on .X_FW_CHK 0 = true ∨ s.loadOk idle = false) → DoesAt s done [] fun u => u.fwLoad = s.fwLoad ∧ u.out = [])
    ∧ (runs 0x21 on [] → s.on .X_FW_CHK 0 = false → s.loadOk idle = true → DoesAt s done [(.X_FW_CHK, 0), (.FW_MBX_STAT_BUSY, 0)] fun u => u.on .X_FW_CHK 0 = true
        ∧ u.on .FW_MBX_STAT_BUSY 0 = true ∧ u.fwLoad = some ⟨.twoWire, idle, had⟩)
    ∧ (runs 0x30 on [b0, b1] → b1.toNat < 16 → DoesAt s alert [(.TW_ALERT_HOSTADDR, 0), (.TW_ALERT_EN, 0), (.TW_ALERT_CAUSES, 0)] fun u => u.out = []
        ∧ u.rd .TW_ALERT_HOSTADDR 0 = b0.toNat % 128 ∧ u.rd .TW_ALERT_EN 0 = b0.toNat / 128 ∧ u.rd .TW_ALERT_CAUSES 0 = b1.toNat)
    ∧ (runs 0x3F on [b0, b1, b2, b3] → b0.toNat < 16 → b1.toNat < 128 → b2.toNat < 128 → b3 = 0 →
        DoesAt s bus [(.TW_CFG_PEC, 0), (.TW_CFG_TOEN, 0), (.TW_CFG_ADDR2EN, 0), (.TW_CFG_MASKEN, 0), (.TW_ADDR_ADDR2, 0), (.TW_ADDR_MASK, 0)] fun u => u.out = []
          ∧ u.rd .TW_CFG_PEC 0 = b0.toNat % 2 ∧ u.rd .TW_CFG_TOEN 0 = b0.toNat / 2 % 2 ∧ u.rd .TW_CFG_ADDR2EN 0 = b0.toNat / 4 % 2 ∧ u.rd .TW_CFG_MASKEN 0 = b0.toNat / 8
          ∧ u.rd .TW_ADDR_ADDR2 0 = b1.toNat ∧ u.rd .TW_ADDR_MASK 0 = b2.toNat)
    ∧ (runs 0x0F true (leBytes 1 m ++ block) → room = true → s.fwFree = true → (m = 0 ∨ 5 ≤ m ∧ m ≤ 255) → DoesAt s mctp [] fun u => u.out = []
        ∧ u.mctpin = if m = 0 then s.mctpin else s.mctpin ++ [block])

/-- R495, R499, R505, R506, R508, R510, R568: writes of the two-wire registers, the abort of a transaction, alerts and MCTP packets with their retries and their end after eight failed
retries, and the bus timeout. The kind of the event, and the order of the two rows, are the model's choice (log entry 64). -/
def Obligations.AlertsAndTimeouts : Prop :=
  ∀ (s : State) (r : Route) (reg : Fin 5) (v : DW) (o : TwTry) (cut : Option Bool),
    let w := v.toNat
    let cfg := exec (.twConfigWrite r reg v) s
    let set := fun (l : List (Fld × Nat)) => DoesAt s cfg (l.map fun x => (x.1, 0)) fun u => ∀ x ∈ l, u.rd x.1 0 = x.2
    let takes := s.takes r (0x300000 + 4 * reg.val)
    let first := exec (.alert o) s
    let again := exec (.alertRetry false o) s
    let pkt := exec (.alertRetry true o) s
    let due := s.on .TW_ALERT_EN 0 = true ∧ s.rd .X_ALERT 0 ≠ 0
    let tried := s.rd .X_ALERT_N 0
    let retries := fun (u : State) (k : Nat) => u.rd .TW_CNT_RETRIES 0 = if k = 0 then s.rd .TW_CNT_RETRIES 0 else min (s.rd .TW_CNT_RETRIES 0 + 1) 65535
    let seq := fun (l : List Byte) => s.hostq ≠ [] → l = leBytes 2 ((s.rd .X_EV_TOTAL 0 + 2 ^ 32 - 1) % 2 ^ 32)
    let goes := fun (x : Host.Outcome State Fault Refusal) => o = .acked → DoesAt s x [(.X_ALERT, 0), (.X_ALERT_N, 0), (.TW_CNT_RETRIES, 0)] fun u => u.rd .X_ALERT 0 = 0
      ∧ u.rd .X_ALERT_N 0 = 0 ∧ retries u tried ∧ ∃ l, l.length = 2 ∧ seq l ∧
        let b := leBytes 1 (2 * s.rd .TW_ALERT_HOSTADDR 0) ++ leBytes 1 (2 * s.rd .TW_ADDR_PRIMARY 0) ++ leBytes 1 (s.rd .X_ALERT 0) ++ l
        u.out = [.twoWire (if s.twPec then b ++ [pecOf b] else b)]
    let misses := fun (x : Host.Outcome State Fault Refusal) => o ≠ .acked →
      (tried ≠ 8 → DoesAt s x [(.X_ALERT_N, 0), (.TW_CNT_RETRIES, 0)] fun u => u.rd .X_ALERT_N 0 = (tried + 1) % 16 ∧ retries u tried ∧ u.out = [])
      ∧ (tried = 8 → Does s x (msgFlds ++ ([.X_ALERT, .X_ALERT_N, .TW_STAT_ALERTFAIL, .TW_CNT_RETRIES] : List Fld)) fun u => u.rd .X_ALERT 0 = 0 ∧ u.rd .X_ALERT_N 0 = 0
          ∧ u.on .TW_STAT_ALERTFAIL 0 = true ∧ s.sent u 1055 msgCANCEL 0)
    let mtried := s.rd .X_MCTP_N 0
    let drops := fun (x : Host.Outcome State Fault Refusal) (l : List Fld) => Does s x (msgFlds ++ ([.X_MCTP_N, .TW_STAT_MCTPFAIL, .TW_CNT_RETRIES] : List Fld) ++ l) fun u =>
      u.mctpq = s.mctpq.drop 1 ∧ u.rd .X_MCTP_N 0 = 0 ∧ u.on .TW_STAT_MCTPFAIL 0 = true
    let tout := exec (.twTimeout cut) s
    let on := s.on .TW_CFG_TOEN 0 = true
    let ends := fun (u : State) => u.on .TW_STAT_TOUT 0 = true
    let runs := s.dead = false ∧ s.aonRuns = true
    (takes → (reg.val = 0 → set [(.TW_CFG_PEC, w % 2), (.TW_CFG_TOEN, w / 2 % 2), (.TW_CFG_ADDR2EN, w / 4 % 2), (.TW_CFG_MASKEN, w / 8 % 2)])
        ∧ (reg.val = 1 → set [(.TW_ADDR_ADDR2, w / 2 ^ 8 % 128), (.TW_ADDR_MASK, w / 2 ^ 16 % 128)])
        ∧ (reg.val = 2 → set [(.TW_SETUP_HOLD, w % 64), (.TW_SETUP_SETUP, w / 2 ^ 8 % 64)]) ∧ (reg.val = 3 → set [(.TW_CCLK_LOW, w % 1024), (.TW_CCLK_HIGH, w / 2 ^ 16 % 1024)])
        ∧ (reg.val = 4 → set [(.TW_ALERT_HOSTADDR, w % 128), (.TW_ALERT_EN, w / 128 % 2), (.TW_ALERT_CAUSES, w / 256 % 16)]))
    ∧ (s.dead = false → s.aonRuns = false → ∀ y ∈ [exec .twRepeatedStartAbort s, first, again, pkt, tout], DoesAt s y [] fun u => u.out = [])
    ∧ (s.dead = false → s.dev = devSTANDBY → DoesAt s (exec .twRepeatedStartAbort s) [] fun _ => True)
    ∧ (runs → s.dev ≠ devSTANDBY → Does s (exec .twRepeatedStartAbort s) (.TW_STAT_PROTO :: msgFlds) fun u => u.on .TW_STAT_PROTO 0 = true ∧ s.sent u 1055 msgPROTOCOL 0)
    ∧ (s.dead = false → ¬(due ∧ tried = 0) → DoesAt s first [] fun u => u.out = []) ∧ (runs → due → tried = 0 → goes first ∧ misses first)
    ∧ (s.dead = false → ¬(due ∧ tried ≠ 0) → DoesAt s again [] fun u => u.out = []) ∧ (runs → due → tried ≠ 0 → goes again ∧ misses again)
    ∧ (s.dead = false → s.mctpq = [] → DoesAt s pkt [] fun u => u.out = [])
    ∧ (∀ q, runs → s.mctpq = [] :: q → DoesAt s pkt [(.TW_CNT_RETRIES, 0)] fun u => u.mctpq = q ∧ u.out = [])
    ∧ (∀ p t q, runs → s.mctpq = (p :: t) :: q → o = .acked → DoesAt s pkt [(.X_MCTP_N, 0), (.TW_CNT_RETRIES, 0)] fun u => u.out = [.twoWire p] ∧ u.rd .X_MCTP_N 0 = 0
        ∧ retries u mtried ∧ u.mctpq = if t = [] then q else t :: q)
    ∧ (∀ p t q, runs → s.mctpq = (p :: t) :: q → o ≠ .acked → (mtried ≠ 8 → DoesAt s pkt [(.X_MCTP_N, 0), (.TW_CNT_RETRIES, 0)] fun u => u.mctpq = s.mctpq
        ∧ u.rd .X_MCTP_N 0 = (mtried + 1) % 16 ∧ retries u mtried) ∧ (mtried = 8 → drops pkt []))
    ∧ (s.dead = false → ¬on → DoesAt s tout [] fun u => u.out = [])
    ∧ (runs → on → (cut = none ∨ (cut = some false ∧ ¬due) ∨ (cut = some true ∧ s.mctpq = [])) → Does s tout (.TW_STAT_TOUT :: msgFlds) fun u => ends u
        ∧ s.sent u 1055 msgTIMEOUT 0)
    ∧ (runs → on → cut = some false → due → Does s tout (msgFlds ++ ([.TW_STAT_TOUT, .TW_STAT_ALERTFAIL, .TW_CNT_RETRIES, .X_ALERT, .X_ALERT_N] : List Fld)) fun u => ends u
        ∧ retries u tried ∧ (tried ≠ 8 → u.rd .X_ALERT_N 0 = (tried + 1) % 16 ∧ s.sent u 1055 msgTIMEOUT 0) ∧ (tried = 8 → u.rd .X_ALERT 0 = 0 ∧ u.on .TW_STAT_ALERTFAIL 0 = true))
    ∧ (runs → on → cut = some true → s.mctpq ≠ [] → mtried ≠ 8 → Does s tout (msgFlds ++ ([.TW_STAT_TOUT, .TW_CNT_RETRIES, .X_MCTP_N] : List Fld)) fun u => ends u
        ∧ u.mctpq = s.mctpq ∧ u.rd .X_MCTP_N 0 = (mtried + 1) % 16 ∧ retries u mtried ∧ s.sent u 1055 msgTIMEOUT 0)
    ∧ (runs → on → cut = some true → s.mctpq ≠ [] → mtried = 8 → drops tout [.TW_STAT_TOUT])

/-- R24, R28, R408, R487, R599 to R603: POR, PIN and CHIP reset put the device in ROM. What the Survives cell of a field does not name returns to its reset value and the
other fields stay; NVM stays; a tower rides a PIN or CHIP reset only with its PRESERVE bit. The primary two-wire address follows the straps, which POR samples. -/
def Obligations.WholeDeviceResets : Prop :=
  ∀ (s : State) (addr rdly : Fin 8) (r : Route),
    let ends := fun (u : State) (kind : Nat) (l : List Fld) =>
      u.dev = devROM ∧ (∀ f i, f ∉ l → f.keeps kind = false → u.rd f i = State.reset.rd f i) ∧ (∀ f i, f ∉ l → f.keeps kind = true → u.rd f i = s.rd f i)
        ∧ (∀ a, u.getNvm a = s.getNvm a) ∧ (∀ g w, u.getI g w = 0) ∧ (∀ g w, u.getD g w = 0) ∧ (∀ a, u.getWin a = State.reset.getWin a)
    let shown : List Fld := [.RND_STAT_ASC, .TW_ADDR_PRIMARY, .X_RESETN_LOW, .CLK_STAT_AONRDY, .CH_STAT_STATE, .TWR_STAT_STATE, .DEV_STATE_PRESERVED0,
      .DEV_STATE_PRESERVED1, .RST_STAT_LAST]
    let rides := fun (u : State) =>
      (s.preserved 0 = true → u.rd .TWR_STAT_STATE 0 = 2 ∧ u.rd .DEV_STATE_PRESERVED0 0 = 1) ∧ (s.preserved 0 = false → u.rd .TWR_STAT_STATE 0 = 0 ∧ u.rd .DEV_STATE_PRESERVED0 0 = 0)
        ∧ (s.preserved 1 = true → u.rd .TWR_STAT_STATE 1 = 2 ∧ u.rd .DEV_STATE_PRESERVED1 0 = 1) ∧ (s.preserved 1 = false → u.rd .TWR_STAT_STATE 1 = 0 ∧ u.rd .DEV_STATE_PRESERVED1 0 = 0)
        ∧ (s.preserved 0 = false → s.preserved 1 = false → u.tower = [])
    (∃ u, exec (.por addr rdly) s = .next u ∧ ends u svALL [.RND_STAT_ASC, .X_STRAP_ADDR, .X_STRAP_RDLY, .TW_ADDR_PRIMARY] ∧ u.tower = []
        ∧ u.rd .X_STRAP_ADDR 0 = addr ∧ u.rd .X_STRAP_RDLY 0 = rdly ∧ u.rd .TW_ADDR_PRIMARY 0 = 0x60 + addr.val)
    ∧ (s.dead = false → ∃ u, exec .pinReset s = .next u ∧ ends u svPIN shown ∧ rides u ∧ u.rd .RST_STAT_LAST 0 = 1 ∧ u.rd .X_RESETN_LOW 0 = 1
        ∧ u.rd .TW_ADDR_PRIMARY 0 = 0x60 + s.rd .X_STRAP_ADDR 0 ∧ u.rd .CLK_STAT_AONRDY 0 = s.rd .CLK_STAT_AONRDY 0)
    ∧ (s.takes r 0x18 → ∃ u, exec (.chipReset r) s = .next u ∧ ends u svPIN shown ∧ rides u ∧ u.rd .RST_STAT_LAST 0 = 2 ∧ u.rd .X_RESETN_LOW 0 = 0
        ∧ u.rd .TW_ADDR_PRIMARY 0 = 0x60 + s.rd .X_STRAP_ADDR 0 ∧ u.rd .CLK_STAT_AONRDY 0 = s.rd .CLK_STAT_AONRDY 0)
    ∧ Does s (exec .resetNRelease s) [.X_RESETN_LOW] fun u => u.rd .X_RESETN_LOW 0 = 0

/-- R35, R44, R216, R259, R445, R446, R467, R601: a GROVE reset clears the grove's memories and registers, counts GEN of its paths up and sets CLRBUSY, RST_CMD answering 0x02
without the domain and 0x03 while clearing; a PORT reset returns the port's and the mailbox's registers and drops what the port had in progress. -/
def Obligations.GroveAndPortResets : Prop :=
  ∀ (s : State) (r : Route) (g : Fin 16) (kind : Fin 4) (bme d3hot : Bool) (cfg : PortCfg),
    let ofGrove := fun (f : Fld) (i : Nat) => f.perGrove ≠ 0 ∧ i / f.perGrove = g.val ∧ f.keeps svGROVE = false
    let cleared := fun (x : Host.Outcome State Fault Refusal) (more : List Fld) => ∃ u, x = .next u
      ∧ (∀ w < 16384, u.getI g w = 0 ∧ ∀ g', g' ≠ g.val → u.getI g' w = s.getI g' w) ∧ (∀ w < 4096, u.getD g w = 0 ∧ ∀ g', g' ≠ g.val → u.getD g' w = s.getD g' w)
      ∧ u.tower = s.tower ∧ u.nvm = s.nvm ∧ u.win = s.win ∧ u.rd .SEQ_CTL_CLRBUSY g = 1
      ∧ (∀ p < 32, u.rd .PATH_POS_POS (32 * g + p) = 0 ∧ u.rd .PATH_POS_GEN (32 * g + p) = (s.rd .PATH_POS_GEN (32 * g + p) + 1) % 2 ^ 16)
      ∧ (s.bit .F5_CTL_EN 0 g = false → ∀ t < 4, u.rd .SEQ_TSTAT_STATE (4 * g + t) = tHALTED)
      ∧ (∀ f i, ofGrove f i → f ∉ [Fld.SEQ_CTL_CLRBUSY, .X_PCI_EFF, .SEQ_TSTAT_STATE] ++ portFlds → u.rd f i = State.reset.rd f i)
      ∧ (∀ f i, ¬ofGrove f i → f ∉ groveFlds ++ more → u.rd f i = s.rd f i)
    let portShown : List Fld := [.MB_STAT_NOFW, .X_PORT_UP, .X_PERSTN_HIGH]
    (s.dead = false → s.pwrOn (16 + g.val) = true → cleared (exec (.groveReset g) s) [])
    ∧ (s.takes r 0x5000 → s.pwrOn (16 + g.val) = false → Does s (exec (.rstGrove r g) s) [.RST_CMD_RESULT] fun u => u.rd .RST_CMD_RESULT 0 = 2)
    ∧ (s.takes r 0x5000 → s.pwrOn (16 + g.val) = true → s.rd .SEQ_CTL_CLRBUSY g ≠ 0 →
        Does s (exec (.rstGrove r g) s) [.RST_CMD_RESULT] fun u => u.rd .RST_CMD_RESULT 0 = 3)
    ∧ (s.takes r 0x5000 → s.pwrOn (16 + g.val) = true → s.rd .SEQ_CTL_CLRBUSY g = 0 → cleared (exec (.rstGrove r g) s) [.RST_CMD_RESULT]
        ∧ ∀ u, exec (.rstGrove r g) s = .next u → u.rd .RST_CMD_RESULT 0 = 0)
    ∧ (s.dead = false → ∃ u, exec (.portReset kind) s = .next u ∧ u.hv = [] ∧ u.b2 = []
        ∧ u.rd .X_PORT_UP 0 = (if kind = 2 then s.rd .X_PORT_UP 0 else 0) ∧ u.rd .X_PERSTN_HIGH 0 = (if kind = 0 then 0 else s.rd .X_PERSTN_HIGH 0)
        ∧ u.rd .MB_STAT_NOFW 0 = s.rd .MB_STAT_NOFW 0 ∧ (kind = 3 → s.rd .X_PORT_UP 0 = 1 → s.sent u 1057 msgSTATE 0)
        ∧ (∀ f i, inPort f = true → f.keeps svPORT = false → f ∉ portShown → u.rd f i = State.reset.rd f i)
        ∧ (∀ f i, (inPort f = false ∨ f.keeps svPORT = true) → f ∉ portShown ++ msgFlds ++ ([.DEV_STATE_STATE, .X_ALERT, .X_FW_CHK, .X_FW_WR, .X_MB_FIRST, .FW_MBX_TOTAL_TOTAL, .FW_MBX_STAT_BUSY] : List Fld) →
            u.rd f i = s.rd f i)
        ∧ u.imem = s.imem ∧ u.dmem = s.dmem ∧ u.tower = s.tower ∧ u.nvm = s.nvm)
    ∧ (s.dead = false → Does s (exec .perstNRelease s) [.X_PERSTN_HIGH] fun u => u.rd .X_PERSTN_HIGH 0 = 1)
    ∧ (s.dead = false → s.rd .X_PORT_UP 0 = 0 → DoesAt s (exec (.busMasterChange bme d3hot cfg) s) [] fun u => u.out = [])
    ∧ (s.dead = false → s.rd .X_PORT_UP 0 ≠ 0 → DoesPend s (exec (.busMasterChange bme d3hot cfg) s)
        [.X_BME, .X_D3HOT, .X_CFG_BAR0, .X_CFG_BAR2, .X_CFG_MPS, .X_CFG_MRRS, .X_CFG_MSE, .X_CFG_MSIXEN, .X_CFG_MSIXFM] fun u =>
        u.on .X_BME 0 = bme ∧ u.on .X_D3HOT 0 = d3hot ∧ u.on .X_CFG_MSE 0 = cfg.mse ∧ u.on .X_CFG_MSIXEN 0 = cfg.msixEn ∧ u.on .X_CFG_MSIXFM 0 = cfg.msixMask
          ∧ u.rd .X_CFG_MPS 0 = cfg.mps.val ∧ u.rd .X_CFG_MRRS 0 = cfg.mrrs.val ∧ u.rd .X_CFG_BAR0 0 = cfg.bar0.toNat / 2 ^ 26 * 2 ^ 26 ∧ u.rd .X_CFG_BAR2 0 = cfg.bar2.toNat / 2 ^ 36 * 2 ^ 36
          ∧ (u.msixHeld = true → u.out = [] ∧ ∀ a, u.getWin a = s.getWin a)
          ∧ (u.msixHeld = false → ∀ v < 64, .msix v ∈ u.out ↔ s.msixOwed v = true))

/-- R12, R29, R466, R477, R478, R482, R602: a MGMT reset, by RST_CMD or by the watchdog, stops the firmware, ends every SPDM session and waits for the Rind's hash of the bank;
a match starts the core, a mismatch takes the chip reset reaction. RST_CMD answers 0x03 while a reset is in progress or without an image. A KICK changes nothing that is held. -/
def Obligations.ManagementResets : Prop :=
  ∀ (s : State) (r : Route),
    let stops := fun (x : Host.Outcome State Fault Refusal) (more : List Fld) (P : State → Prop) => ∃ u, x = .next u ∧ P u
      ∧ u.rd .X_CORE 0 = (if s.hot = .switched then 2 else 1) ∧ u.rd .X_FWUP 0 = 0 ∧ u.rd .MB_STAT_NOFW 0 = 1 ∧ u.rd .TW_MBSTAT_NOFW 0 = 1 ∧ u.hot = .none ∧ u.spdm = [] ∧ u.mctpin = []
      ∧ u.rd .RST_STAT_MGMTCNT 0 = min (s.rd .RST_STAT_MGMTCNT 0 + 1) (2 ^ Fld.RST_STAT_MGMTCNT.width - 1)
      ∧ (∀ f i, f.blk ≠ .fwmbx → f ∉ more ++ mgmtFlds → u.rd f i = s.rd f i) ∧ u.imem = s.imem ∧ u.dmem = s.dmem ∧ u.tower = s.tower ∧ u.nvm = s.nvm
    (s.takes r 0x5000 → (s.rd .X_CORE 0 ≠ 0 ∨ s.running = none) → Does s (exec (.rstMgmt r) s) [.RST_CMD_RESULT] fun u => u.rd .RST_CMD_RESULT 0 = 3)
    ∧ (s.takes r 0x5000 → s.rd .X_CORE 0 = 0 → s.running ≠ none → stops (exec (.rstMgmt r) s) [.RST_CMD_RESULT] fun u => u.rd .RST_CMD_RESULT 0 = 1)
    ∧ (s.dead = false → s.rd .X_FWUP 0 ≠ 0 → s.hot ≠ .switched → stops (exec .watchdogExpire s) msgFlds fun u => ∃ a, s.sent u 1072 msgTIMEOUT a)
    ∧ (s.dead = false → s.rd .X_CORE 0 = 1 → Does s (exec (.mgmtReset true) s) [.X_CORE] fun u => u.rd .X_CORE 0 = 2)
    ∧ (s.dead = false → s.rd .X_CORE 0 = 1 → ∃ u, exec (.mgmtReset false) s = .next u
        ∧ u.dev = (if s.dev = devHOLD ∨ s.rd .DEV_CTL_HOLD_ON_CHIP 0 ≠ 0 then devHOLD else devROM)
        ∧ (s.dev ≠ devHOLD → u.rd .FLT_RSTCAUSE_SOURCE 0 = 1072 ∧ u.rd .FLT_RSTCAUSE_KIND 0 = msgCHECK ∧ u.rd .FLT_RSTCAUSE_VALID 0 = 1))
    ∧ (s.takes r 0x900C → Does s (exec (.kick r) s) [] fun _ => True)

/-- R568, R584, R585, R588 to R598, R622: the power domains of the lanes follow their paths, PWR_OFF switches the domains of R583 that it may and notes the others in PWR_STAT.ERR,
a reading is shown with its flag, an invalid one, a supply out of range and an excursion past shutdown are reported or latch the device, the end of a round sets refresh
rates and throttle, a dip counts. -/
def Obligations.PowerAndTemperature : Prop :=
  ∀ (s : State) (r : Route) (g : Fin 16) (hi report : Bool) (v : DW) (ch : Fin 96) (a b : BitVec 16) (okA okB : Bool),
    let others := fun (u : State) (d : Nat) => ∀ e, e ≠ d → u.pwrOn e = s.pwrOn e
    let reads := fun (l : List Fld) (P : State → Prop) => Does s (exec (.hkConversion ch a okA b okB) s) (l ++ ([.HK_VAL_VALUE, .HK_VAL_VALID] : List Fld)) P
    let shows := fun (u : State) (x : BitVec 16) => u.rd .HK_VAL_VALUE ch = x.toNat ∧ u.rd .HK_VAL_VALID ch = 1
    let loses := fun (u : State) (t : Nat) => ∀ e ∈ u.tower, e ∈ s.tower ∧ e.1 / 0x800000 / 1536 ≠ t
    let held := s.dead = true ∧ s.dev ≠ devLATCHED
    let supply := 64 ≤ ch.val ∧ ch.val < 88
    let idle := supply ∧ s.supplyIdle (ch - 64) = true
    let lost := fun (u : State) => u.rd .HK_VAL_VALID ch = 0 ∧ s.sent u 1052 msgLOSS ch
    let hot := (List.range 64).any s.chanHot
    let cool := (List.range 64).all s.chanCool
    let thr := s.rd .X_THR 0
    let lim := s.rd .PRS_PLIM_LIMIT 0
    let n := s.rd .THM_STAT_COOLCNT 0
    (s.dead = false → s.wantsOut g = true → s.dev = devSERVICE → Does s (exec (.pdaPowerOn g) s) [.PWR_STAT_ON] fun u => u.pwrOn g = true ∧ others u g)
    ∧ (s.dead = false → s.groveDark g = true → Does s (exec (.pdaPowerOff g) s) [.PWR_STAT_ON] fun u => u.pwrOn g = false ∧ others u g)
    ∧ (s.takes r (if hi then 0x400C else 0x4008) → ∃ u, exec (.pwrOffWrite r hi v) s = .next u
        ∧ (∀ d < 56, decide (32 ≤ d) = hi → hostSwitch d = true → u.bit .PWR_OFF_OFF 0 d ≠ bitOf v.toNat (d % 32) →
            bitOf v.toNat (d % 32) = true ∧ s.bit .PWR_OFF_OFF 0 d = false ∧ u.rd .PWR_STAT_ERR 0 = 1)
        ∧ (∀ d < 56, (decide (32 ≤ d) ≠ hi ∨ hostSwitch d = false) → u.bit .PWR_OFF_OFF 0 d = s.bit .PWR_OFF_OFF 0 d ∧ u.pwrOn d = s.pwrOn d)
        ∧ u.tower = s.tower ∧ u.nvm = s.nvm ∧ u.win = s.win)
    ∧ (s.dead = false → s.sampled ch = false → DoesAt s (exec (.hkConversion ch a okA b okB) s) [] fun _ => True)
    ∧ (s.dead = false → s.sampled ch = true → idle → DoesAt s (exec (.hkConversion ch a okA b okB) s) [(.HK_VAL_VALID, ch)] fun u => u.rd .HK_VAL_VALID ch = 0 ∧ u.fq = s.fq)
    ∧ (s.dead = false → s.sampled ch = true → okA = false → ch.val < 92 → ¬idle → reads msgFlds lost)
    ∧ (s.dead = false → s.sampled ch = true → okA = true → 88 ≤ ch.val → ch.val < 92 → reads [] fun u => shows u a)
    ∧ (s.dead = false → s.sampled ch = true → 92 ≤ ch.val → reads [] fun u => shows u 0)
    ∧ (held → s.aonRuns = true → okA = true → okB = true → ch.val < 64 → shutAt ch ≤ a.toInt → shutAt ch ≤ b.toInt →
        ∃ u, exec (.hkConversion ch a okA b okB) s = .next u ∧ u.dev = devLATCHED ∧ u.rd .X_THERMN_LOW 0 = 1 ∧ u.rd .FLT_GSTAT_FAULTN 0 = 1)
    ∧ (held → s.aonRuns = true → okA = true → 78 ≤ ch.val → ch.val < 82 → supplyOk (ch - 64) a.toNat = false → DoesTower s (exec (.hkConversion ch a okA b okB) s) [] fun u => loses u (ch.val % 2))
    ∧ (s.dead = false → s.sampled ch = true → okA = true → ch.val < 64 → a.toInt < shutAt ch → reads [] fun u => shows u a)
    ∧ (s.dead = false → s.sampled ch = true → okA = true → ch.val < 64 → shutAt ch ≤ a.toInt → okB = false → reads msgFlds lost)
    ∧ (s.dead = false → s.sampled ch = true → okA = true → ch.val < 64 → shutAt ch ≤ a.toInt → okB = true → b.toInt < shutAt ch →
        reads msgFlds fun u => shows u b ∧ s.sent u 1052 msgCHECK ch)
    ∧ (s.dead = false → s.sampled ch = true → okA = true → ch.val < 64 → shutAt ch ≤ a.toInt → okB = true → shutAt ch ≤ b.toInt →
        ∃ u, exec (.hkConversion ch a okA b okB) s = .next u ∧ u.dev = devLATCHED ∧ u.rd .X_THERMN_LOW 0 = 1 ∧ u.rd .FLT_GSTAT_FAULTN 0 = 1 ∧ u.rd .PWR_STAT_ON 0 = 0
          ∧ u.tower = [] ∧ (∀ c, u.getNvm c = s.getNvm c))
    ∧ (s.dead = false → s.sampled ch = true → okA = true → 64 ≤ ch.val → ch.val < 88 → s.supplyIdle (ch - 64) = false → supplyOk (ch - 64) a.toNat = true →
        reads [] fun u => shows u a ∧ u.fq = s.fq)
    ∧ (s.dead = false → s.sampled ch = true → okA = true → 64 ≤ ch.val → ch.val < 88 → s.supplyIdle (ch - 64) = false → supplyOk (ch - 64) a.toNat = false →
        ∃ u, exec (.hkConversion ch a okA b okB) s = .next u ∧ shows u a ∧ s.sent u 1048 msgLIMIT (ch - 64)
          ∧ (if 78 ≤ ch.val ∧ ch.val < 82 then loses u (ch.val % 2) else u.tower = s.tower) ∧ s.fldsBut u (([.HK_VAL_VALUE, .HK_VAL_VALID] : List Fld) ++ msgFlds))
    ∧ (s.dead = false → s.aonRuns = false → DoesAt s (exec .housekeepingRoundEnd s) [] fun _ => True)
    ∧ (s.dead = false → s.aonRuns = true → s.dev = devSTANDBY → Does s (exec .housekeepingRoundEnd s) [.HK_STAT_ROUNDS] fun u => u.rd .HK_STAT_ROUNDS 0 = (s.rd .HK_STAT_ROUNDS 0 + 1) % 2 ^ 16)
    ∧ (s.dead = false → s.aonRuns = true → s.dev ≠ devSTANDBY → Does s (exec .housekeepingRoundEnd s) roundFlds fun u => u.rd .HK_STAT_ROUNDS 0 = (s.rd .HK_STAT_ROUNDS 0 + 1) % 2 ^ 16
        ∧ u.rd .THM_STAT_HOT 0 = (if hot then 1 else 0)
        ∧ u.rd .X_THR 0 = (if hot then min thr lim - 8 else if cool ∧ n = 15 then min 104 (thr + 8) else thr)
        ∧ u.rd .THM_STAT_COOLCNT 0 = (if hot then 0 else if cool then (n + 1) % 16 else 0)
        ∧ u.rd .PRS_PLIM_EFF 0 = min (u.rd .X_THR 0) lim
        ∧ ∀ c < 32, u.rd .CH_STAT_REF2X c = (match s.temp (32 + c) with | some t => if 680 < t then 1 else 0 | none => 1))
    ∧ (s.dead = false → s.pwrOn (16 + g.val) = true → Does s (exec (.droop g report) s) (.DROOP_CNT_COUNT :: msgFlds) fun u =>
        u.rd .DROOP_CNT_COUNT g = min (s.rd .DROOP_CNT_COUNT g + 1) 65535 ∧ (if report then s.sent u (1032 + g.val) msgLIMIT 0 else u.fq = s.fq))

/-- R31, R33, R565 to R568, R571, R572: a reference is good after its wait and gives its quadrant QREF_OK, the ROM chooses BREF, a PLL's flag sets when its own condition
holds, HCLK and PCLK switch, and CLK_CMD restarts the failed domains of a source that is ready. -/
def Obligations.ClockSources : Prop :=
  ∀ (s : State) (r : Route) (ref : Fin 5) (target : Fin 16) (v : DW) (q : Fin 4) (m : Fin 2),
    let bitsKeep := fun (u : State) (f : Fld) (i : Nat) => ∀ j, j ≠ i → u.bit f 0 j = s.bit f 0 j
    let waited := s.bit .X_REF_PRES 0 ref = true ∧ s.bit .X_REF_DONE 0 ref = false
    let choose := s.rd .X_BREF_SET 0 = 0 ∧ s.dev ≤ devLOAD ∧ (ref.val = 0 ∨ ref.val = 4)
    let cmd := if s.rd .X_CLKR 0 ≠ 0 then 1 else if 8 ≤ target.val then 4 else if s.srcReady target = false then 2
      else if (restartDoms target).any s.clkFailed = false then 3 else 1
    let aon := bitOf v.toNat 1
    let fsel := if v.toNat / 4 % 4 = 3 then s.rd .CLK_SEL_FSEL 0 else v.toNat / 4 % 4
    let ready := if aon then s.rd .CLK_STAT_AONRDY 0 ≠ 0 else s.rd .CLK_STAT_CPLLRDY 0 ≠ 0
    let same := s.rd .CLK_SEL_HSRC 0 = (if aon then 1 else 0) ∧ (aon = true ∨ s.rd .CLK_STAT_FALLBACK 0 = 0)
    (s.dead = false → Does s (exec (.refPresent ref) s) [.X_REF_PRES] fun u => u.bit .X_REF_PRES 0 ref = true ∧ bitsKeep u .X_REF_PRES ref)
    ∧ (s.dead = false → waited → Does s (exec (.refWaitEnd ref) s) [.X_REF_DONE, .DEV_STATE_QREF_OK, .CLK_SEL_BREF, .X_BREF_SET] fun u =>
        u.bit .X_REF_DONE 0 ref = true ∧ (ref.val < 4 → u.bit .DEV_STATE_QREF_OK 0 ref = true) ∧ bitsKeep u .DEV_STATE_QREF_OK ref
          ∧ (choose → u.rd .X_BREF_SET 0 = 1 ∧ u.rd .CLK_SEL_BREF 0 = (if s.bit .X_REF_PRES 0 0 then 0 else 1))
          ∧ (¬choose → u.rd .X_BREF_SET 0 = s.rd .X_BREF_SET 0 ∧ u.rd .CLK_SEL_BREF 0 = s.rd .CLK_SEL_BREF 0))
    ∧ (s.dead = false → Does s (exec .cpllLock s) [.CLK_STAT_CPLLRDY, .CLK_SEL_HSRC, .CLK_STAT_SWBUSY, .X_HSW] fun u => u.rd .CLK_STAT_CPLLRDY 0 = 1
        ∧ (s.rd .CLK_STAT_CPLLRDY 0 = 0 → s.dev = devROM → s.rd .CLK_SEL_HSRC 0 ≠ 0 → u.rd .CLK_SEL_HSRC 0 = 0 ∧ u.rd .CLK_STAT_SWBUSY 0 = 1 ∧ u.rd .X_HSW 0 = 1))
    ∧ (s.dead = false → Does s (exec .aonclkReady s) [.CLK_STAT_AONRDY] fun u => u.rd .CLK_STAT_AONRDY 0 = 1)
    ∧ (s.dead = false → s.bit .DEV_STATE_QREF_OK 0 q = true →
        Does s (exec (.pllLock (.qpll q)) s) [.CLK_STAT_QRDY] fun u => u.bit .CLK_STAT_QRDY 0 q = true ∧ bitsKeep u .CLK_STAT_QRDY q)
    ∧ (s.dead = false → s.rd .X_BREF_SET 0 ≠ 0 → s.rd .CLK_STAT_CPLLRDY 0 ≠ 0 →
        Does s (exec (.pllLock (.mpll m)) s) [.CLK_STAT_MRDY] fun u => u.bit .CLK_STAT_MRDY 0 m = true ∧ bitsKeep u .CLK_STAT_MRDY m)
    ∧ (s.dead = false → s.bit .X_REF_DONE 0 4 = true → Does s (exec (.pllLock .xpll) s) [.CLK_STAT_XRDY] fun u => u.rd .CLK_STAT_XRDY 0 = 1)
    ∧ (s.dead = false → Does s (exec (.pllLock .tpll) s) [.CLK_STAT_TRDY] fun u => u.rd .CLK_STAT_TRDY 0 = 1)
    ∧ (s.takes r 0x3020 → Does s (exec (.clkRestart r target) s) [.CLK_CMD_RESULT, .X_CLKR] fun u => u.rd .CLK_CMD_RESULT 0 = cmd
        ∧ u.rd .X_CLKR 0 = (if s.rd .X_CLKR 0 = 0 ∧ cmd = 1 then target.val + 1 else s.rd .X_CLKR 0))
    ∧ (s.dead = false → 0 < s.rd .X_CLKR 0 → s.rd .X_CLKR 0 ≤ 8 → ∃ u, exec .clockRestartDone s = .next u ∧ u.rd .X_CLKR 0 = 0 ∧ u.rd .CLK_CMD_RESULT 0 = 0
        ∧ (∀ d, u.clkFailed d = (if d ∈ restartDoms (s.rd .X_CLKR 0 - 1) then false else s.clkFailed d)) ∧ u.tower = s.tower ∧ u.nvm = s.nvm ∧ u.win = s.win)
    ∧ (s.takes r 0x3000 → ¬ready → Does s (exec (.clkSelWrite r v) s) (([.CLK_SEL_FSEL, .CLK_STAT_SWREF] : List Fld) ++ msgFlds) fun u =>
        u.rd .CLK_SEL_FSEL 0 = fsel ∧ u.rd .CLK_STAT_SWREF 0 = 1 ∧ s.sent u 1031 msgREFUSE 22)
    ∧ (s.takes r 0x3000 → ready → same → Does s (exec (.clkSelWrite r v) s) [.CLK_SEL_FSEL] fun u => u.rd .CLK_SEL_FSEL 0 = fsel)
    ∧ (s.takes r 0x3000 → ready → ¬same → Does s (exec (.clkSelWrite r v) s) [.CLK_SEL_FSEL, .CLK_SEL_HSRC, .CLK_STAT_SWBUSY, .X_HSW] fun u =>
        u.rd .CLK_SEL_FSEL 0 = fsel ∧ u.rd .CLK_SEL_HSRC 0 = (if aon then 1 else 0) ∧ u.rd .CLK_STAT_SWBUSY 0 = 1 ∧ u.rd .X_HSW 0 = (if aon then 2 else 1))
    ∧ (s.dead = false → Does s (exec .clockSwitchDone s) [.CLK_STAT_FALLBACK, .CLK_STAT_SWBUSY, .X_HSW] fun u =>
        u.rd .CLK_STAT_SWBUSY 0 = 0 ∧ u.rd .X_HSW 0 = 0 ∧ u.rd .CLK_STAT_FALLBACK 0 = (if s.rd .X_HSW 0 = 1 then 0 else s.rd .CLK_STAT_FALLBACK 0))

/-- R568 to R570, R577, R578, R580 to R582: a lost source clears its ready flag and marks its domains failed, with its message; CLK_RUN clears the enables that R563 allows and
refuses the others with GATEERR; a held gate is applied or forced; the frequency meter measures. -/
def Obligations.ClockFailuresAndGates : Prop :=
  ∀ (s : State) (r : Route) (hi : Bool) (v : DW) (busy : BitVec 39) (d : Fin 39) (count : BitVec 48) (fmax fmin mean : BitVec 16) (modf : BitVec 12) (cross : Nat) (any : ClkFault),
    let fails := fun (f : ClkFault) (P : State → Prop) => ∃ u, exec (.clockFailure f) s = .next u ∧ P u
      ∧ (∀ k i, inPort k = false → k ∉ failFlds → u.rd k i = s.rd k i) ∧ u.imem = s.imem ∧ u.dmem = s.dmem ∧ u.tower = s.tower ∧ u.nvm = s.nvm
    let marked := fun (u : State) (l : List Nat) => ∀ k, u.clkFailed k = (decide (k ∈ l) || s.clkFailed k)
    let told := fun (u : State) (a : Nat) => (s.fq.length < 63 → ⟨1029, msgLOSS, a⟩ ∈ u.fq) ∧ (s.on .VIN_CTL_ROOT 0 = false → u.tbValid = false) ∧ ∀ i < 4, u.rd .VIN_PSTAT_STATE i = 0
    let core : List Nat := [16, 17, 18, 19, 20, 24, 28, 30, 32, 37, 38]
    let quad := fun (q : Nat) => [33 + q, 4 * q, 4 * q + 1, 4 * q + 2, 4 * q + 3]
    let w := v.toNat
    let tgt := if fmTarget (w % 2 ^ 10) then w % 2 ^ 10 else s.rd .FM_CTL_TGT 0
    let depth := (fmax.toInt - fmin.toInt).toNat
    let flat := depth < 200 ∨ cross < 16
    (s.dead = false → s.aonRuns = false → DoesAt s (exec (.clockFailure any) s) [] fun _ => True)
    ∧ (s.dead = false → s.aonRuns = true →
      (∀ q, fails (.qpll q) fun u => u.bit .CLK_STAT_QRDY 0 q = false ∧ marked u (quad q) ∧ s.sent u (1024 + q.val) msgLOSS 0)
      ∧ (∀ q, q.val ≠ 0 ∨ s.rd .X_BREF_SET 0 = 0 ∨ s.rd .CLK_SEL_BREF 0 ≠ 0 → fails (.rclk q) fun u =>
          u.bit .CLK_STAT_QRDY 0 q = false ∧ u.bit .X_REF_PRES 0 q = false ∧ u.bit .DEV_STATE_QREF_OK 0 q = false ∧ marked u (quad q) ∧ s.sent u (1024 + q.val) msgLOSS 0)
      ∧ (fails .cpll fun u => u.rd .CLK_STAT_CPLLRDY 0 = 0 ∧ u.rd .CLK_STAT_MRDY 0 = 0 ∧ marked u core ∧ told u 20)
      ∧ (fails .fpll fun u => marked u [20] ∧ s.sent u 1029 msgLOSS 20)
      ∧ (∀ t, fails (.mpll t) fun u => u.bit .CLK_STAT_MRDY 0 t = false ∧ marked u [16 + t.val, 18 + t.val] ∧ s.sent u 1029 msgLOSS (16 + t.val))
      ∧ (fails .npll fun u => marked u [30] ∧ told u 30)
      ∧ (fails .xpll fun u => u.rd .CLK_STAT_XRDY 0 = 0 ∧ u.rd .X_PORT_UP 0 = 0 ∧ marked u [26, 27] ∧ s.sent u 1030 msgLOSS 0)
      ∧ (s.rd .X_BREF_SET 0 = 0 ∨ s.rd .CLK_SEL_BREF 0 = 0 → fails .xref fun u =>
          u.bit .X_REF_PRES 0 4 = false ∧ u.rd .CLK_STAT_XRDY 0 = 0 ∧ u.rd .X_PORT_UP 0 = 0 ∧ marked u [26, 27] ∧ s.sent u 1030 msgLOSS 0)
      ∧ (fails (.dom 21) fun u => marked u [] ∧ s.sent u 1029 msgLOSS 21)
      ∧ (fails .aon fun u => marked u [25] ∧ s.sent u 1029 msgLOSS 25)
      ∧ (∀ k : Fin 39, k.val < 16 → fails (.dom k) fun u => marked u [k.val] ∧ s.sent u (1024 + k.val / 4) msgLOSS 0))
    ∧ (s.takes r (if hi then 0x3034 else 0x3030) → Does s (exec (.clkRunWrite r hi v busy) s) (([.CLK_RUN_EN, .CLK_GPEND_GATE_PEND, .CLK_STAT_GATEERR] : List Fld) ++ msgFlds) fun u =>
        ∀ k < 39, u.bit .CLK_RUN_EN 0 k =
          if decide (32 ≤ k) ≠ hi ∨ k = 25 ∨ k = 31 ∨ s.bit .CLK_RUN_EN 0 k = bitOf w (k % 32) then s.bit .CLK_RUN_EN 0 k
          else if bitOf w (k % 32) then true else !s.mayGate k)
    ∧ (s.dead = false → Does s (exec (.gateApply d) s) [.CLK_GPEND_GATE_PEND] fun u => u.bit .CLK_GPEND_GATE_PEND 0 d = false)
    ∧ (s.dead = false → s.bit .CLK_GPEND_GATE_PEND 0 d = true → ∃ u, exec (.gateForce d) s = .next u ∧ u.bit .CLK_GPEND_GATE_PEND 0 d = false
        ∧ s.sent u 1031 msgTIMEOUT d ∧ u.tower = s.tower ∧ u.nvm = s.nvm)
    ∧ (s.takes r 0x3080 → Does s (exec (.fmGo r v) s) [.FM_CTL_TGT, .FM_CTL_REF, .FM_CTL_GATE, .FM_CTL_MODE, .FM_CTL_BUSY, .FM_CTL_ERR] fun u =>
        u.rd .FM_CTL_TGT 0 = tgt ∧ u.rd .FM_CTL_REF 0 = w / 2 ^ 10 % 2 ^ 7 ∧ u.rd .FM_CTL_GATE 0 = w / 2 ^ 17 % 2 ^ 5 ∧ u.rd .FM_CTL_MODE 0 = w / 2 ^ 22 % 2
          ∧ (s.rd .FM_CTL_BUSY 0 = 0 → if u.fmRefused then u.rd .FM_CTL_ERR 0 = 1 ∧ u.rd .FM_CTL_BUSY 0 = 0 else u.rd .FM_CTL_BUSY 0 = 1))
    ∧ (s.dead = false → s.rd .FM_CTL_BUSY 0 ≠ 0 → s.rd .FM_CTL_MODE 0 = 0 →
        Does s (exec (.fmDone count fmax fmin mean modf cross) s) [.FM_CTL_BUSY, .FM_COUNT_COUNT] fun u => u.rd .FM_CTL_BUSY 0 = 0 ∧ u.rd .FM_COUNT_COUNT 0 = count.toNat)
    ∧ (s.dead = false → s.rd .FM_CTL_BUSY 0 ≠ 0 → s.rd .FM_CTL_MODE 0 ≠ 0 → Does s (exec (.fmDone count fmax fmin mean modf cross) s)
        [.FM_CTL_BUSY, .FM_SSC_FMAX, .FM_SSC_FMIN, .FM_SSC2_DEPTH, .FM_SSC2_MODF, .FM_SSC2_NOSSC, .FM_MEAN_MEAN] fun u => u.rd .FM_CTL_BUSY 0 = 0
          ∧ u.rd .FM_SSC_FMAX 0 = fmax.toNat ∧ u.rd .FM_SSC_FMIN 0 = fmin.toNat ∧ u.rd .FM_SSC2_DEPTH 0 = depth % 2 ^ 13 ∧ u.rd .FM_MEAN_MEAN 0 = mean.toNat
          ∧ (flat → u.rd .FM_SSC2_MODF 0 = 0 ∧ u.rd .FM_SSC2_NOSSC 0 = 1) ∧ (¬flat → u.rd .FM_SSC2_MODF 0 = modf.toNat ∧ u.rd .FM_SSC2_NOSSC 0 = 0))

/-- R499, R544 to R557: the collector takes the oldest message of its queue, sets the status bit of its source, buffers it with its epoch and applies its effective reaction: log
only, interrupt, trap, block reset, chip reset or FAULT_N; all but log only latch the first fault. -/
def Obligations.FaultMessageReactions : Prop :=
  ∀ (s : State) (m : Msg) (rest : List Msg), s.dead = false → s.fqOver = [] → s.fq = m :: rest → s.rd .X_FQ_RUN 0 = 0 → m.src < 1152 →
    let lvl := (s.effective m.src).1
    let esc := (s.effective m.src).2
    let x := exec .faultMessage s
    let logged := fun (u : State) => u.status m.src = true ∧ u.fq = rest
      ∧ (s.evbuf.length < 4096 → u.evbuf = s.evbuf ++ [⟨m, s.epochNow, s.tbValid, lvl⟩]) ∧ (4096 ≤ s.evbuf.length → u.evbuf = s.evbuf)
    let first := fun (u : State) => if s.rd .FLT_FIRST_SRC_VALID 0 ≠ 0 then u.rd .FLT_FIRST_SRC_OVF 0 = 1 ∧ u.rd .FLT_FIRST_SRC_SOURCE 0 = s.rd .FLT_FIRST_SRC_SOURCE 0
      else u.rd .FLT_FIRST_SRC_VALID 0 = 1 ∧ u.rd .FLT_FIRST_SRC_SOURCE 0 = m.src ∧ u.rd .FLT_FIRST_SRC_KIND 0 = m.kind % 2 ^ Fld.FLT_FIRST_SRC_KIND.width
        ∧ u.rd .FLT_FIRST_SRC_REACT 0 = lvl ∧ u.rd .FLT_FIRST_SRC_ESC 0 = (if esc then 1 else 0) ∧ u.rd .FLT_FIRST_EPOCH 0 = s.epochNow
    let signals := fun (u : State) => u.rd .FLT_GSTAT_IRQ 0 = 1
      ∧ ((s.getWin (0x10000 + 16 * srcVector m.src + 12)).toNat % 2 = 0 → .msix (srcVector m.src) ∈ u.out)
    let ends := fun (l : List Fld) (P : State → Prop) => ∃ u, x = .next u ∧ P u ∧ s.fldsBut u (l ++ firstFlds) ∧ u.imem = s.imem ∧ u.dmem = s.dmem ∧ u.tower = s.tower
      ∧ u.nvm = s.nvm ∧ ∀ a, ¬(0x10800 ≤ a ∧ a < 0x10880) → u.getWin a = s.getWin a
    (lvl = rLOG → Does s x [.FLT_STAT_STAT, .FLT_EVLOST_COUNT] logged)
    ∧ (lvl = rIRQ → ends [] fun u => logged u ∧ first u ∧ signals u)
    ∧ (lvl = rTRAP → ends [.FLT_GSTAT_TRAPPEND] fun u => logged u ∧ first u ∧ signals u
        ∧ (if s.rd .X_FWUP 0 ≠ 0 then .trap ∈ u.out ∧ u.rd .FLT_GSTAT_TRAPPEND 0 = s.rd .FLT_GSTAT_TRAPPEND 0 else u.rd .FLT_GSTAT_TRAPPEND 0 = 1))
    ∧ (lvl = rFAULTN → ends [.FLT_GSTAT_FAULTN] fun u => logged u ∧ first u ∧ signals u ∧ u.rd .FLT_GSTAT_FAULTN 0 = 1)
    ∧ (lvl = rBLOCK → m.src < 896 → let g := if m.src < 512 then m.src / 32 else if m.src < 768 then (m.src - 512) / 16 else (m.src - 768) / 8
        s.pwrOn (16 + g) = true → ∃ u, x = .next u ∧ logged u ∧ first u ∧ signals u ∧ u.rd .SEQ_CTL_CLRBUSY g = 1 ∧ ∀ p < 32, u.rd .PATH_POS_POS (32 * g + p) = 0)
    ∧ (lvl = rBLOCK → m.src = 1055 → rest.length < 64 → ∃ u, x = .next u ∧ u.status m.src = true ∧ first u ∧ signals u ∧ u.rd .TW_STAT_TOUT 0 = 1
        ∧ u.fq = rest ++ [⟨1055, msgTIMEOUT, 0⟩])
    ∧ (lvl = rCHIP → s.dev ≠ devHOLD → ∃ u, x = .next u ∧ u.dev = (if s.rd .DEV_CTL_HOLD_ON_CHIP 0 ≠ 0 then devHOLD else devROM)
        ∧ u.rd .FLT_RSTCAUSE_SOURCE 0 = m.src ∧ u.rd .FLT_RSTCAUSE_VALID 0 = 1 ∧ u.rd .FLT_RSTCAUSE_ESC 0 = (if esc then 1 else 0))

/-- R546, R551, R553, R554, R556, R559, R562: status bits and the first fault clear as written, a persistent cause sends its message again, FAULTN_CLR releases FAULT_N, FLT_SEV
keeps reserved reactions out and 1051's as it is, FLT_INJ keeps a reserved checker out (R6) and arms an injection or answers why not. -/
def Obligations.FaultRegisters : Prop :=
  ∀ (s : State) (r : Route) (i : Fin 36) (v : DW) (irqen : Bool) (src : Fin 1152),
    let w := v.toNat
    let first : List Fld := [.FLT_FIRST_ADDR, .FLT_FIRST_SRC_SOURCE, .FLT_FIRST_SRC_KIND, .FLT_FIRST_SRC_REACT, .FLT_FIRST_SRC_VALID, .FLT_FIRST_SRC_OVF, .FLT_FIRST_SRC_INJ,
      .FLT_FIRST_SRC_COLLIDE, .FLT_FIRST_SRC_ESC, .FLT_FIRST_EPOCH]
    let sev := fun (u : State) (f : Fld) => ∀ k, k ≠ src.val → u.rd f k = s.rd f k
    let c := w % 64
    let b := w / 64 % 4
    let n := w / 256 % 256
    let result := if s.rd .FLT_INJ_BUSY 0 ≠ 0 then 2 else if b = 0 ∨ n = 0 then 0 else if injMax c < b then 3 else 0
    let arms := s.rd .FLT_INJ_BUSY 0 = 0 ∧ b ≠ 0 ∧ n ≠ 0 ∧ b ≤ injMax c
    (s.takes r (0x100100 + 4 * i.val) → s.causes = [] → Does s (exec (.statusClear r i v) s) [.FLT_STAT_STAT] fun u =>
        (∀ k < 32, u.bit .FLT_STAT_STAT i k = (s.bit .FLT_STAT_STAT i k && !bitOf w k)) ∧ (∀ j, j ≠ i.val → u.rd .FLT_STAT_STAT j = s.rd .FLT_STAT_STAT j) ∧ u.fq = s.fq)
    ∧ (s.takes r (0x100100 + 4 * i.val) → ∀ (k : Fin 32) (m : Msg), v = 1#32 <<< k.val → s.bit .FLT_STAT_STAT i k = true → m.src = 32 * i.val + k.val → m.addr < 2 ^ 48 →
        s.causes.filterMap (·.2) = [m] → s.fq.length < 64 → Does s (exec (.statusClear r i v) s) [.FLT_STAT_STAT] fun u => u.fq = s.fq ++ [m])
    ∧ (s.takes r 0x100018 → Does s (exec (.firstFaultClear r) s) first fun u => ∀ f ∈ first, u.rd f 0 = 0)
    ∧ (s.takes r 0x100000 → Does s (exec (.faultnClr r irqen) s) [.FLT_CTL_IRQEN, .FLT_GSTAT_FAULTN] fun u =>
        u.rd .FLT_CTL_IRQEN 0 = (if irqen then 1 else 0) ∧ u.rd .FLT_GSTAT_FAULTN 0 = 0)
    ∧ (s.takes r (0x101000 + 4 * src.val) → Does s (exec (.fltSevWrite r src v) s) [.FLT_SEV_CLASS, .FLT_SEV_REACT] fun u => sev u .FLT_SEV_CLASS ∧ sev u .FLT_SEV_REACT
        ∧ u.rd .FLT_SEV_CLASS src = (if src.val < 1075 then w / 8 % 16 else s.rd .FLT_SEV_CLASS src)
        ∧ u.rd .FLT_SEV_REACT src = (if src.val < 1075 ∧ w % 8 < 6 ∧ src.val ≠ 1051 then w % 8 else s.rd .FLT_SEV_REACT src))
    ∧ (s.takes r 0x100040 → Does s (exec (.fltInjArm r v) s)
        [.FLT_INJ_CHECKER, .FLT_INJ_BITS, .FLT_INJ_COUNT, .FLT_INJ_RESULT, .FLT_INJ_BUSY, .X_INJ_CHECKER, .X_INJ_BITS, .X_INJ_LEFT] fun u =>
        u.rd .FLT_INJ_CHECKER 0 = (if c < 31 then c else s.rd .FLT_INJ_CHECKER 0) ∧ u.rd .FLT_INJ_BITS 0 = b ∧ u.rd .FLT_INJ_COUNT 0 = n ∧ u.rd .FLT_INJ_RESULT 0 = result
          ∧ (arms → u.rd .FLT_INJ_BUSY 0 = 1 ∧ u.rd .X_INJ_CHECKER 0 = c ∧ u.rd .X_INJ_BITS 0 = b ∧ u.rd .X_INJ_LEFT 0 = n)
          ∧ (¬arms → u.rd .FLT_INJ_BUSY 0 = s.rd .FLT_INJ_BUSY 0 ∧ u.rd .X_INJ_LEFT 0 = s.rd .X_INJ_LEFT 0))

/-- R604 to R608, R610: a feed updates CU_VAL by each byte and counts it; the byte that completes LEN ends the message: its result goes to CU_LRES, it is compared, and the unit
starts anew. CU_CNT and CU_ALIVE take what is written. INIT loads the initial value, a change of POLY does so too, CU_STAT's flags clear as written. -/
def Obligations.CheckValueUnits : Prop :=
  ∀ (s : State) (r : Route) (u : Fin 8) (v : DW),
    let w := v.toNat
    let alg := s.cuAlg u
    let M := 2 ^ alg.width
    let val := s.rd .CU_VAL_VAL u
    let cnt := s.rd .CU_CNT_CNT u
    let len := s.rd .CU_CTL_LEN u
    let step := fun (x : Nat) (b : Byte) => crcByte alg (x % M) b % 2 ^ 64
    let own := fun (t : State) (l : List Fld) => ∀ f ∈ l, ∀ k, k ≠ u.val → t.rd f k = s.rd f k
    let feeds := fun (x : Host.Outcome State Fault Refusal) (n : Nat) => (len = 0 ∨ cnt + n < len) →
      Does s x [.CU_VAL_VAL, .CU_RES_RES, .CU_CNT_CNT, .X_CU_FLD, .X_CU_SEEN] fun t => t.rd .CU_VAL_VAL u = (leBytes n w).foldl step val
        ∧ t.rd .CU_RES_RES u = Nat.xor (t.rd .CU_VAL_VAL u) alg.fin % M % 2 ^ 64 ∧ t.rd .CU_CNT_CNT u = (cnt + n) % 65536 ∧ own t [.CU_VAL_VAL, .CU_RES_RES, .CU_CNT_CNT]
    let res := Nat.xor (step val (BitVec.ofNat 8 w)) alg.fin % M
    let started := fun (t : State) (a : CrcAlg) => t.rd .CU_VAL_VAL u = a.init % 2 ^ 64 ∧ t.rd .CU_CNT_CNT u = 0
    let poly := if w % 8 < 5 then w % 8 else s.rd .CU_CTL_POLY u
    (s.takes r (addrCu u + 8) → feeds (exec (.cuFeed8 r u v) s) 1)
    ∧ (s.takes r (addrCu u + 0xC) → feeds (exec (.cuFeed16 r u v) s) 2)
    ∧ (s.takes r (addrCu u + 0x10) → feeds (exec (.cuFeed32 r u v) s) 4)
    ∧ (s.takes r (addrCu u + 8) → len = cnt + 1 → s.rd .CU_CTL_AMODE u = 0 → s.rd .X_INJ_LEFT 0 = 0 →
        Does s (exec (.cuFeed8 r u v) s) (([.CU_VAL_VAL, .CU_RES_RES, .CU_CNT_CNT, .X_CU_FLD, .X_CU_SEEN, .CU_LRES_RES, .CU_STAT_MATCH, .CU_STAT_MISM] : List Fld) ++ msgFlds) fun t =>
          started t alg ∧ t.rd .CU_LRES_RES u = res % 2 ^ 64
          ∧ (s.rd .CU_CTL_CMPEN u ≠ 0 → res = s.rd .CU_EXP_EXP u % M → t.rd .CU_STAT_MATCH u = 1 ∧ t.fq = s.fq)
          ∧ (s.rd .CU_CTL_CMPEN u ≠ 0 → res ≠ s.rd .CU_EXP_EXP u % M → t.rd .CU_STAT_MISM u = 1 ∧ s.sent t (1060 + u.val) msgCHECK 0)
          ∧ (s.rd .CU_CTL_CMPEN u = 0 → t.rd .CU_STAT_MATCH u = s.rd .CU_STAT_MATCH u ∧ t.rd .CU_STAT_MISM u = s.rd .CU_STAT_MISM u))
    ∧ (s.takes r (addrCu u + 4) → Does s (exec (.cuInit r u) s) [.CU_STAT_AVALID, .CU_VAL_VAL, .CU_CNT_CNT, .CU_RES_RES, .X_CU_FLD, .X_CU_SEEN] fun t =>
        started t alg ∧ t.rd .CU_STAT_AVALID u = 0)
    ∧ (s.takes r (addrCu u) → ∃ t, exec (.cuCtlWrite r u v) s = .next t ∧ s.memSame t ∧ t.rd .CU_CTL_POLY u = poly ∧ t.rd .CU_CTL_CMPEN u = w / 8 % 2
        ∧ t.rd .CU_CTL_AMODE u = (if w / 16 % 4 < 3 then w / 16 % 4 else s.rd .CU_CTL_AMODE u) ∧ t.rd .CU_CTL_AWID u = (if w / 64 % 4 < 3 then w / 64 % 4 else s.rd .CU_CTL_AWID u)
        ∧ t.rd .CU_CTL_LEN u = w / 65536 ∧ (poly ≠ s.rd .CU_CTL_POLY u → started t (t.cuAlg u))
        ∧ (poly = s.rd .CU_CTL_POLY u → (w / 65536 = 0 ∨ cnt < w / 65536) → t.rd .CU_VAL_VAL u = val ∧ t.rd .CU_CNT_CNT u = cnt)
        ∧ ∀ f i, f.blk ≠ .cu → f ∉ msgFlds ++ ([.X_INJ_LEFT, .FLT_INJ_BUSY, .X_CU_FLD, .X_CU_SEEN] : List Fld) → t.rd f i = s.rd f i)
    ∧ (∀ x ∈ ([(0x2C, .CU_ALIVE_AOFS), (0x38, .CU_CNT_CNT)] : List (Nat × Fld)), s.takes r (addrCu u + x.1) →
        DoesAt s (exec (.registerWrite r (BitVec.ofNat 24 ((addrCu u + x.1) / 4)) [v] true) s) [(x.2, u), (.X_CU_SEEN, u)] fun t => t.rd x.2 u = w % 65536)
    ∧ (s.takes r (addrCu u + 0x34) →
        Does s (exec (.cuStatWrite r u v) s) [.CU_STAT_AVALID, .CU_STAT_MATCH, .CU_STAT_MISM, .CU_STAT_REPEAT, .CU_STAT_SKIP, .CU_STAT_OVERRUN] fun t =>
          t.rd .CU_STAT_AVALID u = w / 32 % 2 ∧ t.rd .CU_STAT_MATCH u = (if w % 2 = 1 then 0 else s.rd .CU_STAT_MATCH u)
          ∧ t.rd .CU_STAT_MISM u = (if w / 2 % 2 = 1 then 0 else s.rd .CU_STAT_MISM u) ∧ t.rd .CU_STAT_REPEAT u = (if w / 4 % 2 = 1 then 0 else s.rd .CU_STAT_REPEAT u)
          ∧ t.rd .CU_STAT_SKIP u = (if w / 8 % 2 = 1 then 0 else s.rd .CU_STAT_SKIP u) ∧ t.rd .CU_STAT_OVERRUN u = (if w / 16 % 2 = 1 then 0 else s.rd .CU_STAT_OVERRUN u))
end

