-- ==== Sys2Proof/Laws/Store.lean ====
section
/-! SUPPORT. What the store operations do: read after write, and that a write keeps the canonical form. -/
namespace Sys2Proof.Machine

variable {κ α : Type}

theorem storeGet_del_same [DecidableEq κ] (m : List (κ × α)) (d : α) (k : κ) : storeGet (storeDel m k) d k = d := by
  induction m with
  | nil => rfl
  | cons e r ih =>
    obtain ⟨k', v⟩ := e
    by_cases h : k' = k
    · simp [storeDel, h, ih]
    · simp [storeDel, h, storeGet, ih]

theorem storeGet_del_ne [DecidableEq κ] (m : List (κ × α)) (d : α) {j k : κ} (hjk : j ≠ k) :
    storeGet (storeDel m k) d j = storeGet m d j := by
  induction m with
  | nil => rfl
  | cons e r ih =>
    obtain ⟨k', v⟩ := e
    by_cases h : k' = k
    · subst h; simp [storeDel, storeGet, ih, Ne.symm hjk]
    · by_cases h2 : k' = j
      · subst h2; simp [storeDel, h, storeGet]
      · simp [storeDel, h, storeGet, h2, ih]

theorem storeGet_ins_ne [DecidableEq κ] (code : κ → Nat) (m : List (κ × α)) (d : α) {j k : κ} (v : α) (hjk : j ≠ k) :
    storeGet (storeIns code m k v) d j = storeGet m d j := by
  induction m with
  | nil => simp [storeIns, storeGet, Ne.symm hjk]
  | cons e r ih =>
    obtain ⟨k', v'⟩ := e
    unfold storeIns
    split
    · simp [storeGet, Ne.symm hjk]
    · simp [storeGet, ih]

theorem storeGet_ins_del [DecidableEq κ] (code : κ → Nat) (m : List (κ × α)) (d : α) (k : κ) (v : α) :
    storeGet (storeIns code (storeDel m k) k v) d k = v := by
  induction m with
  | nil => simp [storeDel, storeIns, storeGet]
  | cons e r ih =>
    obtain ⟨k', v'⟩ := e
    by_cases h : k' = k
    · simp [storeDel, h, ih]
    · simp only [storeDel, h, if_false]
      unfold storeIns
      split
      · simp [storeGet]
      · simp [storeGet, h, ih]

/-- A read after a write to the same key gives the value written, in every list. -/
theorem storeGet_set_same [DecidableEq κ] [DecidableEq α] (code : κ → Nat) (m : List (κ × α)) (d : α) (k : κ) (v : α) :
    storeGet (storeSet code m d k v) d k = v := by
  unfold storeSet
  split
  · rename_i h; rw [storeGet_del_same, h]
  · exact storeGet_ins_del code m d k v

/-- A write leaves every other key alone. -/
theorem storeGet_set_ne [DecidableEq κ] [DecidableEq α] (code : κ → Nat) (m : List (κ × α)) (d e : α) {j k : κ} (v : α)
    (hjk : j ≠ k) : storeGet (storeSet code m d k v) e j = storeGet m e j := by
  unfold storeSet
  split
  · exact storeGet_del_ne m e hjk
  · rw [storeGet_ins_ne code _ e v hjk, storeGet_del_ne m e hjk]

theorem storeWfFrom_mono [DecidableEq α] (code : κ → Nat) (dflt : κ → α) {b c : Nat} (hbc : b ≤ c) {m : List (κ × α)}
    (h : storeWfFrom code dflt c m = true) : storeWfFrom code dflt b m = true := by
  cases m with
  | nil => rfl
  | cons e r =>
    obtain ⟨k, v⟩ := e
    simp only [storeWfFrom, Bool.and_eq_true, decide_eq_true_eq] at h ⊢
    exact ⟨⟨le_trans hbc h.1.1, h.1.2⟩, h.2⟩

theorem storeWfFrom_del [DecidableEq κ] [DecidableEq α] (code : κ → Nat) (dflt : κ → α) (k : κ) :
    ∀ (m : List (κ × α)) (b : Nat), storeWfFrom code dflt b m = true → storeWfFrom code dflt b (storeDel m k) = true := by
  intro m
  induction m with
  | nil => intro b h; exact h
  | cons e r ih =>
    obtain ⟨k', v⟩ := e
    intro b h
    simp only [storeWfFrom, Bool.and_eq_true, decide_eq_true_eq] at h
    by_cases hk : k' = k
    · simp only [storeDel, hk, if_true]
      exact ih b (storeWfFrom_mono code dflt (by omega) h.2)
    · simp only [storeDel, hk, if_false, storeWfFrom, Bool.and_eq_true, decide_eq_true_eq]
      exact ⟨h.1, ih _ h.2⟩

theorem storeWfFrom_ins [DecidableEq κ] [DecidableEq α] (code : κ → Nat) (hinj : Function.Injective code) (dflt : κ → α)
    (k : κ) (v : α) (hv : v ≠ dflt k) :
    ∀ (m : List (κ × α)) (b : Nat), b ≤ code k → storeWfFrom code dflt b m = true →
      storeWfFrom code dflt b (storeIns code (storeDel m k) k v) = true := by
  intro m
  induction m with
  | nil => intro b hb _; simp [storeDel, storeIns, storeWfFrom, hb, hv]
  | cons e r ih =>
    obtain ⟨k', v'⟩ := e
    intro b hb h
    simp only [storeWfFrom, Bool.and_eq_true, decide_eq_true_eq] at h
    by_cases hk : k' = k
    · simp only [storeDel, hk, if_true]
      exact ih b hb (storeWfFrom_mono code dflt (by omega) h.2)
    · simp only [storeDel, hk, if_false]
      have hne : code k ≠ code k' := fun hc => hk (hinj hc).symm
      unfold storeIns
      split
      · rename_i hlt
        simp only [storeWfFrom, Bool.and_eq_true, decide_eq_true_eq]
        refine ⟨⟨hb, hv⟩, ⟨hlt, h.1.2⟩, storeWfFrom_del code dflt k r _ h.2⟩
      · rename_i hnl
        simp only [storeWfFrom, Bool.and_eq_true, decide_eq_true_eq]
        exact ⟨h.1, ih (code k' + 1) (by omega) h.2⟩

/-- A write keeps the canonical form. -/
theorem storeWf_set [DecidableEq κ] [DecidableEq α] (code : κ → Nat) (hinj : Function.Injective code) (dflt : κ → α)
    (m : List (κ × α)) (k : κ) (v : α) (h : storeWf code dflt m = true) :
    storeWf code dflt (storeSet code m (dflt k) k v) = true := by
  unfold storeWf storeSet at *
  split
  · exact storeWfFrom_del code dflt k m 0 h
  · rename_i hv
    exact storeWfFrom_ins code hinj dflt k v hv m 0 (Nat.zero_le _) h

end Sys2Proof.Machine
end

