-- ==== Sys2Proof/Laws/State.lean ====
section
/-! SUPPORT. What each update of the state changes and leaves: one lemma per field and update, read after write of register fields, and that every write keeps the
canonical form of its store. -/
namespace Sys2Proof.Machine

variable (s : State)

/-! Registers. -/

theorem fldCode_inj : Function.Injective fldCode := by
  rintro ⟨f, i⟩ ⟨g, j⟩ h
  have hf : ∀ f : Fld, f.ctorIdx < 1024 := by intro f; cases f <;> decide
  have h1 := hf f
  have h2 := hf g
  simp only [fldCode] at h
  have hi : i = j := by omega
  have hc : f.ctorIdx = g.ctorIdx := by omega
  have hfg : f = g := by
    have a := Fld.ofNat_ctorIdx f
    have b := Fld.ofNat_ctorIdx g
    rw [← a, ← b, hc]
  rw [hi, hfg]

/-- Read after write of a register field. -/
theorem State.rd_wr (f g : Fld) (i j v : Nat) : (s.wr f i v).rd g j = if g = f ∧ j = i then v % 2 ^ f.width else s.rd g j := by
  unfold State.rd State.wr
  split
  · rename_i h; obtain ⟨rfl, rfl⟩ := h
    simp only [storeGet_set_same, Nat.mod_mod]
  · rename_i h
    rw [storeGet_set_ne]
    intro e; exact h ⟨congrArg Prod.fst e, congrArg Prod.snd e⟩

@[simp] theorem State.rd_wr_same (f : Fld) (i v : Nat) : (s.wr f i v).rd f i = v % 2 ^ f.width := by simp [State.rd_wr]

theorem State.rd_wr_ne {f g : Fld} {i j : Nat} (v : Nat) (h : ¬(g = f ∧ j = i)) : (s.wr f i v).rd g j = s.rd g j := by simp [State.rd_wr, h]

/-- A field reads below 2 to its width. -/
theorem State.rd_lt (f : Fld) (i : Nat) : s.rd f i < 2 ^ f.width := Nat.mod_lt _ (Nat.two_pow_pos _)

theorem State.set_def (f : Fld) (i : Nat) : s.set f i = s.wr f i 1 := rfl
theorem State.clr_def (f : Fld) (i : Nat) : s.clr f i = s.wr f i 0 := rfl
theorem State.wrB_def (f : Fld) (i : Nat) (b : Bool) : s.wrB f i b = s.wr f i (if b then 1 else 0) := rfl
theorem State.on_def (f : Fld) (i : Nat) : s.on f i = (s.rd f i != 0) := rfl

/-! What an update leaves. -/

@[simp] theorem State.wr_pending (f : Fld) (i v : Nat) : (s.wr f i v).pending = s.pending := rfl
@[simp] theorem State.wr_hiLatch (f : Fld) (i v : Nat) : (s.wr f i v).hiLatch = s.hiLatch := rfl
@[simp] theorem State.wr_win (f : Fld) (i v : Nat) : (s.wr f i v).win = s.win := rfl
@[simp] theorem State.wr_imem (f : Fld) (i v : Nat) : (s.wr f i v).imem = s.imem := rfl
@[simp] theorem State.wr_dmem (f : Fld) (i v : Nat) : (s.wr f i v).dmem = s.dmem := rfl
@[simp] theorem State.wr_halfStage (f : Fld) (i v : Nat) : (s.wr f i v).halfStage = s.halfStage := rfl
@[simp] theorem State.wr_chg (f : Fld) (i v : Nat) : (s.wr f i v).chg = s.chg := rfl
@[simp] theorem State.wr_waits (f : Fld) (i v : Nat) : (s.wr f i v).waits = s.waits := rfl
@[simp] theorem State.wr_mblk (f : Fld) (i v : Nat) : (s.wr f i v).mblk = s.mblk := rfl
@[simp] theorem State.wr_held (f : Fld) (i v : Nat) : (s.wr f i v).held = s.held := rfl
@[simp] theorem State.wr_items (f : Fld) (i v : Nat) : (s.wr f i v).items = s.items := rfl
@[simp] theorem State.wr_strikes (f : Fld) (i v : Nat) : (s.wr f i v).strikes = s.strikes := rfl
@[simp] theorem State.wr_strm (f : Fld) (i v : Nat) : (s.wr f i v).strm = s.strm := rfl
@[simp] theorem State.wr_staged (f : Fld) (i v : Nat) : (s.wr f i v).staged = s.staged := rfl
@[simp] theorem State.wr_carry (f : Fld) (i v : Nat) : (s.wr f i v).carry = s.carry := rfl
@[simp] theorem State.wr_tower (f : Fld) (i v : Nat) : (s.wr f i v).tower = s.tower := rfl
@[simp] theorem State.wr_nvm (f : Fld) (i v : Nat) : (s.wr f i v).nvm = s.nvm := rfl
@[simp] theorem State.wr_fq (f : Fld) (i v : Nat) : (s.wr f i v).fq = s.fq := rfl
@[simp] theorem State.wr_fqOver (f : Fld) (i v : Nat) : (s.wr f i v).fqOver = s.fqOver := rfl
@[simp] theorem State.wr_causes (f : Fld) (i v : Nat) : (s.wr f i v).causes = s.causes := rfl
@[simp] theorem State.wr_evbuf (f : Fld) (i v : Nat) : (s.wr f i v).evbuf = s.evbuf := rfl
@[simp] theorem State.wr_hostq (f : Fld) (i v : Nat) : (s.wr f i v).hostq = s.hostq := rfl
@[simp] theorem State.wr_fwLoad (f : Fld) (i v : Nat) : (s.wr f i v).fwLoad = s.fwLoad := rfl
@[simp] theorem State.wr_bankA (f : Fld) (i v : Nat) : (s.wr f i v).bankA = s.bankA := rfl
@[simp] theorem State.wr_bankB (f : Fld) (i v : Nat) : (s.wr f i v).bankB = s.bankB := rfl
@[simp] theorem State.wr_hot (f : Fld) (i v : Nat) : (s.wr f i v).hot = s.hot := rfl
@[simp] theorem State.wr_vreq (f : Fld) (i v : Nat) : (s.wr f i v).vreq = s.vreq := rfl
@[simp] theorem State.wr_vwait (f : Fld) (i v : Nat) : (s.wr f i v).vwait = s.vwait := rfl
@[simp] theorem State.wr_vheld (f : Fld) (i v : Nat) : (s.wr f i v).vheld = s.vheld := rfl
@[simp] theorem State.wr_bursts (f : Fld) (i v : Nat) : (s.wr f i v).bursts = s.bursts := rfl
@[simp] theorem State.wr_banks (f : Fld) (i v : Nat) : (s.wr f i v).banks = s.banks := rfl
@[simp] theorem State.wr_scrRows (f : Fld) (i v : Nat) : (s.wr f i v).scrRows = s.scrRows := rfl
@[simp] theorem State.wr_scrTsv (f : Fld) (i v : Nat) : (s.wr f i v).scrTsv = s.scrTsv := rfl
@[simp] theorem State.wr_softq (f : Fld) (i v : Nat) : (s.wr f i v).softq = s.softq := rfl
@[simp] theorem State.wr_reps (f : Fld) (i v : Nat) : (s.wr f i v).reps = s.reps := rfl
@[simp] theorem State.wr_hards (f : Fld) (i v : Nat) : (s.wr f i v).hards = s.hards := rfl
@[simp] theorem State.wr_nvmPend (f : Fld) (i v : Nat) : (s.wr f i v).nvmPend = s.nvmPend := rfl
@[simp] theorem State.wr_punLens (f : Fld) (i v : Nat) : (s.wr f i v).punLens = s.punLens := rfl
@[simp] theorem State.wr_encBuf (f : Fld) (i v : Nat) : (s.wr f i v).encBuf = s.encBuf := rfl
@[simp] theorem State.wr_pkeys (f : Fld) (i v : Nat) : (s.wr f i v).pkeys = s.pkeys := rfl
@[simp] theorem State.wr_rpl (f : Fld) (i v : Nat) : (s.wr f i v).rpl = s.rpl := rfl
@[simp] theorem State.wr_vdel (f : Fld) (i v : Nat) : (s.wr f i v).vdel = s.vdel := rfl
@[simp] theorem State.wr_vofs (f : Fld) (i v : Nat) : (s.wr f i v).vofs = s.vofs := rfl
@[simp] theorem State.wr_dly (f : Fld) (i v : Nat) : (s.wr f i v).dly = s.dly := rfl
@[simp] theorem State.wr_pkts (f : Fld) (i v : Nat) : (s.wr f i v).pkts = s.pkts := rfl
@[simp] theorem State.wr_ltSent (f : Fld) (i v : Nat) : (s.wr f i v).ltSent = s.ltSent := rfl
@[simp] theorem State.wr_ltHdr (f : Fld) (i v : Nat) : (s.wr f i v).ltHdr = s.ltHdr := rfl
@[simp] theorem State.wr_pchk (f : Fld) (i v : Nat) : (s.wr f i v).pchk = s.pchk := rfl
@[simp] theorem State.wr_calq (f : Fld) (i v : Nat) : (s.wr f i v).calq = s.calq := rfl
@[simp] theorem State.wr_ikeys (f : Fld) (i v : Nat) : (s.wr f i v).ikeys = s.ikeys := rfl
@[simp] theorem State.wr_klk (f : Fld) (i v : Nat) : (s.wr f i v).klk = s.klk := rfl
@[simp] theorem State.wr_opHash (f : Fld) (i v : Nat) : (s.wr f i v).opHash = s.opHash := rfl
@[simp] theorem State.wr_rjob (f : Fld) (i v : Nat) : (s.wr f i v).rjob = s.rjob := rfl
@[simp] theorem State.wr_hv (f : Fld) (i v : Nat) : (s.wr f i v).hv = s.hv := rfl
@[simp] theorem State.wr_b2 (f : Fld) (i v : Nat) : (s.wr f i v).b2 = s.b2 := rfl
@[simp] theorem State.wr_mctpq (f : Fld) (i v : Nat) : (s.wr f i v).mctpq = s.mctpq := rfl
@[simp] theorem State.wr_spdm (f : Fld) (i v : Nat) : (s.wr f i v).spdm = s.spdm := rfl
@[simp] theorem State.wr_lost (f : Fld) (i v : Nat) : (s.wr f i v).lost = s.lost := rfl
@[simp] theorem State.wr_mctpin (f : Fld) (i v : Nat) : (s.wr f i v).mctpin = s.mctpin := rfl
@[simp] theorem State.wr_dlyHold (f : Fld) (i v : Nat) : (s.wr f i v).dlyHold = s.dlyHold := rfl
@[simp] theorem State.wr_cyc (f : Fld) (i v : Nat) : (s.wr f i v).cyc = s.cyc := rfl
@[simp] theorem State.wr_freeCtr (f : Fld) (i v : Nat) : (s.wr f i v).freeCtr = s.freeCtr := rfl
@[simp] theorem State.wr_out (f : Fld) (i v : Nat) : (s.wr f i v).out = s.out := rfl

@[simp] theorem State.emit_pending (o : Out) : (s.emit o).pending = s.pending := rfl
@[simp] theorem State.emit_regs (o : Out) : (s.emit o).regs = s.regs := rfl
@[simp] theorem State.emit_hiLatch (o : Out) : (s.emit o).hiLatch = s.hiLatch := rfl
@[simp] theorem State.emit_win (o : Out) : (s.emit o).win = s.win := rfl
@[simp] theorem State.emit_imem (o : Out) : (s.emit o).imem = s.imem := rfl
@[simp] theorem State.emit_dmem (o : Out) : (s.emit o).dmem = s.dmem := rfl
@[simp] theorem State.emit_halfStage (o : Out) : (s.emit o).halfStage = s.halfStage := rfl
@[simp] theorem State.emit_chg (o : Out) : (s.emit o).chg = s.chg := rfl
@[simp] theorem State.emit_waits (o : Out) : (s.emit o).waits = s.waits := rfl
@[simp] theorem State.emit_mblk (o : Out) : (s.emit o).mblk = s.mblk := rfl
@[simp] theorem State.emit_held (o : Out) : (s.emit o).held = s.held := rfl
@[simp] theorem State.emit_items (o : Out) : (s.emit o).items = s.items := rfl
@[simp] theorem State.emit_strikes (o : Out) : (s.emit o).strikes = s.strikes := rfl
@[simp] theorem State.emit_strm (o : Out) : (s.emit o).strm = s.strm := rfl
@[simp] theorem State.emit_staged (o : Out) : (s.emit o).staged = s.staged := rfl
@[simp] theorem State.emit_carry (o : Out) : (s.emit o).carry = s.carry := rfl
@[simp] theorem State.emit_tower (o : Out) : (s.emit o).tower = s.tower := rfl
@[simp] theorem State.emit_nvm (o : Out) : (s.emit o).nvm = s.nvm := rfl
@[simp] theorem State.emit_fq (o : Out) : (s.emit o).fq = s.fq := rfl
@[simp] theorem State.emit_fqOver (o : Out) : (s.emit o).fqOver = s.fqOver := rfl
@[simp] theorem State.emit_causes (o : Out) : (s.emit o).causes = s.causes := rfl
@[simp] theorem State.emit_evbuf (o : Out) : (s.emit o).evbuf = s.evbuf := rfl
@[simp] theorem State.emit_hostq (o : Out) : (s.emit o).hostq = s.hostq := rfl
@[simp] theorem State.emit_fwLoad (o : Out) : (s.emit o).fwLoad = s.fwLoad := rfl
@[simp] theorem State.emit_bankA (o : Out) : (s.emit o).bankA = s.bankA := rfl
@[simp] theorem State.emit_bankB (o : Out) : (s.emit o).bankB = s.bankB := rfl
@[simp] theorem State.emit_hot (o : Out) : (s.emit o).hot = s.hot := rfl
@[simp] theorem State.emit_vreq (o : Out) : (s.emit o).vreq = s.vreq := rfl
@[simp] theorem State.emit_vwait (o : Out) : (s.emit o).vwait = s.vwait := rfl
@[simp] theorem State.emit_vheld (o : Out) : (s.emit o).vheld = s.vheld := rfl
@[simp] theorem State.emit_bursts (o : Out) : (s.emit o).bursts = s.bursts := rfl
@[simp] theorem State.emit_banks (o : Out) : (s.emit o).banks = s.banks := rfl
@[simp] theorem State.emit_scrRows (o : Out) : (s.emit o).scrRows = s.scrRows := rfl
@[simp] theorem State.emit_scrTsv (o : Out) : (s.emit o).scrTsv = s.scrTsv := rfl
@[simp] theorem State.emit_softq (o : Out) : (s.emit o).softq = s.softq := rfl
@[simp] theorem State.emit_reps (o : Out) : (s.emit o).reps = s.reps := rfl
@[simp] theorem State.emit_hards (o : Out) : (s.emit o).hards = s.hards := rfl
@[simp] theorem State.emit_nvmPend (o : Out) : (s.emit o).nvmPend = s.nvmPend := rfl
@[simp] theorem State.emit_punLens (o : Out) : (s.emit o).punLens = s.punLens := rfl
@[simp] theorem State.emit_encBuf (o : Out) : (s.emit o).encBuf = s.encBuf := rfl
@[simp] theorem State.emit_pkeys (o : Out) : (s.emit o).pkeys = s.pkeys := rfl
@[simp] theorem State.emit_rpl (o : Out) : (s.emit o).rpl = s.rpl := rfl
@[simp] theorem State.emit_vdel (o : Out) : (s.emit o).vdel = s.vdel := rfl
@[simp] theorem State.emit_vofs (o : Out) : (s.emit o).vofs = s.vofs := rfl
@[simp] theorem State.emit_dly (o : Out) : (s.emit o).dly = s.dly := rfl
@[simp] theorem State.emit_pkts (o : Out) : (s.emit o).pkts = s.pkts := rfl
@[simp] theorem State.emit_ltSent (o : Out) : (s.emit o).ltSent = s.ltSent := rfl
@[simp] theorem State.emit_ltHdr (o : Out) : (s.emit o).ltHdr = s.ltHdr := rfl
@[simp] theorem State.emit_pchk (o : Out) : (s.emit o).pchk = s.pchk := rfl
@[simp] theorem State.emit_calq (o : Out) : (s.emit o).calq = s.calq := rfl
@[simp] theorem State.emit_ikeys (o : Out) : (s.emit o).ikeys = s.ikeys := rfl
@[simp] theorem State.emit_klk (o : Out) : (s.emit o).klk = s.klk := rfl
@[simp] theorem State.emit_opHash (o : Out) : (s.emit o).opHash = s.opHash := rfl
@[simp] theorem State.emit_rjob (o : Out) : (s.emit o).rjob = s.rjob := rfl
@[simp] theorem State.emit_hv (o : Out) : (s.emit o).hv = s.hv := rfl
@[simp] theorem State.emit_b2 (o : Out) : (s.emit o).b2 = s.b2 := rfl
@[simp] theorem State.emit_mctpq (o : Out) : (s.emit o).mctpq = s.mctpq := rfl
@[simp] theorem State.emit_spdm (o : Out) : (s.emit o).spdm = s.spdm := rfl
@[simp] theorem State.emit_lost (o : Out) : (s.emit o).lost = s.lost := rfl
@[simp] theorem State.emit_mctpin (o : Out) : (s.emit o).mctpin = s.mctpin := rfl
@[simp] theorem State.emit_dlyHold (o : Out) : (s.emit o).dlyHold = s.dlyHold := rfl
@[simp] theorem State.emit_cyc (o : Out) : (s.emit o).cyc = s.cyc := rfl
@[simp] theorem State.emit_freeCtr (o : Out) : (s.emit o).freeCtr = s.freeCtr := rfl
@[simp] theorem State.emit_out (o : Out) : (s.emit o).out = s.out ++ [o] := rfl
@[simp] theorem State.rd_emit (o : Out) (f : Fld) (i : Nat) : (s.emit o).rd f i = s.rd f i := rfl
@[simp] theorem State.start_pending : s.start.pending = s.pending := rfl
@[simp] theorem State.start_regs : s.start.regs = s.regs := rfl
@[simp] theorem State.start_hiLatch : s.start.hiLatch = s.hiLatch := rfl
@[simp] theorem State.start_win : s.start.win = s.win := rfl
@[simp] theorem State.start_imem : s.start.imem = s.imem := rfl
@[simp] theorem State.start_dmem : s.start.dmem = s.dmem := rfl
@[simp] theorem State.start_halfStage : s.start.halfStage = s.halfStage := rfl
@[simp] theorem State.start_chg : s.start.chg = s.chg := rfl
@[simp] theorem State.start_waits : s.start.waits = s.waits := rfl
@[simp] theorem State.start_mblk : s.start.mblk = s.mblk := rfl
@[simp] theorem State.start_held : s.start.held = s.held := rfl
@[simp] theorem State.start_items : s.start.items = s.items := rfl
@[simp] theorem State.start_strikes : s.start.strikes = s.strikes := rfl
@[simp] theorem State.start_strm : s.start.strm = s.strm := rfl
@[simp] theorem State.start_staged : s.start.staged = s.staged := rfl
@[simp] theorem State.start_carry : s.start.carry = s.carry := rfl
@[simp] theorem State.start_tower : s.start.tower = s.tower := rfl
@[simp] theorem State.start_nvm : s.start.nvm = s.nvm := rfl
@[simp] theorem State.start_fq : s.start.fq = s.fq := rfl
@[simp] theorem State.start_fqOver : s.start.fqOver = s.fqOver := rfl
@[simp] theorem State.start_causes : s.start.causes = s.causes := rfl
@[simp] theorem State.start_evbuf : s.start.evbuf = s.evbuf := rfl
@[simp] theorem State.start_hostq : s.start.hostq = s.hostq := rfl
@[simp] theorem State.start_fwLoad : s.start.fwLoad = s.fwLoad := rfl
@[simp] theorem State.start_bankA : s.start.bankA = s.bankA := rfl
@[simp] theorem State.start_bankB : s.start.bankB = s.bankB := rfl
@[simp] theorem State.start_hot : s.start.hot = s.hot := rfl
@[simp] theorem State.start_vreq : s.start.vreq = s.vreq := rfl
@[simp] theorem State.start_vwait : s.start.vwait = s.vwait := rfl
@[simp] theorem State.start_vheld : s.start.vheld = s.vheld := rfl
@[simp] theorem State.start_bursts : s.start.bursts = s.bursts := rfl
@[simp] theorem State.start_banks : s.start.banks = s.banks := rfl
@[simp] theorem State.start_scrRows : s.start.scrRows = s.scrRows := rfl
@[simp] theorem State.start_scrTsv : s.start.scrTsv = s.scrTsv := rfl
@[simp] theorem State.start_softq : s.start.softq = s.softq := rfl
@[simp] theorem State.start_reps : s.start.reps = s.reps := rfl
@[simp] theorem State.start_hards : s.start.hards = s.hards := rfl
@[simp] theorem State.start_nvmPend : s.start.nvmPend = s.nvmPend := rfl
@[simp] theorem State.start_punLens : s.start.punLens = s.punLens := rfl
@[simp] theorem State.start_encBuf : s.start.encBuf = s.encBuf := rfl
@[simp] theorem State.start_pkeys : s.start.pkeys = s.pkeys := rfl
@[simp] theorem State.start_rpl : s.start.rpl = s.rpl := rfl
@[simp] theorem State.start_vdel : s.start.vdel = s.vdel := rfl
@[simp] theorem State.start_vofs : s.start.vofs = s.vofs := rfl
@[simp] theorem State.start_dly : s.start.dly = s.dly := rfl
@[simp] theorem State.start_pkts : s.start.pkts = s.pkts := rfl
@[simp] theorem State.start_ltSent : s.start.ltSent = s.ltSent := rfl
@[simp] theorem State.start_ltHdr : s.start.ltHdr = s.ltHdr := rfl
@[simp] theorem State.start_pchk : s.start.pchk = s.pchk := rfl
@[simp] theorem State.start_calq : s.start.calq = s.calq := rfl
@[simp] theorem State.start_ikeys : s.start.ikeys = s.ikeys := rfl
@[simp] theorem State.start_klk : s.start.klk = s.klk := rfl
@[simp] theorem State.start_opHash : s.start.opHash = s.opHash := rfl
@[simp] theorem State.start_rjob : s.start.rjob = s.rjob := rfl
@[simp] theorem State.start_hv : s.start.hv = s.hv := rfl
@[simp] theorem State.start_b2 : s.start.b2 = s.b2 := rfl
@[simp] theorem State.start_mctpq : s.start.mctpq = s.mctpq := rfl
@[simp] theorem State.start_spdm : s.start.spdm = s.spdm := rfl
@[simp] theorem State.start_lost : s.start.lost = s.lost := rfl
@[simp] theorem State.start_mctpin : s.start.mctpin = s.mctpin := rfl
@[simp] theorem State.start_dlyHold : s.start.dlyHold = s.dlyHold := rfl
@[simp] theorem State.start_freeCtr : s.start.freeCtr = s.freeCtr := rfl

@[simp] theorem State.rd_setI (g w : Nat) (x : Word) (f : Fld) (i : Nat) : (s.setI g w x).rd f i = s.rd f i := rfl
@[simp] theorem State.setI_pending (g w : Nat) (x : Word) : (s.setI g w x).pending = s.pending := rfl
@[simp] theorem State.setI_dmem (g w : Nat) (x : Word) : (s.setI g w x).dmem = s.dmem := rfl
@[simp] theorem State.setI_win (g w : Nat) (x : Word) : (s.setI g w x).win = s.win := rfl
@[simp] theorem State.setI_nvm (g w : Nat) (x : Word) : (s.setI g w x).nvm = s.nvm := rfl
@[simp] theorem State.setI_tower (g w : Nat) (x : Word) : (s.setI g w x).tower = s.tower := rfl
@[simp] theorem State.setI_out (g w : Nat) (x : Word) : (s.setI g w x).out = s.out := rfl
@[simp] theorem State.setI_freeCtr (g w : Nat) (x : Word) : (s.setI g w x).freeCtr = s.freeCtr := rfl
@[simp] theorem State.setI_chg (g w : Nat) (x : Word) : (s.setI g w x).chg = s.chg := rfl
@[simp] theorem State.setI_waits (g w : Nat) (x : Word) : (s.setI g w x).waits = s.waits := rfl
@[simp] theorem State.setI_mblk (g w : Nat) (x : Word) : (s.setI g w x).mblk = s.mblk := rfl
@[simp] theorem State.setI_held (g w : Nat) (x : Word) : (s.setI g w x).held = s.held := rfl
@[simp] theorem State.setI_items (g w : Nat) (x : Word) : (s.setI g w x).items = s.items := rfl
@[simp] theorem State.setI_strikes (g w : Nat) (x : Word) : (s.setI g w x).strikes = s.strikes := rfl
@[simp] theorem State.setI_strm (g w : Nat) (x : Word) : (s.setI g w x).strm = s.strm := rfl
@[simp] theorem State.setI_fq (g w : Nat) (x : Word) : (s.setI g w x).fq = s.fq := rfl
@[simp] theorem State.rd_setD (g w : Nat) (x : Word) (f : Fld) (i : Nat) : (s.setD g w x).rd f i = s.rd f i := rfl
@[simp] theorem State.setD_pending (g w : Nat) (x : Word) : (s.setD g w x).pending = s.pending := rfl
@[simp] theorem State.setD_imem (g w : Nat) (x : Word) : (s.setD g w x).imem = s.imem := rfl
@[simp] theorem State.setD_win (g w : Nat) (x : Word) : (s.setD g w x).win = s.win := rfl
@[simp] theorem State.setD_nvm (g w : Nat) (x : Word) : (s.setD g w x).nvm = s.nvm := rfl
@[simp] theorem State.setD_tower (g w : Nat) (x : Word) : (s.setD g w x).tower = s.tower := rfl
@[simp] theorem State.setD_out (g w : Nat) (x : Word) : (s.setD g w x).out = s.out := rfl
@[simp] theorem State.setD_freeCtr (g w : Nat) (x : Word) : (s.setD g w x).freeCtr = s.freeCtr := rfl
@[simp] theorem State.setD_chg (g w : Nat) (x : Word) : (s.setD g w x).chg = s.chg := rfl
@[simp] theorem State.setD_waits (g w : Nat) (x : Word) : (s.setD g w x).waits = s.waits := rfl
@[simp] theorem State.setD_mblk (g w : Nat) (x : Word) : (s.setD g w x).mblk = s.mblk := rfl
@[simp] theorem State.setD_held (g w : Nat) (x : Word) : (s.setD g w x).held = s.held := rfl
@[simp] theorem State.setD_items (g w : Nat) (x : Word) : (s.setD g w x).items = s.items := rfl
@[simp] theorem State.setD_strikes (g w : Nat) (x : Word) : (s.setD g w x).strikes = s.strikes := rfl
@[simp] theorem State.setD_strm (g w : Nat) (x : Word) : (s.setD g w x).strm = s.strm := rfl
@[simp] theorem State.setD_fq (g w : Nat) (x : Word) : (s.setD g w x).fq = s.fq := rfl
@[simp] theorem State.rd_setWin (a : Nat) (x : Byte) (f : Fld) (i : Nat) : (s.setWin a x).rd f i = s.rd f i := rfl
@[simp] theorem State.setWin_pending (a : Nat) (x : Byte) : (s.setWin a x).pending = s.pending := rfl
@[simp] theorem State.setWin_imem (a : Nat) (x : Byte) : (s.setWin a x).imem = s.imem := rfl
@[simp] theorem State.setWin_dmem (a : Nat) (x : Byte) : (s.setWin a x).dmem = s.dmem := rfl
@[simp] theorem State.setWin_nvm (a : Nat) (x : Byte) : (s.setWin a x).nvm = s.nvm := rfl
@[simp] theorem State.setWin_tower (a : Nat) (x : Byte) : (s.setWin a x).tower = s.tower := rfl
@[simp] theorem State.setWin_out (a : Nat) (x : Byte) : (s.setWin a x).out = s.out := rfl
@[simp] theorem State.setWin_freeCtr (a : Nat) (x : Byte) : (s.setWin a x).freeCtr = s.freeCtr := rfl
@[simp] theorem State.setWin_chg (a : Nat) (x : Byte) : (s.setWin a x).chg = s.chg := rfl
@[simp] theorem State.setWin_waits (a : Nat) (x : Byte) : (s.setWin a x).waits = s.waits := rfl
@[simp] theorem State.setWin_mblk (a : Nat) (x : Byte) : (s.setWin a x).mblk = s.mblk := rfl
@[simp] theorem State.setWin_held (a : Nat) (x : Byte) : (s.setWin a x).held = s.held := rfl
@[simp] theorem State.setWin_items (a : Nat) (x : Byte) : (s.setWin a x).items = s.items := rfl
@[simp] theorem State.setWin_strikes (a : Nat) (x : Byte) : (s.setWin a x).strikes = s.strikes := rfl
@[simp] theorem State.setWin_strm (a : Nat) (x : Byte) : (s.setWin a x).strm = s.strm := rfl
@[simp] theorem State.setWin_fq (a : Nat) (x : Byte) : (s.setWin a x).fq = s.fq := rfl
@[simp] theorem State.rd_setNvm (a : Nat) (x : Byte) (f : Fld) (i : Nat) : (s.setNvm a x).rd f i = s.rd f i := rfl
@[simp] theorem State.setNvm_pending (a : Nat) (x : Byte) : (s.setNvm a x).pending = s.pending := rfl
@[simp] theorem State.setNvm_imem (a : Nat) (x : Byte) : (s.setNvm a x).imem = s.imem := rfl
@[simp] theorem State.setNvm_dmem (a : Nat) (x : Byte) : (s.setNvm a x).dmem = s.dmem := rfl
@[simp] theorem State.setNvm_win (a : Nat) (x : Byte) : (s.setNvm a x).win = s.win := rfl
@[simp] theorem State.setNvm_tower (a : Nat) (x : Byte) : (s.setNvm a x).tower = s.tower := rfl
@[simp] theorem State.setNvm_out (a : Nat) (x : Byte) : (s.setNvm a x).out = s.out := rfl
@[simp] theorem State.setNvm_freeCtr (a : Nat) (x : Byte) : (s.setNvm a x).freeCtr = s.freeCtr := rfl
@[simp] theorem State.setNvm_chg (a : Nat) (x : Byte) : (s.setNvm a x).chg = s.chg := rfl
@[simp] theorem State.setNvm_waits (a : Nat) (x : Byte) : (s.setNvm a x).waits = s.waits := rfl
@[simp] theorem State.setNvm_mblk (a : Nat) (x : Byte) : (s.setNvm a x).mblk = s.mblk := rfl
@[simp] theorem State.setNvm_held (a : Nat) (x : Byte) : (s.setNvm a x).held = s.held := rfl
@[simp] theorem State.setNvm_items (a : Nat) (x : Byte) : (s.setNvm a x).items = s.items := rfl
@[simp] theorem State.setNvm_strikes (a : Nat) (x : Byte) : (s.setNvm a x).strikes = s.strikes := rfl
@[simp] theorem State.setNvm_strm (a : Nat) (x : Byte) : (s.setNvm a x).strm = s.strm := rfl
@[simp] theorem State.setNvm_fq (a : Nat) (x : Byte) : (s.setNvm a x).fq = s.fq := rfl
@[simp] theorem State.rd_setStrm (p : Nat) (x : StrmSt) (f : Fld) (i : Nat) : (s.setStrm p x).rd f i = s.rd f i := rfl
@[simp] theorem State.setStrm_pending (p : Nat) (x : StrmSt) : (s.setStrm p x).pending = s.pending := rfl
@[simp] theorem State.setStrm_imem (p : Nat) (x : StrmSt) : (s.setStrm p x).imem = s.imem := rfl
@[simp] theorem State.setStrm_dmem (p : Nat) (x : StrmSt) : (s.setStrm p x).dmem = s.dmem := rfl
@[simp] theorem State.setStrm_win (p : Nat) (x : StrmSt) : (s.setStrm p x).win = s.win := rfl
@[simp] theorem State.setStrm_nvm (p : Nat) (x : StrmSt) : (s.setStrm p x).nvm = s.nvm := rfl
@[simp] theorem State.setStrm_tower (p : Nat) (x : StrmSt) : (s.setStrm p x).tower = s.tower := rfl
@[simp] theorem State.setStrm_out (p : Nat) (x : StrmSt) : (s.setStrm p x).out = s.out := rfl
@[simp] theorem State.setStrm_freeCtr (p : Nat) (x : StrmSt) : (s.setStrm p x).freeCtr = s.freeCtr := rfl
@[simp] theorem State.setStrm_chg (p : Nat) (x : StrmSt) : (s.setStrm p x).chg = s.chg := rfl
@[simp] theorem State.setStrm_waits (p : Nat) (x : StrmSt) : (s.setStrm p x).waits = s.waits := rfl
@[simp] theorem State.setStrm_mblk (p : Nat) (x : StrmSt) : (s.setStrm p x).mblk = s.mblk := rfl
@[simp] theorem State.setStrm_held (p : Nat) (x : StrmSt) : (s.setStrm p x).held = s.held := rfl
@[simp] theorem State.setStrm_items (p : Nat) (x : StrmSt) : (s.setStrm p x).items = s.items := rfl
@[simp] theorem State.setStrm_strikes (p : Nat) (x : StrmSt) : (s.setStrm p x).strikes = s.strikes := rfl
@[simp] theorem State.setStrm_fq (p : Nat) (x : StrmSt) : (s.setStrm p x).fq = s.fq := rfl
@[simp] theorem State.rd_setChg (p : Nat) (x : Option ModeChg) (f : Fld) (i : Nat) : (s.setChg p x).rd f i = s.rd f i := rfl
@[simp] theorem State.setChg_pending (p : Nat) (x : Option ModeChg) : (s.setChg p x).pending = s.pending := rfl
@[simp] theorem State.setChg_imem (p : Nat) (x : Option ModeChg) : (s.setChg p x).imem = s.imem := rfl
@[simp] theorem State.setChg_dmem (p : Nat) (x : Option ModeChg) : (s.setChg p x).dmem = s.dmem := rfl
@[simp] theorem State.setChg_win (p : Nat) (x : Option ModeChg) : (s.setChg p x).win = s.win := rfl
@[simp] theorem State.setChg_nvm (p : Nat) (x : Option ModeChg) : (s.setChg p x).nvm = s.nvm := rfl
@[simp] theorem State.setChg_tower (p : Nat) (x : Option ModeChg) : (s.setChg p x).tower = s.tower := rfl
@[simp] theorem State.setChg_out (p : Nat) (x : Option ModeChg) : (s.setChg p x).out = s.out := rfl
@[simp] theorem State.setChg_freeCtr (p : Nat) (x : Option ModeChg) : (s.setChg p x).freeCtr = s.freeCtr := rfl
@[simp] theorem State.setChg_waits (p : Nat) (x : Option ModeChg) : (s.setChg p x).waits = s.waits := rfl
@[simp] theorem State.setChg_mblk (p : Nat) (x : Option ModeChg) : (s.setChg p x).mblk = s.mblk := rfl
@[simp] theorem State.setChg_held (p : Nat) (x : Option ModeChg) : (s.setChg p x).held = s.held := rfl
@[simp] theorem State.setChg_items (p : Nat) (x : Option ModeChg) : (s.setChg p x).items = s.items := rfl
@[simp] theorem State.setChg_strikes (p : Nat) (x : Option ModeChg) : (s.setChg p x).strikes = s.strikes := rfl
@[simp] theorem State.setChg_strm (p : Nat) (x : Option ModeChg) : (s.setChg p x).strm = s.strm := rfl
@[simp] theorem State.setChg_fq (p : Nat) (x : Option ModeChg) : (s.setChg p x).fq = s.fq := rfl
@[simp] theorem State.rd_setWait (p : Nat) (x : Option Wait) (f : Fld) (i : Nat) : (s.setWait p x).rd f i = s.rd f i := rfl
@[simp] theorem State.setWait_pending (p : Nat) (x : Option Wait) : (s.setWait p x).pending = s.pending := rfl
@[simp] theorem State.setWait_imem (p : Nat) (x : Option Wait) : (s.setWait p x).imem = s.imem := rfl
@[simp] theorem State.setWait_dmem (p : Nat) (x : Option Wait) : (s.setWait p x).dmem = s.dmem := rfl
@[simp] theorem State.setWait_win (p : Nat) (x : Option Wait) : (s.setWait p x).win = s.win := rfl
@[simp] theorem State.setWait_nvm (p : Nat) (x : Option Wait) : (s.setWait p x).nvm = s.nvm := rfl
@[simp] theorem State.setWait_tower (p : Nat) (x : Option Wait) : (s.setWait p x).tower = s.tower := rfl
@[simp] theorem State.setWait_out (p : Nat) (x : Option Wait) : (s.setWait p x).out = s.out := rfl
@[simp] theorem State.setWait_freeCtr (p : Nat) (x : Option Wait) : (s.setWait p x).freeCtr = s.freeCtr := rfl
@[simp] theorem State.setWait_chg (p : Nat) (x : Option Wait) : (s.setWait p x).chg = s.chg := rfl
@[simp] theorem State.setWait_mblk (p : Nat) (x : Option Wait) : (s.setWait p x).mblk = s.mblk := rfl
@[simp] theorem State.setWait_held (p : Nat) (x : Option Wait) : (s.setWait p x).held = s.held := rfl
@[simp] theorem State.setWait_items (p : Nat) (x : Option Wait) : (s.setWait p x).items = s.items := rfl
@[simp] theorem State.setWait_strikes (p : Nat) (x : Option Wait) : (s.setWait p x).strikes = s.strikes := rfl
@[simp] theorem State.setWait_strm (p : Nat) (x : Option Wait) : (s.setWait p x).strm = s.strm := rfl
@[simp] theorem State.setWait_fq (p : Nat) (x : Option Wait) : (s.setWait p x).fq = s.fq := rfl
@[simp] theorem State.rd_setBlk (p : Nat) (x : List Word) (f : Fld) (i : Nat) : (s.setBlk p x).rd f i = s.rd f i := rfl
@[simp] theorem State.setBlk_pending (p : Nat) (x : List Word) : (s.setBlk p x).pending = s.pending := rfl
@[simp] theorem State.setBlk_imem (p : Nat) (x : List Word) : (s.setBlk p x).imem = s.imem := rfl
@[simp] theorem State.setBlk_dmem (p : Nat) (x : List Word) : (s.setBlk p x).dmem = s.dmem := rfl
@[simp] theorem State.setBlk_win (p : Nat) (x : List Word) : (s.setBlk p x).win = s.win := rfl
@[simp] theorem State.setBlk_nvm (p : Nat) (x : List Word) : (s.setBlk p x).nvm = s.nvm := rfl
@[simp] theorem State.setBlk_tower (p : Nat) (x : List Word) : (s.setBlk p x).tower = s.tower := rfl
@[simp] theorem State.setBlk_out (p : Nat) (x : List Word) : (s.setBlk p x).out = s.out := rfl
@[simp] theorem State.setBlk_freeCtr (p : Nat) (x : List Word) : (s.setBlk p x).freeCtr = s.freeCtr := rfl
@[simp] theorem State.setBlk_chg (p : Nat) (x : List Word) : (s.setBlk p x).chg = s.chg := rfl
@[simp] theorem State.setBlk_waits (p : Nat) (x : List Word) : (s.setBlk p x).waits = s.waits := rfl
@[simp] theorem State.setBlk_held (p : Nat) (x : List Word) : (s.setBlk p x).held = s.held := rfl
@[simp] theorem State.setBlk_items (p : Nat) (x : List Word) : (s.setBlk p x).items = s.items := rfl
@[simp] theorem State.setBlk_strikes (p : Nat) (x : List Word) : (s.setBlk p x).strikes = s.strikes := rfl
@[simp] theorem State.setBlk_strm (p : Nat) (x : List Word) : (s.setBlk p x).strm = s.strm := rfl
@[simp] theorem State.setBlk_fq (p : Nat) (x : List Word) : (s.setBlk p x).fq = s.fq := rfl
@[simp] theorem State.rd_setHeld (p : Nat) (x : List HeldUnit) (f : Fld) (i : Nat) : (s.setHeld p x).rd f i = s.rd f i := rfl
@[simp] theorem State.setHeld_pending (p : Nat) (x : List HeldUnit) : (s.setHeld p x).pending = s.pending := rfl
@[simp] theorem State.setHeld_imem (p : Nat) (x : List HeldUnit) : (s.setHeld p x).imem = s.imem := rfl
@[simp] theorem State.setHeld_dmem (p : Nat) (x : List HeldUnit) : (s.setHeld p x).dmem = s.dmem := rfl
@[simp] theorem State.setHeld_win (p : Nat) (x : List HeldUnit) : (s.setHeld p x).win = s.win := rfl
@[simp] theorem State.setHeld_nvm (p : Nat) (x : List HeldUnit) : (s.setHeld p x).nvm = s.nvm := rfl
@[simp] theorem State.setHeld_tower (p : Nat) (x : List HeldUnit) : (s.setHeld p x).tower = s.tower := rfl
@[simp] theorem State.setHeld_out (p : Nat) (x : List HeldUnit) : (s.setHeld p x).out = s.out := rfl
@[simp] theorem State.setHeld_freeCtr (p : Nat) (x : List HeldUnit) : (s.setHeld p x).freeCtr = s.freeCtr := rfl
@[simp] theorem State.setHeld_chg (p : Nat) (x : List HeldUnit) : (s.setHeld p x).chg = s.chg := rfl
@[simp] theorem State.setHeld_waits (p : Nat) (x : List HeldUnit) : (s.setHeld p x).waits = s.waits := rfl
@[simp] theorem State.setHeld_mblk (p : Nat) (x : List HeldUnit) : (s.setHeld p x).mblk = s.mblk := rfl
@[simp] theorem State.setHeld_items (p : Nat) (x : List HeldUnit) : (s.setHeld p x).items = s.items := rfl
@[simp] theorem State.setHeld_strikes (p : Nat) (x : List HeldUnit) : (s.setHeld p x).strikes = s.strikes := rfl
@[simp] theorem State.setHeld_strm (p : Nat) (x : List HeldUnit) : (s.setHeld p x).strm = s.strm := rfl
@[simp] theorem State.setHeld_fq (p : Nat) (x : List HeldUnit) : (s.setHeld p x).fq = s.fq := rfl
@[simp] theorem State.rd_setItems (p : Nat) (x : List Item) (f : Fld) (i : Nat) : (s.setItems p x).rd f i = s.rd f i := rfl
@[simp] theorem State.setItems_pending (p : Nat) (x : List Item) : (s.setItems p x).pending = s.pending := rfl
@[simp] theorem State.setItems_imem (p : Nat) (x : List Item) : (s.setItems p x).imem = s.imem := rfl
@[simp] theorem State.setItems_dmem (p : Nat) (x : List Item) : (s.setItems p x).dmem = s.dmem := rfl
@[simp] theorem State.setItems_win (p : Nat) (x : List Item) : (s.setItems p x).win = s.win := rfl
@[simp] theorem State.setItems_nvm (p : Nat) (x : List Item) : (s.setItems p x).nvm = s.nvm := rfl
@[simp] theorem State.setItems_tower (p : Nat) (x : List Item) : (s.setItems p x).tower = s.tower := rfl
@[simp] theorem State.setItems_out (p : Nat) (x : List Item) : (s.setItems p x).out = s.out := rfl
@[simp] theorem State.setItems_freeCtr (p : Nat) (x : List Item) : (s.setItems p x).freeCtr = s.freeCtr := rfl
@[simp] theorem State.setItems_chg (p : Nat) (x : List Item) : (s.setItems p x).chg = s.chg := rfl
@[simp] theorem State.setItems_waits (p : Nat) (x : List Item) : (s.setItems p x).waits = s.waits := rfl
@[simp] theorem State.setItems_mblk (p : Nat) (x : List Item) : (s.setItems p x).mblk = s.mblk := rfl
@[simp] theorem State.setItems_held (p : Nat) (x : List Item) : (s.setItems p x).held = s.held := rfl
@[simp] theorem State.setItems_strikes (p : Nat) (x : List Item) : (s.setItems p x).strikes = s.strikes := rfl
@[simp] theorem State.setItems_strm (p : Nat) (x : List Item) : (s.setItems p x).strm = s.strm := rfl
@[simp] theorem State.setItems_fq (p : Nat) (x : List Item) : (s.setItems p x).fq = s.fq := rfl
@[simp] theorem State.rd_setStrikes (p : Nat) (x : List (Nat × Nat)) (f : Fld) (i : Nat) : (s.setStrikes p x).rd f i = s.rd f i := rfl
@[simp] theorem State.setStrikes_pending (p : Nat) (x : List (Nat × Nat)) : (s.setStrikes p x).pending = s.pending := rfl
@[simp] theorem State.setStrikes_imem (p : Nat) (x : List (Nat × Nat)) : (s.setStrikes p x).imem = s.imem := rfl
@[simp] theorem State.setStrikes_dmem (p : Nat) (x : List (Nat × Nat)) : (s.setStrikes p x).dmem = s.dmem := rfl
@[simp] theorem State.setStrikes_win (p : Nat) (x : List (Nat × Nat)) : (s.setStrikes p x).win = s.win := rfl
@[simp] theorem State.setStrikes_nvm (p : Nat) (x : List (Nat × Nat)) : (s.setStrikes p x).nvm = s.nvm := rfl
@[simp] theorem State.setStrikes_tower (p : Nat) (x : List (Nat × Nat)) : (s.setStrikes p x).tower = s.tower := rfl
@[simp] theorem State.setStrikes_out (p : Nat) (x : List (Nat × Nat)) : (s.setStrikes p x).out = s.out := rfl
@[simp] theorem State.setStrikes_freeCtr (p : Nat) (x : List (Nat × Nat)) : (s.setStrikes p x).freeCtr = s.freeCtr := rfl
@[simp] theorem State.setStrikes_chg (p : Nat) (x : List (Nat × Nat)) : (s.setStrikes p x).chg = s.chg := rfl
@[simp] theorem State.setStrikes_waits (p : Nat) (x : List (Nat × Nat)) : (s.setStrikes p x).waits = s.waits := rfl
@[simp] theorem State.setStrikes_mblk (p : Nat) (x : List (Nat × Nat)) : (s.setStrikes p x).mblk = s.mblk := rfl
@[simp] theorem State.setStrikes_held (p : Nat) (x : List (Nat × Nat)) : (s.setStrikes p x).held = s.held := rfl
@[simp] theorem State.setStrikes_items (p : Nat) (x : List (Nat × Nat)) : (s.setStrikes p x).items = s.items := rfl
@[simp] theorem State.setStrikes_strm (p : Nat) (x : List (Nat × Nat)) : (s.setStrikes p x).strm = s.strm := rfl
@[simp] theorem State.setStrikes_fq (p : Nat) (x : List (Nat × Nat)) : (s.setStrikes p x).fq = s.fq := rfl
@[simp] theorem State.rd_setStaged (p : Nat) (x : List Staged) (f : Fld) (i : Nat) : (s.setStaged p x).rd f i = s.rd f i := rfl
@[simp] theorem State.setStaged_pending (p : Nat) (x : List Staged) : (s.setStaged p x).pending = s.pending := rfl
@[simp] theorem State.setStaged_imem (p : Nat) (x : List Staged) : (s.setStaged p x).imem = s.imem := rfl
@[simp] theorem State.setStaged_dmem (p : Nat) (x : List Staged) : (s.setStaged p x).dmem = s.dmem := rfl
@[simp] theorem State.setStaged_win (p : Nat) (x : List Staged) : (s.setStaged p x).win = s.win := rfl
@[simp] theorem State.setStaged_nvm (p : Nat) (x : List Staged) : (s.setStaged p x).nvm = s.nvm := rfl
@[simp] theorem State.setStaged_tower (p : Nat) (x : List Staged) : (s.setStaged p x).tower = s.tower := rfl
@[simp] theorem State.setStaged_out (p : Nat) (x : List Staged) : (s.setStaged p x).out = s.out := rfl
@[simp] theorem State.setStaged_freeCtr (p : Nat) (x : List Staged) : (s.setStaged p x).freeCtr = s.freeCtr := rfl
@[simp] theorem State.setStaged_chg (p : Nat) (x : List Staged) : (s.setStaged p x).chg = s.chg := rfl
@[simp] theorem State.setStaged_waits (p : Nat) (x : List Staged) : (s.setStaged p x).waits = s.waits := rfl
@[simp] theorem State.setStaged_mblk (p : Nat) (x : List Staged) : (s.setStaged p x).mblk = s.mblk := rfl
@[simp] theorem State.setStaged_held (p : Nat) (x : List Staged) : (s.setStaged p x).held = s.held := rfl
@[simp] theorem State.setStaged_items (p : Nat) (x : List Staged) : (s.setStaged p x).items = s.items := rfl
@[simp] theorem State.setStaged_strikes (p : Nat) (x : List Staged) : (s.setStaged p x).strikes = s.strikes := rfl
@[simp] theorem State.setStaged_strm (p : Nat) (x : List Staged) : (s.setStaged p x).strm = s.strm := rfl
@[simp] theorem State.setStaged_fq (p : Nat) (x : List Staged) : (s.setStaged p x).fq = s.fq := rfl
@[simp] theorem State.rd_setCarry (p : Nat) (x : Int) (f : Fld) (i : Nat) : (s.setCarry p x).rd f i = s.rd f i := rfl
@[simp] theorem State.setCarry_pending (p : Nat) (x : Int) : (s.setCarry p x).pending = s.pending := rfl
@[simp] theorem State.setCarry_imem (p : Nat) (x : Int) : (s.setCarry p x).imem = s.imem := rfl
@[simp] theorem State.setCarry_dmem (p : Nat) (x : Int) : (s.setCarry p x).dmem = s.dmem := rfl
@[simp] theorem State.setCarry_win (p : Nat) (x : Int) : (s.setCarry p x).win = s.win := rfl
@[simp] theorem State.setCarry_nvm (p : Nat) (x : Int) : (s.setCarry p x).nvm = s.nvm := rfl
@[simp] theorem State.setCarry_tower (p : Nat) (x : Int) : (s.setCarry p x).tower = s.tower := rfl
@[simp] theorem State.setCarry_out (p : Nat) (x : Int) : (s.setCarry p x).out = s.out := rfl
@[simp] theorem State.setCarry_freeCtr (p : Nat) (x : Int) : (s.setCarry p x).freeCtr = s.freeCtr := rfl
@[simp] theorem State.setCarry_chg (p : Nat) (x : Int) : (s.setCarry p x).chg = s.chg := rfl
@[simp] theorem State.setCarry_waits (p : Nat) (x : Int) : (s.setCarry p x).waits = s.waits := rfl
@[simp] theorem State.setCarry_mblk (p : Nat) (x : Int) : (s.setCarry p x).mblk = s.mblk := rfl
@[simp] theorem State.setCarry_held (p : Nat) (x : Int) : (s.setCarry p x).held = s.held := rfl
@[simp] theorem State.setCarry_items (p : Nat) (x : Int) : (s.setCarry p x).items = s.items := rfl
@[simp] theorem State.setCarry_strikes (p : Nat) (x : Int) : (s.setCarry p x).strikes = s.strikes := rfl
@[simp] theorem State.setCarry_strm (p : Nat) (x : Int) : (s.setCarry p x).strm = s.strm := rfl
@[simp] theorem State.setCarry_fq (p : Nat) (x : Int) : (s.setCarry p x).fq = s.fq := rfl

/-- A message changes the collector's own registers alone. -/
theorem State.rd_raise (a b c : Nat) (f : Fld) (i : Nat) (h1 : f ≠ .FLT_STAT_STAT) (h2 : f ≠ .FLT_DROP_COUNT) (h3 : f ≠ .X_FQ_RUN) :
    (s.raise a b c).rd f i = s.rd f i := by
  unfold State.raise
  split
  · rfl
  · show (((s.setStatus a).incSat .FLT_DROP_COUNT 0 1).set .X_FQ_RUN 0).rd f i = _
    simp [State.set, State.incSat, State.setStatus, State.wrBit, State.rd_wr, h1, h2, h3]

@[simp] theorem State.raise_pending (a b c : Nat) : (s.raise a b c).pending = s.pending := by unfold State.raise; split <;> rfl
@[simp] theorem State.raise_hiLatch (a b c : Nat) : (s.raise a b c).hiLatch = s.hiLatch := by unfold State.raise; split <;> rfl
@[simp] theorem State.raise_win (a b c : Nat) : (s.raise a b c).win = s.win := by unfold State.raise; split <;> rfl
@[simp] theorem State.raise_imem (a b c : Nat) : (s.raise a b c).imem = s.imem := by unfold State.raise; split <;> rfl
@[simp] theorem State.raise_dmem (a b c : Nat) : (s.raise a b c).dmem = s.dmem := by unfold State.raise; split <;> rfl
@[simp] theorem State.raise_halfStage (a b c : Nat) : (s.raise a b c).halfStage = s.halfStage := by unfold State.raise; split <;> rfl
@[simp] theorem State.raise_chg (a b c : Nat) : (s.raise a b c).chg = s.chg := by unfold State.raise; split <;> rfl
@[simp] theorem State.raise_waits (a b c : Nat) : (s.raise a b c).waits = s.waits := by unfold State.raise; split <;> rfl
@[simp] theorem State.raise_mblk (a b c : Nat) : (s.raise a b c).mblk = s.mblk := by unfold State.raise; split <;> rfl
@[simp] theorem State.raise_held (a b c : Nat) : (s.raise a b c).held = s.held := by unfold State.raise; split <;> rfl
@[simp] theorem State.raise_items (a b c : Nat) : (s.raise a b c).items = s.items := by unfold State.raise; split <;> rfl
@[simp] theorem State.raise_strikes (a b c : Nat) : (s.raise a b c).strikes = s.strikes := by unfold State.raise; split <;> rfl
@[simp] theorem State.raise_strm (a b c : Nat) : (s.raise a b c).strm = s.strm := by unfold State.raise; split <;> rfl
@[simp] theorem State.raise_staged (a b c : Nat) : (s.raise a b c).staged = s.staged := by unfold State.raise; split <;> rfl
@[simp] theorem State.raise_carry (a b c : Nat) : (s.raise a b c).carry = s.carry := by unfold State.raise; split <;> rfl
@[simp] theorem State.raise_tower (a b c : Nat) : (s.raise a b c).tower = s.tower := by unfold State.raise; split <;> rfl
@[simp] theorem State.raise_nvm (a b c : Nat) : (s.raise a b c).nvm = s.nvm := by unfold State.raise; split <;> rfl
@[simp] theorem State.raise_causes (a b c : Nat) : (s.raise a b c).causes = s.causes := by unfold State.raise; split <;> rfl
@[simp] theorem State.raise_evbuf (a b c : Nat) : (s.raise a b c).evbuf = s.evbuf := by unfold State.raise; split <;> rfl
@[simp] theorem State.raise_hostq (a b c : Nat) : (s.raise a b c).hostq = s.hostq := by unfold State.raise; split <;> rfl
@[simp] theorem State.raise_fwLoad (a b c : Nat) : (s.raise a b c).fwLoad = s.fwLoad := by unfold State.raise; split <;> rfl
@[simp] theorem State.raise_bankA (a b c : Nat) : (s.raise a b c).bankA = s.bankA := by unfold State.raise; split <;> rfl
@[simp] theorem State.raise_bankB (a b c : Nat) : (s.raise a b c).bankB = s.bankB := by unfold State.raise; split <;> rfl
@[simp] theorem State.raise_hot (a b c : Nat) : (s.raise a b c).hot = s.hot := by unfold State.raise; split <;> rfl
@[simp] theorem State.raise_vreq (a b c : Nat) : (s.raise a b c).vreq = s.vreq := by unfold State.raise; split <;> rfl
@[simp] theorem State.raise_vwait (a b c : Nat) : (s.raise a b c).vwait = s.vwait := by unfold State.raise; split <;> rfl
@[simp] theorem State.raise_vheld (a b c : Nat) : (s.raise a b c).vheld = s.vheld := by unfold State.raise; split <;> rfl
@[simp] theorem State.raise_bursts (a b c : Nat) : (s.raise a b c).bursts = s.bursts := by unfold State.raise; split <;> rfl
@[simp] theorem State.raise_banks (a b c : Nat) : (s.raise a b c).banks = s.banks := by unfold State.raise; split <;> rfl
@[simp] theorem State.raise_scrRows (a b c : Nat) : (s.raise a b c).scrRows = s.scrRows := by unfold State.raise; split <;> rfl
@[simp] theorem State.raise_scrTsv (a b c : Nat) : (s.raise a b c).scrTsv = s.scrTsv := by unfold State.raise; split <;> rfl
@[simp] theorem State.raise_softq (a b c : Nat) : (s.raise a b c).softq = s.softq := by unfold State.raise; split <;> rfl
@[simp] theorem State.raise_reps (a b c : Nat) : (s.raise a b c).reps = s.reps := by unfold State.raise; split <;> rfl
@[simp] theorem State.raise_hards (a b c : Nat) : (s.raise a b c).hards = s.hards := by unfold State.raise; split <;> rfl
@[simp] theorem State.raise_nvmPend (a b c : Nat) : (s.raise a b c).nvmPend = s.nvmPend := by unfold State.raise; split <;> rfl
@[simp] theorem State.raise_punLens (a b c : Nat) : (s.raise a b c).punLens = s.punLens := by unfold State.raise; split <;> rfl
@[simp] theorem State.raise_encBuf (a b c : Nat) : (s.raise a b c).encBuf = s.encBuf := by unfold State.raise; split <;> rfl
@[simp] theorem State.raise_pkeys (a b c : Nat) : (s.raise a b c).pkeys = s.pkeys := by unfold State.raise; split <;> rfl
@[simp] theorem State.raise_rpl (a b c : Nat) : (s.raise a b c).rpl = s.rpl := by unfold State.raise; split <;> rfl
@[simp] theorem State.raise_vdel (a b c : Nat) : (s.raise a b c).vdel = s.vdel := by unfold State.raise; split <;> rfl
@[simp] theorem State.raise_vofs (a b c : Nat) : (s.raise a b c).vofs = s.vofs := by unfold State.raise; split <;> rfl
@[simp] theorem State.raise_dly (a b c : Nat) : (s.raise a b c).dly = s.dly := by unfold State.raise; split <;> rfl
@[simp] theorem State.raise_pkts (a b c : Nat) : (s.raise a b c).pkts = s.pkts := by unfold State.raise; split <;> rfl
@[simp] theorem State.raise_ltSent (a b c : Nat) : (s.raise a b c).ltSent = s.ltSent := by unfold State.raise; split <;> rfl
@[simp] theorem State.raise_ltHdr (a b c : Nat) : (s.raise a b c).ltHdr = s.ltHdr := by unfold State.raise; split <;> rfl
@[simp] theorem State.raise_pchk (a b c : Nat) : (s.raise a b c).pchk = s.pchk := by unfold State.raise; split <;> rfl
@[simp] theorem State.raise_calq (a b c : Nat) : (s.raise a b c).calq = s.calq := by unfold State.raise; split <;> rfl
@[simp] theorem State.raise_ikeys (a b c : Nat) : (s.raise a b c).ikeys = s.ikeys := by unfold State.raise; split <;> rfl
@[simp] theorem State.raise_klk (a b c : Nat) : (s.raise a b c).klk = s.klk := by unfold State.raise; split <;> rfl
@[simp] theorem State.raise_opHash (a b c : Nat) : (s.raise a b c).opHash = s.opHash := by unfold State.raise; split <;> rfl
@[simp] theorem State.raise_rjob (a b c : Nat) : (s.raise a b c).rjob = s.rjob := by unfold State.raise; split <;> rfl
@[simp] theorem State.raise_hv (a b c : Nat) : (s.raise a b c).hv = s.hv := by unfold State.raise; split <;> rfl
@[simp] theorem State.raise_b2 (a b c : Nat) : (s.raise a b c).b2 = s.b2 := by unfold State.raise; split <;> rfl
@[simp] theorem State.raise_mctpq (a b c : Nat) : (s.raise a b c).mctpq = s.mctpq := by unfold State.raise; split <;> rfl
@[simp] theorem State.raise_spdm (a b c : Nat) : (s.raise a b c).spdm = s.spdm := by unfold State.raise; split <;> rfl
@[simp] theorem State.raise_lost (a b c : Nat) : (s.raise a b c).lost = s.lost := by unfold State.raise; split <;> rfl
@[simp] theorem State.raise_mctpin (a b c : Nat) : (s.raise a b c).mctpin = s.mctpin := by unfold State.raise; split <;> rfl
@[simp] theorem State.raise_dlyHold (a b c : Nat) : (s.raise a b c).dlyHold = s.dlyHold := by unfold State.raise; split <;> rfl
@[simp] theorem State.raise_cyc (a b c : Nat) : (s.raise a b c).cyc = s.cyc := by unfold State.raise; split <;> rfl
@[simp] theorem State.raise_freeCtr (a b c : Nat) : (s.raise a b c).freeCtr = s.freeCtr := by unfold State.raise; split <;> rfl
@[simp] theorem State.raise_out (a b c : Nat) : (s.raise a b c).out = s.out := by unfold State.raise; split <;> rfl

/-- A message enters the collector's queue where it has room. -/
theorem State.raise_fq (a b c : Nat) (h : s.fq.length < 64) : (s.raise a b c).fq = s.fq ++ [⟨a, b, c % 2 ^ 48⟩] := by
  unfold State.raise; rw [if_pos h]

/-- An alert cause changes its own register alone. -/
theorem State.rd_alert (c : Nat) (f : Fld) (i : Nat) (h : f ≠ .X_ALERT) : (s.alert c).rd f i = s.rd f i := by
  unfold State.alert; split <;> simp [State.wrBit, State.rd_wr, h]

/-- Signalling a vector leaves every register field. -/
@[simp] theorem State.rd_msix (v : Nat) (f : Fld) (i : Nat) : (s.msix v).rd f i = s.rd f i := by
  unfold State.msix; split <;> rfl

/-- Entering a state of the device. -/
theorem State.rd_setDev (st : Nat) (f : Fld) (i : Nat) (h1 : f ≠ .DEV_STATE_STATE) (h2 : f ≠ .X_ALERT) : (s.setDev st).rd f i = s.rd f i := by
  unfold State.setDev
  split
  · rfl
  · rw [State.rd_msix, State.rd_alert _ _ _ _ h2]; simp [State.rd_wr, h1]

theorem State.dev_setDev (st : Nat) (h : st < 16) : (s.setDev st).dev = st := by
  unfold State.setDev
  split
  · assumption
  · unfold State.dev
    rw [State.rd_msix, State.rd_alert _ _ _ _ (by decide)]
    have : Fld.DEV_STATE_STATE.width = 4 := rfl
    simp [this]; omega

@[simp] theorem State.alert_pending (c : Nat) : (s.alert c).pending = s.pending := by unfold State.alert; split <;> rfl
@[simp] theorem State.alert_hiLatch (c : Nat) : (s.alert c).hiLatch = s.hiLatch := by unfold State.alert; split <;> rfl
@[simp] theorem State.alert_win (c : Nat) : (s.alert c).win = s.win := by unfold State.alert; split <;> rfl
@[simp] theorem State.alert_imem (c : Nat) : (s.alert c).imem = s.imem := by unfold State.alert; split <;> rfl
@[simp] theorem State.alert_dmem (c : Nat) : (s.alert c).dmem = s.dmem := by unfold State.alert; split <;> rfl
@[simp] theorem State.alert_halfStage (c : Nat) : (s.alert c).halfStage = s.halfStage := by unfold State.alert; split <;> rfl
@[simp] theorem State.alert_chg (c : Nat) : (s.alert c).chg = s.chg := by unfold State.alert; split <;> rfl
@[simp] theorem State.alert_waits (c : Nat) : (s.alert c).waits = s.waits := by unfold State.alert; split <;> rfl
@[simp] theorem State.alert_mblk (c : Nat) : (s.alert c).mblk = s.mblk := by unfold State.alert; split <;> rfl
@[simp] theorem State.alert_held (c : Nat) : (s.alert c).held = s.held := by unfold State.alert; split <;> rfl
@[simp] theorem State.alert_items (c : Nat) : (s.alert c).items = s.items := by unfold State.alert; split <;> rfl
@[simp] theorem State.alert_strikes (c : Nat) : (s.alert c).strikes = s.strikes := by unfold State.alert; split <;> rfl
@[simp] theorem State.alert_strm (c : Nat) : (s.alert c).strm = s.strm := by unfold State.alert; split <;> rfl
@[simp] theorem State.alert_staged (c : Nat) : (s.alert c).staged = s.staged := by unfold State.alert; split <;> rfl
@[simp] theorem State.alert_carry (c : Nat) : (s.alert c).carry = s.carry := by unfold State.alert; split <;> rfl
@[simp] theorem State.alert_tower (c : Nat) : (s.alert c).tower = s.tower := by unfold State.alert; split <;> rfl
@[simp] theorem State.alert_nvm (c : Nat) : (s.alert c).nvm = s.nvm := by unfold State.alert; split <;> rfl
@[simp] theorem State.alert_fq (c : Nat) : (s.alert c).fq = s.fq := by unfold State.alert; split <;> rfl
@[simp] theorem State.alert_fqOver (c : Nat) : (s.alert c).fqOver = s.fqOver := by unfold State.alert; split <;> rfl
@[simp] theorem State.alert_causes (c : Nat) : (s.alert c).causes = s.causes := by unfold State.alert; split <;> rfl
@[simp] theorem State.alert_evbuf (c : Nat) : (s.alert c).evbuf = s.evbuf := by unfold State.alert; split <;> rfl
@[simp] theorem State.alert_hostq (c : Nat) : (s.alert c).hostq = s.hostq := by unfold State.alert; split <;> rfl
@[simp] theorem State.alert_fwLoad (c : Nat) : (s.alert c).fwLoad = s.fwLoad := by unfold State.alert; split <;> rfl
@[simp] theorem State.alert_bankA (c : Nat) : (s.alert c).bankA = s.bankA := by unfold State.alert; split <;> rfl
@[simp] theorem State.alert_bankB (c : Nat) : (s.alert c).bankB = s.bankB := by unfold State.alert; split <;> rfl
@[simp] theorem State.alert_hot (c : Nat) : (s.alert c).hot = s.hot := by unfold State.alert; split <;> rfl
@[simp] theorem State.alert_vreq (c : Nat) : (s.alert c).vreq = s.vreq := by unfold State.alert; split <;> rfl
@[simp] theorem State.alert_vwait (c : Nat) : (s.alert c).vwait = s.vwait := by unfold State.alert; split <;> rfl
@[simp] theorem State.alert_vheld (c : Nat) : (s.alert c).vheld = s.vheld := by unfold State.alert; split <;> rfl
@[simp] theorem State.alert_bursts (c : Nat) : (s.alert c).bursts = s.bursts := by unfold State.alert; split <;> rfl
@[simp] theorem State.alert_banks (c : Nat) : (s.alert c).banks = s.banks := by unfold State.alert; split <;> rfl
@[simp] theorem State.alert_scrRows (c : Nat) : (s.alert c).scrRows = s.scrRows := by unfold State.alert; split <;> rfl
@[simp] theorem State.alert_scrTsv (c : Nat) : (s.alert c).scrTsv = s.scrTsv := by unfold State.alert; split <;> rfl
@[simp] theorem State.alert_softq (c : Nat) : (s.alert c).softq = s.softq := by unfold State.alert; split <;> rfl
@[simp] theorem State.alert_reps (c : Nat) : (s.alert c).reps = s.reps := by unfold State.alert; split <;> rfl
@[simp] theorem State.alert_hards (c : Nat) : (s.alert c).hards = s.hards := by unfold State.alert; split <;> rfl
@[simp] theorem State.alert_nvmPend (c : Nat) : (s.alert c).nvmPend = s.nvmPend := by unfold State.alert; split <;> rfl
@[simp] theorem State.alert_punLens (c : Nat) : (s.alert c).punLens = s.punLens := by unfold State.alert; split <;> rfl
@[simp] theorem State.alert_encBuf (c : Nat) : (s.alert c).encBuf = s.encBuf := by unfold State.alert; split <;> rfl
@[simp] theorem State.alert_pkeys (c : Nat) : (s.alert c).pkeys = s.pkeys := by unfold State.alert; split <;> rfl
@[simp] theorem State.alert_rpl (c : Nat) : (s.alert c).rpl = s.rpl := by unfold State.alert; split <;> rfl
@[simp] theorem State.alert_vdel (c : Nat) : (s.alert c).vdel = s.vdel := by unfold State.alert; split <;> rfl
@[simp] theorem State.alert_vofs (c : Nat) : (s.alert c).vofs = s.vofs := by unfold State.alert; split <;> rfl
@[simp] theorem State.alert_dly (c : Nat) : (s.alert c).dly = s.dly := by unfold State.alert; split <;> rfl
@[simp] theorem State.alert_pkts (c : Nat) : (s.alert c).pkts = s.pkts := by unfold State.alert; split <;> rfl
@[simp] theorem State.alert_ltSent (c : Nat) : (s.alert c).ltSent = s.ltSent := by unfold State.alert; split <;> rfl
@[simp] theorem State.alert_ltHdr (c : Nat) : (s.alert c).ltHdr = s.ltHdr := by unfold State.alert; split <;> rfl
@[simp] theorem State.alert_pchk (c : Nat) : (s.alert c).pchk = s.pchk := by unfold State.alert; split <;> rfl
@[simp] theorem State.alert_calq (c : Nat) : (s.alert c).calq = s.calq := by unfold State.alert; split <;> rfl
@[simp] theorem State.alert_ikeys (c : Nat) : (s.alert c).ikeys = s.ikeys := by unfold State.alert; split <;> rfl
@[simp] theorem State.alert_klk (c : Nat) : (s.alert c).klk = s.klk := by unfold State.alert; split <;> rfl
@[simp] theorem State.alert_opHash (c : Nat) : (s.alert c).opHash = s.opHash := by unfold State.alert; split <;> rfl
@[simp] theorem State.alert_rjob (c : Nat) : (s.alert c).rjob = s.rjob := by unfold State.alert; split <;> rfl
@[simp] theorem State.alert_hv (c : Nat) : (s.alert c).hv = s.hv := by unfold State.alert; split <;> rfl
@[simp] theorem State.alert_b2 (c : Nat) : (s.alert c).b2 = s.b2 := by unfold State.alert; split <;> rfl
@[simp] theorem State.alert_mctpq (c : Nat) : (s.alert c).mctpq = s.mctpq := by unfold State.alert; split <;> rfl
@[simp] theorem State.alert_spdm (c : Nat) : (s.alert c).spdm = s.spdm := by unfold State.alert; split <;> rfl
@[simp] theorem State.alert_lost (c : Nat) : (s.alert c).lost = s.lost := by unfold State.alert; split <;> rfl
@[simp] theorem State.alert_mctpin (c : Nat) : (s.alert c).mctpin = s.mctpin := by unfold State.alert; split <;> rfl
@[simp] theorem State.alert_dlyHold (c : Nat) : (s.alert c).dlyHold = s.dlyHold := by unfold State.alert; split <;> rfl
@[simp] theorem State.alert_cyc (c : Nat) : (s.alert c).cyc = s.cyc := by unfold State.alert; split <;> rfl
@[simp] theorem State.alert_freeCtr (c : Nat) : (s.alert c).freeCtr = s.freeCtr := by unfold State.alert; split <;> rfl
@[simp] theorem State.alert_out (c : Nat) : (s.alert c).out = s.out := by unfold State.alert; split <;> rfl
@[simp] theorem State.msix_pending (v : Nat) : (s.msix v).pending = s.pending := by unfold State.msix; split <;> rfl
@[simp] theorem State.msix_regs (v : Nat) : (s.msix v).regs = s.regs := by unfold State.msix; split <;> rfl
@[simp] theorem State.msix_hiLatch (v : Nat) : (s.msix v).hiLatch = s.hiLatch := by unfold State.msix; split <;> rfl
@[simp] theorem State.msix_imem (v : Nat) : (s.msix v).imem = s.imem := by unfold State.msix; split <;> rfl
@[simp] theorem State.msix_dmem (v : Nat) : (s.msix v).dmem = s.dmem := by unfold State.msix; split <;> rfl
@[simp] theorem State.msix_halfStage (v : Nat) : (s.msix v).halfStage = s.halfStage := by unfold State.msix; split <;> rfl
@[simp] theorem State.msix_chg (v : Nat) : (s.msix v).chg = s.chg := by unfold State.msix; split <;> rfl
@[simp] theorem State.msix_waits (v : Nat) : (s.msix v).waits = s.waits := by unfold State.msix; split <;> rfl
@[simp] theorem State.msix_mblk (v : Nat) : (s.msix v).mblk = s.mblk := by unfold State.msix; split <;> rfl
@[simp] theorem State.msix_held (v : Nat) : (s.msix v).held = s.held := by unfold State.msix; split <;> rfl
@[simp] theorem State.msix_items (v : Nat) : (s.msix v).items = s.items := by unfold State.msix; split <;> rfl
@[simp] theorem State.msix_strikes (v : Nat) : (s.msix v).strikes = s.strikes := by unfold State.msix; split <;> rfl
@[simp] theorem State.msix_strm (v : Nat) : (s.msix v).strm = s.strm := by unfold State.msix; split <;> rfl
@[simp] theorem State.msix_staged (v : Nat) : (s.msix v).staged = s.staged := by unfold State.msix; split <;> rfl
@[simp] theorem State.msix_carry (v : Nat) : (s.msix v).carry = s.carry := by unfold State.msix; split <;> rfl
@[simp] theorem State.msix_tower (v : Nat) : (s.msix v).tower = s.tower := by unfold State.msix; split <;> rfl
@[simp] theorem State.msix_nvm (v : Nat) : (s.msix v).nvm = s.nvm := by unfold State.msix; split <;> rfl
@[simp] theorem State.msix_fq (v : Nat) : (s.msix v).fq = s.fq := by unfold State.msix; split <;> rfl
@[simp] theorem State.msix_fqOver (v : Nat) : (s.msix v).fqOver = s.fqOver := by unfold State.msix; split <;> rfl
@[simp] theorem State.msix_causes (v : Nat) : (s.msix v).causes = s.causes := by unfold State.msix; split <;> rfl
@[simp] theorem State.msix_evbuf (v : Nat) : (s.msix v).evbuf = s.evbuf := by unfold State.msix; split <;> rfl
@[simp] theorem State.msix_hostq (v : Nat) : (s.msix v).hostq = s.hostq := by unfold State.msix; split <;> rfl
@[simp] theorem State.msix_fwLoad (v : Nat) : (s.msix v).fwLoad = s.fwLoad := by unfold State.msix; split <;> rfl
@[simp] theorem State.msix_bankA (v : Nat) : (s.msix v).bankA = s.bankA := by unfold State.msix; split <;> rfl
@[simp] theorem State.msix_bankB (v : Nat) : (s.msix v).bankB = s.bankB := by unfold State.msix; split <;> rfl
@[simp] theorem State.msix_hot (v : Nat) : (s.msix v).hot = s.hot := by unfold State.msix; split <;> rfl
@[simp] theorem State.msix_vreq (v : Nat) : (s.msix v).vreq = s.vreq := by unfold State.msix; split <;> rfl
@[simp] theorem State.msix_vwait (v : Nat) : (s.msix v).vwait = s.vwait := by unfold State.msix; split <;> rfl
@[simp] theorem State.msix_vheld (v : Nat) : (s.msix v).vheld = s.vheld := by unfold State.msix; split <;> rfl
@[simp] theorem State.msix_bursts (v : Nat) : (s.msix v).bursts = s.bursts := by unfold State.msix; split <;> rfl
@[simp] theorem State.msix_banks (v : Nat) : (s.msix v).banks = s.banks := by unfold State.msix; split <;> rfl
@[simp] theorem State.msix_scrRows (v : Nat) : (s.msix v).scrRows = s.scrRows := by unfold State.msix; split <;> rfl
@[simp] theorem State.msix_scrTsv (v : Nat) : (s.msix v).scrTsv = s.scrTsv := by unfold State.msix; split <;> rfl
@[simp] theorem State.msix_softq (v : Nat) : (s.msix v).softq = s.softq := by unfold State.msix; split <;> rfl
@[simp] theorem State.msix_reps (v : Nat) : (s.msix v).reps = s.reps := by unfold State.msix; split <;> rfl
@[simp] theorem State.msix_hards (v : Nat) : (s.msix v).hards = s.hards := by unfold State.msix; split <;> rfl
@[simp] theorem State.msix_nvmPend (v : Nat) : (s.msix v).nvmPend = s.nvmPend := by unfold State.msix; split <;> rfl
@[simp] theorem State.msix_punLens (v : Nat) : (s.msix v).punLens = s.punLens := by unfold State.msix; split <;> rfl
@[simp] theorem State.msix_encBuf (v : Nat) : (s.msix v).encBuf = s.encBuf := by unfold State.msix; split <;> rfl
@[simp] theorem State.msix_pkeys (v : Nat) : (s.msix v).pkeys = s.pkeys := by unfold State.msix; split <;> rfl
@[simp] theorem State.msix_rpl (v : Nat) : (s.msix v).rpl = s.rpl := by unfold State.msix; split <;> rfl
@[simp] theorem State.msix_vdel (v : Nat) : (s.msix v).vdel = s.vdel := by unfold State.msix; split <;> rfl
@[simp] theorem State.msix_vofs (v : Nat) : (s.msix v).vofs = s.vofs := by unfold State.msix; split <;> rfl
@[simp] theorem State.msix_dly (v : Nat) : (s.msix v).dly = s.dly := by unfold State.msix; split <;> rfl
@[simp] theorem State.msix_pkts (v : Nat) : (s.msix v).pkts = s.pkts := by unfold State.msix; split <;> rfl
@[simp] theorem State.msix_ltSent (v : Nat) : (s.msix v).ltSent = s.ltSent := by unfold State.msix; split <;> rfl
@[simp] theorem State.msix_ltHdr (v : Nat) : (s.msix v).ltHdr = s.ltHdr := by unfold State.msix; split <;> rfl
@[simp] theorem State.msix_pchk (v : Nat) : (s.msix v).pchk = s.pchk := by unfold State.msix; split <;> rfl
@[simp] theorem State.msix_calq (v : Nat) : (s.msix v).calq = s.calq := by unfold State.msix; split <;> rfl
@[simp] theorem State.msix_ikeys (v : Nat) : (s.msix v).ikeys = s.ikeys := by unfold State.msix; split <;> rfl
@[simp] theorem State.msix_klk (v : Nat) : (s.msix v).klk = s.klk := by unfold State.msix; split <;> rfl
@[simp] theorem State.msix_opHash (v : Nat) : (s.msix v).opHash = s.opHash := by unfold State.msix; split <;> rfl
@[simp] theorem State.msix_rjob (v : Nat) : (s.msix v).rjob = s.rjob := by unfold State.msix; split <;> rfl
@[simp] theorem State.msix_hv (v : Nat) : (s.msix v).hv = s.hv := by unfold State.msix; split <;> rfl
@[simp] theorem State.msix_b2 (v : Nat) : (s.msix v).b2 = s.b2 := by unfold State.msix; split <;> rfl
@[simp] theorem State.msix_mctpq (v : Nat) : (s.msix v).mctpq = s.mctpq := by unfold State.msix; split <;> rfl
@[simp] theorem State.msix_spdm (v : Nat) : (s.msix v).spdm = s.spdm := by unfold State.msix; split <;> rfl
@[simp] theorem State.msix_lost (v : Nat) : (s.msix v).lost = s.lost := by unfold State.msix; split <;> rfl
@[simp] theorem State.msix_mctpin (v : Nat) : (s.msix v).mctpin = s.mctpin := by unfold State.msix; split <;> rfl
@[simp] theorem State.msix_dlyHold (v : Nat) : (s.msix v).dlyHold = s.dlyHold := by unfold State.msix; split <;> rfl
@[simp] theorem State.msix_cyc (v : Nat) : (s.msix v).cyc = s.cyc := by unfold State.msix; split <;> rfl
@[simp] theorem State.msix_freeCtr (v : Nat) : (s.msix v).freeCtr = s.freeCtr := by unfold State.msix; split <;> rfl

/-! Read after write of the keyed stores. -/

theorem nget_nset_same {α : Type} [DecidableEq α] (m : List (Nat × α)) (d : α) (k : Nat) (v : α) : nget (nset m d k v) d k = v :=
  storeGet_set_same id m d k v

theorem nget_nset_ne {α : Type} [DecidableEq α] (m : List (Nat × α)) (d e : α) {j k : Nat} (v : α) (h : j ≠ k) : nget (nset m d k v) e j = nget m e j :=
  storeGet_set_ne id m d e v h

@[simp] theorem State.getWin_setWin_same (a : Nat) (x : Byte) : (s.setWin a x).getWin a = x := nget_nset_same _ _ _ _
theorem State.getWin_setWin_ne {a b : Nat} (x : Byte) (h : b ≠ a) : (s.setWin a x).getWin b = s.getWin b := nget_nset_ne _ _ _ _ h
@[simp] theorem State.getNvm_setNvm_same (a : Nat) (x : Byte) : (s.setNvm a x).getNvm a = x := nget_nset_same _ _ _ _
theorem State.getNvm_setNvm_ne {a b : Nat} (x : Byte) (h : b ≠ a) : (s.setNvm a x).getNvm b = s.getNvm b := nget_nset_ne _ _ _ _ h
@[simp] theorem State.getI_setI_same (g w : Nat) (x : Word) : (s.setI g w x).getI g w = x := nget_nset_same _ _ _ _
@[simp] theorem State.getD_setD_same (g w : Nat) (x : Word) : (s.setD g w x).getD g w = x := nget_nset_same _ _ _ _
@[simp] theorem State.getStrm_setStrm_same (p : Nat) (x : StrmSt) : (s.setStrm p x).getStrm p = x := nget_nset_same _ _ _ _
@[simp] theorem State.getChg_setChg_same (p : Nat) (x : Option ModeChg) : (s.setChg p x).getChg p = x := nget_nset_same _ _ _ _
@[simp] theorem State.getWait_setWait_same (p : Nat) (x : Option Wait) : (s.setWait p x).getWait p = x := nget_nset_same _ _ _ _
@[simp] theorem State.getBlk_setBlk_same (p : Nat) (x : List Word) : (s.setBlk p x).getBlk p = x := nget_nset_same _ _ _ _
@[simp] theorem State.getHeld_setHeld_same (p : Nat) (x : List HeldUnit) : (s.setHeld p x).getHeld p = x := nget_nset_same _ _ _ _
@[simp] theorem State.getItems_setItems_same (p : Nat) (x : List Item) : (s.setItems p x).getItems p = x := nget_nset_same _ _ _ _
@[simp] theorem State.getStrikes_setStrikes_same (p : Nat) (x : List (Nat × Nat)) : (s.setStrikes p x).getStrikes p = x := nget_nset_same _ _ _ _
@[simp] theorem State.getStaged_setStaged_same (p : Nat) (x : List Staged) : (s.setStaged p x).getStaged p = x := nget_nset_same _ _ _ _
@[simp] theorem State.getCarry_setCarry_same (p : Nat) (x : Int) : (s.setCarry p x).getCarry p = x := nget_nset_same _ _ _ _

/-- A word of data memory other than the one written is left. -/
theorem State.getD_setD_ne {g w g' w' : Nat} (x : Word) (h : g' * 4096 + w' ≠ g * 4096 + w) : (s.setD g w x).getD g' w' = s.getD g' w' :=
  nget_nset_ne _ _ _ _ h

/-- A word of instruction memory other than the one written is left. -/
theorem State.getI_setI_ne {g w g' w' : Nat} (x : Word) (h : g' * 16384 + w' ≠ g * 16384 + w) : (s.setI g w x).getI g' w' = s.getI g' w' :=
  nget_nset_ne _ _ _ _ h

/-! Canonical forms. -/

theorem regsWf_wr (f : Fld) (i v : Nat) (h : regsWf s.regs = true) : regsWf (s.wr f i v).regs = true :=
  storeWf_set fldCode fldCode_inj fldReset s.regs (f, i) _ h

theorem memWf_setI (g w : Nat) (x : Word) (h : s.memWf = true) : (s.setI g w x).memWf = true := by
  simp only [State.memWf, Bool.and_eq_true] at h ⊢
  exact ⟨⟨⟨storeWf_set id Function.injective_id (fun _ => (0 : Word)) s.imem _ x h.1.1.1, h.1.1.2⟩, h.1.2⟩, h.2⟩

theorem memWf_setD (g w : Nat) (x : Word) (h : s.memWf = true) : (s.setD g w x).memWf = true := by
  simp only [State.memWf, Bool.and_eq_true] at h ⊢
  exact ⟨⟨⟨h.1.1.1, storeWf_set id Function.injective_id (fun _ => (0 : Word)) s.dmem _ x h.1.1.2⟩, h.1.2⟩, h.2⟩

theorem memWf_setNvm (a : Nat) (x : Byte) (h : s.memWf = true) : (s.setNvm a x).memWf = true := by
  simp only [State.memWf, Bool.and_eq_true] at h ⊢
  exact ⟨⟨h.1.1, storeWf_set id Function.injective_id nvmReset s.nvm a x h.1.2⟩, h.2⟩

theorem memWf_setWin (a : Nat) (x : Byte) (h : s.memWf = true) : (s.setWin a x).memWf = true := by
  simp only [State.memWf, Bool.and_eq_true] at h ⊢
  exact ⟨h.1, storeWf_set id Function.injective_id winReset s.win a x h.2⟩

theorem reset_regsWf : regsWf State.reset.regs = true := rfl
theorem reset_memWf : State.reset.memWf = true := rfl

/-! The guards that every command passes. -/

@[simp] theorem State.rd_start (f : Fld) (i : Nat) : s.start.rd f i = s.rd f i := rfl
@[simp] theorem State.start_out : s.start.out = [] := rfl

theorem live_of (f : State → State) (h : s.dead = false) : live s f = .next (f s.start) := by simp [live, h]

theorem live_dead (f : State → State) (h : s.dead = true) : live s f = .next s.start := by simp [live, h]

theorem gate_of (r : Route) (a : Nat) (f : State → State) (h : s.accessErr r a true = false) (h' : s.ownedWrite a = false) : gate r a f s = f s := by
  simp [gate, h, h']

/-- A live device carries out a write that its route may make and its owner admits. -/
theorem live_gate (r : Route) (a : Nat) (f : State → State) (h : s.takes r a) : live s (fun s => gate r a f s) = .next (f s.start) := by
  obtain ⟨h1, h2, h3⟩ := h
  rw [live_of s _ h1, gate_of s.start r a f h2 h3]

end Sys2Proof.Machine
end

