-- ==== Sys2Proof/Laws/Frame.lean ====
section
/-! SUPPORT. What each shared operation leaves: one lemma for each, with the register fields that it may write; every other field reads as before. -/
namespace Sys2Proof.Machine
set_option maxRecDepth 10000
set_option linter.all false

/-- A register store reads as s does but in the fields named. -/
def KeepsR (s : State) (r : List ((Fld × Nat) × Nat)) (fl : List Fld) : Prop :=
  ∀ f i, f ∉ fl → storeGet r (fldReset (f, i)) (f, i) % 2 ^ f.width = s.rd f i

variable {fl : List Fld} {s₀ : State}

theorem fldsBut_of {s t : State} {fl : List Fld} (h : KeepsR s t.regs fl) : s.fldsBut t fl := h
theorem keepsR_refl (s : State) (fl : List Fld) : KeepsR s s.regs fl := fun _ _ _ => rfl
theorem wr_k {s : State} {f : Fld} {i v : Nat} (hf : f ∈ fl) (hk : KeepsR s₀ s.regs fl) : KeepsR s₀ (s.wr f i v).regs fl := by
  intro g j hg
  have := State.rd_wr s f g i j v
  unfold State.rd at this
  rw [this, if_neg (by rintro ⟨rfl, _⟩; exact hg hf), hk g j hg]
theorem set_k {s : State} {f : Fld} {i : Nat} (hf : f ∈ fl) (hk : KeepsR s₀ s.regs fl) : KeepsR s₀ (s.set f i).regs fl := wr_k hf hk
theorem clr_k {s : State} {f : Fld} {i : Nat} (hf : f ∈ fl) (hk : KeepsR s₀ s.regs fl) : KeepsR s₀ (s.clr f i).regs fl := wr_k hf hk
theorem wrB_k {s : State} {f : Fld} {i : Nat} {b : Bool} (hf : f ∈ fl) (hk : KeepsR s₀ s.regs fl) : KeepsR s₀ (s.wrB f i b).regs fl := wr_k hf hk
theorem incSat_k {s : State} {f : Fld} {i n : Nat} (hf : f ∈ fl) (hk : KeepsR s₀ s.regs fl) : KeepsR s₀ (s.incSat f i n).regs fl := wr_k hf hk
theorem incWrap_k {s : State} {f : Fld} {i n : Nat} (hf : f ∈ fl) (hk : KeepsR s₀ s.regs fl) : KeepsR s₀ (s.incWrap f i n).regs fl := wr_k hf hk
theorem wrBit_k {s : State} {f : Fld} {i b : Nat} {v : Bool} (hf : f ∈ fl) (hk : KeepsR s₀ s.regs fl) : KeepsR s₀ (s.wrBit f i b v).regs fl := wr_k hf hk
theorem w1c_k {s : State} {f : Fld} {i v : Nat} (hf : f ∈ fl) (hk : KeepsR s₀ s.regs fl) : KeepsR s₀ (s.w1c f i v).regs fl := wr_k hf hk
theorem ite_k {a b : State} {c : Prop} [Decidable c] (ha : KeepsR s₀ a.regs fl) (hb : KeepsR s₀ b.regs fl) :
    KeepsR s₀ (if c then a else b).regs fl := by split <;> assumption
theorem ite_k2 {α : Type} {a b : α × State} {c : Prop} [Decidable c] (ha : KeepsR s₀ a.2.regs fl) (hb : KeepsR s₀ b.2.regs fl) :
    KeepsR s₀ (if c then a else b).2.regs fl := by split <;> assumption
theorem ite_k3 {α β : Type} {a b : α × β × State} {c : Prop} [Decidable c] (ha : KeepsR s₀ a.2.2.regs fl) (hb : KeepsR s₀ b.2.2.regs fl) :
    KeepsR s₀ (if c then a else b).2.2.regs fl := by split <;> assumption
theorem foldl_k {α : Type} {s : State} {g : State → α → State} {xs : List α} (hs : KeepsR s₀ s.regs fl)
    (hg : ∀ s a, KeepsR s₀ s.regs fl → KeepsR s₀ (g s a).regs fl) : KeepsR s₀ (xs.foldl g s).regs fl := by
  induction xs generalizing s with
  | nil => exact hs
  | cons a r ih => exact ih (hg s a hs)
theorem each_k {α : Type} {s : State} {g : State → α → State} {xs : List α} (hs : KeepsR s₀ s.regs fl)
    (hg : ∀ s a, KeepsR s₀ s.regs fl → KeepsR s₀ (g s a).regs fl) : KeepsR s₀ (s.each xs g).regs fl := foldl_k hs hg
theorem foldl_k2 {α β : Type} {x : β × State} {g : β × State → α → β × State} {xs : List α} (hs : KeepsR s₀ x.2.regs fl)
    (hg : ∀ s a, KeepsR s₀ s.2.regs fl → KeepsR s₀ (g s a).2.regs fl) : KeepsR s₀ (xs.foldl g x).2.regs fl := by
  induction xs generalizing x with
  | nil => exact hs
  | cons a r ih => exact ih (hg x a hs)

theorem rxRoles_k {s : State} {x : Nat} {pam : Bool} (hfl : ([.CAL_SLC_ROLE] : List Fld) ⊆ fl) (hk : KeepsR s₀ s.regs fl) : KeepsR s₀ (rxRoles s x pam).regs fl := by
  unfold rxRoles
  try dsimp only
  repeat' first
    | with_reducible exact hk
    | exact hfl (by decide)
    | with_reducible apply wr_k
    | with_reducible refine each_k ?_ (fun s a hk => ?_)
    | with_reducible apply ite_k
    | split
    | dsimp only

theorem refreshPort_k {s : State} {r : Nat} (hfl : ([.CAL_SLC_ROLE, .QUAL_BER_STALE, .TX_FIRACT_ACT, .XCVR_STAT_RXTERM, .XCVR_STAT_SSCACT, .XCVR_STAT_TXCLK, .XCVR_STAT_TXIDLE, .X_QW_CUT, .X_SSC_EFF] : List Fld) ⊆ fl) (hk : KeepsR s₀ s.regs fl) : KeepsR s₀ (refreshPort s r).regs fl := by
  unfold refreshPort
  try dsimp only
  repeat' first
    | with_reducible exact hk
    | exact hfl (by decide)
    | exact List.Subset.trans (by decide) hfl
    | with_reducible apply wr_k
    | with_reducible apply set_k
    | with_reducible apply wrB_k
    | with_reducible apply rxRoles_k
    | with_reducible apply ite_k
    | split
    | dsimp only

theorem refreshPath_k {s : State} {p : Nat} (hfl : ([.CAL_SLC_ROLE, .QUAL_BER_STALE, .TX_FIRACT_ACT, .XCVR_STAT_RXTERM, .XCVR_STAT_SSCACT, .XCVR_STAT_TXCLK, .XCVR_STAT_TXIDLE, .X_QW_CUT, .X_SSC_EFF] : List Fld) ⊆ fl) (hk : KeepsR s₀ s.regs fl) : KeepsR s₀ (refreshPath s p).regs fl := by
  unfold refreshPath
  try dsimp only
  repeat' first
    | with_reducible exact hk
    | exact List.Subset.trans (by decide) hfl
    | with_reducible apply refreshPort_k
    | with_reducible refine each_k ?_ (fun s a hk => ?_)
    | with_reducible apply ite_k
    | split
    | dsimp only

theorem emit_k {s : State} {o : Out} (hk : KeepsR s₀ s.regs fl) : KeepsR s₀ (State.emit s o).regs fl := by
  unfold State.emit
  try dsimp only
  repeat' first
    | with_reducible exact hk
    | dsimp only

theorem setStatus_k {s : State} {src : Nat} (hfl : ([.FLT_STAT_STAT] : List Fld) ⊆ fl) (hk : KeepsR s₀ s.regs fl) : KeepsR s₀ (State.setStatus s src).regs fl := by
  unfold State.setStatus
  try dsimp only
  repeat' first
    | with_reducible exact hk
    | exact hfl (by decide)
    | with_reducible apply wrBit_k
    | dsimp only

theorem raise_k {s : State} {src : Nat} {kind : Nat} {addr : Nat} (hfl : ([.FLT_DROP_COUNT, .FLT_STAT_STAT, .X_FQ_RUN] : List Fld) ⊆ fl) (hk : KeepsR s₀ s.regs fl) : KeepsR s₀ (State.raise s src kind addr).regs fl := by
  unfold State.raise
  try dsimp only
  repeat' first
    | with_reducible exact hk
    | exact hfl (by decide)
    | exact List.Subset.trans (by decide) hfl
    | with_reducible apply set_k
    | with_reducible apply incSat_k
    | with_reducible apply setStatus_k
    | with_reducible apply ite_k
    | split
    | dsimp only

theorem setStaged_k {s : State} {t : Nat} {v : List Staged} (hk : KeepsR s₀ s.regs fl) : KeepsR s₀ (State.setStaged s t v).regs fl := by
  unfold State.setStaged
  try dsimp only
  repeat' first
    | with_reducible exact hk
    | dsimp only

theorem stageRecs_k {s : State} {p : Nat} {exempt : Bool} {unit : Bool} {recs : List Rec} (hfl : ([.PUN_DISC_COUNT] : List Fld) ⊆ fl) (hk : KeepsR s₀ s.regs fl) : KeepsR s₀ (stageRecs s p exempt unit recs).regs fl := by
  unfold stageRecs
  try dsimp only
  repeat' first
    | with_reducible exact hk
    | exact hfl (by decide)
    | with_reducible apply incSat_k
    | with_reducible apply setStaged_k
    | with_reducible apply ite_k
    | split
    | dsimp only

theorem eventRec_k {s : State} {p : Nat} {kind : Nat} {pos : Nat} {bytes : List Byte} (hfl : ([.PUN_DISC_COUNT] : List Fld) ⊆ fl) (hk : KeepsR s₀ s.regs fl) : KeepsR s₀ (eventRec s p kind pos bytes).regs fl := by
  unfold eventRec
  try dsimp only
  repeat' first
    | with_reducible exact hk
    | exact List.Subset.trans (by decide) hfl
    | with_reducible apply stageRecs_k
    | with_reducible apply ite_k
    | split
    | dsimp only

theorem pathEvent_k {s : State} {p : Nat} {kind : Nat} {addr : Nat} (hfl : ([.FLT_DROP_COUNT, .FLT_STAT_STAT, .PUN_DISC_COUNT, .X_FQ_RUN] : List Fld) ⊆ fl) (hk : KeepsR s₀ s.regs fl) : KeepsR s₀ (pathEvent s p kind addr).regs fl := by
  unfold pathEvent
  try dsimp only
  repeat' first
    | with_reducible exact hk
    | exact List.Subset.trans (by decide) hfl
    | with_reducible apply eventRec_k
    | with_reducible apply raise_k
    | dsimp only

theorem pathEventNext_k {s : State} {p : Nat} {kind : Nat} (hfl : ([.FLT_DROP_COUNT, .FLT_STAT_STAT, .PUN_DISC_COUNT, .X_FQ_RUN] : List Fld) ⊆ fl) (hk : KeepsR s₀ s.regs fl) : KeepsR s₀ (pathEventNext s p kind).regs fl := by
  unfold pathEventNext
  try dsimp only
  repeat' first
    | with_reducible exact hk
    | exact List.Subset.trans (by decide) hfl
    | with_reducible apply pathEvent_k
    | dsimp only

theorem stopPath_k {s : State} {p : Nat} (hfl : ([.CAL_SLC_ROLE, .FLT_DROP_COUNT, .FLT_STAT_STAT, .PUN_DISC_COUNT, .QUAL_BER_STALE, .TX_FIRACT_ACT, .XCVR_STAT_RXTERM, .XCVR_STAT_SSCACT, .XCVR_STAT_TXCLK, .XCVR_STAT_TXIDLE, .X_FQ_RUN, .X_PATH_STOPPED, .X_QW_CUT, .X_SSC_EFF] : List Fld) ⊆ fl) (hk : KeepsR s₀ s.regs fl) : KeepsR s₀ (stopPath s p).regs fl := by
  unfold stopPath
  try dsimp only
  repeat' first
    | with_reducible exact hk
    | exact hfl (by decide)
    | exact List.Subset.trans (by decide) hfl
    | with_reducible apply set_k
    | with_reducible apply emit_k
    | with_reducible apply pathEventNext_k
    | with_reducible apply refreshPath_k
    | dsimp only

theorem dlyEmpty_k {s : State} {p : Nat} (hfl : ([.X_DLY_CNT, .X_DLY_LO] : List Fld) ⊆ fl) (hk : KeepsR s₀ s.regs fl) : KeepsR s₀ (dlyEmpty s p).regs fl := by
  unfold dlyEmpty
  try dsimp only
  repeat' first
    | with_reducible exact hk
    | exact hfl (by decide)
    | with_reducible apply clr_k
    | dsimp only

theorem restartPath_k {s : State} {p : Nat} (hfl : ([.CAL_SLC_ROLE, .PATH_DLYSTAT_FILL, .QUAL_BER_STALE, .TX_FIRACT_ACT, .XCVR_STAT_RXTERM, .XCVR_STAT_SSCACT, .XCVR_STAT_TXCLK, .XCVR_STAT_TXIDLE, .X_DLY_CNT, .X_DLY_LO, .X_PATH_STOPPED, .X_QW_CUT, .X_SSC_EFF] : List Fld) ⊆ fl) (hk : KeepsR s₀ s.regs fl) : KeepsR s₀ (restartPath s p).regs fl := by
  unfold restartPath
  try dsimp only
  repeat' first
    | with_reducible exact hk
    | exact hfl (by decide)
    | exact List.Subset.trans (by decide) hfl
    | with_reducible apply clr_k
    | with_reducible apply wrB_k
    | with_reducible apply dlyEmpty_k
    | with_reducible apply refreshPath_k
    | with_reducible apply ite_k
    | split
    | dsimp only

theorem setCarry_k {s : State} {t : Nat} {v : Int} (hk : KeepsR s₀ s.regs fl) : KeepsR s₀ (State.setCarry s t v).regs fl := by
  unfold State.setCarry
  try dsimp only
  repeat' first
    | with_reducible exact hk
    | dsimp only

theorem discardUnit_k {s : State} {u : Staged} (hfl : ([.PUN_DISC_COUNT] : List Fld) ⊆ fl) (hk : KeepsR s₀ s.regs fl) : KeepsR s₀ (discardUnit s u).regs fl := by
  unfold discardUnit
  try dsimp only
  repeat' first
    | with_reducible exact hk
    | exact hfl (by decide)
    | with_reducible apply incSat_k
    | with_reducible apply ite_k
    | split
    | dsimp only

theorem setStrm_k {s : State} {p : Nat} {v : StrmSt} (hk : KeepsR s₀ s.regs fl) : KeepsR s₀ (State.setStrm s p v).regs fl := by
  unfold State.setStrm
  try dsimp only
  repeat' first
    | with_reducible exact hk
    | dsimp only

theorem closeRun_k {s : State} {p : Nat} (hfl : ([.PUN_DISC_COUNT] : List Fld) ⊆ fl) (hk : KeepsR s₀ s.regs fl) : KeepsR s₀ (closeRun s p).regs fl := by
  unfold closeRun
  try dsimp only
  repeat' first
    | with_reducible exact hk
    | exact List.Subset.trans (by decide) hfl
    | with_reducible apply stageRecs_k
    | with_reducible apply setStrm_k
    | split
    | dsimp only

theorem takeSeq_k {s : State} {p : Nat} {r : Rec} (hfl : ([.STRM_SEQ_SEQ] : List Fld) ⊆ fl) (hk : KeepsR s₀ s.regs fl) : KeepsR s₀ (takeSeq s p r).2.regs fl := by
  unfold takeSeq
  try dsimp only
  repeat' first
    | with_reducible exact hk
    | exact hfl (by decide)
    | with_reducible apply incWrap_k
    | with_reducible apply setStrm_k
    | split
    | dsimp only

theorem dropRec_k {t : Nat} {p : Nat} {s : State} {r : Rec} (hfl : ([.PRS_DROPT_COUNT, .PUN_DISC_COUNT, .STRM_LOSTB_COUNT, .STRM_LOSTR_COUNT, .STRM_SEQ_SEQ] : List Fld) ⊆ fl) (hk : KeepsR s₀ s.regs fl) : KeepsR s₀ (dropRec t p s r).regs fl := by
  unfold dropRec
  try dsimp only
  repeat' first
    | with_reducible exact hk
    | exact hfl (by decide)
    | exact List.Subset.trans (by decide) hfl
    | with_reducible apply incSat_k
    | with_reducible apply takeSeq_k
    | with_reducible apply closeRun_k
    | with_reducible apply setStrm_k
    | with_reducible apply ite_k
    | split
    | dsimp only

theorem setWin_k {s : State} {a : Nat} {v : Byte} (hk : KeepsR s₀ s.regs fl) : KeepsR s₀ (State.setWin s a v).regs fl := by
  unfold State.setWin
  try dsimp only
  repeat' first
    | with_reducible exact hk
    | dsimp only

theorem msix_k {s : State} {v : Nat} (hk : KeepsR s₀ s.regs fl) : KeepsR s₀ (State.msix s v).regs fl := by
  unfold State.msix
  try dsimp only
  repeat' first
    | with_reducible exact hk
    | with_reducible apply emit_k
    | with_reducible apply setWin_k
    | with_reducible apply ite_k
    | split
    | dsimp only

theorem setT_k {s : State} {A : Nat} {c : Code} (hk : KeepsR s₀ s.regs fl) : KeepsR s₀ (State.setT s A c).regs fl := by
  unfold State.setT
  try dsimp only
  repeat' first
    | with_reducible exact hk
    | dsimp only

theorem touch_k {s : State} {A : Nat} {write : Bool} (hk : KeepsR s₀ s.regs fl) : KeepsR s₀ (State.touch s A write).regs fl := by
  unfold State.touch
  try dsimp only
  repeat' first
    | with_reducible exact hk
    | with_reducible apply ite_k
    | split
    | dsimp only

theorem writeWord_k {s : State} {A : Nat} {v : Word} (hk : KeepsR s₀ s.regs fl) : KeepsR s₀ (writeWord s A v).regs fl := by
  unfold writeWord
  try dsimp only
  repeat' first
    | with_reducible exact hk
    | with_reducible apply setT_k
    | with_reducible apply touch_k
    | dsimp only

theorem writeWords_k {s : State} {A : Nat} {l : List Byte} (hk : KeepsR s₀ s.regs fl) : KeepsR s₀ (writeWords s A l).regs fl := by
  unfold writeWords
  try dsimp only
  repeat' first
    | with_reducible exact hk
    | with_reducible apply writeWord_k
    | with_reducible refine each_k ?_ (fun s a hk => ?_)
    | dsimp only

theorem encWrite_k {s : State} {k : Nat} {e : EncUnit} (hk : KeepsR s₀ s.regs fl) : KeepsR s₀ (encWrite s k e).regs fl := by
  unfold encWrite
  try dsimp only
  repeat' first
    | with_reducible exact hk
    | with_reducible apply writeWords_k
    | split
    | dsimp only

theorem punKeep_k {s : State} {k : Nat} {size : Nat} {lens : List Nat} (hfl : ([.PUN_TAIL_OFS] : List Fld) ⊆ fl) (hk : KeepsR s₀ s.regs fl) : KeepsR s₀ (punKeep s k size lens).regs fl := by
  unfold punKeep
  try dsimp only
  repeat' first
    | with_reducible exact hk
    | exact hfl (by decide)
    | with_reducible apply wr_k
    | dsimp only

theorem encFlush_k {s : State} {k : Nat} (hfl : ([.PUN_TAIL_OFS] : List Fld) ⊆ fl) (hk : KeepsR s₀ s.regs fl) : KeepsR s₀ (encFlush s k).regs fl := by
  unfold encFlush
  try dsimp only
  repeat' first
    | with_reducible exact hk
    | exact List.Subset.trans (by decide) hfl
    | with_reducible apply encWrite_k
    | with_reducible apply punKeep_k
    | with_reducible refine each_k ?_ (fun s a hk => ?_)
    | with_reducible apply ite_k
    | split
    | dsimp only

theorem punStop_k {s : State} {k : Nat} (hfl : ([.PUN_STAT_STATE, .PUN_TAIL_OFS] : List Fld) ⊆ fl) (hk : KeepsR s₀ s.regs fl) : KeepsR s₀ (punStop s k).regs fl := by
  unfold punStop
  try dsimp only
  repeat' first
    | with_reducible exact hk
    | exact hfl (by decide)
    | exact List.Subset.trans (by decide) hfl
    | with_reducible apply wr_k
    | with_reducible apply msix_k
    | with_reducible apply encFlush_k
    | with_reducible apply ite_k
    | split
    | dsimp only

theorem punAdvance_k {s : State} {k : Nat} {n : Nat} (hfl : ([.PUN_STAT_STATE, .PUN_TAIL_OFS, .X_PUN_SINCE] : List Fld) ⊆ fl) (hk : KeepsR s₀ s.regs fl) : KeepsR s₀ (punAdvance s k n).regs fl := by
  unfold punAdvance
  try dsimp only
  repeat' first
    | with_reducible exact hk
    | exact hfl (by decide)
    | exact List.Subset.trans (by decide) hfl
    | with_reducible apply wr_k
    | with_reducible apply incSat_k
    | with_reducible apply punStop_k
    | with_reducible apply ite_k
    | split
    | dsimp only

theorem setEnc_k {s : State} {i : Nat} {e : Option EncUnit} (hk : KeepsR s₀ s.regs fl) : KeepsR s₀ (State.setEnc s i e).regs fl := by
  unfold State.setEnc
  try dsimp only
  repeat' first
    | with_reducible exact hk
    | dsimp only

theorem encAdd_k {s : State} {k : Nat} {area : Nat} {unit : Nat} {inOfs : Nat} {l : List Byte} (hk : KeepsR s₀ s.regs fl) : KeepsR s₀ (encAdd s k area unit inOfs l).regs fl := by
  unfold encAdd
  try dsimp only
  repeat' first
    | with_reducible exact hk
    | with_reducible apply encWrite_k
    | with_reducible apply setEnc_k
    | with_reducible apply ite_k
    | split
    | dsimp only

theorem punTail_k {s : State} {k : Nat} {n : Nat} (hfl : ([.PUN_TAIL_OFS] : List Fld) ⊆ fl) (hk : KeepsR s₀ s.regs fl) : KeepsR s₀ (punTail s k n).regs fl := by
  unfold punTail
  try dsimp only
  repeat' first
    | with_reducible exact hk
    | exact List.Subset.trans (by decide) hfl
    | with_reducible apply punKeep_k
    | dsimp only

theorem sweepSlabs_k {s : State} {first : Nat} {count : Nat} (hk : KeepsR s₀ s.regs fl) : KeepsR s₀ (sweepSlabs s first count).regs fl := by
  unfold sweepSlabs
  try dsimp only
  repeat' first
    | with_reducible exact hk
    | dsimp only

theorem clearEnd_k {s : State} {t : Nat} (hfl : ([.TWR_CLRSTAT_BUSY, .TWR_CLRSTAT_DONE, .TWR_CLRSTAT_RESULT, .X_CLR_ACC, .X_CLR_COUNT, .X_CLR_FIRST] : List Fld) ⊆ fl) (hk : KeepsR s₀ s.regs fl) : KeepsR s₀ (clearEnd s t).regs fl := by
  unfold clearEnd
  try dsimp only
  repeat' first
    | with_reducible exact hk
    | exact hfl (by decide)
    | with_reducible apply wr_k
    | with_reducible apply clr_k
    | with_reducible apply sweepSlabs_k
    | dsimp only

theorem clearWork_k {s : State} {t : Nat} {n : Nat} (hfl : ([.TWR_CLRSTAT_BUSY, .TWR_CLRSTAT_DONE, .TWR_CLRSTAT_RESULT, .X_CLR_ACC, .X_CLR_COUNT, .X_CLR_FIRST] : List Fld) ⊆ fl) (hk : KeepsR s₀ s.regs fl) : KeepsR s₀ (clearWork s t n).regs fl := by
  unfold clearWork
  try dsimp only
  repeat' first
    | with_reducible exact hk
    | exact hfl (by decide)
    | exact List.Subset.trans (by decide) hfl
    | with_reducible apply wr_k
    | with_reducible apply sweepSlabs_k
    | with_reducible apply clearEnd_k
    | with_reducible apply ite_k
    | split
    | dsimp only

theorem start_k {s : State} (hk : KeepsR s₀ s.regs fl) : KeepsR s₀ (State.start s).regs fl := by
  unfold State.start
  try dsimp only
  repeat' first
    | with_reducible exact hk
    | dsimp only

theorem setRpl_k {s : State} {p : Nat} {v : Option RplSt} (hk : KeepsR s₀ s.regs fl) : KeepsR s₀ (State.setRpl s p v).regs fl := by
  unfold State.setRpl
  try dsimp only
  repeat' first
    | with_reducible exact hk
    | dsimp only

theorem rplSend_k {s : State} {p : Nat} {o : Out} {unit : Bool} (hfl : ([.PATH_DISC_COUNT] : List Fld) ⊆ fl) (hk : KeepsR s₀ s.regs fl) : KeepsR s₀ (rplSend s p o unit).regs fl := by
  unfold rplSend
  try dsimp only
  repeat' first
    | with_reducible exact hk
    | exact hfl (by decide)
    | with_reducible apply incSat_k
    | with_reducible apply emit_k
    | with_reducible apply ite_k
    | split
    | dsimp only

theorem rplFill_k {s : State} {p : Nat} (hfl : ([.PATH_DISC_COUNT] : List Fld) ⊆ fl) (hk : KeepsR s₀ s.regs fl) : KeepsR s₀ (rplFill s p).regs fl := by
  unfold rplFill
  try dsimp only
  repeat' first
    | with_reducible exact hk
    | exact List.Subset.trans (by decide) hfl
    | with_reducible apply rplSend_k
    | dsimp only

theorem rplUnit_k {s : State} {p : Nat} {u : List Byte} (hfl : ([.PATH_DISC_COUNT] : List Fld) ⊆ fl) (hk : KeepsR s₀ s.regs fl) : KeepsR s₀ (rplUnit s p u).regs fl := by
  unfold rplUnit
  try dsimp only
  repeat' first
    | with_reducible exact hk
    | exact List.Subset.trans (by decide) hfl
    | with_reducible apply rplSend_k
    | dsimp only

theorem logRecount_k {s : State} {t : Nat} (hfl : ([.ECC_LOGSTAT_COUNT] : List Fld) ⊆ fl) (hk : KeepsR s₀ s.regs fl) : KeepsR s₀ (State.logRecount s t).regs fl := by
  unfold State.logRecount
  try dsimp only
  repeat' first
    | with_reducible exact hk
    | exact hfl (by decide)
    | with_reducible apply wr_k
    | dsimp only

theorem logErr_k {s : State} {A : Nat} {kind : Nat} {src : Nat} {syn : Nat} (hfl : ([.ECC_LOGSTAT_COUNT, .ECC_LOGSTAT_LOST, .ECC_LOGSTAT_OVF, .ERR_LOG_ADDR, .ERR_LOG_DLY, .ERR_LOG_EPOCH, .ERR_LOG_KIND, .ERR_LOG_PUN, .ERR_LOG_SRC, .ERR_LOG_SYN, .ERR_LOG_VALID, .X_LOG_ORD, .X_LOG_SEQ] : List Fld) ⊆ fl) (hk : KeepsR s₀ s.regs fl) : KeepsR s₀ (logErr s A kind src syn).regs fl := by
  unfold logErr
  try dsimp only
  repeat' first
    | with_reducible exact hk
    | exact hfl (by decide)
    | exact List.Subset.trans (by decide) hfl
    | with_reducible apply wr_k
    | with_reducible apply set_k
    | with_reducible apply wrB_k
    | with_reducible apply incSat_k
    | with_reducible apply incWrap_k
    | with_reducible apply logRecount_k
    | split
    | dsimp only

theorem countCe_k {s : State} {A : Nat} {src : Nat} {kind : Nat} {syn : Nat} (hfl : ([.ECC_CECNT_COUNT, .ECC_LOGSTAT_COUNT, .ECC_LOGSTAT_LOST, .ECC_LOGSTAT_OVF, .ERR_LOG_ADDR, .ERR_LOG_DLY, .ERR_LOG_EPOCH, .ERR_LOG_KIND, .ERR_LOG_PUN, .ERR_LOG_SRC, .ERR_LOG_SYN, .ERR_LOG_VALID, .FLT_DROP_COUNT, .FLT_STAT_STAT, .X_CE_RAISED, .X_FQ_RUN, .X_LOG_ORD, .X_LOG_SEQ] : List Fld) ⊆ fl) (hk : KeepsR s₀ s.regs fl) : KeepsR s₀ (countCe s A src kind syn).regs fl := by
  unfold countCe
  try dsimp only
  repeat' first
    | with_reducible exact hk
    | exact hfl (by decide)
    | exact List.Subset.trans (by decide) hfl
    | with_reducible apply set_k
    | with_reducible apply incSat_k
    | with_reducible apply raise_k
    | with_reducible apply logErr_k
    | with_reducible apply ite_k
    | split
    | dsimp only

theorem queueSoft_k {s : State} {k : RowKey} (hk : KeepsR s₀ s.regs fl) : KeepsR s₀ (State.queueSoft s k).regs fl := by
  unfold State.queueSoft
  try dsimp only
  repeat' first
    | with_reducible exact hk
    | with_reducible apply ite_k
    | split
    | dsimp only

theorem countUe_k {s : State} {A : Nat} {src : Nat} {c : Code} (hfl : ([.ECC_LOGSTAT_COUNT, .ECC_LOGSTAT_LOST, .ECC_LOGSTAT_OVF, .ECC_UECNT_COUNT, .ERR_LOG_ADDR, .ERR_LOG_DLY, .ERR_LOG_EPOCH, .ERR_LOG_KIND, .ERR_LOG_PUN, .ERR_LOG_SRC, .ERR_LOG_SYN, .ERR_LOG_VALID, .FLT_DROP_COUNT, .FLT_STAT_STAT, .X_FQ_RUN, .X_LOG_ORD, .X_LOG_SEQ] : List Fld) ⊆ fl) (hk : KeepsR s₀ s.regs fl) : KeepsR s₀ (countUe s A src c).regs fl := by
  unfold countUe
  try dsimp only
  repeat' first
    | with_reducible exact hk
    | exact hfl (by decide)
    | exact List.Subset.trans (by decide) hfl
    | with_reducible apply incSat_k
    | with_reducible apply raise_k
    | with_reducible apply queueSoft_k
    | with_reducible apply logErr_k
    | with_reducible apply setT_k
    | with_reducible apply touch_k
    | dsimp only

theorem readWord_k {s : State} {src : Nat} {A : Nat} (hfl : ([.ECC_CECNT_COUNT, .ECC_LOGSTAT_COUNT, .ECC_LOGSTAT_LOST, .ECC_LOGSTAT_OVF, .ECC_UECNT_COUNT, .ERR_LOG_ADDR, .ERR_LOG_DLY, .ERR_LOG_EPOCH, .ERR_LOG_KIND, .ERR_LOG_PUN, .ERR_LOG_SRC, .ERR_LOG_SYN, .ERR_LOG_VALID, .FLT_DROP_COUNT, .FLT_STAT_STAT, .X_CE_RAISED, .X_FQ_RUN, .X_LOG_ORD, .X_LOG_SEQ] : List Fld) ⊆ fl) (hk : KeepsR s₀ s.regs fl) : KeepsR s₀ (readWord s src A).2.regs fl := by
  unfold readWord
  try dsimp only
  repeat' first
    | with_reducible exact hk
    | exact List.Subset.trans (by decide) hfl
    | with_reducible apply countUe_k
    | with_reducible apply countCe_k
    | with_reducible apply touch_k
    | with_reducible apply ite_k
    | with_reducible apply ite_k2
    | split
    | dsimp only

theorem rplCharge_k {s : State} {p : Nat} {n : Nat} (hfl : ([.X_DLY_BYTES] : List Fld) ⊆ fl) (hk : KeepsR s₀ s.regs fl) : KeepsR s₀ (rplCharge s p n).regs fl := by
  unfold rplCharge
  try dsimp only
  repeat' first
    | with_reducible exact hk
    | exact hfl (by decide)
    | with_reducible apply wr_k
    | dsimp only

theorem setBank_k {s : State} {b : Bool} {i : Option FwImage} (hk : KeepsR s₀ s.regs fl) : KeepsR s₀ (State.setBank s b i).regs fl := by
  unfold State.setBank
  try dsimp only
  repeat' first
    | with_reducible exact hk
    | with_reducible apply ite_k
    | split
    | dsimp only

theorem alert_k {s : State} {c : Nat} (hfl : ([.X_ALERT] : List Fld) ⊆ fl) (hk : KeepsR s₀ s.regs fl) : KeepsR s₀ (State.alert s c).regs fl := by
  unfold State.alert
  try dsimp only
  repeat' first
    | with_reducible exact hk
    | exact hfl (by decide)
    | with_reducible apply wrBit_k
    | with_reducible apply ite_k
    | split
    | dsimp only

theorem setDev_k {s : State} {st : Nat} (hfl : ([.DEV_STATE_STATE, .X_ALERT] : List Fld) ⊆ fl) (hk : KeepsR s₀ s.regs fl) : KeepsR s₀ (State.setDev s st).regs fl := by
  unfold State.setDev
  try dsimp only
  repeat' first
    | with_reducible exact hk
    | exact hfl (by decide)
    | exact List.Subset.trans (by decide) hfl
    | with_reducible apply wr_k
    | with_reducible apply alert_k
    | with_reducible apply msix_k
    | with_reducible apply ite_k
    | split
    | dsimp only

theorem loadAppend_k {s : State} {r : Route} {idle : Bool} {bytes : List Byte} (hfl : ([.DEV_STATE_HR_PEND, .DEV_STATE_STATE, .FW_MBX_TOTAL_TOTAL, .X_ALERT, .X_FW_WR] : List Fld) ⊆ fl) (hk : KeepsR s₀ s.regs fl) : KeepsR s₀ (loadAppend s r idle bytes).regs fl := by
  unfold loadAppend
  try dsimp only
  repeat' first
    | with_reducible exact hk
    | exact hfl (by decide)
    | exact List.Subset.trans (by decide) hfl
    | with_reducible apply wr_k
    | with_reducible apply set_k
    | with_reducible apply clr_k
    | with_reducible apply setDev_k
    | with_reducible apply setBank_k
    | with_reducible apply ite_k
    | split
    | dsimp only

theorem mbxFail_k {s : State} {code : Nat} (hfl : ([.DEV_STATE_LASTERR, .FW_MBX_STAT_ERR] : List Fld) ⊆ fl) (hk : KeepsR s₀ s.regs fl) : KeepsR s₀ (mbxFail s code).regs fl := by
  unfold mbxFail
  try dsimp only
  repeat' first
    | with_reducible exact hk
    | exact hfl (by decide)
    | with_reducible apply wr_k
    | with_reducible apply set_k
    | dsimp only

theorem mbxGo_k {s : State} (hfl : ([.DEV_STATE_HR_PEND, .DEV_STATE_LASTERR, .DEV_STATE_STATE, .FW_MBX_STAT_ERR, .FW_MBX_TOTAL_TOTAL, .X_ALERT, .X_FW_WR] : List Fld) ⊆ fl) (hk : KeepsR s₀ s.regs fl) : KeepsR s₀ (mbxGo s).regs fl := by
  unfold mbxGo
  try dsimp only
  repeat' first
    | with_reducible exact hk
    | exact hfl (by decide)
    | exact List.Subset.trans (by decide) hfl
    | with_reducible apply clr_k
    | with_reducible apply mbxFail_k
    | with_reducible apply loadAppend_k
    | with_reducible apply ite_k
    | split
    | dsimp only

theorem loadDone_k {s : State} {r : Route} {idle : Bool} (hfl : ([.DEV_STATE_LASTERR, .FW_MBX_STAT_BUSY, .FW_MBX_STAT_ERR, .X_FW_CHK] : List Fld) ⊆ fl) (hk : KeepsR s₀ s.regs fl) : KeepsR s₀ (loadDone s r idle).regs fl := by
  unfold loadDone
  try dsimp only
  repeat' first
    | with_reducible exact hk
    | exact hfl (by decide)
    | exact List.Subset.trans (by decide) hfl
    | with_reducible apply set_k
    | with_reducible apply mbxFail_k
    | with_reducible apply ite_k
    | split
    | dsimp only

theorem loadDrop_k {s : State} (hfl : ([.FW_MBX_STAT_BUSY, .FW_MBX_TOTAL_TOTAL, .X_FW_CHK, .X_FW_WR] : List Fld) ⊆ fl) (hk : KeepsR s₀ s.regs fl) : KeepsR s₀ (loadDrop s).regs fl := by
  unfold loadDrop
  try dsimp only
  repeat' first
    | with_reducible exact hk
    | exact hfl (by decide)
    | with_reducible apply clr_k
    | dsimp only

theorem loadAbort_k {s : State} (hfl : ([.DEV_STATE_STATE, .FW_MBX_STAT_BUSY, .FW_MBX_TOTAL_TOTAL, .X_ALERT, .X_FW_CHK, .X_FW_WR] : List Fld) ⊆ fl) (hk : KeepsR s₀ s.regs fl) : KeepsR s₀ (loadAbort s).regs fl := by
  unfold loadAbort
  try dsimp only
  repeat' first
    | with_reducible exact hk
    | exact List.Subset.trans (by decide) hfl
    | with_reducible apply setDev_k
    | with_reducible apply loadDrop_k
    | with_reducible apply ite_k
    | split
    | dsimp only

theorem fwMbxCtl_k {s : State} {v : Nat} (hfl : ([.DEV_STATE_HR_PEND, .DEV_STATE_LASTERR, .DEV_STATE_STATE, .FW_MBX_CTL_TARGET, .FW_MBX_STAT_BUSY, .FW_MBX_STAT_ERR, .FW_MBX_TOTAL_TOTAL, .X_ALERT, .X_FW_CHK, .X_FW_WR] : List Fld) ⊆ fl) (hk : KeepsR s₀ s.regs fl) : KeepsR s₀ (fwMbxCtl s v).regs fl := by
  unfold fwMbxCtl
  try dsimp only
  repeat' first
    | with_reducible exact hk
    | exact hfl (by decide)
    | exact List.Subset.trans (by decide) hfl
    | with_reducible apply wr_k
    | with_reducible apply loadDone_k
    | with_reducible apply mbxGo_k
    | with_reducible apply loadAbort_k
    | with_reducible apply ite_k
    | split
    | dsimp only

theorem accessFail_k {s : State} {r : Route} {a : Nat} (hfl : ([.TW_STAT_REGERR] : List Fld) ⊆ fl) (hk : KeepsR s₀ s.regs fl) : KeepsR s₀ (State.accessFail s r a).regs fl := by
  unfold State.accessFail
  try dsimp only
  repeat' first
    | with_reducible exact hk
    | exact hfl (by decide)
    | with_reducible apply set_k
    | with_reducible apply emit_k
    | split
    | dsimp only

theorem gate_k {r : Route} {a : Nat} {f : State → State} {s : State} (hfl : ([.F5_STAT_OWNERR, .TW_STAT_REGERR] : List Fld) ⊆ fl) (hf_f : ∀ y0, KeepsR s₀ y0.regs fl → KeepsR s₀ (f y0).regs fl) (hk : KeepsR s₀ s.regs fl) : KeepsR s₀ (gate r a f s).regs fl := by
  unfold gate
  try dsimp only
  repeat' first
    | with_reducible exact hk
    | exact hfl (by decide)
    | exact List.Subset.trans (by decide) hfl
    | with_reducible apply set_k
    | with_reducible apply accessFail_k
    | with_reducible apply hf_f
    | with_reducible apply ite_k
    | split
    | dsimp only

theorem fwShow_k {s : State} {up : Bool} (hfl : ([.MB_STAT_NOFW, .TW_MBSTAT_NOFW, .X_FWUP] : List Fld) ⊆ fl) (hk : KeepsR s₀ s.regs fl) : KeepsR s₀ (fwShow s up).regs fl := by
  unfold fwShow
  try dsimp only
  repeat' first
    | with_reducible exact hk
    | exact hfl (by decide)
    | with_reducible apply wr_k
    | with_reducible apply wrB_k
    | with_reducible apply ite_k
    | split
    | dsimp only

theorem setWins_k {s : State} {a : Nat} {l : List Byte} (hk : KeepsR s₀ s.regs fl) : KeepsR s₀ (State.setWins s a l).regs fl := by
  unfold State.setWins
  try dsimp only
  repeat' first
    | with_reducible exact hk
    | with_reducible apply setWin_k
    | with_reducible refine each_k ?_ (fun s a hk => ?_)
    | dsimp only

theorem mbAnswer_k {s : State} {m : Nat} {msg : List Byte} (hfl : ([.MB_STAT_PEND, .MB_STAT_RSP, .TW_MBSTAT_PEND, .TW_MBSTAT_RSP, .X_ALERT, .X_MB_FIRST] : List Fld) ⊆ fl) (hk : KeepsR s₀ s.regs fl) : KeepsR s₀ (mbAnswer s m msg).regs fl := by
  unfold mbAnswer
  try dsimp only
  repeat' first
    | with_reducible exact hk
    | exact hfl (by decide)
    | exact hfl (by unfold mbPend; split <;> decide)
    | exact hfl (by unfold mbRsp; split <;> decide)
    | exact List.Subset.trans (by decide) hfl
    | with_reducible apply wr_k
    | with_reducible apply set_k
    | with_reducible apply clr_k
    | with_reducible apply alert_k
    | with_reducible apply msix_k
    | with_reducible apply setWins_k
    | with_reducible apply ite_k
    | split
    | dsimp only

theorem serveUnknown_k {s : State} (hfl : ([.MB_STAT_PEND, .MB_STAT_RSP, .TW_MBSTAT_PEND, .TW_MBSTAT_RSP, .X_ALERT, .X_MB_FIRST] : List Fld) ⊆ fl) (hk : KeepsR s₀ s.regs fl) : KeepsR s₀ (serveUnknown s).regs fl := by
  unfold serveUnknown
  try dsimp only
  repeat' first
    | with_reducible exact hk
    | exact List.Subset.trans (by decide) hfl
    | with_reducible apply mbAnswer_k
    | with_reducible refine foldl_k ?_ (fun s a hk => ?_)
    | with_reducible refine foldl_k2 ?_ (fun s a hk => ?_)
    | with_reducible apply ite_k
    | split
    | dsimp only

theorem fwUp_k {s : State} (hfl : ([.FLT_GSTAT_TRAPPEND, .MB_STAT_NOFW, .MB_STAT_PEND, .MB_STAT_RSP, .TW_MBSTAT_NOFW, .TW_MBSTAT_PEND, .TW_MBSTAT_RSP, .X_ALERT, .X_FWUP, .X_MB_FIRST] : List Fld) ⊆ fl) (hk : KeepsR s₀ s.regs fl) : KeepsR s₀ (fwUp s).regs fl := by
  unfold fwUp
  try dsimp only
  repeat' first
    | with_reducible exact hk
    | exact hfl (by decide)
    | exact List.Subset.trans (by decide) hfl
    | with_reducible apply clr_k
    | with_reducible apply emit_k
    | with_reducible apply serveUnknown_k
    | with_reducible apply fwShow_k
    | with_reducible apply ite_k
    | split
    | dsimp only

theorem domsOff_k {s : State} {ds : List Nat} (hfl : ([.PWR_STAT_ON] : List Fld) ⊆ fl) (hk : KeepsR s₀ s.regs fl) : KeepsR s₀ (domsOff s ds).regs fl := by
  unfold domsOff
  try dsimp only
  repeat' first
    | with_reducible exact hk
    | exact hfl (by decide)
    | with_reducible apply wrBit_k
    | with_reducible refine each_k ?_ (fun s a hk => ?_)
    | dsimp only

theorem raiseCause_k {s : State} {src : Nat} {kind : Nat} {addr : Nat} (hfl : ([.FLT_DROP_COUNT, .FLT_STAT_STAT, .X_FQ_RUN] : List Fld) ⊆ fl) (hk : KeepsR s₀ s.regs fl) : KeepsR s₀ (State.raiseCause s src kind addr).regs fl := by
  unfold State.raiseCause
  try dsimp only
  repeat' first
    | with_reducible exact hk
    | exact List.Subset.trans (by decide) hfl
    | with_reducible apply raise_k
    | dsimp only

theorem markFailed_k {s : State} {ds : List Nat} (hfl : ([.CLK_FAIL_FAIL, .CLK_GPEND_GATE_PEND] : List Fld) ⊆ fl) (hk : KeepsR s₀ s.regs fl) : KeepsR s₀ (markFailed s ds).regs fl := by
  unfold markFailed
  try dsimp only
  repeat' first
    | with_reducible exact hk
    | exact hfl (by decide)
    | with_reducible apply wrBit_k
    | with_reducible refine each_k ?_ (fun s a hk => ?_)
    | dsimp only

theorem quadMarks_k {s : State} (hfl : ([.CLK_FAIL_FAIL, .CLK_GPEND_GATE_PEND, .FLT_DROP_COUNT, .FLT_STAT_STAT, .X_FQ_RUN] : List Fld) ⊆ fl) (hk : KeepsR s₀ s.regs fl) : KeepsR s₀ (quadMarks s).regs fl := by
  unfold quadMarks
  try dsimp only
  repeat' first
    | with_reducible exact hk
    | exact List.Subset.trans (by decide) hfl
    | with_reducible apply raiseCause_k
    | with_reducible apply markFailed_k
    | with_reducible refine each_k ?_ (fun s a hk => ?_)
    | with_reducible apply ite_k
    | split
    | dsimp only

theorem apprShow_k {s : State} (hfl : ([.RND_STAT_APPR] : List Fld) ⊆ fl) (hk : KeepsR s₀ s.regs fl) : KeepsR s₀ (apprShow s).regs fl := by
  unfold apprShow
  try dsimp only
  repeat' first
    | with_reducible exact hk
    | exact hfl (by decide)
    | with_reducible apply wrB_k
    | dsimp only

theorem calShow_k {s : State} {n : Nat} (hfl : ([.CAL_LSTAT_CONSEC, .CAL_LSTAT_STATE] : List Fld) ⊆ fl) (hk : KeepsR s₀ s.regs fl) : KeepsR s₀ (calShow s n).regs fl := by
  unfold calShow
  try dsimp only
  repeat' first
    | with_reducible exact hk
    | exact hfl (by decide)
    | with_reducible apply wr_k
    | dsimp only

theorem laneEvent_k {s : State} {n : Nat} {kind : Nat} {side : Nat} {slice : Nat} (hfl : ([.FLT_DROP_COUNT, .FLT_STAT_STAT, .X_FQ_RUN] : List Fld) ⊆ fl) (hk : KeepsR s₀ s.regs fl) : KeepsR s₀ (laneEvent s n kind side slice).regs fl := by
  unfold laneEvent
  try dsimp only
  repeat' first
    | with_reducible exact hk
    | exact List.Subset.trans (by decide) hfl
    | with_reducible apply raise_k
    | dsimp only

theorem setTrim_k {s : State} {x : Nat} {i : Nat} {w : Nat} (hfl : ([.CAL_OFS_OFS, .CAL_SLC_GAIN, .CAL_SLC_PAIR] : List Fld) ⊆ fl) (hk : KeepsR s₀ s.regs fl) : KeepsR s₀ (setTrim s x i w).regs fl := by
  unfold setTrim
  try dsimp only
  repeat' first
    | with_reducible exact hk
    | exact hfl (by decide)
    | with_reducible apply wr_k
    | dsimp only

theorem rxDefault_k {s : State} {x : Nat} (hfl : ([.CAL_LIN_LIN, .CAL_LSTAT_NOSHADOW_A, .CAL_LSTAT_NOSHADOW_B, .CAL_OFS_OFS, .CAL_SLC_GAIN, .CAL_SLC_PAIR, .CAL_SLC_ROLE, .CAL_TX_Z] : List Fld) ⊆ fl) (hk : KeepsR s₀ s.regs fl) : KeepsR s₀ (rxDefault s x).regs fl := by
  unfold rxDefault
  try dsimp only
  repeat' first
    | with_reducible exact hk
    | exact hfl (by decide)
    | exact hfl (by unfold noShadowFld; split <;> decide)
    | exact List.Subset.trans (by decide) hfl
    | with_reducible apply wr_k
    | with_reducible apply clr_k
    | with_reducible apply setTrim_k
    | with_reducible refine foldl_k ?_ (fun s a hk => ?_)
    | with_reducible refine foldl_k2 ?_ (fun s a hk => ?_)
    | dsimp only

theorem rxEvent_k {s : State} {x : Nat} {kind : Nat} {slice : Nat} (hfl : ([.FLT_DROP_COUNT, .FLT_STAT_STAT, .X_FQ_RUN] : List Fld) ⊆ fl) (hk : KeepsR s₀ s.regs fl) : KeepsR s₀ (rxEvent s x kind slice).regs fl := by
  unfold rxEvent
  try dsimp only
  repeat' first
    | with_reducible exact hk
    | exact List.Subset.trans (by decide) hfl
    | with_reducible apply laneEvent_k
    | dsimp only

theorem rxRestore_k {s : State} {x : Nat} {v : Nat} (hfl : ([.CAL_LSTAT_NOSHADOW_A, .CAL_LSTAT_NOSHADOW_B, .CAL_OFS_OFS, .CAL_SLC_GAIN, .CAL_SLC_PAIR, .CAL_SLC_ROLE, .FLT_DROP_COUNT, .FLT_STAT_STAT, .X_FQ_RUN] : List Fld) ⊆ fl) (hk : KeepsR s₀ s.regs fl) : KeepsR s₀ (rxRestore s x v).regs fl := by
  unfold rxRestore
  try dsimp only
  repeat' first
    | with_reducible exact hk
    | exact hfl (by decide)
    | exact hfl (by unfold noShadowFld; split <;> decide)
    | exact List.Subset.trans (by decide) hfl
    | with_reducible apply wr_k
    | with_reducible apply wrB_k
    | with_reducible apply setTrim_k
    | with_reducible apply rxEvent_k
    | with_reducible refine each_k ?_ (fun s a hk => ?_)
    | with_reducible refine foldl_k ?_ (fun s a hk => ?_)
    | with_reducible refine foldl_k2 ?_ (fun s a hk => ?_)
    | with_reducible apply ite_k
    | split
    | dsimp only

theorem calRestore_k {s : State} {n : Nat} (hfl : ([.CAL_LIN_LIN, .CAL_LSTAT_CONSEC, .CAL_LSTAT_NOSHADOW_A, .CAL_LSTAT_NOSHADOW_B, .CAL_LSTAT_STATE, .CAL_LSTAT_TLAST_A, .CAL_LSTAT_TLAST_B, .CAL_OFS_OFS, .CAL_SLC_GAIN, .CAL_SLC_PAIR, .CAL_SLC_ROLE, .CAL_TX_Z, .DEV_STATE_CALRESTORE_PART, .FLT_DROP_COUNT, .FLT_STAT_STAT, .X_CAL_DFLT, .X_FQ_RUN] : List Fld) ⊆ fl) (hk : KeepsR s₀ s.regs fl) : KeepsR s₀ (calRestore s n).regs fl := by
  unfold calRestore
  try dsimp only
  repeat' first
    | with_reducible exact hk
    | exact hfl (by decide)
    | exact List.Subset.trans (by decide) hfl
    | with_reducible apply wr_k
    | with_reducible apply set_k
    | with_reducible apply clr_k
    | with_reducible apply laneEvent_k
    | with_reducible apply calShow_k
    | with_reducible apply rxRestore_k
    | with_reducible apply rxDefault_k
    | split
    | dsimp only

theorem calRestoreAll_k {s : State} (hfl : ([.CAL_LIN_LIN, .CAL_LSTAT_CONSEC, .CAL_LSTAT_NOSHADOW_A, .CAL_LSTAT_NOSHADOW_B, .CAL_LSTAT_STATE, .CAL_LSTAT_TLAST_A, .CAL_LSTAT_TLAST_B, .CAL_OFS_OFS, .CAL_SLC_GAIN, .CAL_SLC_PAIR, .CAL_SLC_ROLE, .CAL_STAT_COPY, .CAL_TX_Z, .DEV_STATE_CALRESTORE_PART, .FLT_DROP_COUNT, .FLT_STAT_STAT, .X_CAL_DFLT, .X_FQ_RUN] : List Fld) ⊆ fl) (hk : KeepsR s₀ s.regs fl) : KeepsR s₀ (calRestoreAll s).regs fl := by
  unfold calRestoreAll
  try dsimp only
  repeat' first
    | with_reducible exact hk
    | exact hfl (by decide)
    | exact List.Subset.trans (by decide) hfl
    | with_reducible apply wr_k
    | with_reducible apply clr_k
    | with_reducible apply calRestore_k
    | with_reducible refine foldl_k ?_ (fun s a hk => ?_)
    | with_reducible refine foldl_k2 ?_ (fun s a hk => ?_)
    | dsimp only

theorem domsOn_k {s : State} {ds : List Nat} (hfl : ([.PWR_STAT_ON] : List Fld) ⊆ fl) (hk : KeepsR s₀ s.regs fl) : KeepsR s₀ (domsOn s ds).regs fl := by
  unfold domsOn
  try dsimp only
  repeat' first
    | with_reducible exact hk
    | exact hfl (by decide)
    | with_reducible apply wrBit_k
    | with_reducible refine each_k ?_ (fun s a hk => ?_)
    | dsimp only

theorem spareRecount_k {s : State} {t : Nat} {c : Nat} (hfl : ([.REP_SPARE_HARD, .REP_SPARE_ROWS, .REP_SPARE_TSV] : List Fld) ⊆ fl) (hk : KeepsR s₀ s.regs fl) : KeepsR s₀ (spareRecount s t c).regs fl := by
  unfold spareRecount
  try dsimp only
  repeat' first
    | with_reducible exact hk
    | exact hfl (by decide)
    | with_reducible apply wr_k
    | split
    | dsimp only

theorem repApply_k {s : State} {t : Nat} {cs : List Nat} (hfl : ([.REP_SPARE_HARD, .REP_SPARE_ROWS, .REP_SPARE_TSV] : List Fld) ⊆ fl) (hk : KeepsR s₀ s.regs fl) : KeepsR s₀ (repApply s t cs).regs fl := by
  unfold repApply
  try dsimp only
  repeat' first
    | with_reducible exact hk
    | exact List.Subset.trans (by decide) hfl
    | with_reducible apply spareRecount_k
    | with_reducible refine each_k ?_ (fun s a hk => ?_)
    | with_reducible apply ite_k
    | split
    | dsimp only

theorem repCheck_k {s : State} (hfl : ([.FLT_DROP_COUNT, .FLT_STAT_STAT, .X_FQ_RUN] : List Fld) ⊆ fl) (hk : KeepsR s₀ s.regs fl) : KeepsR s₀ (repCheck s).regs fl := by
  unfold repCheck
  try dsimp only
  repeat' first
    | with_reducible exact hk
    | exact List.Subset.trans (by decide) hfl
    | with_reducible apply raise_k
    | with_reducible refine each_k ?_ (fun s a hk => ?_)
    | dsimp only

theorem setNvm_k {s : State} {a : Nat} {v : Byte} (hk : KeepsR s₀ s.regs fl) : KeepsR s₀ (State.setNvm s a v).regs fl := by
  unfold State.setNvm
  try dsimp only
  repeat' first
    | with_reducible exact hk
    | dsimp only

theorem setNvms_k {s : State} {a : Nat} {l : List Byte} (hk : KeepsR s₀ s.regs fl) : KeepsR s₀ (State.setNvms s a l).regs fl := by
  unfold State.setNvms
  try dsimp only
  repeat' first
    | with_reducible exact hk
    | with_reducible apply setNvm_k
    | with_reducible refine each_k ?_ (fun s a hk => ?_)
    | dsimp only

theorem repHeader_k {s : State} {n : Nat} (hk : KeepsR s₀ s.regs fl) : KeepsR s₀ (repHeader s n).regs fl := by
  unfold repHeader
  try dsimp only
  repeat' first
    | with_reducible exact hk
    | with_reducible apply setNvms_k
    | dsimp only

theorem repRewrite_k {s : State} {f : RepEnt → Bool} (hk : KeepsR s₀ s.regs fl) : KeepsR s₀ (repRewrite s f).regs fl := by
  unfold repRewrite
  try dsimp only
  repeat' first
    | with_reducible exact hk
    | with_reducible apply setNvms_k
    | with_reducible apply repHeader_k
    | dsimp only

theorem repTidy_k {s : State} (hk : KeepsR s₀ s.regs fl) : KeepsR s₀ (repTidy s).regs fl := by
  unfold repTidy
  try dsimp only
  repeat' first
    | with_reducible exact hk
    | with_reducible apply repRewrite_k
    | with_reducible apply ite_k
    | split
    | dsimp only

theorem bootStart_k {s : State} {i : FwImage} (hfl : ([.CAL_LIN_LIN, .CAL_LSTAT_CONSEC, .CAL_LSTAT_NOSHADOW_A, .CAL_LSTAT_NOSHADOW_B, .CAL_LSTAT_STATE, .CAL_LSTAT_TLAST_A, .CAL_LSTAT_TLAST_B, .CAL_OFS_OFS, .CAL_SLC_GAIN, .CAL_SLC_PAIR, .CAL_SLC_ROLE, .CAL_STAT_COPY, .CAL_TX_Z, .CLK_FAIL_FAIL, .CLK_GPEND_GATE_PEND, .DEV_STATE_BANK, .DEV_STATE_CALRESTORE_PART, .DEV_STATE_INITSTEP, .DEV_STATE_NONAPPR, .DEV_STATE_STATE, .FLT_DROP_COUNT, .FLT_GSTAT_TRAPPEND, .FLT_STAT_STAT, .MB_STAT_NOFW, .MB_STAT_PEND, .MB_STAT_RSP, .PWR_STAT_ON, .REP_SPARE_HARD, .REP_SPARE_ROWS, .REP_SPARE_TSV, .RND_STAT_APPR, .TW_MBSTAT_NOFW, .TW_MBSTAT_PEND, .TW_MBSTAT_RSP, .X_ALERT, .X_CAL_DFLT, .X_CORE, .X_FQ_RUN, .X_FWUP, .X_MB_FIRST] : List Fld) ⊆ fl) (hk : KeepsR s₀ s.regs fl) : KeepsR s₀ (bootStart s i).regs fl := by
  unfold bootStart
  try dsimp only
  repeat' first
    | with_reducible exact hk
    | exact hfl (by decide)
    | exact List.Subset.trans (by decide) hfl
    | with_reducible apply wr_k
    | with_reducible apply clr_k
    | with_reducible apply wrB_k
    | with_reducible apply apprShow_k
    | with_reducible apply domsOn_k
    | with_reducible apply repTidy_k
    | with_reducible apply fwUp_k
    | with_reducible apply calRestoreAll_k
    | with_reducible apply setDev_k
    | with_reducible apply quadMarks_k
    | with_reducible apply repApply_k
    | with_reducible apply repCheck_k
    | dsimp only

theorem imageFail_k {s : State} {code : Nat} (hfl : ([.DEV_STATE_LASTERR, .DEV_STATE_STATE, .FW_MBX_STAT_ACCEPTED, .FW_MBX_STAT_BUSY, .FW_MBX_STAT_ERR, .FW_MBX_TOTAL_TOTAL, .X_ALERT, .X_FW_CHK, .X_FW_WR] : List Fld) ⊆ fl) (hk : KeepsR s₀ s.regs fl) : KeepsR s₀ (imageFail s code).regs fl := by
  unfold imageFail
  try dsimp only
  repeat' first
    | with_reducible exact hk
    | exact hfl (by decide)
    | exact List.Subset.trans (by decide) hfl
    | with_reducible apply wr_k
    | with_reducible apply set_k
    | with_reducible apply clr_k
    | with_reducible apply alert_k
    | with_reducible apply loadAbort_k
    | dsimp only

theorem pendRecount_k {s : State} (hfl : ([.REP_STAT_NVMPEND] : List Fld) ⊆ fl) (hk : KeepsR s₀ s.regs fl) : KeepsR s₀ (pendRecount s).regs fl := by
  unfold pendRecount
  try dsimp only
  repeat' first
    | with_reducible exact hk
    | exact hfl (by decide)
    | with_reducible apply wr_k
    | with_reducible refine each_k ?_ (fun s a hk => ?_)
    | dsimp only

theorem repQueueNvm_k {s : State} {e : RepEnt} (hfl : ([.REP_STAT_NVMPEND] : List Fld) ⊆ fl) (hk : KeepsR s₀ s.regs fl) : KeepsR s₀ (repQueueNvm s e).regs fl := by
  unfold repQueueNvm
  try dsimp only
  repeat' first
    | with_reducible exact hk
    | exact List.Subset.trans (by decide) hfl
    | with_reducible apply pendRecount_k
    | dsimp only

theorem testTsv_k {s : State} {t : Nat} {c : Nat} {lane : Nat} (hfl : ([.REP_SPARE_HARD, .REP_SPARE_ROWS, .REP_SPARE_TSV, .REP_STAT_NVMPEND] : List Fld) ⊆ fl) (hk : KeepsR s₀ s.regs fl) : KeepsR s₀ (testTsv s t c lane).2.regs fl := by
  unfold testTsv
  try dsimp only
  repeat' first
    | with_reducible exact hk
    | exact List.Subset.trans (by decide) hfl
    | with_reducible apply repQueueNvm_k
    | with_reducible apply spareRecount_k
    | split
    | dsimp only

theorem testRow_k {s : State} {k : RowKey} {bad : Nat} (hfl : ([.REP_SPARE_HARD, .REP_SPARE_ROWS, .REP_SPARE_TSV, .REP_STAT_NVMPEND] : List Fld) ⊆ fl) (hk : KeepsR s₀ s.regs fl) : KeepsR s₀ (testRow s k bad).2.regs fl := by
  unfold testRow
  try dsimp only
  repeat' first
    | with_reducible exact hk
    | exact List.Subset.trans (by decide) hfl
    | with_reducible apply repQueueNvm_k
    | with_reducible apply spareRecount_k
    | split
    | dsimp only

theorem repAppend_k {s : State} {e : RepEnt} (hk : KeepsR s₀ s.regs fl) : KeepsR s₀ (repAppend s e).regs fl := by
  unfold repAppend
  try dsimp only
  repeat' first
    | with_reducible exact hk
    | with_reducible apply setNvms_k
    | with_reducible apply repHeader_k
    | with_reducible apply ite_k
    | split
    | dsimp only

theorem testLost_k {s : State} {t : Nat} {c : Nat} (hfl : ([.REP_STAT_RCH, .REP_STAT_RETIRED] : List Fld) ⊆ fl) (hk : KeepsR s₀ s.regs fl) : KeepsR s₀ (testLost s t c).2.regs fl := by
  unfold testLost
  try dsimp only
  repeat' first
    | with_reducible exact hk
    | exact hfl (by decide)
    | with_reducible apply wr_k
    | with_reducible apply set_k
    | with_reducible apply repAppend_k
    | with_reducible apply ite_k
    | with_reducible apply ite_k2
    | split
    | dsimp only

theorem testStep_k {acc : Bool × State} {t : Nat} {c : Nat} {fix : State → Bool × State} (hfl : ([.REP_STAT_RCH, .REP_STAT_RETIRED] : List Fld) ⊆ fl) (hf_fix : ∀ y0, KeepsR s₀ y0.regs fl → KeepsR s₀ (fix y0).2.regs fl) (hk : KeepsR s₀ acc.2.regs fl) : KeepsR s₀ (testStep acc t c fix).2.regs fl := by
  unfold testStep
  try dsimp only
  repeat' first
    | with_reducible exact hk
    | exact List.Subset.trans (by decide) hfl
    | with_reducible apply testLost_k
    | with_reducible apply hf_fix
    | with_reducible apply ite_k
    | with_reducible apply ite_k2
    | split
    | dsimp only

theorem towerActive_k {s : State} {t : Nat} (hfl : ([.CH_STAT_STATE, .TWR_STAT_STATE] : List Fld) ⊆ fl) (hk : KeepsR s₀ s.regs fl) : KeepsR s₀ (towerActive s t).regs fl := by
  unfold towerActive
  try dsimp only
  repeat' first
    | with_reducible exact hk
    | exact hfl (by decide)
    | with_reducible apply wr_k
    | with_reducible refine each_k ?_ (fun s a hk => ?_)
    | with_reducible apply ite_k
    | split
    | dsimp only

theorem initServe_k {s : State} (hfl : ([.DEV_STATE_INITSTEP, .DEV_STATE_STATE, .X_ALERT] : List Fld) ⊆ fl) (hk : KeepsR s₀ s.regs fl) : KeepsR s₀ (initServe s).regs fl := by
  unfold initServe
  try dsimp only
  repeat' first
    | with_reducible exact hk
    | exact hfl (by decide)
    | exact List.Subset.trans (by decide) hfl
    | with_reducible apply wr_k
    | with_reducible apply setDev_k
    | dsimp only

theorem setChg_k {s : State} {p : Nat} {v : Option ModeChg} (hk : KeepsR s₀ s.regs fl) : KeepsR s₀ (State.setChg s p v).regs fl := by
  unfold State.setChg
  try dsimp only
  repeat' first
    | with_reducible exact hk
    | dsimp only

theorem setHeld_k {s : State} {p : Nat} {v : List HeldUnit} (hk : KeepsR s₀ s.regs fl) : KeepsR s₀ (State.setHeld s p v).regs fl := by
  unfold State.setHeld
  try dsimp only
  repeat' first
    | with_reducible exact hk
    | dsimp only

theorem setItems_k {s : State} {p : Nat} {v : List Item} (hk : KeepsR s₀ s.regs fl) : KeepsR s₀ (State.setItems s p v).regs fl := by
  unfold State.setItems
  try dsimp only
  repeat' first
    | with_reducible exact hk
    | dsimp only

theorem setStrikes_k {s : State} {q : Nat} {v : List (Nat × Nat)} (hk : KeepsR s₀ s.regs fl) : KeepsR s₀ (State.setStrikes s q v).regs fl := by
  unfold State.setStrikes
  try dsimp only
  repeat' first
    | with_reducible exact hk
    | dsimp only

theorem cancelAction_k {s : State} {p : Nat} {addr : Nat} (hfl : ([.FLT_DROP_COUNT, .FLT_STAT_STAT, .PUN_DISC_COUNT, .SEQ_ACNT_CANCEL, .X_FQ_RUN] : List Fld) ⊆ fl) (hk : KeepsR s₀ s.regs fl) : KeepsR s₀ (cancelAction s p addr).regs fl := by
  unfold cancelAction
  try dsimp only
  repeat' first
    | with_reducible exact hk
    | exact hfl (by decide)
    | exact List.Subset.trans (by decide) hfl
    | with_reducible apply incSat_k
    | with_reducible apply pathEvent_k
    | dsimp only

theorem cancelDlySkp_k {s : State} {p : Nat} {pos : Nat} (hfl : ([.FLT_DROP_COUNT, .FLT_STAT_STAT, .PUN_DISC_COUNT, .SEQ_ACNT_CANCEL, .X_DLYH_V, .X_DLYP_V, .X_FQ_RUN, .X_SKP_V] : List Fld) ⊆ fl) (hk : KeepsR s₀ s.regs fl) : KeepsR s₀ (cancelDlySkp s p pos).regs fl := by
  unfold cancelDlySkp
  try dsimp only
  repeat' first
    | with_reducible exact hk
    | exact hfl (by decide)
    | exact List.Subset.trans (by decide) hfl
    | with_reducible apply clr_k
    | with_reducible apply cancelAction_k
    | with_reducible apply ite_k
    | split
    | dsimp only

theorem injEvent_k {s : State} {g : Nat} {lp : Nat} {pos : Nat} {outcome : Nat} {ent : Nat} (hfl : ([.FLT_DROP_COUNT, .FLT_STAT_STAT, .PUN_DISC_COUNT, .SEQ_ACNT_CANCEL, .X_FQ_RUN] : List Fld) ⊆ fl) (hk : KeepsR s₀ s.regs fl) : KeepsR s₀ (injEvent s g lp pos outcome ent).regs fl := by
  unfold injEvent
  try dsimp only
  repeat' first
    | with_reducible exact hk
    | exact List.Subset.trans (by decide) hfl
    | with_reducible apply pathEvent_k
    | with_reducible apply raise_k
    | with_reducible apply cancelAction_k
    | with_reducible apply ite_k
    | split
    | dsimp only

theorem injRecord_k {s : State} {g : Nat} {lp : Nat} {pos : Nat} {outcome : Nat} {ent : Nat} {src : Nat} (hfl : ([.INJ_LOG_ENTRY, .INJ_LOG_OUTCOME, .INJ_LOG_PATH, .INJ_LOG_POS, .INJ_LOG_SRC_SOURCE, .INJ_STAT_LOST, .INJ_STAT_WIDX, .X_INJ_LOGN] : List Fld) ⊆ fl) (hk : KeepsR s₀ s.regs fl) : KeepsR s₀ (injRecord s g lp pos outcome ent src).regs fl := by
  unfold injRecord
  try dsimp only
  repeat' first
    | with_reducible exact hk
    | exact hfl (by decide)
    | with_reducible apply wr_k
    | with_reducible apply incSat_k
    | with_reducible apply incWrap_k
    | with_reducible apply ite_k
    | split
    | dsimp only

theorem injRelease_k {s : State} {e : Nat} (hfl : ([.INJ_ENT_INFO_STATE, .INJ_STAT_FREE] : List Fld) ⊆ fl) (hk : KeepsR s₀ s.regs fl) : KeepsR s₀ (injRelease s e).regs fl := by
  unfold injRelease
  try dsimp only
  repeat' first
    | with_reducible exact hk
    | exact hfl (by decide)
    | with_reducible apply wr_k
    | dsimp only

theorem injDone_k {s : State} {e : Nat} {pos : Nat} {outcome : Nat} (hfl : ([.FLT_DROP_COUNT, .FLT_STAT_STAT, .INJ_ENT_INFO_STATE, .INJ_LOG_ENTRY, .INJ_LOG_OUTCOME, .INJ_LOG_PATH, .INJ_LOG_POS, .INJ_LOG_SRC_SOURCE, .INJ_STAT_FREE, .INJ_STAT_LOST, .INJ_STAT_WIDX, .PUN_DISC_COUNT, .SEQ_ACNT_CANCEL, .X_FQ_RUN, .X_INJ_LOGN] : List Fld) ⊆ fl) (hk : KeepsR s₀ s.regs fl) : KeepsR s₀ (injDone s e pos outcome).regs fl := by
  unfold injDone
  try dsimp only
  repeat' first
    | with_reducible exact hk
    | exact List.Subset.trans (by decide) hfl
    | with_reducible apply injEvent_k
    | with_reducible apply injRelease_k
    | with_reducible apply injRecord_k
    | dsimp only

theorem cancelEntries_k {s : State} {p : Nat} {pos : Nat} {f : State → Nat → Bool} (hfl : ([.FLT_DROP_COUNT, .FLT_STAT_STAT, .INJ_ENT_INFO_STATE, .INJ_LOG_ENTRY, .INJ_LOG_OUTCOME, .INJ_LOG_PATH, .INJ_LOG_POS, .INJ_LOG_SRC_SOURCE, .INJ_STAT_FREE, .INJ_STAT_LOST, .INJ_STAT_WIDX, .PUN_DISC_COUNT, .SEQ_ACNT_CANCEL, .X_FQ_RUN, .X_INJ_LOGN] : List Fld) ⊆ fl) (hk : KeepsR s₀ s.regs fl) : KeepsR s₀ (cancelEntries s p pos f).regs fl := by
  unfold cancelEntries
  try dsimp only
  repeat' first
    | with_reducible exact hk
    | exact List.Subset.trans (by decide) hfl
    | with_reducible apply injDone_k
    | with_reducible refine foldl_k ?_ (fun s a hk => ?_)
    | with_reducible refine foldl_k2 ?_ (fun s a hk => ?_)
    | dsimp only

theorem pendCount_k {s : State} {p : Nat} (hfl : ([.STRM_CFG_PEND] : List Fld) ⊆ fl) (hk : KeepsR s₀ s.regs fl) : KeepsR s₀ (pendCount s p).regs fl := by
  unfold pendCount
  try dsimp only
  repeat' first
    | with_reducible exact hk
    | exact hfl (by decide)
    | with_reducible apply wr_k
    | dsimp only

theorem cancelAll_k {s : State} {p : Nat} {pos : Nat} (hfl : ([.FLT_DROP_COUNT, .FLT_STAT_STAT, .INJ_ENT_INFO_STATE, .INJ_LOG_ENTRY, .INJ_LOG_OUTCOME, .INJ_LOG_PATH, .INJ_LOG_POS, .INJ_LOG_SRC_SOURCE, .INJ_STAT_FREE, .INJ_STAT_LOST, .INJ_STAT_WIDX, .MATCH_STAT_ACTSKIP, .PUN_DISC_COUNT, .SEQ_ACNT_CANCEL, .STRM_CFG_PEND, .X_DLYH_V, .X_DLYP_V, .X_FQ_RUN, .X_INJ_LOGN, .X_SKP_V] : List Fld) ⊆ fl) (hk : KeepsR s₀ s.regs fl) : KeepsR s₀ (cancelAll s p pos).regs fl := by
  unfold cancelAll
  try dsimp only
  repeat' first
    | with_reducible exact hk
    | exact hfl (by decide)
    | exact List.Subset.trans (by decide) hfl
    | with_reducible apply set_k
    | with_reducible apply cancelEntries_k
    | with_reducible apply cancelDlySkp_k
    | with_reducible apply setStrm_k
    | with_reducible apply cancelAction_k
    | with_reducible apply pendCount_k
    | with_reducible refine each_k ?_ (fun s a hk => ?_)
    | with_reducible refine foldl_k ?_ (fun s a hk => ?_)
    | with_reducible refine foldl_k2 ?_ (fun s a hk => ?_)
    | dsimp only

theorem dlyDrop_k {s : State} {p : Nat} (hfl : ([.PATH_DISC_COUNT, .PATH_DLYSTAT_FILL, .X_DLY_CNT, .X_DLY_LO] : List Fld) ⊆ fl) (hk : KeepsR s₀ s.regs fl) : KeepsR s₀ (dlyDrop s p).regs fl := by
  unfold dlyDrop
  try dsimp only
  repeat' first
    | with_reducible exact hk
    | exact hfl (by decide)
    | exact List.Subset.trans (by decide) hfl
    | with_reducible apply clr_k
    | with_reducible apply incSat_k
    | with_reducible apply dlyEmpty_k
    | with_reducible refine each_k ?_ (fun s a hk => ?_)
    | dsimp only

theorem laneJoin_k {s : State} {L : Nat} {m : Nat} (hfl : ([.PATH_POS_POS, .X_LANE_IDLE, .X_LANE_LAG] : List Fld) ⊆ fl) (hk : KeepsR s₀ s.regs fl) : KeepsR s₀ (laneJoin s L m).regs fl := by
  unfold laneJoin
  try dsimp only
  repeat' first
    | with_reducible exact hk
    | exact hfl (by decide)
    | with_reducible apply wr_k
    | with_reducible apply clr_k
    | dsimp only

theorem calRewind_k {s : State} {x : Nat} (hfl : ([.X_CAL_AGREE, .X_CAL_LATER, .X_CAL_PASS, .X_CAL_STEP] : List Fld) ⊆ fl) (hk : KeepsR s₀ s.regs fl) : KeepsR s₀ (calRewind s x).regs fl := by
  unfold calRewind
  try dsimp only
  repeat' first
    | with_reducible exact hk
    | exact hfl (by decide)
    | with_reducible apply wr_k
    | with_reducible apply clr_k
    | dsimp only

theorem calSet_k {s : State} {x : Nat} {st : Nat} (hfl : ([.CAL_LSTAT_CONSEC, .CAL_LSTAT_STATE, .X_CAL_ST] : List Fld) ⊆ fl) (hk : KeepsR s₀ s.regs fl) : KeepsR s₀ (calSet s x st).regs fl := by
  unfold calSet
  try dsimp only
  repeat' first
    | with_reducible exact hk
    | exact hfl (by decide)
    | exact List.Subset.trans (by decide) hfl
    | with_reducible apply wr_k
    | with_reducible apply calShow_k
    | dsimp only

theorem calPause_k {s : State} {x : Nat} (hfl : ([.CAL_LSTAT_CONSEC, .CAL_LSTAT_STATE, .X_CAL_AGREE, .X_CAL_LATER, .X_CAL_PASS, .X_CAL_ST, .X_CAL_STEP] : List Fld) ⊆ fl) (hk : KeepsR s₀ s.regs fl) : KeepsR s₀ (calPause s x).regs fl := by
  unfold calPause
  try dsimp only
  repeat' first
    | with_reducible exact hk
    | exact List.Subset.trans (by decide) hfl
    | with_reducible apply calRewind_k
    | with_reducible apply calSet_k
    | with_reducible apply ite_k
    | split
    | dsimp only

theorem rxRated_k {s : State} {r : Nat} (hfl : ([.CAL_LSTAT_CONSEC, .CAL_LSTAT_STATE, .XCVR_STAT_ADAPTED, .XCVR_STAT_LOCK, .X_CAL_AGREE, .X_CAL_LATER, .X_CAL_PASS, .X_CAL_ST, .X_CAL_STEP] : List Fld) ⊆ fl) (hk : KeepsR s₀ s.regs fl) : KeepsR s₀ (rxRated s r).regs fl := by
  unfold rxRated
  try dsimp only
  repeat' first
    | with_reducible exact hk
    | exact hfl (by decide)
    | exact List.Subset.trans (by decide) hfl
    | with_reducible apply clr_k
    | with_reducible apply calPause_k
    | dsimp only

theorem rateChanged_k {s : State} {L : Nat} (hfl : ([.CAL_LSTAT_CONSEC, .CAL_LSTAT_STATE, .XCVR_STAT_ADAPTED, .XCVR_STAT_LOCK, .X_CAL_AGREE, .X_CAL_LATER, .X_CAL_PASS, .X_CAL_ST, .X_CAL_STEP] : List Fld) ⊆ fl) (hk : KeepsR s₀ s.regs fl) : KeepsR s₀ (rateChanged s L).regs fl := by
  unfold rateChanged
  try dsimp only
  repeat' first
    | with_reducible exact hk
    | exact List.Subset.trans (by decide) hfl
    | with_reducible apply rxRated_k
    | with_reducible refine each_k ?_ (fun s a hk => ?_)
    | dsimp only

theorem enterDetect_k {s : State} {L : Nat} (hfl : ([.CAL_LSTAT_CONSEC, .CAL_LSTAT_STATE, .CAL_SLC_ROLE, .LNK_PSTAT_FLIT, .LNK_PSTAT_FMT, .LNK_PSTAT_PMIS, .LNK_PSTAT_RATE, .LNK_PSTAT_RTPOS, .LNK_PSTAT_STATE, .PATH_POS_POS, .QUAL_BER_STALE, .TX_FIRACT_ACT, .XCVR_STAT_ADAPTED, .XCVR_STAT_LOCK, .XCVR_STAT_RXTERM, .XCVR_STAT_SSCACT, .XCVR_STAT_TXCLK, .XCVR_STAT_TXIDLE, .X_CAL_AGREE, .X_CAL_LATER, .X_CAL_PASS, .X_CAL_ST, .X_CAL_STEP, .X_EQ_DONE, .X_EQ_PHASE, .X_L0S, .X_L12, .X_LANE_IDLE, .X_LANE_LAG, .X_PCI_EFF, .X_PRECODE, .X_QW_CUT, .X_RATE_NEXT, .X_SSC_EFF, .X_TS_CUT] : List Fld) ⊆ fl) (hk : KeepsR s₀ s.regs fl) : KeepsR s₀ (enterDetect s L).regs fl := by
  unfold enterDetect
  try dsimp only
  repeat' first
    | with_reducible exact hk
    | exact hfl (by decide)
    | exact List.Subset.trans (by decide) hfl
    | with_reducible apply wr_k
    | with_reducible apply clr_k
    | with_reducible apply laneJoin_k
    | with_reducible apply rateChanged_k
    | with_reducible apply refreshPort_k
    | with_reducible refine each_k ?_ (fun s a hk => ?_)
    | with_reducible apply ite_k
    | split
    | dsimp only

theorem freshNat_k {s : State} (hk : KeepsR s₀ s.regs fl) : KeepsR s₀ (State.freshNat s).2.regs fl := by
  unfold State.freshNat
  try dsimp only
  repeat' first
    | with_reducible exact hk
    | dsimp only

theorem linkBytes_k {s : State} {p : Nat} (hk : KeepsR s₀ s.regs fl) : KeepsR s₀ (linkBytes s p).2.regs fl := by
  unfold linkBytes
  try dsimp only
  repeat' first
    | with_reducible exact hk
    | with_reducible apply freshNat_k
    | with_reducible apply ite_k
    | with_reducible apply ite_k2
    | split
    | dsimp only

theorem linkEvent_k {s : State} {n : Nat} (hfl : ([.PUN_DISC_COUNT] : List Fld) ⊆ fl) (hk : KeepsR s₀ s.regs fl) : KeepsR s₀ (linkEvent s n).regs fl := by
  unfold linkEvent
  try dsimp only
  repeat' first
    | with_reducible exact hk
    | exact List.Subset.trans (by decide) hfl
    | with_reducible apply eventRec_k
    | with_reducible apply linkBytes_k
    | with_reducible refine each_k ?_ (fun s a hk => ?_)
    | dsimp only

theorem detectBegin_k {s : State} {x : Nat} (hfl : ([.X_DET_RUN] : List Fld) ⊆ fl) (hk : KeepsR s₀ s.regs fl) : KeepsR s₀ (detectBegin s x).regs fl := by
  unfold detectBegin
  try dsimp only
  repeat' first
    | with_reducible exact hk
    | exact hfl (by decide)
    | with_reducible apply set_k
    | with_reducible apply ite_k
    | split
    | dsimp only

theorem ltDetect_k {s : State} {L : Nat} {side : Nat} (hfl : ([.X_DET_RUN] : List Fld) ⊆ fl) (hk : KeepsR s₀ s.regs fl) : KeepsR s₀ (ltDetect s L side).regs fl := by
  unfold ltDetect
  try dsimp only
  repeat' first
    | with_reducible exact hk
    | exact List.Subset.trans (by decide) hfl
    | with_reducible apply detectBegin_k
    | with_reducible refine each_k ?_ (fun s a hk => ?_)
    | with_reducible apply ite_k
    | split
    | dsimp only

theorem ltRated_k {s : State} {t : Nat} (hfl : ([.CAL_LSTAT_CONSEC, .CAL_LSTAT_STATE, .XCVR_STAT_ADAPTED, .XCVR_STAT_LOCK, .X_CAL_AGREE, .X_CAL_LATER, .X_CAL_PASS, .X_CAL_ST, .X_CAL_STEP] : List Fld) ⊆ fl) (hk : KeepsR s₀ s.regs fl) : KeepsR s₀ (ltRated s t).regs fl := by
  unfold ltRated
  try dsimp only
  repeat' first
    | with_reducible exact hk
    | exact List.Subset.trans (by decide) hfl
    | with_reducible apply rxRated_k
    | with_reducible refine each_k ?_ (fun s a hk => ?_)
    | dsimp only

theorem ltDown_k {s : State} {t : Nat} (hfl : ([.CAL_LSTAT_CONSEC, .CAL_LSTAT_STATE, .LT_ETH_STAT_LF, .LT_ETH_STAT_RF, .LT_ETH_STAT_STATE, .LT_STAT_CXL, .LT_STAT_DLUP, .LT_STAT_FLIT, .LT_STAT_LTSSM, .LT_STAT_RATE, .XCVR_STAT_ADAPTED, .XCVR_STAT_LOCK, .X_CAL_AGREE, .X_CAL_LATER, .X_CAL_PASS, .X_CAL_ST, .X_CAL_STEP, .X_LT_DLF, .X_LT_FCI, .X_LT_NAKD, .X_LT_POL, .X_LT_REV, .X_LT_RSEQ, .X_LT_SEQ, .X_LT_TGT] : List Fld) ⊆ fl) (hk : KeepsR s₀ s.regs fl) : KeepsR s₀ (ltDown s t).regs fl := by
  unfold ltDown
  try dsimp only
  repeat' first
    | with_reducible exact hk
    | exact hfl (by decide)
    | exact List.Subset.trans (by decide) hfl
    | with_reducible apply clr_k
    | with_reducible apply ltRated_k
    | with_reducible apply ite_k
    | split
    | dsimp only

theorem emitTx_k {s : State} {p : Nat} {o : Out} (hk : KeepsR s₀ s.regs fl) : KeepsR s₀ (State.emitTx s p o).regs fl := by
  unfold State.emitTx
  try dsimp only
  repeat' first
    | with_reducible exact hk
    | with_reducible apply emit_k
    | dsimp only

theorem segEnter_k {s : State} {L : Nat} {side : Nat} {st : Nat} (hfl : ([.LNK_ESTAT_SEGA, .LNK_ESTAT_SEGB] : List Fld) ⊆ fl) (hk : KeepsR s₀ s.regs fl) : KeepsR s₀ (segEnter s L side st).regs fl := by
  unfold segEnter
  try dsimp only
  repeat' first
    | with_reducible exact hk
    | exact hfl (by decide)
    | exact hfl (by unfold segFld; split <;> decide)
    | with_reducible apply wr_k
    | with_reducible apply emitTx_k
    | with_reducible apply ite_k
    | split
    | dsimp only

theorem segsChanged_k {s : State} {n : Nat} {L : Nat} {wasR : Bool} (hfl : ([.LNK_ESTAT_SEGA, .LNK_ESTAT_SEGB, .PUN_DISC_COUNT] : List Fld) ⊆ fl) (hk : KeepsR s₀ s.regs fl) : KeepsR s₀ (segsChanged s n L wasR).regs fl := by
  unfold segsChanged
  try dsimp only
  repeat' first
    | with_reducible exact hk
    | exact hfl (by decide)
    | exact List.Subset.trans (by decide) hfl
    | with_reducible apply clr_k
    | with_reducible apply linkEvent_k
    | with_reducible apply segEnter_k
    | with_reducible apply ite_k
    | split
    | dsimp only

theorem pairingChanged_k {s : State} {n : Nat} {wasR : Bool} (hfl : ([.CAL_LSTAT_CONSEC, .CAL_LSTAT_STATE, .CAL_SLC_ROLE, .LNK_ESTAT_SEGA, .LNK_ESTAT_SEGB, .LNK_PSTAT_FLIT, .LNK_PSTAT_FMT, .LNK_PSTAT_PMIS, .LNK_PSTAT_RATE, .LNK_PSTAT_RTPOS, .LNK_PSTAT_STATE, .LT_ETH_STAT_LF, .LT_ETH_STAT_RF, .LT_ETH_STAT_STATE, .LT_STAT_CXL, .LT_STAT_DLUP, .LT_STAT_FLIT, .LT_STAT_LTSSM, .LT_STAT_RATE, .PATH_POS_POS, .PUN_DISC_COUNT, .QUAL_BER_STALE, .TX_FIRACT_ACT, .XCVR_STAT_ADAPTED, .XCVR_STAT_LOCK, .XCVR_STAT_RXTERM, .XCVR_STAT_SSCACT, .XCVR_STAT_TXCLK, .XCVR_STAT_TXIDLE, .X_CAL_AGREE, .X_CAL_LATER, .X_CAL_PASS, .X_CAL_ST, .X_CAL_STEP, .X_DET_RUN, .X_EQ_DONE, .X_EQ_PHASE, .X_L0S, .X_L12, .X_LANE_IDLE, .X_LANE_LAG, .X_LT_BUSY, .X_LT_DLF, .X_LT_FCI, .X_LT_NAKD, .X_LT_POL, .X_LT_REV, .X_LT_RSEQ, .X_LT_SEQ, .X_LT_TGT, .X_PCI_EFF, .X_PRECODE, .X_QW_CUT, .X_RATE_NEXT, .X_SSC_EFF, .X_TS_CUT] : List Fld) ⊆ fl) (hk : KeepsR s₀ s.regs fl) : KeepsR s₀ (pairingChanged s n wasR).regs fl := by
  unfold pairingChanged
  try dsimp only
  repeat' first
    | with_reducible exact hk
    | exact hfl (by decide)
    | exact List.Subset.trans (by decide) hfl
    | with_reducible apply clr_k
    | with_reducible apply segsChanged_k
    | with_reducible apply ltDown_k
    | with_reducible apply enterDetect_k
    | with_reducible apply linkEvent_k
    | with_reducible apply ltDetect_k
    | with_reducible refine each_k ?_ (fun s a hk => ?_)
    | with_reducible apply ite_k
    | split
    | dsimp only

theorem refreshLink_k {s : State} {n : Nat} (hfl : ([.CAL_SLC_ROLE, .QUAL_BER_STALE, .TX_FIRACT_ACT, .XCVR_STAT_RXTERM, .XCVR_STAT_SSCACT, .XCVR_STAT_TXCLK, .XCVR_STAT_TXIDLE, .X_QW_CUT, .X_SSC_EFF] : List Fld) ⊆ fl) (hk : KeepsR s₀ s.regs fl) : KeepsR s₀ (refreshLink s n).regs fl := by
  unfold refreshLink
  try dsimp only
  repeat' first
    | with_reducible exact hk
    | exact List.Subset.trans (by decide) hfl
    | with_reducible apply refreshPort_k
    | with_reducible refine each_k ?_ (fun s a hk => ?_)
    | dsimp only

theorem calDrop_k {s : State} {x : Nat} (hfl : ([.CAL_LSTAT_CONSEC, .CAL_LSTAT_STATE, .X_CAL_AGREE, .X_CAL_LATER, .X_CAL_PASS, .X_CAL_RQ, .X_CAL_ST, .X_CAL_STEP] : List Fld) ⊆ fl) (hk : KeepsR s₀ s.regs fl) : KeepsR s₀ (calDrop s x).regs fl := by
  unfold calDrop
  try dsimp only
  repeat' first
    | with_reducible exact hk
    | exact hfl (by decide)
    | exact List.Subset.trans (by decide) hfl
    | with_reducible apply clr_k
    | with_reducible apply calRewind_k
    | with_reducible apply calSet_k
    | with_reducible apply ite_k
    | split
    | dsimp only

theorem pchkRestart_k {s : State} {p : Nat} (hfl : ([.PATH_PCHK_LOCK, .X_PCHK_RUN] : List Fld) ⊆ fl) (hk : KeepsR s₀ s.regs fl) : KeepsR s₀ (pchkRestart s p).regs fl := by
  unfold pchkRestart
  try dsimp only
  repeat' first
    | with_reducible exact hk
    | exact hfl (by decide)
    | with_reducible apply clr_k
    | dsimp only

theorem rxOff_k {s : State} {p : Nat} (hfl : ([.CAL_LSTAT_CONSEC, .CAL_LSTAT_STATE, .PATH_PCHK_LOCK, .XCVR_STAT_ADAPTED, .XCVR_STAT_LOCK, .X_CAL_AGREE, .X_CAL_LATER, .X_CAL_PASS, .X_CAL_RQ, .X_CAL_ST, .X_CAL_STEP, .X_PCHK_RUN] : List Fld) ⊆ fl) (hk : KeepsR s₀ s.regs fl) : KeepsR s₀ (rxOff s p).regs fl := by
  unfold rxOff
  try dsimp only
  repeat' first
    | with_reducible exact hk
    | exact hfl (by decide)
    | exact List.Subset.trans (by decide) hfl
    | with_reducible apply clr_k
    | with_reducible apply calDrop_k
    | with_reducible apply pchkRestart_k
    | with_reducible refine each_k ?_ (fun s a hk => ?_)
    | dsimp only

theorem forceDark_k {s : State} {p : Nat} (hfl : ([.CAL_LSTAT_CONSEC, .CAL_LSTAT_STATE, .CAL_SLC_ROLE, .FLT_DROP_COUNT, .FLT_STAT_STAT, .INJ_ENT_INFO_STATE, .INJ_LOG_ENTRY, .INJ_LOG_OUTCOME, .INJ_LOG_PATH, .INJ_LOG_POS, .INJ_LOG_SRC_SOURCE, .INJ_STAT_FREE, .INJ_STAT_LOST, .INJ_STAT_WIDX, .LNK_ESTAT_SEGA, .LNK_ESTAT_SEGB, .LNK_PSTAT_FLIT, .LNK_PSTAT_FMT, .LNK_PSTAT_PMIS, .LNK_PSTAT_RATE, .LNK_PSTAT_RTPOS, .LNK_PSTAT_STATE, .LT_ETH_STAT_LF, .LT_ETH_STAT_RF, .LT_ETH_STAT_STATE, .LT_STAT_CXL, .LT_STAT_DLUP, .LT_STAT_FLIT, .LT_STAT_LTSSM, .LT_STAT_RATE, .MATCH_STAT_ACTSKIP, .PATH_DISC_COUNT, .PATH_DLYSTAT_FILL, .PATH_MODE_AB, .PATH_MODE_BA, .PATH_MODE_PEND_AB, .PATH_MODE_PEND_BA, .PATH_PCHK_LOCK, .PATH_POS_POS, .PUN_DISC_COUNT, .QUAL_BER_STALE, .SEQ_ACNT_CANCEL, .STRM_CFG_PEND, .TX_FIRACT_ACT, .XCVR_STAT_ADAPTED, .XCVR_STAT_LOCK, .XCVR_STAT_RXTERM, .XCVR_STAT_SSCACT, .XCVR_STAT_TXCLK, .XCVR_STAT_TXIDLE, .X_CAL_AGREE, .X_CAL_LATER, .X_CAL_PASS, .X_CAL_RQ, .X_CAL_ST, .X_CAL_STEP, .X_DET_RUN, .X_DLYH_V, .X_DLYP_V, .X_DLY_CNT, .X_DLY_LO, .X_EQ_DONE, .X_EQ_PHASE, .X_FQ_RUN, .X_INJ_LOGN, .X_L0S, .X_L12, .X_LANE_IDLE, .X_LANE_LAG, .X_LT_BUSY, .X_LT_DLF, .X_LT_FCI, .X_LT_NAKD, .X_LT_POL, .X_LT_REV, .X_LT_RSEQ, .X_LT_SEQ, .X_LT_TGT, .X_PATH_STOPPED, .X_PCHK_RUN, .X_PCI_EFF, .X_PRECODE, .X_QW_CUT, .X_RATE_NEXT, .X_SKP_V, .X_SPLIT, .X_SSC_EFF, .X_TS_CUT] : List Fld) ⊆ fl) (hk : KeepsR s₀ s.regs fl) : KeepsR s₀ (forceDark s p).regs fl := by
  unfold forceDark
  try dsimp only
  repeat' first
    | with_reducible exact hk
    | exact hfl (by decide)
    | exact hfl (by unfold modeFld; split <;> decide)
    | exact hfl (by unfold pendFld; split <;> decide)
    | exact List.Subset.trans (by decide) hfl
    | with_reducible apply wr_k
    | with_reducible apply clr_k
    | with_reducible apply setStrikes_k
    | with_reducible apply cancelAll_k
    | with_reducible apply pairingChanged_k
    | with_reducible apply rxOff_k
    | with_reducible apply refreshLink_k
    | with_reducible apply setHeld_k
    | with_reducible apply setItems_k
    | with_reducible apply setChg_k
    | with_reducible apply setRpl_k
    | with_reducible apply dlyDrop_k
    | with_reducible apply cancelAction_k
    | with_reducible refine each_k ?_ (fun s a hk => ?_)
    | with_reducible apply ite_k
    | split
    | dsimp only

theorem f5Start_k {s : State} {g : Nat} (hfl : ([.F5_STAT_ACT, .SEQ_TSTAT_STATE] : List Fld) ⊆ fl) (hk : KeepsR s₀ s.regs fl) : KeepsR s₀ (f5Start s g).regs fl := by
  unfold f5Start
  try dsimp only
  repeat' first
    | with_reducible exact hk
    | exact hfl (by decide)
    | with_reducible apply wr_k
    | with_reducible apply wrBit_k
    | with_reducible refine each_k ?_ (fun s a hk => ?_)
    | dsimp only

theorem standbyLeave_k {s : State} (hfl : ([.CAL_LIN_LIN, .CAL_LSTAT_CONSEC, .CAL_LSTAT_NOSHADOW_A, .CAL_LSTAT_NOSHADOW_B, .CAL_LSTAT_STATE, .CAL_LSTAT_TLAST_A, .CAL_LSTAT_TLAST_B, .CAL_OFS_OFS, .CAL_SLC_GAIN, .CAL_SLC_PAIR, .CAL_SLC_ROLE, .CAL_STAT_COPY, .CAL_TX_Z, .DEV_STATE_CALRESTORE_PART, .F5_STAT_ACT, .FLT_DROP_COUNT, .FLT_STAT_STAT, .HK_STAT_AONMODE, .REP_SPARE_HARD, .REP_SPARE_ROWS, .REP_SPARE_TSV, .RND_STAT_BUSY, .SEQ_TSTAT_STATE, .X_CAL_DFLT, .X_FQ_RUN] : List Fld) ⊆ fl) (hk : KeepsR s₀ s.regs fl) : KeepsR s₀ (standbyLeave s).regs fl := by
  unfold standbyLeave
  try dsimp only
  repeat' first
    | with_reducible exact hk
    | exact hfl (by decide)
    | exact List.Subset.trans (by decide) hfl
    | with_reducible apply set_k
    | with_reducible apply clr_k
    | with_reducible apply spareRecount_k
    | with_reducible apply calRestoreAll_k
    | with_reducible apply f5Start_k
    | with_reducible refine each_k ?_ (fun s a hk => ?_)
    | with_reducible apply ite_k
    | split
    | dsimp only

theorem towerUp_k {s : State} {t : Nat} (hfl : ([.CH_STAT_STATE, .REP_SPARE_HARD, .REP_SPARE_ROWS, .REP_SPARE_TSV, .TWR_STAT_STATE] : List Fld) ⊆ fl) (hk : KeepsR s₀ s.regs fl) : KeepsR s₀ (towerUp s t).regs fl := by
  unfold towerUp
  try dsimp only
  repeat' first
    | with_reducible exact hk
    | exact hfl (by decide)
    | exact List.Subset.trans (by decide) hfl
    | with_reducible apply wr_k
    | with_reducible apply repApply_k
    | with_reducible refine each_k ?_ (fun s a hk => ?_)
    | with_reducible apply ite_k
    | split
    | dsimp only

theorem towersUpOf_k {s : State} {ts : List Nat} (hfl : ([.CH_STAT_STATE, .FLT_DROP_COUNT, .FLT_STAT_STAT, .REP_SPARE_HARD, .REP_SPARE_ROWS, .REP_SPARE_TSV, .TWR_STAT_STATE, .X_FQ_RUN] : List Fld) ⊆ fl) (hk : KeepsR s₀ s.regs fl) : KeepsR s₀ (towersUpOf s ts).regs fl := by
  unfold towersUpOf
  try dsimp only
  repeat' first
    | with_reducible exact hk
    | exact List.Subset.trans (by decide) hfl
    | with_reducible apply repTidy_k
    | with_reducible apply repCheck_k
    | with_reducible apply towerUp_k
    | with_reducible refine each_k ?_ (fun s a hk => ?_)
    | with_reducible apply ite_k
    | split
    | dsimp only

theorem towersUp_k {s : State} (hfl : ([.CH_STAT_STATE, .FLT_DROP_COUNT, .FLT_STAT_STAT, .REP_SPARE_HARD, .REP_SPARE_ROWS, .REP_SPARE_TSV, .TWR_STAT_STATE, .X_FQ_RUN] : List Fld) ⊆ fl) (hk : KeepsR s₀ s.regs fl) : KeepsR s₀ (towersUp s).regs fl := by
  unfold towersUp
  try dsimp only
  repeat' first
    | with_reducible exact hk
    | exact List.Subset.trans (by decide) hfl
    | with_reducible apply towersUpOf_k
    | dsimp only

theorem enterHold_k {s : State} (hfl : ([.CAL_LIN_LIN, .CAL_LSTAT_CONSEC, .CAL_LSTAT_NOSHADOW_A, .CAL_LSTAT_NOSHADOW_B, .CAL_LSTAT_STATE, .CAL_LSTAT_TLAST_A, .CAL_LSTAT_TLAST_B, .CAL_OFS_OFS, .CAL_SLC_GAIN, .CAL_SLC_PAIR, .CAL_SLC_ROLE, .CAL_STAT_COPY, .CAL_TX_Z, .CH_STAT_STATE, .DEV_STATE_CALRESTORE_PART, .DEV_STATE_STATE, .F5_STAT_ACT, .FLT_DROP_COUNT, .FLT_STAT_STAT, .FW_MBX_STAT_BUSY, .FW_MBX_TOTAL_TOTAL, .HK_STAT_AONMODE, .INJ_ENT_INFO_STATE, .INJ_LOG_ENTRY, .INJ_LOG_OUTCOME, .INJ_LOG_PATH, .INJ_LOG_POS, .INJ_LOG_SRC_SOURCE, .INJ_STAT_FREE, .INJ_STAT_LOST, .INJ_STAT_WIDX, .LNK_ESTAT_SEGA, .LNK_ESTAT_SEGB, .LNK_PSTAT_FLIT, .LNK_PSTAT_FMT, .LNK_PSTAT_PMIS, .LNK_PSTAT_RATE, .LNK_PSTAT_RTPOS, .LNK_PSTAT_STATE, .LT_ETH_STAT_LF, .LT_ETH_STAT_RF, .LT_ETH_STAT_STATE, .LT_STAT_CXL, .LT_STAT_DLUP, .LT_STAT_FLIT, .LT_STAT_LTSSM, .LT_STAT_RATE, .MATCH_STAT_ACTSKIP, .PATH_DISC_COUNT, .PATH_DLYSTAT_FILL, .PATH_MODE_AB, .PATH_MODE_BA, .PATH_MODE_PEND_AB, .PATH_MODE_PEND_BA, .PATH_PCHK_LOCK, .PATH_POS_POS, .PUN_DISC_COUNT, .PWR_STAT_ON, .QUAL_BER_STALE, .REP_SPARE_HARD, .REP_SPARE_ROWS, .REP_SPARE_TSV, .RND_STAT_BUSY, .SEQ_ACNT_CANCEL, .SEQ_TSTAT_STATE, .STRM_CFG_ON, .STRM_CFG_PEND, .TWR_STAT_STATE, .TX_FIRACT_ACT, .XCVR_STAT_ADAPTED, .XCVR_STAT_LOCK, .XCVR_STAT_RXTERM, .XCVR_STAT_SSCACT, .XCVR_STAT_TXCLK, .XCVR_STAT_TXIDLE, .X_ALERT, .X_CAL_AGREE, .X_CAL_DFLT, .X_CAL_LATER, .X_CAL_PASS, .X_CAL_RQ, .X_CAL_ST, .X_CAL_STEP, .X_CORE, .X_DET_RUN, .X_DLYH_V, .X_DLYP_V, .X_DLY_CNT, .X_DLY_LO, .X_EQ_DONE, .X_EQ_PHASE, .X_FQ_RUN, .X_FW_CHK, .X_FW_WR, .X_INJ_LOGN, .X_L0S, .X_L12, .X_LANE_IDLE, .X_LANE_LAG, .X_LT_BUSY, .X_LT_DLF, .X_LT_FCI, .X_LT_NAKD, .X_LT_POL, .X_LT_REV, .X_LT_RSEQ, .X_LT_SEQ, .X_LT_TGT, .X_PATH_STOPPED, .X_PCHK_RUN, .X_PCI_EFF, .X_PRECODE, .X_QW_CUT, .X_RATE_NEXT, .X_SKP_V, .X_SPLIT, .X_SSC_EFF, .X_TS_CUT] : List Fld) ⊆ fl) (hk : KeepsR s₀ s.regs fl) : KeepsR s₀ (enterHold s).regs fl := by
  unfold enterHold
  try dsimp only
  repeat' first
    | with_reducible exact hk
    | exact hfl (by decide)
    | exact List.Subset.trans (by decide) hfl
    | with_reducible apply clr_k
    | with_reducible apply wrB_k
    | with_reducible apply domsOn_k
    | with_reducible apply setDev_k
    | with_reducible apply loadDrop_k
    | with_reducible apply towersUp_k
    | with_reducible apply forceDark_k
    | with_reducible apply standbyLeave_k
    | with_reducible apply setStrm_k
    | with_reducible refine each_k ?_ (fun s a hk => ?_)
    | with_reducible apply ite_k
    | split
    | dsimp only

theorem towerLost_k {s : State} {t : Nat} (hk : KeepsR s₀ s.regs fl) : KeepsR s₀ (towerLost s t).regs fl := by
  unfold towerLost
  try dsimp only
  repeat' first
    | with_reducible exact hk
    | with_reducible refine foldl_k ?_ (fun s a hk => ?_)
    | with_reducible refine foldl_k2 ?_ (fun s a hk => ?_)
    | dsimp only

theorem devCmd_k {s : State} {ok : Bool} {f : State → State} (hfl : ([.DEV_CMD_RESULT] : List Fld) ⊆ fl) (hf_f : ∀ y0, KeepsR s₀ y0.regs fl → KeepsR s₀ (f y0).regs fl) (hk : KeepsR s₀ s.regs fl) : KeepsR s₀ (devCmd s ok f).regs fl := by
  unfold devCmd
  try dsimp only
  repeat' first
    | with_reducible exact hk
    | exact hfl (by decide)
    | with_reducible apply wr_k
    | with_reducible apply hf_f
    | with_reducible apply ite_k
    | split
    | dsimp only

theorem stateGates_k {s : State} {was : Nat → Bool} {busy : Nat} (hfl : ([.CLK_GPEND_GATE_PEND] : List Fld) ⊆ fl) (hk : KeepsR s₀ s.regs fl) : KeepsR s₀ (stateGates s was busy).regs fl := by
  unfold stateGates
  try dsimp only
  repeat' first
    | with_reducible exact hk
    | exact hfl (by decide)
    | with_reducible apply wrBit_k
    | with_reducible refine each_k ?_ (fun s a hk => ?_)
    | dsimp only

theorem towersDown_k {s : State} (hfl : ([.CH_STAT_STATE, .TWR_STAT_STATE] : List Fld) ⊆ fl) (hk : KeepsR s₀ s.regs fl) : KeepsR s₀ (towersDown s).regs fl := by
  unfold towersDown
  try dsimp only
  repeat' first
    | with_reducible exact hk
    | exact hfl (by decide)
    | with_reducible apply wr_k
    | with_reducible refine each_k ?_ (fun s a hk => ?_)
    | with_reducible apply ite_k
    | split
    | dsimp only

theorem towersBack_k {s : State} {ts : List Nat} (hfl : ([.CH_STAT_STATE, .FLT_DROP_COUNT, .FLT_STAT_STAT, .REP_SPARE_HARD, .REP_SPARE_ROWS, .REP_SPARE_TSV, .TWR_STAT_STATE, .X_FQ_RUN] : List Fld) ⊆ fl) (hk : KeepsR s₀ s.regs fl) : KeepsR s₀ (towersBack s ts).regs fl := by
  unfold towersBack
  try dsimp only
  repeat' first
    | with_reducible exact hk
    | exact List.Subset.trans (by decide) hfl
    | with_reducible apply towersUpOf_k
    | with_reducible apply ite_k
    | split
    | dsimp only

theorem idleExit_k {s : State} {busy : Nat} (hfl : ([.CH_STAT_STATE, .CLK_GPEND_GATE_PEND, .DEV_CMD_RESULT, .DEV_STATE_STATE, .FLT_DROP_COUNT, .FLT_STAT_STAT, .PWR_STAT_ON, .REP_SPARE_HARD, .REP_SPARE_ROWS, .REP_SPARE_TSV, .TWR_STAT_STATE, .X_ALERT, .X_FQ_RUN] : List Fld) ⊆ fl) (hk : KeepsR s₀ s.regs fl) : KeepsR s₀ (idleExit s busy).regs fl := by
  unfold idleExit
  try dsimp only
  repeat' first
    | with_reducible exact hk
    | exact hfl (by decide)
    | exact List.Subset.trans (by decide) hfl
    | with_reducible apply wr_k
    | with_reducible apply domsOn_k
    | with_reducible apply towersBack_k
    | with_reducible apply setDev_k
    | with_reducible apply stateGates_k
    | dsimp only

theorem endCause_k {s : State} {src : Nat} (hk : KeepsR s₀ s.regs fl) : KeepsR s₀ (State.endCause s src).regs fl := by
  unfold State.endCause
  try dsimp only
  repeat' first
    | with_reducible exact hk
    | dsimp only

theorem winClear_k {s : State} {a : Nat} {b : Nat} (hk : KeepsR s₀ s.regs fl) : KeepsR s₀ (winClear s a b).regs fl := by
  unfold winClear
  try dsimp only
  repeat' first
    | with_reducible exact hk
    | dsimp only

theorem advCut_k {s : State} (hfl : ([.RND_STAT_ASC] : List Fld) ⊆ fl) (hk : KeepsR s₀ s.regs fl) : KeepsR s₀ (advCut s).regs fl := by
  unfold advCut
  try dsimp only
  repeat' first
    | with_reducible exact hk
    | exact hfl (by decide)
    | with_reducible apply wr_k
    | with_reducible apply freshNat_k
    | with_reducible apply ite_k
    | split
    | dsimp only

theorem preserveFlush_k {s : State} {t : Nat} (hfl : ([.PUN_TAIL_OFS] : List Fld) ⊆ fl) (hk : KeepsR s₀ s.regs fl) : KeepsR s₀ (preserveFlush s t).regs fl := by
  unfold preserveFlush
  try dsimp only
  repeat' first
    | with_reducible exact hk
    | exact List.Subset.trans (by decide) hfl
    | with_reducible apply encFlush_k
    | with_reducible refine each_k ?_ (fun s a hk => ?_)
    | with_reducible apply ite_k
    | split
    | dsimp only

theorem rideShow_k {s : State} {t : Nat} (hfl : ([.CH_STAT_STATE, .DEV_STATE_PRESERVED0, .DEV_STATE_PRESERVED1, .TWR_STAT_STATE] : List Fld) ⊆ fl) (hk : KeepsR s₀ s.regs fl) : KeepsR s₀ (rideShow s t).regs fl := by
  unfold rideShow
  try dsimp only
  repeat' first
    | with_reducible exact hk
    | exact hfl (by decide)
    | with_reducible apply wr_k
    | with_reducible apply set_k
    | with_reducible refine each_k ?_ (fun s a hk => ?_)
    | with_reducible apply ite_k
    | split
    | dsimp only

theorem fixWord_k {s : State} {A : Nat} (hk : KeepsR s₀ s.regs fl) : KeepsR s₀ (fixWord s A).regs fl := by
  unfold fixWord
  try dsimp only
  repeat' first
    | with_reducible exact hk
    | with_reducible apply touch_k
    | with_reducible apply setT_k
    | split
    | dsimp only

theorem chanResetBegin_k {s : State} {t : Nat} {c : Nat} (hfl : ([.CH_STAT_STATE, .TWR_STAT_STATE, .X_CHRST_WAIT] : List Fld) ⊆ fl) (hk : KeepsR s₀ s.regs fl) : KeepsR s₀ (chanResetBegin s t c).regs fl := by
  unfold chanResetBegin
  try dsimp only
  repeat' first
    | with_reducible exact hk
    | exact hfl (by decide)
    | with_reducible apply wr_k
    | with_reducible apply set_k
    | with_reducible apply clr_k
    | with_reducible apply ite_k
    | split
    | dsimp only

theorem chanResetsHeld_k {s : State} {t : Nat} (hfl : ([.CH_STAT_STATE, .TWR_STAT_STATE, .X_CHRST_WAIT] : List Fld) ⊆ fl) (hk : KeepsR s₀ s.regs fl) : KeepsR s₀ (chanResetsHeld s t).regs fl := by
  unfold chanResetsHeld
  try dsimp only
  repeat' first
    | with_reducible exact hk
    | exact List.Subset.trans (by decide) hfl
    | with_reducible apply chanResetBegin_k
    | with_reducible refine each_k ?_ (fun s a hk => ?_)
    | with_reducible apply ite_k
    | split
    | dsimp only

theorem repEnd_k {s : State} {t : Nat} (hfl : ([.CH_STAT_STATE, .REP_CMD_RESULT, .TWR_STAT_STATE, .X_CHRST_WAIT, .X_REP_CMD, .X_REP_OP] : List Fld) ⊆ fl) (hk : KeepsR s₀ s.regs fl) : KeepsR s₀ (repEnd s t).regs fl := by
  unfold repEnd
  try dsimp only
  repeat' first
    | with_reducible exact hk
    | exact hfl (by decide)
    | exact List.Subset.trans (by decide) hfl
    | with_reducible apply wr_k
    | with_reducible apply clr_k
    | with_reducible apply chanResetsHeld_k
    | with_reducible apply ite_k
    | split
    | dsimp only

theorem softRepairEnd_k {s : State} {t : Nat} (hfl : ([.CH_STAT_STATE, .ECC_CECNT_COUNT, .ECC_LOGSTAT_COUNT, .ECC_LOGSTAT_LOST, .ECC_LOGSTAT_OVF, .ECC_UECNT_COUNT, .ERR_LOG_ADDR, .ERR_LOG_DLY, .ERR_LOG_EPOCH, .ERR_LOG_KIND, .ERR_LOG_PUN, .ERR_LOG_SRC, .ERR_LOG_SYN, .ERR_LOG_VALID, .FLT_DROP_COUNT, .FLT_STAT_STAT, .REP_CMD_RESULT, .REP_SPARE_HARD, .REP_SPARE_ROWS, .REP_SPARE_TSV, .REP_STAT_NVMPEND, .TWR_STAT_STATE, .X_CE_RAISED, .X_CHRST_WAIT, .X_FQ_RUN, .X_LOG_ORD, .X_LOG_SEQ, .X_REP_CMD, .X_REP_OP] : List Fld) ⊆ fl) (hk : KeepsR s₀ s.regs fl) : KeepsR s₀ (softRepairEnd s t).regs fl := by
  unfold softRepairEnd
  try dsimp only
  repeat' first
    | with_reducible exact hk
    | exact List.Subset.trans (by decide) hfl
    | with_reducible apply repEnd_k
    | with_reducible apply spareRecount_k
    | with_reducible apply repQueueNvm_k
    | with_reducible apply readWord_k
    | with_reducible apply fixWord_k
    | with_reducible refine each_k ?_ (fun s a hk => ?_)
    | with_reducible apply ite_k
    | split
    | dsimp only

theorem twPrimary_k {s : State} (hfl : ([.TW_ADDR_PRIMARY] : List Fld) ⊆ fl) (hk : KeepsR s₀ s.regs fl) : KeepsR s₀ (twPrimary s).regs fl := by
  unfold twPrimary
  try dsimp only
  repeat' first
    | with_reducible exact hk
    | exact hfl (by decide)
    | with_reducible apply wr_k
    | dsimp only

theorem hotBegin_k {s : State} (hfl : ([.DEV_CMD_RESULT] : List Fld) ⊆ fl) (hk : KeepsR s₀ s.regs fl) : KeepsR s₀ (hotBegin s).regs fl := by
  unfold hotBegin
  try dsimp only
  repeat' first
    | with_reducible exact hk
    | exact hfl (by decide)
    | with_reducible apply wr_k
    | dsimp only

theorem switchBack_k {s : State} (hfl : ([.DEV_CMD_RESULT, .DEV_STATE_BANK, .DEV_STATE_LASTERR, .X_CORE] : List Fld) ⊆ fl) (hk : KeepsR s₀ s.regs fl) : KeepsR s₀ (switchBack s).regs fl := by
  unfold switchBack
  try dsimp only
  repeat' first
    | with_reducible exact hk
    | exact hfl (by decide)
    | with_reducible apply wr_k
    | with_reducible apply wrBit_k
    | with_reducible apply ite_k
    | split
    | dsimp only

theorem keepHigh_k {s : State} {a : Nat} {v : Nat} (hk : KeepsR s₀ s.regs fl) : KeepsR s₀ (keepHigh s a v).regs fl := by
  unfold keepHigh
  try dsimp only
  repeat' first
    | with_reducible exact hk
    | dsimp only

theorem unlatch_k {s : State} {a : Nat} {cur : Nat} (hk : KeepsR s₀ s.regs fl) : KeepsR s₀ (unlatch s a cur).2.regs fl := by
  unfold unlatch
  try dsimp only
  repeat' first
    | with_reducible exact hk
    | dsimp only

theorem readMem_k {s : State} {g : Nat} {data : Bool} {w : Nat} {hi : Bool} {a : Nat} (hk : KeepsR s₀ s.regs fl) : KeepsR s₀ (readMem s g data w hi a).2.regs fl := by
  unfold readMem
  try dsimp only
  repeat' first
    | with_reducible exact hk
    | with_reducible apply keepHigh_k
    | with_reducible apply unlatch_k
    | with_reducible apply ite_k
    | with_reducible apply ite_k2
    | split
    | dsimp only

theorem clkDivSet_k {s : State} {v : Nat} (hfl : ([.CLK_DIV_HDIV, .CLK_DIV_PDIV] : List Fld) ⊆ fl) (hk : KeepsR s₀ s.regs fl) : KeepsR s₀ (clkDivSet s v).regs fl := by
  unfold clkDivSet
  try dsimp only
  repeat' first
    | with_reducible exact hk
    | exact hfl (by decide)
    | with_reducible apply wr_k
    | with_reducible apply ite_k
    | split
    | dsimp only

theorem fwLenSet_k {s : State} {v : Nat} (hfl : ([.FW_MBX_LEN_LEN] : List Fld) ⊆ fl) (hk : KeepsR s₀ s.regs fl) : KeepsR s₀ (fwLenSet s v).regs fl := by
  unfold fwLenSet
  try dsimp only
  repeat' first
    | with_reducible exact hk
    | exact hfl (by decide)
    | with_reducible apply wr_k
    | with_reducible apply ite_k
    | split
    | dsimp only

theorem gsbSet_k {s : State} {k : Nat} {v : Nat} (hfl : ([.GSB_CFG_FUNC, .GSB_CFG_LINK, .GSB_CFG_TL] : List Fld) ⊆ fl) (hk : KeepsR s₀ s.regs fl) : KeepsR s₀ (gsbSet s k v).regs fl := by
  unfold gsbSet
  try dsimp only
  repeat' first
    | with_reducible exact hk
    | exact hfl (by decide)
    | with_reducible apply wr_k
    | with_reducible apply ite_k
    | split
    | dsimp only

theorem filtSet_k {s : State} {k : Nat} {v : Nat} (hfl : ([.FLT_CFG_CLASS, .FLT_CFG_KEEP, .FLT_CFG_MINV, .FLT_CFG_TRUNC] : List Fld) ⊆ fl) (hk : KeepsR s₀ s.regs fl) : KeepsR s₀ (filtSet s k v).regs fl := by
  unfold filtSet
  try dsimp only
  repeat' first
    | with_reducible exact hk
    | exact hfl (by decide)
    | with_reducible apply wr_k
    | dsimp only

theorem freshBytes_k {s : State} {n : Nat} (hk : KeepsR s₀ s.regs fl) : KeepsR s₀ (State.freshBytes s n).2.regs fl := by
  unfold State.freshBytes
  try dsimp only
  repeat' first
    | with_reducible exact hk
    | dsimp only

theorem nonceNew_k {s : State} (hk : KeepsR s₀ s.regs fl) : KeepsR s₀ (nonceNew s).regs fl := by
  unfold nonceNew
  try dsimp only
  repeat' first
    | with_reducible exact hk
    | with_reducible apply freshBytes_k
    | with_reducible apply setWins_k
    | dsimp only

theorem rndAdvsvn_k {s : State} {v : Nat} (hfl : ([.DEV_STATE_HR_PEND, .RND_STAT_ASC] : List Fld) ⊆ fl) (hk : KeepsR s₀ s.regs fl) : KeepsR s₀ (rndAdvsvn s v).2.regs fl := by
  unfold rndAdvsvn
  try dsimp only
  repeat' first
    | with_reducible exact hk
    | exact hfl (by decide)
    | with_reducible apply wr_k
    | with_reducible apply clr_k
    | with_reducible apply ite_k
    | with_reducible apply ite_k2
    | split
    | dsimp only

theorem ikeyShow_k {s : State} {b : Nat} (hfl : ([.IDE_STAT_KEY, .RND_IKEY_LOADED] : List Fld) ⊆ fl) (hk : KeepsR s₀ s.regs fl) : KeepsR s₀ (ikeyShow s b).regs fl := by
  unfold ikeyShow
  try dsimp only
  repeat' first
    | with_reducible exact hk
    | exact hfl (by decide)
    | with_reducible apply wrB_k
    | with_reducible apply wrBit_k
    | with_reducible refine foldl_k ?_ (fun s a hk => ?_)
    | with_reducible refine foldl_k2 ?_ (fun s a hk => ?_)
    | dsimp only

theorem ikeyLose_k {s : State} {b : Nat} {set_ : Nat} (hfl : ([.IDE_STAT_KEY, .IDE_STAT_SYNC, .RND_IKEY_LOADED] : List Fld) ⊆ fl) (hk : KeepsR s₀ s.regs fl) : KeepsR s₀ (ikeyLose s b set_).regs fl := by
  unfold ikeyLose
  try dsimp only
  repeat' first
    | with_reducible exact hk
    | exact hfl (by decide)
    | exact List.Subset.trans (by decide) hfl
    | with_reducible apply clr_k
    | with_reducible apply ikeyShow_k
    | with_reducible apply ite_k
    | split
    | dsimp only

theorem pkeyShow_k {s : State} {k : Nat} (hfl : ([.RND_PKEY_LOADED] : List Fld) ⊆ fl) (hk : KeepsR s₀ s.regs fl) : KeepsR s₀ (pkeyShow s k).regs fl := by
  unfold pkeyShow
  try dsimp only
  repeat' first
    | with_reducible exact hk
    | exact hfl (by decide)
    | with_reducible apply wrBit_k
    | dsimp only

theorem pkeyLose_k {s : State} {k : Nat} (hfl : ([.CAL_SLC_ROLE, .FLT_DROP_COUNT, .FLT_STAT_STAT, .PUN_DISC_COUNT, .PUN_STAT_STATE, .QUAL_BER_STALE, .RND_PKEY_LOADED, .RPL_STAT_DONE, .TX_FIRACT_ACT, .XCVR_STAT_RXTERM, .XCVR_STAT_SSCACT, .XCVR_STAT_TXCLK, .XCVR_STAT_TXIDLE, .X_FQ_RUN, .X_QW_CUT, .X_SSC_EFF] : List Fld) ⊆ fl) (hk : KeepsR s₀ s.regs fl) : KeepsR s₀ (pkeyLose s k).regs fl := by
  unfold pkeyLose
  try dsimp only
  repeat' first
    | with_reducible exact hk
    | exact hfl (by decide)
    | exact List.Subset.trans (by decide) hfl
    | with_reducible apply wr_k
    | with_reducible apply set_k
    | with_reducible apply emit_k
    | with_reducible apply setEnc_k
    | with_reducible apply pkeyShow_k
    | with_reducible apply refreshPath_k
    | with_reducible apply msix_k
    | with_reducible apply setRpl_k
    | with_reducible apply pathEventNext_k
    | with_reducible refine each_k ?_ (fun s a hk => ?_)
    | with_reducible apply ite_k
    | split
    | dsimp only

theorem rndClearkey_k {s : State} {i : Nat} {arg1 : Nat} (hfl : ([.CAL_SLC_ROLE, .FLT_DROP_COUNT, .FLT_STAT_STAT, .IDE_STAT_KEY, .IDE_STAT_SYNC, .PUN_DISC_COUNT, .PUN_STAT_STATE, .QUAL_BER_STALE, .RND_IKEY_LOADED, .RND_PKEY_LOADED, .RPL_STAT_DONE, .TX_FIRACT_ACT, .XCVR_STAT_RXTERM, .XCVR_STAT_SSCACT, .XCVR_STAT_TXCLK, .XCVR_STAT_TXIDLE, .X_FQ_RUN, .X_QW_CUT, .X_SSC_EFF] : List Fld) ⊆ fl) (hk : KeepsR s₀ s.regs fl) : KeepsR s₀ (rndClearkey s i arg1).2.regs fl := by
  unfold rndClearkey
  try dsimp only
  repeat' first
    | with_reducible exact hk
    | exact List.Subset.trans (by decide) hfl
    | with_reducible apply raise_k
    | with_reducible apply pkeyLose_k
    | with_reducible apply ikeyLose_k
    | with_reducible apply ite_k
    | with_reducible apply ite_k2
    | split
    | dsimp only

theorem sessClose_k {s : State} (hfl : ([.RND_STAT_SESS] : List Fld) ⊆ fl) (hk : KeepsR s₀ s.regs fl) : KeepsR s₀ (sessClose s).regs fl := by
  unfold sessClose
  try dsimp only
  repeat' first
    | with_reducible exact hk
    | exact hfl (by decide)
    | with_reducible apply clr_k
    | dsimp only

theorem zeroise_k {s : State} (hfl : ([.CAL_SLC_ROLE, .FLT_DROP_COUNT, .FLT_STAT_STAT, .IDE_STAT_KEY, .IDE_STAT_SYNC, .PUN_DISC_COUNT, .PUN_STAT_STATE, .QUAL_BER_STALE, .RND_IKEY_LOADED, .RND_PKEY_LOADED, .RND_STAT_SESS, .RND_ZCNT_COUNT, .RPL_STAT_DONE, .TX_FIRACT_ACT, .XCVR_STAT_RXTERM, .XCVR_STAT_SSCACT, .XCVR_STAT_TXCLK, .XCVR_STAT_TXIDLE, .X_FQ_RUN, .X_QW_CUT, .X_SSC_EFF] : List Fld) ⊆ fl) (hk : KeepsR s₀ s.regs fl) : KeepsR s₀ (zeroise s).regs fl := by
  unfold zeroise
  try dsimp only
  repeat' first
    | with_reducible exact hk
    | exact hfl (by decide)
    | exact List.Subset.trans (by decide) hfl
    | with_reducible apply incSat_k
    | with_reducible apply raise_k
    | with_reducible apply pkeyLose_k
    | with_reducible apply sessClose_k
    | with_reducible apply ikeyLose_k
    | with_reducible refine each_k ?_ (fun s a hk => ?_)
    | with_reducible apply ite_k
    | split
    | dsimp only

theorem rndDecommission_k {s : State} {arg0 : Nat} (hfl : ([.CAL_SLC_ROLE, .FLT_DROP_COUNT, .FLT_STAT_STAT, .IDE_STAT_KEY, .IDE_STAT_SYNC, .PUN_DISC_COUNT, .PUN_STAT_STATE, .QUAL_BER_STALE, .RND_IKEY_LOADED, .RND_PKEY_LOADED, .RND_STAT_DECOM, .RND_STAT_SESS, .RND_ZCNT_COUNT, .RPL_STAT_DONE, .TX_FIRACT_ACT, .XCVR_STAT_RXTERM, .XCVR_STAT_SSCACT, .XCVR_STAT_TXCLK, .XCVR_STAT_TXIDLE, .X_FQ_RUN, .X_QW_CUT, .X_SSC_EFF] : List Fld) ⊆ fl) (hk : KeepsR s₀ s.regs fl) : KeepsR s₀ (rndDecommission s arg0).2.regs fl := by
  unfold rndDecommission
  try dsimp only
  repeat' first
    | with_reducible exact hk
    | exact hfl (by decide)
    | exact List.Subset.trans (by decide) hfl
    | with_reducible apply set_k
    | with_reducible apply zeroise_k
    | with_reducible apply ite_k
    | with_reducible apply ite_k2
    | split
    | dsimp only

theorem rndEnroll_k {s : State} {slot : Nat} {input : List Byte} (hfl : ([.RND_STAT_OPSLOT] : List Fld) ⊆ fl) (hk : KeepsR s₀ s.regs fl) : KeepsR s₀ (rndEnroll s slot input).2.regs fl := by
  unfold rndEnroll
  try dsimp only
  repeat' first
    | with_reducible exact hk
    | exact hfl (by decide)
    | with_reducible apply wrBit_k
    | with_reducible apply ite_k
    | with_reducible apply ite_k2
    | split
    | dsimp only

theorem rndGenpk_k {s : State} {k : Nat} (hfl : ([.RND_PKEY_LOADED] : List Fld) ⊆ fl) (hk : KeepsR s₀ s.regs fl) : KeepsR s₀ (rndGenpk s k).2.regs fl := by
  unfold rndGenpk
  try dsimp only
  repeat' first
    | with_reducible exact hk
    | exact List.Subset.trans (by decide) hfl
    | with_reducible apply pkeyShow_k
    | with_reducible apply freshNat_k
    | with_reducible apply ite_k
    | with_reducible apply ite_k2
    | split
    | dsimp only

theorem rndOpen_k {s : State} {input : List Byte} {ok : Bool} (hfl : ([.RND_STAT_SESS, .X_RND_SLOT] : List Fld) ⊆ fl) (hk : KeepsR s₀ s.regs fl) : KeepsR s₀ (rndOpen s input ok).2.regs fl := by
  unfold rndOpen
  try dsimp only
  repeat' first
    | with_reducible exact hk
    | exact hfl (by decide)
    | with_reducible apply wr_k
    | with_reducible apply set_k
    | with_reducible apply freshBytes_k
    | with_reducible apply nonceNew_k
    | with_reducible apply setWins_k
    | with_reducible apply winClear_k
    | with_reducible apply ite_k
    | with_reducible apply ite_k2
    | split
    | dsimp only

theorem rndRevoke_k {s : State} {slot : Nat} (hfl : ([.RND_STAT_OPREV] : List Fld) ⊆ fl) (hk : KeepsR s₀ s.regs fl) : KeepsR s₀ (rndRevoke s slot).2.regs fl := by
  unfold rndRevoke
  try dsimp only
  repeat' first
    | with_reducible exact hk
    | exact hfl (by decide)
    | with_reducible apply wrBit_k
    | with_reducible apply ite_k
    | with_reducible apply ite_k2
    | split
    | dsimp only

theorem rndUnlock_k {s : State} {t : List Byte} {ok : Bool} (hfl : ([.CAL_SLC_ROLE, .DEV_STATE_NONAPPR, .FLT_DROP_COUNT, .FLT_STAT_STAT, .IDE_STAT_KEY, .IDE_STAT_SYNC, .PUN_DISC_COUNT, .PUN_STAT_STATE, .QUAL_BER_STALE, .RND_IKEY_LOADED, .RND_PKEY_LOADED, .RND_STAT_APPR, .RND_STAT_DBGLVL, .RND_STAT_SESS, .RND_ZCNT_COUNT, .RPL_STAT_DONE, .TX_FIRACT_ACT, .XCVR_STAT_RXTERM, .XCVR_STAT_SSCACT, .XCVR_STAT_TXCLK, .XCVR_STAT_TXIDLE, .X_FQ_RUN, .X_QW_CUT, .X_SSC_EFF] : List Fld) ⊆ fl) (hk : KeepsR s₀ s.regs fl) : KeepsR s₀ (rndUnlock s t ok).2.regs fl := by
  unfold rndUnlock
  try dsimp only
  repeat' first
    | with_reducible exact hk
    | exact hfl (by decide)
    | exact List.Subset.trans (by decide) hfl
    | with_reducible apply wr_k
    | with_reducible apply set_k
    | with_reducible apply apprShow_k
    | with_reducible apply nonceNew_k
    | with_reducible apply raise_k
    | with_reducible apply zeroise_k
    | with_reducible apply ite_k
    | with_reducible apply ite_k2
    | split
    | dsimp only

theorem calQueue_k {s : State} {x : Nat} (hfl : ([.CAL_LSTAT_CONSEC, .CAL_LSTAT_STATE, .X_CAL_AGREE, .X_CAL_LATER, .X_CAL_PASS, .X_CAL_RQ, .X_CAL_ST, .X_CAL_STEP] : List Fld) ⊆ fl) (hk : KeepsR s₀ s.regs fl) : KeepsR s₀ (calQueue s x).regs fl := by
  unfold calQueue
  try dsimp only
  repeat' first
    | with_reducible exact hk
    | exact hfl (by decide)
    | exact List.Subset.trans (by decide) hfl
    | with_reducible apply clr_k
    | with_reducible apply calSet_k
    | with_reducible apply calRewind_k
    | with_reducible apply ite_k
    | split
    | dsimp only

theorem wbRecords_k {s : State} {c : Nat} (hk : KeepsR s₀ s.regs fl) : KeepsR s₀ (wbRecords s c).regs fl := by
  unfold wbRecords
  try dsimp only
  repeat' first
    | with_reducible exact hk
    | with_reducible apply setNvms_k
    | with_reducible refine foldl_k ?_ (fun s a hk => ?_)
    | with_reducible refine foldl_k2 ?_ (fun s a hk => ?_)
    | with_reducible apply ite_k
    | split
    | dsimp only

theorem calWriteback_k {s : State} (hfl : ([.CAL_CMD_RESULT, .CAL_STAT_WBBUSY, .CAL_STAT_WORN] : List Fld) ⊆ fl) (hk : KeepsR s₀ s.regs fl) : KeepsR s₀ (calWriteback s).regs fl := by
  unfold calWriteback
  try dsimp only
  repeat' first
    | with_reducible exact hk
    | exact hfl (by decide)
    | exact hfl (by unfold wearFld; split <;> decide)
    | with_reducible apply wr_k
    | with_reducible apply set_k
    | with_reducible apply wbRecords_k
    | with_reducible apply ite_k
    | split
    | dsimp only

theorem calCmd_k {s : State} {v : Nat} (hfl : ([.CAL_CMD_RESULT, .CAL_LSTAT_CONSEC, .CAL_LSTAT_STATE, .CAL_STAT_WBBUSY, .CAL_STAT_WORN, .X_CAL_AGREE, .X_CAL_CONS, .X_CAL_FG, .X_CAL_LATER, .X_CAL_PASS, .X_CAL_RQ, .X_CAL_ST, .X_CAL_STEP] : List Fld) ⊆ fl) (hk : KeepsR s₀ s.regs fl) : KeepsR s₀ (calCmd s v).regs fl := by
  unfold calCmd
  try dsimp only
  repeat' first
    | with_reducible exact hk
    | exact hfl (by decide)
    | exact List.Subset.trans (by decide) hfl
    | with_reducible apply wr_k
    | with_reducible apply set_k
    | with_reducible apply clr_k
    | with_reducible apply calSet_k
    | with_reducible apply calShow_k
    | with_reducible apply calWriteback_k
    | with_reducible apply calQueue_k
    | with_reducible refine each_k ?_ (fun s a hk => ?_)
    | with_reducible apply ite_k
    | split
    | dsimp only

theorem calCtlSet_k {s : State} {v : Nat} (hfl : ([.CAL_CTL_BGEN, .CAL_CTL_DT, .CAL_CTL_TOL, .CAL_STAT_CFGERR] : List Fld) ⊆ fl) (hk : KeepsR s₀ s.regs fl) : KeepsR s₀ (calCtlSet s v).regs fl := by
  unfold calCtlSet
  try dsimp only
  repeat' first
    | with_reducible exact hk
    | exact hfl (by decide)
    | with_reducible apply wr_k
    | with_reducible apply set_k
    | with_reducible apply ite_k
    | split
    | dsimp only

theorem clkCmd_k {s : State} {v : Nat} (hfl : ([.CLK_CMD_RESULT, .X_CLKR] : List Fld) ⊆ fl) (hk : KeepsR s₀ s.regs fl) : KeepsR s₀ (clkCmd s v).regs fl := by
  unfold clkCmd
  try dsimp only
  repeat' first
    | with_reducible exact hk
    | exact hfl (by decide)
    | with_reducible apply wr_k
    | with_reducible apply ite_k
    | split
    | dsimp only

theorem gateBit_k {s : State} {d : Nat} {busy : Bool} (hfl : ([.CLK_GPEND_GATE_PEND, .CLK_RUN_EN, .CLK_STAT_GATEERR, .FLT_DROP_COUNT, .FLT_STAT_STAT, .X_FQ_RUN] : List Fld) ⊆ fl) (hk : KeepsR s₀ s.regs fl) : KeepsR s₀ (gateBit s d busy).regs fl := by
  unfold gateBit
  try dsimp only
  repeat' first
    | with_reducible exact hk
    | exact hfl (by decide)
    | exact List.Subset.trans (by decide) hfl
    | with_reducible apply set_k
    | with_reducible apply wrBit_k
    | with_reducible apply raise_k
    | with_reducible apply ite_k
    | split
    | dsimp only

theorem clkRunSet_k {s : State} {hi : Bool} {v : Nat} {busy : Nat} (hfl : ([.CLK_GPEND_GATE_PEND, .CLK_RUN_EN, .CLK_STAT_GATEERR, .FLT_DROP_COUNT, .FLT_STAT_STAT, .X_FQ_RUN] : List Fld) ⊆ fl) (hk : KeepsR s₀ s.regs fl) : KeepsR s₀ (clkRunSet s hi v busy).regs fl := by
  unfold clkRunSet
  try dsimp only
  repeat' first
    | with_reducible exact hk
    | exact hfl (by decide)
    | exact List.Subset.trans (by decide) hfl
    | with_reducible apply wrBit_k
    | with_reducible apply gateBit_k
    | with_reducible refine each_k ?_ (fun s a hk => ?_)
    | with_reducible apply ite_k
    | split
    | dsimp only

theorem switchBegin_k {s : State} {src : Nat} (hfl : ([.CLK_STAT_SWBUSY, .X_HSW] : List Fld) ⊆ fl) (hk : KeepsR s₀ s.regs fl) : KeepsR s₀ (switchBegin s src).regs fl := by
  unfold switchBegin
  try dsimp only
  repeat' first
    | with_reducible exact hk
    | exact hfl (by decide)
    | with_reducible apply wr_k
    | with_reducible apply set_k
    | dsimp only

theorem clkSelSet_k {s : State} {v : Nat} (hfl : ([.CLK_SEL_FSEL, .CLK_SEL_HSRC, .CLK_STAT_SWBUSY, .CLK_STAT_SWREF, .FLT_DROP_COUNT, .FLT_STAT_STAT, .X_FQ_RUN, .X_HSW] : List Fld) ⊆ fl) (hk : KeepsR s₀ s.regs fl) : KeepsR s₀ (clkSelSet s v).regs fl := by
  unfold clkSelSet
  try dsimp only
  repeat' first
    | with_reducible exact hk
    | exact hfl (by decide)
    | exact List.Subset.trans (by decide) hfl
    | with_reducible apply wr_k
    | with_reducible apply set_k
    | with_reducible apply wrB_k
    | with_reducible apply switchBegin_k
    | with_reducible apply raise_k
    | with_reducible apply ite_k
    | split
    | dsimp only

theorem cuShow_k {s : State} {u : Nat} (hfl : ([.CU_RES_RES] : List Fld) ⊆ fl) (hk : KeepsR s₀ s.regs fl) : KeepsR s₀ (cuShow s u).regs fl := by
  unfold cuShow
  try dsimp only
  repeat' first
    | with_reducible exact hk
    | exact hfl (by decide)
    | with_reducible apply wr_k
    | dsimp only

theorem cuInit_k {s : State} {u : Nat} (hfl : ([.CU_CNT_CNT, .CU_RES_RES, .CU_VAL_VAL, .X_CU_FLD, .X_CU_SEEN] : List Fld) ⊆ fl) (hk : KeepsR s₀ s.regs fl) : KeepsR s₀ (cuInit s u).regs fl := by
  unfold cuInit
  try dsimp only
  repeat' first
    | with_reducible exact hk
    | exact hfl (by decide)
    | exact List.Subset.trans (by decide) hfl
    | with_reducible apply wr_k
    | with_reducible apply clr_k
    | with_reducible apply cuShow_k
    | dsimp only

theorem cuCmd_k {s : State} {u : Nat} {v : Nat} (hfl : ([.CU_CNT_CNT, .CU_RES_RES, .CU_STAT_AVALID, .CU_VAL_VAL, .X_CU_FLD, .X_CU_SEEN] : List Fld) ⊆ fl) (hk : KeepsR s₀ s.regs fl) : KeepsR s₀ (cuCmd s u v).regs fl := by
  unfold cuCmd
  try dsimp only
  repeat' first
    | with_reducible exact hk
    | exact hfl (by decide)
    | exact List.Subset.trans (by decide) hfl
    | with_reducible apply clr_k
    | with_reducible apply cuInit_k
    | with_reducible apply ite_k
    | split
    | dsimp only

theorem cuField_k {s : State} {u : Nat} (hk : KeepsR s₀ s.regs fl) : KeepsR s₀ (cuField s u).2.regs fl := by
  unfold cuField
  try dsimp only
  repeat' first
    | with_reducible exact hk
    | with_reducible apply freshBytes_k
    | with_reducible apply ite_k
    | with_reducible apply ite_k2
    | split
    | dsimp only

theorem cuSend_k {s : State} {u : Nat} {inj : Bool} {collide : Bool} (hfl : ([.FLT_DROP_COUNT, .FLT_STAT_STAT, .X_FQ_RUN] : List Fld) ⊆ fl) (hk : KeepsR s₀ s.regs fl) : KeepsR s₀ (cuSend s u inj collide).regs fl := by
  unfold cuSend
  try dsimp only
  repeat' first
    | with_reducible exact hk
    | exact List.Subset.trans (by decide) hfl
    | with_reducible apply raise_k
    | dsimp only

theorem cuAlive_k {s : State} {u : Nat} (hfl : ([.CU_ALAST_LAST, .CU_STAT_AVALID, .CU_STAT_REPEAT, .CU_STAT_SKIP, .FLT_DROP_COUNT, .FLT_STAT_STAT, .X_FQ_RUN] : List Fld) ⊆ fl) (hk : KeepsR s₀ s.regs fl) : KeepsR s₀ (cuAlive s u).regs fl := by
  unfold cuAlive
  try dsimp only
  repeat' first
    | with_reducible exact hk
    | exact hfl (by decide)
    | exact List.Subset.trans (by decide) hfl
    | with_reducible apply wr_k
    | with_reducible apply set_k
    | with_reducible apply cuField_k
    | with_reducible apply cuSend_k
    | with_reducible apply ite_k
    | split
    | dsimp only

theorem takeInj_k {s : State} {k : Nat} (hfl : ([.FLT_INJ_BUSY, .X_INJ_LEFT] : List Fld) ⊆ fl) (hk : KeepsR s₀ s.regs fl) : KeepsR s₀ (takeInj s k).2.regs fl := by
  unfold takeInj
  try dsimp only
  repeat' first
    | with_reducible exact hk
    | exact hfl (by decide)
    | with_reducible apply wr_k
    | with_reducible apply clr_k
    | with_reducible apply ite_k
    | with_reducible apply ite_k2
    | split
    | dsimp only

theorem cuCompare_k {s : State} {u : Nat} (hfl : ([.CU_STAT_MATCH, .CU_STAT_MISM, .FLT_DROP_COUNT, .FLT_INJ_BUSY, .FLT_STAT_STAT, .X_FQ_RUN, .X_INJ_LEFT] : List Fld) ⊆ fl) (hk : KeepsR s₀ s.regs fl) : KeepsR s₀ (cuCompare s u).regs fl := by
  unfold cuCompare
  try dsimp only
  repeat' first
    | with_reducible exact hk
    | exact hfl (by decide)
    | exact List.Subset.trans (by decide) hfl
    | with_reducible apply set_k
    | with_reducible apply takeInj_k
    | with_reducible apply cuSend_k
    | with_reducible apply ite_k
    | split
    | dsimp only

theorem cuEnd_k {s : State} {u : Nat} (hfl : ([.CU_ALAST_LAST, .CU_CNT_CNT, .CU_LRES_RES, .CU_RES_RES, .CU_STAT_AVALID, .CU_STAT_MATCH, .CU_STAT_MISM, .CU_STAT_REPEAT, .CU_STAT_SKIP, .CU_VAL_VAL, .FLT_DROP_COUNT, .FLT_INJ_BUSY, .FLT_STAT_STAT, .X_CU_FLD, .X_CU_SEEN, .X_FQ_RUN, .X_INJ_LEFT] : List Fld) ⊆ fl) (hk : KeepsR s₀ s.regs fl) : KeepsR s₀ (cuEnd s u).regs fl := by
  unfold cuEnd
  try dsimp only
  repeat' first
    | with_reducible exact hk
    | exact hfl (by decide)
    | exact List.Subset.trans (by decide) hfl
    | with_reducible apply wr_k
    | with_reducible apply cuAlive_k
    | with_reducible apply cuCompare_k
    | with_reducible apply cuInit_k
    | dsimp only

theorem cuCtlSet_k {s : State} {u : Nat} {v : Nat} (hfl : ([.CU_ALAST_LAST, .CU_CNT_CNT, .CU_CTL_AMODE, .CU_CTL_AWID, .CU_CTL_CMPEN, .CU_CTL_LEN, .CU_CTL_POLY, .CU_EXP_EXP, .CU_LRES_RES, .CU_RES_RES, .CU_STAT_AVALID, .CU_STAT_MATCH, .CU_STAT_MISM, .CU_STAT_REPEAT, .CU_STAT_SKIP, .CU_VAL_VAL, .FLT_DROP_COUNT, .FLT_INJ_BUSY, .FLT_STAT_STAT, .X_CU_FLD, .X_CU_SEEN, .X_FQ_RUN, .X_INJ_LEFT] : List Fld) ⊆ fl) (hk : KeepsR s₀ s.regs fl) : KeepsR s₀ (cuCtlSet s u v).regs fl := by
  unfold cuCtlSet
  try dsimp only
  repeat' first
    | with_reducible exact hk
    | exact hfl (by decide)
    | exact List.Subset.trans (by decide) hfl
    | with_reducible apply wr_k
    | with_reducible apply cuEnd_k
    | with_reducible apply cuInit_k
    | with_reducible apply ite_k
    | split
    | dsimp only

theorem cuExpSet_k {s : State} {u : Nat} {half : Nat} {v : Nat} (hfl : ([.CU_EXP_EXP] : List Fld) ⊆ fl) (hk : KeepsR s₀ s.regs fl) : KeepsR s₀ (cuExpSet s u half v).regs fl := by
  unfold cuExpSet
  try dsimp only
  repeat' first
    | with_reducible exact hk
    | exact hfl (by decide)
    | with_reducible apply wr_k
    | with_reducible apply ite_k
    | split
    | dsimp only

theorem cuValSet_k {s : State} {u : Nat} {half : Nat} {v : Nat} (hfl : ([.CU_RES_RES, .CU_VAL_VAL] : List Fld) ⊆ fl) (hk : KeepsR s₀ s.regs fl) : KeepsR s₀ (cuValSet s u half v).regs fl := by
  unfold cuValSet
  try dsimp only
  repeat' first
    | with_reducible exact hk
    | exact hfl (by decide)
    | exact List.Subset.trans (by decide) hfl
    | with_reducible apply wr_k
    | with_reducible apply cuShow_k
    | with_reducible apply ite_k
    | split
    | dsimp only

theorem capOff_k {s : State} {p : Nat} {pos : Nat} {cause : Nat} (hfl : ([.PUN_DISC_COUNT, .STRM_CFG_ON] : List Fld) ⊆ fl) (hk : KeepsR s₀ s.regs fl) : KeepsR s₀ (capOff s p pos cause).regs fl := by
  unfold capOff
  try dsimp only
  repeat' first
    | with_reducible exact hk
    | exact hfl (by decide)
    | exact List.Subset.trans (by decide) hfl
    | with_reducible apply clr_k
    | with_reducible apply eventRec_k
    | with_reducible apply closeRun_k
    | with_reducible apply ite_k
    | split
    | dsimp only

theorem groveStores_k {s : State} {g : Nat} (hk : KeepsR s₀ s.regs fl) : KeepsR s₀ (groveStores s g).regs fl := by
  unfold groveStores
  try dsimp only
  repeat' first
    | with_reducible exact hk
    | dsimp only

theorem strmForget_k {s : State} {p : Nat} (hk : KeepsR s₀ s.regs fl) : KeepsR s₀ (strmForget s p).regs fl := by
  unfold strmForget
  try dsimp only
  repeat' first
    | with_reducible exact hk
    | with_reducible apply setStrm_k
    | dsimp only

theorem chgBegin_k {s : State} {p : Nat} {target : Nat} {w : ChgWhen} (hfl : ([.PATH_MODE_PEND_AB, .PATH_MODE_PEND_BA] : List Fld) ⊆ fl) (hk : KeepsR s₀ s.regs fl) : KeepsR s₀ (chgBegin s p target w).regs fl := by
  unfold chgBegin
  try dsimp only
  repeat' first
    | with_reducible exact hk
    | exact hfl (by decide)
    | exact hfl (by unfold pendFld; split <;> decide)
    | with_reducible apply set_k
    | with_reducible apply setChg_k
    | dsimp only

theorem chgHost_k {s : State} {n : Nat} {a : Nat} {b : Nat} {builtin : Bool} (hfl : ([.ECC_CECNT_COUNT, .ECC_LOGSTAT_COUNT, .ECC_LOGSTAT_LOST, .ECC_LOGSTAT_OVF, .ECC_UECNT_COUNT, .ERR_LOG_ADDR, .ERR_LOG_DLY, .ERR_LOG_EPOCH, .ERR_LOG_KIND, .ERR_LOG_PUN, .ERR_LOG_SRC, .ERR_LOG_SYN, .ERR_LOG_VALID, .FLT_DROP_COUNT, .FLT_STAT_STAT, .PATH_MODE_PEND_AB, .PATH_MODE_PEND_BA, .X_CE_RAISED, .X_FQ_RUN, .X_LOG_ORD, .X_LOG_SEQ, .X_SPLIT] : List Fld) ⊆ fl) (hk : KeepsR s₀ s.regs fl) : KeepsR s₀ (chgHost s n a b builtin).2.regs fl := by
  unfold chgHost
  try dsimp only
  repeat' first
    | with_reducible exact hk
    | exact hfl (by decide)
    | exact List.Subset.trans (by decide) hfl
    | with_reducible apply wr_k
    | with_reducible apply chgBegin_k
    | with_reducible apply ite_k
    | with_reducible apply ite_k2
    | split
    | dsimp only

theorem pathPatSet_k {s : State} {p : Nat} {v : Nat} (hfl : ([.CAL_SLC_ROLE, .PATH_PAT_CHKEN, .PATH_PAT_GRAY, .PATH_PAT_INV, .PATH_PAT_PAT, .PATH_PAT_UBASE, .PATH_PAT_ULEN, .PATH_PCHK_LOCK, .QUAL_BER_STALE, .TX_FIRACT_ACT, .XCVR_STAT_RXTERM, .XCVR_STAT_SSCACT, .XCVR_STAT_TXCLK, .XCVR_STAT_TXIDLE, .X_PCHK_RUN, .X_QW_CUT, .X_SSC_EFF] : List Fld) ⊆ fl) (hk : KeepsR s₀ s.regs fl) : KeepsR s₀ (pathPatSet s p v).regs fl := by
  unfold pathPatSet
  try dsimp only
  repeat' first
    | with_reducible exact hk
    | exact hfl (by decide)
    | exact List.Subset.trans (by decide) hfl
    | with_reducible apply wr_k
    | with_reducible apply refreshPort_k
    | with_reducible apply pchkRestart_k
    | with_reducible apply ite_k
    | split
    | dsimp only

theorem pathSrcSet_k {s : State} {p : Nat} {v : Nat} (hfl : ([.PATH_MODE_CODE, .PATH_SRC_SEL] : List Fld) ⊆ fl) (hk : KeepsR s₀ s.regs fl) : KeepsR s₀ (pathSrcSet s p v).regs fl := by
  unfold pathSrcSet
  try dsimp only
  repeat' first
    | with_reducible exact hk
    | exact hfl (by decide)
    | with_reducible apply wr_k
    | with_reducible apply ite_k
    | split
    | dsimp only

theorem f5Gen_k {s : State} {p : Nat} {pat : Nat} (hfl : ([.CAL_SLC_ROLE, .PATH_MODE_CODE, .PATH_PAT_CHKEN, .PATH_PAT_GRAY, .PATH_PAT_INV, .PATH_PAT_PAT, .PATH_PAT_UBASE, .PATH_PAT_ULEN, .PATH_PCHK_LOCK, .PATH_SRC_SEL, .QUAL_BER_STALE, .TX_FIRACT_ACT, .XCVR_STAT_RXTERM, .XCVR_STAT_SSCACT, .XCVR_STAT_TXCLK, .XCVR_STAT_TXIDLE, .X_PCHK_RUN, .X_QW_CUT, .X_SSC_EFF] : List Fld) ⊆ fl) (hk : KeepsR s₀ s.regs fl) : KeepsR s₀ (f5Gen s p pat).regs fl := by
  unfold f5Gen
  try dsimp only
  repeat' first
    | with_reducible exact hk
    | exact List.Subset.trans (by decide) hfl
    | with_reducible apply pathSrcSet_k
    | with_reducible apply pathPatSet_k
    | with_reducible refine each_k ?_ (fun s a hk => ?_)
    | dsimp only

theorem linkCfgSet_k {s : State} {L : Nat} {v : Nat} (hfl : ([.GRV_LINKERR_ERR, .LINK_CFG_EN, .LINK_CFG_FIRST, .LINK_CFG_PROTO, .LINK_CFG_WIDTH] : List Fld) ⊆ fl) (hk : KeepsR s₀ s.regs fl) : KeepsR s₀ (linkCfgSet s L v).regs fl := by
  unfold linkCfgSet
  try dsimp only
  repeat' first
    | with_reducible exact hk
    | exact hfl (by decide)
    | with_reducible apply wr_k
    | with_reducible apply set_k
    | with_reducible apply ite_k
    | split
    | dsimp only

theorem f5Link_k {s : State} {n : Nat} {w : F5Word} (hfl : ([.GRV_LINKERR_ERR, .LINK_CFG_EN, .LINK_CFG_FIRST, .LINK_CFG_PROTO, .LINK_CFG_WIDTH] : List Fld) ⊆ fl) (hk : KeepsR s₀ s.regs fl) : KeepsR s₀ (f5Link s n w).regs fl := by
  unfold f5Link
  try dsimp only
  repeat' first
    | with_reducible exact hk
    | exact hfl (by decide)
    | exact List.Subset.trans (by decide) hfl
    | with_reducible apply clr_k
    | with_reducible apply linkCfgSet_k
    | with_reducible refine each_k ?_ (fun s a hk => ?_)
    | dsimp only

theorem setCellHold_k {s : State} {q : Nat} {l : List (List Byte)} (hk : KeepsR s₀ s.regs fl) : KeepsR s₀ (setCellHold s q l).regs fl := by
  unfold setCellHold
  try dsimp only
  repeat' first
    | with_reducible exact hk
    | dsimp only

theorem lnkPciSet_k {s : State} {L : Nat} {v : Nat} (hfl : ([.LNK_PCI_CLKMODE, .LNK_PCI_EQBYP, .LNK_PCI_FLITEN, .LNK_PCI_MARGEN, .LNK_PCI_MAXRATE, .LNK_PCI_UPSIDE, .X_PCI_EFF] : List Fld) ⊆ fl) (hk : KeepsR s₀ s.regs fl) : KeepsR s₀ (lnkPciSet s L v).regs fl := by
  unfold lnkPciSet
  try dsimp only
  repeat' first
    | with_reducible exact hk
    | exact hfl (by decide)
    | with_reducible apply wr_k
    | with_reducible apply ite_k
    | split
    | dsimp only

theorem rawRateSet_k {s : State} {n : Nat} {v : Nat} (hfl : ([.GRV_LINKERR_ERR, .RAW_RATE_KBPS, .RAW_RATE_PAM4] : List Fld) ⊆ fl) (hk : KeepsR s₀ s.regs fl) : KeepsR s₀ (rawRateSet s n v).regs fl := by
  unfold rawRateSet
  try dsimp only
  repeat' first
    | with_reducible exact hk
    | exact hfl (by decide)
    | with_reducible apply wr_k
    | with_reducible apply set_k
    | with_reducible apply ite_k
    | split
    | dsimp only

theorem f5Store_k {s : State} {n : Nat} {w : F5Word} (hfl : ([.F5_MODE_AB, .F5_MODE_BA, .F5_MODE_ERRLOG, .F5_MODE_PAT, .F5_MODE_PROTO, .F5_MODE_RATE, .F5_MODE_SRIS, .F5_MODE_UPSIDE, .F5_MODE_WIDTH] : List Fld) ⊆ fl) (hk : KeepsR s₀ s.regs fl) : KeepsR s₀ (f5Store s n w).regs fl := by
  unfold f5Store
  try dsimp only
  repeat' first
    | with_reducible exact hk
    | exact hfl (by decide)
    | with_reducible apply wr_k
    | dsimp only

theorem fltCtlSet_k {s : State} {v : Nat} (hfl : ([.FLT_CTL_IRQEN, .FLT_GSTAT_FAULTN] : List Fld) ⊆ fl) (hk : KeepsR s₀ s.regs fl) : KeepsR s₀ (fltCtlSet s v).regs fl := by
  unfold fltCtlSet
  try dsimp only
  repeat' first
    | with_reducible exact hk
    | exact hfl (by decide)
    | with_reducible apply wr_k
    | with_reducible apply clr_k
    | with_reducible apply ite_k
    | split
    | dsimp only

theorem fltInjSet_k {s : State} {v : Nat} (hfl : ([.FLT_INJ_BITS, .FLT_INJ_BUSY, .FLT_INJ_CHECKER, .FLT_INJ_COUNT, .FLT_INJ_RESULT, .X_INJ_BITS, .X_INJ_CHECKER, .X_INJ_LEFT] : List Fld) ⊆ fl) (hk : KeepsR s₀ s.regs fl) : KeepsR s₀ (fltInjSet s v).regs fl := by
  unfold fltInjSet
  try dsimp only
  repeat' first
    | with_reducible exact hk
    | exact hfl (by decide)
    | with_reducible apply wr_k
    | with_reducible apply set_k
    | with_reducible apply ite_k
    | split
    | dsimp only

theorem fmCtlSet_k {s : State} {v : Nat} (hfl : ([.FM_CTL_BUSY, .FM_CTL_ERR, .FM_CTL_GATE, .FM_CTL_MODE, .FM_CTL_REF, .FM_CTL_TGT] : List Fld) ⊆ fl) (hk : KeepsR s₀ s.regs fl) : KeepsR s₀ (fmCtlSet s v).regs fl := by
  unfold fmCtlSet
  try dsimp only
  repeat' first
    | with_reducible exact hk
    | exact hfl (by decide)
    | with_reducible apply wr_k
    | with_reducible apply set_k
    | with_reducible apply w1c_k
    | with_reducible apply ite_k
    | split
    | dsimp only

theorem gstatSet_k {s : State} {v : Nat} (hfl : ([.FLT_GSTAT_IRQ] : List Fld) ⊆ fl) (hk : KeepsR s₀ s.regs fl) : KeepsR s₀ (gstatSet s v).regs fl := by
  unfold gstatSet
  try dsimp only
  repeat' first
    | with_reducible exact hk
    | exact hfl (by decide)
    | with_reducible apply wrB_k
    | with_reducible apply ite_k
    | split
    | dsimp only

theorem mbDoorbell_k {s : State} {m : Nat} {v : Nat} (hfl : ([.MB_STAT_ERR, .MB_STAT_PEND, .MB_STAT_RSP, .TW_MBSTAT_ERR, .TW_MBSTAT_PEND, .TW_MBSTAT_RSP, .X_ALERT, .X_MB_FIRST] : List Fld) ⊆ fl) (hk : KeepsR s₀ s.regs fl) : KeepsR s₀ (mbDoorbell s m v).regs fl := by
  unfold mbDoorbell
  try dsimp only
  repeat' first
    | with_reducible exact hk
    | exact hfl (by decide)
    | exact hfl (by unfold mbPend; split <;> decide)
    | exact hfl (by unfold mbErr; split <;> decide)
    | exact List.Subset.trans (by decide) hfl
    | with_reducible apply wr_k
    | with_reducible apply set_k
    | with_reducible apply serveUnknown_k
    | with_reducible apply ite_k
    | split
    | dsimp only

theorem epochEvents_k {s : State} {before : Nat} {after : Nat} (hfl : ([.PUN_DISC_COUNT] : List Fld) ⊆ fl) (hk : KeepsR s₀ s.regs fl) : KeepsR s₀ (epochEvents s before after).regs fl := by
  unfold epochEvents
  try dsimp only
  repeat' first
    | with_reducible exact hk
    | exact List.Subset.trans (by decide) hfl
    | with_reducible apply eventRec_k
    | with_reducible refine each_k ?_ (fun s a hk => ?_)
    | with_reducible apply ite_k
    | split
    | dsimp only

theorem epochLose_k {s : State} (hfl : ([.CLK_STAT_TRDY, .FLT_DROP_COUNT, .FLT_STAT_STAT, .PUN_DISC_COUNT, .TB_STAT_LOST, .TB_STAT_SLEW, .TB_STAT_VALID, .X_EPF_OK, .X_EXCH, .X_FQ_RUN, .X_SLEW_LEFT, .X_TREF_ACQ, .X_TREF_BAD, .X_TREF_DIS] : List Fld) ⊆ fl) (hk : KeepsR s₀ s.regs fl) : KeepsR s₀ (epochLose s).regs fl := by
  unfold epochLose
  try dsimp only
  repeat' first
    | with_reducible exact hk
    | exact hfl (by decide)
    | exact List.Subset.trans (by decide) hfl
    | with_reducible apply set_k
    | with_reducible apply clr_k
    | with_reducible apply raiseCause_k
    | with_reducible apply epochEvents_k
    | with_reducible apply ite_k
    | split
    | dsimp only

theorem vineIdle_k {s : State} (hfl : ([.CLK_STAT_TRDY, .FLT_DROP_COUNT, .FLT_STAT_STAT, .PUN_DISC_COUNT, .TB_STAT_LOST, .TB_STAT_SLEW, .TB_STAT_VALID, .VIN_PSTAT_STATE, .X_EPF_OK, .X_EXCH, .X_FQ_RUN, .X_SLEW_LEFT, .X_TREF_ACQ, .X_TREF_BAD, .X_TREF_DIS] : List Fld) ⊆ fl) (hk : KeepsR s₀ s.regs fl) : KeepsR s₀ (vineIdle s).regs fl := by
  unfold vineIdle
  try dsimp only
  repeat' first
    | with_reducible exact hk
    | exact hfl (by decide)
    | exact List.Subset.trans (by decide) hfl
    | with_reducible apply wr_k
    | with_reducible apply epochLose_k
    | with_reducible refine each_k ?_ (fun s a hk => ?_)
    | with_reducible apply ite_k
    | split
    | dsimp only

theorem domDown_k {s : State} {d : Nat} (hfl : ([.CLK_STAT_QRDY, .CLK_STAT_TRDY, .FLT_DROP_COUNT, .FLT_STAT_STAT, .PUN_DISC_COUNT, .PWR_STAT_ON, .TB_STAT_LOST, .TB_STAT_SLEW, .TB_STAT_VALID, .VIN_PSTAT_STATE, .X_EPF_OK, .X_EXCH, .X_FQ_RUN, .X_SLEW_LEFT, .X_TREF_ACQ, .X_TREF_BAD, .X_TREF_DIS] : List Fld) ⊆ fl) (hk : KeepsR s₀ s.regs fl) : KeepsR s₀ (domDown s d).regs fl := by
  unfold domDown
  try dsimp only
  repeat' first
    | with_reducible exact hk
    | exact hfl (by decide)
    | exact List.Subset.trans (by decide) hfl
    | with_reducible apply wrBit_k
    | with_reducible apply vineIdle_k
    | with_reducible apply ite_k
    | split
    | dsimp only

theorem sevSet_k {s : State} {src : Nat} {v : Nat} (hfl : ([.FLT_SEV_CLASS, .FLT_SEV_REACT] : List Fld) ⊆ fl) (hk : KeepsR s₀ s.regs fl) : KeepsR s₀ (sevSet s src v).regs fl := by
  unfold sevSet
  try dsimp only
  repeat' first
    | with_reducible exact hk
    | exact hfl (by decide)
    | with_reducible apply wr_k
    | with_reducible apply ite_k
    | split
    | dsimp only

theorem statClear_k {s : State} {i : Nat} {v : Nat} (hfl : ([.FLT_DROP_COUNT, .FLT_STAT_STAT, .X_FQ_RUN] : List Fld) ⊆ fl) (hk : KeepsR s₀ s.regs fl) : KeepsR s₀ (statClear s i v).regs fl := by
  unfold statClear
  try dsimp only
  repeat' first
    | with_reducible exact hk
    | exact hfl (by decide)
    | exact List.Subset.trans (by decide) hfl
    | with_reducible apply w1c_k
    | with_reducible apply raise_k
    | with_reducible refine each_k ?_ (fun s a hk => ?_)
    | with_reducible apply ite_k
    | split
    | dsimp only

theorem thmCfgSet_k {s : State} {v : Nat} (hfl : ([.THM_CFG_DIEWARN, .THM_CFG_DRAMWARN, .THM_STAT_CFGERR] : List Fld) ⊆ fl) (hk : KeepsR s₀ s.regs fl) : KeepsR s₀ (thmCfgSet s v).regs fl := by
  unfold thmCfgSet
  try dsimp only
  repeat' first
    | with_reducible exact hk
    | exact hfl (by decide)
    | with_reducible apply wr_k
    | with_reducible apply set_k
    | with_reducible apply ite_k
    | split
    | dsimp only

theorem vinCtlSet_k {s : State} {v : Nat} (hfl : ([.CLK_STAT_TRDY, .FLT_DROP_COUNT, .FLT_STAT_STAT, .PUN_DISC_COUNT, .TB_STAT_LOST, .TB_STAT_SLEW, .TB_STAT_VALID, .VIN_CTL_P0EN, .VIN_CTL_PEN, .VIN_CTL_ROOT, .VIN_NODE_HOPS, .VIN_PSTAT_STATE, .X_EPF_OK, .X_EXCH, .X_FQ_RUN, .X_SLEW_LEFT, .X_TREF_ACQ, .X_TREF_BAD, .X_TREF_DIS] : List Fld) ⊆ fl) (hk : KeepsR s₀ s.regs fl) : KeepsR s₀ (vinCtlSet s v).regs fl := by
  unfold vinCtlSet
  try dsimp only
  repeat' first
    | with_reducible exact hk
    | exact hfl (by decide)
    | exact List.Subset.trans (by decide) hfl
    | with_reducible apply wr_k
    | with_reducible apply clr_k
    | with_reducible apply epochLose_k
    | with_reducible refine each_k ?_ (fun s a hk => ?_)
    | with_reducible apply ite_k
    | split
    | dsimp only

theorem vinNodeSet_k {s : State} {v : Nat} (hfl : ([.CLK_STAT_TRDY, .FLT_DROP_COUNT, .FLT_STAT_STAT, .PUN_DISC_COUNT, .TB_STAT_LOST, .TB_STAT_SLEW, .TB_STAT_VALID, .VIN_NODE_ID, .X_EPF_OK, .X_EXCH, .X_FQ_RUN, .X_SLEW_LEFT, .X_TREF_ACQ, .X_TREF_BAD, .X_TREF_DIS] : List Fld) ⊆ fl) (hk : KeepsR s₀ s.regs fl) : KeepsR s₀ (vinNodeSet s v).regs fl := by
  unfold vinNodeSet
  try dsimp only
  repeat' first
    | with_reducible exact hk
    | exact hfl (by decide)
    | exact List.Subset.trans (by decide) hfl
    | with_reducible apply wr_k
    | with_reducible apply epochLose_k
    | with_reducible apply ite_k
    | split
    | dsimp only

theorem vineSend_k {s : State} {i : Nat} {kind : Nat} {ws : List Nat} (hk : KeepsR s₀ s.regs fl) : KeepsR s₀ (vineSend s i kind ws).regs fl := by
  unfold vineSend
  try dsimp only
  repeat' first
    | with_reducible exact hk
    | with_reducible apply emit_k
    | dsimp only

theorem setWait_k {s : State} {t : Nat} {v : Option Wait} (hk : KeepsR s₀ s.regs fl) : KeepsR s₀ (State.setWait s t v).regs fl := by
  unfold State.setWait
  try dsimp only
  repeat' first
    | with_reducible exact hk
    | dsimp only

theorem pollWaits_k {s : State} (hk : KeepsR s₀ s.regs fl) : KeepsR s₀ (pollWaits s).regs fl := by
  unfold pollWaits
  try dsimp only
  repeat' first
    | with_reducible exact hk
    | with_reducible apply setWait_k
    | with_reducible refine each_k ?_ (fun s a hk => ?_)
    | with_reducible apply ite_k
    | split
    | dsimp only

theorem tlFall_k {s : State} {i : Nat} (hfl : ([.TL_LVL_LVL, .X_TL_PULSE] : List Fld) ⊆ fl) (hk : KeepsR s₀ s.regs fl) : KeepsR s₀ (tlFall s i).regs fl := by
  unfold tlFall
  try dsimp only
  repeat' first
    | with_reducible exact hk
    | exact hfl (by decide)
    | with_reducible apply clr_k
    | with_reducible apply wrBit_k
    | with_reducible apply pollWaits_k
    | dsimp only

theorem tlNote_k {s : State} {i : Nat} (hfl : ([.TL_COLL_COLL] : List Fld) ⊆ fl) (hk : KeepsR s₀ s.regs fl) : KeepsR s₀ (tlNote s i).regs fl := by
  unfold tlNote
  try dsimp only
  repeat' first
    | with_reducible exact hk
    | exact hfl (by decide)
    | with_reducible apply wrBit_k
    | dsimp only

theorem tlClr_k {s : State} {i : Nat} (hfl : ([.TL_COLL_COLL, .TL_LVL_LVL, .X_TL_CLRC, .X_TL_FELL, .X_TL_PULSE, .X_TL_WAS] : List Fld) ⊆ fl) (hk : KeepsR s₀ s.regs fl) : KeepsR s₀ (tlClr s i).regs fl := by
  unfold tlClr
  try dsimp only
  repeat' first
    | with_reducible exact hk
    | exact hfl (by decide)
    | exact List.Subset.trans (by decide) hfl
    | with_reducible apply wr_k
    | with_reducible apply wrB_k
    | with_reducible apply tlNote_k
    | with_reducible apply tlFall_k
    | with_reducible apply ite_k
    | split
    | dsimp only

theorem tlRise_k {s : State} {i : Nat} (hfl : ([.PUN_STAT_TRIGIGN, .TL_LAST_EPOCH, .TL_LVL_LVL, .X_PUN_EDGE, .X_PUN_EDGE_T] : List Fld) ⊆ fl) (hk : KeepsR s₀ s.regs fl) : KeepsR s₀ (tlRise s i).regs fl := by
  unfold tlRise
  try dsimp only
  repeat' first
    | with_reducible exact hk
    | exact hfl (by decide)
    | with_reducible apply wr_k
    | with_reducible apply set_k
    | with_reducible apply wrBit_k
    | with_reducible refine each_k ?_ (fun s a hk => ?_)
    | with_reducible apply ite_k
    | split
    | dsimp only

theorem unFell_k {s : State} {i : Nat} (hk : KeepsR s₀ s.regs fl) : KeepsR s₀ (unFell s i).regs fl := by
  unfold unFell
  try dsimp only
  repeat' first
    | with_reducible exact hk
    | with_reducible apply setWait_k
    | with_reducible refine each_k ?_ (fun s a hk => ?_)
    | split
    | dsimp only

theorem tlSet_k {s : State} {i : Nat} (hfl : ([.PUN_STAT_TRIGIGN, .TL_COLL_COLL, .TL_LAST_EPOCH, .TL_LVL_LVL, .X_PUN_EDGE, .X_PUN_EDGE_T, .X_TL_PULSE, .X_TL_SETC] : List Fld) ⊆ fl) (hk : KeepsR s₀ s.regs fl) : KeepsR s₀ (tlSet s i).regs fl := by
  unfold tlSet
  try dsimp only
  repeat' first
    | with_reducible exact hk
    | exact hfl (by decide)
    | exact List.Subset.trans (by decide) hfl
    | with_reducible apply wr_k
    | with_reducible apply wrB_k
    | with_reducible apply wrBit_k
    | with_reducible apply unFell_k
    | with_reducible apply tlNote_k
    | with_reducible apply tlRise_k
    | with_reducible apply pollWaits_k
    | with_reducible apply ite_k
    | split
    | dsimp only

theorem vineAct_k {s : State} {v : VTrig} {late : Bool} (hfl : ([.FLT_DROP_COUNT, .FLT_STAT_STAT, .PUN_STAT_TRIGIGN, .TL_COLL_COLL, .TL_LAST_EPOCH, .TL_LVL_LVL, .VIN_TLAST_ORG_LATE, .VIN_TLAST_ORG_LATEO, .VIN_TLAST_ORG_ORIGIN, .VIN_TLAST_T, .X_FQ_RUN, .X_PUN_EDGE, .X_PUN_EDGE_T, .X_TL_CLRC, .X_TL_FELL, .X_TL_PULSE, .X_TL_SETC, .X_TL_WAS] : List Fld) ⊆ fl) (hk : KeepsR s₀ s.regs fl) : KeepsR s₀ (vineAct s v late).regs fl := by
  unfold vineAct
  try dsimp only
  repeat' first
    | with_reducible exact hk
    | exact hfl (by decide)
    | exact List.Subset.trans (by decide) hfl
    | with_reducible apply wr_k
    | with_reducible apply set_k
    | with_reducible apply wrB_k
    | with_reducible apply tlClr_k
    | with_reducible apply raise_k
    | with_reducible apply tlSet_k
    | with_reducible apply ite_k
    | split
    | dsimp only

theorem vineRecount_k {s : State} (hfl : ([.VIN_STAT_HELD] : List Fld) ⊆ fl) (hk : KeepsR s₀ s.regs fl) : KeepsR s₀ (vineRecount s).regs fl := by
  unfold vineRecount
  try dsimp only
  repeat' first
    | with_reducible exact hk
    | exact hfl (by decide)
    | with_reducible apply wr_k
    | dsimp only

theorem vineTake_k {s : State} {v : VTrig} (hfl : ([.FLT_DROP_COUNT, .FLT_STAT_STAT, .PUN_STAT_TRIGIGN, .TL_COLL_COLL, .TL_LAST_EPOCH, .TL_LVL_LVL, .VIN_STAT_HELD, .VIN_TLAST_ORG_LATE, .VIN_TLAST_ORG_LATEO, .VIN_TLAST_ORG_ORIGIN, .VIN_TLAST_T, .X_FQ_RUN, .X_PUN_EDGE, .X_PUN_EDGE_T, .X_TL_CLRC, .X_TL_FELL, .X_TL_PULSE, .X_TL_SETC, .X_TL_WAS] : List Fld) ⊆ fl) (hk : KeepsR s₀ s.regs fl) : KeepsR s₀ (vineTake s v).regs fl := by
  unfold vineTake
  try dsimp only
  repeat' first
    | with_reducible exact hk
    | exact List.Subset.trans (by decide) hfl
    | with_reducible apply vineAct_k
    | with_reducible apply vineRecount_k
    | with_reducible apply ite_k
    | split
    | dsimp only

theorem rootAdmit_k {s : State} {v : VTrig} (hfl : ([.FLT_DROP_COUNT, .FLT_STAT_STAT, .PUN_STAT_TRIGIGN, .TL_COLL_COLL, .TL_LAST_EPOCH, .TL_LVL_LVL, .VIN_STAT_HELD, .VIN_STAT_RSEQ, .VIN_TLAST_ORG_LATE, .VIN_TLAST_ORG_LATEO, .VIN_TLAST_ORG_ORIGIN, .VIN_TLAST_T, .X_FQ_RUN, .X_PUN_EDGE, .X_PUN_EDGE_T, .X_TL_CLRC, .X_TL_FELL, .X_TL_PULSE, .X_TL_SETC, .X_TL_WAS] : List Fld) ⊆ fl) (hk : KeepsR s₀ s.regs fl) : KeepsR s₀ (rootAdmit s v).regs fl := by
  unfold rootAdmit
  try dsimp only
  repeat' first
    | with_reducible exact hk
    | exact hfl (by decide)
    | exact List.Subset.trans (by decide) hfl
    | with_reducible apply wr_k
    | with_reducible apply vineTake_k
    | with_reducible apply vineSend_k
    | with_reducible refine each_k ?_ (fun s a hk => ?_)
    | dsimp only

theorem rootRequest_k {s : State} {v : VTrig} (hfl : ([.FLT_DROP_COUNT, .FLT_STAT_STAT, .PUN_STAT_TRIGIGN, .TL_COLL_COLL, .TL_LAST_EPOCH, .TL_LVL_LVL, .VIN_STAT_HELD, .VIN_STAT_RSEQ, .VIN_TLAST_ORG_LATE, .VIN_TLAST_ORG_LATEO, .VIN_TLAST_ORG_ORIGIN, .VIN_TLAST_T, .X_FQ_RUN, .X_PUN_EDGE, .X_PUN_EDGE_T, .X_TL_CLRC, .X_TL_FELL, .X_TL_PULSE, .X_TL_SETC, .X_TL_WAS] : List Fld) ⊆ fl) (hk : KeepsR s₀ s.regs fl) : KeepsR s₀ (rootRequest s v).regs fl := by
  unfold rootRequest
  try dsimp only
  repeat' first
    | with_reducible exact hk
    | exact List.Subset.trans (by decide) hfl
    | with_reducible apply rootAdmit_k
    | with_reducible apply ite_k
    | split
    | dsimp only

theorem vineRequest_k {s : State} {vl : Nat} {clear : Bool} {t : Nat} (hfl : ([.FLT_DROP_COUNT, .FLT_STAT_STAT, .PUN_STAT_TRIGIGN, .TL_COLL_COLL, .TL_LAST_EPOCH, .TL_LVL_LVL, .VIN_STAT_HELD, .VIN_STAT_RSEQ, .VIN_TLAST_ORG_LATE, .VIN_TLAST_ORG_LATEO, .VIN_TLAST_ORG_ORIGIN, .VIN_TLAST_T, .X_FQ_RUN, .X_PUN_EDGE, .X_PUN_EDGE_T, .X_TL_CLRC, .X_TL_FELL, .X_TL_PULSE, .X_TL_SETC, .X_TL_WAS] : List Fld) ⊆ fl) (hk : KeepsR s₀ s.regs fl) : KeepsR s₀ (vineRequest s vl clear t).2.regs fl := by
  unfold vineRequest
  try dsimp only
  repeat' first
    | with_reducible exact hk
    | exact List.Subset.trans (by decide) hfl
    | with_reducible apply rootRequest_k
    | with_reducible apply vineSend_k
    | with_reducible apply ite_k
    | with_reducible apply ite_k2
    | split
    | dsimp only

theorem vinSendWrite_k {s : State} {v : Nat} (hfl : ([.FLT_DROP_COUNT, .FLT_STAT_STAT, .PUN_STAT_TRIGIGN, .TL_COLL_COLL, .TL_LAST_EPOCH, .TL_LVL_LVL, .VIN_SEND_RESULT, .VIN_STAT_HELD, .VIN_STAT_RSEQ, .VIN_TLAST_ORG_LATE, .VIN_TLAST_ORG_LATEO, .VIN_TLAST_ORG_ORIGIN, .VIN_TLAST_T, .X_FQ_RUN, .X_PUN_EDGE, .X_PUN_EDGE_T, .X_TL_CLRC, .X_TL_FELL, .X_TL_PULSE, .X_TL_SETC, .X_TL_WAS] : List Fld) ⊆ fl) (hk : KeepsR s₀ s.regs fl) : KeepsR s₀ (vinSendWrite s v).regs fl := by
  unfold vinSendWrite
  try dsimp only
  repeat' first
    | with_reducible exact hk
    | exact hfl (by decide)
    | exact List.Subset.trans (by decide) hfl
    | with_reducible apply wr_k
    | with_reducible apply vineRequest_k
    | with_reducible apply ite_k
    | split
    | dsimp only

theorem injCmd_k {s : State} {g : Nat} {v : Nat} (hfl : ([.FLT_DROP_COUNT, .FLT_STAT_STAT, .INJ_ENT_INFO_STATE, .INJ_LOG_ENTRY, .INJ_LOG_OUTCOME, .INJ_LOG_PATH, .INJ_LOG_POS, .INJ_LOG_SRC_SOURCE, .INJ_STAT_FREE, .INJ_STAT_LOST, .INJ_STAT_WIDX, .PUN_DISC_COUNT, .SEQ_ACNT_CANCEL, .X_FQ_RUN, .X_INJ_LOGN] : List Fld) ⊆ fl) (hk : KeepsR s₀ s.regs fl) : KeepsR s₀ (injCmd s g v).regs fl := by
  unfold injCmd
  try dsimp only
  repeat' first
    | with_reducible exact hk
    | exact List.Subset.trans (by decide) hfl
    | with_reducible apply injDone_k
    | with_reducible apply ite_k
    | split
    | dsimp only

theorem ltCfgSet_k {s : State} {t : Nat} {v : Nat} (hfl : ([.GRV_LINKERR_ERR, .LT_CFG_EN, .LT_CFG_LINK, .LT_CFG_SIDE] : List Fld) ⊆ fl) (hk : KeepsR s₀ s.regs fl) : KeepsR s₀ (ltCfgSet s t v).regs fl := by
  unfold ltCfgSet
  try dsimp only
  repeat' first
    | with_reducible exact hk
    | exact hfl (by decide)
    | with_reducible apply wr_k
    | with_reducible apply set_k
    | with_reducible apply ite_k
    | split
    | dsimp only

theorem ltEthCfgSet_k {s : State} {t : Nat} {v : Nat} (hfl : ([.GRV_LINKERR_ERR, .LT_ETH_CFG_IPG, .LT_ETH_CFG_MAXLEN] : List Fld) ⊆ fl) (hk : KeepsR s₀ s.regs fl) : KeepsR s₀ (ltEthCfgSet s t v).regs fl := by
  unfold ltEthCfgSet
  try dsimp only
  repeat' first
    | with_reducible exact hk
    | exact hfl (by decide)
    | with_reducible apply wr_k
    | with_reducible apply set_k
    | with_reducible apply ite_k
    | split
    | dsimp only

theorem ltPciCfgSet_k {s : State} {t : Nat} {v : Nat} (hfl : ([.GRV_LINKERR_ERR, .LT_PCI_CFG_CXLEN, .LT_PCI_CFG_FLITEN, .LT_PCI_CFG_MAXRATE, .LT_PCI_CFG_ROLE] : List Fld) ⊆ fl) (hk : KeepsR s₀ s.regs fl) : KeepsR s₀ (ltPciCfgSet s t v).regs fl := by
  unfold ltPciCfgSet
  try dsimp only
  repeat' first
    | with_reducible exact hk
    | exact hfl (by decide)
    | with_reducible apply wr_k
    | with_reducible apply set_k
    | with_reducible apply ite_k
    | split
    | dsimp only

theorem ltRingSet_k {s : State} {t : Nat} {tx : Bool} {v : Nat} (hfl : ([.GRV_LINKERR_ERR, .LT_RXRING_BASE, .LT_RXRING_SIZE, .LT_TXRING_BASE, .LT_TXRING_SIZE] : List Fld) ⊆ fl) (hk : KeepsR s₀ s.regs fl) : KeepsR s₀ (ltRingSet s t tx v).regs fl := by
  unfold ltRingSet
  try dsimp only
  repeat' first
    | with_reducible exact hk
    | exact hfl (by decide)
    | with_reducible apply wr_k
    | with_reducible apply set_k
    | with_reducible apply ite_k
    | split
    | dsimp only

theorem setBlk_k {s : State} {m : Nat} {v : List Word} (hk : KeepsR s₀ s.regs fl) : KeepsR s₀ (State.setBlk s m v).regs fl := by
  unfold State.setBlk
  try dsimp only
  repeat' first
    | with_reducible exact hk
    | dsimp only

theorem candDrop_k {s : State} {m : Nat} (hk : KeepsR s₀ s.regs fl) : KeepsR s₀ (candDrop s m).regs fl := by
  unfold candDrop
  try dsimp only
  repeat' first
    | with_reducible exact hk
    | dsimp only

theorem matchArm_k {s : State} {m : Nat} {b : List Word} (hfl : ([.MATCH_CNT_COUNT, .MATCH_LEP_EPOCH, .MATCH_LPOS_POS, .MATCH_STAT_ARMED, .MATCH_STAT_LASTPATH, .X_M_FIRED] : List Fld) ⊆ fl) (hk : KeepsR s₀ s.regs fl) : KeepsR s₀ (matchArm s m b).regs fl := by
  unfold matchArm
  try dsimp only
  repeat' first
    | with_reducible exact hk
    | exact hfl (by decide)
    | with_reducible apply set_k
    | with_reducible apply clr_k
    | with_reducible apply setBlk_k
    | with_reducible apply candDrop_k
    | with_reducible apply pollWaits_k
    | dsimp only

theorem matchDisarm_k {s : State} {m : Nat} (hfl : ([.MATCH_STAT_ARMED] : List Fld) ⊆ fl) (hk : KeepsR s₀ s.regs fl) : KeepsR s₀ (matchDisarm s m).regs fl := by
  unfold matchDisarm
  try dsimp only
  repeat' first
    | with_reducible exact hk
    | exact hfl (by decide)
    | with_reducible apply clr_k
    | with_reducible apply candDrop_k
    | dsimp only

theorem matchCmd_k {s : State} {g : Nat} {v : Nat} (hfl : ([.MATCH_CMD_RESULT, .MATCH_CNT_COUNT, .MATCH_LEP_EPOCH, .MATCH_LPOS_POS, .MATCH_STAT_ARMED, .MATCH_STAT_LASTPATH, .X_M_FIRED] : List Fld) ⊆ fl) (hk : KeepsR s₀ s.regs fl) : KeepsR s₀ (matchCmd s g v).regs fl := by
  unfold matchCmd
  try dsimp only
  repeat' first
    | with_reducible exact hk
    | exact hfl (by decide)
    | exact List.Subset.trans (by decide) hfl
    | with_reducible apply wr_k
    | with_reducible apply matchDisarm_k
    | with_reducible apply matchArm_k
    | with_reducible apply ite_k
    | split
    | dsimp only

theorem pathDlySet_k {s : State} {p : Nat} {v : Nat} (hfl : ([.PATH_DLYSTAT_ERR, .PATH_DLY_CELLS, .X_DLYH_POS, .X_DLYH_V] : List Fld) ⊆ fl) (hk : KeepsR s₀ s.regs fl) : KeepsR s₀ (pathDlySet s p v).regs fl := by
  unfold pathDlySet
  try dsimp only
  repeat' first
    | with_reducible exact hk
    | exact hfl (by decide)
    | with_reducible apply wr_k
    | with_reducible apply set_k
    | with_reducible apply ite_k
    | split
    | dsimp only

theorem pathModeSet_k {s : State} {n : Nat} {v : Nat} (hfl : ([.ECC_CECNT_COUNT, .ECC_LOGSTAT_COUNT, .ECC_LOGSTAT_LOST, .ECC_LOGSTAT_OVF, .ECC_UECNT_COUNT, .ERR_LOG_ADDR, .ERR_LOG_DLY, .ERR_LOG_EPOCH, .ERR_LOG_KIND, .ERR_LOG_PUN, .ERR_LOG_SRC, .ERR_LOG_SYN, .ERR_LOG_VALID, .FLT_DROP_COUNT, .FLT_STAT_STAT, .PATH_MODE_CODE, .PATH_MODE_PEND_AB, .PATH_MODE_PEND_BA, .X_CE_RAISED, .X_FQ_RUN, .X_LOG_ORD, .X_LOG_SEQ, .X_SPLIT] : List Fld) ⊆ fl) (hk : KeepsR s₀ s.regs fl) : KeepsR s₀ (pathModeSet s n v).regs fl := by
  unfold pathModeSet
  try dsimp only
  repeat' first
    | with_reducible exact hk
    | exact hfl (by decide)
    | exact List.Subset.trans (by decide) hfl
    | with_reducible apply wr_k
    | with_reducible apply chgHost_k
    | dsimp only

theorem qualLoad_k {s : State} {x : Nat} (hfl : ([.QUAL_BER_BER, .QUAL_BER_BOUND, .QUAL_BER_OFS, .QUAL_BER_OFSIDX, .QUAL_CTL_SEQ, .QUAL_EYE_EHLO, .QUAL_EYE_EHMID, .QUAL_EYE_EHUP, .QUAL_EYE_EW] : List Fld) ⊆ fl) (hk : KeepsR s₀ s.regs fl) : KeepsR s₀ (qualLoad s x).regs fl := by
  unfold qualLoad
  try dsimp only
  repeat' first
    | with_reducible exact hk
    | exact hfl (by decide)
    | with_reducible apply wr_k
    | with_reducible apply incWrap_k
    | with_reducible apply ite_k
    | split
    | dsimp only

theorem qualCtlSet_k {s : State} {x : Nat} {v : Nat} (hfl : ([.QUAL_BER_BER, .QUAL_BER_BOUND, .QUAL_BER_OFS, .QUAL_BER_OFSIDX, .QUAL_CTL_AUTO, .QUAL_CTL_QWIN, .QUAL_CTL_SEQ, .QUAL_EYE_EHLO, .QUAL_EYE_EHMID, .QUAL_EYE_EHUP, .QUAL_EYE_EW] : List Fld) ⊆ fl) (hk : KeepsR s₀ s.regs fl) : KeepsR s₀ (qualCtlSet s x v).regs fl := by
  unfold qualCtlSet
  try dsimp only
  repeat' first
    | with_reducible exact hk
    | exact hfl (by decide)
    | exact List.Subset.trans (by decide) hfl
    | with_reducible apply wr_k
    | with_reducible apply qualLoad_k
    | with_reducible apply ite_k
    | split
    | dsimp only

theorem highHalf_k {s : State} {r : Route} {g : Nat} {key : Nat} {old : Nat} {v : Nat} (hk : KeepsR s₀ s.regs fl) : KeepsR s₀ (highHalf s r g key old v).2.regs fl := by
  unfold highHalf
  try dsimp only
  repeat' first
    | with_reducible exact hk
    | with_reducible apply ite_k
    | with_reducible apply ite_k2
    | split
    | dsimp only

theorem lowHalf_k {s : State} {r : Route} {g : Nat} {key : Nat} {v : Nat} (hk : KeepsR s₀ s.regs fl) : KeepsR s₀ (lowHalf s r g key v).regs fl := by
  unfold lowHalf
  try dsimp only
  repeat' first
    | with_reducible exact hk
    | dsimp only

theorem setWreg_k {s : State} {th : Nat} {i : Nat} {v : Nat} (hfl : ([.SEQ_REGS_W] : List Fld) ⊆ fl) (hk : KeepsR s₀ s.regs fl) : KeepsR s₀ (setWreg s th i v).regs fl := by
  unfold setWreg
  try dsimp only
  repeat' first
    | with_reducible exact hk
    | exact hfl (by decide)
    | with_reducible apply wr_k
    | dsimp only

theorem regHalf_k {s : State} {r : Route} {g : Nat} {th : Nat} {i : Nat} {hi : Bool} {v : Nat} (hfl : ([.SEQ_CTL_ERR, .SEQ_REGS_W] : List Fld) ⊆ fl) (hk : KeepsR s₀ s.regs fl) : KeepsR s₀ (regHalf s r g th i hi v).regs fl := by
  unfold regHalf
  try dsimp only
  repeat' first
    | with_reducible exact hk
    | exact hfl (by decide)
    | exact List.Subset.trans (by decide) hfl
    | with_reducible apply set_k
    | with_reducible apply setWreg_k
    | with_reducible apply highHalf_k
    | with_reducible apply lowHalf_k
    | with_reducible apply ite_k
    | split
    | dsimp only

theorem setDepth_k {s : State} {th : Nat} {n : Nat} (hfl : ([.SEQ_TSTAT_FULL, .SEQ_TSTAT_RSD, .X_RDEPTH] : List Fld) ⊆ fl) (hk : KeepsR s₀ s.regs fl) : KeepsR s₀ (setDepth s th n).regs fl := by
  unfold setDepth
  try dsimp only
  repeat' first
    | with_reducible exact hk
    | exact hfl (by decide)
    | with_reducible apply wr_k
    | with_reducible apply wrB_k
    | dsimp only

theorem goThread_k {s : State} {th : Nat} (hfl : ([.SEQ_TSTAT_CAUSE, .SEQ_TSTAT_FULL, .SEQ_TSTAT_PC, .SEQ_TSTAT_RSD, .SEQ_TSTAT_STATE, .X_RDEPTH] : List Fld) ⊆ fl) (hk : KeepsR s₀ s.regs fl) : KeepsR s₀ (goThread s th).regs fl := by
  unfold goThread
  try dsimp only
  repeat' first
    | with_reducible exact hk
    | exact hfl (by decide)
    | exact List.Subset.trans (by decide) hfl
    | with_reducible apply wr_k
    | with_reducible apply clr_k
    | with_reducible apply setDepth_k
    | with_reducible apply ite_k
    | split
    | dsimp only

theorem fetchParity_k {s : State} {g : Nat} (hfl : ([.FLT_INJ_BUSY, .X_INJ_LEFT] : List Fld) ⊆ fl) (hk : KeepsR s₀ s.regs fl) : KeepsR s₀ (fetchParity s g).2.regs fl := by
  unfold fetchParity
  try dsimp only
  repeat' first
    | with_reducible exact hk
    | exact List.Subset.trans (by decide) hfl
    | with_reducible apply takeInj_k
    | dsimp only

theorem threadFault_k {s : State} {g : Nat} {t : Nat} {cause : Nat} {pc : Nat} {addr : Nat} (hfl : ([.FLT_DROP_COUNT, .FLT_STAT_STAT, .SEQ_TSTAT_CAUSE, .SEQ_TSTAT_PC, .SEQ_TSTAT_STATE, .X_FQ_RUN] : List Fld) ⊆ fl) (hk : KeepsR s₀ s.regs fl) : KeepsR s₀ (threadFault s g t cause pc addr).regs fl := by
  unfold threadFault
  try dsimp only
  repeat' first
    | with_reducible exact hk
    | exact hfl (by decide)
    | exact List.Subset.trans (by decide) hfl
    | with_reducible apply wr_k
    | with_reducible apply raise_k
    | with_reducible apply ite_k
    | split
    | dsimp only

theorem advance_k {s : State} {c : SCtx} {nx : Nat} (hfl : ([.FLT_DROP_COUNT, .FLT_STAT_STAT, .SEQ_TSTAT_CAUSE, .SEQ_TSTAT_PC, .SEQ_TSTAT_STATE, .X_FQ_RUN] : List Fld) ⊆ fl) (hk : KeepsR s₀ s.regs fl) : KeepsR s₀ (advance s c nx).regs fl := by
  unfold advance
  try dsimp only
  repeat' first
    | with_reducible exact hk
    | exact hfl (by decide)
    | exact List.Subset.trans (by decide) hfl
    | with_reducible apply wr_k
    | with_reducible apply threadFault_k
    | with_reducible apply ite_k
    | split
    | dsimp only

theorem parityFault_k {s : State} {g : Nat} {t : Nat} (hfl : ([.FLT_DROP_COUNT, .FLT_STAT_STAT, .SEQ_TSTAT_CAUSE, .SEQ_TSTAT_PC, .SEQ_TSTAT_STATE, .X_FQ_RUN] : List Fld) ⊆ fl) (hk : KeepsR s₀ s.regs fl) : KeepsR s₀ (parityFault s g t).regs fl := by
  unfold parityFault
  try dsimp only
  repeat' first
    | with_reducible exact hk
    | exact List.Subset.trans (by decide) hfl
    | with_reducible apply threadFault_k
    | dsimp only

theorem stopThread_k {s : State} {th : Nat} (hfl : ([.SEQ_TSTAT_STATE] : List Fld) ⊆ fl) (hk : KeepsR s₀ s.regs fl) : KeepsR s₀ (stopThread s th).regs fl := by
  unfold stopThread
  try dsimp only
  repeat' first
    | with_reducible exact hk
    | exact hfl (by decide)
    | with_reducible apply wr_k
    | with_reducible apply setWait_k
    | with_reducible apply ite_k
    | split
    | dsimp only

theorem xcvrCtlSet_k {s : State} {x : Nat} {v : Nat} (hfl : ([.XCVR_CTL_FREEZE, .XCVR_CTL_RXINV, .XCVR_CTL_TXINV, .X_DET_RUN] : List Fld) ⊆ fl) (hk : KeepsR s₀ s.regs fl) : KeepsR s₀ (xcvrCtlSet s x v).regs fl := by
  unfold xcvrCtlSet
  try dsimp only
  repeat' first
    | with_reducible exact hk
    | exact hfl (by decide)
    | exact List.Subset.trans (by decide) hfl
    | with_reducible apply wr_k
    | with_reducible apply detectBegin_k
    | with_reducible apply ite_k
    | split
    | dsimp only

theorem chCmd_k {s : State} {t : Nat} {c : Nat} {v : Nat} (hfl : ([.CH_CMD_RESULT, .CH_STAT_STATE, .TWR_STAT_STATE, .X_CHRST_WAIT] : List Fld) ⊆ fl) (hk : KeepsR s₀ s.regs fl) : KeepsR s₀ (chCmd s t c v).regs fl := by
  unfold chCmd
  try dsimp only
  repeat' first
    | with_reducible exact hk
    | exact hfl (by decide)
    | exact List.Subset.trans (by decide) hfl
    | with_reducible apply wr_k
    | with_reducible apply chanResetBegin_k
    | with_reducible apply ite_k
    | split
    | dsimp only

theorem dlrCfgSet_k {s : State} {p : Nat} {v : Nat} (hfl : ([.DLR_CFG_CFGERR, .DLR_CFG_COUNT, .DLR_CFG_EN, .DLR_CFG_FIRST] : List Fld) ⊆ fl) (hk : KeepsR s₀ s.regs fl) : KeepsR s₀ (dlrCfgSet s p v).regs fl := by
  unfold dlrCfgSet
  try dsimp only
  repeat' first
    | with_reducible exact hk
    | exact hfl (by decide)
    | with_reducible apply wr_k
    | with_reducible apply set_k
    | with_reducible apply w1c_k
    | with_reducible apply ite_k
    | split
    | dsimp only

theorem hvBad_k {s : State} {e : Nat} (hfl : ([.HV_STAT_CFGERR] : List Fld) ⊆ fl) (hk : KeepsR s₀ s.regs fl) : KeepsR s₀ (hvBad s e).regs fl := by
  unfold hvBad
  try dsimp only
  repeat' first
    | with_reducible exact hk
    | exact hfl (by decide)
    | with_reducible apply set_k
    | dsimp only

theorem hvBaseSet_k {s : State} {e : Nat} {half : Nat} {v : Nat} (hfl : ([.HV_RBASE_ADDR, .HV_STAT_CFGERR] : List Fld) ⊆ fl) (hk : KeepsR s₀ s.regs fl) : KeepsR s₀ (hvBaseSet s e half v).regs fl := by
  unfold hvBaseSet
  try dsimp only
  repeat' first
    | with_reducible exact hk
    | exact hfl (by decide)
    | exact List.Subset.trans (by decide) hfl
    | with_reducible apply wr_k
    | with_reducible apply hvBad_k
    | with_reducible apply ite_k
    | split
    | dsimp only

theorem hvAbort_k {s : State} {e : Nat} (hfl : ([.HV_CTL_EN] : List Fld) ⊆ fl) (hk : KeepsR s₀ s.regs fl) : KeepsR s₀ (hvAbort s e).regs fl := by
  unfold hvAbort
  try dsimp only
  repeat' first
    | with_reducible exact hk
    | exact hfl (by decide)
    | with_reducible apply clr_k
    | split
    | dsimp only

theorem hvCtlSet_k {s : State} {e : Nat} {v : Nat} (hfl : ([.HV_CTL_EN] : List Fld) ⊆ fl) (hk : KeepsR s₀ s.regs fl) : KeepsR s₀ (hvCtlSet s e v).regs fl := by
  unfold hvCtlSet
  try dsimp only
  repeat' first
    | with_reducible exact hk
    | exact hfl (by decide)
    | exact List.Subset.trans (by decide) hfl
    | with_reducible apply wr_k
    | with_reducible apply hvAbort_k
    | with_reducible apply ite_k
    | split
    | dsimp only

theorem hvProdSet_k {s : State} {e : Nat} {v : Nat} (hfl : ([.HV_PROD_IDX, .HV_STAT_CFGERR] : List Fld) ⊆ fl) (hk : KeepsR s₀ s.regs fl) : KeepsR s₀ (hvProdSet s e v).regs fl := by
  unfold hvProdSet
  try dsimp only
  repeat' first
    | with_reducible exact hk
    | exact hfl (by decide)
    | exact List.Subset.trans (by decide) hfl
    | with_reducible apply wr_k
    | with_reducible apply hvBad_k
    | with_reducible apply ite_k
    | split
    | dsimp only

theorem hvSizeSet_k {s : State} {e : Nat} {v : Nat} (hfl : ([.HV_RSIZE_SIZE, .HV_STAT_CFGERR] : List Fld) ⊆ fl) (hk : KeepsR s₀ s.regs fl) : KeepsR s₀ (hvSizeSet s e v).regs fl := by
  unfold hvSizeSet
  try dsimp only
  repeat' first
    | with_reducible exact hk
    | exact hfl (by decide)
    | exact List.Subset.trans (by decide) hfl
    | with_reducible apply wr_k
    | with_reducible apply hvBad_k
    | with_reducible apply ite_k
    | split
    | dsimp only

theorem logAck_k {s : State} {t : Nat} {v : Nat} (hfl : ([.ECC_LOGSTAT_COUNT, .ERR_LOG_VALID] : List Fld) ⊆ fl) (hk : KeepsR s₀ s.regs fl) : KeepsR s₀ (logAck s t v).regs fl := by
  unfold logAck
  try dsimp only
  repeat' first
    | with_reducible exact hk
    | exact hfl (by decide)
    | exact List.Subset.trans (by decide) hfl
    | with_reducible apply clr_k
    | with_reducible apply logRecount_k
    | with_reducible refine each_k ?_ (fun s a hk => ?_)
    | with_reducible apply ite_k
    | split
    | dsimp only

theorem plimShow_k {s : State} (hfl : ([.PRS_PLIM_EFF, .PRS_PLIM_THROT] : List Fld) ⊆ fl) (hk : KeepsR s₀ s.regs fl) : KeepsR s₀ (plimShow s).regs fl := by
  unfold plimShow
  try dsimp only
  repeat' first
    | with_reducible exact hk
    | exact hfl (by decide)
    | with_reducible apply wr_k
    | with_reducible apply wrB_k
    | dsimp only

theorem prsPlimSet_k {s : State} {v : Nat} (hfl : ([.PRS_PLIM_EFF, .PRS_PLIM_LIMIT, .PRS_PLIM_SHARE0, .PRS_PLIM_THROT, .THM_STAT_CFGERR] : List Fld) ⊆ fl) (hk : KeepsR s₀ s.regs fl) : KeepsR s₀ (prsPlimSet s v).regs fl := by
  unfold prsPlimSet
  try dsimp only
  repeat' first
    | with_reducible exact hk
    | exact hfl (by decide)
    | exact List.Subset.trans (by decide) hfl
    | with_reducible apply wr_k
    | with_reducible apply set_k
    | with_reducible apply plimShow_k
    | with_reducible apply ite_k
    | split
    | dsimp only

theorem hvCut_k {s : State} {k : Nat} (hk : KeepsR s₀ s.regs fl) : KeepsR s₀ (hvCut s k).regs fl := by
  unfold hvCut
  try dsimp only
  repeat' first
    | with_reducible exact hk
    | with_reducible apply ite_k
    | split
    | dsimp only

theorem punCfgFields_k {s : State} {k : Nat} {v : Nat} {idxk : Nat} (hfl : ([.PUN_CFG_ENC, .PUN_CFG_IDXK, .PUN_CFG_MODE, .PUN_CFG_RDDEC, .PUN_CFG_TL, .PUN_CFG_TLEN] : List Fld) ⊆ fl) (hk : KeepsR s₀ s.regs fl) : KeepsR s₀ (punCfgFields s k v idxk).regs fl := by
  unfold punCfgFields
  try dsimp only
  repeat' first
    | with_reducible exact hk
    | exact hfl (by decide)
    | with_reducible apply wr_k
    | dsimp only

theorem punStart_k {s : State} {k : Nat} (hfl : ([.PUN_HEAD_OFS, .PUN_RECS_COUNT, .PUN_STAT_DAMAGE, .PUN_STAT_STATE, .PUN_STAT_WRAP, .PUN_TAIL_OFS, .X_PUN_EDGE, .X_PUN_SINCE] : List Fld) ⊆ fl) (hk : KeepsR s₀ s.regs fl) : KeepsR s₀ (punStart s k).regs fl := by
  unfold punStart
  try dsimp only
  repeat' first
    | with_reducible exact hk
    | exact hfl (by decide)
    | with_reducible apply wr_k
    | with_reducible apply clr_k
    | with_reducible apply setEnc_k
    | with_reducible apply ite_k
    | split
    | dsimp only

theorem punCfgSet_k {s : State} {k : Nat} {v : Nat} (hfl : ([.PUN_CFG_EN, .PUN_CFG_ENC, .PUN_CFG_IDXK, .PUN_CFG_MODE, .PUN_CFG_RDDEC, .PUN_CFG_TL, .PUN_CFG_TLEN, .PUN_HEAD_OFS, .PUN_RECS_COUNT, .PUN_STAT_CFGERR, .PUN_STAT_DAMAGE, .PUN_STAT_STATE, .PUN_STAT_WRAP, .PUN_TAIL_OFS, .X_PUN_EDGE, .X_PUN_SINCE] : List Fld) ⊆ fl) (hk : KeepsR s₀ s.regs fl) : KeepsR s₀ (punCfgSet s k v).regs fl := by
  unfold punCfgSet
  try dsimp only
  repeat' first
    | with_reducible exact hk
    | exact hfl (by decide)
    | exact List.Subset.trans (by decide) hfl
    | with_reducible apply wr_k
    | with_reducible apply set_k
    | with_reducible apply clr_k
    | with_reducible apply setEnc_k
    | with_reducible apply hvCut_k
    | with_reducible apply encFlush_k
    | with_reducible apply punStart_k
    | with_reducible apply punCfgFields_k
    | with_reducible apply ite_k
    | split
    | dsimp only

theorem punIfOff_k {s : State} {k : Nat} {f : State → State} (hfl : ([.PUN_STAT_CFGERR] : List Fld) ⊆ fl) (hf_f : ∀ y0, KeepsR s₀ y0.regs fl → KeepsR s₀ (f y0).regs fl) (hk : KeepsR s₀ s.regs fl) : KeepsR s₀ (punIfOff s k f).regs fl := by
  unfold punIfOff
  try dsimp only
  repeat' first
    | with_reducible exact hk
    | exact hfl (by decide)
    | with_reducible apply set_k
    | with_reducible apply hf_f
    | with_reducible apply ite_k
    | split
    | dsimp only

theorem repBegin_k {s : State} {t : Nat} {op : Nat} {k : RowKey} {ch : Nat} {lane : Nat} {cmd : Bool} (hfl : ([.X_REP_BANK, .X_REP_CH, .X_REP_CMD, .X_REP_LANE, .X_REP_OP, .X_REP_PC, .X_REP_ROW] : List Fld) ⊆ fl) (hk : KeepsR s₀ s.regs fl) : KeepsR s₀ (repBegin s t op k ch lane cmd).regs fl := by
  unfold repBegin
  try dsimp only
  repeat' first
    | with_reducible exact hk
    | exact hfl (by decide)
    | with_reducible apply wr_k
    | with_reducible apply wrB_k
    | with_reducible apply ite_k
    | split
    | dsimp only

theorem repCmd_k {s : State} {t : Nat} {v : Nat} (hfl : ([.CH_STAT_STATE, .REP_CMD_RESULT, .TWR_STAT_STATE, .X_REP_BANK, .X_REP_CH, .X_REP_CMD, .X_REP_LANE, .X_REP_OP, .X_REP_PC, .X_REP_ROW] : List Fld) ⊆ fl) (hk : KeepsR s₀ s.regs fl) : KeepsR s₀ (repCmd s t v).regs fl := by
  unfold repCmd
  try dsimp only
  repeat' first
    | with_reducible exact hk
    | exact hfl (by decide)
    | exact List.Subset.trans (by decide) hfl
    | with_reducible apply wr_k
    | with_reducible apply repBegin_k
    | with_reducible apply ite_k
    | split
    | dsimp only

theorem rfmSet_k {s : State} {t : Nat} {v : Nat} (hfl : ([.TWR_RFM_THRESH, .TWR_STAT_CFGERR] : List Fld) ⊆ fl) (hk : KeepsR s₀ s.regs fl) : KeepsR s₀ (rfmSet s t v).regs fl := by
  unfold rfmSet
  try dsimp only
  repeat' first
    | with_reducible exact hk
    | exact hfl (by decide)
    | with_reducible apply wr_k
    | with_reducible apply set_k
    | with_reducible apply ite_k
    | split
    | dsimp only

theorem rplCfgSet_k {s : State} {p : Nat} {v : Nat} (hfl : ([.RPL_CFG_FROMTRIG, .RPL_CFG_LOOP, .RPL_CFG_PUN, .RPL_CFG_STREAM] : List Fld) ⊆ fl) (hk : KeepsR s₀ s.regs fl) : KeepsR s₀ (rplCfgSet s p v).regs fl := by
  unfold rplCfgSet
  try dsimp only
  repeat' first
    | with_reducible exact hk
    | exact hfl (by decide)
    | with_reducible apply wr_k
    | with_reducible apply ite_k
    | split
    | dsimp only

theorem scrCfgSet_k {s : State} {t : Nat} {c : Nat} {v : Nat} (hfl : ([.ECC_LOGSTAT_CFGERR, .SCR_CFG_PERIOD] : List Fld) ⊆ fl) (hk : KeepsR s₀ s.regs fl) : KeepsR s₀ (scrCfgSet s t c v).regs fl := by
  unfold scrCfgSet
  try dsimp only
  repeat' first
    | with_reducible exact hk
    | exact hfl (by decide)
    | with_reducible apply wr_k
    | with_reducible apply set_k
    | with_reducible apply ite_k
    | split
    | dsimp only

theorem strmAssign_k {s : State} {p : Nat} {pun : Nat} {cls : Nat} (hfl : ([.STRM_CFG_CLASS, .STRM_CFG_PUN, .STRM_SEQ_SEQ] : List Fld) ⊆ fl) (hk : KeepsR s₀ s.regs fl) : KeepsR s₀ (strmAssign s p pun cls).regs fl := by
  unfold strmAssign
  try dsimp only
  repeat' first
    | with_reducible exact hk
    | exact hfl (by decide)
    | with_reducible apply wr_k
    | with_reducible apply clr_k
    | with_reducible apply ite_k
    | split
    | dsimp only

theorem strmCfgSet_k {s : State} {p : Nat} {v : Nat} (hfl : ([.PUN_DISC_COUNT, .STRM_CFG_CFGERR, .STRM_CFG_CLASS, .STRM_CFG_ELIDE, .STRM_CFG_ETHUNIT, .STRM_CFG_IDE, .STRM_CFG_PUN, .STRM_CFG_RAW, .STRM_SEQ_SEQ] : List Fld) ⊆ fl) (hk : KeepsR s₀ s.regs fl) : KeepsR s₀ (strmCfgSet s p v).regs fl := by
  unfold strmCfgSet
  try dsimp only
  repeat' first
    | with_reducible exact hk
    | exact hfl (by decide)
    | exact List.Subset.trans (by decide) hfl
    | with_reducible apply wr_k
    | with_reducible apply set_k
    | with_reducible apply w1c_k
    | with_reducible apply strmAssign_k
    | with_reducible apply closeRun_k
    | with_reducible apply ite_k
    | split
    | dsimp only

theorem capAccept_k {s : State} {p : Nat} {m : Moment} {kind : CapKind} {cause : Nat} {src : Nat} (hfl : ([.STRM_CFG_PEND] : List Fld) ⊆ fl) (hk : KeepsR s₀ s.regs fl) : KeepsR s₀ (capAccept s p m kind cause src).2.regs fl := by
  unfold capAccept
  try dsimp only
  repeat' first
    | with_reducible exact hk
    | exact List.Subset.trans (by decide) hfl
    | with_reducible apply setStrm_k
    | with_reducible apply pendCount_k
    | with_reducible apply ite_k
    | with_reducible apply ite_k2
    | split
    | dsimp only

theorem strmCmd_k {s : State} {v : Nat} (hfl : ([.STRM_CFG_PEND, .STRM_CMD_RESULT] : List Fld) ⊆ fl) (hk : KeepsR s₀ s.regs fl) : KeepsR s₀ (strmCmd s v).regs fl := by
  unfold strmCmd
  try dsimp only
  repeat' first
    | with_reducible exact hk
    | exact hfl (by decide)
    | exact List.Subset.trans (by decide) hfl
    | with_reducible apply wr_k
    | with_reducible apply capAccept_k
    | with_reducible apply ite_k
    | split
    | dsimp only

theorem tstShow_k {s : State} {t : Nat} {data : Word} {u : Bool} {p : Bool} {chk : Nat} (hfl : ([.TST_DATA_DATA, .TST_TAG_CHK, .TST_TAG_P, .TST_TAG_U] : List Fld) ⊆ fl) (hk : KeepsR s₀ s.regs fl) : KeepsR s₀ (tstShow s t data u p chk).regs fl := by
  unfold tstShow
  try dsimp only
  repeat' first
    | with_reducible exact hk
    | exact hfl (by decide)
    | with_reducible apply wr_k
    | with_reducible apply wrB_k
    | dsimp only

theorem tstRead_k {s : State} {t : Nat} (hfl : ([.ECC_CECNT_COUNT, .ECC_LOGSTAT_COUNT, .ECC_LOGSTAT_LOST, .ECC_LOGSTAT_OVF, .ECC_UECNT_COUNT, .ERR_LOG_ADDR, .ERR_LOG_DLY, .ERR_LOG_EPOCH, .ERR_LOG_KIND, .ERR_LOG_PUN, .ERR_LOG_SRC, .ERR_LOG_SYN, .ERR_LOG_VALID, .FLT_DROP_COUNT, .FLT_INJ_BUSY, .FLT_STAT_STAT, .TST_DATA_DATA, .TST_TAG_CHK, .TST_TAG_P, .TST_TAG_U, .X_CE_RAISED, .X_FQ_RUN, .X_INJ_LEFT, .X_LOG_ORD, .X_LOG_SEQ, .X_TST_OUT] : List Fld) ⊆ fl) (hk : KeepsR s₀ s.regs fl) : KeepsR s₀ (tstRead s t).regs fl := by
  unfold tstRead
  try dsimp only
  repeat' first
    | with_reducible exact hk
    | exact hfl (by decide)
    | exact List.Subset.trans (by decide) hfl
    | with_reducible apply wr_k
    | with_reducible apply incSat_k
    | with_reducible apply raise_k
    | with_reducible apply takeInj_k
    | with_reducible apply setT_k
    | with_reducible apply tstShow_k
    | with_reducible apply readWord_k
    | with_reducible apply touch_k
    | with_reducible apply logErr_k
    | with_reducible apply queueSoft_k
    | with_reducible apply ite_k
    | split
    | dsimp only

theorem tstReadraw_k {s : State} {t : Nat} (hfl : ([.TST_DATA_DATA, .TST_TAG_CHK, .TST_TAG_P, .TST_TAG_U, .X_TST_OUT] : List Fld) ⊆ fl) (hk : KeepsR s₀ s.regs fl) : KeepsR s₀ (tstReadraw s t).regs fl := by
  unfold tstReadraw
  try dsimp only
  repeat' first
    | with_reducible exact hk
    | exact hfl (by decide)
    | exact List.Subset.trans (by decide) hfl
    | with_reducible apply clr_k
    | with_reducible apply tstShow_k
    | with_reducible apply touch_k
    | dsimp only

theorem tstWrite_k {s : State} {t : Nat} {raw : Bool} (hfl : ([.X_TST_OUT] : List Fld) ⊆ fl) (hk : KeepsR s₀ s.regs fl) : KeepsR s₀ (tstWrite s t raw).regs fl := by
  unfold tstWrite
  try dsimp only
  repeat' first
    | with_reducible exact hk
    | exact hfl (by decide)
    | with_reducible apply clr_k
    | with_reducible apply setT_k
    | with_reducible apply touch_k
    | with_reducible apply ite_k
    | split
    | dsimp only

theorem tstCmd_k {s : State} {t : Nat} {v : Nat} (hfl : ([.ECC_CECNT_COUNT, .ECC_LOGSTAT_COUNT, .ECC_LOGSTAT_LOST, .ECC_LOGSTAT_OVF, .ECC_UECNT_COUNT, .ERR_LOG_ADDR, .ERR_LOG_DLY, .ERR_LOG_EPOCH, .ERR_LOG_KIND, .ERR_LOG_PUN, .ERR_LOG_SRC, .ERR_LOG_SYN, .ERR_LOG_VALID, .FLT_DROP_COUNT, .FLT_INJ_BUSY, .FLT_STAT_STAT, .TST_CMD_BUSY, .TST_CMD_RESULT, .TST_DATA_DATA, .TST_TAG_CHK, .TST_TAG_P, .TST_TAG_U, .X_CE_RAISED, .X_FQ_RUN, .X_INJ_LEFT, .X_LOG_ORD, .X_LOG_SEQ, .X_TST_OUT] : List Fld) ⊆ fl) (hk : KeepsR s₀ s.regs fl) : KeepsR s₀ (tstCmd s t v).regs fl := by
  unfold tstCmd
  try dsimp only
  repeat' first
    | with_reducible exact hk
    | exact hfl (by decide)
    | exact List.Subset.trans (by decide) hfl
    | with_reducible apply wr_k
    | with_reducible apply set_k
    | with_reducible apply tstRead_k
    | with_reducible apply tstWrite_k
    | with_reducible apply tstReadraw_k
    | with_reducible apply ite_k
    | split
    | dsimp only

theorem twrClr_k {s : State} {t : Nat} {v : Nat} (hfl : ([.TWR_CLRSTAT_BUSY, .TWR_CLRSTAT_DONE, .TWR_CLRSTAT_RESULT, .X_CLR_COUNT, .X_CLR_FIRST] : List Fld) ⊆ fl) (hk : KeepsR s₀ s.regs fl) : KeepsR s₀ (twrClr s t v).regs fl := by
  unfold twrClr
  try dsimp only
  repeat' first
    | with_reducible exact hk
    | exact hfl (by decide)
    | with_reducible apply wr_k
    | with_reducible apply set_k
    | with_reducible apply clr_k
    | with_reducible apply ite_k
    | split
    | dsimp only

theorem msixSend_k {s : State} {v : Nat} (hk : KeepsR s₀ s.regs fl) : KeepsR s₀ (msixSend s v).regs fl := by
  unfold msixSend
  try dsimp only
  repeat' first
    | with_reducible exact hk
    | with_reducible apply emit_k
    | with_reducible apply msix_k
    | with_reducible apply setWin_k
    | with_reducible apply ite_k
    | split
    | dsimp only

theorem msixWrite_k {s : State} {a : Nat} {v : Nat} (hk : KeepsR s₀ s.regs fl) : KeepsR s₀ (msixWrite s a v).regs fl := by
  unfold msixWrite
  try dsimp only
  repeat' first
    | with_reducible exact hk
    | with_reducible apply setWin_k
    | with_reducible apply msixSend_k
    | with_reducible apply setWins_k
    | with_reducible apply ite_k
    | split
    | dsimp only

theorem setI_k {s : State} {g : Nat} {w : Nat} {v : Word} (hk : KeepsR s₀ s.regs fl) : KeepsR s₀ (State.setI s g w v).regs fl := by
  unfold State.setI
  try dsimp only
  repeat' first
    | with_reducible exact hk
    | dsimp only

theorem setD_k {s : State} {g : Nat} {w : Nat} {v : Word} (hk : KeepsR s₀ s.regs fl) : KeepsR s₀ (State.setD s g w v).regs fl := by
  unfold State.setD
  try dsimp only
  repeat' first
    | with_reducible exact hk
    | dsimp only

theorem ltEmit_k {s : State} {t : Nat} {o : Out} (hk : KeepsR s₀ s.regs fl) : KeepsR s₀ (ltEmit s t o).regs fl := by
  unfold ltEmit
  try dsimp only
  repeat' first
    | with_reducible exact hk
    | with_reducible apply emitTx_k
    | dsimp only

theorem ltReturn_k {s : State} {t : Nat} {fc : Nat} {h : Nat} {d : Nat} (hfl : ([.X_LT_DC, .X_LT_HC] : List Fld) ⊆ fl) (hk : KeepsR s₀ s.regs fl) : KeepsR s₀ (ltReturn s t fc h d).regs fl := by
  unfold ltReturn
  try dsimp only
  repeat' first
    | with_reducible exact hk
    | exact hfl (by decide)
    | with_reducible apply incWrap_k
    | with_reducible apply ltEmit_k
    | with_reducible apply ite_k
    | split
    | dsimp only

theorem calStart_k {s : State} {x : Nat} (hfl : ([.CAL_LSTAT_CONSEC, .CAL_LSTAT_STATE, .X_CAL_AGREE, .X_CAL_LATER, .X_CAL_PASS, .X_CAL_ST, .X_CAL_START, .X_CAL_STEP] : List Fld) ⊆ fl) (hk : KeepsR s₀ s.regs fl) : KeepsR s₀ (calStart s x).regs fl := by
  unfold calStart
  try dsimp only
  repeat' first
    | with_reducible exact hk
    | exact hfl (by decide)
    | exact List.Subset.trans (by decide) hfl
    | with_reducible apply wr_k
    | with_reducible apply calRewind_k
    | with_reducible apply calSet_k
    | dsimp only

theorem calEnd_k {s : State} {x : Nat} {rounds : Nat} (hfl : ([.CAL_LSTAT_CONSEC, .CAL_LSTAT_STATE, .X_CAL_AGREE, .X_CAL_LATER, .X_CAL_PASS, .X_CAL_RQ, .X_CAL_ST, .X_CAL_STEP] : List Fld) ⊆ fl) (hk : KeepsR s₀ s.regs fl) : KeepsR s₀ (calEnd s x rounds).regs fl := by
  unfold calEnd
  try dsimp only
  repeat' first
    | with_reducible exact hk
    | exact hfl (by decide)
    | exact List.Subset.trans (by decide) hfl
    | with_reducible apply wr_k
    | with_reducible apply calRewind_k
    | with_reducible apply calSet_k
    | dsimp only

theorem calFail_k {s : State} {x : Nat} {slice : Nat} (hfl : ([.CAL_LCNT_FAILS, .CAL_LSTAT_CONSEC, .CAL_LSTAT_STATE, .FLT_DROP_COUNT, .FLT_STAT_STAT, .X_CAL_AGREE, .X_CAL_CONS, .X_CAL_LATER, .X_CAL_PASS, .X_CAL_RQ, .X_CAL_ST, .X_CAL_STEP, .X_FQ_RUN] : List Fld) ⊆ fl) (hk : KeepsR s₀ s.regs fl) : KeepsR s₀ (calFail s x slice).regs fl := by
  unfold calFail
  try dsimp only
  repeat' first
    | with_reducible exact hk
    | exact hfl (by decide)
    | exact List.Subset.trans (by decide) hfl
    | with_reducible apply wr_k
    | with_reducible apply incSat_k
    | with_reducible apply calEnd_k
    | with_reducible apply rxEvent_k
    | with_reducible apply calRewind_k
    | with_reducible apply calSet_k
    | with_reducible apply ite_k
    | split
    | dsimp only

theorem sliceRetire_k {s : State} {x : Nat} {i : Nat} (hfl : ([.CAL_LSTAT_CONSEC, .CAL_LSTAT_NOSHADOW_A, .CAL_LSTAT_NOSHADOW_B, .CAL_LSTAT_STATE, .CAL_SLC_ROLE, .FLT_DROP_COUNT, .FLT_STAT_STAT, .QUAL_BER_STALE, .TX_FIRACT_ACT, .XCVR_STAT_RXTERM, .XCVR_STAT_SSCACT, .XCVR_STAT_TXCLK, .XCVR_STAT_TXIDLE, .X_CAL_AGREE, .X_CAL_LATER, .X_CAL_PASS, .X_CAL_ST, .X_CAL_STEP, .X_FQ_RUN, .X_QW_CUT, .X_SSC_EFF] : List Fld) ⊆ fl) (hk : KeepsR s₀ s.regs fl) : KeepsR s₀ (sliceRetire s x i).regs fl := by
  unfold sliceRetire
  try dsimp only
  repeat' first
    | with_reducible exact hk
    | exact hfl (by decide)
    | exact hfl (by unfold noShadowFld; split <;> decide)
    | exact List.Subset.trans (by decide) hfl
    | with_reducible apply wr_k
    | with_reducible apply set_k
    | with_reducible apply refreshPort_k
    | with_reducible apply calRewind_k
    | with_reducible apply rxEvent_k
    | with_reducible apply calSet_k
    | with_reducible apply ite_k
    | split
    | dsimp only

theorem calDone_k {s : State} {x : Nat} (hfl : ([.CAL_LCNT_RUNS, .CAL_LSTAT_CONSEC, .CAL_LSTAT_STATE, .CAL_LSTAT_TLAST_A, .CAL_LSTAT_TLAST_B, .X_CAL_AGREE, .X_CAL_CONS, .X_CAL_LATER, .X_CAL_PASS, .X_CAL_ST, .X_CAL_STEP] : List Fld) ⊆ fl) (hk : KeepsR s₀ s.regs fl) : KeepsR s₀ (calDone s x).regs fl := by
  unfold calDone
  try dsimp only
  repeat' first
    | with_reducible exact hk
    | exact hfl (by decide)
    | exact hfl (by unfold tlastFld; split <;> decide)
    | exact List.Subset.trans (by decide) hfl
    | with_reducible apply wr_k
    | with_reducible apply clr_k
    | with_reducible apply incSat_k
    | with_reducible apply calRewind_k
    | with_reducible apply calSet_k
    | dsimp only

theorem calSwapDo_k {s : State} {x : Nat} (hfl : ([.CAL_LCNT_RUNS, .CAL_LSTAT_CONSEC, .CAL_LSTAT_STATE, .CAL_LSTAT_TLAST_A, .CAL_LSTAT_TLAST_B, .CAL_OFS_OFS, .CAL_SLC_GAIN, .CAL_SLC_PAIR, .CAL_SLC_ROLE, .X_CAL_AGREE, .X_CAL_CONS, .X_CAL_LATER, .X_CAL_PASS, .X_CAL_ST, .X_CAL_STEP] : List Fld) ⊆ fl) (hk : KeepsR s₀ s.regs fl) : KeepsR s₀ (calSwapDo s x).regs fl := by
  unfold calSwapDo
  try dsimp only
  repeat' first
    | with_reducible exact hk
    | exact hfl (by decide)
    | exact List.Subset.trans (by decide) hfl
    | with_reducible apply wr_k
    | with_reducible apply clr_k
    | with_reducible apply setTrim_k
    | with_reducible apply calDone_k
    | with_reducible apply ite_k
    | split
    | dsimp only

theorem calLater_k {s : State} {p : Nat} (hfl : ([.CAL_LCNT_RUNS, .CAL_LSTAT_CONSEC, .CAL_LSTAT_STATE, .CAL_LSTAT_TLAST_A, .CAL_LSTAT_TLAST_B, .CAL_OFS_OFS, .CAL_SLC_GAIN, .CAL_SLC_PAIR, .CAL_SLC_ROLE, .X_CAL_AGREE, .X_CAL_CONS, .X_CAL_LATER, .X_CAL_PASS, .X_CAL_ST, .X_CAL_STEP, .X_SWITCHED] : List Fld) ⊆ fl) (hk : KeepsR s₀ s.regs fl) : KeepsR s₀ (calLater s p).regs fl := by
  unfold calLater
  try dsimp only
  repeat' first
    | with_reducible exact hk
    | exact hfl (by decide)
    | exact List.Subset.trans (by decide) hfl
    | with_reducible apply clr_k
    | with_reducible apply calSwapDo_k
    | with_reducible apply ite_k
    | split
    | dsimp only

theorem wbEnd_k {s : State} {differs : Bool} (hfl : ([.CAL_CMD_RESULT, .CAL_STAT_COPY, .CAL_STAT_WBBUSY, .FLT_DROP_COUNT, .FLT_STAT_STAT, .NVM_WEAR0_WRITES, .NVM_WEAR1_WRITES, .X_FQ_RUN] : List Fld) ⊆ fl) (hk : KeepsR s₀ s.regs fl) : KeepsR s₀ (wbEnd s differs).regs fl := by
  unfold wbEnd
  try dsimp only
  repeat' first
    | with_reducible exact hk
    | exact hfl (by decide)
    | exact hfl (by unfold wearFld; split <;> decide)
    | exact List.Subset.trans (by decide) hfl
    | with_reducible apply wr_k
    | with_reducible apply clr_k
    | with_reducible apply incWrap_k
    | with_reducible apply setNvms_k
    | with_reducible apply raise_k
    | with_reducible apply ite_k
    | split
    | dsimp only

theorem fgPort_k {s : State} {x : Nat} {t : PortTrim} (hfl : ([.CAL_LIN_LIN, .CAL_OFS_OFS, .CAL_SLC_GAIN, .CAL_SLC_PAIR, .CAL_TX_Z, .FLT_DROP_COUNT, .FLT_STAT_STAT, .X_FQ_RUN] : List Fld) ⊆ fl) (hk : KeepsR s₀ s.regs fl) : KeepsR s₀ (fgPort s x t).regs fl := by
  unfold fgPort
  try dsimp only
  repeat' first
    | with_reducible exact hk
    | exact hfl (by decide)
    | exact List.Subset.trans (by decide) hfl
    | with_reducible apply wr_k
    | with_reducible apply setTrim_k
    | with_reducible apply rxEvent_k
    | with_reducible refine each_k ?_ (fun s a hk => ?_)
    | split
    | dsimp only

theorem calResume_k {s : State} {x : Nat} (hfl : ([.CAL_LSTAT_CONSEC, .CAL_LSTAT_STATE, .X_CAL_ST] : List Fld) ⊆ fl) (hk : KeepsR s₀ s.regs fl) : KeepsR s₀ (calResume s x).regs fl := by
  unfold calResume
  try dsimp only
  repeat' first
    | with_reducible exact hk
    | exact List.Subset.trans (by decide) hfl
    | with_reducible apply calSet_k
    | with_reducible apply ite_k
    | split
    | dsimp only

theorem capOn_k {s : State} {p : Nat} {pos : Nat} (hfl : ([.PUN_DISC_COUNT, .STRM_CFG_ON, .X_CAP_FROM] : List Fld) ⊆ fl) (hk : KeepsR s₀ s.regs fl) : KeepsR s₀ (capOn s p pos).regs fl := by
  unfold capOn
  try dsimp only
  repeat' first
    | with_reducible exact hk
    | exact hfl (by decide)
    | exact List.Subset.trans (by decide) hfl
    | with_reducible apply wr_k
    | with_reducible apply set_k
    | with_reducible apply eventRec_k
    | with_reducible apply linkBytes_k
    | with_reducible apply ite_k
    | split
    | dsimp only

theorem capDo_k {p : Nat} {pos : Nat} {s : State} {a : CapAct} (hfl : ([.PUN_DISC_COUNT, .STRM_CFG_ON, .X_CAP_FROM] : List Fld) ⊆ fl) (hk : KeepsR s₀ s.regs fl) : KeepsR s₀ (capDo p pos s a).regs fl := by
  unfold capDo
  try dsimp only
  repeat' first
    | with_reducible exact hk
    | exact List.Subset.trans (by decide) hfl
    | with_reducible apply capOff_k
    | with_reducible apply capOn_k
    | split
    | dsimp only

theorem capMark_k {p : Nat} {pos : Nat} {stamp : Nat} {valid : Bool} {s : State} {a : CapAct} (hfl : ([.PUN_DISC_COUNT] : List Fld) ⊆ fl) (hk : KeepsR s₀ s.regs fl) : KeepsR s₀ (capMark p pos stamp valid s a).regs fl := by
  unfold capMark
  try dsimp only
  repeat' first
    | with_reducible exact hk
    | exact List.Subset.trans (by decide) hfl
    | with_reducible apply stageRecs_k
    | with_reducible apply ite_k
    | split
    | dsimp only

theorem capCancelUntapped_k {s : State} {p : Nat} {pos : Nat} {stamp : Nat} (hfl : ([.FLT_DROP_COUNT, .FLT_STAT_STAT, .PUN_DISC_COUNT, .SEQ_ACNT_CANCEL, .STRM_CFG_PEND, .X_FQ_RUN] : List Fld) ⊆ fl) (hk : KeepsR s₀ s.regs fl) : KeepsR s₀ (capCancelUntapped s p pos stamp).regs fl := by
  unfold capCancelUntapped
  try dsimp only
  repeat' first
    | with_reducible exact hk
    | exact List.Subset.trans (by decide) hfl
    | with_reducible apply setStrm_k
    | with_reducible apply cancelAction_k
    | with_reducible apply pendCount_k
    | with_reducible refine foldl_k ?_ (fun s a hk => ?_)
    | with_reducible refine foldl_k2 ?_ (fun s a hk => ?_)
    | with_reducible apply ite_k
    | split
    | dsimp only

theorem applyCaps_k {s : State} {p : Nat} {pos : Nat} {stamp : Nat} {valid : Bool} (hfl : ([.FLT_DROP_COUNT, .FLT_STAT_STAT, .MATCH_STAT_ACTSKIP, .PUN_DISC_COUNT, .SEQ_ACNT_CANCEL, .STRM_CFG_ON, .STRM_CFG_PEND, .X_CAP_FROM, .X_FQ_RUN] : List Fld) ⊆ fl) (hk : KeepsR s₀ s.regs fl) : KeepsR s₀ (applyCaps s p pos stamp valid).regs fl := by
  unfold applyCaps
  try dsimp only
  repeat' first
    | with_reducible exact hk
    | exact hfl (by decide)
    | exact List.Subset.trans (by decide) hfl
    | with_reducible apply set_k
    | with_reducible apply capOn_k
    | with_reducible apply capOff_k
    | with_reducible apply capMark_k
    | with_reducible apply setStrm_k
    | with_reducible apply capDo_k
    | with_reducible apply capCancelUntapped_k
    | with_reducible apply pendCount_k
    | with_reducible refine foldl_k ?_ (fun s a hk => ?_)
    | with_reducible refine foldl_k2 ?_ (fun s a hk => ?_)
    | with_reducible apply ite_k
    | split
    | dsimp only

theorem brefChoose_k {s : State} (hfl : ([.CLK_SEL_BREF, .X_BREF_SET] : List Fld) ⊆ fl) (hk : KeepsR s₀ s.regs fl) : KeepsR s₀ (brefChoose s).regs fl := by
  unfold brefChoose
  try dsimp only
  repeat' first
    | with_reducible exact hk
    | exact hfl (by decide)
    | with_reducible apply set_k
    | with_reducible apply wrB_k
    | dsimp only

theorem stopLoads_k {s : State} {ts : List Nat} (hfl : ([.CAL_SLC_ROLE, .QUAL_BER_STALE, .TX_FIRACT_ACT, .XCVR_STAT_RXTERM, .XCVR_STAT_SSCACT, .XCVR_STAT_TXCLK, .XCVR_STAT_TXIDLE, .X_PATH_STOPPED, .X_QW_CUT, .X_SSC_EFF] : List Fld) ⊆ fl) (hk : KeepsR s₀ s.regs fl) : KeepsR s₀ (stopLoads s ts).regs fl := by
  unfold stopLoads
  try dsimp only
  repeat' first
    | with_reducible exact hk
    | exact hfl (by decide)
    | exact List.Subset.trans (by decide) hfl
    | with_reducible apply set_k
    | with_reducible apply emit_k
    | with_reducible apply refreshPath_k
    | with_reducible refine each_k ?_ (fun s a hk => ?_)
    | dsimp only

theorem towerForced_k {s : State} {t : Nat} (hfl : ([.CH_STAT_STATE, .TWR_STAT_STATE] : List Fld) ⊆ fl) (hk : KeepsR s₀ s.regs fl) : KeepsR s₀ (towerForced s t).regs fl := by
  unfold towerForced
  try dsimp only
  repeat' first
    | with_reducible exact hk
    | exact hfl (by decide)
    | with_reducible apply wr_k
    | with_reducible refine each_k ?_ (fun s a hk => ?_)
    | with_reducible apply ite_k
    | split
    | dsimp only

theorem quadFail_k {s : State} {q : Nat} (hfl : ([.CAL_LSTAT_CONSEC, .CAL_LSTAT_STATE, .CAL_SLC_ROLE, .CLK_FAIL_FAIL, .CLK_GPEND_GATE_PEND, .CLK_STAT_QRDY, .FLT_DROP_COUNT, .FLT_STAT_STAT, .QUAL_BER_STALE, .TX_FIRACT_ACT, .XCVR_STAT_RXTERM, .XCVR_STAT_SSCACT, .XCVR_STAT_TXCLK, .XCVR_STAT_TXIDLE, .X_CAL_AGREE, .X_CAL_LATER, .X_CAL_PASS, .X_CAL_RQ, .X_CAL_ST, .X_CAL_STEP, .X_FQ_RUN, .X_QW_CUT, .X_SSC_EFF] : List Fld) ⊆ fl) (hk : KeepsR s₀ s.regs fl) : KeepsR s₀ (quadFail s q).regs fl := by
  unfold quadFail
  try dsimp only
  repeat' first
    | with_reducible exact hk
    | exact hfl (by decide)
    | exact List.Subset.trans (by decide) hfl
    | with_reducible apply wrBit_k
    | with_reducible apply emit_k
    | with_reducible apply raiseCause_k
    | with_reducible apply calDrop_k
    | with_reducible apply refreshPort_k
    | with_reducible apply markFailed_k
    | with_reducible refine each_k ?_ (fun s a hk => ?_)
    | with_reducible apply ite_k
    | split
    | dsimp only

theorem earlyFail_k {s : State} (hfl : ([.CLK_STAT_TRDY, .DEV_STATE_CLKFAIL_EARLY, .DEV_STATE_STATE, .FLT_DROP_COUNT, .FLT_STAT_STAT, .PUN_DISC_COUNT, .TB_STAT_LOST, .TB_STAT_SLEW, .TB_STAT_VALID, .VIN_PSTAT_STATE, .XCVR_STAT_RXTERM, .XCVR_STAT_TXIDLE, .X_EPF_OK, .X_EXCH, .X_FQ_RUN, .X_SLEW_LEFT, .X_TREF_ACQ, .X_TREF_BAD, .X_TREF_DIS] : List Fld) ⊆ fl) (hk : KeepsR s₀ s.regs fl) : KeepsR s₀ (earlyFail s).regs fl := by
  unfold earlyFail
  try dsimp only
  repeat' first
    | with_reducible exact hk
    | exact hfl (by decide)
    | exact List.Subset.trans (by decide) hfl
    | with_reducible apply wr_k
    | with_reducible apply set_k
    | with_reducible apply clr_k
    | with_reducible apply vineIdle_k
    | with_reducible refine each_k ?_ (fun s a hk => ?_)
    | dsimp only

theorem hclkFail_k {s : State} (hfl : ([.CLK_STAT_FALLBACK, .CLK_STAT_TRDY, .DEV_STATE_CLKFAIL_EARLY, .DEV_STATE_STATE, .FLT_DROP_COUNT, .FLT_STAT_STAT, .PUN_DISC_COUNT, .TB_STAT_LOST, .TB_STAT_SLEW, .TB_STAT_VALID, .VIN_PSTAT_STATE, .XCVR_STAT_RXTERM, .XCVR_STAT_TXIDLE, .X_EPF_OK, .X_EXCH, .X_FQ_RUN, .X_SLEW_LEFT, .X_TREF_ACQ, .X_TREF_BAD, .X_TREF_DIS] : List Fld) ⊆ fl) (hk : KeepsR s₀ s.regs fl) : KeepsR s₀ (hclkFail s).regs fl := by
  unfold hclkFail
  try dsimp only
  repeat' first
    | with_reducible exact hk
    | exact hfl (by decide)
    | exact List.Subset.trans (by decide) hfl
    | with_reducible apply set_k
    | with_reducible apply earlyFail_k
    | with_reducible apply raiseCause_k
    | with_reducible apply ite_k
    | split
    | dsimp only

theorem coreFail_k {s : State} (hfl : ([.CAL_SLC_ROLE, .CH_STAT_STATE, .CLK_FAIL_FAIL, .CLK_GPEND_GATE_PEND, .CLK_SEL_HSRC, .CLK_STAT_CPLLRDY, .CLK_STAT_FALLBACK, .CLK_STAT_MRDY, .CLK_STAT_SWBUSY, .CLK_STAT_TRDY, .DEV_STATE_CLKFAIL_EARLY, .DEV_STATE_STATE, .FLT_DROP_COUNT, .FLT_STAT_STAT, .PUN_DISC_COUNT, .QUAL_BER_STALE, .TB_STAT_LOST, .TB_STAT_SLEW, .TB_STAT_VALID, .TWR_STAT_STATE, .TX_FIRACT_ACT, .VIN_PSTAT_STATE, .XCVR_STAT_RXTERM, .XCVR_STAT_SSCACT, .XCVR_STAT_TXCLK, .XCVR_STAT_TXIDLE, .X_EPF_OK, .X_EXCH, .X_FQ_RUN, .X_HSW, .X_PATH_STOPPED, .X_QW_CUT, .X_SLEW_LEFT, .X_SSC_EFF, .X_TREF_ACQ, .X_TREF_BAD, .X_TREF_DIS] : List Fld) ⊆ fl) (hk : KeepsR s₀ s.regs fl) : KeepsR s₀ (coreFail s).regs fl := by
  unfold coreFail
  try dsimp only
  repeat' first
    | with_reducible exact hk
    | exact hfl (by decide)
    | exact List.Subset.trans (by decide) hfl
    | with_reducible apply set_k
    | with_reducible apply clr_k
    | with_reducible apply vineIdle_k
    | with_reducible apply raiseCause_k
    | with_reducible apply towerForced_k
    | with_reducible apply hclkFail_k
    | with_reducible apply stopLoads_k
    | with_reducible apply markFailed_k
    | with_reducible apply ite_k
    | split
    | dsimp only

theorem refGone_k {s : State} {ref : Nat} (hfl : ([.X_REF_DONE, .X_REF_PRES] : List Fld) ⊆ fl) (hk : KeepsR s₀ s.regs fl) : KeepsR s₀ (refGone s ref).regs fl := by
  unfold refGone
  try dsimp only
  repeat' first
    | with_reducible exact hk
    | exact hfl (by decide)
    | with_reducible apply wrBit_k
    | dsimp only

theorem mpllFail_k {s : State} {t : Nat} (hfl : ([.CAL_SLC_ROLE, .CH_STAT_STATE, .CLK_FAIL_FAIL, .CLK_GPEND_GATE_PEND, .CLK_STAT_MRDY, .FLT_DROP_COUNT, .FLT_STAT_STAT, .QUAL_BER_STALE, .TWR_STAT_STATE, .TX_FIRACT_ACT, .XCVR_STAT_RXTERM, .XCVR_STAT_SSCACT, .XCVR_STAT_TXCLK, .XCVR_STAT_TXIDLE, .X_FQ_RUN, .X_PATH_STOPPED, .X_QW_CUT, .X_SSC_EFF] : List Fld) ⊆ fl) (hk : KeepsR s₀ s.regs fl) : KeepsR s₀ (mpllFail s t).regs fl := by
  unfold mpllFail
  try dsimp only
  repeat' first
    | with_reducible exact hk
    | exact hfl (by decide)
    | exact List.Subset.trans (by decide) hfl
    | with_reducible apply wrBit_k
    | with_reducible apply raiseCause_k
    | with_reducible apply stopLoads_k
    | with_reducible apply towerForced_k
    | with_reducible apply markFailed_k
    | dsimp only

theorem fpllFail_k {s : State} (hfl : ([.CAL_SLC_ROLE, .CLK_FAIL_FAIL, .CLK_GPEND_GATE_PEND, .FLT_DROP_COUNT, .FLT_STAT_STAT, .QUAL_BER_STALE, .TX_FIRACT_ACT, .XCVR_STAT_RXTERM, .XCVR_STAT_SSCACT, .XCVR_STAT_TXCLK, .XCVR_STAT_TXIDLE, .X_FQ_RUN, .X_PATH_STOPPED, .X_QW_CUT, .X_SSC_EFF] : List Fld) ⊆ fl) (hk : KeepsR s₀ s.regs fl) : KeepsR s₀ (fpllFail s).regs fl := by
  unfold fpllFail
  try dsimp only
  repeat' first
    | with_reducible exact hk
    | exact List.Subset.trans (by decide) hfl
    | with_reducible apply markFailed_k
    | with_reducible apply stopLoads_k
    | with_reducible apply raiseCause_k
    | dsimp only

theorem npllFail_k {s : State} (hfl : ([.CLK_FAIL_FAIL, .CLK_GPEND_GATE_PEND, .CLK_STAT_TRDY, .FLT_DROP_COUNT, .FLT_STAT_STAT, .PUN_DISC_COUNT, .TB_STAT_LOST, .TB_STAT_SLEW, .TB_STAT_VALID, .VIN_PSTAT_STATE, .X_EPF_OK, .X_EXCH, .X_FQ_RUN, .X_SLEW_LEFT, .X_TREF_ACQ, .X_TREF_BAD, .X_TREF_DIS] : List Fld) ⊆ fl) (hk : KeepsR s₀ s.regs fl) : KeepsR s₀ (npllFail s).regs fl := by
  unfold npllFail
  try dsimp only
  repeat' first
    | with_reducible exact hk
    | exact List.Subset.trans (by decide) hfl
    | with_reducible apply vineIdle_k
    | with_reducible apply markFailed_k
    | with_reducible apply raiseCause_k
    | dsimp only

theorem cellSend_k {q : Nat} {s : State} {b : List Byte} (hk : KeepsR s₀ s.regs fl) : KeepsR s₀ (cellSend q s b).regs fl := by
  unfold cellSend
  try dsimp only
  repeat' first
    | with_reducible exact hk
    | with_reducible apply emit_k
    | with_reducible apply ite_k
    | split
    | dsimp only

theorem trainRec_k {s : State} {p : Nat} {state : Nat} {corr : Nat} {unc : Nat} {sym : Nat} (hfl : ([.PUN_DISC_COUNT] : List Fld) ⊆ fl) (hk : KeepsR s₀ s.regs fl) : KeepsR s₀ (trainRec s p state corr unc sym).regs fl := by
  unfold trainRec
  try dsimp only
  repeat' first
    | with_reducible exact hk
    | exact List.Subset.trans (by decide) hfl
    | with_reducible apply stageRecs_k
    | with_reducible apply ite_k
    | split
    | dsimp only

theorem setPkt_k {s : State} {g : Nat} {h : Nat} {v : Option Pkt} (hk : KeepsR s₀ s.regs fl) : KeepsR s₀ (State.setPkt s g h v).regs fl := by
  unfold State.setPkt
  try dsimp only
  repeat' first
    | with_reducible exact hk
    | dsimp only

theorem ringPut_k {s : State} {g : Nat} {base : Nat} {size : Nat} {ws : List Nat} (hk : KeepsR s₀ s.regs fl) : KeepsR s₀ (ringPut s g base size ws).regs fl := by
  unfold ringPut
  try dsimp only
  repeat' first
    | with_reducible exact hk
    | with_reducible apply setD_k
    | with_reducible refine each_k ?_ (fun s a hk => ?_)
    | dsimp only

theorem freeHandle_k {s : State} {g : Nat} {h : Nat} (hfl : ([.X_LT_DC, .X_LT_HC] : List Fld) ⊆ fl) (hk : KeepsR s₀ s.regs fl) : KeepsR s₀ (freeHandle s g h).regs fl := by
  unfold freeHandle
  try dsimp only
  repeat' first
    | with_reducible exact hk
    | exact List.Subset.trans (by decide) hfl
    | with_reducible apply ltReturn_k
    | with_reducible apply setPkt_k
    | split
    | dsimp only

theorem txAdvance_k {s : State} {t : Nat} (hk : KeepsR s₀ s.regs fl) : KeepsR s₀ (txAdvance s t).regs fl := by
  unfold txAdvance
  try dsimp only
  repeat' first
    | with_reducible exact hk
    | with_reducible apply setD_k
    | dsimp only

theorem txName_k {s : State} {g : Nat} {h : Nat} (hk : KeepsR s₀ s.regs fl) : KeepsR s₀ (txName s g h).regs fl := by
  unfold txName
  try dsimp only
  repeat' first
    | with_reducible exact hk
    | with_reducible apply setPkt_k
    | split
    | dsimp only

theorem txSend_k {s : State} {t : Nat} {typ : Nat} {d : TxDesc} {l : List Byte} (hfl : ([.X_LT_SEQ] : List Fld) ⊆ fl) (hk : KeepsR s₀ s.regs fl) : KeepsR s₀ (txSend s t typ d l).regs fl := by
  unfold txSend
  try dsimp only
  repeat' first
    | with_reducible exact hk
    | exact hfl (by decide)
    | with_reducible apply wr_k
    | with_reducible apply txName_k
    | with_reducible apply ltEmit_k
    | with_reducible apply ite_k
    | split
    | dsimp only

theorem txTlp_k {s : State} {t : Nat} {d : TxDesc} {l : List Byte} (hfl : ([.X_LT_CD, .X_LT_CH, .X_LT_SEQ] : List Fld) ⊆ fl) (hk : KeepsR s₀ s.regs fl) : KeepsR s₀ (txTlp s t d l).regs fl := by
  unfold txTlp
  try dsimp only
  repeat' first
    | with_reducible exact hk
    | exact hfl (by decide)
    | exact List.Subset.trans (by decide) hfl
    | with_reducible apply incWrap_k
    | with_reducible apply txSend_k
    | dsimp only

theorem pchkUnit_k {s : State} {p : Nat} {ui : Nat} {bad : List Nat} (hfl : ([.PATH_PCHK_ERRS, .PATH_PCHK_LOCK, .X_PCHK_RUN] : List Fld) ⊆ fl) (hk : KeepsR s₀ s.regs fl) : KeepsR s₀ (pchkUnit s p ui bad).regs fl := by
  unfold pchkUnit
  try dsimp only
  repeat' first
    | with_reducible exact hk
    | exact hfl (by decide)
    | with_reducible apply wr_k
    | with_reducible apply wrB_k
    | with_reducible apply incSat_k
    | with_reducible refine foldl_k ?_ (fun s a hk => ?_)
    | with_reducible refine foldl_k2 ?_ (fun s a hk => ?_)
    | with_reducible apply ite_k
    | split
    | dsimp only

theorem f5CapEnter_k {s : State} {p : Nat} {pos : Nat} (hfl : ([.F5_STAT_CAPERR, .PUN_DISC_COUNT, .STRM_CFG_ON, .X_CAP_FROM] : List Fld) ⊆ fl) (hk : KeepsR s₀ s.regs fl) : KeepsR s₀ (f5CapEnter s p pos).regs fl := by
  unfold f5CapEnter
  try dsimp only
  repeat' first
    | with_reducible exact hk
    | exact hfl (by decide)
    | exact List.Subset.trans (by decide) hfl
    | with_reducible apply set_k
    | with_reducible apply capOn_k
    | with_reducible apply ite_k
    | split
    | dsimp only

theorem f5CapLeave_k {s : State} {p : Nat} {pos : Nat} {new : Nat} (hfl : ([.PUN_DISC_COUNT, .STRM_CFG_ON] : List Fld) ⊆ fl) (hk : KeepsR s₀ s.regs fl) : KeepsR s₀ (f5CapLeave s p pos new).regs fl := by
  unfold f5CapLeave
  try dsimp only
  repeat' first
    | with_reducible exact hk
    | exact List.Subset.trans (by decide) hfl
    | with_reducible apply capOff_k
    | with_reducible apply ite_k
    | split
    | dsimp only

theorem dlyEnter_k {s : State} {p : Nat} (hfl : ([.PATH_DLYSTAT_FILL, .X_DLY_CNT, .X_DLY_EFF, .X_DLY_IN, .X_DLY_LO] : List Fld) ⊆ fl) (hk : KeepsR s₀ s.regs fl) : KeepsR s₀ (dlyEnter s p).regs fl := by
  unfold dlyEnter
  try dsimp only
  repeat' first
    | with_reducible exact hk
    | exact hfl (by decide)
    | exact List.Subset.trans (by decide) hfl
    | with_reducible apply wr_k
    | with_reducible apply wrB_k
    | with_reducible apply dlyEmpty_k
    | with_reducible refine each_k ?_ (fun s a hk => ?_)
    | dsimp only

theorem genWaits_k {s : State} {p : Nat} (hk : KeepsR s₀ s.regs fl) : KeepsR s₀ (genWaits s p).regs fl := by
  unfold genWaits
  try dsimp only
  repeat' first
    | with_reducible exact hk
    | with_reducible apply setWait_k
    | with_reducible refine each_k ?_ (fun s a hk => ?_)
    | with_reducible apply ite_k
    | split
    | dsimp only

theorem posZero_k {s : State} {p : Nat} (hfl : ([.PATH_POS_GEN, .PATH_POS_POS, .PUN_DISC_COUNT] : List Fld) ⊆ fl) (hk : KeepsR s₀ s.regs fl) : KeepsR s₀ (posZero s p).regs fl := by
  unfold posZero
  try dsimp only
  repeat' first
    | with_reducible exact hk
    | exact hfl (by decide)
    | exact List.Subset.trans (by decide) hfl
    | with_reducible apply clr_k
    | with_reducible apply incWrap_k
    | with_reducible apply eventRec_k
    | with_reducible apply genWaits_k
    | with_reducible refine each_k ?_ (fun s a hk => ?_)
    | dsimp only

theorem modeEvent_k {s : State} {p : Nat} {pos : Nat} {old : Nat} {new : Nat} (hfl : ([.PUN_DISC_COUNT] : List Fld) ⊆ fl) (hk : KeepsR s₀ s.regs fl) : KeepsR s₀ (modeEvent s p pos old new).regs fl := by
  unfold modeEvent
  try dsimp only
  repeat' first
    | with_reducible exact hk
    | exact List.Subset.trans (by decide) hfl
    | with_reducible apply eventRec_k
    | dsimp only

theorem applyClean_k {p : Nat} {us : List SendUnit} {u : HeldUnit} {s : State} {e : Nat} (hfl : ([.FLT_DROP_COUNT, .FLT_STAT_STAT, .INJ_ENT_INFO_STATE, .INJ_LOG_ENTRY, .INJ_LOG_OUTCOME, .INJ_LOG_PATH, .INJ_LOG_POS, .INJ_LOG_SRC_SOURCE, .INJ_STAT_FREE, .INJ_STAT_LOST, .INJ_STAT_WIDX, .PUN_DISC_COUNT, .SEQ_ACNT_CANCEL, .X_CW_CLEAN, .X_FQ_RUN, .X_INJ_LOGN] : List Fld) ⊆ fl) (hk : KeepsR s₀ s.regs fl) : KeepsR s₀ (applyClean p us u s e).regs fl := by
  unfold applyClean
  try dsimp only
  repeat' first
    | with_reducible exact hk
    | exact hfl (by decide)
    | exact List.Subset.trans (by decide) hfl
    | with_reducible apply wr_k
    | with_reducible apply emit_k
    | with_reducible apply injDone_k
    | with_reducible apply ite_k
    | split
    | dsimp only

theorem supersede_k {s : State} {pos : Nat} {es : List Nat} (hfl : ([.FLT_DROP_COUNT, .FLT_STAT_STAT, .INJ_ENT_INFO_STATE, .INJ_LOG_ENTRY, .INJ_LOG_OUTCOME, .INJ_LOG_PATH, .INJ_LOG_POS, .INJ_LOG_SRC_SOURCE, .INJ_STAT_FREE, .INJ_STAT_LOST, .INJ_STAT_WIDX, .PUN_DISC_COUNT, .SEQ_ACNT_CANCEL, .X_FQ_RUN, .X_INJ_LOGN] : List Fld) ⊆ fl) (hk : KeepsR s₀ s.regs fl) : KeepsR s₀ (supersede s pos es).regs fl := by
  unfold supersede
  try dsimp only
  repeat' first
    | with_reducible exact hk
    | exact List.Subset.trans (by decide) hfl
    | with_reducible apply injDone_k
    | with_reducible refine foldl_k ?_ (fun s a hk => ?_)
    | with_reducible refine foldl_k2 ?_ (fun s a hk => ?_)
    | dsimp only

theorem noteClean_k {s : State} {p : Nat} {u : HeldUnit} (hk : KeepsR s₀ s.regs fl) : KeepsR s₀ (noteClean s p u).regs fl := by
  unfold noteClean
  try dsimp only
  repeat' first
    | with_reducible exact hk
    | with_reducible apply emit_k
    | with_reducible apply ite_k
    | split
    | dsimp only

theorem startBursts_k {s : State} {p : Nat} {u : HeldUnit} (hfl : ([.FLT_DROP_COUNT, .FLT_STAT_STAT, .INJ_ENT_INFO_STATE, .INJ_LOG_ENTRY, .INJ_LOG_OUTCOME, .INJ_LOG_PATH, .INJ_LOG_POS, .INJ_LOG_SRC_SOURCE, .INJ_STAT_FREE, .INJ_STAT_LOST, .INJ_STAT_WIDX, .PUN_DISC_COUNT, .SEQ_ACNT_CANCEL, .X_FQ_RUN, .X_INJ_LOGN] : List Fld) ⊆ fl) (hk : KeepsR s₀ s.regs fl) : KeepsR s₀ (startBursts s p u).regs fl := by
  unfold startBursts
  try dsimp only
  repeat' first
    | with_reducible exact hk
    | exact List.Subset.trans (by decide) hfl
    | with_reducible apply setStrikes_k
    | with_reducible apply injDone_k
    | with_reducible refine foldl_k ?_ (fun s a hk => ?_)
    | with_reducible refine foldl_k2 ?_ (fun s a hk => ?_)
    | with_reducible apply ite_k
    | split
    | dsimp only

theorem transmit_k {s : State} {p : Nat} {line : List Byte} {reenc : Bool} (hfl : ([.PATH_DISC_COUNT] : List Fld) ⊆ fl) (hk : KeepsR s₀ s.regs fl) : KeepsR s₀ (transmit s p line reenc).regs fl := by
  unfold transmit
  try dsimp only
  repeat' first
    | with_reducible exact hk
    | exact hfl (by decide)
    | with_reducible apply incSat_k
    | with_reducible apply emit_k
    | with_reducible apply ite_k
    | split
    | dsimp only

theorem failRec_k {s : State} {p : Nat} {pos : Nat} {stamp : Nat} {valid : Bool} {e : Option Failure} (hfl : ([.PUN_DISC_COUNT] : List Fld) ⊆ fl) (hk : KeepsR s₀ s.regs fl) : KeepsR s₀ (failRec s p pos stamp valid e).regs fl := by
  unfold failRec
  try dsimp only
  repeat' first
    | with_reducible exact hk
    | exact List.Subset.trans (by decide) hfl
    | with_reducible apply stageRecs_k
    | split
    | dsimp only

theorem failItem_k {s : State} {p : Nat} {it : Item} {e : Option Failure} (hfl : ([.PUN_DISC_COUNT] : List Fld) ⊆ fl) (hk : KeepsR s₀ s.regs fl) : KeepsR s₀ (failItem s p it e).regs fl := by
  unfold failItem
  try dsimp only
  repeat' first
    | with_reducible exact hk
    | exact List.Subset.trans (by decide) hfl
    | with_reducible apply failRec_k
    | dsimp only

theorem filterDrop_k {s : State} {p : Nat} {f : Option FiltSet} {form : List Byte} (hfl : ([.FLT_CNT_COUNT, .PUN_DISC_COUNT] : List Fld) ⊆ fl) (hk : KeepsR s₀ s.regs fl) : KeepsR s₀ (filterDrop s p f form).regs fl := by
  unfold filterDrop
  try dsimp only
  repeat' first
    | with_reducible exact hk
    | exact hfl (by decide)
    | exact List.Subset.trans (by decide) hfl
    | with_reducible apply incSat_k
    | with_reducible apply closeRun_k
    | with_reducible apply ite_k
    | split
    | dsimp only

theorem formFiller_k {s : State} {p : Nat} {pos : Nat} {stamp : Nat} {valid : Bool} {form : List Byte} {cut : Option Nat} {raw : Bool} {dec : Bool} (hfl : ([.PUN_DISC_COUNT] : List Fld) ⊆ fl) (hk : KeepsR s₀ s.regs fl) : KeepsR s₀ (formFiller s p pos stamp valid form cut raw dec).regs fl := by
  unfold formFiller
  try dsimp only
  repeat' first
    | with_reducible exact hk
    | exact List.Subset.trans (by decide) hfl
    | with_reducible apply stageRecs_k
    | with_reducible apply closeRun_k
    | with_reducible apply setStrm_k
    | dsimp only

theorem formUnit_k {s : State} {p : Nat} {pos : Nat} {stamp : Nat} {valid : Bool} {fill : Bool} {form : List Byte} {cut : Option Nat} {raw : Bool} {dec : Bool} (hfl : ([.PUN_DISC_COUNT] : List Fld) ⊆ fl) (hk : KeepsR s₀ s.regs fl) : KeepsR s₀ (formUnit s p pos stamp valid fill form cut raw dec).regs fl := by
  unfold formUnit
  try dsimp only
  repeat' first
    | with_reducible exact hk
    | exact List.Subset.trans (by decide) hfl
    | with_reducible apply stageRecs_k
    | with_reducible apply closeRun_k
    | with_reducible apply setStrm_k
    | with_reducible apply formFiller_k
    | with_reducible apply ite_k
    | split
    | dsimp only

theorem recordUnit_k {s : State} {p : Nat} {pos : Nat} {stamp : Nat} {valid : Bool} {f : Option FiltSet} {cls : Nat} {fails : Bool} {hits : List Nat} {form : List Byte} {raw : Bool} {dec : Bool} (hfl : ([.FLT_CNT_COUNT, .PUN_DISC_COUNT] : List Fld) ⊆ fl) (hk : KeepsR s₀ s.regs fl) : KeepsR s₀ (recordUnit s p pos stamp valid f cls fails hits form raw dec).regs fl := by
  unfold recordUnit
  try dsimp only
  repeat' first
    | with_reducible exact hk
    | exact List.Subset.trans (by decide) hfl
    | with_reducible apply formUnit_k
    | with_reducible apply filterDrop_k
    | with_reducible apply ite_k
    | split
    | dsimp only

theorem splitStep_k {s : State} {n : Nat} (hfl : ([.X_SPLIT] : List Fld) ⊆ fl) (hk : KeepsR s₀ s.regs fl) : KeepsR s₀ (splitStep s n).regs fl := by
  unfold splitStep
  try dsimp only
  repeat' first
    | with_reducible exact hk
    | exact hfl (by decide)
    | with_reducible apply wr_k
    | with_reducible apply ite_k
    | split
    | dsimp only

theorem portEvent_k {s : State} {r : Nat} {kind : Nat} (hfl : ([.FLT_DROP_COUNT, .FLT_STAT_STAT, .X_FQ_RUN] : List Fld) ⊆ fl) (hk : KeepsR s₀ s.regs fl) : KeepsR s₀ (portEvent s r kind).regs fl := by
  unfold portEvent
  try dsimp only
  repeat' first
    | with_reducible exact hk
    | exact List.Subset.trans (by decide) hfl
    | with_reducible apply laneEvent_k
    | with_reducible apply ite_k
    | split
    | dsimp only

theorem chanReact_k {s : State} {t : Nat} {c : Nat} (hfl : ([.CH_STAT_STATE, .TWR_STAT_STATE, .X_CHRST_WAIT] : List Fld) ⊆ fl) (hk : KeepsR s₀ s.regs fl) : KeepsR s₀ (chanReact s t c).regs fl := by
  unfold chanReact
  try dsimp only
  repeat' first
    | with_reducible exact hk
    | exact List.Subset.trans (by decide) hfl
    | with_reducible apply chanResetBegin_k
    | with_reducible apply ite_k
    | split
    | dsimp only

theorem trapTo_k {s : State} (hfl : ([.FLT_GSTAT_TRAPPEND] : List Fld) ⊆ fl) (hk : KeepsR s₀ s.regs fl) : KeepsR s₀ (trapTo s).regs fl := by
  unfold trapTo
  try dsimp only
  repeat' first
    | with_reducible exact hk
    | exact hfl (by decide)
    | with_reducible apply set_k
    | with_reducible apply emit_k
    | with_reducible apply ite_k
    | split
    | dsimp only

theorem interrupt_k {s : State} {src : Nat} (hfl : ([.FLT_GSTAT_IRQ] : List Fld) ⊆ fl) (hk : KeepsR s₀ s.regs fl) : KeepsR s₀ (interrupt s src).regs fl := by
  unfold interrupt
  try dsimp only
  repeat' first
    | with_reducible exact hk
    | exact hfl (by decide)
    | with_reducible apply set_k
    | with_reducible apply msix_k
    | dsimp only

theorem firstFault_k {s : State} {m : Msg} {lvl : Nat} {esc : Bool} (hfl : ([.FLT_FIRST_ADDR, .FLT_FIRST_EPOCH, .FLT_FIRST_SRC_COLLIDE, .FLT_FIRST_SRC_ESC, .FLT_FIRST_SRC_INJ, .FLT_FIRST_SRC_KIND, .FLT_FIRST_SRC_OVF, .FLT_FIRST_SRC_REACT, .FLT_FIRST_SRC_SOURCE, .FLT_FIRST_SRC_VALID] : List Fld) ⊆ fl) (hk : KeepsR s₀ s.regs fl) : KeepsR s₀ (firstFault s m lvl esc).regs fl := by
  unfold firstFault
  try dsimp only
  repeat' first
    | with_reducible exact hk
    | exact hfl (by decide)
    | with_reducible apply wr_k
    | with_reducible apply set_k
    | with_reducible apply wrB_k
    | with_reducible apply ite_k
    | split
    | dsimp only

theorem bufferEvent_k {s : State} {m : Msg} {lvl : Nat} (hfl : ([.FLT_EVLOST_COUNT] : List Fld) ⊆ fl) (hk : KeepsR s₀ s.regs fl) : KeepsR s₀ (bufferEvent s m lvl).regs fl := by
  unfold bufferEvent
  try dsimp only
  repeat' first
    | with_reducible exact hk
    | exact hfl (by decide)
    | with_reducible apply incSat_k
    | with_reducible apply ite_k
    | split
    | dsimp only

theorem setFlags_k {s : State} {th : Nat} {z : Option Bool} {c : Option Bool} {m : Option Bool} {e : Option Bool} (hfl : ([.SEQ_TSTAT_FLAGS] : List Fld) ⊆ fl) (hk : KeepsR s₀ s.regs fl) : KeepsR s₀ (setFlags s th z c m e).regs fl := by
  unfold setFlags
  try dsimp only
  repeat' first
    | with_reducible exact hk
    | exact hfl (by decide)
    | with_reducible apply wr_k
    | dsimp only

theorem putZM_k {s : State} {c : SCtx} {v : Nat} {carry : Option Bool} (hfl : ([.SEQ_REGS_W, .SEQ_TSTAT_FLAGS] : List Fld) ⊆ fl) (hk : KeepsR s₀ s.regs fl) : KeepsR s₀ (putZM s c v carry).regs fl := by
  unfold putZM
  try dsimp only
  repeat' first
    | with_reducible exact hk
    | exact List.Subset.trans (by decide) hfl
    | with_reducible apply setWreg_k
    | with_reducible apply setFlags_k
    | dsimp only

theorem putCode_k {s : State} {c : SCtx} {code : Nat} {entry : Nat} {past : Bool} (hfl : ([.SEQ_REGS_W, .SEQ_TSTAT_FLAGS] : List Fld) ⊆ fl) (hk : KeepsR s₀ s.regs fl) : KeepsR s₀ (putCode s c code entry past).regs fl := by
  unfold putCode
  try dsimp only
  repeat' first
    | with_reducible exact hk
    | exact List.Subset.trans (by decide) hfl
    | with_reducible apply setWreg_k
    | with_reducible apply setFlags_k
    | dsimp only

theorem putOutcome_k {s : State} {th : Nat} {rd : Nat} {outcome : Nat} {num : Option Nat} {held : Bool} (hfl : ([.SEQ_REGS_W, .SEQ_TSTAT_FLAGS] : List Fld) ⊆ fl) (hk : KeepsR s₀ s.regs fl) : KeepsR s₀ (putOutcome s th rd outcome num held).regs fl := by
  unfold putOutcome
  try dsimp only
  repeat' first
    | with_reducible exact hk
    | exact List.Subset.trans (by decide) hfl
    | with_reducible apply setWreg_k
    | with_reducible apply setFlags_k
    | split
    | dsimp only

theorem errorRec_k {s : State} {p : Nat} {pos : Nat} {kind : Nat} {lane : Nat} {ofs : Nat} {syms : Nat} (hfl : ([.PUN_DISC_COUNT] : List Fld) ⊆ fl) (hk : KeepsR s₀ s.regs fl) : KeepsR s₀ (errorRec s p pos kind lane ofs syms).regs fl := by
  unfold errorRec
  try dsimp only
  repeat' first
    | with_reducible exact hk
    | exact List.Subset.trans (by decide) hfl
    | with_reducible apply stageRecs_k
    | with_reducible apply ite_k
    | split
    | dsimp only

theorem injTake_k {s : State} {e : Nat} {lp : Nat} {act : Nat} {fix : Bool} {m : Moment} {data : Nat} {src : Nat} (hfl : ([.INJ_ENT_INFO_ACT, .INJ_ENT_INFO_FIX, .INJ_ENT_INFO_PATH, .INJ_ENT_INFO_STATE, .INJ_ENT_INFO_T, .INJ_ENT_MOMENT, .INJ_STAT_FREE, .X_INJ_DATA, .X_INJ_HIT, .X_INJ_ORD, .X_INJ_PASSED, .X_INJ_REACH, .X_INJ_SEQ, .X_INJ_SRC] : List Fld) ⊆ fl) (hk : KeepsR s₀ s.regs fl) : KeepsR s₀ (injTake s e lp act fix m data src).regs fl := by
  unfold injTake
  try dsimp only
  repeat' first
    | with_reducible exact hk
    | exact hfl (by decide)
    | with_reducible apply wr_k
    | with_reducible apply clr_k
    | with_reducible apply wrB_k
    | with_reducible apply incWrap_k
    | with_reducible apply ite_k
    | split
    | dsimp only

theorem injNone_k {s : State} {g : Nat} {lp : Nat} {pos : Nat} {outcome : Nat} {src : Nat} (hfl : ([.FLT_DROP_COUNT, .FLT_STAT_STAT, .INJ_LOG_ENTRY, .INJ_LOG_OUTCOME, .INJ_LOG_PATH, .INJ_LOG_POS, .INJ_LOG_SRC_SOURCE, .INJ_STAT_LOST, .INJ_STAT_WIDX, .PUN_DISC_COUNT, .SEQ_ACNT_CANCEL, .X_FQ_RUN, .X_INJ_LOGN] : List Fld) ⊆ fl) (hk : KeepsR s₀ s.regs fl) : KeepsR s₀ (injNone s g lp pos outcome src).regs fl := by
  unfold injNone
  try dsimp only
  repeat' first
    | with_reducible exact hk
    | exact List.Subset.trans (by decide) hfl
    | with_reducible apply injEvent_k
    | with_reducible apply injRecord_k
    | dsimp only

theorem cancelUnspliced_k {s : State} {p : Nat} {pos : Nat} {stamp : Nat} (hfl : ([.FLT_DROP_COUNT, .FLT_STAT_STAT, .INJ_ENT_INFO_STATE, .INJ_LOG_ENTRY, .INJ_LOG_OUTCOME, .INJ_LOG_PATH, .INJ_LOG_POS, .INJ_LOG_SRC_SOURCE, .INJ_STAT_FREE, .INJ_STAT_LOST, .INJ_STAT_WIDX, .PUN_DISC_COUNT, .SEQ_ACNT_CANCEL, .X_FQ_RUN, .X_INJ_LOGN] : List Fld) ⊆ fl) (hk : KeepsR s₀ s.regs fl) : KeepsR s₀ (cancelUnspliced s p pos stamp).regs fl := by
  unfold cancelUnspliced
  try dsimp only
  repeat' first
    | with_reducible exact hk
    | exact List.Subset.trans (by decide) hfl
    | with_reducible apply cancelEntries_k
    | with_reducible apply ite_k
    | split
    | dsimp only

theorem missUnit_k {s : State} {p : Nat} {pos : Nat} {stamp : Nat} (hfl : ([.FLT_DROP_COUNT, .FLT_STAT_STAT, .INJ_ENT_INFO_STATE, .INJ_LOG_ENTRY, .INJ_LOG_OUTCOME, .INJ_LOG_PATH, .INJ_LOG_POS, .INJ_LOG_SRC_SOURCE, .INJ_STAT_FREE, .INJ_STAT_LOST, .INJ_STAT_WIDX, .PUN_DISC_COUNT, .SEQ_ACNT_CANCEL, .X_FQ_RUN, .X_INJ_LOGN, .X_INJ_NPOS, .X_INJ_REACH] : List Fld) ⊆ fl) (hk : KeepsR s₀ s.regs fl) : KeepsR s₀ (missUnit s p pos stamp).regs fl := by
  unfold missUnit
  try dsimp only
  repeat' first
    | with_reducible exact hk
    | exact hfl (by decide)
    | exact List.Subset.trans (by decide) hfl
    | with_reducible apply wr_k
    | with_reducible apply set_k
    | with_reducible apply injDone_k
    | with_reducible refine foldl_k ?_ (fun s a hk => ?_)
    | with_reducible refine foldl_k2 ?_ (fun s a hk => ?_)
    | with_reducible apply ite_k
    | split
    | dsimp only

theorem placeEntry_k {s : State} {m : Nat} {p : Nat} {b : List Word} {h : HitInfo} (hfl : ([.FLT_DROP_COUNT, .FLT_STAT_STAT, .INJ_ENT_INFO_ACT, .INJ_ENT_INFO_FIX, .INJ_ENT_INFO_PATH, .INJ_ENT_INFO_STATE, .INJ_ENT_INFO_T, .INJ_ENT_MOMENT, .INJ_LOG_ENTRY, .INJ_LOG_OUTCOME, .INJ_LOG_PATH, .INJ_LOG_POS, .INJ_LOG_SRC_SOURCE, .INJ_STAT_FREE, .INJ_STAT_LOST, .INJ_STAT_WIDX, .PUN_DISC_COUNT, .SEQ_ACNT_CANCEL, .X_FQ_RUN, .X_INJ_BLK, .X_INJ_DATA, .X_INJ_HIT, .X_INJ_ITEM, .X_INJ_LOGN, .X_INJ_ORD, .X_INJ_PASSED, .X_INJ_REACH, .X_INJ_SEQ, .X_INJ_SRC] : List Fld) ⊆ fl) (hk : KeepsR s₀ s.regs fl) : KeepsR s₀ (placeEntry s m p b h).regs fl := by
  unfold placeEntry
  try dsimp only
  repeat' first
    | with_reducible exact hk
    | exact hfl (by decide)
    | exact List.Subset.trans (by decide) hfl
    | with_reducible apply wr_k
    | with_reducible apply injDone_k
    | with_reducible apply injNone_k
    | with_reducible apply injTake_k
    | with_reducible apply ite_k
    | split
    | dsimp only

theorem fireActions_k {s : State} {m : Nat} {p : Nat} {b : List Word} {h : HitInfo} (hfl : ([.FLT_DROP_COUNT, .FLT_STAT_STAT, .INJ_ENT_INFO_ACT, .INJ_ENT_INFO_FIX, .INJ_ENT_INFO_PATH, .INJ_ENT_INFO_STATE, .INJ_ENT_INFO_T, .INJ_ENT_MOMENT, .INJ_LOG_ENTRY, .INJ_LOG_OUTCOME, .INJ_LOG_PATH, .INJ_LOG_POS, .INJ_LOG_SRC_SOURCE, .INJ_STAT_FREE, .INJ_STAT_LOST, .INJ_STAT_WIDX, .PUN_DISC_COUNT, .PUN_STAT_TRIGIGN, .SEQ_ACNT_CANCEL, .TL_COLL_COLL, .TL_LAST_EPOCH, .TL_LVL_LVL, .X_FQ_RUN, .X_INJ_BLK, .X_INJ_DATA, .X_INJ_HIT, .X_INJ_ITEM, .X_INJ_LOGN, .X_INJ_ORD, .X_INJ_PASSED, .X_INJ_REACH, .X_INJ_SEQ, .X_INJ_SRC, .X_PUN_EDGE, .X_PUN_EDGE_T, .X_TL_PULSE, .X_TL_SETC] : List Fld) ⊆ fl) (hk : KeepsR s₀ s.regs fl) : KeepsR s₀ (fireActions s m p b h).regs fl := by
  unfold fireActions
  try dsimp only
  repeat' first
    | with_reducible exact hk
    | exact List.Subset.trans (by decide) hfl
    | with_reducible apply placeEntry_k
    | with_reducible apply setStrm_k
    | with_reducible apply tlSet_k
    | with_reducible apply ite_k
    | split
    | dsimp only

theorem lastHit_k {s : State} {m : Nat} {p : Nat} {h : HitInfo} (hfl : ([.MATCH_LEP_EPOCH, .MATCH_LPOS_POS, .MATCH_STAT_LASTPATH, .X_M_CYC] : List Fld) ⊆ fl) (hk : KeepsR s₀ s.regs fl) : KeepsR s₀ (lastHit s m p h).regs fl := by
  unfold lastHit
  try dsimp only
  repeat' first
    | with_reducible exact hk
    | exact hfl (by decide)
    | with_reducible apply wr_k
    | with_reducible apply ite_k
    | split
    | dsimp only

theorem owedHit_k {s : State} {p : Nat} {m : Nat} {key : Nat} (hk : KeepsR s₀ s.regs fl) : KeepsR s₀ (owedHit s p m key).regs fl := by
  unfold owedHit
  try dsimp only
  repeat' first
    | with_reducible exact hk
    | with_reducible apply setWait_k
    | with_reducible refine each_k ?_ (fun s a hk => ?_)
    | with_reducible apply ite_k
    | split
    | dsimp only

theorem matchHit_k {p : Nat} {s : State} {x : Nat × HitInfo} (hfl : ([.FLT_DROP_COUNT, .FLT_STAT_STAT, .INJ_ENT_INFO_ACT, .INJ_ENT_INFO_FIX, .INJ_ENT_INFO_PATH, .INJ_ENT_INFO_STATE, .INJ_ENT_INFO_T, .INJ_ENT_MOMENT, .INJ_LOG_ENTRY, .INJ_LOG_OUTCOME, .INJ_LOG_PATH, .INJ_LOG_POS, .INJ_LOG_SRC_SOURCE, .INJ_STAT_FREE, .INJ_STAT_LOST, .INJ_STAT_WIDX, .MATCH_CNT_COUNT, .MATCH_LEP_EPOCH, .MATCH_LPOS_POS, .MATCH_STAT_LASTPATH, .MATCH_STAT_OVF, .PUN_DISC_COUNT, .PUN_STAT_TRIGIGN, .SEQ_ACNT_CANCEL, .TL_COLL_COLL, .TL_LAST_EPOCH, .TL_LVL_LVL, .X_FQ_RUN, .X_INJ_BLK, .X_INJ_DATA, .X_INJ_HIT, .X_INJ_ITEM, .X_INJ_LOGN, .X_INJ_ORD, .X_INJ_PASSED, .X_INJ_REACH, .X_INJ_SEQ, .X_INJ_SRC, .X_M_CYC, .X_M_FIRED, .X_PUN_EDGE, .X_PUN_EDGE_T, .X_TL_PULSE, .X_TL_SETC] : List Fld) ⊆ fl) (hk : KeepsR s₀ s.regs fl) : KeepsR s₀ (matchHit p s x).regs fl := by
  unfold matchHit
  try dsimp only
  repeat' first
    | with_reducible exact hk
    | exact hfl (by decide)
    | exact List.Subset.trans (by decide) hfl
    | with_reducible apply wr_k
    | with_reducible apply set_k
    | with_reducible apply raise_k
    | with_reducible apply lastHit_k
    | with_reducible apply owedHit_k
    | with_reducible apply fireActions_k
    | with_reducible apply ite_k
    | split
    | dsimp only

theorem chanDone_k {s : State} {t : Nat} {c : Nat} (hfl : ([.CH_STAT_STATE, .TWR_STAT_STATE] : List Fld) ⊆ fl) (hk : KeepsR s₀ s.regs fl) : KeepsR s₀ (chanDone s t c).regs fl := by
  unfold chanDone
  try dsimp only
  repeat' first
    | with_reducible exact hk
    | exact hfl (by decide)
    | with_reducible apply wr_k
    | with_reducible apply ite_k
    | split
    | dsimp only

theorem autoTsv_k {s : State} {t : Nat} {c : Nat} (hfl : ([.X_REP_BANK, .X_REP_CH, .X_REP_CMD, .X_REP_LANE, .X_REP_OP, .X_REP_PC, .X_REP_ROW] : List Fld) ⊆ fl) (hk : KeepsR s₀ s.regs fl) : KeepsR s₀ (autoTsv s t c).regs fl := by
  unfold autoTsv
  try dsimp only
  repeat' first
    | with_reducible exact hk
    | exact List.Subset.trans (by decide) hfl
    | with_reducible apply repBegin_k
    | with_reducible apply ite_k
    | split
    | dsimp only

theorem hardRepairEnd_k {s : State} {t : Nat} (hfl : ([.CH_STAT_STATE, .REP_CMD_RESULT, .REP_SPARE_HARD, .REP_SPARE_ROWS, .REP_SPARE_TSV, .TWR_STAT_STATE, .X_CHRST_WAIT, .X_REP_CMD, .X_REP_OP] : List Fld) ⊆ fl) (hk : KeepsR s₀ s.regs fl) : KeepsR s₀ (hardRepairEnd s t).regs fl := by
  unfold hardRepairEnd
  try dsimp only
  repeat' first
    | with_reducible exact hk
    | exact List.Subset.trans (by decide) hfl
    | with_reducible apply repEnd_k
    | with_reducible apply spareRecount_k
    | with_reducible apply chanDone_k
    | with_reducible apply repRewrite_k
    | with_reducible apply setT_k
    | with_reducible apply touch_k
    | with_reducible refine each_k ?_ (fun s a hk => ?_)
    | with_reducible apply ite_k
    | split
    | dsimp only

theorem retireEnd_k {s : State} {t : Nat} (hfl : ([.CH_STAT_STATE, .REP_CMD_RESULT, .REP_STAT_RCH, .REP_STAT_RETIRED, .TWR_STAT_STATE, .X_CHRST_WAIT, .X_REP_CMD, .X_REP_OP] : List Fld) ⊆ fl) (hk : KeepsR s₀ s.regs fl) : KeepsR s₀ (retireEnd s t).regs fl := by
  unfold retireEnd
  try dsimp only
  repeat' first
    | with_reducible exact hk
    | exact hfl (by decide)
    | exact List.Subset.trans (by decide) hfl
    | with_reducible apply wr_k
    | with_reducible apply set_k
    | with_reducible apply repAppend_k
    | with_reducible apply repEnd_k
    | with_reducible apply sweepSlabs_k
    | with_reducible apply ite_k
    | split
    | dsimp only

theorem bankRead_k {s : State} (hfl : ([.FLT_DROP_COUNT, .FLT_INJ_BUSY, .FLT_STAT_STAT, .X_FQ_RUN, .X_INJ_LEFT] : List Fld) ⊆ fl) (hk : KeepsR s₀ s.regs fl) : KeepsR s₀ (bankRead s).regs fl := by
  unfold bankRead
  try dsimp only
  repeat' first
    | with_reducible exact hk
    | exact List.Subset.trans (by decide) hfl
    | with_reducible apply raise_k
    | with_reducible apply takeInj_k
    | with_reducible apply freshNat_k
    | with_reducible apply ite_k
    | split
    | dsimp only

theorem mctpSend_k {s : State} {b : Bind} {msg : List Byte} (hk : KeepsR s₀ s.regs fl) : KeepsR s₀ (mctpSend s b msg).regs fl := by
  unfold mctpSend
  try dsimp only
  repeat' first
    | with_reducible exact hk
    | with_reducible apply emit_k
    | split
    | dsimp only

theorem answer_k {s : State} {v : Via} {req : List Byte} {status : Nat} {payload : List Byte} (hfl : ([.MB_STAT_PEND, .MB_STAT_RSP, .TW_MBSTAT_PEND, .TW_MBSTAT_RSP, .X_ALERT, .X_MB_FIRST] : List Fld) ⊆ fl) (hk : KeepsR s₀ s.regs fl) : KeepsR s₀ (answer s v req status payload).regs fl := by
  unfold answer
  try dsimp only
  repeat' first
    | with_reducible exact hk
    | exact List.Subset.trans (by decide) hfl
    | with_reducible apply mbAnswer_k
    | with_reducible apply mctpSend_k
    | split
    | dsimp only

theorem evShow_k {s : State} (hfl : ([.MGT_EVSTAT_QUEUED] : List Fld) ⊆ fl) (hk : KeepsR s₀ s.regs fl) : KeepsR s₀ (evShow s).regs fl := by
  unfold evShow
  try dsimp only
  repeat' first
    | with_reducible exact hk
    | exact hfl (by decide)
    | with_reducible apply wr_k
    | dsimp only

theorem budgetNote_k {s : State} {auto : Bool} (hfl : ([.FLT_DROP_COUNT, .FLT_STAT_STAT, .X_BUDGET, .X_FQ_RUN] : List Fld) ⊆ fl) (hk : KeepsR s₀ s.regs fl) : KeepsR s₀ (budgetNote s auto).regs fl := by
  unfold budgetNote
  try dsimp only
  repeat' first
    | with_reducible exact hk
    | exact hfl (by decide)
    | exact List.Subset.trans (by decide) hfl
    | with_reducible apply wrB_k
    | with_reducible apply raise_k
    | with_reducible refine each_k ?_ (fun s a hk => ?_)
    | with_reducible apply ite_k
    | split
    | dsimp only

theorem budgetAuto_k {s : State} (hfl : ([.FLT_DROP_COUNT, .FLT_INJ_BUSY, .FLT_STAT_STAT, .X_BUDGET, .X_FQ_RUN, .X_INJ_LEFT] : List Fld) ⊆ fl) (hk : KeepsR s₀ s.regs fl) : KeepsR s₀ (budgetAuto s).regs fl := by
  unfold budgetAuto
  try dsimp only
  repeat' first
    | with_reducible exact hk
    | exact List.Subset.trans (by decide) hfl
    | with_reducible apply bankRead_k
    | with_reducible apply budgetNote_k
    | with_reducible apply ite_k
    | split
    | dsimp only

theorem calStep_k {s : State} (hfl : ([.CAL_LSTAT_CONSEC, .CAL_LSTAT_STATE, .X_CAL_AGREE, .X_CAL_LATER, .X_CAL_PASS, .X_CAL_RQ, .X_CAL_ST, .X_CAL_STEP] : List Fld) ⊆ fl) (hk : KeepsR s₀ s.regs fl) : KeepsR s₀ (calStep s).regs fl := by
  unfold calStep
  try dsimp only
  repeat' first
    | with_reducible exact hk
    | exact hfl (by decide)
    | exact List.Subset.trans (by decide) hfl
    | with_reducible apply wr_k
    | with_reducible apply clr_k
    | with_reducible apply calQueue_k
    | with_reducible refine each_k ?_ (fun s a hk => ?_)
    | with_reducible apply ite_k
    | split
    | dsimp only

theorem maxShow_k {s : State} (hfl : ([.THM_STAT_DIEMAX, .THM_STAT_DRAMMAX] : List Fld) ⊆ fl) (hk : KeepsR s₀ s.regs fl) : KeepsR s₀ (maxShow s).regs fl := by
  unfold maxShow
  try dsimp only
  repeat' first
    | with_reducible exact hk
    | exact hfl (by decide)
    | with_reducible apply wr_k
    | split
    | dsimp only

theorem throttle_k {s : State} (hfl : ([.PRS_PLIM_EFF, .PRS_PLIM_THROT, .THM_STAT_COOLCNT, .THM_STAT_HOT, .X_THR] : List Fld) ⊆ fl) (hk : KeepsR s₀ s.regs fl) : KeepsR s₀ (throttle s).regs fl := by
  unfold throttle
  try dsimp only
  repeat' first
    | with_reducible exact hk
    | exact hfl (by decide)
    | exact List.Subset.trans (by decide) hfl
    | with_reducible apply wr_k
    | with_reducible apply clr_k
    | with_reducible apply wrB_k
    | with_reducible apply plimShow_k
    | with_reducible apply ite_k
    | split
    | dsimp only

theorem endCauseAt_k {s : State} {src : Nat} {n : Nat} (hk : KeepsR s₀ s.regs fl) : KeepsR s₀ (State.endCauseAt s src n).regs fl := by
  unfold State.endCauseAt
  try dsimp only
  repeat' first
    | with_reducible exact hk
    | dsimp only

theorem raiseCauseAt_k {s : State} {src : Nat} {kind : Nat} {addr : Nat} {n : Nat} (hfl : ([.FLT_DROP_COUNT, .FLT_STAT_STAT, .X_FQ_RUN] : List Fld) ⊆ fl) (hk : KeepsR s₀ s.regs fl) : KeepsR s₀ (State.raiseCauseAt s src kind addr n).regs fl := by
  unfold State.raiseCauseAt
  try dsimp only
  repeat' first
    | with_reducible exact hk
    | exact List.Subset.trans (by decide) hfl
    | with_reducible apply raise_k
    | dsimp only

theorem dieStep_k {t : Nat} {s : State} {c : Nat} (hfl : ([.CH_STAT_REF2X, .CH_STAT_SENSERR, .CH_STAT_TEMP, .FLT_DROP_COUNT, .FLT_STAT_STAT, .X_FQ_RUN] : List Fld) ⊆ fl) (hk : KeepsR s₀ s.regs fl) : KeepsR s₀ (dieStep t s c).regs fl := by
  unfold dieStep
  try dsimp only
  repeat' first
    | with_reducible exact hk
    | exact hfl (by decide)
    | exact List.Subset.trans (by decide) hfl
    | with_reducible apply wr_k
    | with_reducible apply set_k
    | with_reducible apply clr_k
    | with_reducible apply wrB_k
    | with_reducible apply raiseCauseAt_k
    | with_reducible apply endCauseAt_k
    | split
    | dsimp only

theorem towerStep_k {s : State} {t : Nat} (hfl : ([.CH_STAT_REF2X, .CH_STAT_SENSERR, .CH_STAT_TEMP, .FLT_DROP_COUNT, .FLT_STAT_STAT, .TWR_STAT_HOTDIE, .TWR_STAT_REF2X, .TWR_STAT_SENSERR, .TWR_STAT_TMAX, .X_FQ_RUN] : List Fld) ⊆ fl) (hk : KeepsR s₀ s.regs fl) : KeepsR s₀ (towerStep s t).regs fl := by
  unfold towerStep
  try dsimp only
  repeat' first
    | with_reducible exact hk
    | exact hfl (by decide)
    | exact List.Subset.trans (by decide) hfl
    | with_reducible apply wr_k
    | with_reducible apply wrB_k
    | with_reducible apply dieStep_k
    | with_reducible refine foldl_k ?_ (fun s a hk => ?_)
    | with_reducible refine foldl_k2 ?_ (fun s a hk => ?_)
    | split
    | dsimp only

theorem warnStep_k {s : State} (hfl : ([.FLT_DROP_COUNT, .FLT_STAT_STAT, .X_FQ_RUN] : List Fld) ⊆ fl) (hk : KeepsR s₀ s.regs fl) : KeepsR s₀ (warnStep s).regs fl := by
  unfold warnStep
  try dsimp only
  repeat' first
    | with_reducible exact hk
    | exact List.Subset.trans (by decide) hfl
    | with_reducible apply raiseCauseAt_k
    | with_reducible apply endCauseAt_k
    | with_reducible refine each_k ?_ (fun s a hk => ?_)
    | with_reducible apply ite_k
    | split
    | dsimp only

theorem roundEnd_k {s : State} (hfl : ([.CAL_LSTAT_CONSEC, .CAL_LSTAT_STATE, .CH_STAT_REF2X, .CH_STAT_SENSERR, .CH_STAT_TEMP, .FLT_DROP_COUNT, .FLT_STAT_STAT, .HK_STAT_ROUNDS, .PRS_PLIM_EFF, .PRS_PLIM_THROT, .THM_STAT_COOLCNT, .THM_STAT_DIEMAX, .THM_STAT_DRAMMAX, .THM_STAT_HOT, .TWR_STAT_HOTDIE, .TWR_STAT_REF2X, .TWR_STAT_SENSERR, .TWR_STAT_TMAX, .X_CAL_AGREE, .X_CAL_LATER, .X_CAL_PASS, .X_CAL_RQ, .X_CAL_ST, .X_CAL_STEP, .X_FQ_RUN, .X_THR] : List Fld) ⊆ fl) (hk : KeepsR s₀ s.regs fl) : KeepsR s₀ (roundEnd s).regs fl := by
  unfold roundEnd
  try dsimp only
  repeat' first
    | with_reducible exact hk
    | exact hfl (by decide)
    | exact List.Subset.trans (by decide) hfl
    | with_reducible apply incWrap_k
    | with_reducible apply towerStep_k
    | with_reducible apply throttle_k
    | with_reducible apply calStep_k
    | with_reducible apply warnStep_k
    | with_reducible apply maxShow_k
    | with_reducible apply ite_k
    | split
    | dsimp only

theorem mctpServe_k {s : State} {b : Bind} {f : State → State} (hfl : ([.FLT_DROP_COUNT, .FLT_INJ_BUSY, .FLT_STAT_STAT, .X_FQ_RUN, .X_INJ_LEFT] : List Fld) ⊆ fl) (hf_f : ∀ y0, KeepsR s₀ y0.regs fl → KeepsR s₀ (f y0).regs fl) (hk : KeepsR s₀ s.regs fl) : KeepsR s₀ (mctpServe s b f).regs fl := by
  unfold mctpServe
  try dsimp only
  repeat' first
    | with_reducible exact hk
    | exact List.Subset.trans (by decide) hfl
    | with_reducible apply bankRead_k
    | with_reducible apply hf_f
    | with_reducible apply ite_k
    | split
    | dsimp only

theorem spdmSend_k {s : State} {b : Bind} {a : SpdmAns} {l : List Byte} (hk : KeepsR s₀ s.regs fl) : KeepsR s₀ (spdmSend s b a l).regs fl := by
  unfold spdmSend
  try dsimp only
  repeat' first
    | with_reducible exact hk
    | with_reducible apply mctpSend_k
    | with_reducible apply emit_k
    | dsimp only

theorem spdmSigned_k {s : State} {b : Bind} {l : List Byte} {f : State → State} (hf_f : ∀ y0, KeepsR s₀ y0.regs fl → KeepsR s₀ (f y0).regs fl) (hk : KeepsR s₀ s.regs fl) : KeepsR s₀ (spdmSigned s b l f).regs fl := by
  unfold spdmSigned
  try dsimp only
  repeat' first
    | with_reducible exact hk
    | with_reducible apply freshBytes_k
    | with_reducible apply spdmSend_k
    | with_reducible apply hf_f
    | with_reducible apply ite_k
    | split
    | dsimp only

theorem startIn_k {same : Bool} {s : State} (hk : KeepsR s₀ s.regs fl) : KeepsR s₀ (State.startIn same s).regs fl := by
  unfold State.startIn
  try dsimp only
  repeat' first
    | with_reducible exact hk
    | with_reducible apply start_k
    | with_reducible apply ite_k
    | split
    | dsimp only

theorem tsPosition_k {s : State} {L : Nat} {ts : TsInfo} (hfl : ([.FLT_DROP_COUNT, .FLT_STAT_STAT, .LNK_PSTAT_RTPOS, .PUN_DISC_COUNT, .X_FQ_RUN] : List Fld) ⊆ fl) (hk : KeepsR s₀ s.regs fl) : KeepsR s₀ (tsPosition s L ts).regs fl := by
  unfold tsPosition
  try dsimp only
  repeat' first
    | with_reducible exact hk
    | exact hfl (by decide)
    | exact List.Subset.trans (by decide) hfl
    | with_reducible apply wr_k
    | with_reducible apply pathEventNext_k
    | with_reducible apply ite_k
    | split
    | dsimp only

theorem idleEdges_k {s : State} {L : Nat} {was : Nat → Bool} (hk : KeepsR s₀ s.regs fl) : KeepsR s₀ (idleEdges s L was).regs fl := by
  unfold idleEdges
  try dsimp only
  repeat' first
    | with_reducible exact hk
    | with_reducible apply emitTx_k
    | with_reducible refine each_k ?_ (fun s a hk => ?_)
    | with_reducible apply ite_k
    | split
    | dsimp only

theorem lanesJoin_k {s : State} {L : Nat} {n : Nat} {after : Nat} (hfl : ([.PATH_POS_POS, .X_LANE_IDLE, .X_LANE_LAG] : List Fld) ⊆ fl) (hk : KeepsR s₀ s.regs fl) : KeepsR s₀ (lanesJoin s L n after).regs fl := by
  unfold lanesJoin
  try dsimp only
  repeat' first
    | with_reducible exact hk
    | exact List.Subset.trans (by decide) hfl
    | with_reducible apply laneJoin_k
    | with_reducible refine each_k ?_ (fun s a hk => ?_)
    | with_reducible apply ite_k
    | split
    | dsimp only

theorem rateSwitch_k {s : State} {L : Nat} (hfl : ([.CAL_LSTAT_CONSEC, .CAL_LSTAT_STATE, .CAL_SLC_ROLE, .LNK_PSTAT_RATE, .PUN_DISC_COUNT, .QUAL_BER_STALE, .TX_FIRACT_ACT, .XCVR_STAT_ADAPTED, .XCVR_STAT_LOCK, .XCVR_STAT_RXTERM, .XCVR_STAT_SSCACT, .XCVR_STAT_TXCLK, .XCVR_STAT_TXIDLE, .X_CAL_AGREE, .X_CAL_LATER, .X_CAL_PASS, .X_CAL_ST, .X_CAL_STEP, .X_QW_CUT, .X_RATE_NEXT, .X_SSC_EFF] : List Fld) ⊆ fl) (hk : KeepsR s₀ s.regs fl) : KeepsR s₀ (rateSwitch s L).regs fl := by
  unfold rateSwitch
  try dsimp only
  repeat' first
    | with_reducible exact hk
    | exact hfl (by decide)
    | exact List.Subset.trans (by decide) hfl
    | with_reducible apply wr_k
    | with_reducible apply clr_k
    | with_reducible apply linkEvent_k
    | with_reducible apply refreshLink_k
    | with_reducible apply rateChanged_k
    | split
    | dsimp only

theorem linkTo_k {s : State} {L : Nat} {tgt : LinkPos} (hfl : ([.CAL_LSTAT_CONSEC, .CAL_LSTAT_STATE, .CAL_SLC_ROLE, .LNK_PSTAT_FLIT, .LNK_PSTAT_FMT, .LNK_PSTAT_PMIS, .LNK_PSTAT_RATE, .LNK_PSTAT_RTPOS, .LNK_PSTAT_STATE, .LNK_PSTAT_WIDTH, .PATH_POS_POS, .PUN_DISC_COUNT, .QUAL_BER_STALE, .TX_FIRACT_ACT, .XCVR_STAT_ADAPTED, .XCVR_STAT_LOCK, .XCVR_STAT_RXTERM, .XCVR_STAT_SSCACT, .XCVR_STAT_TXCLK, .XCVR_STAT_TXIDLE, .X_CAL_AGREE, .X_CAL_LATER, .X_CAL_PASS, .X_CAL_ST, .X_CAL_STEP, .X_EQ_DONE, .X_EQ_PHASE, .X_L0S, .X_L12, .X_LANE_IDLE, .X_LANE_LAG, .X_PCI_EFF, .X_PRECODE, .X_QW_CUT, .X_RATE_NEXT, .X_SSC_EFF, .X_TS_CUT] : List Fld) ⊆ fl) (hk : KeepsR s₀ s.regs fl) : KeepsR s₀ (linkTo s L tgt).regs fl := by
  unfold linkTo
  try dsimp only
  repeat' first
    | with_reducible exact hk
    | exact hfl (by decide)
    | exact List.Subset.trans (by decide) hfl
    | with_reducible apply wr_k
    | with_reducible apply clr_k
    | with_reducible apply wrB_k
    | with_reducible apply trainRec_k
    | with_reducible apply idleEdges_k
    | with_reducible apply lanesJoin_k
    | with_reducible apply enterDetect_k
    | with_reducible apply linkEvent_k
    | with_reducible apply refreshLink_k
    | with_reducible refine each_k ?_ (fun s a hk => ?_)
    | with_reducible apply ite_k
    | split
    | dsimp only

theorem ownLane_k {L : Nat} {side : Nat} {x : List EqInfo × State} {r : Nat} (hk : KeepsR s₀ x.2.regs fl) : KeepsR s₀ (ownLane L side x r).2.regs fl := by
  unfold ownLane
  try dsimp only
  repeat' first
    | with_reducible exact hk
    | with_reducible apply freshNat_k
    | with_reducible apply ite_k
    | with_reducible apply ite_k2
    | split
    | dsimp only

theorem ownSet_k {s : State} {L : Nat} {side : Nat} {ts : TsInfo} (hk : KeepsR s₀ s.regs fl) : KeepsR s₀ (ownSet s L side ts).regs fl := by
  unfold ownSet
  try dsimp only
  repeat' first
    | with_reducible exact hk
    | with_reducible apply emitTx_k
    | with_reducible apply ownLane_k
    | with_reducible refine foldl_k ?_ (fun s a hk => ?_)
    | with_reducible refine foldl_k2 ?_ (fun s a hk => ?_)
    | dsimp only

theorem presetPort_k {s : State} {L : Nat} {r : Nat} {preset : Nat} (hfl : ([.CAL_SLC_ROLE, .QUAL_BER_STALE, .TX_FIRACT_ACT, .XCVR_STAT_RXTERM, .XCVR_STAT_SSCACT, .XCVR_STAT_TXCLK, .XCVR_STAT_TXIDLE, .X_EQ_PSET, .X_FIR_TRN, .X_QW_CUT, .X_SSC_EFF] : List Fld) ⊆ fl) (hk : KeepsR s₀ s.regs fl) : KeepsR s₀ (presetPort s L r preset).regs fl := by
  unfold presetPort
  try dsimp only
  repeat' first
    | with_reducible exact hk
    | exact hfl (by decide)
    | exact List.Subset.trans (by decide) hfl
    | with_reducible apply wr_k
    | with_reducible apply refreshPort_k
    | dsimp only

theorem presetApply_k {s : State} {L : Nat} {side : Nat} {preset : Nat} (hfl : ([.CAL_SLC_ROLE, .QUAL_BER_STALE, .TX_FIRACT_ACT, .XCVR_STAT_RXTERM, .XCVR_STAT_SSCACT, .XCVR_STAT_TXCLK, .XCVR_STAT_TXIDLE, .X_EQ_PSET, .X_FIR_TRN, .X_QW_CUT, .X_SSC_EFF] : List Fld) ⊆ fl) (hk : KeepsR s₀ s.regs fl) : KeepsR s₀ (presetApply s L side preset).regs fl := by
  unfold presetApply
  try dsimp only
  repeat' first
    | with_reducible exact hk
    | exact List.Subset.trans (by decide) hfl
    | with_reducible apply presetPort_k
    | with_reducible refine each_k ?_ (fun s a hk => ?_)
    | dsimp only

theorem tsForward_k {s : State} {L : Nat} {side : Nat} {ts : TsInfo} (hfl : ([.X_TS_CUT] : List Fld) ⊆ fl) (hk : KeepsR s₀ s.regs fl) : KeepsR s₀ (tsForward s L side ts).regs fl := by
  unfold tsForward
  try dsimp only
  repeat' first
    | with_reducible exact hk
    | exact hfl (by decide)
    | with_reducible apply clr_k
    | with_reducible apply emitTx_k
    | with_reducible apply ite_k
    | split
    | dsimp only

theorem margShow_k {s : State} {L : Nat} (hfl : ([.LNK_PSTAT_MARGACT] : List Fld) ⊆ fl) (hk : KeepsR s₀ s.regs fl) : KeepsR s₀ (margShow s L).regs fl := by
  unfold margShow
  try dsimp only
  repeat' first
    | with_reducible exact hk
    | exact hfl (by decide)
    | with_reducible apply wrB_k
    | dsimp only

theorem setMarg_k {s : State} {L : Nat} {r : Nat} {on : Bool} (hfl : ([.CAL_LSTAT_CONSEC, .CAL_LSTAT_STATE, .CAL_SLC_ROLE, .LNK_PSTAT_MARGACT, .QUAL_BER_STALE, .TX_FIRACT_ACT, .XCVR_STAT_RXTERM, .XCVR_STAT_SSCACT, .XCVR_STAT_TXCLK, .XCVR_STAT_TXIDLE, .X_CAL_AGREE, .X_CAL_LATER, .X_CAL_PASS, .X_CAL_ST, .X_CAL_STEP, .X_MARG, .X_QW_CUT, .X_SSC_EFF] : List Fld) ⊆ fl) (hk : KeepsR s₀ s.regs fl) : KeepsR s₀ (setMarg s L r on).regs fl := by
  unfold setMarg
  try dsimp only
  repeat' first
    | with_reducible exact hk
    | exact hfl (by decide)
    | exact List.Subset.trans (by decide) hfl
    | with_reducible apply wrB_k
    | with_reducible apply calPause_k
    | with_reducible apply refreshPort_k
    | with_reducible apply calResume_k
    | with_reducible apply margShow_k
    | with_reducible refine each_k ?_ (fun s a hk => ?_)
    | with_reducible apply ite_k
    | split
    | dsimp only

theorem margAnswer_k {s : State} {L : Nat} {r : Nat} {out : Nat} {c : BitVec 16} (hfl : ([.CAL_LSTAT_CONSEC, .CAL_LSTAT_STATE, .CAL_SLC_ROLE, .LNK_PSTAT_MARGACT, .QUAL_BER_STALE, .TX_FIRACT_ACT, .XCVR_STAT_RXTERM, .XCVR_STAT_SSCACT, .XCVR_STAT_TXCLK, .XCVR_STAT_TXIDLE, .X_CAL_AGREE, .X_CAL_LATER, .X_CAL_PASS, .X_CAL_ST, .X_CAL_STEP, .X_MARG, .X_QW_CUT, .X_SSC_EFF] : List Fld) ⊆ fl) (hk : KeepsR s₀ s.regs fl) : KeepsR s₀ (margAnswer s L r out c).regs fl := by
  unfold margAnswer
  try dsimp only
  repeat' first
    | with_reducible exact hk
    | exact List.Subset.trans (by decide) hfl
    | with_reducible apply emit_k
    | with_reducible apply setMarg_k
    | with_reducible apply freshNat_k
    | with_reducible apply ite_k
    | split
    | dsimp only

theorem clkreqExit_k {s : State} {L : Nat} (hfl : ([.GSB_CFG_LEVEL, .X_CLKREQ] : List Fld) ⊆ fl) (hk : KeepsR s₀ s.regs fl) : KeepsR s₀ (clkreqExit s L).regs fl := by
  unfold clkreqExit
  try dsimp only
  repeat' first
    | with_reducible exact hk
    | exact hfl (by decide)
    | with_reducible apply set_k
    | with_reducible apply clr_k
    | with_reducible apply emit_k
    | split
    | dsimp only

theorem l12Enter_k {s : State} {L : Nat} (hfl : ([.GSB_CFG_LEVEL, .XCVR_STAT_SIGDET, .X_CLKREQ] : List Fld) ⊆ fl) (hk : KeepsR s₀ s.regs fl) : KeepsR s₀ (l12Enter s L).regs fl := by
  unfold l12Enter
  try dsimp only
  repeat' first
    | with_reducible exact hk
    | exact hfl (by decide)
    | with_reducible apply wr_k
    | with_reducible apply clr_k
    | with_reducible refine each_k ?_ (fun s a hk => ?_)
    | split
    | dsimp only

theorem lanesIdle_k {s : State} {L : Nat} {idled : Nat → Bool} (hfl : ([.PATH_POS_POS, .X_LANE_IDLE, .X_LANE_LAG] : List Fld) ⊆ fl) (hk : KeepsR s₀ s.regs fl) : KeepsR s₀ (lanesIdle s L idled).regs fl := by
  unfold lanesIdle
  try dsimp only
  repeat' first
    | with_reducible exact hk
    | exact hfl (by decide)
    | exact List.Subset.trans (by decide) hfl
    | with_reducible apply set_k
    | with_reducible apply laneJoin_k
    | with_reducible refine each_k ?_ (fun s a hk => ?_)
    | with_reducible apply ite_k
    | split
    | dsimp only

theorem pollGsb_k {s : State} {g : Nat} {i : Nat} (hk : KeepsR s₀ s.regs fl) : KeepsR s₀ (pollGsb s g i).regs fl := by
  unfold pollGsb
  try dsimp only
  repeat' first
    | with_reducible exact hk
    | with_reducible apply setWait_k
    | with_reducible refine each_k ?_ (fun s a hk => ?_)
    | with_reducible apply ite_k
    | split
    | dsimp only

theorem hkInvalid_k {s : State} {ch : Nat} (hfl : ([.FLT_DROP_COUNT, .FLT_STAT_STAT, .HK_VAL_VALID, .X_FQ_RUN] : List Fld) ⊆ fl) (hk : KeepsR s₀ s.regs fl) : KeepsR s₀ (hkInvalid s ch).regs fl := by
  unfold hkInvalid
  try dsimp only
  repeat' first
    | with_reducible exact hk
    | exact hfl (by decide)
    | exact List.Subset.trans (by decide) hfl
    | with_reducible apply clr_k
    | with_reducible apply raiseCauseAt_k
    | dsimp only

theorem hkShow_k {s : State} {ch : Nat} {v : Nat} (hfl : ([.HK_VAL_VALID, .HK_VAL_VALUE] : List Fld) ⊆ fl) (hk : KeepsR s₀ s.regs fl) : KeepsR s₀ (hkShow s ch v).regs fl := by
  unfold hkShow
  try dsimp only
  repeat' first
    | with_reducible exact hk
    | exact hfl (by decide)
    | with_reducible apply wr_k
    | with_reducible apply set_k
    | with_reducible apply endCauseAt_k
    | dsimp only

theorem supplyCheck_k {s : State} {m : Nat} {v : Nat} (hfl : ([.FLT_DROP_COUNT, .FLT_STAT_STAT, .X_FQ_RUN] : List Fld) ⊆ fl) (hk : KeepsR s₀ s.regs fl) : KeepsR s₀ (supplyCheck s m v).regs fl := by
  unfold supplyCheck
  try dsimp only
  repeat' first
    | with_reducible exact hk
    | exact List.Subset.trans (by decide) hfl
    | with_reducible apply towerLost_k
    | with_reducible apply raiseCauseAt_k
    | with_reducible apply endCauseAt_k
    | with_reducible apply ite_k
    | split
    | dsimp only

theorem readCharge_k {s : State} {t : Nat} {n : Nat} (hfl : ([.X_RD_BYTES] : List Fld) ⊆ fl) (hk : KeepsR s₀ s.regs fl) : KeepsR s₀ (readCharge s t n).regs fl := by
  unfold readCharge
  try dsimp only
  repeat' first
    | with_reducible exact hk
    | exact hfl (by decide)
    | with_reducible apply wr_k
    | with_reducible apply ite_k
    | split
    | dsimp only

theorem writePart_k {s : State} {src : Nat} {A : Nat} {new : List Byte} {en : List Bool} (hfl : ([.ECC_CECNT_COUNT, .ECC_LOGSTAT_COUNT, .ECC_LOGSTAT_LOST, .ECC_LOGSTAT_OVF, .ECC_UECNT_COUNT, .ERR_LOG_ADDR, .ERR_LOG_DLY, .ERR_LOG_EPOCH, .ERR_LOG_KIND, .ERR_LOG_PUN, .ERR_LOG_SRC, .ERR_LOG_SYN, .ERR_LOG_VALID, .FLT_DROP_COUNT, .FLT_STAT_STAT, .X_CE_RAISED, .X_FQ_RUN, .X_LOG_ORD, .X_LOG_SEQ] : List Fld) ⊆ fl) (hk : KeepsR s₀ s.regs fl) : KeepsR s₀ (writePart s src A new en).regs fl := by
  unfold writePart
  try dsimp only
  repeat' first
    | with_reducible exact hk
    | exact List.Subset.trans (by decide) hfl
    | with_reducible apply setT_k
    | with_reducible apply readWord_k
    | with_reducible apply touch_k
    | dsimp only

theorem b2Store_k {s : State} {A : Nat} {l : List Byte} {en : List Bool} (hfl : ([.ECC_CECNT_COUNT, .ECC_LOGSTAT_COUNT, .ECC_LOGSTAT_LOST, .ECC_LOGSTAT_OVF, .ECC_UECNT_COUNT, .ERR_LOG_ADDR, .ERR_LOG_DLY, .ERR_LOG_EPOCH, .ERR_LOG_KIND, .ERR_LOG_PUN, .ERR_LOG_SRC, .ERR_LOG_SYN, .ERR_LOG_VALID, .FLT_DROP_COUNT, .FLT_STAT_STAT, .X_CE_RAISED, .X_FQ_RUN, .X_LOG_ORD, .X_LOG_SEQ] : List Fld) ⊆ fl) (hk : KeepsR s₀ s.regs fl) : KeepsR s₀ (b2Store s A l en).regs fl := by
  unfold b2Store
  try dsimp only
  repeat' first
    | with_reducible exact hk
    | exact List.Subset.trans (by decide) hfl
    | with_reducible apply writePart_k
    | with_reducible apply writeWord_k
    | with_reducible refine each_k ?_ (fun s a hk => ?_)
    | with_reducible apply ite_k
    | split
    | dsimp only

theorem setHv_k {s : State} {e : Nat} {j : Option HvJob} (hk : KeepsR s₀ s.regs fl) : KeepsR s₀ (State.setHv s e j).regs fl := by
  unfold State.setHv
  try dsimp only
  repeat' first
    | with_reducible exact hk
    | dsimp only

theorem hvPass_k {s : State} {e : Nat} {n : Nat} (hfl : ([.X_HV_BURST, .X_HV_TURN] : List Fld) ⊆ fl) (hk : KeepsR s₀ s.regs fl) : KeepsR s₀ (hvPass s e n).regs fl := by
  unfold hvPass
  try dsimp only
  repeat' first
    | with_reducible exact hk
    | exact hfl (by decide)
    | with_reducible apply wr_k
    | with_reducible apply ite_k
    | split
    | dsimp only

theorem hvEnd_k {s : State} {e : Nat} {j : HvJob} {status : Nat} {next : Nat} (hfl : ([.HV_CONS_IDX, .HV_STAT_BUSY, .X_HV_BURST, .X_HV_TURN, .X_HV_TWR] : List Fld) ⊆ fl) (hk : KeepsR s₀ s.regs fl) : KeepsR s₀ (hvEnd s e j status next).regs fl := by
  unfold hvEnd
  try dsimp only
  repeat' first
    | with_reducible exact hk
    | exact hfl (by decide)
    | exact List.Subset.trans (by decide) hfl
    | with_reducible apply wr_k
    | with_reducible apply clr_k
    | with_reducible apply emit_k
    | with_reducible apply hvPass_k
    | with_reducible apply msix_k
    | with_reducible apply setHv_k
    | with_reducible apply ite_k
    | split
    | dsimp only

theorem hvWrite_k {s : State} {e : Nat} {j : HvJob} {l : List Byte} (hfl : ([.HV_BYTES_COUNT, .X_HV_REM] : List Fld) ⊆ fl) (hk : KeepsR s₀ s.regs fl) : KeepsR s₀ (hvWrite s e j l).regs fl := by
  unfold hvWrite
  try dsimp only
  repeat' first
    | with_reducible exact hk
    | exact hfl (by decide)
    | with_reducible apply wr_k
    | with_reducible apply incSat_k
    | with_reducible apply emit_k
    | dsimp only

theorem hvTake_k {s : State} {e : Nat} {desc : Option (List Byte)} {want : List Byte → Bool} (hfl : ([.FLT_DROP_COUNT, .FLT_STAT_STAT, .HV_CONS_IDX, .HV_STAT_BUSY, .HV_STAT_FETCHERR, .X_FQ_RUN, .X_HV_BURST, .X_HV_TURN, .X_HV_TWR] : List Fld) ⊆ fl) (hk : KeepsR s₀ s.regs fl) : KeepsR s₀ (hvTake s e desc want).regs fl := by
  unfold hvTake
  try dsimp only
  repeat' first
    | with_reducible exact hk
    | exact hfl (by decide)
    | exact List.Subset.trans (by decide) hfl
    | with_reducible apply wr_k
    | with_reducible apply set_k
    | with_reducible apply msix_k
    | with_reducible apply raise_k
    | with_reducible apply hvEnd_k
    | with_reducible apply setHv_k
    | with_reducible apply ite_k
    | split
    | dsimp only

theorem hvAtStop_k {s : State} {e : Nat} {j : HvJob} (hfl : ([.HV_BYTES_COUNT, .HV_CONS_IDX, .HV_STAT_BUSY, .X_HV_BURST, .X_HV_REM, .X_HV_TURN, .X_HV_TWR] : List Fld) ⊆ fl) (hk : KeepsR s₀ s.regs fl) : KeepsR s₀ (hvAtStop s e j).regs fl := by
  unfold hvAtStop
  try dsimp only
  repeat' first
    | with_reducible exact hk
    | exact List.Subset.trans (by decide) hfl
    | with_reducible apply hvEnd_k
    | with_reducible apply hvWrite_k
    | with_reducible apply ite_k
    | split
    | dsimp only

theorem cfgStore_k {s : State} {c : PortCfg} (hfl : ([.X_CFG_BAR0, .X_CFG_BAR2, .X_CFG_MPS, .X_CFG_MRRS, .X_CFG_MSE, .X_CFG_MSIXEN, .X_CFG_MSIXFM] : List Fld) ⊆ fl) (hk : KeepsR s₀ s.regs fl) : KeepsR s₀ (cfgStore s c).regs fl := by
  unfold cfgStore
  try dsimp only
  repeat' first
    | with_reducible exact hk
    | exact hfl (by decide)
    | with_reducible apply wr_k
    | with_reducible apply wrB_k
    | dsimp only

theorem rindFail_k {s : State} (hfl : ([.CAL_SLC_ROLE, .DEV_STATE_LASTERR, .DEV_STATE_STATE, .FLT_DROP_COUNT, .FLT_STAT_STAT, .FW_MBX_STAT_ACCEPTED, .FW_MBX_STAT_BUSY, .FW_MBX_STAT_ERR, .FW_MBX_TOTAL_TOTAL, .IDE_STAT_KEY, .IDE_STAT_SYNC, .PUN_DISC_COUNT, .PUN_STAT_STATE, .QUAL_BER_STALE, .RND_IKEY_LOADED, .RND_PKEY_LOADED, .RND_STAT_APPR, .RND_STAT_ERROR, .RND_STAT_SESS, .RND_ZCNT_COUNT, .RPL_STAT_DONE, .TX_FIRACT_ACT, .XCVR_STAT_RXTERM, .XCVR_STAT_SSCACT, .XCVR_STAT_TXCLK, .XCVR_STAT_TXIDLE, .X_ALERT, .X_FQ_RUN, .X_FW_CHK, .X_FW_WR, .X_QW_CUT, .X_SSC_EFF] : List Fld) ⊆ fl) (hk : KeepsR s₀ s.regs fl) : KeepsR s₀ (rindFail s).regs fl := by
  unfold rindFail
  try dsimp only
  repeat' first
    | with_reducible exact hk
    | exact hfl (by decide)
    | exact List.Subset.trans (by decide) hfl
    | with_reducible apply set_k
    | with_reducible apply apprShow_k
    | with_reducible apply imageFail_k
    | with_reducible apply raiseCause_k
    | with_reducible apply zeroise_k
    | with_reducible apply ite_k
    | split
    | dsimp only

theorem waitEnd_k {s : State} {g : Nat} {t : Nat} {w : Wait} {outcome : Nat} (hfl : ([.FLT_DROP_COUNT, .FLT_STAT_STAT, .SEQ_REGS_W, .SEQ_TSTAT_CAUSE, .SEQ_TSTAT_FLAGS, .SEQ_TSTAT_PC, .SEQ_TSTAT_STATE, .X_FQ_RUN] : List Fld) ⊆ fl) (hk : KeepsR s₀ s.regs fl) : KeepsR s₀ (waitEnd s g t w outcome).regs fl := by
  unfold waitEnd
  try dsimp only
  repeat' first
    | with_reducible exact hk
    | exact List.Subset.trans (by decide) hfl
    | with_reducible apply advance_k
    | with_reducible apply setWait_k
    | with_reducible apply putOutcome_k
    | with_reducible apply ite_k
    | split
    | dsimp only

theorem ltEthTo_k {s : State} {t : Nat} {st : Nat} {lf : Bool} {rf : Bool} (hfl : ([.LT_ETH_STAT_LF, .LT_ETH_STAT_RF, .LT_ETH_STAT_STATE, .PUN_DISC_COUNT, .X_LT_BUSY] : List Fld) ⊆ fl) (hk : KeepsR s₀ s.regs fl) : KeepsR s₀ (ltEthTo s t st lf rf).regs fl := by
  unfold ltEthTo
  try dsimp only
  repeat' first
    | with_reducible exact hk
    | exact hfl (by decide)
    | exact List.Subset.trans (by decide) hfl
    | with_reducible apply wr_k
    | with_reducible apply clr_k
    | with_reducible apply wrB_k
    | with_reducible apply linkEvent_k
    | with_reducible apply ite_k
    | split
    | dsimp only

theorem ltMove_k {s : State} {t : Nat} {st : Nat} (hfl : ([.CAL_LSTAT_CONSEC, .CAL_LSTAT_STATE, .CAL_SLC_ROLE, .LNK_PSTAT_FLIT, .LNK_PSTAT_RATE, .LT_ETH_STAT_LF, .LT_ETH_STAT_RF, .LT_ETH_STAT_STATE, .LT_STAT_CXL, .LT_STAT_DLUP, .LT_STAT_FLIT, .LT_STAT_LTSSM, .LT_STAT_RATE, .PUN_DISC_COUNT, .QUAL_BER_STALE, .TX_FIRACT_ACT, .XCVR_STAT_ADAPTED, .XCVR_STAT_LOCK, .XCVR_STAT_RXTERM, .XCVR_STAT_SSCACT, .XCVR_STAT_TXCLK, .XCVR_STAT_TXIDLE, .X_CAL_AGREE, .X_CAL_LATER, .X_CAL_PASS, .X_CAL_ST, .X_CAL_STEP, .X_DET_RUN, .X_LT_DLF, .X_LT_FCI, .X_LT_NAKD, .X_LT_POL, .X_LT_REV, .X_LT_RSEQ, .X_LT_SEQ, .X_LT_TGT, .X_QW_CUT, .X_SSC_EFF] : List Fld) ⊆ fl) (hk : KeepsR s₀ s.regs fl) : KeepsR s₀ (ltMove s t st).regs fl := by
  unfold ltMove
  try dsimp only
  repeat' first
    | with_reducible exact hk
    | exact hfl (by decide)
    | exact List.Subset.trans (by decide) hfl
    | with_reducible apply wr_k
    | with_reducible apply clr_k
    | with_reducible apply linkEvent_k
    | with_reducible apply refreshLink_k
    | with_reducible apply ltDetect_k
    | with_reducible apply ltDown_k
    | with_reducible apply ite_k
    | split
    | dsimp only

theorem trainDo_k {s : State} {t : Nat} {op : Nat} (hfl : ([.CAL_LSTAT_CONSEC, .CAL_LSTAT_STATE, .CAL_SLC_ROLE, .LNK_PSTAT_FLIT, .LNK_PSTAT_RATE, .LT_ETH_STAT_LF, .LT_ETH_STAT_RF, .LT_ETH_STAT_STATE, .LT_STAT_CXL, .LT_STAT_DLUP, .LT_STAT_FLIT, .LT_STAT_LTSSM, .LT_STAT_RATE, .PUN_DISC_COUNT, .QUAL_BER_STALE, .TX_FIRACT_ACT, .XCVR_STAT_ADAPTED, .XCVR_STAT_LOCK, .XCVR_STAT_RXTERM, .XCVR_STAT_SSCACT, .XCVR_STAT_TXCLK, .XCVR_STAT_TXIDLE, .X_CAL_AGREE, .X_CAL_LATER, .X_CAL_PASS, .X_CAL_ST, .X_CAL_STEP, .X_DET_RUN, .X_LT_BUSY, .X_LT_DLF, .X_LT_FCI, .X_LT_NAKD, .X_LT_POL, .X_LT_REV, .X_LT_RSEQ, .X_LT_SEQ, .X_LT_TGT, .X_QW_CUT, .X_SSC_EFF] : List Fld) ⊆ fl) (hk : KeepsR s₀ s.regs fl) : KeepsR s₀ (trainDo s t op).regs fl := by
  unfold trainDo
  try dsimp only
  repeat' first
    | with_reducible exact hk
    | exact hfl (by decide)
    | exact List.Subset.trans (by decide) hfl
    | with_reducible apply set_k
    | with_reducible apply ltMove_k
    | with_reducible apply ltEthTo_k
    | with_reducible apply ite_k
    | split
    | dsimp only

theorem takeEntry_k {c : SCtx} {s : State} {act : Nat} {fix : Bool} {m : Moment} {data : Nat} (hfl : ([.INJ_ENT_INFO_ACT, .INJ_ENT_INFO_FIX, .INJ_ENT_INFO_PATH, .INJ_ENT_INFO_STATE, .INJ_ENT_INFO_T, .INJ_ENT_MOMENT, .INJ_STAT_FREE, .X_INJ_DATA, .X_INJ_HIT, .X_INJ_ORD, .X_INJ_PASSED, .X_INJ_REACH, .X_INJ_SEQ, .X_INJ_SRC] : List Fld) ⊆ fl) (hk : KeepsR s₀ s.regs fl) : KeepsR s₀ (takeEntry c s act fix m data).2.regs fl := by
  unfold takeEntry
  try dsimp only
  repeat' first
    | with_reducible exact hk
    | exact List.Subset.trans (by decide) hfl
    | with_reducible apply injTake_k
    | split
    | dsimp only

theorem withFetchWord_k {s : State} {nbits : Nat} {w : Nat} (hk : KeepsR s₀ s.regs fl) : KeepsR s₀ (State.withFetchWord s nbits w).regs fl := by
  unfold State.withFetchWord
  try dsimp only
  repeat' first
    | with_reducible exact hk
    | split
    | dsimp only

theorem ltNak_k {s : State} {t : Nat} (hfl : ([.LT_CNT_NAKS, .X_LT_NAKD] : List Fld) ⊆ fl) (hk : KeepsR s₀ s.regs fl) : KeepsR s₀ (ltNak s t).regs fl := by
  unfold ltNak
  try dsimp only
  repeat' first
    | with_reducible exact hk
    | exact hfl (by decide)
    | with_reducible apply set_k
    | with_reducible apply incSat_k
    | with_reducible apply ltEmit_k
    | with_reducible apply ite_k
    | split
    | dsimp only

theorem ltAcked_k {s : State} {t : Nat} {b : Nat} (hfl : ([.X_LT_DC, .X_LT_HC] : List Fld) ⊆ fl) (hk : KeepsR s₀ s.regs fl) : KeepsR s₀ (ltAcked s t b).regs fl := by
  unfold ltAcked
  try dsimp only
  repeat' first
    | with_reducible exact hk
    | exact List.Subset.trans (by decide) hfl
    | with_reducible apply freeHandle_k
    | with_reducible refine foldl_k ?_ (fun s a hk => ?_)
    | with_reducible refine foldl_k2 ?_ (fun s a hk => ?_)
    | split
    | dsimp only

theorem ltReplay_k {s : State} {t : Nat} (hfl : ([.LT_CNT_REPLAYS] : List Fld) ⊆ fl) (hk : KeepsR s₀ s.regs fl) : KeepsR s₀ (ltReplay s t).regs fl := by
  unfold ltReplay
  try dsimp only
  repeat' first
    | with_reducible exact hk
    | exact hfl (by decide)
    | with_reducible apply incSat_k
    | with_reducible apply ltEmit_k
    | with_reducible refine foldl_k ?_ (fun s a hk => ?_)
    | with_reducible refine foldl_k2 ?_ (fun s a hk => ?_)
    | with_reducible apply ite_k
    | split
    | dsimp only

theorem ltActive_k {s : State} {t : Nat} (hfl : ([.LT_STAT_DLUP] : List Fld) ⊆ fl) (hk : KeepsR s₀ s.regs fl) : KeepsR s₀ (ltActive s t).regs fl := by
  unfold ltActive
  try dsimp only
  repeat' first
    | with_reducible exact hk
    | exact hfl (by decide)
    | with_reducible apply set_k
    | with_reducible apply ite_k
    | split
    | dsimp only

theorem ltCredits_k {s : State} {t : Nat} {fc : Nat} {init : Bool} {h : Nat} {d : Nat} (hfl : ([.LT_STAT_DLUP, .X_LT_CD, .X_LT_CH, .X_LT_FCI, .X_LT_PD, .X_LT_PH, .X_LT_PINF] : List Fld) ⊆ fl) (hk : KeepsR s₀ s.regs fl) : KeepsR s₀ (ltCredits s t fc init h d).regs fl := by
  unfold ltCredits
  try dsimp only
  repeat' first
    | with_reducible exact hk
    | exact hfl (by decide)
    | exact List.Subset.trans (by decide) hfl
    | with_reducible apply wr_k
    | with_reducible apply clr_k
    | with_reducible apply wrBit_k
    | with_reducible apply ltActive_k
    | with_reducible apply ite_k
    | split
    | dsimp only

theorem fcInitType_k {t : Nat} {s : State} {fc : Nat} (hfl : ([.X_LT_DC, .X_LT_HC] : List Fld) ⊆ fl) (hk : KeepsR s₀ s.regs fl) : KeepsR s₀ (fcInitType t s fc).regs fl := by
  unfold fcInitType
  try dsimp only
  repeat' first
    | with_reducible exact hk
    | exact hfl (by decide)
    | with_reducible apply wr_k
    | with_reducible apply freshNat_k
    | with_reducible apply ltEmit_k
    | with_reducible apply ite_k
    | split
    | dsimp only

theorem ltOwnSet_k {s : State} {t : Nat} (hk : KeepsR s₀ s.regs fl) : KeepsR s₀ (ltOwnSet s t).regs fl := by
  unfold ltOwnSet
  try dsimp only
  repeat' first
    | with_reducible exact hk
    | with_reducible apply ltEmit_k
    | with_reducible apply ite_k
    | split
    | dsimp only

theorem ltPciTo_k {s : State} {t : Nat} {st : Nat} {rate : Nat} {flit : Bool} {cxl : Bool} {width : Nat} {reversed : Bool} {inverted : Nat} (hfl : ([.CAL_LSTAT_CONSEC, .CAL_LSTAT_STATE, .CAL_SLC_ROLE, .LNK_PSTAT_FLIT, .LNK_PSTAT_RATE, .LNK_PSTAT_WIDTH, .LT_ETH_STAT_LF, .LT_ETH_STAT_RF, .LT_ETH_STAT_STATE, .LT_STAT_CXL, .LT_STAT_DLUP, .LT_STAT_FLIT, .LT_STAT_LTSSM, .LT_STAT_RATE, .PATH_POS_POS, .PUN_DISC_COUNT, .QUAL_BER_STALE, .TX_FIRACT_ACT, .XCVR_STAT_ADAPTED, .XCVR_STAT_LOCK, .XCVR_STAT_RXTERM, .XCVR_STAT_SSCACT, .XCVR_STAT_TXCLK, .XCVR_STAT_TXIDLE, .X_CAL_AGREE, .X_CAL_LATER, .X_CAL_PASS, .X_CAL_ST, .X_CAL_STEP, .X_DET_RUN, .X_LANE_IDLE, .X_LANE_LAG, .X_LT_BUSY, .X_LT_DLF, .X_LT_FCI, .X_LT_NAKD, .X_LT_POL, .X_LT_REV, .X_LT_RSEQ, .X_LT_SEQ, .X_LT_TGT, .X_QW_CUT, .X_SSC_EFF] : List Fld) ⊆ fl) (hk : KeepsR s₀ s.regs fl) : KeepsR s₀ (ltPciTo s t st rate flit cxl width reversed inverted).regs fl := by
  unfold ltPciTo
  try dsimp only
  repeat' first
    | with_reducible exact hk
    | exact hfl (by decide)
    | exact List.Subset.trans (by decide) hfl
    | with_reducible apply wr_k
    | with_reducible apply clr_k
    | with_reducible apply wrB_k
    | with_reducible apply linkEvent_k
    | with_reducible apply ltDown_k
    | with_reducible apply ltRated_k
    | with_reducible apply refreshLink_k
    | with_reducible apply ltOwnSet_k
    | with_reducible apply ltDetect_k
    | with_reducible apply ltActive_k
    | with_reducible apply lanesJoin_k
    | with_reducible apply ite_k
    | split
    | dsimp only

theorem patSend_k {s : State} {p : Nat} (hfl : ([.PATH_DISC_COUNT, .X_PAT_IX, .X_PAT_REG] : List Fld) ⊆ fl) (hk : KeepsR s₀ s.regs fl) : KeepsR s₀ (patSend s p).regs fl := by
  unfold patSend
  try dsimp only
  repeat' first
    | with_reducible exact hk
    | exact hfl (by decide)
    | with_reducible apply wr_k
    | with_reducible apply incSat_k
    | with_reducible apply emit_k
    | with_reducible apply ite_k
    | split
    | dsimp only

theorem patStart_k {s : State} {p : Nat} (hfl : ([.X_PAT_ACC, .X_PAT_IX, .X_PAT_REG, .X_PAT_RUN] : List Fld) ⊆ fl) (hk : KeepsR s₀ s.regs fl) : KeepsR s₀ (patStart s p).regs fl := by
  unfold patStart
  try dsimp only
  repeat' first
    | with_reducible exact hk
    | exact hfl (by decide)
    | with_reducible apply wr_k
    | with_reducible apply clr_k
    | dsimp only

theorem patTick_k {s : State} {p : Nat} (hfl : ([.PATH_DISC_COUNT, .X_PAT_ACC, .X_PAT_IX, .X_PAT_REG, .X_PAT_RUN] : List Fld) ⊆ fl) (hk : KeepsR s₀ s.regs fl) : KeepsR s₀ (patTick s p).regs fl := by
  unfold patTick
  try dsimp only
  repeat' first
    | with_reducible exact hk
    | exact hfl (by decide)
    | exact List.Subset.trans (by decide) hfl
    | with_reducible apply wr_k
    | with_reducible apply clr_k
    | with_reducible apply patStart_k
    | with_reducible apply patSend_k
    | with_reducible apply ite_k
    | split
    | dsimp only

theorem vineDue_k {s : State} (hfl : ([.FLT_DROP_COUNT, .FLT_STAT_STAT, .PUN_STAT_TRIGIGN, .TL_COLL_COLL, .TL_LAST_EPOCH, .TL_LVL_LVL, .VIN_STAT_HELD, .VIN_TLAST_ORG_LATE, .VIN_TLAST_ORG_LATEO, .VIN_TLAST_ORG_ORIGIN, .VIN_TLAST_T, .X_FQ_RUN, .X_PUN_EDGE, .X_PUN_EDGE_T, .X_TL_CLRC, .X_TL_FELL, .X_TL_PULSE, .X_TL_SETC, .X_TL_WAS] : List Fld) ⊆ fl) (hk : KeepsR s₀ s.regs fl) : KeepsR s₀ (vineDue s).regs fl := by
  unfold vineDue
  try dsimp only
  repeat' first
    | with_reducible exact hk
    | exact List.Subset.trans (by decide) hfl
    | with_reducible apply vineAct_k
    | with_reducible apply vineRecount_k
    | with_reducible refine foldl_k ?_ (fun s a hk => ?_)
    | with_reducible refine foldl_k2 ?_ (fun s a hk => ?_)
    | with_reducible apply ite_k
    | split
    | dsimp only

theorem epochMoved_k {s : State} (hfl : ([.FLT_DROP_COUNT, .FLT_STAT_STAT, .PUN_STAT_TRIGIGN, .TL_COLL_COLL, .TL_LAST_EPOCH, .TL_LVL_LVL, .VIN_STAT_HELD, .VIN_TLAST_ORG_LATE, .VIN_TLAST_ORG_LATEO, .VIN_TLAST_ORG_ORIGIN, .VIN_TLAST_T, .X_FQ_RUN, .X_PUN_EDGE, .X_PUN_EDGE_T, .X_TL_CLRC, .X_TL_FELL, .X_TL_PULSE, .X_TL_SETC, .X_TL_WAS] : List Fld) ⊆ fl) (hk : KeepsR s₀ s.regs fl) : KeepsR s₀ (epochMoved s).regs fl := by
  unfold epochMoved
  try dsimp only
  repeat' first
    | with_reducible exact hk
    | exact List.Subset.trans (by decide) hfl
    | with_reducible apply vineDue_k
    | with_reducible apply pollWaits_k
    | dsimp only

theorem epochTick_k {s : State} (hfl : ([.FLT_DROP_COUNT, .FLT_STAT_STAT, .PUN_STAT_TRIGIGN, .TB_EPOCH_EPOCH, .TL_COLL_COLL, .TL_LAST_EPOCH, .TL_LVL_LVL, .VIN_STAT_HELD, .VIN_TLAST_ORG_LATE, .VIN_TLAST_ORG_LATEO, .VIN_TLAST_ORG_ORIGIN, .VIN_TLAST_T, .X_FQ_RUN, .X_PUN_EDGE, .X_PUN_EDGE_T, .X_SLEW_HOLD, .X_TL_CLRC, .X_TL_FELL, .X_TL_PULSE, .X_TL_SETC, .X_TL_WAS] : List Fld) ⊆ fl) (hk : KeepsR s₀ s.regs fl) : KeepsR s₀ (epochTick s).regs fl := by
  unfold epochTick
  try dsimp only
  repeat' first
    | with_reducible exact hk
    | exact hfl (by decide)
    | exact List.Subset.trans (by decide) hfl
    | with_reducible apply clr_k
    | with_reducible apply incWrap_k
    | with_reducible apply epochMoved_k
    | with_reducible apply ite_k
    | split
    | dsimp only

theorem tick_k {s : State} (hfl : ([.FLT_DROP_COUNT, .FLT_STAT_STAT, .PATH_DISC_COUNT, .PUN_STAT_TRIGIGN, .TB_EPOCH_EPOCH, .TL_COLL_COLL, .TL_LAST_EPOCH, .TL_LVL_LVL, .VIN_STAT_HELD, .VIN_TLAST_ORG_LATE, .VIN_TLAST_ORG_LATEO, .VIN_TLAST_ORG_ORIGIN, .VIN_TLAST_T, .X_FQ_RUN, .X_PAT_ACC, .X_PAT_IX, .X_PAT_REG, .X_PAT_RUN, .X_PUN_EDGE, .X_PUN_EDGE_T, .X_SLEW_HOLD, .X_TL_CLRC, .X_TL_FELL, .X_TL_PULSE, .X_TL_SETC, .X_TL_WAS] : List Fld) ⊆ fl) (hk : KeepsR s₀ s.regs fl) : KeepsR s₀ (tick s).regs fl := by
  unfold tick
  try dsimp only
  repeat' first
    | with_reducible exact hk
    | exact List.Subset.trans (by decide) hfl
    | with_reducible apply start_k
    | with_reducible apply epochTick_k
    | with_reducible apply patTick_k
    | with_reducible refine each_k ?_ (fun s a hk => ?_)
    | with_reducible apply ite_k
    | split
    | dsimp only

theorem epochLoad_k {s : State} {e : Nat} (hfl : ([.FLT_DROP_COUNT, .FLT_STAT_STAT, .PUN_DISC_COUNT, .PUN_STAT_TRIGIGN, .TB_EPOCH_EPOCH, .TB_STAT_SLEW, .TB_STAT_STEPS, .TB_STAT_VALID, .TL_COLL_COLL, .TL_LAST_EPOCH, .TL_LVL_LVL, .VIN_STAT_HELD, .VIN_TLAST_ORG_LATE, .VIN_TLAST_ORG_LATEO, .VIN_TLAST_ORG_ORIGIN, .VIN_TLAST_T, .X_FQ_RUN, .X_PUN_EDGE, .X_PUN_EDGE_T, .X_SLEW_HOLD, .X_SLEW_LEFT, .X_TL_CLRC, .X_TL_FELL, .X_TL_PULSE, .X_TL_SETC, .X_TL_WAS] : List Fld) ⊆ fl) (hk : KeepsR s₀ s.regs fl) : KeepsR s₀ (epochLoad s e).regs fl := by
  unfold epochLoad
  try dsimp only
  repeat' first
    | with_reducible exact hk
    | exact hfl (by decide)
    | exact List.Subset.trans (by decide) hfl
    | with_reducible apply wr_k
    | with_reducible apply set_k
    | with_reducible apply clr_k
    | with_reducible apply incSat_k
    | with_reducible apply epochMoved_k
    | with_reducible apply endCause_k
    | with_reducible apply epochEvents_k
    | with_reducible apply ite_k
    | split
    | dsimp only

theorem slewBegin_k {s : State} {ofs : Int} (hfl : ([.TB_STAT_SLEW, .X_SLEW_LEFT] : List Fld) ⊆ fl) (hk : KeepsR s₀ s.regs fl) : KeepsR s₀ (slewBegin s ofs).regs fl := by
  unfold slewBegin
  try dsimp only
  repeat' first
    | with_reducible exact hk
    | exact hfl (by decide)
    | with_reducible apply wr_k
    | with_reducible apply set_k
    | with_reducible apply clr_k
    | with_reducible apply ite_k
    | split
    | dsimp only

theorem vineAcquire_k {s : State} {e : Nat} (hfl : ([.CLK_STAT_TRDY, .FLT_DROP_COUNT, .FLT_STAT_STAT, .PUN_DISC_COUNT, .PUN_STAT_TRIGIGN, .TB_EPOCH_EPOCH, .TB_STAT_SLEW, .TB_STAT_STEPS, .TB_STAT_VALID, .TL_COLL_COLL, .TL_LAST_EPOCH, .TL_LVL_LVL, .VIN_STAT_HELD, .VIN_TLAST_ORG_LATE, .VIN_TLAST_ORG_LATEO, .VIN_TLAST_ORG_ORIGIN, .VIN_TLAST_T, .X_FQ_RUN, .X_PUN_EDGE, .X_PUN_EDGE_T, .X_SLEW_HOLD, .X_SLEW_LEFT, .X_TL_CLRC, .X_TL_FELL, .X_TL_PULSE, .X_TL_SETC, .X_TL_WAS] : List Fld) ⊆ fl) (hk : KeepsR s₀ s.regs fl) : KeepsR s₀ (vineAcquire s e).regs fl := by
  unfold vineAcquire
  try dsimp only
  repeat' first
    | with_reducible exact hk
    | exact hfl (by decide)
    | exact List.Subset.trans (by decide) hfl
    | with_reducible apply set_k
    | with_reducible apply epochLoad_k
    | with_reducible apply ite_k
    | split
    | dsimp only

theorem busyNak_k {s : State} (hfl : ([.TW_CNT_NAKBUSY] : List Fld) ⊆ fl) (hk : KeepsR s₀ s.regs fl) : KeepsR s₀ (busyNak s).regs fl := by
  unfold busyNak
  try dsimp only
  repeat' first
    | with_reducible exact hk
    | exact hfl (by decide)
    | with_reducible apply incSat_k
    | with_reducible apply emit_k
    | dsimp only

theorem twWrite_k {s : State} {l : List Byte} {pec : Bool} {e : TwEnd} {f : State → State} (hfl : ([.TW_STAT_PECERR, .TW_STAT_PECMISS, .TW_STAT_PROTO] : List Fld) ⊆ fl) (hf_f : ∀ y0, KeepsR s₀ y0.regs fl → KeepsR s₀ (f y0).regs fl) (hk : KeepsR s₀ s.regs fl) : KeepsR s₀ (twWrite s l pec e f).regs fl := by
  unfold twWrite
  try dsimp only
  repeat' first
    | with_reducible exact hk
    | exact hfl (by decide)
    | with_reducible apply set_k
    | with_reducible apply emit_k
    | with_reducible apply hf_f
    | with_reducible apply ite_k
    | split
    | dsimp only

theorem twRead_k {s : State} {l : List Byte} {form : List Byte} {pec : Bool} {n : Nat} (hfl : ([.TW_STAT_PROTO] : List Fld) ⊆ fl) (hk : KeepsR s₀ s.regs fl) : KeepsR s₀ (twRead s l form pec n).regs fl := by
  unfold twRead
  try dsimp only
  repeat' first
    | with_reducible exact hk
    | exact hfl (by decide)
    | with_reducible apply set_k
    | with_reducible apply emit_k
    | with_reducible apply ite_k
    | split
    | dsimp only

theorem twGet_k {s : State} {a : BitVec 7} {cmd : Nat} {form : List Byte} {extra : Bool} {n : Nat} (hfl : ([.TW_STAT_PROTO] : List Fld) ⊆ fl) (hk : KeepsR s₀ s.regs fl) : KeepsR s₀ (twGet s a cmd form extra n).regs fl := by
  unfold twGet
  try dsimp only
  repeat' first
    | with_reducible exact hk
    | exact List.Subset.trans (by decide) hfl
    | with_reducible apply emit_k
    | with_reducible apply twRead_k
    | with_reducible apply ite_k
    | split
    | dsimp only

theorem twEvent_k {s : State} {kind : Nat} (hfl : ([.FLT_DROP_COUNT, .FLT_STAT_STAT, .X_FQ_RUN] : List Fld) ⊆ fl) (hk : KeepsR s₀ s.regs fl) : KeepsR s₀ (twEvent s kind).regs fl := by
  unfold twEvent
  try dsimp only
  repeat' first
    | with_reducible exact hk
    | exact List.Subset.trans (by decide) hfl
    | with_reducible apply raise_k
    | dsimp only

theorem alertBytes_k {s : State} (hk : KeepsR s₀ s.regs fl) : KeepsR s₀ (alertBytes s).2.regs fl := by
  unfold alertBytes
  try dsimp only
  repeat' first
    | with_reducible exact hk
    | with_reducible apply freshNat_k
    | with_reducible apply ite_k
    | with_reducible apply ite_k2
    | split
    | dsimp only

theorem retryCount_k {s : State} {f : Fld} (hfl : ([.TW_CNT_RETRIES] : List Fld) ⊆ fl) (hk : KeepsR s₀ s.regs fl) : KeepsR s₀ (retryCount s f).regs fl := by
  unfold retryCount
  try dsimp only
  repeat' first
    | with_reducible exact hk
    | exact hfl (by decide)
    | with_reducible apply incSat_k
    | with_reducible apply ite_k
    | split
    | dsimp only

theorem delayNone_k {s : State} {p : Nat} {u : RxUnit} {line : List Byte} (hfl : ([.PATH_DISC_COUNT, .X_DLY_BYTES] : List Fld) ⊆ fl) (hk : KeepsR s₀ s.regs fl) : KeepsR s₀ (delayNone s p u line).regs fl := by
  unfold delayNone
  try dsimp only
  repeat' first
    | with_reducible exact hk
    | exact hfl (by decide)
    | exact List.Subset.trans (by decide) hfl
    | with_reducible apply incSat_k
    | with_reducible apply cellSend_k
    | with_reducible apply transmit_k
    | with_reducible refine each_k ?_ (fun s a hk => ?_)
    | with_reducible apply ite_k
    | split
    | dsimp only

theorem fecCount_k {s : State} {p : Nat} {u : RxUnit} (hfl : ([.FEC_CORR_COUNT, .FEC_CW_COUNT, .FEC_SYM_COUNT, .FEC_UNC_COUNT, .X_CW, .X_FEC_ACC] : List Fld) ⊆ fl) (hk : KeepsR s₀ s.regs fl) : KeepsR s₀ (fecCount s p u).regs fl := by
  unfold fecCount
  try dsimp only
  repeat' first
    | with_reducible exact hk
    | exact hfl (by decide)
    | with_reducible apply wr_k
    | with_reducible apply incSat_k
    | with_reducible apply incWrap_k
    | with_reducible apply ite_k
    | split
    | dsimp only

theorem skpDue_k {s : State} {p : Nat} {pos : Nat} (hfl : ([.FLT_DROP_COUNT, .FLT_STAT_STAT, .PUN_DISC_COUNT, .SEQ_ACNT_CANCEL, .X_FQ_RUN, .X_SKP_V] : List Fld) ⊆ fl) (hk : KeepsR s₀ s.regs fl) : KeepsR s₀ (skpDue s p pos).regs fl := by
  unfold skpDue
  try dsimp only
  repeat' first
    | with_reducible exact hk
    | exact hfl (by decide)
    | exact List.Subset.trans (by decide) hfl
    | with_reducible apply clr_k
    | with_reducible apply cancelAction_k
    | with_reducible apply ite_k
    | split
    | dsimp only

theorem f5Burst_k {s : State} {p : Nat} {pos : Nat} (hfl : ([.F5_STAT_SKIP, .INJ_ENT_INFO_ACT, .INJ_ENT_INFO_FIX, .INJ_ENT_INFO_PATH, .INJ_ENT_INFO_STATE, .INJ_ENT_INFO_T, .INJ_ENT_MOMENT, .INJ_STAT_FREE, .X_INJ_DATA, .X_INJ_HIT, .X_INJ_ORD, .X_INJ_PASSED, .X_INJ_REACH, .X_INJ_SEQ, .X_INJ_SRC] : List Fld) ⊆ fl) (hk : KeepsR s₀ s.regs fl) : KeepsR s₀ (f5Burst s p pos).regs fl := by
  unfold f5Burst
  try dsimp only
  repeat' first
    | with_reducible exact hk
    | exact hfl (by decide)
    | exact List.Subset.trans (by decide) hfl
    | with_reducible apply incSat_k
    | with_reducible apply injTake_k
    | with_reducible apply ite_k
    | split
    | dsimp only

theorem eiosSeen_k {s : State} {p : Nat} {u : RxUnit} (hfl : ([.CAL_LSTAT_CONSEC, .CAL_LSTAT_STATE, .CAL_SLC_ROLE, .LNK_PSTAT_RATE, .PUN_DISC_COUNT, .QUAL_BER_STALE, .TX_FIRACT_ACT, .XCVR_STAT_ADAPTED, .XCVR_STAT_LOCK, .XCVR_STAT_RXTERM, .XCVR_STAT_SSCACT, .XCVR_STAT_TXCLK, .XCVR_STAT_TXIDLE, .X_CAL_AGREE, .X_CAL_LATER, .X_CAL_PASS, .X_CAL_ST, .X_CAL_STEP, .X_QW_CUT, .X_RATE_NEXT, .X_SSC_EFF] : List Fld) ⊆ fl) (hk : KeepsR s₀ s.regs fl) : KeepsR s₀ (eiosSeen s p u).regs fl := by
  unfold eiosSeen
  try dsimp only
  repeat' first
    | with_reducible exact hk
    | exact List.Subset.trans (by decide) hfl
    | with_reducible apply rateSwitch_k
    | with_reducible apply ite_k
    | split
    | dsimp only

theorem unitUnstaged_k {s : State} {p : Nat} {h : HeldUnit} (hfl : ([.FLT_DROP_COUNT, .FLT_STAT_STAT, .INJ_ENT_INFO_STATE, .INJ_LOG_ENTRY, .INJ_LOG_OUTCOME, .INJ_LOG_PATH, .INJ_LOG_POS, .INJ_LOG_SRC_SOURCE, .INJ_STAT_FREE, .INJ_STAT_LOST, .INJ_STAT_WIDX, .PUN_DISC_COUNT, .SEQ_ACNT_CANCEL, .X_FQ_RUN, .X_INJ_LOGN, .X_INJ_NPOS, .X_INJ_REACH] : List Fld) ⊆ fl) (hk : KeepsR s₀ s.regs fl) : KeepsR s₀ (unitUnstaged s p h).regs fl := by
  unfold unitUnstaged
  try dsimp only
  repeat' first
    | with_reducible exact hk
    | exact List.Subset.trans (by decide) hfl
    | with_reducible apply missUnit_k
    | with_reducible apply emitTx_k
    | with_reducible apply ite_k
    | split
    | dsimp only

theorem guardUnit_k {s : State} {p : Nat} (hk : KeepsR s₀ s.regs fl) : KeepsR s₀ (guardUnit s p).regs fl := by
  unfold guardUnit
  try dsimp only
  repeat' first
    | with_reducible exact hk
    | with_reducible apply setWait_k
    | with_reducible refine each_k ?_ (fun s a hk => ?_)
    | with_reducible apply ite_k
    | split
    | dsimp only

end Sys2Proof.Machine
end

