-- ==== Sys2Proof/Laws/Seq.lean ====
section
/-! SUPPORT. The sequencers: what issuing an instruction does, its flags, its end. -/
namespace Sys2Proof.Machine

variable (s : State)

theorem takeInj_none (k : Nat) (h : s.rd .X_INJ_LEFT 0 = 0 ∨ s.rd .X_INJ_CHECKER 0 ≠ k) : takeInj s k = (none, s) := by
  unfold takeInj
  rw [if_neg]
  rintro ⟨h1, h2⟩
  rcases h with h | h
  · exact h1 h
  · exact h h2

/-- A row whose instruction a thread is about to issue carries it out. -/
theorem seqRow_issues {g : Fin 16} {t : Fin 4} {o : SOp} {f : SFields} (sem : SCtx → State → SRes) (adv : Nat) (h : s.issues g t o f) :
    seqRow o sem g t adv s
      = .next (finishOp ⟨g, t, f, s.rd .SEQ_TSTAT_PC (4 * g + t), false, adv⟩ (sem ⟨g, t, f, s.rd .SEQ_TSTAT_PC (4 * g + t), false, adv⟩ s.start)) := by
  obtain ⟨h1, h2, h3, h4, h5⟩ := h
  have h4' : seqDecode (s.start.fetch g t) = .ok o f := h4
  have h2' : s.start.threadRuns g t = true := h2
  rw [seqRow, live_of s _ h1, if_pos h2']
  simp only [issueAs, h4', if_true, fetchParity, takeInj_none s.start g h3]
  rfl

theorem issues_room {g : Fin 16} {t : Fin 4} {o : SOp} {f : SFields} (h : s.issues g t o f) : s.rd .SEQ_TSTAT_PC (4 * g + t) < 16383 := h.2.2.2.2

/-! Flags. -/

theorem bit_setBitTo : ∀ v < 16, ∀ i < 4, ∀ j < 4, ∀ b : Bool, bitOf (setBitTo v i b % 16) j = (if j = i then b else bitOf v j) ∧ setBitTo v i b < 16 := by decide

theorem putBit_lt {v i : Nat} (hv : v < 16) (hi : i < 4) (b : Option Bool) : putBit v i b < 16 := by
  cases b with
  | none => exact hv
  | some x => exact (bit_setBitTo v hv i hi 0 (by omega) x).2

theorem putBit_get {v i j : Nat} (hv : v < 16) (hi : i < 4) (hj : j < 4) (b : Option Bool) :
    bitOf (putBit v i b) j = if j = i then b.getD (bitOf v j) else bitOf v j := by
  cases b with
  | none => simp [putBit]
  | some x =>
    have h := bit_setBitTo v hv i hi j hj x
    have h2 := h.1
    rw [Nat.mod_eq_of_lt h.2] at h2
    simpa [putBit] using h2

/-- The flags after setFlags: those named take their values, the others stay. -/
theorem flags_setFlags (th : Nat) (z c m e : Option Bool) :
    (setFlags s th z c m e).flags th
      = (z.getD (s.flag th fZ), c.getD (s.flag th fC), m.getD (s.flag th fM), e.getD (s.flag th fE)) := by
  have hw : Fld.SEQ_TSTAT_FLAGS.width = 4 := rfl
  have h0 : s.rd .SEQ_TSTAT_FLAGS th < 16 := s.rd_lt .SEQ_TSTAT_FLAGS th
  have h1 := putBit_lt h0 (i := fZ) (by decide) z
  have h2 := putBit_lt h1 (i := fC) (by decide) c
  have h3 := putBit_lt h2 (i := fM) (by decide) m
  have h4 := putBit_lt h3 (i := fE) (by decide) e
  have e4 : ∀ j < 4, _ := fun j hj => putBit_get h3 (i := fE) (j := j) (by decide) hj e
  have e3 : ∀ j < 4, _ := fun j hj => putBit_get h2 (i := fM) (j := j) (by decide) hj m
  have e2 : ∀ j < 4, _ := fun j hj => putBit_get h1 (i := fC) (j := j) (by decide) hj c
  have e1 : ∀ j < 4, _ := fun j hj => putBit_get h0 (i := fZ) (j := j) (by decide) hj z
  simp only [State.flags, State.flag, State.bit, setFlags, State.rd_wr_same, hw]
  simp only [show (2 : Nat) ^ 4 = 16 from rfl, Nat.mod_eq_of_lt h4]
  refine Prod.ext ?_ (Prod.ext ?_ (Prod.ext ?_ ?_))
  · simp only; rw [e4 fZ (by decide), e3 fZ (by decide), e2 fZ (by decide), e1 fZ (by decide)]; simp [fZ, fC, fM, fE]
  · simp only; rw [e4 fC (by decide), e3 fC (by decide), e2 fC (by decide), e1 fC (by decide)]; simp [fZ, fC, fM, fE]
  · simp only; rw [e4 fM (by decide), e3 fM (by decide), e2 fM (by decide), e1 fM (by decide)]; simp [fZ, fC, fM, fE]
  · simp only; rw [e4 fE (by decide), e3 fE (by decide), e2 fE (by decide), e1 fE (by decide)]; simp [fZ, fC, fM, fE]

theorem flags_eq {s t : State} {th : Nat} (h : t.rd .SEQ_TSTAT_FLAGS th = s.rd .SEQ_TSTAT_FLAGS th) : t.flags th = s.flags th := by
  simp only [State.flags, State.flag, State.bit, h]

/-! Data memory writes. -/

/-- Returned credits move the two credit counters alone. -/
theorem ltReturn_keeps (t fc h d : Nat) :
    s.fldsBut (ltReturn s t fc h d) [.X_LT_HC, .X_LT_DC] ∧ (ltReturn s t fc h d).dmem = s.dmem ∧ (ltReturn s t fc h d).imem = s.imem
      ∧ (ltReturn s t fc h d).tower = s.tower ∧ (ltReturn s t fc h d).nvm = s.nvm ∧ (ltReturn s t fc h d).win = s.win := by
  unfold ltReturn
  split
  · exact ⟨fun _ _ _ => rfl, rfl, rfl, rfl, rfl, rfl⟩
  · refine ⟨fun f i hf => ?_, rfl, rfl, rfl, rfl, rfl⟩
    simp only [List.mem_cons, List.not_mem_nil, or_false, not_or] at hf
    simp [ltEmit, State.emitTx, State.incWrap, State.rd_wr, hf.1, hf.2]

/-- What credits leave alone. -/
def credKeeps (s t : State) : Prop :=
  s.fldsBut t [.X_LT_HC, .X_LT_DC] ∧ t.dmem = s.dmem ∧ t.imem = s.imem ∧ t.tower = s.tower ∧ t.nvm = s.nvm ∧ t.win = s.win

theorem credKeeps_trans {s t u : State} (a : credKeeps s t) (b : credKeeps t u) : credKeeps s u := by
  obtain ⟨a0, a1, a2, a3, a4, a5⟩ := a
  obtain ⟨b0, b1, b2, b3, b4, b5⟩ := b
  exact ⟨fun f i h => (b0 f i h).trans (a0 f i h), b1.trans a1, b2.trans a2, b3.trans a3, b4.trans a4, b5.trans a5⟩

theorem credKeeps_refl : credKeeps s s := ⟨fun _ _ _ => rfl, rfl, rfl, rfl, rfl, rfl⟩

theorem credKeeps_fold (t : Nat) : ∀ (l : List Nat) (s : State), credKeeps s (l.foldl (fun s fc => ltReturn s t fc 1 0) s) := by
  intro l
  induction l with
  | nil => intro s; exact credKeeps_refl s
  | cons a r ih => intro s; exact credKeeps_trans (ltReturn_keeps s t a 1 0) (ih _)

/-- What writing a data memory word changes: the word, and the credit counters of a receive ring whose consumer index it is. -/
theorem ringWritten_keeps (g w : Nat) : credKeeps s (ringWritten s g w) := by
  have one : ∀ (u : State) (t : Nat), credKeeps u
      (let size := u.rd .LT_RXRING_SIZE t
       let base := u.rd .LT_RXRING_BASE t
       if 0 < size ∧ w = base + 1 then
         let types := nget u.ltHdr [] t
         let passed := types.length - u.ringHeld g base size
         let u := { u with ltHdr := nset u.ltHdr [] t (types.drop passed) }
         (types.take passed).foldl (fun s fc => ltReturn s t fc 1 0) u
       else u) := by
    intro u t
    simp only
    split
    · exact credKeeps_trans ⟨fun _ _ _ => rfl, rfl, rfl, rfl, rfl, rfl⟩ (credKeeps_fold t _ _)
    · exact credKeeps_refl u
  exact credKeeps_trans (one s (2 * g)) (one _ (2 * g + 1))

/-! The end of an instruction. -/

theorem finishOp_next (c : SCtx) (u : State) (h : c.pc < 16383) (hs : c.step = false) :
    finishOp c (u, .next) = (u.wr .SEQ_TSTAT_PC c.th (c.pc + 1)).wr .SEQ_TSTAT_STATE c.th tRUNNING := by
  simp only [finishOp, advance]
  rw [if_neg (by omega), hs]
  rfl

theorem finishOp_jump (c : SCtx) (u : State) (a : Nat) (h : a ≤ 16383) (hs : c.step = false) :
    finishOp c (u, .jump a) = (u.wr .SEQ_TSTAT_PC c.th a).wr .SEQ_TSTAT_STATE c.th tRUNNING := by
  simp only [finishOp, advance]
  rw [if_neg (by omega), hs]
  rfl

/-- An issued instruction that goes on to the next word, and one that jumps. -/
theorem seqRow_next {g : Fin 16} {t : Fin 4} {o : SOp} {f : SFields} {sem : SCtx → State → SRes} {adv : Nat} {u : State} (h : s.issues g t o f)
    (hs : sem ⟨g, t, f, s.rd .SEQ_TSTAT_PC (4 * g + t), false, adv⟩ s.start = (u, .next)) :
    seqRow o sem g t adv s
      = .next ((u.wr .SEQ_TSTAT_PC (4 * g + t) (s.rd .SEQ_TSTAT_PC (4 * g + t) + 1)).wr .SEQ_TSTAT_STATE (4 * g + t) tRUNNING) := by
  rw [seqRow_issues s sem adv h, hs, finishOp_next _ _ (issues_room s h) rfl]; rfl

theorem seqRow_jump {g : Fin 16} {t : Fin 4} {o : SOp} {f : SFields} {sem : SCtx → State → SRes} {adv a : Nat} {u : State} (h : s.issues g t o f)
    (hs : sem ⟨g, t, f, s.rd .SEQ_TSTAT_PC (4 * g + t), false, adv⟩ s.start = (u, .jump a)) (ha : a ≤ 16383) :
    seqRow o sem g t adv s = .next ((u.wr .SEQ_TSTAT_PC (4 * g + t) a).wr .SEQ_TSTAT_STATE (4 * g + t) tRUNNING) := by
  rw [seqRow_issues s sem adv h, hs, finishOp_jump _ _ _ ha rfl]; rfl

theorem memSame_refl : s.memSame s := ⟨fun _ _ => rfl, fun _ _ => rfl, rfl, fun _ => rfl, fun _ => rfl⟩

/-- Two states that differ in the registers that an instruction writes, and in what is sent. -/
theorem seqEnds_gen {g : Fin 16} {t : Fin 4} {o : SOp} {f : SFields} {sem : SCtx → State → SRes} {adv v : Nat} {z c m e : Bool} {u : State}
    (h : s.issues g t o f) (hs : sem ⟨g, t, f, s.rd .SEQ_TSTAT_PC (4 * g + t), false, adv⟩ s.start = (u, .next))
    (hv : u.wreg (4 * g + t) f.rd = v) (hf : u.flags (4 * g + t) = (z, c, m, e))
    (hr : s.regsBut u (seqKeys (4 * g + t) f.rd)) (hm : s.memSame u) :
    SeqEnds s (seqRow o sem g t adv s) (4 * g + t) f.rd v z c m e := by
  have hr' := issues_room s h
  refine ⟨_, by rw [seqRow_issues s sem adv h, hs, finishOp_next _ _ hr' rfl], ?_, ?_, ?_, ?_, ?_, ?_⟩
  · rw [← hv]; simp [State.wreg, State.rd_wr, SCtx.th]
  · rw [flags_eq (s := u), hf]
    simp [State.rd_wr, SCtx.th]
  · have : Fld.SEQ_TSTAT_PC.width = 14 := rfl
    simp only [State.rd_wr, SCtx.th, this]
    simp; omega
  · have : Fld.SEQ_TSTAT_STATE.width = 3 := rfl
    simp [SCtx.th, this, tRUNNING]
  · intro k i hk
    have h2 := hr k i hk
    simp only [seqKeys, List.mem_cons, Prod.mk.injEq, List.not_mem_nil, or_false, not_or] at hk
    obtain ⟨a, b, c, d⟩ := hk
    simp [State.rd_wr, SCtx.th, c, d, h2]
  · exact hm

/-- A row that writes v to rd, sets flags and goes on ends as SeqEnds says. -/
theorem seqEnds_of {g : Fin 16} {t : Fin 4} {o : SOp} {f : SFields} {sem : SCtx → State → SRes} {adv v : Nat} {zf cf mf ef : Option Bool}
    (h : s.issues g t o f)
    (hs : ∀ c : SCtx, c = ⟨g, t, f, s.rd .SEQ_TSTAT_PC (4 * g + t), false, adv⟩ →
      sem c s.start = (setFlags (setWreg s.start c.th f.rd v) c.th zf cf mf ef, .next)) :
    SeqEnds s (seqRow o sem g t adv s) (4 * g + t) f.rd (v % 2 ^ 64) (zf.getD (s.flag (4 * g + t) fZ)) (cf.getD (s.flag (4 * g + t) fC))
      (mf.getD (s.flag (4 * g + t) fM)) (ef.getD (s.flag (4 * g + t) fE)) := by
  refine seqEnds_gen s h (hs _ rfl) ?_ ?_ ?_ ⟨fun _ _ => rfl, fun _ _ => rfl, rfl, fun _ => rfl, fun _ => rfl⟩
  · simp [State.wreg, State.rd_wr, setFlags, setWreg, SCtx.th]; rfl
  · have e : ∀ b, (setWreg s.start (4 * g + t) f.rd v).flag (4 * g + t) b = s.flag (4 * g + t) b := by
      intro b; simp [State.flag, State.bit, setWreg, State.rd_wr]
    show (setFlags (setWreg s.start (4 * g + t) f.rd v) (4 * g + t) zf cf mf ef).flags (4 * g + t) = _
    rw [flags_setFlags, e, e, e, e]
  · intro k i hk
    simp only [seqKeys, List.mem_cons, Prod.mk.injEq, List.not_mem_nil, or_false, not_or] at hk
    obtain ⟨a, b, c, d⟩ := hk
    simp [State.rd_wr, setFlags, setWreg, SCtx.th, a, b]

/-- A row that writes v to rd and goes on, with every flag left. -/
theorem seqEnds_wreg {g : Fin 16} {t : Fin 4} {o : SOp} {f : SFields} {sem : SCtx → State → SRes} {adv v : Nat} (h : s.issues g t o f)
    (hs : ∀ c : SCtx, c = ⟨g, t, f, s.rd .SEQ_TSTAT_PC (4 * g + t), false, adv⟩ → sem c s.start = (setWreg s.start c.th f.rd v, .next)) :
    SeqEnds s (seqRow o sem g t adv s) (4 * g + t) f.rd (v % 2 ^ 64) (s.flag (4 * g + t) fZ) (s.flag (4 * g + t) fC)
      (s.flag (4 * g + t) fM) (s.flag (4 * g + t) fE) := by
  refine seqEnds_gen s h (hs _ rfl) ?_ ?_ ?_ ⟨fun _ _ => rfl, fun _ _ => rfl, rfl, fun _ => rfl, fun _ => rfl⟩
  · simp [State.wreg, setWreg, SCtx.th]; rfl
  · exact flags_eq (s := s) (by simp [setWreg, State.rd_wr])
  · intro k i hk
    simp only [seqKeys, List.mem_cons, Prod.mk.injEq, List.not_mem_nil, or_false, not_or] at hk
    obtain ⟨a, b, c, d⟩ := hk
    simp [State.rd_wr, setWreg, SCtx.th, a]

/-- A row that changes nothing and goes on at an address. -/
theorem seqGoes_of {g : Fin 16} {t : Fin 4} {o : SOp} {f : SFields} {sem : SCtx → State → SRes} {adv a : Nat} {n : SNext} (h : s.issues g t o f)
    (hs : sem ⟨g, t, f, s.rd .SEQ_TSTAT_PC (4 * g + t), false, adv⟩ s.start = (s.start, n))
    (hn : (n = .next ∧ a = s.rd .SEQ_TSTAT_PC (4 * g + t) + 1) ∨ (n = .jump a ∧ a ≤ 16383)) :
    SeqGoes s (seqRow o sem g t adv s) (4 * g + t) a := by
  have hr' := issues_room s h
  have e : finishOp ⟨g, t, f, s.rd .SEQ_TSTAT_PC (4 * g + t), false, adv⟩ (s.start, n) = (s.start.wr .SEQ_TSTAT_PC (4 * g + t) a).wr .SEQ_TSTAT_STATE (4 * g + t) tRUNNING := by
    rcases hn with ⟨rfl, rfl⟩ | ⟨rfl, ha⟩
    · exact finishOp_next _ _ hr' rfl
    · exact finishOp_jump _ _ _ ha rfl
  have ha : a ≤ 16383 := by rcases hn with ⟨_, rfl⟩ | ⟨_, ha⟩ <;> omega
  refine ⟨(s.start.wr .SEQ_TSTAT_PC (4 * g + t) a).wr .SEQ_TSTAT_STATE (4 * g + t) tRUNNING, by rw [seqRow_issues s sem adv h, hs, e], ?_, ?_, ?_,
    ⟨fun _ _ => rfl, fun _ _ => rfl, rfl, fun _ => rfl, fun _ => rfl⟩⟩
  · have : Fld.SEQ_TSTAT_PC.width = 14 := rfl
    simp only [State.rd_wr, this]
    simp; omega
  · have : Fld.SEQ_TSTAT_STATE.width = 3 := rfl
    simp [this, tRUNNING]
  · intro k i hk
    simp only [List.mem_cons, Prod.mk.injEq, List.not_mem_nil, or_false, not_or] at hk
    simp [State.rd_wr, hk.1, hk.2]

/-- The state that an instruction with a result code leaves, from the state u that its effect left. -/
def codeState (u : State) (c : SCtx) (code entry : Nat) (past : Bool) : State :=
  ((putCode u c code entry past).wr .SEQ_TSTAT_PC c.th (c.pc + 1)).wr .SEQ_TSTAT_STATE c.th tRUNNING

theorem codeState_rd (u : State) (c : SCtx) (code entry : Nat) (past : Bool) {f : Fld} (i : Nat)
    (hf : f ∉ [Fld.SEQ_REGS_W, .SEQ_TSTAT_FLAGS, .SEQ_TSTAT_PC, .SEQ_TSTAT_STATE]) : (codeState u c code entry past).rd f i = u.rd f i := by
  simp only [List.mem_cons, List.not_mem_nil, or_false, not_or] at hf
  simp [codeState, putCode, setFlags, setWreg, State.rd_wr, hf.1, hf.2.1, hf.2.2.1, hf.2.2.2]

/-- An instruction with a result code ends as SeqDone says. -/
theorem seqDone_of {g : Fin 16} {t : Fin 4} {o : SOp} {f : SFields} {sem : SCtx → State → SRes} {adv code entry : Nat} {past : Bool} {u : State}
    {l : List Fld} {P : State → Prop} (h : s.issues g t o f)
    (hs : sem ⟨g, t, f, s.rd .SEQ_TSTAT_PC (4 * g + t), false, adv⟩ s.start
      = (putCode u ⟨g, t, f, s.rd .SEQ_TSTAT_PC (4 * g + t), false, adv⟩ code entry past, .next))
    (hc : code + 256 * entry < 2 ^ 64) (hu : ∀ k i, k ∉ l → u.rd k i = s.rd k i) (hm : s.memSame u)
    (hP : P (codeState u ⟨g, t, f, s.rd .SEQ_TSTAT_PC (4 * g + t), false, adv⟩ code entry past)) :
    SeqDone s (seqRow o sem g t adv s) (4 * g + t) f.rd code entry past l P := by
  have hr' := issues_room s h
  have w1 : Fld.SEQ_REGS_W.width = 64 := rfl
  have w2 : Fld.SEQ_TSTAT_PC.width = 14 := rfl
  have w3 : Fld.SEQ_TSTAT_STATE.width = 3 := rfl
  refine ⟨codeState u ⟨g, t, f, s.rd .SEQ_TSTAT_PC (4 * g + t), false, adv⟩ code entry past,
    by rw [seqRow_issues s sem adv h, hs, finishOp_next _ _ hr' rfl]; rfl, ?_, ?_, ?_, ?_, hP, ?_, hm⟩
  · simp only [codeState, putCode, setFlags, setWreg, State.wreg, State.rd_wr, SCtx.th, w1]
    simp; omega
  · have e : ∀ v : State, (v.wr .SEQ_TSTAT_PC (4 * g + t) (s.rd .SEQ_TSTAT_PC (4 * g + t) + 1) |>.wr .SEQ_TSTAT_STATE (4 * g + t) tRUNNING).flags (4 * g + t)
        = v.flags (4 * g + t) := by
      intro v; apply flags_eq; simp [State.rd_wr]
    exact (e _).trans (by rw [putCode, SCtx.th, flags_setFlags]; rfl)
  · simp only [codeState, State.rd_wr, SCtx.th, w2]
    simp; omega
  · simp [codeState, SCtx.th, w3, tRUNNING]
  · intro k i hk hn
    simp only [seqKeys, List.mem_cons, Prod.mk.injEq, List.not_mem_nil, or_false, not_or] at hn
    obtain ⟨a, b, c, d⟩ := hn
    simp [codeState, putCode, setFlags, setWreg, State.rd_wr, SCtx.th, a, b, c, d, hu k i hk]

end Sys2Proof.Machine
end

