-- ==== Sys2Proof/WellFormed.lean ====
section
/-! DEFINITION. Well-formed commands: those whose operands can stand on the wires they describe. The machine gives every command a meaning; a claim about what a
partner or a bus can send asks for well-formed ones. -/
namespace Sys2Proof

/-- A list of numbers rises. -/
def rises : List Nat → Bool
  | a :: b :: r => decide (a < b) && rises (b :: r)
  | _ => true

/-- The most window bytes of one copy that a part of a kind has (R320, R368): a symbol of idle, the six bytes of a DLLP, the sixteen symbols of an ordered set, the four of an EDS token. -/
def ItemKind.most (k : ItemKind) (n : Nat) : Nat :=
  match k with
  | .idle => 1
  | .eds => 4
  | .dllp => 6
  | .os | .skp | .ts | .ei | .eieos => if k = .skp then 24 else 16
  | .tlp | .slot => n

/-- A part of a decoded unit: its bytes lie within n bytes of the line unit; only the part that ends a unit says what checks found, and only of a TLP what IDE made. -/
def RxPart.wf (n : Nat) (x : RxPart) : Bool :=
  x.copies.all (fun l => l.all (decide <| · < n) && decide (l.length ≤ x.kind.most n)) && x.pre.all (decide <| · < n) && x.post.all (decide <| · < n)
    && (x.last || (x.err.isNone && x.ide.isNone)) && (x.ide.isNone || x.kind == .tlp)
    && decide (x.copies.length = 1 ∨ x.kind = .os ∨ x.kind = .skp ∨ x.kind = .ts ∨ x.kind = .ei ∨ x.kind = .eieos)

/-- A line unit: parts in order within its bytes (those after FEC decoding, of a flit); the bits that differ are among those checked, in order; cells are 64 bytes; codewords
corrected and uncorrectable are among those that end; what FEC decoding yields is a flit of 256 or 68 bytes, and an IDLE or NOP flit is a flit. -/
def RxUnit.wf (u : RxUnit) : Bool :=
  u.parts.all (RxPart.wf (if u.dec = [] then u.line.length else u.dec.length)) && rises u.bad && u.bad.all (decide <| · < u.ui)
    && u.cells.all (fun c => c.2.length == 64) && decide (u.corr + u.unc ≤ u.cws) && (!u.nop || u.dec != [])
    && decide (u.dec.length = 0 ∨ u.dec.length = 256 ∨ u.dec.length = 68)

/-- A calibration of a port: one trim or none for each of the five slices. -/
def PortTrim.wf (p : PortTrim) : Bool := p.slices.length == 5

/-- A SMBus block fits its count byte. -/
def blockWf (l : List Byte) : Bool := decide (l.length ≤ 255)

/-- A descriptor is 64 bytes (R455). -/
def descWf : Option (List Byte) → Bool
  | some d => d.length == 64
  | none => true

/-- A request names whole DWs of the 64 MiB map. -/
def spanWf (a : BitVec 24) (n : Nat) : Bool := decide (1 ≤ n) && decide (a.toNat + n ≤ 2 ^ 24)

/-- A BAR2 request lies within one 4 KiB page. -/
def pageWf (x : BitVec 36) (n : Nat) : Bool := decide (1 ≤ n) && decide (x.toNat % 4096 + n ≤ 4096)

/-- Well-formed commands. -/
def Instr.wf : Instr → Bool
  | .unitDecode _ _ u => u.wf
  | .foregroundCalDone _ a b => a.wf && b.wf
  | .ltRxTlp _ _ _ _ _ _ _ bytes => bytes.length % 4 == 0
  | .ltEthRxFrame _ _ bytes => decide (bytes.length ≤ 16383)
  | .bar2Read x len => pageWf x len
  | .bar2Write x bytes en => pageWf x bytes.length && en.length == bytes.length
  | .harvestRaw _ d => descWf d
  | .harvestRecords _ d => descWf d
  | .pairLowRead _ a n => spanWf a n
  | .rcFieldRead _ a n => spanWf a n
  | .registerWrite _ a vs _ => spanWf a vs.length
  | .mctpPacket _ l _ _ => blockWf l
  | .regwr _ l _ => blockWf l
  | .fwchunk _ l _ => blockWf l
  | .tapDbgauth t _ => t.length == 240
  | .vineEpochFrame _ _ hops _ => decide (hops < 32)
  | .vineStatusFrame _ _ hops _ _ => decide (hops < 32)
  | _ => true

end Sys2Proof
end

