-- ==== Sys2Proof/Tests/Slice0.lean ====
section
/-! SUPPORT. The model's own tests: an ill-formed command for each check of Instr.wf, single steps on small states with results taken from the spec, and for each
statement with hypotheses concrete states and operands that meet them together, clause by clause. -/
open Sys2Proof Sys2Proof.Machine
namespace Sys2Proof.Tests

/-- A state with register fields set. -/
def put (s : State) (l : List (Fld × Nat × Nat)) : State := l.foldl (fun s e => s.wr e.1 e.2.1 e.2.2) s

/-- A device in SERVICE: powered, with an image running, its epoch acquired and its Rind and mailboxes ready. -/
def service : State :=
  put State.reset [(.DEV_STATE_STATE, 0, 4), (.DEV_STATE_QREF_OK, 0, 15), (.PWR_STAT_ON, 0, 2 ^ 64 - 1), (.X_FWUP, 0, 1), (.TB_STAT_VALID, 0, 1), (.RND_STAT_BUSY, 0, 0),
    (.MB_STAT_NOFW, 0, 0), (.TW_MBSTAT_NOFW, 0, 0)]

/-- The same with register fields set. -/
def serving (l : List (Fld × Nat × Nat)) : State := put service l

/-- The same with thread 0 of grove 0 running at word 0, which holds the instruction of form o with fields f. -/
def asks (o : SOp) (f : SFields) (l : List (Fld × Nat × Nat)) : State :=
  (serving ((.SEQ_TSTAT_STATE, 0, 1) :: l)).setI 0 0 (BitVec.ofNat 64 (seqEncode o f))

/-- It is about to issue. -/
abbrev Ready (o : SOp) (f : SFields) (l : List (Fld × Nat × Nat)) : Prop := (asks o f l).issues 0 0 o f

/-- The state that an outcome answers. -/
def nextOf (x : Host.Outcome State Fault Refusal) : State :=
  match x with
  | .next t => t
  | _ => State.reset

/-- Link 0 of grove 0 on lane 0 with a protocol and two modes: PCIe with both paths forwarding where proto is 1 and the modes are 1 to 3. -/
def linked (proto ma mb : Nat) (l : List (Fld × Nat × Nat)) : State :=
  serving ([(.LINK_CFG_EN, 0, 1), (.LINK_CFG_PROTO, 0, proto), (.PATH_MODE_AB, 0, ma), (.PATH_MODE_BA, 0, mb), (.X_PCI_EFF, 0, 511)] ++ l)

/-! Each check of Instr.wf refuses an ill-formed command. -/

/-- A plain part of a decoded unit and a unit of eight bytes that carries it; each ill-formed unit below differs in one field. -/
def aLinePart : RxPart := ⟨.tlp, true, true, [[0]], [], [], none, 0, 0, 0, none⟩
def aLineUnit : RxUnit := ⟨false, List.replicate 8 0, [], false, [aLinePart], none, 0, 0, [], false, 0, 0, 0, 0, 8, []⟩

theorem test_wf_unit : (Instr.unitDecode 0 false aLineUnit).wf = true := by decide

theorem test_illformed_units :
    (Instr.unitDecode 0 false { aLineUnit with parts := [{ aLinePart with copies := [[8]] }] }).wf = false
      ∧ (Instr.unitDecode 0 false { aLineUnit with parts := [{ aLinePart with pre := [8] }] }).wf = false
      ∧ (Instr.unitDecode 0 false { aLineUnit with parts := [{ aLinePart with post := [8] }] }).wf = false
      ∧ (Instr.unitDecode 0 false { aLineUnit with parts := [{ aLinePart with last := false, err := some 1 }] }).wf = false
      ∧ (Instr.unitDecode 0 false { aLineUnit with parts := [{ aLinePart with copies := [] }] }).wf = false
      ∧ (Instr.unitDecode 0 false { aLineUnit with bad := [8] }).wf = false
      ∧ (Instr.unitDecode 0 false { aLineUnit with bad := [3, 3] }).wf = false
      ∧ (Instr.unitDecode 0 false { aLineUnit with cells := [(0, [])] }).wf = false
      ∧ (Instr.unitDecode 0 false { aLineUnit with corr := 1 }).wf = false
      ∧ (Instr.unitDecode 0 false { aLineUnit with nop := true }).wf = false
      ∧ (Instr.unitDecode 0 false { aLineUnit with dec := [0] }).wf = false
      ∧ (Instr.unitDecode 0 false { aLineUnit with parts := [{ aLinePart with kind := .idle, copies := [[0, 1]] }] }).wf = false
      ∧ (Instr.unitDecode 0 false { aLineUnit with parts := [{ aLinePart with kind := .dllp, ide := some ⟨0, 0, 0, 0, [], true, false⟩ }] }).wf = false := by decide

theorem test_illformed_operands :
    (Instr.foregroundCalDone 0 ⟨[none], 0, 0⟩ ⟨List.replicate 5 none, 0, 0⟩).wf = false
      ∧ (Instr.foregroundCalDone 0 ⟨List.replicate 5 none, 0, 0⟩ ⟨[], 0, 0⟩).wf = false
      ∧ (Instr.ltRxTlp 0 false true false false false 0 [0]).wf = false
      ∧ (Instr.bar2Read 4095 2).wf = false ∧ (Instr.bar2Read 0 0).wf = false
      ∧ (Instr.bar2Write 4095 [0, 0] [true, true]).wf = false ∧ (Instr.bar2Write 0 [0, 0] [true]).wf = false
      ∧ (Instr.harvestRaw 0 (some [])).wf = false ∧ (Instr.harvestRecords 0 (some [])).wf = false
      ∧ (Instr.pairLowRead .port 0 0).wf = false ∧ (Instr.rcFieldRead .port 0xFFFFFF 2).wf = false
      ∧ (Instr.registerWrite .port 0 [] true).wf = false
      ∧ (Instr.tapDbgauth [] true).wf = false
      ∧ (Instr.vineEpochFrame 0 true 32 0).wf = false ∧ (Instr.vineStatusFrame 0 0 32 true false).wf = false := by decide

theorem test_illformed_blocks :
    (Instr.mctpPacket 0 (List.replicate 256 0) true .early).wf = false ∧ (Instr.regwr 0 (List.replicate 256 0) .early).wf = false
      ∧ (Instr.fwchunk 0 (List.replicate 256 0) .early).wf = false ∧ (Instr.ltEthRxFrame 0 false (List.replicate 16384 0)).wf = false := by
  refine ⟨?_, ?_, ?_, ?_⟩ <;> decide +kernel

/-! Figures of the spec. -/

/-- The ASCII bytes "123456789". -/
def nineDigits : List Byte := [0x31, 0x32, 0x33, 0x34, 0x35, 0x36, 0x37, 0x38, 0x39]

/-- The check values of R604. -/
theorem test_check_values : crcOf crc32c nineDigits = 0xE3069283 ∧ crcOf crc32 nineDigits = 0xCBF43926 ∧ crcOf crc16 nineDigits = 0x29B1 ∧ crcOf crc8 nineDigits = 0xF4
    ∧ crcOf crc64 nineDigits = 0x6C40DF5F0B497347 := by decide +kernel

/-- AES-256 (R387): example C.3 of FIPS 197. -/
theorem test_aes256 :
    aesEnc (roundKeys (List.range 32)) ((List.range 16).map fun i => 17 * i)
      = [0x8E, 0xA2, 0xB7, 0xCA, 0x51, 0x67, 0x45, 0xBF, 0xEA, 0xFC, 0x49, 0x90, 0x4B, 0x49, 0x60, 0x89] := by decide +kernel

/-- The worked example of spec/22: the message ends with MATCH and its result in CU_LRES. -/
theorem test_cu_example :
    let s := serving [(.X_PORT_UP, 0, 1), (.CU_CTL_LEN, 2, 9), (.CU_CTL_CMPEN, 2, 1), (.CU_EXP_EXP, 2, 0xE3069283), (.CU_VAL_VAL, 2, 0xFFFFFFFF)]
    let t := nextOf (execCuFeed8 .port 2 0x39 (nextOf (execCuFeed32 .port 2 0x38373635 (nextOf (execCuFeed32 .port 2 0x34333231 s)))))
    t.rd .CU_STAT_MATCH 2 = 1 ∧ t.rd .CU_LRES_RES 2 = 0xE3069283 ∧ t.rd .CU_VAL_VAL 2 = 0xFFFFFFFF ∧ t.rd .CU_CNT_CNT 2 = 0 := by decide +kernel

/-- The worked example of spec/13: address 0x19_2345_6A89. -/
theorem test_tower_address : towerOf 0x1923456A89 = 1 ∧ slabOf 0x1923456A89 = 1608 ∧ chanOf none 0x1923456A89 = (13, 0x12345689) ∧ (locIn 1 13 0x12345689).pc = 0 := by
  decide +kernel

/-- ADD wraps and sets C and Z. -/
theorem test_add_wraps :
    let s := asks .add ⟨3, 1, 2, 0, false, 0⟩ [(.SEQ_REGS_W, 1, 2 ^ 64 - 1), (.SEQ_REGS_W, 2, 1)]
    let t := nextOf (execAdd 0 0 s)
    t.wreg 0 3 = 0 ∧ t.flags 0 = (true, true, false, false) ∧ t.rd .SEQ_TSTAT_PC 0 = 1 := by decide +kernel

/-- A command at the front of the queue is run and taken from it. -/
theorem test_step_command (r : List Instr) : step { service with pending := .perstNRelease :: r } = execPerstNRelease { service with pending := r } := rfl


/-! Hypotheses of the statements about sequencer instructions. -/

theorem witness_StepRunsFrontCommand :
    ({ State.reset with pending := [.epochSlewTick] } : State).pending = .epochSlewTick :: []
      ∧ State.reset.pending = [] := by refine ⟨?_, ?_⟩ <;> decide +kernel

theorem witness_StepKeepsCanonicalForm : State.reset.inv ∧ step State.reset = .next (tick State.reset) := by
  refine ⟨?_, rfl⟩
  unfold State.inv
  decide +kernel

theorem witness_SequencerWordsRoundTrip :
    SOp.add.wellFormed ⟨31, 31, 31, 0, false, 0⟩ = true
      ∧ SOp.addi.wellFormed ⟨0, 31, 0, 0, false, 0xFFFFFFFF⟩ = true
      ∧ SOp.twait.wellFormed ⟨31, 0, 31, 63, true, 0x3E0000000⟩ = true
      ∧ 2 ^ 64 - 1 < 2 ^ 64
      ∧ seqDecode 0 = .ok .nop ⟨0, 0, 0, 0, false, 0⟩ := by refine ⟨?_, ?_, ?_, ?_, ?_⟩ <;> decide +kernel

theorem witness_ArithmeticResults :
    (∀ o ∈ [SOp.add, .sub, .and, .or, .xor, .shl, .shr, .mul], Ready o ⟨31, 1, 2, 0, false, 0⟩ [(.SEQ_REGS_W, 1, 2 ^ 64 - 1), (.SEQ_REGS_W, 2, 63)])
      ∧ (∀ o ∈ [SOp.addi, .andi, .ori], Ready o ⟨31, 1, 0, 0, false, 0xFFFFFFFF⟩ [])
      ∧ (∀ o ∈ [SOp.ldi, .ldhi], Ready o ⟨31, 0, 0, 0, false, 0xFFFFFFFF⟩ []) := by refine ⟨?_, ?_, ?_⟩ <;> decide +kernel

theorem witness_ThreadControlInstructions :
    (∀ o ∈ [SOp.nop, .yield, .fence, .halt], Ready o ⟨0, 0, 0, 0, false, 0⟩ [])
      ∧ (let s := (serving [(.SEQ_TSTAT_STATE, 0, 1)]).setI 0 0 (BitVec.ofNat 64 (2 ^ 64 - 1))
         s.dead = false ∧ s.threadRuns 0 0 = true ∧ s.rd .X_INJ_LEFT 0 = 0 ∧ seqDecode (s.fetch 0 0) = .bad 1) := by refine ⟨?_, ?_⟩ <;> decide +kernel

theorem witness_DataMemoryAccesses :
    Ready .ld ⟨3, 1, 0, 0, false, 0xFFFF⟩ [(.SEQ_REGS_W, 1, 4096)]
      ∧ Ready .ld ⟨3, 1, 0, 0, false, 0⟩ [(.SEQ_REGS_W, 1, 4096)]
      ∧ Ready .st ⟨0, 1, 2, 0, false, 0xFFFF⟩ [(.SEQ_REGS_W, 1, 4096)]
      ∧ Ready .st ⟨0, 1, 2, 0, false, 0⟩ [(.SEQ_REGS_W, 1, 4096)] := by refine ⟨?_, ?_, ?_, ?_⟩ <;> decide +kernel

theorem witness_BranchCallLoop :
    (∀ cc ∈ List.range 9, Ready .br ⟨0, 0, 0, 0, false, cc * 2 ^ 14 + 16383⟩ [])
      ∧ (∀ o ∈ [SOp.beq, .bne, .blt, .bge], Ready o ⟨0, 1, 2, 0, false, 16383⟩ [])
      ∧ (Ready .call ⟨0, 0, 0, 0, false, 16383⟩ [(.X_RDEPTH, 0, 7)] ∧ (asks .call ⟨0, 0, 0, 0, false, 16383⟩ [(.X_RDEPTH, 0, 7)]).depth 0 = 7)
      ∧ (Ready .call ⟨0, 0, 0, 0, false, 0⟩ [(.X_RDEPTH, 0, 8)] ∧ (asks .call ⟨0, 0, 0, 0, false, 0⟩ [(.X_RDEPTH, 0, 8)]).depth 0 = 8)
      ∧ (let s := asks .ret ⟨0, 0, 0, 0, false, 0⟩ [(.X_RDEPTH, 0, 1), (.X_RSTK, 0, 16383)]
         s.issues 0 0 .ret ⟨0, 0, 0, 0, false, 0⟩ ∧ s.depth 0 = 1 ∧ s.rd .X_RSTK 0 = 16383)
      ∧ (Ready .ret ⟨0, 0, 0, 0, false, 0⟩ [] ∧ (asks .ret ⟨0, 0, 0, 0, false, 0⟩ []).depth 0 = 0)
      ∧ Ready .loop ⟨1, 0, 0, 0, false, 5⟩ []
      ∧ Ready .loop ⟨1, 0, 0, 0, false, 5⟩ [(.SEQ_REGS_W, 1, 1)] := by refine ⟨?_, ?_, ?_, ?_, ?_, ?_, ?_, ?_⟩ <;> decide +kernel

/-- A wait whose condition has held, one whose limit has run out, and one whose path's GEN has changed. -/
def waited : Wait := ⟨3, .epoch 5, 0, none, 0, some 0, false, []⟩
def limited : Wait := ⟨3, .epoch 5, 0, some 0, 0, none, false, []⟩
def changed : Wait := { limited with genChanged := true, left := none }

theorem witness_WaitInstructions :
    (∀ o ∈ [SOp.wpos, .wmatch], Ready o ⟨3, 1, 2, 31, true, 0x3C0000000⟩ [])
      ∧ Ready .wepoch ⟨3, 1, 2, 0, false, 0⟩ []
      ∧ Ready .twait ⟨3, 0, 2, 63, false, 0x20000000⟩ []
      ∧ Ready .wany ⟨3, 1, 2, 0, false, 0⟩ [(.SEQ_REGS_W, 1, 4093)]
      ∧ (let s := (asks .wany ⟨3, 1, 2, 0, false, 0⟩ [(.SEQ_REGS_W, 1, 4092)]).setD 0 4093 (BitVec.ofNat 64 (2 ^ 43))
         s.issues 0 0 .wany ⟨3, 1, 2, 0, false, 0⟩ ∧ (s.getD 0 4093).toNat / 2 ^ 43 ≠ 0)
      ∧ (let s := asks .wany ⟨3, 1, 2, 0, false, 0⟩ [(.SEQ_REGS_W, 1, 4092)]
         s.issues 0 0 .wany ⟨3, 1, 2, 0, false, 0⟩ ∧ (s.getD 0 4092).toNat = 0 ∧ (s.getD 0 4093).toNat = 0)
      ∧ (let s := (asks .wany ⟨3, 1, 2, 0, false, 0⟩ [(.TL_LVL_LVL, 0, 2 ^ 63)]).setD 0 0 (BitVec.ofNat 64 (2 ^ 64 - 1))
         s.issues 0 0 .wany ⟨3, 1, 2, 0, false, 0⟩ ∧ (s.getD 0 1).toNat = 0 ∧ (s.getD 0 0).toNat / 2 ^ 63 % 2 = 1 ∧ s.tl 63 = true ∧ ∀ j < 63, s.tl j = false)
      ∧ (let s := (serving [(.SEQ_TSTAT_STATE, 0, 2)]).setWait 0 (some waited)
         s.dead = false ∧ s.groveOn 0 = true ∧ s.getWait 0 = some waited ∧ waited.cond = .epoch 5 ∧ waited.hit.isSome = true ∧ s.rd .SEQ_TSTAT_PC 0 < 16383)
      ∧ (let s := (serving [(.SEQ_TSTAT_STATE, 0, 2), (.SEQ_TSTAT_PC, 0, 16382)]).setWait 0 (some changed)
         s.dead = false ∧ s.groveOn 0 = true ∧ s.getWait 0 = some changed ∧ changed.cond = .epoch 5 ∧ changed.hit = none ∧ changed.genChanged = true ∧ s.rd .SEQ_TSTAT_PC 0 < 16383)
      ∧ (let s := (serving [(.SEQ_TSTAT_STATE, 0, 2)]).setWait 0 (some limited)
         s.dead = false ∧ s.groveOn 0 = true ∧ s.getWait 0 = some limited ∧ limited.left = some 0 ∧ limited.hit = none ∧ limited.genChanged = false
           ∧ s.owes limited = false ∧ s.rd .SEQ_TSTAT_PC 0 < 16383) := by refine ⟨?_, ?_, ?_, ?_, ?_, ?_, ?_, ?_, ?_, ?_⟩ <;> decide +kernel

theorem witness_ReadInstructions :
    Ready .rpos ⟨31, 0, 0, 31, false, 0⟩ []
      ∧ Ready .repoch ⟨31, 0, 0, 0, false, 0⟩ []
      ∧ (∀ k ∈ [0, 1, 2], Ready .rmatch ⟨31, 0, 0, 31, false, k⟩ [])
      ∧ (∀ k ∈ List.range 11, Ready .cntr ⟨31, 0, 0, if k = 0 then 31 else 0, false, k⟩ []) := by refine ⟨?_, ?_, ?_, ?_⟩ <;> decide +kernel

theorem witness_TrainInstructions :
    Ready .trainRecovery ⟨3, 0, 0, 1, false, 0⟩ [(.LT_CFG_EN, 1, 1), (.LT_STAT_LTSSM, 1, 4)]
      ∧ Ready .trainHotReset ⟨3, 0, 0, 1, false, 1⟩ []
      ∧ Ready .trainDisable ⟨3, 0, 0, 0, false, 2⟩ []
      ∧ Ready .trainRestart ⟨3, 0, 0, 0, false, 3⟩ []
      ∧ (∀ r ∈ List.range 7, Ready .rate ⟨3, 0, 0, 1, false, 2 * r⟩ []) := by refine ⟨?_, ?_, ?_, ?_, ?_⟩ <;> decide +kernel

theorem witness_TransmitterInstructions :
    Ready .ratePpm ⟨3, 1, 0, 31, false, 1⟩ [(.SEQ_REGS_W, 1, 300)]
      ∧ Ready .eq ⟨3, 1, 0, 31, false, 0⟩ [(.SEQ_REGS_W, 1, 63 * 512)]
      ∧ Ready .eqLvl ⟨3, 1, 0, 0, false, 1⟩ [(.SEQ_REGS_W, 1, 100)] := by refine ⟨?_, ?_, ?_⟩ <;> decide +kernel

theorem witness_MatcherAndCaptureInstructions :
    Ready .arm ⟨3, 1, 0, 31, false, 0⟩ [(.SEQ_REGS_W, 1, 4095)]
      ∧ Ready .arm ⟨3, 1, 0, 31, false, 0⟩ []
      ∧ Ready .disarm ⟨3, 0, 0, 31, false, 0⟩ []
      ∧ (∀ o ∈ [SOp.capon, .capoff], Ready o ⟨3, 1, 0, 31, true, 0⟩ [])
      ∧ Ready .capmark ⟨3, 1, 2, 31, false, 0⟩ []
      ∧ Ready .capsel ⟨3, 1, 0, 31, false, 3⟩ []
      ∧ Ready .filt ⟨3, 0, 0, 31, false, 31⟩ [] := by refine ⟨?_, ?_, ?_, ?_, ?_, ?_, ?_⟩ <;> decide +kernel

theorem witness_InjectionInstructions :
    (∀ a ∈ [1, 2, 3, 4, 5, 6], Ready .inj ⟨3, 1, 2, 31, true, 16 + a⟩ [])
      ∧ Ready .errb ⟨3, 1, 2, 31, false, 0⟩ [(.SEQ_REGS_W, 2, 4096)]
      ∧ Ready .dly ⟨3, 1, 2, 0, true, 0⟩ []
      ∧ Ready .skpadj ⟨3, 1, 0, 31, false, 1⟩ [] := by refine ⟨?_, ?_, ?_, ?_⟩ <;> decide +kernel

theorem witness_TriggerEventModeInstructions :
    (∀ o ∈ [SOp.tset, .tclr], Ready o ⟨0, 0, 0, 63, false, 0⟩ [])
      ∧ Ready .evt ⟨0, 1, 0, 31, false, 0⟩ []
      ∧ Ready .evtG ⟨0, 1, 0, 0, false, 1⟩ []
      ∧ Ready .vsend ⟨3, 1, 0, 15, false, 1⟩ []
      ∧ Ready .mode ⟨3, 1, 0, 31, true, 7⟩ []
      ∧ (let s := asks .tclr ⟨0, 0, 0, 63, false, 0⟩ [(.X_TL_SETC, 63, State.reset.start.edge)]
         s.rd .X_TL_SETC 63 = (s.startIn false).edge ∧ s.rd .X_TL_CLRC 63 ≠ (s.startIn false).edge)
      ∧ (let s := asks .tset ⟨0, 0, 0, 63, false, 0⟩ [(.X_TL_CLRC, 63, State.reset.start.edge)]
         s.issues 0 0 .tset ⟨0, 0, 0, 63, false, 0⟩ ∧ s.rd .X_TL_CLRC 63 = (s.startIn false).edge ∧ s.rd .X_TL_SETC 63 ≠ (s.startIn false).edge) := by refine ⟨?_, ?_, ?_, ?_, ?_, ?_, ?_⟩ <;> decide +kernel

theorem witness_ThreadAndMemoryWrites :
    (let s := serving [(.SEQ_CTL_CLRBUSY, 15, 1)]
     s.takes .port (gAddr 15 0x2000) ∧ s.goIgnored 15 = true ∧ s.takes .port (memAddr 15 true 4095 true) ∧ s.rd .SEQ_CTL_CLRBUSY 15 ≠ 0)
      ∧ (let s := serving [(.SEQ_CTL_CLRBUSY, 0, 0), (.SEQ_CTL_CLRBUSY, 15, 0)]
         s.takes .port (gAddr 15 0x2000) ∧ s.goIgnored 15 = false ∧ s.groveOn 15 = true ∧ s.rd .SEQ_TSTAT_STATE 63 = tHALTED ∧ s.rd .X_INJ_LEFT 0 = 0
           ∧ s.takes .port (gAddr 15 0x24FC) ∧ s.takes .port (memAddr 15 false 16383 false) ∧ s.takes .port (memAddr 0 true 4095 true) ∧ s.rd .SEQ_CTL_CLRBUSY 0 = 0)
      ∧ (let s := serving [(.SEQ_TSTAT_STATE, 63, 1), (.SEQ_TSTAT_STATE, 62, 2)]
         s.takes .port (gAddr 15 0x24FC) ∧ s.rd .SEQ_TSTAT_STATE 63 = tRUNNING ∧ s.rd .SEQ_TSTAT_STATE 62 = tWAITING) := by refine ⟨?_, ?_, ?_⟩ <;> decide +kernel


/-! Hypotheses of the statements about links and paths. -/

theorem witness_LinkTableAndModes :
    (let s := service
     s.takes .port (gAddr 15 60) ∧ s.linkRefused 255 false 0 15 0 = false ∧ s.linkRefused 255 true 4 15 1 = true)
      ∧ (let s := service
         s.takes .port (gAddr 15 0x404) ∧ s.on .LINK_CFG_EN 255 = false ∧ s.on .LT_CFG_EN 30 = false ∧ s.rd .LINK_CFG_PROTO 255 = 0)
      ∧ (let s := service
         s.takes .port (gAddr 15 0x13C) ∧ s.chgCode 255 true true 1 1 false false = 0 ∧ s.chgCode 255 true false 6 0 false false ≠ 0)
      ∧ (let s := linked 1 6 5 []
         s.takes .port (gAddr 0 0x280) ∧ s.mode 0 = mSOURCE)
      ∧ (let s := serving [(.LINK_CFG_EN, 0, 1), (.LINK_CFG_WIDTH, 0, 1)]
         s.takes .port (gAddr 0 0x288) ∧ s.mode 2 ≠ mSOURCE ∧ s.govLane 1 ≠ 1)
      ∧ (let s := linked 1 5 6 []
         s.takes .port (gAddr 0 0x280) ∧ s.mode 0 ≠ mSOURCE ∧ s.govLane 0 = 0 ∧ (∀ x ∈ s.srcPairings 0, s.termRule 0 x.1 x.2 0 0 = true))
      ∧ (let s := linked 1 5 1 [(.LT_CFG_EN, 0, 1)]
         s.takes .port (gAddr 0 0x280) ∧ s.mode 0 ≠ mSOURCE ∧ s.govLane 0 = 0 ∧ ¬(∀ x ∈ s.srcPairings 0, s.termRule 0 x.1 x.2 2 0 = true))
      ∧ (let s := linked 3 1 1 []
         let u := s.setChg 0 (some ⟨2, .host 0⟩)
         u.dead = false ∧ u.govPath 0 = 0 ∧ u.getChg 0 = some ⟨2, .host 0⟩ ∧ (ModeChg.mk 2 (.host 0)).due (posAdd (u.pos 0) 1) (u.stampOf 0) = true ∧ 0 ≠ posAdd (u.pos 0) 64)
      ∧ (let u := (linked 3 1 1 []).setChg 0 (some ⟨2, .host 64⟩)
         u.dead = false ∧ u.getChg 0 = some ⟨2, .host 64⟩ ∧ posAdd (u.pos 0) 64 = 64 ∧ (ModeChg.mk 2 (.host 64)).due (posAdd (u.pos 0) 1) (u.stampOf 0) = false)
      ∧ (let u := (linked 3 0 0 []).setChg 0 (some ⟨1, .fromDark (some (.pos 5))⟩)
         u.dead = false ∧ u.getChg 0 = some ⟨1, .fromDark (some (.pos 5))⟩ ∧ u.pwrOn (gOf 0) = true ∧ (u.linkLanes 0).any u.calWaits = false)
      ∧ (let u := (linked 3 0 0 [(.PWR_STAT_ON, 0, 0)]).setChg 0 (some ⟨1, .fromDark none⟩)
         u.dead = false ∧ u.getChg 0 = some ⟨1, .fromDark none⟩ ∧ u.pwrOn (gOf 0) = false) := by refine ⟨?_, ?_, ?_, ?_, ?_, ?_, ?_, ?_, ?_, ?_, ?_⟩ <;> decide +kernel

theorem witness_ReceiverEvents :
    (let s := linked 1 1 1 [(.LNK_PSTAT_STATE, 0, 8), (.XCVR_STAT_SIGDET, 0, 1), (.XCVR_STAT_LOCK, 0, 1), (.XCVR_STAT_ADAPTED, 0, 1), (.XCVR_CTL_FREEZE, 0, 1)]
     s.dead = false ∧ s.linkOf 0 = some 0 ∧ s.retimed 0 = true ∧ s.rd .LNK_PSTAT_STATE 0 = 8 ∧ s.mode (portPath 0) ≠ mDARK ∧ s.on .XCVR_STAT_SIGDET 0 = true
       ∧ s.on .XCVR_STAT_LOCK 0 = true ∧ s.on .XCVR_STAT_ADAPTED 0 = true ∧ s.on .XCVR_CTL_FREEZE 0 = true)
      ∧ (let s := serving [(.XCVR_STAT_LOCK, 511, 1), (.X_DET_RUN, 511, 1)]
         s.dead = false ∧ s.linkOf 255 = none ∧ s.mode (portPath 511) = mDARK ∧ s.on .XCVR_STAT_LOCK 511 = true ∧ s.on .XCVR_STAT_ADAPTED 511 = false ∧ s.on .X_DET_RUN 511 = true
           ∧ s.takes .port (xAddr 511 0) ∧ s.takes .port (xAddr 511 0x1C) ∧ s.carries 511 = .idle)
      ∧ (let s := serving [(.X_QW_CUT, 0, 0), (.QUAL_BER_STALE, 0, 0), (.QUAL_CTL_AUTO, 0, 1), (.QUAL_BER_STALE, 1, 1)]
         s.dead = false ∧ s.on .QUAL_BER_STALE 0 = false ∧ s.on .X_QW_CUT 0 = false ∧ s.on .QUAL_CTL_AUTO 0 = true ∧ s.on .QUAL_BER_STALE 1 = true) := by refine ⟨?_, ?_, ?_⟩ <;> decide +kernel

theorem witness_TransmitterSettings :
    (∀ a ∈ [0x08, 0x10, 0x14, 0x18], service.takes .port (xAddr 511 a))
      ∧ (signed 10 300 = 300 ∧ signed 10 724 = -300 ∧ signed 10 301 = 301)
      ∧ (firOk (63 * 512) = true ∧ firOk 0 = false)
      ∧ (20 ≤ (100 + 128 * 15) % 128 ∧ (100 + 128 * 15) / 128 % 32 ≠ 16 ∧ (100 + 128 * 16) / 128 % 32 = 16)
      ∧ ((5000 + 8192 * 3300) % 8192 ≤ 5000 ∧ (5000 + 8192 * 3300) / 8192 % 4096 ≤ 3300 ∧ ¬(5001 % 8192 ≤ 5000))
      ∧ service.dead = false
      ∧ (let s := linked 1 6 5 [(.PATH_SRC_SEL, 0, 1), (.XCVR_STAT_SSCACT, 16, 1)]
         s.on .XCVR_STAT_SSCACT 16 = true ∧ s.spreads 16 = true ∧ s.spreads 0 = false ∧ s.trainedFir 511 = false) := by refine ⟨?_, ?_, ?_, ?_, ?_, ?_, ?_⟩ <;> decide +kernel

/-- A training set, and the position that it reaches. -/
def aSet : TsInfo := ⟨true, 0x7F, true, true, true, 0, ⟨0, 0, 0, 0, 0, false⟩, false⟩

theorem witness_RetimedLinks :
    (let s := linked 1 1 1 []
     s.dead = false ∧ s.retimed 0 = true ∧ s.posOk 0 ⟨1, 0, false, 0, 0⟩ = true ∧ s.rd .LNK_PSTAT_STATE 0 ≠ 2 ∧ s.upSide 0 = 1 ∧ s.on .X_TS_CUT (2 * s.linkFirst 0) = false ∧ s.getHeld (2 * s.linkFirst 0) = [])
      ∧ (let s := linked 1 1 1 [(.LNK_PSTAT_STATE, 0, 2), (.LNK_PSTAT_RATE, 0, 2), (.X_EQ_PHASE, 0, 2)]
         s.dead = false ∧ s.retimed 0 = true ∧ s.posOk 0 ⟨2, 2, false, 0, 2⟩ = true ∧ 2 ≤ s.rd .X_EQ_PHASE 0 ∧ ((List.range 512).any s.eqTakes = true) ∧ ((List.range 512).any s.eqEvaluates = true)
           ∧ firOk (63 * 512) = true ∧ firOk 0 = false)
      ∧ (let s := linked 1 3 3 [(.X_SKP_V, 0, 1)]
         s.dead = false ∧ s.hasEb (s.govPath 0) = true ∧ s.atStage 0 = [] ∧ s.getHeld 0 = [] ∧ s.on .X_SKP_V 0 = true ∧ posReached (s.pos 0) (s.rd .X_SKP_POS 0) = true
           ∧ s.on .X_SKP_DIR 0 = false ∧ s.rd .X_EB_OFS 0 = 1 ∧ s.linkOf 0 = some 0)
      ∧ (let s := linked 1 3 3 [(.X_EB_OFS, 0, 2)]
         s.dead = false ∧ s.hasEb 0 = true ∧ s.getHeld 0 = [] ∧ s.on .X_SKP_V 0 = false ∧ s.rd .X_EB_OFS 0 = 2)
      ∧ (let s := linked 1 1 1 [(.LNK_PSTAT_RATE, 0, 3), (.LNK_PSTAT_RTPOS, 0, 1), (.X_MARG, 0, 1)]
         s.dead = false ∧ s.linkOf 0 = some 0 ∧ s.retimed 0 = true ∧ s.upSide 0 = 1 ∧ s.pciMargen 0 = true ∧ 3 ≤ s.rd .LNK_PSTAT_RATE 0
           ∧ s.rcvNumber 0 1 = 2 ∧ s.rcvNumber 0 0 = 3 ∧ marginParam (s.pam4 0) 15 = none ∧ (marginParam (s.pam4 0) 0x88).isSome = true ∧ s.linkOf (portPath 0 / 2) = some 0
           ∧ s.on .X_MARG 0 = true)
      ∧ ((service.takes .port (gAddr 0 0x500) ∧ service.on .LINK_CFG_EN 0 = false) ∧ (linked 1 1 1 []).takes .port (gAddr 0 0x500) ∧ (linked 1 1 1 []).entryDark 0 = false) := by refine ⟨?_, ?_, ?_, ?_, ?_, ?_⟩ <;> decide +kernel

theorem witness_PowerStatesAndSideband :
    (let s := linked 1 1 1 [(.LNK_PSTAT_STATE, 0, 3), (.GSB_CFG_FUNC, 0, 2), (.X_GSB_EXT, 0, 1)]
     s.dead = false ∧ s.retimed 0 = true ∧ (∀ st ∈ [3, 5, 6, 7, 8, 9], s.powerOk 0 st = true) ∧ s.powerOk 0 4 = false ∧ s.clkreqPin 0 = some 0 ∧ s.on .X_GSB_EXT 0 = true)
      ∧ (let s := linked 1 1 1 [(.LNK_PSTAT_STATE, 0, 3), (.LNK_PSTAT_FLIT, 0, 1)]
         s.dead = false ∧ s.retimed 0 = true ∧ s.powerOk 0 4 = true ∧ s.clkreqPin 0 = none)
      ∧ (let s := serving [(.GSB_CFG_FUNC, 63, 4)]
         s.dead = false ∧ s.retimed 255 = false ∧ s.rd .GSB_CFG_FUNC 63 = 4)
      ∧ (let s := linked 1 1 1 [(.GSB_CFG_FUNC, 0, 1), (.GSB_CFG_LEVEL, 0, 1), (.GSB_CFG_FUNC, 1, 3)]
         s.dead = false ∧ s.rd .GSB_CFG_FUNC 0 = 1 ∧ s.on .GSB_CFG_LEVEL 0 = true ∧ s.on .LINK_CFG_EN (s.rd .GSB_CFG_LINK 0) = true ∧ s.retimed 0 = true ∧ s.rd .GSB_CFG_FUNC 1 = 3)
      ∧ (let s := linked 1 1 1 [(.GSB_CFG_FUNC, 0, 2), (.X_L12, 0, 1), (.LNK_PSTAT_STATE, 0, 7)]
         s.dead = false ∧ s.rd .GSB_CFG_FUNC 0 = 2 ∧ s.retimed 0 = true ∧ s.on .X_L12 0 = true ∧ s.rd .LNK_PSTAT_STATE 0 = 7)
      ∧ (let s := linked 1 1 1 [(.GSB_CFG_FUNC, 0, 2), (.LNK_PSTAT_STATE, 0, 8), (.X_GSB_EXT, 0, 1)]
         s.dead = false ∧ s.rd .GSB_CFG_FUNC 0 = 2 ∧ s.retimed 0 = true ∧ s.rd .LNK_PSTAT_STATE 0 = 8 ∧ s.clkreqPin 0 = some 0) := by refine ⟨?_, ?_, ?_, ?_, ?_, ?_⟩ <;> decide +kernel


theorem witness_EthernetAndRawLanes :
    (let s := service
     s.takes .port (gAddr 15 0x83C) ∧ ethPairOk 0 2 = true ∧ ethPairOk 4 3 = true ∧ ethPairOk 0 3 = false ∧ s.on .LINK_CFG_EN 255 = false)
      ∧ (let s := linked 3 1 1 [(.LNK_ETH_ANEN, 0, 1), (.LNK_ESTAT_SEGA, 0, 4)]
         s.takes .port (gAddr 0 0x800) ∧ s.on .LINK_CFG_EN 0 = true ∧ s.entryDark 0 = false ∧ s.mode 0 ≠ mDELAY ∧ s.mode 1 ≠ mDELAY ∧ s.dead = false ∧ s.segmented 0 = true
           ∧ s.on .LNK_ETH_ANEN 0 = true ∧ s.rd (segFld 0) 0 = 4 ∧ s.linkOf 0 = some 0 ∧ s.rd (segFld 1) 0 = 0 ∧ s.segNext 0 0 1 = true)
      ∧ (let s := linked 3 1 1 [(.LNK_ETH_ANEN, 0, 1), (.LNK_ETH_LTEN, 0, 1), (.LNK_ESTAT_SEGA, 0, 1)]
         s.segNext 0 (s.rd (segFld 0) 0) 2 = true ∧ s.segNext 0 (s.rd (segFld 0) 0) 4 = false)
      ∧ (let s := linked 3 4 4 [(.LNK_ESTAT_SEGA, 0, 4)]
         s.dead = false ∧ s.segmented 0 = true ∧ s.rd (segFld 0) 0 = 4 ∧ s.mode 0 = mDELAY)
      ∧ (let s := service
         s.takes .port (gAddr 15 0xC3C) ∧ s.govLane 255 = 255 ∧ (s.linkLanes 255).all s.laneDark = true ∧ s.takes .port (gAddr 15 0xB7C))
      ∧ (let s := serving [(.LINK_CFG_EN, 0, 1), (.LINK_CFG_WIDTH, 0, 1), (.PATH_MODE_AB, 0, 5), (.PATH_PAT_CHKEN, 0, 1), (.X_PCHK_RUN, 0, 256)]
         s.takes .port (gAddr 0 0xC00) ∧ s.govLane 0 = 0 ∧ (s.linkLanes 0).all s.laneDark = false ∧ s.govLane 1 ≠ 1 ∧ s.checksPat 0 = true ∧ 256 ≤ s.rd .X_PCHK_RUN 0)
      ∧ (let s := serving [(.LINK_CFG_EN, 0, 1), (.LINK_CFG_WIDTH, 0, 1), (.DLR_CFG_EN, 0, 1), (.DLR_CFG_COUNT, 0, 1)]
         s.takes .port (gAddr 0 0xC48) ∧ s.govPath 2 ≠ 2 ∧ s.govPath 0 = 0 ∧ s.cellsTooMany 0 1048577 = true ∧ s.cellsTooMany 0 1048576 = false ∧ s.mode 0 ≠ mDELAY)
      ∧ (let s := linked 3 4 4 []
         s.takes .port (gAddr 0 0xC40) ∧ s.govPath 0 = 0 ∧ s.cellsTooMany 0 0xFFFFFFFF = false ∧ s.mode 0 = mDELAY ∧ s.on .X_DLYH_V 0 = false ∧ s.rd .X_DLYP_V 0 = 0)
      ∧ (let s := linked 3 4 1 [(.X_DLYH_V, 0, 1), (.X_DLYH_V, 1, 1)]
         s.dead = false ∧ s.on .X_DLYH_V 0 = true ∧ posReached (posAdd (s.pos 0) 1) (s.rd .X_DLYH_POS 0) = true ∧ s.rd .X_DLYP_V 0 = 0 ∧ s.mode 0 = mDELAY ∧ s.on .X_DLYH_V 1 = true
           ∧ s.mode 1 ≠ mDELAY)
      ∧ (let s := linked 3 4 1 [(.X_DLYP_V, 0, 1), (.X_DLYP_V, 1, 2)]
         s.rd .X_DLYP_V 0 = 1 ∧ posReached (posAdd (s.pos 0) 1) (s.rd .X_DLYP_M 0) = true ∧ s.on .X_DLYH_V 0 = false ∧ s.rd .X_DLYP_V 1 = 2 ∧ s.rd .X_DLYP_M 1 ≤ s.stampOf 1) := by refine ⟨?_, ?_, ?_, ?_, ?_, ?_, ?_, ?_, ?_, ?_⟩ <;> decide +kernel

/-- Link 0 of grove 0 with terminator 0 on its side A, in L0 or data mode, with data memory words written. -/
def terminated (proto : Nat) (l : List (Fld × Nat × Nat)) (d : List (Nat × Nat)) : State :=
  d.foldl (fun s e => s.setD 0 e.1 (BitVec.ofNat 64 e.2)) (linked proto 5 6 ([(.PATH_SRC_SEL, 1, 2), (.LT_CFG_EN, 0, 1), (.LT_STAT_LTSSM, 0, 4), (.LT_STAT_DLUP, 0, 1),
    (.LT_RXRING_SIZE, 0, 4), (.LT_TXRING_BASE, 0, 100), (.LT_TXRING_SIZE, 0, 4), (.LT_ETH_STAT_STATE, 0, 4), (.LT_ETH_CFG_MAXLEN, 0, 1518), (.LT_PCI_CFG_FLITEN, 0, 1)] ++ l))

theorem witness_TerminatorSettingsAndStates :
    (let s := service
     (∀ a ∈ [0, 4, 8, 0x14], s.takes .port (ltAddr 31 a)) ∧ s.ltLit 31 = false ∧ 1 + 4 * 1023 ≤ 4095 ∧ ¬(4095 + 1 ≤ 4095))
      ∧ (let s := terminated 1 [] []
         s.dead = false ∧ s.takes .port (ltAddr 0 0) ∧ s.ltLit 0 = true ∧ s.ltUp 0 = true ∧ s.ltEth 0 = false ∧ s.ltCan 0 3 0 false false 0 = true ∧ 0 < s.rd .LT_RXRING_SIZE 0)
      ∧ (let s := { terminated 1 [] [] with ltSent := [(0, [⟨1, 5, none, [], []⟩])] }
         s.dead = false ∧ s.ltUp 0 = true ∧ s.on .LT_STAT_DLUP 0 = true ∧ nget s.ltSent [] 0 ≠ [])
      ∧ (let s := terminated 3 [] []
         s.dead = false ∧ s.ltUp 0 = true ∧ s.ltEth 0 = true) := by refine ⟨?_, ?_, ?_, ?_⟩ <;> decide +kernel

theorem witness_TerminatorTraffic :
    (let s := terminated 1 [] []
     s.dead = false ∧ s.ltUp 0 = true ∧ s.ltEth 0 = false ∧ s.on .LT_STAT_DLUP 0 = true ∧ s.ltExpect 0 = 0 ∧ seqMod (s.on .LT_STAT_FLIT 0) = 4096
       ∧ s.rd .LT_RXRING_SIZE 0 ≠ 0 ∧ s.ringHeld 0 0 4 < 4 ∧ (16 + 63) / 64 ≤ (s.freeCells 0).length)
      ∧ (let s := terminated 2 [(.LT_STAT_CXL, 0, 1), (.LT_STAT_FLIT, 0, 1), (.LT_CFG_LINK, 0, 0)] []
         s.dead = false ∧ s.ltUp 0 = true ∧ s.ltEth 0 = false ∧ s.on .LT_STAT_CXL 0 = true ∧ s.on .LT_STAT_FLIT 0 = true ∧ s.ringHeld 0 0 4 < 4)
      ∧ (let s := terminated 1 [(.X_LT_NAKD, 0, 1)] [(0, 4)]
         s.ltUp 0 = true ∧ ¬(s.ringHeld 0 0 4 < 4) ∧ s.on .X_LT_NAKD 0 = true)
      ∧ (let s := terminated 3 [] []
         s.dead = false ∧ s.ltUp 0 = true ∧ s.ltEth 0 = true ∧ s.rd .LT_ETH_STAT_STATE 0 = 4 ∧ s.rd .LT_ETH_CFG_MAXLEN 0 = 1518 ∧ s.ringHeld 0 0 4 < 4)
      ∧ (let s := terminated 1 [] [(100, 1), (102, 1 + 65536 * 16 + 2 ^ 32 * 0xFFFFFFFF)]
         s.txWaits 0 = true ∧ (s.txDesc 0).len = 16 ∧ (s.txDesc 0).handle = 0xFFFFFFFF ∧ bitOf (s.txDesc 0).flags 2 = false ∧ (s.txDesc 0).typ = 1
           ∧ s.txCredit 0 (ecrcFixed (s.txDesc 0) ((s.txDesc 0).hdr.take 16)) = false)
      ∧ (let s := terminated 1 [(.X_LT_PINF, 0, 3), (.X_LT_PINF, 1, 3), (.X_LT_PINF, 2, 3)] [(100, 1), (102, 1 + 65536 * 12 + 2 ^ 32 * 0xFFFFFFFF)]
         s.txWaits 0 = true ∧ (s.txDesc 0).len = 12 ∧ (s.txDesc 0).typ = 1 ∧ s.txCredit 0 (ecrcFixed (s.txDesc 0) ((s.txDesc 0).hdr.take 12)) = true)
      ∧ (let s := terminated 1 [] [(100, 1), (102, 2 + 65536 * 16 + 2 ^ 32 * 0xFFFFFFFF)]
         s.txWaits 0 = true ∧ (s.txDesc 0).typ = 2 ∧ (s.txDesc 0).len = 16 ∧ (s.txDesc 0).handle = 0xFFFFFFFF ∧ bitOf (s.txDesc 0).flags 2 = false ∧ nget s.ltSent [] 0 = [])
      ∧ (let s := { terminated 1 [] [(100, 1), (102, 2 + 65536 * 16 + 2 ^ 32 * 0xFFFFFFFF)] with ltSent := [(0, List.replicate 64 ⟨1, 5, none, List.replicate 1024 0, []⟩)] }
         s.txWaits 0 = true ∧ (s.txDesc 0).typ = 2 ∧ ((nget s.ltSent [] 0).map fun y => y.bytes.length).sum = 65536)
      ∧ (let s := terminated 1 [(.LT_STAT_FLIT, 0, 1), (.X_LT_RSEQ, 0, 1)] []
         s.ltUp 0 = true ∧ s.ltExpect 0 = 1 ∧ seqMod (s.on .LT_STAT_FLIT 0) = 1023 ∧ (0 + 1023 - s.ltExpect 0) % 1023 = 1023 - 1)
      ∧ (let s := terminated 1 [] [(100, 1), (102, 1 + 256 * 4 + 65536 * 16 + 2 ^ 32 * 0xFFFFFFFF)]
         s.txWaits 0 = true ∧ (s.txDesc 0).len ≠ 0 ∧ s.txSkipped 0 (s.txDesc 0) = false ∧ bitOf (s.txDesc 0).flags 2 = true)
      ∧ (let s := terminated 1 [] [(100, 1)]
         s.txWaits 0 = true ∧ (s.txDesc 0).len = 0)
      ∧ (let s := terminated 1 [] [(100, 1), (102, 65536 * 16 + 2 ^ 32 * 0xFFFFFFFF)]
         s.txWaits 0 = true ∧ (s.txDesc 0).len ≠ 0 ∧ s.txSkipped 0 (s.txDesc 0) = true)
      ∧ (let s := terminated 3 [] [(100, 1), (102, 3 + 65536 * 16 + 2 ^ 32 * 0xFFFFFFFF)]
         s.ltEth 0 = true ∧ s.txWaits 0 = true ∧ (s.txDesc 0).typ = 3 ∧ (s.txDesc 0).len = 16 ∧ bitOf (s.txDesc 0).flags 2 = false)
      ∧ (let s := terminated 3 [] [(100, 1), (102, 1 + 65536 * 16)]
         s.ltEth 0 = true ∧ s.txWaits 0 = true ∧ (s.txDesc 0).len ≠ 0 ∧ s.txSkipped 0 (s.txDesc 0) = true) := by refine ⟨?_, ?_, ?_, ?_, ?_, ?_, ?_, ?_, ?_, ?_, ?_, ?_, ?_, ?_⟩ <;> decide +kernel

/-- A trigger of the vine. -/
def aTrig : VTrig := ⟨1, 15, false, 5, false, 1⟩

theorem witness_TriggerLinesAndVine :
    (let s := serving [(.X_TL_SETC, 63, 5), (.X_TL_PULSE, 63, 1)]
     s.takes .port 0x3800108 ∧ s.takes .port 0x380010C ∧ s.dead = false ∧ s.rd .X_TL_SETC 63 = 5 ∧ s.rd .X_TL_PULSE 63 ≠ 0 ∧ (s.startIn false).edge ≠ 5)
      ∧ (let s := serving [(.X_TL_SETC, 63, 2), (.X_TL_CLRC, 0, 1)]
         s.rd .X_TL_SETC 63 = (s.startIn false).edge ∧ s.rd .X_TL_CLRC 0 = (s.startIn true).edge)
      ∧ (let s := serving [(.VIN_PSTAT_STATE, 0, 2), (.VIN_PSTAT_STATE, 3, 2)]
         s.takes .port 0x600048 ∧ s.rd .VIN_CTL_ROOT 0 = 0 ∧ s.rd .VIN_PSTAT_STATE 0 = 2 ∧ s.rd .VIN_PSTAT_STATE 3 = 2)
      ∧ (let s := { serving [(.VIN_CTL_ROOT, 0, 1), (.VIN_PSTAT_STATE, 3, 2)] with vwait := [aTrig] }
         s.dead = false ∧ s.rd .VIN_CTL_ROOT 0 ≠ 0 ∧ s.rd .VIN_PSTAT_STATE 3 = 2 ∧ s.vwait = aTrig :: [] ∧ s.vheld.length < 64)
      ∧ (let s := serving [(.VIN_CTL_ROOT, 0, 1), (.VIN_PSTAT_STATE, 3, 2)]
         s.dead = false ∧ s.rd .VIN_CTL_ROOT 0 ≠ 0 ∧ s.vwait = [] ∧ s.vheld.length < 64 ∧ s.epochNow < 5)
      ∧ (let s := { serving [] with vheld := [{ aTrig with t := 0 }] }
         s.dead = false ∧ s.tbValid = true ∧ s.vheld.filter (fun v => decide (v.t ≤ s.epochNow)) = [{ aTrig with t := 0 }]) := by refine ⟨?_, ?_, ?_, ?_, ?_, ?_⟩ <;> decide +kernel


/-- A node of the vine that is not the root, its port 0 up. -/
def node (l : List (Fld × Nat × Nat)) : State := serving ([(.VIN_CTL_P0EN, 0, 1), (.VIN_CTL_PEN, 0, 7), (.VIN_PSTAT_STATE, 0, 2), (.VIN_PSTAT_STATE, 3, 2)] ++ l)

theorem witness_TimebaseAndVineFrames :
    (let s := serving [(.VIN_CTL_ROOT, 0, 1)]
     s.dead = false ∧ s.tbRuns = true ∧ s.rd .VIN_CTL_ROOT 0 ≠ 0 ∧ s.tbValid = true ∧ crcOf crc8 (leBytes 8 7).reverse = (BitVec.ofNat 8 (crcOf crc8 (leBytes 8 7).reverse)).toNat
       ∧ ((7 + 0 : Nat) : Int) - (s.epochNow : Int) < 8 ∧ s.rd .X_TREF_BAD 0 < 2)
      ∧ (let s := serving [(.VIN_CTL_ROOT, 0, 1), (.X_TREF_BAD, 0, 2)]
         s.tbRuns = true ∧ s.tbValid = true ∧ s.rd .X_TREF_BAD 0 = 2)
      ∧ (let s := serving [(.VIN_CTL_ROOT, 0, 1), (.TB_STAT_VALID, 0, 0), (.X_TREF_ACQ, 0, 1)]
         s.tbRuns = true ∧ s.tbValid = false ∧ s.rd .X_TREF_ACQ 0 ≠ 0 ∧ s.rd .X_TREF_LAST 0 + 800000 = (800000 : BitVec 64).toNat)
      ∧ (let s := serving [(.X_SLEW_LEFT, 0, 7)]
         s.dead = false ∧ s.tbRuns = true ∧ s.tbValid = true ∧ 0 < signed 8 (s.rd .X_SLEW_LEFT 0))
      ∧ (let s := serving [(.X_SLEW_LEFT, 0, 249)]
         s.tbValid = true ∧ signed 8 (s.rd .X_SLEW_LEFT 0) < 0)
      ∧ (let s := node []
         s.dead = false ∧ s.rd .VIN_CTL_ROOT 0 = 0 ∧ s.rd .VIN_PSTAT_STATE 0 = 2 ∧ s.tbValid = true ∧ s.rd .VIN_PSTAT_STATE 3 = 2 ∧ s.vpEnabled 0 = true ∧ s.rd .X_DREQ_SEQ 0 = 0
           ∧ s.takes .port 0x600014 ∧ s.takes .port 0x600010 ∧ s.rd .VIN_NODE_ID 0 ≠ 65535)
      ∧ (let s := node [(.TB_STAT_VALID, 0, 0), (.X_EPF_OK, 0, 1), (.X_EXCH, 0, 16)]
         s.tbValid = false ∧ 1 ≤ s.rd .X_EPF_OK 0 ∧ 16 ≤ s.rd .X_EXCH 0 ∧ s.rd .VIN_PSTAT_STATE 0 = 2)
      ∧ (let s := serving [(.VIN_CTL_P0EN, 0, 0)]
         s.dead = false ∧ s.vpEnabled 0 = false ∧ s.rd .VIN_CTL_ROOT 0 = 0) := by refine ⟨?_, ?_, ?_, ?_, ?_, ?_, ?_, ?_⟩ <;> decide +kernel

/-- A RAW unit of 8 bytes at the injection stage of path 0, alone. -/
def atStage0 : HeldUnit := ⟨0, 0, true, .rawNrz, false, false, [1, 2, 3, 4, 5, 6, 7, 8], [], false, [], none, [], [], none, 0, 0, 0, true, true⟩

theorem witness_MatchersAndInjectionQueue :
    (let s := serving [(.SEQ_CTL_CLRBUSY, 15, 1)]
     s.takes .port (gAddr 15 0x3400) ∧ s.goIgnored 15 = true)
      ∧ (let s := (serving [(.SEQ_CTL_CLRBUSY, 15, 0), (.MATCH_STAT_ARMED, 511, 1)]).setD 15 0 (BitVec.ofNat 64 (2 ^ 64 - 1))
         s.goIgnored 15 = false ∧ s.blockPast 15 4095 = true ∧ blockBad (s.readBlock 15 0) = true ∧ s.on .MATCH_STAT_ARMED 511 = true)
      ∧ (let s := ((serving [(.SEQ_CTL_CLRBUSY, 0, 0)]).setD 0 0 (BitVec.ofNat 64 1)).setD 0 1 (BitVec.ofNat 64 1)
         s.goIgnored 0 = false ∧ s.blockPast 0 0 = false ∧ blockBad (s.readBlock 0 0) = false ∧ s.on .MATCH_STAT_ARMED 31 = false)
      ∧ (let s := serving [(.INJ_ENT_INFO_STATE, 1023, 1)]
         s.takes .port (0x1003704 + 15 * 0x100000) ∧ s.injBusy 1023 = true ∧ s.injBegun 1023 = false ∧ s.injBusy 0 = false)
      ∧ (let s := (linked 1 3 3 [(.INJ_ENT_INFO_STATE, 5, 1), (.INJ_ENT_INFO_ACT, 5, 7)]).setHeld 0 [{ atStage0 with enc := .sym8b10b }, { atStage0 with enc := .sym8b10b, pos := 1 }]
         s.takes .port 0x1003704 ∧ s.injBusy 5 = true ∧ s.injBegun 5 = true)
      ∧ (let s := serving [(.INJ_ENT_INFO_STATE, 0, 1), (.INJ_ENT_INFO_ACT, 0, 5), (.X_INJ_REACH, 0, 1), (.X_INJ_NPOS, 0, 2 ^ 48 - 65536)]
         s.dead = false ∧ s.injBusy 0 = true ∧ s.rd .INJ_ENT_INFO_ACT 0 = 5 ∧ s.on .X_INJ_REACH 0 = true ∧ 65536 ≤ (s.pos (s.injPath 0) + 2 ^ 48 - s.rd .X_INJ_NPOS 0) % 2 ^ 48)
      ∧ (let s := (serving [(.PATH_MODE_AB, 0, 3), (.PATH_MODE_BA, 0, 3)]).setHeld 0 [atStage0]
         s.dead = false ∧ s.settled 0 = true ∧ s.getHeld 0 = [atStage0] ∧ s.injOf 0 = [] ∧ s.mode (revPath 0) ≠ mLOOP ∧ s.linkIdle 0 = false)
      ∧ (let s := ((serving [(.PATH_MODE_AB, 0, 3), (.INJ_ENT_INFO_STATE, 5, 1), (.INJ_ENT_INFO_ACT, 5, 1), (.X_INJ_HIT, 5, 2)]).setHeld 0 [atStage0]).setD 0 0 (BitVec.ofNat 64 (8 + 256))
         s.settled 0 = true ∧ s.injOf 0 = [5] ∧ s.rd .INJ_ENT_INFO_ACT 5 = 1 ∧ s.rd .X_INJ_HIT 5 = 2 ∧ s.rd .X_INJ_BLK 5 = 0 ∧ s.rd .INJ_ENT_MOMENT 5 = atStage0.pos ∧ s.linkOf 0 = none)
      ∧ (let s := ((serving [(.PATH_MODE_AB, 0, 3), (.INJ_ENT_INFO_STATE, 5, 1), (.INJ_ENT_INFO_ACT, 5, 1), (.X_INJ_HIT, 5, 2)]).setHeld 0 [atStage0]).setD 0 0 (BitVec.ofNat 64 8)
         (s.injBlock 5).len = 8 ∧ (s.injBlock 5).fits = true ∧ (s.injBlock 5).ofs + (s.injBlock 5).len ≤ atStage0.line.length ∧ s.rd .X_INJ_PASSED 5 ≤ (s.injBlock 5).ofs)
      ∧ (let s := (serving [(.PATH_MODE_AB, 0, 3), (.INJ_ENT_INFO_STATE, 5, 1), (.INJ_ENT_INFO_ACT, 5, 7), (.X_INJ_DATA, 5, 65536 * 63 + 4096)]).setHeld 0 [atStage0]
         s.settled 0 = true ∧ s.injOf 0 = [5] ∧ s.injPath 5 = 0 ∧ s.rd .INJ_ENT_INFO_ACT 5 = 7 ∧ s.injReached 5 atStage0.pos atStage0.stamp = true) := by refine ⟨?_, ?_, ?_, ?_, ?_, ?_, ?_, ?_, ?_, ?_⟩ <;> decide +kernel

/-- A unit without content. -/
def aUnit : RxUnit := ⟨false, [1, 2, 3, 4, 5, 6, 7, 8], [], false, [], none, 0, 0, [], false, 0, 0, 0, 0, 0, []⟩

theorem witness_ReceivedUnits :
    (let s := service
     s.dead = false ∧ s.mode 511 = mDARK)
      ∧ (let s := linked 3 1 1 [(.LNK_ESTAT_SEGA, 0, 4), (.LNK_ESTAT_SEGB, 0, 4)]
         s.dead = false ∧ s.mode 0 = mRELAY ∧ s.groveOn (gOf 0) = true ∧ s.govPath 0 = 0 ∧ s.getChg 0 = none ∧ s.getChg (revPath 0) = none ∧ s.pcie 0 = false ∧ s.segsUp 0 = true
           ∧ s.eqPhase 0 = false ∧ s.linkIdle 0 = false ∧ s.mode (revPath 0) ≠ mLOOP)
      ∧ (let s := linked 1 7 5 []
         s.mode 0 = mLOOP ∧ s.mode (revPath 0) ≠ mSOURCE ∧ s.splitNow 0 = false ∧ aUnit.parts = []) := by refine ⟨?_, ?_, ?_⟩ <;> decide +kernel

/-- A switch of a capture on path 0, and a replay that has nothing left but filler, or a template to repeat. -/
def aSwitch (k : CapKind) (m : Moment) : CapAct := ⟨k, m, 0, 0⟩

/-- A unit that the press has not taken. -/
def unpressed : HeldUnit := { atStage0 with staged := false, pressed := false }

theorem witness_CaptureStreams :
    (let s := linked 3 2 2 []
     s.dead = false ∧ (s.getStrm 0).pend = [] ∧ (s.getStrm 0).mpend = [] ∧ hasTap (s.mode 0) = true ∧ s.takes .port 0x3010000 ∧ s.on .STRM_CFG_ON 0 = false ∧ s.takes .port 0x3012000)
      ∧ (let s := ((linked 3 2 2 []).setStrm 0 { StrmSt.empty with pend := [aSwitch .on (.pos 0)] }).setHeld 0 [unpressed]
         s.decided 0 = true ∧ s.ideWaits 0 = false ∧ s.getHeld 0 = [unpressed] ∧ s.getItems 0 = [] ∧ unpressed.pressed = false ∧ unpressed.staged = false ∧ s.strmBusy 0 = true
           ∧ (s.getStrm 0).pend.filter (·.due 0 0) = [aSwitch .on (.pos 0)] ∧ (s.getStrm 0).mpend = [] ∧ hasTap (s.mode 0) = true)
      ∧ (let s := ((linked 3 2 2 []).setStrm 0 { StrmSt.empty with mpend := [aSwitch .off (.pos 0)] }).setHeld 0 [unpressed]
         s.decided 0 = true ∧ s.getHeld 0 = [unpressed] ∧ s.getItems 0 = [] ∧ (s.getStrm 0).mpend.filter (·.due 0 0) = [aSwitch .off (.pos 0)] ∧ (s.getStrm 0).pend = [])
      ∧ (let s := (linked 3 2 2 []).setItems 0 [⟨0, .of .tlp, [], [], 0, 0, [], [], none, true, true, false, false, 0, none, true⟩]
         s.dead = false ∧ s.decided 0 = false)
      ∧ (let s := linked 3 2 2 []
         s.dead = false ∧ s.decided 0 = true ∧ s.ideWaits 0 = false ∧ s.getHeld 0 = [] ∧ s.strmBusy 0 = false)
      ∧ (let s := (linked 3 2 2 []).setStrm 0 { StrmSt.empty with pend := [⟨.on, .pos 64, 2, 0⟩] }
         ((s.getStrm 0).pend.filter fun a => a.waits64 (s.pos 0)) = [⟨.on, .pos 64, 2, 0⟩] ∧ (s.getStrm 0).pend ≠ [])
      ∧ (let s := linked 3 6 5 []
         s.takes .port 0x3040000 ∧ s.mode 0 = mSOURCE ∧ s.mode 1 ≠ mSOURCE ∧ s.replaying 0 = false ∧ s.on .X_PATH_STOPPED 0 = false ∧ s.getRpl 0 = none ∧ s.dead = false)
      ∧ (let s := (linked 3 6 5 []).setRpl 0 (some { (linked 3 6 5 []).rplStart 0 with fill := 1 })
         s.dead = false ∧ s.mode (revPath 0) ≠ mLOOP ∧ s.replaying 0 = true ∧ (match s.getRpl 0 with | some x => decide (0 < x.fill) | none => false) = true)
      ∧ (let s := (linked 3 6 5 []).setRpl 0 (some { (linked 3 6 5 []).rplStart 0 with fill := 0, elide := 1 })
         s.dead = false ∧ s.mode (revPath 0) ≠ mLOOP ∧ s.replaying 0 = true ∧ (match s.getRpl 0 with | some x => decide (x.fill = 0 ∧ 0 < x.elide) | none => false) = true) := by refine ⟨?_, ?_, ?_, ?_, ?_, ?_, ?_, ?_, ?_⟩ <;> decide +kernel

theorem witness_Punnets :
    (let s := serving [(.PUN_CFG_EN, 255, 1), (.PUN_STAT_STATE, 255, 2), (.PUN_CFG_EN, 254, 1), (.PUN_STAT_STATE, 254, 1), (.X_PUN_EDGE, 255, 1)]
     s.takes .port (0x3020000 + 0x40 * 255) ∧ s.takes .port 0x3028000 ∧ s.on .PUN_CFG_EN 255 = true ∧ s.rd .PUN_STAT_STATE 255 = pREADY ∧ s.rd .PUN_STAT_STATE 254 = pFILL
       ∧ s.punUsed 255 = false ∧ s.dead = false ∧ s.on .X_PUN_EDGE 255 = true ∧ s.on .X_PUN_EDGE 254 = false)
      ∧ (let s := serving [(.PUN_CFG_EN, 0, 1), (.PUN_STAT_STATE, 0, 4), (.STRM_CFG_ON, 0, 1), (.PUN_SLAB_COUNT, 1, 1), (.PUN_SLAB_FIRST, 1, 3071), (.PUN_SLAB_COUNT, 2, 4095), (.TWR_STAT_STATE, 1, 1)]
         s.punUsed 0 = true ∧ s.rd .PUN_STAT_STATE 0 = pSTOPPED ∧ s.on .PUN_CFG_EN 1 = false ∧ s.rd .PUN_SLAB_COUNT 1 ≠ 0 ∧ s.punEnableOk 2 0 0 = false ∧ s.rd .PUN_SLAB_COUNT 3 = 0)
      ∧ (let s := serving [(.PUN_SLAB_COUNT, 1, 1), (.PUN_SLAB_FIRST, 1, 0)]
         s.on .PUN_CFG_EN 1 = false ∧ s.punEnableOk 1 0 0 = true)
      ∧ (let s := { service with pkeys := [(3, some 7)] }
         let u := s.setEnc 6 (some ⟨5, []⟩)
         u.dead = false ∧ u.punKey 3 = some 7 ∧ u.getEnc 6 = some ⟨5, []⟩ ∧ u.getEnc 7 = none ∧ s.getEnc 6 = none) := by refine ⟨?_, ?_, ?_, ?_⟩ <;> decide +kernel

/-- Receiver 0 of a lit lane, locked, in a run with four roles and a shadow. -/
def running (l : List (Fld × Nat × Nat)) : State :=
  serving ([(.PATH_MODE_AB, 0, 1), (.PATH_MODE_BA, 0, 1), (.XCVR_STAT_LOCK, 0, 1), (.X_CAL_ST, 0, 2), (.X_CAL_STEP, 0, 1), (.CAL_SLC_ROLE, 0, 0), (.CAL_SLC_ROLE, 1, 1), (.CAL_SLC_ROLE, 2, 2),
    (.CAL_SLC_ROLE, 3, 3), (.CAL_SLC_ROLE, 4, 4)] ++ l)
/-- A trim that a pass finds. -/
def aTrim : SliceTrim := ⟨27, 31, 0⟩

theorem witness_CalibrationRuns :
    (let s := service
     s.dead = false ∧ s.calq = [] ∧ s.rd .X_CAL_RQ 511 ≠ 1 ∧ s.rd .X_CAL_ST 511 ≠ 2)
      ∧ (let s := { running [(.X_CAL_ST, 0, 1)] with calq := [0] }
         s.dead = false ∧ s.calq.find? (fun y => rxLane y / 16 == 0) = some 0 ∧ ((laneRx 0).filter fun z => s.calq.contains z) = [0] ∧ s.calGoes 0 = true
           ∧ (s.calIn 0 2).length + (s.calIn 0 3).length = 0)
      ∧ (let s := { running [(.X_CAL_ST, 0, 1), (.XCVR_STAT_LOCK, 0, 0)] with calq := [0] }
         s.calq.find? (fun y => rxLane y / 16 == 0) = some 0 ∧ s.calGoes 0 = false)
      ∧ (let s := running [(.X_CAL_PASS, 0, 1), (.X_CAL_PREV, 0, trimWord aTrim + 2 ^ 34)]
         s.dead = false ∧ s.rd .X_CAL_ST 0 = 2 ∧ s.on .X_CAL_AGREE 0 = false ∧ s.calGoes 0 = true ∧ s.sliceIn 0 4 = some 4 ∧ 1 < s.rd .X_CAL_PASS 0 + 1 ∧ bitOf (s.rd .X_CAL_PREV 0) 34 = true
           ∧ passesAgree (s.rd .CAL_CTL_TOL 0) (s.rd .X_CAL_PREV 0) (trimWord aTrim) = true)
      ∧ (let s := running [(.X_CAL_PASS, 0, 4), (.X_CAL_PREV, 0, 2 ^ 34), (.X_CAL_CONS, 0, 3)]
         passesAgree (s.rd .CAL_CTL_TOL 0) (s.rd .X_CAL_PREV 0) (trimWord aTrim) = false ∧ 5 ≤ s.rd .X_CAL_PASS 0 + 1 ∧ s.rd .X_CAL_CONS 0 = 3 ∧ s.calGoes 0 = true)
      ∧ (let s := running [(.X_CAL_PASS, 0, 1)]
         1 < s.rd .X_CAL_PASS 0 + 1 ∧ bitOf (s.rd .X_CAL_PREV 0) 34 = false ∧ s.sliceIn 0 4 = some 4)
      ∧ (let s := running [(.X_CAL_AGREE, 0, 1)]
         s.rd .X_CAL_ST 0 = 2 ∧ s.on .X_CAL_AGREE 0 = true ∧ s.on .X_CAL_LATER 0 = false ∧ s.switchNext (rxPath 0) = false ∧ s.sliceIn 0 4 = some 4 ∧ s.rd .X_CAL_STEP 0 < 5
           ∧ s.sliceIn 0 (s.rd .X_CAL_STEP 0 - 1) = some 0)
      ∧ (let s := running [(.X_CAL_AGREE, 0, 1), (.X_CAL_STEP, 0, 5)]
         5 ≤ s.rd .X_CAL_STEP 0 ∧ s.switchNext (rxPath 0) = false)
      ∧ (let s := (running [(.X_CAL_AGREE, 0, 1)]).setChg 0 (some ⟨2, .named (.pos 1)⟩)
         s.switchNext (rxPath 0) = true)
      ∧ (let s := serving [(.X_CAL_RQ, 511, 1), (.CAL_CTL_BGEN, 0, 1), (.CAL_SLC_ROLE, 2555, 0), (.CAL_SLC_ROLE, 2556, 1), (.CAL_SLC_ROLE, 2557, 2), (.CAL_SLC_ROLE, 2558, 3), (.CAL_SLC_ROLE, 2559, 4)]
         s.dead = false ∧ s.rd .X_CAL_RQ 511 = 1 ∧ s.on .CAL_CTL_BGEN 0 = true ∧ s.rd .X_CAL_ST 511 = 0 ∧ s.noShadow 511 = false) := by refine ⟨?_, ?_, ?_, ?_, ?_, ?_, ?_, ?_, ?_, ?_⟩ <;> decide +kernel

theorem witness_CalibrationCommands :
    (let s := serving [(.NVM_WEAR0_WRITES, 0, 99999), (.NVM_WEAR1_WRITES, 0, 99999)]
     s.takes .port 0x440004 ∧ s.on .CAL_STAT_WBBUSY 0 = false ∧ s.rd (wearFld s.wbCopy) 0 < 100000)
      ∧ (let s := serving [(.NVM_WEAR0_WRITES, 0, 100000), (.NVM_WEAR1_WRITES, 0, 100000)]
         s.takes .port 0x440004 ∧ s.on .CAL_STAT_WBBUSY 0 = false ∧ 100000 ≤ s.rd (wearFld s.wbCopy) 0)
      ∧ (let s := serving [(.CAL_STAT_WBBUSY, 0, 1)]
         s.takes .port 0x440004 ∧ s.on .CAL_STAT_WBBUSY 0 = true ∧ s.dead = false ∧ s.mgmtAway = false)
      ∧ (let s := (serving [(.X_CAL_FG, 255, 1)]).setChg 510 (some ⟨1, .fromDark none⟩)
         s.dead = false ∧ s.calWaits 255 = true ∧ (match s.pendChg 510 with | some ⟨_, .fromDark _⟩ => true | _ => false) = true ∧ s.pwrOn 15 = true) := by refine ⟨?_, ?_, ?_, ?_⟩ <;> decide +kernel


/-! Hypotheses of the statements about towers, management, the Rind and firmware. -/

/-- Both towers at work. -/
def towers (l : List (Fld × Nat × Nat)) : State := serving ([(.TWR_STAT_STATE, 0, 1), (.TWR_STAT_STATE, 1, 1)] ++ l)

theorem witness_TowerUpkeep :
    (let s := towers [(.CH_STAT_STATE, 31, 1), (.TWR_RFM_THRESH, 0, 1)]
     s.dead = false ∧ s.twrActive 0 = true ∧ s.rd .CH_STAT_STATE 0 = 0 ∧ s.rd .CH_STAT_STATE 31 ≠ 0 ∧ (nget s.banks noAct 0).count < s.rd .TWR_RFM_THRESH 0)
      ∧ (let s := towers [(.TWR_RFM_THRESH, 1, 0)]
         s.rd .TWR_RFM_THRESH 1 ≤ (nget s.banks noAct (pcI 1 15 1 * 16 + 15)).count ∧ s.twrActive 1 = true)
      ∧ (let s := towers [(.TWR_CLRSTAT_BUSY, 1, 1)]
         s.takes .port (addrTwr 0 + 8) ∧ s.takes .port (addrTwr 1 + 8) ∧ s.runInTower 0 1535 1 = true ∧ s.runInTower 0 1535 2 = false ∧ s.meetsPun 1535 1 none = false
           ∧ s.meetsDlr 1535 1 none = false ∧ s.on .TWR_CLRSTAT_BUSY 0 = false ∧ s.on .TWR_CLRSTAT_BUSY 1 = true ∧ 0 < s.avail 1)
      ∧ (let s := serving [(.TWR_STAT_STATE, 0, 3), (.TWR_CLRSTAT_BUSY, 0, 1)]
         s.dead = false ∧ s.on .TWR_CLRSTAT_BUSY 0 = true ∧ s.avail 0 = 0)
      ∧ (let s := towers [(.PATH_MODE_AB, 0, 4)]
         s.takes .port 0x2040000 ∧ s.inDelay 0 = true ∧ s.inDelay 511 = false ∧ s.takes .port (0x2040000 + 4 * 511) ∧ s.runInTower 1 3071 1 = true ∧ s.meetsPun 3071 1 none = false
           ∧ s.meetsDlr 3071 1 (some 511) = false ∧ s.meetsClear 3071 1 = false ∧ s.runInTower 1 3071 2 = false)
      ∧ (let s := towers [(.X_REP_OP, 1, 3), (.CH_STAT_STATE, 2, 3)]
         s.takes .port (addrTwr 1 + 0x1004 + 0x100 * 15) ∧ s.twrActive 0 = true ∧ s.otherReset 0 0 = false ∧ s.rd .X_REP_OP 1 = 3 ∧ s.rd .X_REP_OP 0 = 0 ∧ s.rd .CH_STAT_STATE 2 = 3)
      ∧ (let s := towers [(.CH_STAT_STATE, 0, 1), (.TWR_STAT_STATE, 0, 3)]
         s.dead = false ∧ s.rd .CH_STAT_STATE 0 = 1 ∧ s.rd .TWR_STAT_STATE 0 = 3 ∧ s.rd .X_REP_OP 0 ≠ 2) := by refine ⟨?_, ?_, ?_, ?_, ?_, ?_, ?_⟩ <;> decide +kernel

/-- A row of tower 0, and its first spare taken. -/
def aRow : RowKey := ⟨0, 0, 0, 0, 0⟩

theorem witness_Repairs :
    (let s := towers [(.X_REP_OP, 1, 4)]
     s.takes .port (addrEcc 0 + 0x800) ∧ (∀ op ∈ [1, 2, 3, 4], s.repCode 0 op aRow 0 0 = 0 ∨ op = 2 ∨ op = 4) ∧ s.repCode 1 3 { aRow with t := 1 } 0 15 = 4 ∧ s.nvmWaits 0 < 16)
      ∧ (let s := { towers [] with nvmPend := List.replicate 16 (.soft aRow 0) }
         s.repCode 0 1 aRow 0 0 = 0 ∧ 16 ≤ s.nvmWaits 0 ∧ s.nvmWaits 1 < 16)
      ∧ (let s := { towers [] with softq := [(aRow, true)] }
         s.dead = false ∧ s.softq.find? (fun e => e.1.t == 0) = some (aRow, true) ∧ s.rd .X_REP_OP 0 = 0 ∧ s.nvmWaits 0 < 16 ∧ s.repCode 0 1 aRow (addrOf (s.retired 0) 0 0 0) 0 = 0)
      ∧ (let s := { towers [(.CH_STAT_STATE, 0, 3)] with softq := [(aRow, true)] }
         s.repCode 0 1 aRow (addrOf (s.retired 0) 0 0 0) 0 ≠ 0 ∧ s.rd .X_REP_OP 0 = 0)
      ∧ (let s := towers [(.X_REP_OP, 0, 1), (.X_REP_OP, 1, 3)]
         s.dead = false ∧ s.rd .X_REP_OP 0 = 1 ∧ s.freeSpare (s.repKey 0) = some 0 ∧ ((List.range 4).find? fun i => !(s.tsvIn 1 (s.rd .X_REP_CH 1)).contains i) = some 0 ∧ s.mgmtAway = false)
      ∧ (let s := towers [(.X_REP_OP, 0, 2), (.X_REP_OP, 1, 4)]
         s.rd .X_REP_OP 0 = 2 ∧ s.rd .X_REP_OP 1 = 4 ∧ s.mgmtAway = false ∧ s.nvmPend = [])
      ∧ (let s := towers [(.X_REP_OP, 0, 2), (.X_REP_OP, 1, 4), (.X_FWUP, 0, 0)]
         s.dead = false ∧ s.rd .X_REP_OP 0 = 2 ∧ s.rd .X_REP_OP 1 = 4 ∧ s.mgmtAway = true)
      ∧ (let s := { service with nvmPend := [.soft aRow 0] }
         s.dead = false ∧ s.nvmPend = .soft aRow 0 :: [] ∧ s.mgmtAway = false ∧ s.repCount < 2036) := by refine ⟨?_, ?_, ?_, ?_, ?_, ?_, ?_, ?_⟩ <;> decide +kernel

theorem witness_ScrubAndTestWindow :
    (let s := { towers [(.SCR_CFG_PERIOD, 0, 1), (.SCR_CFG_PERIOD, 31, 0)] with bursts := [64] }
     s.dead = false ∧ s.bursts.find? (fun b => towerOf b == 0) = some 64 ∧ s.bursts.find? (fun b => towerOf b == 1) = none ∧ s.twrActive 0 = true ∧ s.rd .CH_STAT_STATE (chI 0 (s.locOf 64).c) = 0
       ∧ s.rd .CH_STAT_STATE 0 = 0 ∧ s.rd .SCR_CFG_PERIOD 0 ≠ 0 ∧ s.pwrOn 36 = true ∧ s.clkRuns 16 = true ∧ s.rd .SCR_CFG_PERIOD 31 = 0)
      ∧ (let s := towers [(.TST_CMD_BUSY, 1, 1)]
         s.takes .port (addrEcc 0 + 0xA14) ∧ s.takes .port (addrEcc 1 + 0xA14) ∧ s.tstCode 0 = 0 ∧ s.tstCode 1 = 4 ∧ s.rd .X_INJ_LEFT 0 = 0 ∧ (decodeWord (s.getT (s.tstAddr 0))).1 = .clean
           ∧ s.on .TST_CMD_BUSY 1 = true ∧ s.on .TST_CMD_BUSY 0 = false ∧ s.takes .port (addrEcc 1 + 0x304)) := by refine ⟨?_, ?_⟩ <;> decide +kernel

/-- A request of command c with a payload, and the state in which the management mailbox holds a GET_INFO. -/
def aReq (c : Nat) (p : List Byte) : List Byte := leBytes 2 c ++ leBytes 2 p.length ++ leBytes 12 0 ++ p
def asked (l : List (Fld × Nat × Nat)) : State := (serving ((.MB_STAT_PEND, 0, 1) :: l)).setWins (mbReqAt 0) (aReq 1 [])

theorem witness_MailboxCommands :
    (let s := service
     s.takes .port 0x9000 ∧ s.takes .twoWire 0x300040 ∧ s.mbWaits 0 = false ∧ s.mbWaits 1 = false ∧ knownCmd (reqCmd (s.mbReq 0)) = false ∧ s.fwRuns = true ∧ s.fwFree = true)
      ∧ (let s := (service).setWins (mbReqAt 0) (aReq 1 [])
         s.takes .port 0x9000 ∧ s.mbWaits 0 = false ∧ s.mbWaits 1 = false ∧ knownCmd (reqCmd (s.mbReq 0)) = true)
      ∧ (let s := serving [(.MB_STAT_PEND, 0, 1), (.X_FWUP, 0, 0)]
         s.takes .port 0x300040 ∧ s.mbWaits 0 = true ∧ s.mbWaits 1 = false ∧ s.fwRuns = false ∧ s.request .mbox = none)
      ∧ (let s := asked []
         s.dead = false ∧ (s.request .mbox).isSome = true ∧ s.request .mbox = some (s.mbReq 0) ∧ reqCmd (s.mbReq 0) = 1 ∧ s.hot ≠ .draining ∧ ¬(s.dev = devINIT) ∧ reqLen (s.mbReq 0) = 0
           ∧ leNat (sliceBytes (s.mbReq 0) 8 8) = 0)
      ∧ (let s := { asked [] with hot := .draining }
         (s.request .mbox).isSome = true ∧ s.hot = .draining)
      ∧ ((∀ x ∈ [(2, [1]), (2, [6]), (2, [7]), (3, [62, 0]), (3, [63, 0]), (0x10, [0, 0, 0xF0, 3]), (0x20, [3]), (0x20, [4]), (0x11, ([] : List Byte))],
           service.request (.mctp .twoWire (aReq x.1 x.2)) = some (aReq x.1 x.2) ∧ reqCmd (aReq x.1 x.2) = x.1 ∧ reqLen (aReq x.1 x.2) = x.2.length ∧ leNat (sliceBytes (aReq x.1 x.2) 8 8) = 0))
      ∧ (let s := serving [(.DEV_STATE_STATE, 0, 3), (.CAL_STAT_WBBUSY, 0, 1)]
         s.request (.mctp .twoWire (aReq 2 [1])) = some (aReq 2 [1]) ∧ s.dev = devINIT ∧ s.on .CAL_STAT_WBBUSY 0 = true)
      ∧ (let s := serving [(.DEV_STATE_STATE, 0, 7), (.DEV_STATE_INITSTEP, 0, 2)]
         s.dead = false ∧ s.request (.mctp .twoWire (aReq 9 [])) = some (aReq 9 []) ∧ knownCmd (reqCmd (aReq 9 [])) = false ∧ s.dev = devHOLD ∧ s.rd .DEV_STATE_INITSTEP 0 ≠ 4)
      ∧ (let s := serving [(.NVM_WEAR0_WRITES, 0, 100000), (.NVM_WEAR1_WRITES, 0, 100000)]
         s.on .CAL_STAT_WBBUSY 0 = false ∧ 100000 ≤ s.rd (wearFld s.wbCopy) 0 ∧ service.rd (wearFld service.wbCopy) 0 < 100000) := by refine ⟨?_, ?_, ?_, ?_, ?_, ?_, ?_, ?_, ?_⟩ <;> decide +kernel

/-- An event in the firmware's buffer. -/
def anEvent : EvRec := ⟨⟨1055, 9, 0⟩, 0, true, 1⟩

/-- The port is up. -/
def ported5 : State := serving [(.X_PORT_UP, 0, 1)]

theorem witness_FirmwareServices :
    (let s := serving [(.MGT_CTL_AUTO, 0, 1)]
     s.dead = false ∧ s.evbuf = [] ∧ s.fwRuns = true ∧ s.on .MGT_CTL_AUTO 0 = true ∧ devSERVICE ≤ s.dev ∧ s.mctpUp .twoWire = true ∧ s.mctpUp .rootComplex = false)
      ∧ (let s := { service with evbuf := [anEvent] }
         s.evbuf = anEvent :: [] ∧ ¬(s.fwRuns = false ∨ s.hot = .switched ∨ s.dev = devINIT) ∧ s.rd .X_INJ_LEFT 0 = 0 ∧ ¬(4096 ≤ s.hostq.length))
      ∧ (let s := { ported5 with hot := .draining }
         s.dead = false ∧ s.mctpUp (.byId 5) = true ∧ s.hot = .draining ∧ ported5.hot ≠ .draining)
      ∧ (let s := serving [(.X_FWUP, 0, 0)]
         s.fwRuns = false ∧ s.mctpUp .twoWire = false) := by refine ⟨?_, ?_, ?_, ?_⟩ <;> decide +kernel

theorem witness_SpdmRequests :
    (let s := serving [(.X_SPDM, 0, 3)]
     s.dead = false ∧ s.mctpUp .twoWire = true ∧ s.hot ≠ .draining ∧ 3 ≤ s.rd .X_SPDM 0 ∧ s.rd .X_SPDM 1 < 1 ∧ s.spdm.length < 2 ∧ s.on .RND_STAT_ERROR 0 = false ∧ s.on .RND_STAT_DECOM 0 = false
       ∧ s.on .RND_STAT_BUSY 0 = false)
      ∧ (let s := serving [(.X_SPDM, 0, 3), (.RND_STAT_BUSY, 0, 1), (.X_PORT_UP, 0, 1)]
         s.on .RND_STAT_BUSY 0 = true ∧ s.mctpUp .rootComplex = true ∧ s.rd .X_SPDM 1 = 0)
      ∧ (let s := { serving [(.X_SPDM, 0, 3), (.RND_STAT_ERROR, 0, 1)] with spdm := [⟨1, 0, false⟩, ⟨2, 0, true⟩] }
         s.on .RND_STAT_ERROR 0 = true ∧ 2 ≤ s.spdm.length ∧ (s.spdm.any fun x => x.id == 1 && x.binding == 0 && x.established == false) = true
           ∧ (s.spdm.any fun x => x.id == 2 && x.binding == 0 && x.established == true) = true ∧ (s.spdm.any fun x => x.id == 3) = false)
      ∧ (let s := { serving [(.X_SPDM, 0, 3)] with hot := .draining }
         s.dead = false ∧ s.mctpUp .twoWire = true ∧ s.hot = .draining ∧ (7 : Fin 8) ≠ 0) := by refine ⟨?_, ?_, ?_, ?_⟩ <;> decide +kernel

/-- A device whose serial number is 5, and a token for debug level l of it. -/
def serialled (l : List (Fld × Nat × Nat)) : State :=
  let s := serving l
  { s with regs := ((.RND_SERIAL_SERIAL, 0), 5) :: s.regs }
def aToken (l : Nat) : List Byte := [0x44, 0x42, 0x47, 0x54] ++ leBytes 1 l ++ leBytes 3 0 ++ leBytes 8 5 ++ List.replicate 224 0

theorem witness_RindCommands :
    (let s := serving [(.RND_CMD_RESULT, 0, 1)]
     s.takes .port 0x500010 ∧ s.rd .RND_CMD_RESULT 0 = 1 ∧ s.on .RND_STAT_BUSY 0 = false)
      ∧ (let s := service
         s.takes .port 0x500010 ∧ s.rd .RND_CMD_RESULT 0 ≠ 1 ∧ rndQuick 2 = false ∧ rndQuick 8 = true ∧ s.dead = false ∧ s.rd .X_TAP_IR 0 ≠ TapIr.dbgauth.ctorIdx ∧ s.rd .RND_STAT_DBGLVL 0 = 0)
      ∧ (let s := { serving [(.RND_STAT_BUSY, 0, 1), (.X_FW_CHK, 0, 1)] with rjob := some ⟨12, 0, 0, [], true, [], []⟩ }
         s.on .RND_STAT_BUSY 0 = true ∧ (s.rjob.map (·.cmd)) = some 12 ∧ s.on .RND_STAT_ERROR 0 = false ∧ s.on .X_FW_CHK 0 = true ∧ s.fq.length < 64)
      ∧ (service.dead = false ∧ service.on .RND_STAT_BUSY 0 = false ∧ service.rindRuns = true ∧ service.on .RND_STAT_ERROR 0 = false)
      ∧ (let s := { serving [(.RND_STAT_BUSY, 0, 1)] with rjob := some ⟨4, 0, 0, [], true, [], []⟩ }
         s.dead = false ∧ s.on .RND_STAT_BUSY 0 = true ∧ s.rjob.map (·.cmd) ≠ some 12)
      ∧ (let s := serialled [(.X_TAP_IR, 0, TapIr.dbgauth.ctorIdx)]
         s.rd .X_TAP_IR 0 = TapIr.dbgauth.ctorIdx ∧ s.rindRuns = true ∧ s.rd .RND_CMD_RESULT 0 ≠ 1 ∧ s.on .RND_STAT_BUSY 0 = false ∧ s.on .RND_STAT_ERROR 0 = false
           ∧ s.tokenOk (sliceBytes (aToken 2) 0 240) = true ∧ s.tokenOk (sliceBytes (aToken 3) 0 240) = false)
      ∧ (let s := serving [(.X_TAP_IR, 0, TapIr.dbgauth.ctorIdx), (.RND_STAT_ERROR, 0, 1), (.RND_STAT_DBGLVL, 0, 2)]
         s.rd .X_TAP_IR 0 = TapIr.dbgauth.ctorIdx ∧ s.on .RND_STAT_ERROR 0 = true ∧ (∀ i ∈ [TapIr.bypass, .dbgauth], tapLevel i ≤ s.rd .RND_STAT_DBGLVL 0)) := by refine ⟨?_, ?_, ?_, ?_, ?_, ?_, ?_⟩ <;> decide +kernel

/-- The Rind carries out command c with its arguments and input, in a session or not. -/
def atWork (c a0 a1 : Nat) (input : List Byte) (plain : List Byte) (l : List (Fld × Nat × Nat)) : State :=
  { serving ((.RND_CMD_RESULT, 0, 1) :: l) with rjob := some ⟨c, a0, a1, input, true, plain, []⟩ }
/-- The payloads of LOADPK for punnet 3, with two keys or one twice, and of LOADIDE for engine 127, direction 1. -/
def pkPlain (k : Byte) : List Byte := [1] ++ leBytes 1 3 ++ leBytes 6 0 ++ List.replicate 32 1 ++ List.replicate 32 k
def idePlain : List Byte := [2] ++ leBytes 1 127 ++ leBytes 1 1 ++ leBytes 5 0 ++ List.replicate 120 7

theorem witness_RindOutcomes :
    (let s := serving [(.RND_STAT_SESS, 0, 1)]
     s.dead = false ∧ s.rjob = none ∧ s.on .RND_STAT_BUSY 0 = false ∧ (∀ c ∈ List.range 15, s.rndBarred c = false) ∧ s.on .RND_STAT_SESS 0 = true)
      ∧ (let s := atWork 4 3 0 [] (pkPlain 1) [(.RND_STAT_ERROR, 0, 1)]
         s.rjob = some ⟨4, 3, 0, [], true, pkPlain 1, []⟩ ∧ s.rndBarred 4 = true ∧ (atWork 4 3 0 [] (pkPlain 1) []).needsSess 4 = true ∧ (atWork 4 3 0 [] (pkPlain 1) []).on .RND_STAT_SESS 0 = false)
      ∧ (let p := pkPlain 2
         p.length = 72 ∧ p.take 8 = [1] ++ leBytes 1 3 ++ leBytes 6 0 ∧ sliceBytes p 8 32 ≠ sliceBytes p 40 32 ∧ sliceBytes (pkPlain 1) 8 32 = sliceBytes (pkPlain 1) 40 32
           ∧ (serving [(.RND_STAT_SESS, 0, 1)]).punEncOn 3 = false ∧ (serving [(.PUN_CFG_EN, 3, 1), (.PUN_CFG_ENC, 3, 1)]).punEncOn 3 = true)
      ∧ (idePlain.length = 128 ∧ idePlain.take 8 = [2] ++ leBytes 1 127 ++ leBytes 1 1 ++ leBytes 5 0 ∧ service.rd .X_IDE_LAST 127 ≠ 2 ∧ (serving [(.X_IDE_LAST, 127, 2)]).rd .X_IDE_LAST 127 = 2)
      ∧ (let s := { serving [(.RND_STAT_OPSLOT, 0, 15)] with opHash := [(3, List.replicate 96 5)] }
         s.bit .RND_STAT_OPSLOT 0 3 = true ∧ s.bit .RND_STAT_OPREV 0 3 = false ∧ nget s.opHash [] 3 = sliceBytes ([3] ++ leBytes 7 0 ++ List.replicate 96 5) 8 96)
      ∧ (let s := { serving [(.RND_STAT_ASC, 0, 63), (.RND_STAT_SESS, 0, 1)] with bankA := some ⟨64, 0, false, []⟩ }
         s.rd .RND_STAT_ASC 0 ≠ 64 ∧ s.advRange 64 = true ∧ s.advRange 63 = false ∧ (serving [(.RND_STAT_ASC, 0, 64)]).rd .RND_STAT_ASC 0 = 64)
      ∧ (let s := { serving [(.DEV_STATE_HR_PEND, 0, 1)] with bankA := some ⟨1, 0, false, []⟩, bankB := some ⟨0, 0, false, []⟩ }
         s.on .DEV_STATE_HR_PEND 0 = true ∧ s.idleImage = some ⟨0, 0, false, []⟩ ∧ s.advRange 1 = true)
      ∧ (let s := serialled [(.RND_STAT_OPSLOT, 0, 8), (.RND_STAT_OPREV, 0, 1), (.X_RND_SLOT, 0, 2)]
         s.bit .RND_STAT_OPSLOT 0 3 = true ∧ s.bit .RND_STAT_OPREV 0 0 = true ∧ s.rd .X_RND_SLOT 0 = 2 ∧ s.bit .RND_STAT_OPSLOT 0 1 = false ∧ s.bit .RND_STAT_OPREV 0 1 = false
           ∧ s.tokenOk ((aToken 1).take 240) = true) := by refine ⟨?_, ?_, ?_, ?_, ?_, ?_, ?_, ?_⟩ <;> decide +kernel

/-- An engineering image of the smallest length, and a load of it whose checks run. -/
def anImage : List Byte := [0x43, 0x48, 0x46, 0x57, 1, 0, 1, 1] ++ leBytes 4 513 ++ List.replicate 501 0
def loading (idle : Bool) (l : List (Fld × Nat × Nat)) : State := { put State.reset ((.RND_STAT_BUSY, 0, 0) :: l) with fwLoad := some ⟨.port, idle, anImage⟩ }

theorem witness_FirmwareLoads :
    (let s := put State.reset [(.X_PORT_UP, 0, 1)]
     s.takes .port 0x8000 ∧ s.rd .FW_MBX_LEN_LEN 0 = 0 ∧ s.fwLoad = none ∧ s.loadOk false = true ∧ s.loadOk true = false ∧ s.on .X_FW_CHK 0 = false ∧ s.loadTaken .port = false
       ∧ s.rd .FW_MBX_OFS_OFS 0 = s.rd .FW_MBX_TOTAL_TOTAL 0)
      ∧ (let s := put State.reset [(.X_PORT_UP, 0, 1), (.FW_MBX_LEN_LEN, 0, 1), (.FW_MBX_OFS_OFS, 0, 1)]
         s.takes .port 0x8000 ∧ s.rd .FW_MBX_LEN_LEN 0 ≠ 0 ∧ s.rd .FW_MBX_OFS_OFS 0 ≠ s.rd .FW_MBX_TOTAL_TOTAL 0)
      ∧ (let s := { put State.reset [(.X_PORT_UP, 0, 1)] with fwLoad := some ⟨.twoWire, false, [1]⟩ }
         s.loadTaken .port = true ∧ s.loadOk false = true ∧ (s.wr .X_FW_CHK 0 1).on .X_FW_CHK 0 = true ∧ (s.wr .X_FW_CHK 0 1).loadTaken .port = true)
      ∧ (let s := put State.reset [(.X_PERSTN_HIGH, 0, 1), (.X_REF_DONE, 0, 31)]
         s.dead = false ∧ s.on .X_PERSTN_HIGH 0 = true ∧ s.bit .X_REF_DONE 0 4 = true ∧ (put s [(.X_PERSTN_HIGH, 0, 0)]).on .X_PERSTN_HIGH 0 = false)
      ∧ (let s := loading false [(.X_FW_CHK, 0, 1), (.DEV_STATE_STATE, 0, 2)]
         s.dead = false ∧ s.on .X_FW_CHK 0 = true ∧ s.on .RND_STAT_BUSY 0 = false ∧ s.fwLoad = some ⟨.port, false, anImage⟩ ∧ s.imageCode ⟨.port, false, anImage⟩ .engineering true true true = 0
           ∧ s.imageCode ⟨.port, false, anImage⟩ .engineering true false true = 4)
      ∧ (let s := { loading true [(.X_FW_CHK, 0, 1), (.DEV_STATE_STATE, 0, 4)] with bankA := some ⟨0, 0, true, []⟩ }
         s.dead = false ∧ s.imageCode ⟨.port, true, anImage⟩ .engineering true true true = 0) := by refine ⟨?_, ?_, ?_, ?_, ?_, ?_⟩ <;> decide +kernel

theorem witness_InitAndLowPower :
    (let s := serving [(.DEV_STATE_STATE, 0, 3), (.DEV_STATE_INITSTEP, 0, 1)]
     s.dead = false ∧ s.dev = devINIT ∧ s.rd .DEV_STATE_INITSTEP 0 = 1 ∧ s.towerFresh 0 = true)
      ∧ (let s := serving [(.DEV_STATE_STATE, 0, 3), (.DEV_STATE_INITSTEP, 0, 1), (.DEV_STATE_PRESERVED0, 0, 1), (.DEV_STATE_PRESERVED1, 0, 1)]
         s.dev = devINIT ∧ s.towerFresh 0 = false ∧ s.towerFresh 1 = false)
      ∧ (let s := serving [(.DEV_STATE_STATE, 0, 3), (.DEV_STATE_INITSTEP, 0, 2)]
         s.dev = devINIT ∧ s.rd .DEV_STATE_INITSTEP 0 = 2 ∧ (selfTest s [] []).1 = false ∧ (put s [(.DEV_STATE_INITSTEP, 0, 3)]).rd .DEV_STATE_INITSTEP 0 = 3)
      ∧ (let s := service
         s.takes .port 0x18 ∧ s.hot = .none ∧ s.dev = devSERVICE ∧ s.mayIdle = true ∧ (serving [(.PATH_MODE_AB, 0, 1)]).mayIdle = false)
      ∧ (let s := serving [(.DEV_STATE_STATE, 0, 5)]
         s.takes .port 0x18 ∧ s.hot = .none ∧ s.dev = devIDLE ∧ ({ s with hot := .switched } : State).hot ≠ .none)
      ∧ (let s := serving [(.DEV_STATE_STATE, 0, 6)]
         s.dead = false ∧ s.dev = devSTANDBY ∧ s.running = none ∧ ({ s with bankA := some ⟨0, 0, true, []⟩ } : State).running ≠ none) := by refine ⟨?_, ?_, ?_, ?_, ?_, ?_⟩ <;> decide +kernel

theorem witness_HotReload :
    (let s := serving [(.DEV_STATE_HR_PEND, 0, 1)]
     s.takes .port 0x18 ∧ s.hot = .none ∧ s.maySwitch = true ∧ service.maySwitch = false ∧ s.dead = false ∧ s.rd .X_CORE 0 ≠ 2)
      ∧ (let s := { service with hot := .draining }
         s.hot = .draining ∧ s.on .X_FWUP 0 = true ∧ s.fwFree = true)
      ∧ (let s := { serving [(.X_CORE, 0, 2)] with hot := .switched }
         s.dead = false ∧ s.hot = .switched ∧ s.rd .X_CORE 0 = 2) := by refine ⟨?_, ?_, ?_⟩ <;> decide +kernel

theorem witness_ProfileWrites :
    (let s := serving [(.F5_CTL_EN, 0, 1)]
     s.takes .port 0x700000 ∧ s.f5May 15 = true ∧ s.takes .port 0x701000 ∧ s.bit .F5_CTL_EN 0 0 = true ∧ s.bit .F5_CTL_EN 0 15 = false ∧ s.f5Code 0 (s.f5Word 0) ((s.f5Word 0).written 0) = 0
       ∧ (chgHost s.start 0 0 0 true).1 = 0)
      ∧ (let s := serving [(.F5_CTL_EN, 0, 1), (.PATH_MODE_AB, 1, 1)]
         s.f5May 0 = false ∧ s.f5Code 1 (s.f5Word 1) ((s.f5Word 1).written (2 ^ 14 - 1)) ≠ 0) := by refine ⟨?_, ?_⟩ <;> decide +kernel

theorem witness_HostTowerAccess :
    (let s := (towers [(.BAR2_MAP_EN, 63, 0), (.X_PORT_UP, 0, 1)]).setCarry 0 256
     s.dead = false ∧ s.portReady = true ∧ s.bar2Addr 4095 = some 4095 ∧ s.bar2Addr (2 ^ 36 - 1) = none ∧ min 256 (4096 - 4095) = 1 ∧ s.b2 = [] ∧ s.twrRefuses 0 = false ∧ s.twrWaits 4095 1 = false
       ∧ s.readFits 0 1 = true ∧ s.punAt 0 = none ∧ s.dlrAt 0 = none ∧ s.clearing 0 = false)
      ∧ (let s := serving [(.X_PORT_UP, 0, 1)]
         s.portReady = true ∧ s.twrRefuses 0 = true ∧ service.portReady = false)
      ∧ (let s := { towers [(.X_PORT_UP, 0, 1), (.X_REP_OP, 0, 3)] with b2 := [⟨0, 4, none⟩] }
         s.bar2Addr 0 = some 0 ∧ (s.b2.any fun c => towerOf c.addr == towerOf 0) = true ∧ s.twrWaits 0 4 = true ∧ ∀ b ∈ s.b2, towerOf b.addr ≠ 1)
      ∧ (let s := { towers [(.X_PORT_UP, 0, 1)] with b2 := [⟨0, 4, some ([1, 2, 3, 4], [])⟩, ⟨8, 4, none⟩] }
         s.dead = false ∧ s.b2.find? (fun b => b.data.isNone && !s.twrWaits b.addr b.len) = some ⟨8, 4, none⟩)
      ∧ (let s := towers [(.X_PORT_UP, 0, 1), (.PUN_CFG_EN, 0, 1), (.PUN_SLAB_COUNT, 0, 1)]
         s.bar2Addr 0 = some 0 ∧ (s.punAt 0).isSome = true ∧ s.twrRefuses 0 = false ∧ s.twrWaits 0 8 = false) := by refine ⟨?_, ?_, ?_, ?_, ?_⟩ <;> decide +kernel


/-! Hypotheses of the statements about readout, register accesses, the two-wire bus, resets, power, clocks, faults and check value units. -/

/-- The head of a harvest descriptor: op, punnet, length, source. -/
def aDesc (op pun len src : Nat) : List Byte := leBytes 1 op ++ [0] ++ leBytes 2 pun ++ leBytes 4 len ++ leBytes 8 src ++ List.replicate 48 0

/-- An engine may work: the port is up, it may issue requests, engine 7 is enabled with a descriptor in a ring of one slot, and tower 0 has read room. -/
def harvesting (l : List (Fld × Nat × Nat)) : State :=
  (serving ([(.X_PORT_UP, 0, 1), (.X_BME, 0, 1), (.HV_CTL_EN, 7, 1), (.HV_PROD_IDX, 7, 1), (.HV_RSIZE_SIZE, 7, 1), (.TWR_STAT_STATE, 0, 1), (.TWR_STAT_STATE, 1, 1)] ++ l)).setCarry 0 4096

/-- A descriptor at work. -/
def aJob (records : Bool) (len off bytes stop : Nat) : HvJob := ⟨records, false, 0, len, 0, 0, off, bytes, 0, 0, none, stop, false, false, [], 0, 0⟩

/-- The burst of it can be read. -/
abbrev CanRead (s : State) (A n : Nat) : Prop := s.twrRefuses (towerOf A) = false ∧ s.twrWaits A n = false ∧ s.readFits (towerOf A) n = true ∧ s.hvTurn 7 = true

theorem witness_HarvestDescriptors :
    (let s := harvesting []
     s.takes .port (addrHv 7) ∧ s.takes .port (addrHv 0 + 0x10) ∧ s.hvWrap 7 = 65536 ∧ s.hvWrap 0 = 0 ∧ s.dead = false ∧ s.hvMay = true ∧ s.on .HV_CTL_EN 7 = true ∧ s.hvLoaded 7 = true
       ∧ s.rd .HV_RSIZE_SIZE 7 ≠ 0 ∧ s.on .HV_STAT_FETCHERR 7 = false ∧ s.getHv 7 = none ∧ s.on .HV_CTL_EN 0 = false ∧ descBad (aDesc 3 0 16 0) = true ∧ (aDesc 3 0 16 0).getD 0 0 ≠ 2)
      ∧ (let s := harvesting []
         let d := aDesc 1 0 4096 0
         descBad d = false ∧ s.hvNoSource (hvJobOf s d) = false ∧ (hvJobOf s d).len ≠ 0 ∧ CanRead s 0 4096 ∧ (hvJobOf s (aDesc 1 0 0 0)).len = 0 ∧ s.hvNoSource (hvJobOf s (aDesc 1 0 16 (2 ^ 48))) = true
           ∧ ¬CanRead (harvesting [(.X_REP_OP, 0, 2)]) 0 4096)
      ∧ (let s := harvesting [(.PUN_CFG_EN, 0, 1)]
         let d := aDesc 2 0 4096 0
         d.getD 0 0 = 2 ∧ descBad d = false ∧ s.hvNoSource (hvJobOf s d) = false ∧ (hvJobOf s d).len ≠ 0 ∧ descBad (aDesc 2 0 1 0) = true ∧ s.hvNoSource (hvJobOf s (aDesc 2 256 16 0)) = true)
      ∧ (let j := aJob false 8192 4096 4096 0
         let s := (harvesting []).setHv 7 (some j)
         s.dead = false ∧ s.getHv 7 = some j ∧ s.hvMay = true ∧ j.abort = false ∧ CanRead s j.off 4096 ∧ j.bytes + 4096 = j.len ∧ (serving []).hvMay = false)
      ∧ (let j := aJob false 8192 0 0 0
         let s := (harvesting []).setHv 7 (some j)
         s.getHv 7 = some j ∧ CanRead s 0 4096 ∧ j.bytes + 4096 ≠ j.len ∧ { j with abort := true }.abort = true ∧ ¬CanRead (harvesting [(.X_REP_OP, 0, 4)]) 0 4096)
      ∧ (let j := aJob true 4096 64 0 64
         let s := (harvesting [(.PUN_SLAB_COUNT, 0, 1), (.PUN_TAIL_OFS, 0, 64)]).setHv 7 (some j)
         s.getHv 7 = some j ∧ s.hvMay = true ∧ j.records = true ∧ j.cut = false ∧ j.abort = false ∧ j.off = j.stop ∧ j.held = [] ∧ { j with held := [0] }.held ≠ [] ∧ { j with cut := true }.cut = true)
      ∧ (let j := aJob true 4096 0 0 64
         let s := (harvesting [(.PUN_SLAB_COUNT, 0, 1), (.PUN_TAIL_OFS, 0, 64)]).setHv 7 (some j)
         s.getHv 7 = some j ∧ j.off ≠ j.stop ∧ s.ringDist 0 64 64 ≤ s.ringDist 0 64 0 ∧ j.fits 32 = true ∧ { j with len := 0 }.fits 32 = false)
      ∧ (let j := aJob true 4096 0 0 64
         let s := (harvesting [(.PUN_SLAB_COUNT, 0, 1)]).setHv 7 (some j)
         ¬(s.ringDist 0 0 64 ≤ s.ringDist 0 0 0 ∨ s.punData 0 ≤ 0) ∧ CanRead s 0 4096 ∧ s.punTower 0 = 0 ∧ s.punBase 0 = 0 ∧ (let t := s.wr .X_REP_OP 0 2; t.twrRefuses 0 = true))
      ∧ (let j := aJob false 8192 0 0 0
         let s := ((harvesting []).setHv 7 (some j)).setHv 2 (some j)
         s.hvTurn 7 = false ∧ s.hvTurn 2 = true ∧ (s.wr .X_HV_TURN 0 3).hvTurn 7 = true ∧ s.getHv 7 = some j ∧ s.hvMay = true) := by refine ⟨?_, ?_, ?_, ?_, ?_, ?_, ?_, ?_, ?_⟩ <;> decide +kernel

/-- The port is up. -/
def ported (l : List (Fld × Nat × Nat)) : State := serving ((.X_PORT_UP, 0, 1) :: l)

theorem witness_RegisterAccesses :
    (let s := ported []
     s.dead = false ∧ s.busErr .port 0 false = false ∧ winAt 0 = none ∧ memAt 0 = none ∧ (regAt 0).isSome = true ∧ regAt 0xFFFFFC = none ∧ winAt 0xFFFFFC = none ∧ memAt 0xFFFFFC = none)
      ∧ (let s := ported []
         s.busErr .port 0xFFFFFC false = false ∧ winAt 0x9400 = some .wo ∧ winAt 0x9800 = some .ro ∧ winAt 0x10000 = some .msix ∧ winAt 0x10400 = none ∧ s.busErr .port 0x9400 true = false
           ∧ s.busErr .port 0x9800 true = false ∧ s.busErr .port 0x1000C true = false ∧ s.on .FW_MBX_STAT_BUSY 0 = false)
      ∧ (let s := put State.reset [(.X_PORT_UP, 0, 1), (.DEV_STATE_STATE, 0, 1)]
         s.dead = false ∧ s.busErr .port 0x1080000 false = true ∧ s.busErr .mgmt 0x1080000 false = true ∧ s.busErr .twoWire 0x1080000 true = true)
      ∧ (let s := ported []
         memAt 0x1080000 = some (0, false, 0, false) ∧ memAt 0x1080004 = some (0, false, 0, true) ∧ memAt 0x1FC7FFC = some (15, true, 4095, true) ∧ memAt 0x1FC8000 = none
           ∧ s.busErr .port 0x1080000 false = false ∧ s.busErr .port 0x1FC7FFC false = false)
      ∧ (let s := ported [(.F5_STAT_ACT, 0, 1), (.FW_MBX_STAT_BUSY, 0, 1)]
         mapped 0x1080000 = true ∧ s.ownedWrite 0x1080000 = true ∧ s.ownedWrite 0x1180000 = false ∧ 0xC000 ≤ 0xFFFC ∧ winAt 0xFFFC = some .wo ∧ s.on .FW_MBX_STAT_BUSY 0 = true)
      ∧ (let s := (ported [(.X_CFG_MSIXEN, 0, 1)]).setWin 0x10807 0x80
         s.msixHeld = false ∧ winAt 0x103FC = some .msix ∧ 0x103FC % 16 = 12 ∧ (0x103FC - 0x10000) / 16 = 63 ∧ bitOf (s.getWin 0x10807).toNat 7 = true ∧ s.busErr .port 0x103FC true = false
           ∧ (ported []).msixHeld = true ∧ (ported [(.X_CFG_MSIXEN, 0, 1), (.X_CFG_MSIXFM, 0, 1)]).msixHeld = true)
      ∧ (let s := ported []
         mapped 0x101000 = true ∧ (match regAt 0x400C with | some (w, i) => (lowWrite s.start w.base i 0).isSome | none => false) = true
           ∧ (match regAt 0x120 with | some (w, i) => (lowWrite s.start w.base i 0).isNone | none => true) = true) := by refine ⟨?_, ?_, ?_, ?_, ?_, ?_, ?_⟩ <;> decide +kernel

/-- The two-wire bus addresses the device. -/
def wired (l : List (Fld × Nat × Nat)) : State := serving ((.TW_ADDR_PRIMARY, 0, 0x60) :: l)

/-- A command code is served. -/
abbrev Served (s : State) (c : Nat) : Prop := s.on .X_RESETN_LOW 0 = false ∧ s.aonRuns = true ∧ s.twMine 0x60 = true ∧ s.dev ≠ devSTANDBY ∧ s.twBusy c = false ∧ ¬(s.hot = .draining ∧ c ∈ [3, 0x0F, 0x20, 0x21]) ∧ s.twWrites c = false ∧ c ∈ s.twServed ∧ s.twTaken c = false

theorem witness_TwoWireReads :
    (let s := wired []
     Served s 1 ∧ Served s 2 ∧ Served s 3 ∧ s.twMine 0x61 = false ∧ s.twMine 7 = false ∧ 0x40 ∉ s.twServed)
      ∧ (let s := wired [(.DEV_STATE_STATE, 0, 6)]
         s.on .X_RESETN_LOW 0 = false ∧ s.aonRuns = true ∧ s.twMine 0x60 = true ∧ s.dev = devSTANDBY ∧ (wired [(.CLK_FAIL_FAIL, 0, 2 ^ 25)]).aonRuns = false)
      ∧ (let s := wired [(.X_FW_CHK, 0, 1)]
         s.dev ≠ devSTANDBY ∧ s.twMine 0x60 = true ∧ s.twBusy 0x20 = true ∧ s.twBusy 0x10 = false)
      ∧ (let s := wired [(.X_FW_WR, 0, 1)]
         s.twMine 0x60 = true ∧ s.twBusy 0x20 = false ∧ s.twWrites 0x20 = true ∧ s.twWrites 0x10 = false)
      ∧ (let s := { wired [] with hot := .draining }
         s.on .X_RESETN_LOW 0 = false ∧ s.twMine 0x60 = true ∧ s.dev ≠ devSTANDBY ∧ s.twBusy 3 = false ∧ s.hot = .draining ∧ 3 ∈ [3, 0x0F, 0x20, 0x21] ∧ Served s 1 ∧ Served s 2) := by refine ⟨?_, ?_, ?_, ?_, ?_⟩ <;> decide +kernel

theorem witness_TwoWireWrites :
    (let s := wired []
     (∀ c ∈ [0x0F, 0x10, 0x11, 0x20, 0x21, 0x30, 0x3F], Served s c) ∧ s.fwFree = true ∧ s.twPec = true ∧ bitOf 1 0 = true ∧ bitOf (2 ^ 62) 0 = false ∧ bitOf (2 ^ 62) 62 = true ∧ regrdDws 63 252 = 63)
      ∧ (let s := wired [(.TW_CFG_PEC, 0, 0)]
         s.twPec = false ∧ Served s 0x10 ∧ Served s 0x11 ∧ pecOf ([0xC0, 0x10] ++ ([5, 0, 0, 0, 0, 252] : List Byte)) ≠ 0 ∧ (252 : Byte).toNat ≤ 252 ∧ (252 : Byte).toNat % 4 = 0)
      ∧ (let s := wired []
         s.loadOk true = true ∧ s.loadOk false = false ∧ s.fwLoad = none ∧ devINIT ≤ s.dev ∧ s.on .X_FW_CHK 0 = false)
      ∧ (let s := wired [(.DEV_STATE_STATE, 0, 1)]
         Served s 0x20 ∧ Served s 0x21 ∧ s.loadOk false = true ∧ ¬devINIT ≤ s.dev)
      ∧ (let s := { wired [] with fwLoad := some ⟨.twoWire, true, [1]⟩ }
         Served s 0x20 ∧ s.loadOk true = true ∧ s.twTaken 0x20 = false ∧ (wired [(.X_REP_OP, 1, 2)]).fwFree = false) := by refine ⟨?_, ?_, ?_, ?_, ?_⟩ <;> decide +kernel

theorem witness_AlertsAndTimeouts :
    (let s := wired [(.TW_ALERT_EN, 0, 1), (.X_ALERT, 0, 1), (.TW_CFG_TOEN, 0, 1), (.X_PORT_UP, 0, 1)]
     s.dead = false ∧ s.aonRuns = true ∧ s.dev ≠ devSTANDBY ∧ s.on .TW_ALERT_EN 0 = true ∧ s.rd .X_ALERT 0 ≠ 0 ∧ s.rd .X_ALERT_N 0 = 0 ∧ s.on .TW_CFG_TOEN 0 = true ∧ s.mctpq = [] ∧ s.takes .port 0x300000 ∧ s.takes .port 0x300010)
      ∧ (let s := wired [(.TW_ALERT_EN, 0, 1), (.X_ALERT, 0, 1), (.X_ALERT_N, 0, 8), (.TW_CFG_TOEN, 0, 1)]
         s.rd .X_ALERT_N 0 = 8 ∧ s.on .TW_ALERT_EN 0 = true ∧ s.rd .X_ALERT 0 ≠ 0 ∧ (wired [(.X_ALERT_N, 0, 1)]).rd .X_ALERT_N 0 ≠ 8)
      ∧ (let s := { wired [(.X_MCTP_N, 0, 8), (.TW_CFG_TOEN, 0, 1)] with mctpq := [[[1]]] }
         s.dead = false ∧ s.aonRuns = true ∧ s.mctpq = ([1] :: []) :: [] ∧ s.mctpq ≠ [] ∧ s.rd .X_MCTP_N 0 = 8 ∧ s.on .TW_CFG_TOEN 0 = true ∧ s.rd .X_ALERT 0 = 0)
      ∧ (let s := { wired [(.TW_CFG_TOEN, 0, 1)] with mctpq := [[], [[1]]] }
         s.dead = false ∧ s.aonRuns = true ∧ s.mctpq = [] :: [[[1]]] ∧ s.rd .X_MCTP_N 0 ≠ 8 ∧ (put service [(.TW_CFG_TOEN, 0, 0)]).on .TW_CFG_TOEN 0 = false ∧ (wired [(.DEV_STATE_STATE, 0, 6)]).dev = devSTANDBY) := by refine ⟨?_, ?_, ?_, ?_⟩ <;> decide +kernel

theorem witness_WholeDeviceResets :
    (let s := put service [(.TWR_CTL_PRESERVE, 0, 1), (.TWR_STAT_STATE, 0, 1)]
     s.dead = false ∧ s.takes .mgmt 0x18 ∧ s.preserved 0 = true ∧ s.preserved 1 = false)
      ∧ (service.dead = false ∧ service.preserved 0 = false ∧ service.preserved 1 = false ∧ (ported []).takes .port 0x18) := by refine ⟨?_, ?_⟩ <;> decide +kernel

theorem witness_GroveAndPortResets :
    (let s := ported []
     s.dead = false ∧ s.pwrOn 31 = true ∧ s.takes .port 0x5000 ∧ s.rd .SEQ_CTL_CLRBUSY 15 = 0 ∧ s.bit .F5_CTL_EN 0 15 = false ∧ s.rd .X_PORT_UP 0 = 1)
      ∧ (let s := ported [(.PWR_STAT_ON, 0, 2 ^ 63 - 1 - 2 ^ 16), (.SEQ_CTL_CLRBUSY, 15, 1)]
         s.takes .port 0x5000 ∧ s.pwrOn 16 = false ∧ s.pwrOn 31 = true ∧ s.rd .SEQ_CTL_CLRBUSY 15 ≠ 0)
      ∧ (let s := serving [(.X_PORT_UP, 0, 0)]
         s.dead = false ∧ s.rd .X_PORT_UP 0 = 0)
      ∧ (let cfg : PortCfg := ⟨true, true, false, 0, 0, 2, 2⟩
         let s := ((ported []).setWin 0x10800 1).setWin 0x1000C 0
         (nextOf (exec (.busMasterChange true false cfg) s)).msixHeld = false ∧ s.msixOwed 0 = true ∧ s.msixOwed 63 = false ∧ s.rd .X_PORT_UP 0 ≠ 0)
      ∧ (let cfg : PortCfg := ⟨true, false, false, 0, 0, 2, 2⟩
         (nextOf (exec (.busMasterChange true false cfg) (ported []))).msixHeld = true) := by refine ⟨?_, ?_, ?_, ?_, ?_⟩ <;> decide +kernel

theorem witness_ManagementResets :
    (let s := { ported [] with bankA := some ⟨0, 0, true, []⟩ }
     s.takes .port 0x5000 ∧ s.rd .X_CORE 0 = 0 ∧ s.running ≠ none ∧ s.dead = false ∧ s.rd .X_FWUP 0 ≠ 0 ∧ s.hot ≠ .switched ∧ s.takes .port 0x900C ∧ s.dev ≠ devHOLD)
      ∧ (let s := ported [(.X_CORE, 0, 1)]
         s.takes .port 0x5000 ∧ s.rd .X_CORE 0 = 1 ∧ s.dead = false ∧ s.running = none) := by refine ⟨?_, ?_⟩ <;> decide +kernel

/-- A change out of DARK is pending in grove 15. -/
def wanting : State := (serving []).setChg 511 (some ⟨1, .fromDark none⟩)

theorem witness_PowerAndTemperature :
    (let s := serving [(.X_PORT_UP, 0, 1)]
     s.dead = false ∧ s.groveDark 0 = true ∧ s.takes .port 0x4008 ∧ s.takes .port 0x400C ∧ hostSwitch 16 = true ∧ hostSwitch 15 = false ∧ s.sampled 0 = true ∧ s.sampled 63 = true ∧ s.sampled 95 = true
       ∧ s.dev ≠ devSTANDBY ∧ s.pwrOn 31 = true)
      ∧ (wanting.wantsOut 15 = true ∧ wanting.dev = devSERVICE ∧ wanting.dead = false)
      ∧ (let s := serving []
         shutAt 0 = 944 ∧ shutAt 32 = 864 ∧ (943#16).toInt < shutAt 31 ∧ shutAt 31 ≤ (944#16).toInt ∧ (863#16).toInt < shutAt 63 ∧ s.supplyIdle 0 = false ∧ supplyOk 0 820 = true ∧ supplyOk 0 819 = false
           ∧ s.sampled 64 = true ∧ s.sampled 87 = true ∧ s.supplyIdle 23 = false ∧ supplyOk 23 3300 = true)
      ∧ (let s := serving [(.DEV_STATE_STATE, 0, 6)]
         s.dead = false ∧ s.aonRuns = true ∧ s.dev = devSTANDBY ∧ s.sampled 32 = false ∧ s.sampled 31 = true ∧ s.sampled 88 = false)
      ∧ (let s := serving [(.CLK_FAIL_FAIL, 0, 2 ^ 25)]
         s.dead = false ∧ s.aonRuns = false ∧ s.sampled 0 = false ∧ service.aonRuns = true ∧ service.sampled 91 = true ∧ service.sampled 92 = true)
      ∧ (let s := serving [(.PWR_STAT_ON, 0, 0)]
         s.dead = false ∧ s.sampled 64 = true ∧ s.supplyIdle 0 = true)
      ∧ (let s := serving [(.X_RESETN_LOW, 0, 1)]
         s.dead = true ∧ s.dev ≠ devLATCHED ∧ s.aonRuns = true ∧ supplyOk 14 0 = false ∧ supplyOk 17 0 = false ∧ shutAt 0 ≤ (944#16).toInt ∧ shutAt 63 ≤ (864#16).toInt) := by refine ⟨?_, ?_, ?_, ?_, ?_, ?_, ?_⟩ <;> decide +kernel

theorem witness_ClockSources :
    (let s := put State.reset [(.X_REF_PRES, 0, 1), (.X_REF_DONE, 0, 30)]
     s.dead = false ∧ s.bit .X_REF_PRES 0 0 = true ∧ s.bit .X_REF_DONE 0 0 = false ∧ s.rd .X_BREF_SET 0 = 0 ∧ s.dev ≤ devLOAD ∧ s.bit .X_REF_DONE 0 4 = true)
      ∧ (let s := put State.reset [(.CLK_STAT_CPLLRDY, 0, 0), (.CLK_SEL_HSRC, 0, 1)]
         s.rd .CLK_STAT_CPLLRDY 0 = 0 ∧ s.dev = devROM ∧ s.rd .CLK_SEL_HSRC 0 ≠ 0)
      ∧ (let s := ported [(.X_BREF_SET, 0, 1), (.CLK_STAT_CPLLRDY, 0, 1), (.X_CLKR, 0, 8), (.CLK_SEL_HSRC, 0, 0)]
         s.takes .port 0x3000 ∧ s.takes .port 0x3020 ∧ s.bit .DEV_STATE_QREF_OK 0 3 = true ∧ s.rd .X_BREF_SET 0 ≠ 0 ∧ s.rd .CLK_STAT_CPLLRDY 0 ≠ 0 ∧ 0 < s.rd .X_CLKR 0 ∧ s.rd .X_CLKR 0 ≤ 8
           ∧ s.rd .CLK_SEL_HSRC 0 = 0 ∧ s.rd .CLK_STAT_FALLBACK 0 = 0)
      ∧ (let s := ported [(.CLK_STAT_CPLLRDY, 0, 0), (.CLK_STAT_AONRDY, 0, 1), (.CLK_SEL_HSRC, 0, 0)]
         s.takes .port 0x3000 ∧ s.rd .CLK_STAT_CPLLRDY 0 = 0 ∧ s.rd .CLK_STAT_AONRDY 0 ≠ 0 ∧ s.rd .CLK_SEL_HSRC 0 ≠ 1) := by refine ⟨?_, ?_, ?_, ?_⟩ <;> decide +kernel

theorem witness_ClockFailuresAndGates :
    (let s := ported [(.FM_CTL_BUSY, 0, 1), (.CLK_GPEND_GATE_PEND, 0, 1)]
     s.dead = false ∧ s.aonRuns = true ∧ s.takes .port 0x3030 ∧ s.takes .port 0x3034 ∧ s.takes .port 0x3080 ∧ s.rd .X_BREF_SET 0 = 0 ∧ s.bit .CLK_GPEND_GATE_PEND 0 0 = true ∧ s.rd .FM_CTL_BUSY 0 ≠ 0 ∧ s.rd .FM_CTL_MODE 0 = 0
       ∧ s.fq.length < 63)
      ∧ (let s := ported [(.FM_CTL_BUSY, 0, 1), (.FM_CTL_MODE, 0, 1), (.X_BREF_SET, 0, 1), (.CLK_SEL_BREF, 0, 1)]
         s.rd .FM_CTL_BUSY 0 ≠ 0 ∧ s.rd .FM_CTL_MODE 0 ≠ 0 ∧ s.rd .X_BREF_SET 0 ≠ 0 ∧ s.rd .CLK_SEL_BREF 0 ≠ 0 ∧ s.dead = false ∧ s.aonRuns = true ∧ (ported [(.CLK_FAIL_FAIL, 0, 2 ^ 25)]).aonRuns = false) := by refine ⟨?_, ?_⟩ <;> decide +kernel

/-- A message of source 0 waits, whose reaction is as given. -/
def queued (react : Nat) : State := { serving [(.FLT_SEV_REACT, 0, react)] with fq := [⟨0, 1, 0⟩] }

theorem witness_FaultMessageReactions :
    ((queued 0).dead = false ∧ (queued 0).fqOver = [] ∧ (queued 0).fq = ⟨0, 1, 0⟩ :: [] ∧ (queued 0).rd .X_FQ_RUN 0 = 0 ∧ ((queued 0).effective 0).1 = rLOG ∧ (queued 0).evbuf.length < 4096)
      ∧ (let s := (queued 1).setWin (0x10000 + 16 * srcVector 0 + 12) 0
         (s.effective 0).1 = rIRQ ∧ (s.getWin (0x10000 + 16 * srcVector 0 + 12)).toNat % 2 = 0 ∧ s.fq = ⟨0, 1, 0⟩ :: [])
      ∧ (((queued 2).effective 0).1 = rTRAP ∧ ((queued 3).effective 0).1 = rBLOCK ∧ (queued 3).pwrOn 16 = true ∧ ((queued 4).effective 0).1 = rCHIP ∧ (queued 4).dev ≠ devHOLD ∧ ((queued 5).effective 0).1 = rFAULTN)
      ∧ (let s := { serving [(.FLT_SEV_REACT, 1055, 3)] with fq := [⟨1055, 10, 0⟩] }
         s.dead = false ∧ s.fqOver = [] ∧ s.rd .X_FQ_RUN 0 = 0 ∧ (s.effective 1055).1 = rBLOCK ∧ ([] : List Msg).length < 64) := by refine ⟨?_, ?_, ?_, ?_⟩ <;> decide +kernel

theorem witness_FaultRegisters :
    (let s := ported [(.FLT_STAT_STAT, 35, 2 ^ 31)]
     s.takes .port 0x100000 ∧ s.takes .port 0x100018 ∧ s.takes .port 0x100040 ∧ s.takes .port (0x100100 + 4 * 35) ∧ s.takes .port (0x101000 + 4 * 1151) ∧ s.causes = [])
      ∧ (let s := { ported [(.FLT_STAT_STAT, 35, 2 ^ 31)] with causes := [(36863, some ⟨1151, 1, 0⟩)] }
         s.bit .FLT_STAT_STAT 35 31 = true ∧ s.causes.filterMap (·.2) = [⟨1151, 1, 0⟩] ∧ s.fq.length < 64)
      ∧ (let s := ported [(.FLT_INJ_BUSY, 0, 1)]
         s.rd .FLT_INJ_BUSY 0 ≠ 0 ∧ (ported []).rd .FLT_INJ_BUSY 0 = 0 ∧ 1 ≤ injMax 0 ∧ injMax 31 < 4) := by refine ⟨?_, ?_, ?_⟩ <;> decide +kernel

theorem witness_CheckValueUnits :
    let s := ported [(.CU_CTL_LEN, 7, 1), (.CU_CTL_CMPEN, 7, 1)]
    s.takes .port (addrCu 7) ∧ s.takes .port (addrCu 7 + 4) ∧ s.takes .port (addrCu 7 + 8) ∧ s.takes .port (addrCu 7 + 0xC) ∧ s.takes .port (addrCu 7 + 0x10) ∧ s.takes .port (addrCu 7 + 0x34) ∧ s.takes .port (addrCu 7 + 0x2C) ∧ s.takes .port (addrCu 7 + 0x38)
      ∧ s.rd .CU_CTL_LEN 7 = s.rd .CU_CNT_CNT 7 + 1 ∧ s.rd .CU_CTL_AMODE 7 = 0 ∧ s.rd .X_INJ_LEFT 0 = 0 ∧ s.rd .CU_CTL_CMPEN 7 ≠ 0 ∧ s.rd .CU_CTL_LEN 0 = 0 ∧ s.rd .CU_CTL_CMPEN 0 = 0 := by decide +kernel


end Sys2Proof.Tests
end

section
/-! Every command answers a next state (spec/00_scope.md; R6 and R613 leave no case without an effect). The guards that commands share answer whatever the effect that they
guard; a command is one of them. -/
namespace Sys2Proof.Machine

variable (s : State)

theorem live_answers (f : State → State) : ∃ t, live s f = .next t := by
  unfold live
  split <;> exact ⟨_, rfl⟩

theorem liveIn_answers (same : Bool) (f : State → State) : ∃ t, liveIn same s f = .next t := by
  unfold liveIn
  split <;> exact ⟨_, rfl⟩

theorem twXfer_answers (a : BitVec 7) (cmd : Nat) (f : State → State) : ∃ t, twXfer s a cmd f = .next t := by
  unfold twXfer
  dsimp only
  split_ifs <;> exact ⟨_, rfl⟩

theorem execHkConversion_answers (ch : Fin 96) (value : BitVec 16) (valid : Bool) (second : BitVec 16) (secondValid : Bool) :
    ∃ t, execHkConversion ch value valid second secondValid s = .next t := by
  unfold execHkConversion
  split
  · exact ⟨_, rfl⟩
  · exact live_answers s _

/-- Every command is one of the shared guards around its effect: `live` but for those that may share a GCLK cycle, the transactions of the two-wire bus, and the three that act
on a device that is not live. -/
theorem exec_answers (c : Instr) : ∃ t, exec c s = .next t := by
  unfold exec
  cases c with
  | por | resetNRelease => dsimp only; exact ⟨_, rfl⟩
  | hkConversion => dsimp only; exact execHkConversion_answers s _ _ _ _ _
  | unitDecode | tlSet | tlClr | vineTriggerAct | tset | tclr => dsimp only; exact liveIn_answers s _ _
  | twIdent | twState | eventsum | mctpPacket | regrd | regwr | fwchunk | fwdone | alertcfg | buscfg => dsimp only; exact twXfer_answers s _ _ _
  | _ => dsimp only; exact live_answers s _

theorem step_answers : Safe s := by
  unfold Safe step
  split
  · exact ⟨_, rfl⟩
  · exact exec_answers _ _

/-- Settles O3: the guards that commands share answer in every state, and so does a tick. -/
theorem everyCommandAnswers : Obligations.EveryCommandAnswers :=
  ⟨fun c s => exec_answers s c, step_answers⟩

end Sys2Proof.Machine
end

section
/-! The registers of the fault collector (R546 to R562): bits of a written word, fields dropped to their reset values, and the statement of family 00_scope about them. -/
namespace Sys2Proof.Machine

variable (s : State)

/-! Bits of numbers. -/

theorem bitOf_eq_testBit (v i : Nat) : bitOf v i = v.testBit i := by
  rw [Nat.testBit_eq_decide_div_mod_eq]; rfl

theorem bitOf_two_pow (k b : Nat) : bitOf (2 ^ k) b = decide (k = b) := by
  rw [bitOf_eq_testBit, Nat.testBit_two_pow]

/-- A word with one bit set by its number. -/
theorem toNat_bit (k : Fin 32) : (1#32 <<< k.val).toNat = 2 ^ k.val := by
  have : 2 ^ k.val < 2 ^ 32 := Nat.pow_lt_pow_right (by omega) k.isLt
  rw [BitVec.toNat_shiftLeft, Nat.shiftLeft_eq]
  simpa using this

/-- Setting bit 16 leaves the bits below it, and bit 16 is then set. -/
theorem setBitTo_16 (v : Nat) : setBitTo v 16 true % 2 ^ 16 = v % 2 ^ 16 ∧ bitOf (setBitTo v 16 true) 16 = true := by
  simp only [setBitTo, bitOf, beq_iff_eq, if_true]
  split <;> omega

/-! Reading after the shared operations. -/

/-- A field cleared by writing ones keeps the bits where the word written has 0. -/
theorem bit_w1c (f : Fld) (i v k : Nat) (hk : k < f.width) : (s.w1c f i v).bit f i k = (s.bit f i k && !bitOf v k) := by
  have hv : v % 2 ^ f.width < 2 ^ f.width := Nat.mod_lt _ (Nat.two_pow_pos _)
  have hm : 2 ^ f.width - 1 - v % 2 ^ f.width = 2 ^ f.width - (v % 2 ^ f.width + 1) := by omega
  have ha : Nat.land (s.rd f i) (2 ^ f.width - (v % 2 ^ f.width + 1)) = s.rd f i &&& (2 ^ f.width - (v % 2 ^ f.width + 1)) := rfl
  simp only [State.w1c, State.bit, State.rd_wr_same, bitOf_eq_testBit, hm, ha, Nat.testBit_mod_two_pow, Nat.testBit_and, Nat.testBit_two_pow_sub_succ hv, hk,
    decide_true, Bool.true_and]

theorem storeGet_filter {κ α : Type} [DecidableEq κ] (m : List (κ × α)) (p : κ → Bool) (d : α) (k : κ) :
    storeGet (m.filter fun e => !p e.1) d k = if p k then d else storeGet m d k := by
  induction m with
  | nil => simp [storeGet]
  | cons e r ih =>
    obtain ⟨k', v⟩ := e
    by_cases hk : k' = k
    · subst hk
      cases hp : p k' <;> simp [hp, storeGet, ih]
    · cases hp : p k' <;> simp [hp, storeGet, ih, hk]

/-- Dropped fields read as after reset, the others as before. -/
theorem State.rd_drop (p : Fld × Nat → Bool) (f : Fld) (i : Nat) : (s.drop p).rd f i = if p (f, i) then fldReset (f, i) % 2 ^ f.width else s.rd f i := by
  simp only [State.rd, State.drop, storeGet_filter]
  split <;> rfl

/-- A repeated change none of whose elements has an effect on the state. -/
theorem State.each_eq_self {α : Type} (l : List α) (f : State → α → State) (h : ∀ a ∈ l, f s a = s) : s.each l f = s := by
  induction l with
  | nil => rfl
  | cons a r ih =>
    have ha : f s a = s := h a (by simp)
    rw [State.each, List.foldl_cons, ha]
    exact ih fun b hb => h b (by simp [hb])

/-- A repeated change of which one element alone has an effect. -/
theorem State.each_range_one (f : State → Nat → State) {n k : Nat} (hk : k < n) (h : ∀ s b, b ≠ k → f s b = s) : s.each (List.range n) f = f s k := by
  induction n with
  | zero => omega
  | succ n ih =>
    rw [State.each, List.range_succ, List.foldl_append, List.foldl_cons, List.foldl_nil]
    by_cases hn : k = n
    · subst hn
      rw [← State.each, State.each_eq_self s _ f fun b hb => h s b (by simp at hb; omega)]
    · rw [← State.each, ih (by omega), h _ n (Ne.symm hn)]

/-- A message that finds room in the queue changes no register. -/
theorem raise_room_regs (a b c : Nat) (h : s.fq.length < 64) : (s.raise a b c).regs = s.regs := by
  rw [State.raise, if_pos h]

/-- A message leaves every memory. -/
theorem raise_memSame (a b c : Nat) : s.memSame (s.raise a b c) := by
  simp [State.memSame, State.getI, State.getD, State.getNvm, State.getWin]

/-! Status bits (R556). -/

/-- With no persistent cause, status bits clear as written. -/
theorem statClear_no_cause (i v : Nat) (h : s.causes = []) : statClear s i v = s.w1c .FLT_STAT_STAT i v := by
  refine State.each_eq_self _ _ _ fun b _ => ?_
  have hc : (s.w1c .FLT_STAT_STAT i v).causes = [] := h
  simp [hc]

/-- A cleared bit whose one cause persists sends that cause's message again. -/
theorem statClear_one_cause {i k : Nat} {m : Msg} (hk : k < 32) (hb : s.bit .FLT_STAT_STAT i k = true) (hm : m.src = 32 * i + k)
    (hc : s.causes.filterMap (·.2) = [m]) : statClear s i (2 ^ k) = (s.w1c .FLT_STAT_STAT i (2 ^ k)).raise m.src m.kind m.addr := by
  have hold : bitOf (s.rd .FLT_STAT_STAT i) k = true := hb
  have hcw : (s.w1c .FLT_STAT_STAT i (2 ^ k)).causes.filterMap (·.2) = [m] := hc
  unfold statClear
  dsimp only
  rw [State.each_range_one _ _ hk fun u b hbk => by simp [bitOf_two_pow, Ne.symm hbk]]
  simp [bitOf_two_pow, hold, hcw, hm]

theorem statusClear_spec (r : Route) (i : Fin 36) (v : DW) (h : s.takes r (0x100100 + 4 * i.val)) (hc : s.causes = []) :
    Does s (exec (.statusClear r i v) s) [.FLT_STAT_STAT] fun u =>
      (∀ k < 32, u.bit .FLT_STAT_STAT i k = (s.bit .FLT_STAT_STAT i k && !bitOf v.toNat k))
        ∧ (∀ j, j ≠ i.val → u.rd .FLT_STAT_STAT j = s.rd .FLT_STAT_STAT j) ∧ u.fq = s.fq := by
  refine ⟨s.start.w1c .FLT_STAT_STAT i v.toNat, ?_, ⟨fun k hk => bit_w1c _ _ _ _ _ hk, fun j hj => State.rd_wr_ne _ _ (by simp [hj]), rfl⟩,
    fldsBut_of (w1c_k (by simp) (keepsR_refl s _)), memSame_refl s⟩
  rw [← statClear_no_cause s.start i v.toNat hc]
  exact live_gate s r _ _ h

theorem statusClear_resends (r : Route) (i : Fin 36) (k : Fin 32) (m : Msg) (h : s.takes r (0x100100 + 4 * i.val)) (hb : s.bit .FLT_STAT_STAT i k = true)
    (hm : m.src = 32 * i.val + k.val) (ha : m.addr < 2 ^ 48) (hc : s.causes.filterMap (·.2) = [m]) (hq : s.fq.length < 64) :
    Does s (exec (.statusClear r i (1#32 <<< k.val)) s) [.FLT_STAT_STAT] fun u => u.fq = s.fq ++ [m] := by
  refine ⟨(s.start.w1c .FLT_STAT_STAT i (2 ^ k.val)).raise m.src m.kind m.addr, ?_, ?_, ?_, raise_memSame (s.start.w1c .FLT_STAT_STAT i (2 ^ k.val)) _ _ _⟩
  · rw [← statClear_one_cause s.start k.isLt hb hm hc, ← toNat_bit k]
    exact live_gate s r _ _ h
  · show State.fq _ = _
    rw [State.raise_fq (s.start.w1c .FLT_STAT_STAT i (2 ^ k.val)) _ _ _ hq, Nat.mod_eq_of_lt ha]; rfl
  · refine fldsBut_of ?_
    rw [raise_room_regs (s.start.w1c .FLT_STAT_STAT i (2 ^ k.val)) _ _ _ hq]
    exact w1c_k (by simp) (keepsR_refl s _)

/-! First fault (R551), FAULT_N (R554) and severities (R546, R562). -/

/-- The fields of the first-fault latch. -/
def latchFlds : List Fld := [.FLT_FIRST_ADDR, .FLT_FIRST_SRC_SOURCE, .FLT_FIRST_SRC_KIND, .FLT_FIRST_SRC_REACT, .FLT_FIRST_SRC_VALID, .FLT_FIRST_SRC_OVF, .FLT_FIRST_SRC_INJ,
  .FLT_FIRST_SRC_COLLIDE, .FLT_FIRST_SRC_ESC, .FLT_FIRST_EPOCH]

theorem firstClear_eq_drop : firstClear s 0x1000000 = s.drop fun k => latchFlds.contains k.1 := if_pos (by decide)

theorem rd_firstClear (f : Fld) (i : Nat) : (firstClear s 0x1000000).rd f i = if f ∈ latchFlds then fldReset (f, i) % 2 ^ f.width else s.rd f i := by
  rw [firstClear_eq_drop, State.rd_drop, List.contains_eq_mem]
  simp only [decide_eq_true_eq]

theorem firstFaultClear_spec (r : Route) (h : s.takes r 0x100018) :
    Does s (exec (.firstFaultClear r) s) latchFlds fun u => ∀ f ∈ latchFlds, u.rd f 0 = 0 := by
  have hz : ∀ f ∈ latchFlds, fldReset (f, 0) = 0 := by decide
  refine ⟨firstClear s.start 0x1000000, live_gate s r _ (fun s => firstClear s 0x1000000) h, fun f hf => ?_, fun f i hf => ?_, ?_⟩
  · rw [rd_firstClear, if_pos hf, hz f hf, Nat.zero_mod]
  · rw [rd_firstClear, if_neg hf]; rfl
  · rw [firstClear_eq_drop]; exact memSame_refl s

theorem faultnClr_spec (r : Route) (irqen : Bool) (h : s.takes r 0x100000) :
    Does s (exec (.faultnClr r irqen) s) [.FLT_CTL_IRQEN, .FLT_GSTAT_FAULTN] fun u =>
      u.rd .FLT_CTL_IRQEN 0 = (if irqen then 1 else 0) ∧ u.rd .FLT_GSTAT_FAULTN 0 = 0 := by
  have hw : Fld.FLT_CTL_IRQEN.width = 1 := rfl
  refine ⟨fltCtlSet s.start (2 + if irqen then 1 else 0), live_gate s r _ _ h, ?_, fldsBut_of (fltCtlSet_k (by simp) (keepsR_refl s _)), ?_⟩
  · cases irqen <;> simp [fltCtlSet, bitOf, bitsOf, State.clr, State.rd_wr, hw]
  · unfold fltCtlSet
    dsimp only
    split <;> exact memSame_refl s

/-- What FLT_SEV of a source takes: CLASS of a source that exists, and of its REACT the values that are not reserved, but for source 1051. -/
theorem rd_sevSet (src v : Nat) :
    (sevSet s src v).rd .FLT_SEV_CLASS src = (if src < 1075 then v / 8 % 16 else s.rd .FLT_SEV_CLASS src)
      ∧ (sevSet s src v).rd .FLT_SEV_REACT src = (if src < 1075 ∧ v % 8 < 6 ∧ src ≠ 1051 then v % 8 else s.rd .FLT_SEV_REACT src) := by
  have hc : Fld.FLT_SEV_CLASS.width = 4 := rfl
  have hr : Fld.FLT_SEV_REACT.width = 3 := rfl
  have hb : bitsOf v 2 0 = v % 8 ∧ bitsOf v 6 3 = v / 8 % 16 := by simp [bitsOf]
  unfold sevSet
  rw [hb.1, hb.2]
  by_cases hs : 1075 ≤ src
  · simp [hs, Nat.not_lt.mpr hs]
  · by_cases hv : v % 8 < 6 ∧ src ≠ 1051 <;> simp [hs, Nat.not_le.mp hs, hv, State.rd_wr, hc, hr]

theorem rd_sevSet_ne (src v : Nat) (f : Fld) {k : Nat} (hk : k ≠ src) : (sevSet s src v).rd f k = s.rd f k := by
  unfold sevSet
  dsimp only
  split_ifs <;> simp [State.rd_wr, hk]

theorem fltSevWrite_spec (r : Route) (src : Fin 1152) (v : DW) (h : s.takes r (0x101000 + 4 * src.val)) :
    Does s (exec (.fltSevWrite r src v) s) [.FLT_SEV_CLASS, .FLT_SEV_REACT] fun u =>
      (∀ k, k ≠ src.val → u.rd .FLT_SEV_CLASS k = s.rd .FLT_SEV_CLASS k) ∧ (∀ k, k ≠ src.val → u.rd .FLT_SEV_REACT k = s.rd .FLT_SEV_REACT k)
        ∧ u.rd .FLT_SEV_CLASS src = (if src.val < 1075 then v.toNat / 8 % 16 else s.rd .FLT_SEV_CLASS src)
        ∧ u.rd .FLT_SEV_REACT src = (if src.val < 1075 ∧ v.toNat % 8 < 6 ∧ src.val ≠ 1051 then v.toNat % 8 else s.rd .FLT_SEV_REACT src) := by
  refine ⟨sevSet s.start src v.toNat, live_gate s r _ _ h,
    ⟨fun k hk => rd_sevSet_ne s.start _ _ _ hk, fun k hk => rd_sevSet_ne s.start _ _ _ hk, rd_sevSet s.start _ _⟩,
    fldsBut_of (sevSet_k (by simp) (keepsR_refl s _)), ?_⟩
  unfold sevSet
  dsimp only
  split_ifs <;> exact memSame_refl s

/-! Injection (R559). -/

/-- The fields of a word written to FLT_INJ, and its ARM bit, which the command sets. -/
theorem injWord (w : Nat) :
    bitsOf (setBitTo w 16 true) 5 0 = w % 64 ∧ bitsOf (setBitTo w 16 true) 7 6 = w / 64 % 4 ∧ bitsOf (setBitTo w 16 true) 15 8 = w / 256 % 256
      ∧ bitOf (setBitTo w 16 true) 16 = true := by
  obtain ⟨hlow, hbit⟩ := setBitTo_16 w
  refine ⟨?_, ?_, ?_, hbit⟩ <;> simp only [bitsOf] <;> omega

/-- The code that arming an injection answers with. -/
def armResult (c b n : Nat) : Nat := if s.rd .FLT_INJ_BUSY 0 ≠ 0 then 2 else if b = 0 ∨ n = 0 then 0 else if injMax c < b then 3 else 0

/-- The fields of FLT_INJ that a write stores whatever it answers; a reserved checker is kept out (R6). -/
def injStored (c b n : Nat) : State := ((if c < 31 then s.wr .FLT_INJ_CHECKER 0 c else s).wr .FLT_INJ_BITS 0 b).wr .FLT_INJ_COUNT 0 n

theorem injStored_rd {c b n : Nat} (hc : c < 2 ^ 6) (hb : b < 2 ^ 2) (hn : n < 2 ^ 8) :
    (injStored s c b n).rd .FLT_INJ_CHECKER 0 = (if c < 31 then c else s.rd .FLT_INJ_CHECKER 0) ∧ (injStored s c b n).rd .FLT_INJ_BITS 0 = b
      ∧ (injStored s c b n).rd .FLT_INJ_COUNT 0 = n := by
  have w1 : Fld.FLT_INJ_CHECKER.width = 6 := rfl
  have w2 : Fld.FLT_INJ_BITS.width = 2 := rfl
  have w3 : Fld.FLT_INJ_COUNT.width = 8 := rfl
  refine ⟨?_, ?_, ?_⟩
  · by_cases h : c < 31 <;> simp [injStored, State.rd_wr, h, w1] ; omega
  · simpa [injStored, State.rd_wr, w2] using hb
  · simpa [injStored, w3] using hn

theorem injStored_rd_ne (c b n : Nat) {f : Fld} (i : Nat) (hf : f ∉ ([.FLT_INJ_CHECKER, .FLT_INJ_BITS, .FLT_INJ_COUNT] : List Fld)) :
    (injStored s c b n).rd f i = s.rd f i := by
  simp only [List.mem_cons, List.not_mem_nil, or_false, not_or] at hf
  obtain ⟨h1, h2, h3⟩ := hf
  unfold injStored
  split <;> simp [State.rd_wr, h1, h2, h3]

theorem injStored_memSame (c b n : Nat) : s.memSame (injStored s c b n) := by
  unfold injStored
  split <;> exact memSame_refl s

/-- What an accepted write of FLT_INJ arms. -/
def injArmed (c b n : Nat) : State := (((s.wr .X_INJ_CHECKER 0 c).wr .X_INJ_BITS 0 b).wr .X_INJ_LEFT 0 n).set .FLT_INJ_BUSY 0

theorem injArmed_rd {c b n : Nat} (hc : c < 2 ^ 6) (hb : b < 2 ^ 2) (hn : n < 2 ^ 8) :
    (injArmed s c b n).rd .FLT_INJ_BUSY 0 = 1 ∧ (injArmed s c b n).rd .X_INJ_CHECKER 0 = c ∧ (injArmed s c b n).rd .X_INJ_BITS 0 = b
      ∧ (injArmed s c b n).rd .X_INJ_LEFT 0 = n := by
  have w1 : Fld.FLT_INJ_BUSY.width = 1 := rfl
  have w2 : Fld.X_INJ_CHECKER.width = 6 := rfl
  have w3 : Fld.X_INJ_BITS.width = 2 := rfl
  have w4 : Fld.X_INJ_LEFT.width = 8 := rfl
  refine ⟨?_, ?_, ?_, ?_⟩
  · simp [injArmed, State.set, w1]
  · simpa [injArmed, State.set, State.rd_wr, w2] using hc
  · simpa [injArmed, State.set, State.rd_wr, w3] using hb
  · simpa [injArmed, State.set, State.rd_wr, w4] using hn

theorem injArmed_rd_ne (c b n : Nat) {f : Fld} (i : Nat) (hf : f ∉ ([.X_INJ_CHECKER, .X_INJ_BITS, .X_INJ_LEFT, .FLT_INJ_BUSY] : List Fld)) :
    (injArmed s c b n).rd f i = s.rd f i := by
  simp only [List.mem_cons, List.not_mem_nil, or_false, not_or] at hf
  obtain ⟨h1, h2, h3, h4⟩ := hf
  simp [injArmed, State.set, State.rd_wr, h1, h2, h3, h4]

/-- A write of FLT_INJ with ARM stores its fields, arms them or not, and answers. -/
theorem fltInjSet_arm (w : Nat) :
    let c := w % 64
    let b := w / 64 % 4
    let n := w / 256 % 256
    let arms := s.rd .FLT_INJ_BUSY 0 = 0 ∧ b ≠ 0 ∧ n ≠ 0 ∧ b ≤ injMax c
    fltInjSet s (setBitTo w 16 true) = (if arms then injArmed (injStored s c b n) c b n else injStored s c b n).wr .FLT_INJ_RESULT 0 (armResult s c b n) := by
  intro c b n arms
  obtain ⟨hc, hb, hn, hgo⟩ := injWord w
  have hbusy : (injStored s c b n).rd .FLT_INJ_BUSY 0 = s.rd .FLT_INJ_BUSY 0 := injStored_rd_ne s c b n 0 (by decide)
  have hset : fltInjSet s (setBitTo w 16 true)
      = if (injStored s c b n).on .FLT_INJ_BUSY 0 then (injStored s c b n).wr .FLT_INJ_RESULT 0 2
        else if b = 0 ∨ n = 0 then (injStored s c b n).wr .FLT_INJ_RESULT 0 0
        else if injMax c < b then (injStored s c b n).wr .FLT_INJ_RESULT 0 3
        else (injArmed (injStored s c b n) c b n).wr .FLT_INJ_RESULT 0 0 := by
    simp only [fltInjSet, hc, hb, hn, hgo]
    rfl
  rw [hset, State.on, hbusy, armResult]
  by_cases h1 : s.rd .FLT_INJ_BUSY 0 = 0
  · by_cases h2 : b = 0 ∨ n = 0
    · rcases h2 with h2 | h2 <;> simp [arms, h1, h2]
    · obtain ⟨hb0, hn0⟩ := not_or.mp h2
      by_cases h3 : injMax c < b
      · simp [arms, h1, hb0, hn0, h3, Nat.not_le.mpr h3]
      · simp [arms, h1, hb0, hn0, h3, Nat.not_lt.mp h3]
  · simp [arms, h1]

theorem fltInjArm_spec (r : Route) (v : DW) (h : s.takes r 0x100040) :
    let c := v.toNat % 64
    let b := v.toNat / 64 % 4
    let n := v.toNat / 256 % 256
    let arms := s.rd .FLT_INJ_BUSY 0 = 0 ∧ b ≠ 0 ∧ n ≠ 0 ∧ b ≤ injMax c
    Does s (exec (.fltInjArm r v) s)
      [.FLT_INJ_CHECKER, .FLT_INJ_BITS, .FLT_INJ_COUNT, .FLT_INJ_RESULT, .FLT_INJ_BUSY, .X_INJ_CHECKER, .X_INJ_BITS, .X_INJ_LEFT] fun u =>
      u.rd .FLT_INJ_CHECKER 0 = (if c < 31 then c else s.rd .FLT_INJ_CHECKER 0) ∧ u.rd .FLT_INJ_BITS 0 = b ∧ u.rd .FLT_INJ_COUNT 0 = n
        ∧ u.rd .FLT_INJ_RESULT 0 = armResult s c b n
        ∧ (arms → u.rd .FLT_INJ_BUSY 0 = 1 ∧ u.rd .X_INJ_CHECKER 0 = c ∧ u.rd .X_INJ_BITS 0 = b ∧ u.rd .X_INJ_LEFT 0 = n)
        ∧ (¬arms → u.rd .FLT_INJ_BUSY 0 = s.rd .FLT_INJ_BUSY 0 ∧ u.rd .X_INJ_LEFT 0 = s.rd .X_INJ_LEFT 0) := by
  intro c b n arms
  have lc : c < 2 ^ 6 := Nat.mod_lt _ (by decide)
  have lb : b < 2 ^ 2 := Nat.mod_lt _ (by decide)
  have ln : n < 2 ^ 8 := Nat.mod_lt _ (by decide)
  obtain ⟨hchk, hbits, hcnt⟩ := injStored_rd s.start lc lb ln
  have hres : armResult s c b n % 2 ^ Fld.FLT_INJ_RESULT.width = armResult s c b n := by
    unfold armResult; split_ifs <;> rfl
  have hset := fltInjSet_arm s.start v.toNat
  refine ⟨fltInjSet s.start (setBitTo v.toNat 16 true), live_gate s r _ _ h, ?_, fldsBut_of (fltInjSet_k (by decide) (keepsR_refl s _)), ?_⟩
  · by_cases ha : arms
    · have he : fltInjSet s.start (setBitTo v.toNat 16 true) = (injArmed (injStored s.start c b n) c b n).wr .FLT_INJ_RESULT 0 (armResult s c b n) :=
        hset.trans (congrArg (fun u : State => u.wr .FLT_INJ_RESULT 0 (armResult s c b n)) (if_pos ha))
      rw [he]
      obtain ⟨hbusy, hx, hxb, hxl⟩ := injArmed_rd (injStored s.start c b n) lc lb ln
      simp [State.rd_wr, injArmed_rd_ne, hchk, hbits, hcnt, hres, hbusy, hx, hxb, hxl, ha]
    · have he : fltInjSet s.start (setBitTo v.toNat 16 true) = (injStored s.start c b n).wr .FLT_INJ_RESULT 0 (armResult s c b n) :=
        hset.trans (congrArg (fun u : State => u.wr .FLT_INJ_RESULT 0 (armResult s c b n)) (if_neg ha))
      rw [he]
      simp [State.rd_wr, injStored_rd_ne, hchk, hbits, hcnt, hres, ha]
  · have hm : s.memSame (injStored s.start c b n) := injStored_memSame s.start c b n
    rw [hset]
    split <;> exact hm

/-- Settles O59: a clause for each register, by its own lemma. That arming with BITS or COUNT 0 answers 0, of a reserved checker too, and that the first persistent cause that
matches sends its message again, is log entry 43's choice. -/
theorem faultRegisters : Obligations.FaultRegisters := by
  intro s r i v irqen src w first sev c b n result arms
  refine ⟨statusClear_spec s r i v, fun h k m hv hb hm ha hc hq => ?_, firstFaultClear_spec s r, faultnClr_spec s r irqen, fltSevWrite_spec s r src v, fltInjArm_spec s r v⟩
  rw [hv]
  exact statusClear_resends s r i k m h hb hm ha hc hq

end Sys2Proof.Machine
end

section
/-! What accesses to the towers leave alone (R397 to R427, R448 to R451): all memories but the words of the towers, what was sent, and the waiting accesses; of the registers, all
but those of errors and messages. -/
namespace Sys2Proof.Machine

variable (s : State)

/-- What no access to the towers touches: memories, what was sent, waiting accesses, lost slabs. -/
def State.apart (s : State) : List (Nat × Word) × List (Nat × Word) × List (Nat × Byte) × List (Nat × Byte) × List Out × List B2Acc × List (Nat × Nat) :=
  (s.imem, s.dmem, s.nvm, s.win, s.out, s.b2, s.lost)

theorem apart_iff {s t : State} : t.apart = s.apart ↔
    t.imem = s.imem ∧ t.dmem = s.dmem ∧ t.nvm = s.nvm ∧ t.win = s.win ∧ t.out = s.out ∧ t.b2 = s.b2 ∧ t.lost = s.lost := by
  simp [State.apart]

theorem chipSame_of_apart {s t : State} (h : t.apart = s.apart) : s.chipSame t := by
  obtain ⟨himem, hdmem, hnvm, hwin, -, -, -⟩ := apart_iff.mp h
  simp [State.chipSame, State.getI, State.getD, State.getNvm, State.getWin, himem, hdmem, hnvm, hwin]

@[simp] theorem State.wr_apart (f : Fld) (i v : Nat) : (s.wr f i v).apart = s.apart := (rfl)
@[simp] theorem State.set_apart (f : Fld) (i : Nat) : (s.set f i).apart = s.apart := (rfl)
@[simp] theorem State.wrB_apart (f : Fld) (i : Nat) (b : Bool) : (s.wrB f i b).apart = s.apart := (rfl)
@[simp] theorem State.incSat_apart (f : Fld) (i n : Nat) : (s.incSat f i n).apart = s.apart := (rfl)
@[simp] theorem State.incWrap_apart (f : Fld) (i n : Nat) : (s.incWrap f i n).apart = s.apart := (rfl)
@[simp] theorem State.setT_apart (A : Nat) (c : Code) : (s.setT A c).apart = s.apart := (rfl)
@[simp] theorem State.logRecount_apart (t : Nat) : (s.logRecount t).apart = s.apart := (rfl)
@[simp] theorem State.bursts_apart (l : List Nat) : ({ s with bursts := l } : State).apart = s.apart := (rfl)
@[simp] theorem State.raise_apart (a b c : Nat) : (s.raise a b c).apart = s.apart := by simp [State.apart]

@[simp] theorem State.touch_apart (A : Nat) (w : Bool) : (s.touch A w).apart = s.apart := by
  unfold State.touch
  dsimp only
  split <;> rfl

@[simp] theorem State.queueSoft_apart (k : RowKey) : (s.queueSoft k).apart = s.apart := by
  unfold State.queueSoft
  split <;> rfl

@[simp] theorem logErr_apart (A kind src syn : Nat) : (logErr s A kind src syn).apart = s.apart := by
  unfold logErr
  dsimp only
  split <;> simp

@[simp] theorem countCe_apart (A src kind syn : Nat) : (countCe s A src kind syn).apart = s.apart := by
  unfold countCe
  dsimp only
  split_ifs <;> simp

@[simp] theorem countUe_apart (A src : Nat) (c : Code) : (countUe s A src c).apart = s.apart := by
  simp [countUe]

@[simp] theorem readWord_apart (src A : Nat) : (readWord s src A).2.apart = s.apart := by
  unfold readWord
  dsimp only
  split
  · simp
  · simp
  · dsimp only
    split <;> simp
  · simp

/-- A property of the state that each read of a run keeps holds after the run. -/
theorem foldl_reads {α β ι : Type} (P : State → Prop) (a : α × β × State → ι → α) (b : α × β × State → ι → β) (r : α × β × State → ι → State)
    (h : ∀ acc i, P acc.2.2 → P (r acc i)) (l : List ι) (x : α × β × State) (hx : P x.2.2) :
    P (l.foldl (fun acc i => (a acc i, b acc i, r acc i)) x).2.2 :=
  List.foldlRecOn (motive := fun acc : α × β × State => P acc.2.2) l _ hx fun acc hacc i _ => h acc i hacc

/-- What every read of a word keeps, a read of bytes keeps. -/
theorem readBytes_keeps (P : State → Prop) (hw : ∀ s src A, P s → P (readWord s src A).2) (src A n : Nat) (h : P s) : P (readBytes s src A n).2.2 :=
  foldl_reads P _ _ _ (fun _ _ h => hw _ _ _ h) _ _ h

/-- What every read of bytes keeps, a read of a punnet keeps. -/
theorem punRead_keeps (P : State → Prop) (hb : ∀ s src A n, P s → P (readBytes s src A n).2.2) (src k at_ n : Nat) (plain : Bool) (h : P s) :
    P (punRead s src k at_ n plain).2.2 := by
  unfold punRead
  dsimp only
  split
  · exact hb _ _ _ _ h
  · exact foldl_reads P _ _ _ (fun _ _ h => hb _ _ _ _ h) _ _ h

/-- What every read of a word keeps, a readout keeps once the bytes are charged. -/
theorem readOut_keeps (P : State → Prop) (hw : ∀ s src A, P s → P (readWord s src A).2) (A n : Nat) (h : P (readCharge s (towerOf A) n)) :
    P (readOut s A n).2.2.2 := by
  have hb := fun s src A n h => readBytes_keeps s P hw src A n h
  unfold readOut
  dsimp only
  split
  · exact punRead_keeps _ P hb _ _ _ _ _ h
  · exact hb _ _ _ _ h

@[simp] theorem readCharge_apart (t n : Nat) : (readCharge s t n).apart = s.apart := by
  unfold readCharge
  split <;> rfl

@[simp] theorem readOut_apart (A n : Nat) : (readOut s A n).2.2.2.apart = s.apart :=
  readOut_keeps s (fun u => u.apart = s.apart) (fun u _ _ h => (readWord_apart u _ _).trans h) A n (readCharge_apart s _ n)

@[simp] theorem writeWord_apart (A : Nat) (v : Word) : (writeWord s A v).apart = s.apart := by
  simp [writeWord]

@[simp] theorem writePart_apart (src A : Nat) (new : List Byte) (en : List Bool) : (writePart s src A new en).apart = s.apart := by
  simp [writePart]

@[simp] theorem b2Store_apart (A : Nat) (l : List Byte) (en : List Bool) : (b2Store s A l en).apart = s.apart := by
  refine List.foldlRecOn (motive := fun u : State => u.apart = s.apart) _ _ rfl fun u h i _ => ?_
  dsimp only
  split_ifs <;> simp [h]

/-! Registers. -/

variable {fl : List Fld} {s₀ : State}

/-- Of the registers, a readout moves the bytes charged and, after that, those of errors and messages. -/
theorem readOut_charged (A n : Nat) : KeepsR (readCharge s (towerOf A) n) (readOut s A n).2.2.2.regs eccFlds :=
  readOut_keeps s (fun u => KeepsR (readCharge s (towerOf A) n) u.regs eccFlds) (fun _ _ _ h => readWord_k (by decide) h) A n (keepsR_refl _ _)

theorem readOut_k {s : State} {A n : Nat} (hfl : .X_RD_BYTES :: eccFlds ⊆ fl) (hk : KeepsR s₀ s.regs fl) : KeepsR s₀ (readOut s A n).2.2.2.regs fl := by
  obtain ⟨hrd, hecc⟩ := List.cons_subset.mp hfl
  have hc : KeepsR s₀ (readCharge s (towerOf A) n).regs fl := readCharge_k (by simpa using hrd) hk
  exact fun f i hf => (readOut_charged s A n f i fun h => hf (hecc h)).trans (hc f i hf)

/-! Words of the towers. -/

theorem getT_congr {s t : State} (ht : t.tower = s.tower) (hl : t.lost = s.lost) (B : Nat) : t.getT B = s.getT B := by
  simp [State.getT, State.towerDflt, ht, hl]

theorem getT_setT_ne {A B : Nat} (c : Code) (h : B / 8 ≠ A / 8) : (s.setT A c).getT B = s.getT B :=
  nget_nset_ne _ _ _ _ h

@[simp] theorem set_tower (f : Fld) (i : Nat) : (s.set f i).tower = s.tower := (rfl)
@[simp] theorem wrB_tower (f : Fld) (i : Nat) (b : Bool) : (s.wrB f i b).tower = s.tower := (rfl)
@[simp] theorem incWrap_tower (f : Fld) (i n : Nat) : (s.incWrap f i n).tower = s.tower := (rfl)
@[simp] theorem logRecount_tower (t : Nat) : (s.logRecount t).tower = s.tower := (rfl)
@[simp] theorem incSat_tower (f : Fld) (i n : Nat) : (s.incSat f i n).tower = s.tower := (rfl)

theorem getT_bursts (l : List Nat) (B : Nat) : ({ s with bursts := l } : State).getT B = s.getT B := (rfl)

@[simp] theorem touch_tower (A : Nat) (w : Bool) : (s.touch A w).tower = s.tower := by
  unfold State.touch
  dsimp only
  split <;> rfl

@[simp] theorem queueSoft_tower (k : RowKey) : (s.queueSoft k).tower = s.tower := by
  unfold State.queueSoft
  split <;> rfl

@[simp] theorem logErr_tower (A kind src syn : Nat) : (logErr s A kind src syn).tower = s.tower := by
  unfold logErr
  dsimp only
  split <;> simp

@[simp] theorem countCe_tower (A src kind syn : Nat) : (countCe s A src kind syn).tower = s.tower := by
  unfold countCe
  dsimp only
  simp [apply_ite State.tower]

theorem lost_of_apart {s t : State} (h : t.apart = s.apart) : t.lost = s.lost := (apart_iff.mp h).2.2.2.2.2.2

theorem getT_touch (A B : Nat) (w : Bool) : (s.touch A w).getT B = s.getT B :=
  getT_congr (touch_tower s A w) (lost_of_apart (State.touch_apart s A w)) B

theorem getT_countUe_ne {A B : Nat} (src : Nat) (c : Code) (h : B / 8 ≠ A / 8) : (countUe s A src c).getT B = s.getT B := by
  have e : (countUe s A src c).tower = ((s.touch A true).setT A (encodeWord (codeData c) (codeU c) true)).tower := by
    simp [countUe]
  have hl : (countUe s A src c).lost = ((s.touch A true).setT A (encodeWord (codeData c) (codeU c) true)).lost :=
    lost_of_apart (by simp)
  rw [getT_congr e hl, getT_setT_ne _ _ h, getT_touch]

theorem getT_countCe (A B src kind syn : Nat) : (countCe s A src kind syn).getT B = s.getT B :=
  getT_congr (countCe_tower s A src kind syn) (lost_of_apart (countCe_apart s A src kind syn)) B

theorem getT_readWord_ne {A B : Nat} (src : Nat) (h : B / 8 ≠ A / 8) : (readWord s src A).2.getT B = s.getT B := by
  unfold readWord
  dsimp only
  split
  · rw [getT_touch]
  · rw [getT_countCe, getT_touch]
  · dsimp only
    split
    · rw [getT_countCe, getT_touch]
    · rw [getT_bursts, getT_countCe, getT_touch]
  · rw [getT_countUe_ne _ _ _ h, getT_touch]

theorem getT_writeWord_ne {A B : Nat} (v : Word) (h : B / 8 ≠ A / 8) : (writeWord s A v).getT B = s.getT B :=
  (getT_setT_ne _ _ h).trans (getT_touch s A B true)

theorem getT_writePart_ne {A B : Nat} (src : Nat) (new : List Byte) (en : List Bool) (h : B / 8 ≠ A / 8) : (writePart s src A new en).getT B = s.getT B :=
  (getT_setT_ne _ _ h).trans ((getT_touch _ A B true).trans (getT_readWord_ne s src h))

/-- A BAR2 write leaves the words that hold none of its bytes (R403, R404). -/
theorem getT_b2Store {A B : Nat} (l : List Byte) (en : List Bool) (h : ¬(A / 8 ≤ B / 8 ∧ B / 8 ≤ (A + l.length - 1) / 8)) :
    (b2Store s A l en).getT B = s.getT B := by
  refine List.foldlRecOn (motive := fun u : State => u.getT B = s.getT B) _ _ rfl fun u hu i hi => ?_
  have hlen : i < (A % 8 + l.length + 7) / 8 := by simpa using hi
  have hB : B / 8 ≠ 8 * (A / 8 + i) / 8 := by omega
  dsimp only
  split_ifs
  · exact (getT_writeWord_ne u _ hB).trans hu
  · exact (getT_writePart_ne u _ _ _ hB).trans hu
  · exact hu

/-- A change that a command's start does not affect may come before it. -/
theorem each_start {α : Type} (l : List α) (f : State → α → State) (h : ∀ s a, f s.start a = (f s a).start) : s.start.each l f = (s.each l f).start := by
  induction l generalizing s with
  | nil => rfl
  | cons a r ih => exact (congrArg (fun u : State => u.each r f) (h s a)).trans (ih (f s a))

theorem touch_start (A : Nat) (w : Bool) : s.start.touch A w = (s.touch A w).start := by
  unfold State.touch
  dsimp only
  rw [apply_ite State.start]
  rfl

theorem writeWords_start (A : Nat) (l : List Byte) : writeWords s.start A l = (writeWords s A l).start :=
  each_start s _ _ fun u i => by rw [writeWord, touch_start]; rfl

/-- A BAR2 write of whole words, all bytes enabled, writes them (R403). -/
theorem b2Store_whole {A : Nat} {l : List Byte} {en : List Bool} (hA : A % 8 = 0) (hl : l.length % 8 = 0) (hen : ∀ i < l.length, en.getD i false = true) :
    b2Store s A l en = writeWords s A l := by
  unfold b2Store writeWords
  simp only [hA, List.replicate_zero, List.nil_append]
  refine List.foldl_ext _ _ _ fun u i hi => ?_
  have hi : i < (l.length + 7) / 8 := by simpa using hi
  have hall : ((List.range 8).map fun j => en.getD (8 * i + j) false).all id = true := by
    simp only [List.all_map, List.all_eq_true, List.mem_range]
    exact fun j hj => hen _ (by omega)
  have ha : 8 * (A / 8 + i) = A + 8 * i := by omega
  rw [if_pos hall, ha]

end Sys2Proof.Machine
end

section
/-! The memories that the press leaves alone, and the registers that it moves, function by function (R14 to R19, R359 to R384). -/
namespace Sys2Proof.Machine
variable (s : State)

/-- The memories that neither the press nor an access to the towers touches. -/
def State.core (s : State) : List (Nat × Word) × List (Nat × Word) × List (Nat × Byte) := (s.imem, s.dmem, s.nvm)

@[simp] theorem State.wr_core (f : Fld) (i v : Nat) : (s.wr f i v).core = s.core := (rfl)
@[simp] theorem State.set_core (f : Fld) (i : Nat) : (s.set f i).core = s.core := (rfl)
@[simp] theorem State.clr_core (f : Fld) (i : Nat) : (s.clr f i).core = s.core := (rfl)
@[simp] theorem State.wrB_core (f : Fld) (i : Nat) (b : Bool) : (s.wrB f i b).core = s.core := (rfl)
@[simp] theorem State.incSat_core (f : Fld) (i n : Nat) : (s.incSat f i n).core = s.core := (rfl)
@[simp] theorem State.incWrap_core (f : Fld) (i n : Nat) : (s.incWrap f i n).core = s.core := (rfl)
@[simp] theorem State.punLens_core (l : List (Nat × List Nat)) : ({ s with punLens := l } : State).core = s.core := (rfl)
@[simp] theorem State.emit_core (o : Out) : (s.emit o).core = s.core := (rfl)
@[simp] theorem State.setStaged_core (t : Nat) (l : List Staged) : (s.setStaged t l).core = s.core := (rfl)
@[simp] theorem State.setCarry_core (t : Nat) (v : Int) : (s.setCarry t v).core = s.core := (rfl)
@[simp] theorem State.setStrm_core (p : Nat) (v : StrmSt) : (s.setStrm p v).core = s.core := (rfl)
@[simp] theorem State.setEnc_core (i : Nat) (e : Option EncUnit) : (s.setEnc i e).core = s.core := (rfl)
@[simp] theorem State.setT_core (A : Nat) (c : Code) : (s.setT A c).core = s.core := (rfl)
@[simp] theorem State.setWin_core (a : Nat) (v : Byte) : (s.setWin a v).core = s.core := (rfl)
@[simp] theorem State.raise_core (a b c : Nat) : (s.raise a b c).core = s.core := by simp [State.core]
@[simp] theorem State.msix_core (v : Nat) : (s.msix v).core = s.core := by simp [State.core]

/-- A repeated change whose every step leaves the memories leaves them. -/
theorem State.each_core {α : Type} (l : List α) (f : State → α → State) (h : ∀ s a, (f s a).core = s.core) : (s.each l f).core = s.core :=
  List.foldlRecOn (motive := fun u => u.core = s.core) l f rfl fun u hu a _ => (h u a).trans hu

/-! Path stops and restarts. -/

@[simp] theorem rxRoles_core (x : Nat) (pam : Bool) : (rxRoles s x pam).core = s.core := by
  unfold rxRoles
  dsimp only
  split
  · rfl
  · exact s.each_core _ _ fun _ _ => rfl

@[simp] theorem refreshPort_core (r : Nat) : (refreshPort s r).core = s.core := by
  unfold refreshPort
  dsimp only
  simp [apply_ite State.core]

@[simp] theorem refreshPath_core (p : Nat) : (refreshPath s p).core = s.core := by
  unfold refreshPath
  split
  · exact refreshPort_core s _
  · exact s.each_core _ _ fun s q => refreshPort_core s _

@[simp] theorem dlyEmpty_core (p : Nat) : (dlyEmpty s p).core = s.core := (rfl)

@[simp] theorem restartPath_core (p : Nat) : (restartPath s p).core = s.core := by
  unfold restartPath
  dsimp only
  split <;> simp

@[simp] theorem stageRecs_core (p : Nat) (exempt unit : Bool) (recs : List Rec) : (stageRecs s p exempt unit recs).core = s.core := by
  unfold stageRecs
  dsimp only
  split_ifs <;> rfl

@[simp] theorem eventRec_core (p kind pos : Nat) (bytes : List Byte) : (eventRec s p kind pos bytes).core = s.core := by
  unfold eventRec
  split <;> simp

@[simp] theorem stopPath_core (p : Nat) : (stopPath s p).core = s.core := by
  simp [stopPath, pathEventNext, pathEvent]

@[simp] theorem restartPaths_core (t : Nat) (l : List Nat) : (restartPaths t l s).core = s.core := by
  induction l generalizing s with
  | nil => rfl
  | cons p r ih =>
    unfold restartPaths
    split
    · rw [ih, restartPath_core]
    · rfl

@[simp] theorem stopPaths_core (t : Nat) (l : List Nat) : (stopPaths t l s).core = s.core := by
  induction l generalizing s with
  | nil => rfl
  | cons p r ih =>
    unfold stopPaths
    split
    · rfl
    · rw [ih, stopPath_core]

/-! Punnets. -/

@[simp] theorem touch_core (A : Nat) (w : Bool) : (s.touch A w).core = s.core := by
  unfold State.touch
  dsimp only
  split <;> rfl

@[simp] theorem writeWords_core (A : Nat) (l : List Byte) : (writeWords s A l).core = s.core :=
  s.each_core _ _ fun s _ => touch_core s _ _

@[simp] theorem encWrite_core (k : Nat) (e : EncUnit) : (encWrite s k e).core = s.core := by
  unfold encWrite
  split <;> simp

@[simp] theorem encAdd_core (k area unit inOfs : Nat) (l : List Byte) : (encAdd s k area unit inOfs l).core = s.core := by
  unfold encAdd
  dsimp only
  split_ifs <;> simp

@[simp] theorem punStore_core (k area at_ : Nat) (l : List Byte) : (punStore s k area at_ l).core = s.core := by
  unfold punStore
  dsimp only
  split_ifs <;> simp

@[simp] theorem punStoreRing_core (k ofs : Nat) (l : List Byte) : (punStoreRing s k ofs l).core = s.core := by
  unfold punStoreRing
  dsimp only
  split <;> simp

@[simp] theorem punKeep_core (k size : Nat) (lens : List Nat) : (punKeep s k size lens).core = s.core := (rfl)
@[simp] theorem punTail_core (k n : Nat) : (punTail s k n).core = s.core := (rfl)

@[simp] theorem encFlush_core (k : Nat) : (encFlush s k).core = s.core := by
  refine s.each_core _ _ fun s i => ?_
  split
  · dsimp only
    split <;> simp
  · rfl

@[simp] theorem punStop_core (k : Nat) : (punStop s k).core = s.core := by
  unfold punStop
  dsimp only
  split <;> simp

@[simp] theorem punAdvance_core (k n : Nat) : (punAdvance s k n).core = s.core := by
  unfold punAdvance
  dsimp only
  split
  · split <;> simp
  · split
    · split <;> simp
    · rfl

@[simp] theorem punIndexPut_core (k ofs epoch : Nat) (epv : Bool) : (punIndexPut s k ofs epoch epv).core = s.core := by
  unfold punIndexPut
  dsimp only
  split <;> simp

@[simp] theorem punPut_core (k : Nat) (l : List Byte) (epoch : Nat) (epv : Bool) : (punPut s k l epoch epv).core = s.core := by
  unfold punPut
  dsimp only
  split_ifs <;> simp

/-! Admission. -/

@[simp] theorem closeRun_core (p : Nat) : (closeRun s p).core = s.core := by
  unfold closeRun
  dsimp only
  split <;> simp

@[simp] theorem takeSeq_core (p : Nat) (r : Rec) : (takeSeq s p r).2.core = s.core := by
  unfold takeSeq
  dsimp only
  split <;> simp

@[simp] theorem putRec_core (k p : Nat) (r : Rec) : (putRec k p s r).core = s.core := by
  simp [putRec]

@[simp] theorem putGap_core (t k p : Nat) (r : Rec) : (putGap s t k p r).core = s.core := by
  simp [putGap]

@[simp] theorem dropRec_core (t p : Nat) (r : Rec) : (dropRec t p s r).core = s.core := by
  unfold dropRec
  dsimp only
  split
  · simp
  · split
    · split
      · rw [State.setStrm_core]
        split <;> simp [apply_ite State.core]
      · split <;> simp [apply_ite State.core]
    · split <;> simp [apply_ite State.core]

@[simp] theorem putAll_core (k p : Nat) (l : List Rec) : (putAll k p l s).2.core = s.core := by
  induction l generalizing s with
  | nil => rfl
  | cons r l ih =>
    unfold putAll
    split_ifs
    · rfl
    · simp
    · simp [ih]

@[simp] theorem putUnit_core (t : Nat) (u : Staged) (gap : Bool) : (putUnit t s u gap).2.core = s.core := by
  unfold putUnit
  dsimp only
  split_ifs <;> simp

@[simp] theorem discardUnit_core (u : Staged) : (discardUnit s u).core = s.core := by
  unfold discardUnit
  split <;> rfl

@[simp] theorem admitOne_core (t : Nat) (a : Adm) (u : Staged) : (admitOne t a u).s.core = a.s.core := by
  have hdrop : (u.recs.foldl (dropRec t u.stream) a.s).core = a.s.core := a.s.each_core _ _ fun s r => dropRec_core s _ _ _
  unfold admitOne
  dsimp only
  rw [apply_ite Adm.s, apply_ite State.core]
  split
  · simp
  · rw [apply_ite Adm.s, apply_ite State.core, apply_ite Adm.s, apply_ite State.core]
    simp [hdrop, apply_ite State.core]

/-- Staged units are admitted one after another: what admitting each keeps of the state, admitting all keeps. -/
theorem admitAll_keeps (P : State → Prop) (t : Nat) (h : ∀ a u, P a.s → P (admitOne t a u).s) (a : Adm) (us : List Staged) (ha : P a.s) : P (admitAll t a us).s :=
  List.foldlRecOn (motive := fun a : Adm => P a.s) _ _ ha fun _ ha _ _ =>
    List.foldlRecOn (motive := fun a : Adm => P a.s) _ _ ha fun a ha u _ => h a u ha

@[simp] theorem admitAll_core (t : Nat) (a : Adm) (us : List Staged) : (admitAll t a us).s.core = a.s.core :=
  admitAll_keeps (fun u => u.core = a.s.core) t (fun b u h => (admitOne_core t b u).trans h) a us rfl

/-! Registers that the press moves. -/

/-- What storing, dropping and announcing records moves (R359 to R363, R378, R383, R384). -/
def pressFlds : List Fld := msgFlds ++ ([.PUN_HEAD_OFS, .PUN_RECS_COUNT, .PUN_STAT_WRAP, .PUN_TAIL_OFS, .PUN_STAT_STATE, .X_PUN_SINCE, .PUN_DISC_COUNT, .STRM_SEQ_SEQ,
  .STRM_LOSTB_COUNT, .STRM_LOSTR_COUNT, .PRS_DROPT_COUNT] : List Fld)

variable {fl : List Fld} {s₀ : State}

theorem of_pressFlds {l : List Fld} (hfl : pressFlds ⊆ fl) (h : l ⊆ pressFlds := by decide) : l ⊆ fl := List.Subset.trans h hfl

theorem punStore_k {s : State} {k area at_ : Nat} {l : List Byte} (hk : KeepsR s₀ s.regs fl) : KeepsR s₀ (punStore s k area at_ l).regs fl := by
  unfold punStore
  dsimp only
  split
  · exact ite_k (encAdd_k hk) (encAdd_k (encAdd_k hk))
  · exact writeWords_k hk

theorem punStoreRing_k {s : State} {k ofs : Nat} {l : List Byte} (hk : KeepsR s₀ s.regs fl) : KeepsR s₀ (punStoreRing s k ofs l).regs fl :=
  ite_k (punStore_k hk) (punStore_k (punStore_k hk))

theorem punIndexPut_k {s : State} {k ofs epoch : Nat} {epv : Bool} (hk : KeepsR s₀ s.regs fl) : KeepsR s₀ (punIndexPut s k ofs epoch epv).regs fl :=
  ite_k (punStore_k hk) hk

theorem punPut_k {s : State} {k : Nat} {l : List Byte} {epoch : Nat} {epv : Bool} (hfl : pressFlds ⊆ fl) (hk : KeepsR s₀ s.regs fl) :
    KeepsR s₀ (punPut s k l epoch epv).regs fl := by
  have hput : ∀ u : State, KeepsR s₀ u.regs fl → KeepsR s₀ ((punIndexPut u k (s.rd .PUN_HEAD_OFS k) epoch epv).incWrap .PUN_RECS_COUNT k 1).regs fl :=
    fun u hu => incWrap_k (hfl (by decide)) (punIndexPut_k hu)
  unfold punPut
  dsimp only
  split
  · have hring := hput (punTail (punStoreRing s k (s.rd .PUN_HEAD_OFS k) l) k l.length) (punTail_k (of_pressFlds hfl) (punStoreRing_k hk))
    exact ite_k (set_k (hfl (by decide)) (wr_k (hfl (by decide)) hring)) (wr_k (hfl (by decide)) hring)
  · exact wr_k (hfl (by decide)) (hput _ (punStore_k hk))

theorem putRec_k {s : State} {k p : Nat} {r : Rec} (hfl : pressFlds ⊆ fl) (hk : KeepsR s₀ s.regs fl) : KeepsR s₀ (putRec k p s r).regs fl :=
  punAdvance_k (of_pressFlds hfl) (punPut_k hfl (takeSeq_k (of_pressFlds hfl) hk))

theorem putGap_k {s : State} {t k p : Nat} {r : Rec} (hfl : pressFlds ⊆ fl) (hk : KeepsR s₀ s.regs fl) : KeepsR s₀ (putGap s t k p r).regs fl :=
  putRec_k hfl (setStrm_k hk)

theorem putAll_k {k p : Nat} {l : List Rec} {s : State} (hfl : pressFlds ⊆ fl) (hk : KeepsR s₀ s.regs fl) : KeepsR s₀ (putAll k p l s).2.regs fl := by
  induction l generalizing s with
  | nil => exact hk
  | cons r l ih => exact ite_k2 hk (ite_k2 (punStop_k (of_pressFlds hfl) hk) (ih (putRec_k hfl hk)))

theorem putUnit_k {t : Nat} {s : State} {u : Staged} {gap : Bool} (hfl : pressFlds ⊆ fl) (hk : KeepsR s₀ s.regs fl) : KeepsR s₀ (putUnit t s u gap).2.regs fl :=
  ite_k2 (putAll_k hfl hk) (ite_k2 (punStop_k (of_pressFlds hfl) hk) (putAll_k hfl (putGap_k hfl hk)))

theorem admitOne_k {t : Nat} {a : Adm} {u : Staged} (hfl : pressFlds ⊆ fl) (hk : KeepsR s₀ a.s.regs fl) : KeepsR s₀ (admitOne t a u).s.regs fl := by
  unfold admitOne
  dsimp only
  split
  · exact discardUnit_k (of_pressFlds hfl) hk
  · rw [apply_ite Adm.s, apply_ite Adm.s]
    exact ite_k (putUnit_k hfl hk) (ite_k (ite_k (putUnit_k hfl hk) (raise_k (of_pressFlds hfl) (putUnit_k hfl hk)))
      (foldl_k hk fun _ _ h => dropRec_k (of_pressFlds hfl) h))

theorem admitAll_k {t : Nat} {a : Adm} {us : List Staged} (hfl : pressFlds ⊆ fl) (hk : KeepsR s₀ a.s.regs fl) : KeepsR s₀ (admitAll t a us).s.regs fl :=
  admitAll_keeps (fun u => KeepsR s₀ u.regs fl) t (fun _ _ h => admitOne_k hfl h) a us hk

end Sys2Proof.Machine
end

section
/-! BAR2 (R448 to R451): an access arrives, is refused, waits, or is carried out. -/
namespace Sys2Proof.Machine

variable (s : State)

/-! One access. -/

theorem b2Serve_refuses {b : B2Acc} (h : s.twrRefuses (towerOf b.addr) = true) : b2Serve s b = some (b2Refuse s b) := by
  rw [b2Serve, if_pos h]

theorem b2Serve_waits {b : B2Acc} (h : s.twrRefuses (towerOf b.addr) = false) (hw : s.twrWaits b.addr b.len = true) : b2Serve s b = none := by
  rw [b2Serve, if_neg (by simp [h]), if_pos hw]

theorem b2Serve_noRoom {A n : Nat} (h : s.twrRefuses (towerOf A) = false) (hf : s.readFits (towerOf A) n = false) : b2Serve s ⟨A, n, none⟩ = none := by
  simp [b2Serve, h, hf]

theorem b2Serve_read {A n : Nat} (h : s.twrRefuses (towerOf A) = false) (hw : s.twrWaits A n = false) (hf : s.readFits (towerOf A) n = true) :
    b2Serve s ⟨A, n, none⟩ = some ((completions (readOut s A n).2.1 (readOut s A n).2.2.1 A (readOut s A n).1).foldl State.emit (readOut s A n).2.2.2) := by
  simp [b2Serve, h, hw, hf]

/-- The slab takes no host write: a punnet, a delay line or a clear holds it. -/
def State.slabHeld (s : State) (A : Nat) : Prop := (s.punAt (slabOf A)).isSome = true ∨ (s.dlrAt (slabOf A)).isSome = true ∨ s.clearing (slabOf A) = true

theorem b2Serve_held {A n : Nat} {d : List Byte × List Bool} (h : s.twrRefuses (towerOf A) = false) (hw : s.twrWaits A n = false) (hh : s.slabHeld A) :
    b2Serve s ⟨A, n, some d⟩ = some (xpNote s .XP_STAT_WRDISC msgREFUSE) := by
  have hh' : (s.punAt (slabOf A)).isSome || (s.dlrAt (slabOf A)).isSome || s.clearing (slabOf A) := by
    simpa [State.slabHeld, or_assoc] using hh
  simp only [b2Serve, h, hw, hh']
  rfl

theorem b2Serve_store {A n : Nat} {l : List Byte} {en : List Bool} (h : s.twrRefuses (towerOf A) = false) (hw : s.twrWaits A n = false) (hh : ¬s.slabHeld A) :
    b2Serve s ⟨A, n, some (l, en)⟩ = some (b2Store s A l en) := by
  have hh' : ((s.punAt (slabOf A)).isSome || (s.dlrAt (slabOf A)).isSome || s.clearing (slabOf A)) = false := by
    simpa [State.slabHeld, and_assoc] using hh
  simp only [b2Serve, h, hw, hh']
  rfl

/-! Arrival. -/

section
variable {x n A : Nat} {d : Option (List Byte × List Bool)}

theorem b2Arrive_empty : b2Arrive s x 0 d = s := by rw [b2Arrive, if_pos rfl]

theorem b2Arrive_unmapped (hn : n ≠ 0) (h : s.bar2Addr x = none) : b2Arrive s x n d = b2Refuse s ⟨x, n, d⟩ := by
  rw [b2Arrive, if_neg hn, h]

theorem b2Arrive_queued (hn : n ≠ 0) (h : s.bar2Addr x = some A) (hq : (s.b2.any fun c => towerOf c.addr == towerOf A) = true) :
    b2Arrive s x n d = { s with b2 := s.b2 ++ [⟨A, n, d⟩] } := by
  rw [b2Arrive, if_neg hn, h]
  exact if_pos hq

theorem b2Arrive_waits (hn : n ≠ 0) (h : s.bar2Addr x = some A) (hq : ¬(s.b2.any fun c => towerOf c.addr == towerOf A) = true)
    (hs : b2Serve s ⟨A, n, d⟩ = none) : b2Arrive s x n d = { s with b2 := s.b2 ++ [⟨A, n, d⟩] } := by
  rw [b2Arrive, if_neg hn, h]
  dsimp only
  rw [if_neg hq, hs]

theorem b2Arrive_served {t : State} (hn : n ≠ 0) (h : s.bar2Addr x = some A) (hq : ¬(s.b2.any fun c => towerOf c.addr == towerOf A) = true)
    (hs : b2Serve s ⟨A, n, d⟩ = some t) : b2Arrive s x n d = t := by
  rw [b2Arrive, if_neg hn, h]
  dsimp only
  rw [if_neg hq, hs]

end

/-- The port answers and the device is live. -/
def State.portUp (s : State) : Prop := s.dead = false ∧ s.portReady = true

/-- How many bytes a read asks for, and those that a write brings: none past the page (R448). -/
def b2Len (x : BitVec 36) (len : Nat) : Nat := min len (4096 - x.toNat % 4096)
def b2Bytes (x : BitVec 36) (bytes : List Byte) : List Byte := bytes.take (4096 - x.toNat % 4096)

theorem exec_bar2Read (x : BitVec 36) (len : Nat) (h : s.portUp) : exec (.bar2Read x len) s = .next (b2Arrive s.start x.toNat (b2Len x len) none) := by
  show execBar2Read x len s = _
  rw [execBar2Read, live_of s _ h.1, if_pos (show s.start.portReady = true from h.2)]
  rfl

theorem exec_bar2Write (x : BitVec 36) (bytes : List Byte) (en : List Bool) (h : s.portUp) :
    exec (.bar2Write x bytes en) s = .next (b2Arrive s.start x.toNat (b2Bytes x bytes).length (some (b2Bytes x bytes, en))) := by
  show execBar2Write x bytes en s = _
  rw [execBar2Write, live_of s _ h.1]
  exact congrArg Host.Outcome.next (if_pos (show s.start.portReady = true from h.2))

/-! What an arrival does. -/

/-- The port has refused or given up an access: its bit f stands, its message is sent, o has gone out and the accesses in q wait (R449, R450, R543). -/
def PortRefuses (s : State) (y : Host.Outcome State Fault Refusal) (f : Fld) (kind : Nat) (o : List Out) (q : List B2Acc) : Prop :=
  Does s y (f :: msgFlds) fun u => u.on f 0 = true ∧ u.out = o ∧ u.b2 = q ∧ s.sent u 1057 kind 0

theorem portRefuses_xpNote {u : State} {f : Fld} (kind : Nat) (hw : f.width = 1) (hf : f ∉ msgFlds) (hr : u.regs = s.regs) (hq : u.fq = s.fq) (hm : s.memSame u) :
    PortRefuses s (.next (xpNote u f kind)) f kind u.out u.b2 := by
  have hm' : s.memSame (xpNote u f kind) := by
    obtain ⟨hi, hd, ht, hn, hv⟩ := hm
    obtain ⟨hi', hd', ht', hn', hv'⟩ := raise_memSame (u.set f 0) 1057 kind 0
    exact ⟨fun g w => (hi' g w).trans (hi g w), fun g w => (hd' g w).trans (hd g w), ht'.trans ht, fun a => (hn' a).trans (hn a), fun a => (hv' a).trans (hv a)⟩
  have hk : KeepsR s u.regs (f :: msgFlds) := hr ▸ keepsR_refl s _
  refine ⟨_, rfl, ⟨?_, ?_, ?_, fun h => ?_⟩, fldsBut_of (raise_k (List.Subset.trans (by decide) (List.subset_cons_self _ _)) (set_k (by simp) hk)), hm'⟩
  · simp only [msgFlds, List.mem_cons, List.not_mem_nil, or_false, not_or] at hf
    obtain ⟨h1, h2, h3⟩ := hf
    rw [xpNote, State.on, State.rd_raise _ _ _ _ _ _ h1 h2 h3, State.set_def, State.rd_wr_same, hw]
    rfl
  · exact State.raise_out _ _ _ _
  · exact State.raise_b2 _ _ _ _
  · rw [xpNote, State.raise_fq (u.set f 0) _ _ _ (hq ▸ h)]
    exact congrArg (· ++ _) hq

/-- What the port sends for an access that it refuses: a read's abort. -/
def B2Acc.refusal (b : B2Acc) : List Out := if b.data.isNone then [.bar2Abort b.addr] else []

theorem portRefuses_b2Refuse (b : B2Acc) : PortRefuses s (.next (b2Refuse s.start b)) .XP_STAT_BADADDR msgREFUSE b.refusal s.b2 := by
  obtain ⟨A, n, d⟩ := b
  cases d with
  | none => exact portRefuses_xpNote s (u := s.start.emit (.bar2Abort A)) _ rfl (by decide) rfl rfl (memSame_refl s)
  | some d => exact portRefuses_xpNote s (u := s.start) _ rfl (by decide) rfl rfl (memSame_refl s)

/-- The access has joined those that wait, and nothing else has changed. -/
def Waits (s : State) (y : Host.Outcome State Fault Refusal) (b : B2Acc) : Prop := DoesAt s y [] fun u => u.b2 = s.b2 ++ [b] ∧ u.out = []

theorem waits_append (b : B2Acc) : Waits s (.next { s.start with b2 := s.b2 ++ [b] }) b :=
  ⟨_, rfl, ⟨rfl, rfl⟩, fun _ _ _ => rfl, memSame_refl s⟩

section
variable {x n A : Nat} {d : Option (List Byte × List Bool)}

theorem arrival_unmapped (hn : n ≠ 0) (h : s.bar2Addr x = none) :
    PortRefuses s (.next (b2Arrive s.start x n d)) .XP_STAT_BADADDR msgREFUSE (B2Acc.refusal ⟨x, n, d⟩) s.b2 := by
  rw [b2Arrive_unmapped s.start hn h]
  exact portRefuses_b2Refuse s _

theorem arrival_queued (hn : n ≠ 0) (h : s.bar2Addr x = some A) (hq : (s.b2.any fun c => towerOf c.addr == towerOf A) = true) :
    Waits s (.next (b2Arrive s.start x n d)) ⟨A, n, d⟩ := by
  rw [b2Arrive_queued s.start hn h hq]
  exact waits_append s _

theorem arrival_refused (hn : n ≠ 0) (h : s.bar2Addr x = some A) (hq : ¬(s.b2.any fun c => towerOf c.addr == towerOf A) = true)
    (hr : s.twrRefuses (towerOf A) = true) :
    PortRefuses s (.next (b2Arrive s.start x n d)) .XP_STAT_BADADDR msgREFUSE (B2Acc.refusal ⟨A, n, d⟩) s.b2 := by
  rw [b2Arrive_served s.start hn h hq (b2Serve_refuses s.start hr)]
  exact portRefuses_b2Refuse s _

theorem arrival_waits (hn : n ≠ 0) (h : s.bar2Addr x = some A) (hq : ¬(s.b2.any fun c => towerOf c.addr == towerOf A) = true)
    (hs : b2Serve s.start ⟨A, n, d⟩ = none) : Waits s (.next (b2Arrive s.start x n d)) ⟨A, n, d⟩ := by
  rw [b2Arrive_waits s.start hn h hq hs]
  exact waits_append s _

end

/-! Reads. -/

theorem foldl_emit (l : List Out) : l.foldl State.emit s = { s with out := s.out ++ l } := by
  induction l generalizing s with
  | nil => simp
  | cons o r ih => rw [List.foldl_cons, ih]; simp [State.emit]

/-- Reading takes from a tower's read room what it reads, while the press runs (R16, R17). -/
theorem rd_readOut_charge (A n : Nat) : (readOut s A n).2.2.2.rd .X_RD_BYTES (towerOf A)
    = if s.pressRuns then (s.rd .X_RD_BYTES (towerOf A) + n) % 2 ^ Fld.X_RD_BYTES.width else s.rd .X_RD_BYTES (towerOf A) := by
  have h : (readOut s A n).2.2.2.rd .X_RD_BYTES (towerOf A) = (readCharge s (towerOf A) n).rd .X_RD_BYTES (towerOf A) :=
    readOut_charged s A n .X_RD_BYTES (towerOf A) (by decide)
  rw [h, readCharge]
  split <;> simp

/-- What a state's registers and memories keep, it keeps when l has been sent from it. -/
theorem doesTower_emit {s u : State} {l : List Out} {fl : List Fld} {P : State → Prop} (hregs : s.fldsBut u fl) (hchip : s.chipSame u)
    (hP : P { u with out := u.out ++ l }) : DoesTower s (.next (l.foldl State.emit u)) fl P := by
  rw [foldl_emit]
  exact ⟨_, rfl, hP, hregs, hchip⟩

theorem arrival_read {x n A : Nat} (hn : n ≠ 0) (h : s.bar2Addr x = some A) (hq : ¬(s.b2.any fun c => towerOf c.addr == towerOf A) = true)
    (hr : s.twrRefuses (towerOf A) = false) (hw : s.twrWaits A n = false) (hf : s.readFits (towerOf A) n = true) :
    DoesTower s (.next (b2Arrive s.start x n none)) (.X_RD_BYTES :: eccFlds) fun u =>
      let r := readOut s.start A n
      u.out = completions r.2.1 r.2.2.1 A r.1 ∧ u.b2 = s.b2
        ∧ u.rd .X_RD_BYTES (towerOf A) = if s.pressRuns then (s.rd .X_RD_BYTES (towerOf A) + n) % 2 ^ Fld.X_RD_BYTES.width else s.rd .X_RD_BYTES (towerOf A) := by
  have hap := readOut_apart s.start A n
  have hchip : s.start.chipSame (readOut s.start A n).2.2.2 := chipSame_of_apart hap
  have hregs : KeepsR s.start (readOut s.start A n).2.2.2.regs (.X_RD_BYTES :: eccFlds) := readOut_k (List.Subset.refl _) (keepsR_refl s.start _)
  obtain ⟨-, -, -, -, hout, hb2, -⟩ := apart_iff.mp hap
  rw [b2Arrive_served s.start hn h hq (b2Serve_read s.start hr hw hf)]
  exact doesTower_emit (s := s) hregs hchip ⟨by rw [hout]; rfl, hb2, rd_readOut_charge s.start A n⟩

/-! Writes. -/

theorem arrival_held {x n A : Nat} {w : List Byte × List Bool} (hn : n ≠ 0) (h : s.bar2Addr x = some A) (hq : ¬(s.b2.any fun c => towerOf c.addr == towerOf A) = true)
    (hr : s.twrRefuses (towerOf A) = false) (hw : s.twrWaits A n = false) (hh : s.slabHeld A) :
    PortRefuses s (.next (b2Arrive s.start x n (some w))) .XP_STAT_WRDISC msgREFUSE [] s.b2 := by
  rw [b2Arrive_served s.start hn h hq (b2Serve_held s.start hr hw hh)]
  exact portRefuses_xpNote s (u := s.start) _ rfl (by decide) rfl rfl (memSame_refl s)

theorem arrival_store {x A : Nat} {l : List Byte} {en : List Bool} (hn : l.length ≠ 0) (h : s.bar2Addr x = some A)
    (hq : ¬(s.b2.any fun c => towerOf c.addr == towerOf A) = true)
    (hr : s.twrRefuses (towerOf A) = false) (hw : s.twrWaits A l.length = false) (hh : ¬s.slabHeld A) :
    DoesTower s (.next (b2Arrive s.start x l.length (some (l, en)))) eccFlds fun u => u.out = [] ∧ u.b2 = s.b2
      ∧ (A % 8 = 0 → l.length % 8 = 0 → (∀ i < l.length, en.getD i false = true) → u.tower = (writeWords s A l).tower)
      ∧ ∀ B, ¬(A / 8 ≤ B / 8 ∧ B / 8 ≤ (A + l.length - 1) / 8) → u.getT B = s.getT B := by
  rw [b2Arrive_served s.start hn h hq (b2Serve_store s.start hr hw hh)]
  have hap := b2Store_apart s.start A l en
  have hchip : s.start.chipSame (b2Store s.start A l en) := chipSame_of_apart hap
  obtain ⟨-, -, -, -, hout, hb2, -⟩ := apart_iff.mp hap
  have hregs : KeepsR s.start (b2Store s.start A l en).regs eccFlds := b2Store_k (by decide) (keepsR_refl s.start _)
  refine ⟨_, rfl, ⟨hout, hb2, fun hA hl hen => ?_, fun B hB => getT_b2Store s.start l en hB⟩, hregs, hchip⟩
  rw [b2Store_whole s.start hA hl hen, writeWords_start, State.start_tower]

/-! A read that has waited too long (R450). -/

theorem bar2Starve_aborts {b : B2Acc} (h : s.dead = false) (hb : s.b2.find? (fun b => b.data.isNone && !s.twrWaits b.addr b.len) = some b) :
    PortRefuses s (exec .bar2Starve s) .XP_STAT_STARVE msgTIMEOUT [.bar2Abort b.addr] (s.b2.erase b) := by
  have he : exec .bar2Starve s = .next (xpNote ({ s.start with b2 := s.b2.erase b }.emit (.bar2Abort b.addr)) .XP_STAT_STARVE msgTIMEOUT) := by
    show execBar2Starve s = _
    have hb' : s.start.b2.find? (fun b => b.data.isNone && !s.start.twrWaits b.addr b.len) = some b := hb
    rw [execBar2Starve, live_of s _ h, hb']
    rfl
  rw [he]
  exact portRefuses_xpNote s (u := { s.start with b2 := s.b2.erase b }.emit (.bar2Abort b.addr)) (f := .XP_STAT_STARVE) _ rfl (by decide) rfl rfl (memSame_refl s)

theorem bar2Starve_idle (h : s.dead = false) (hb : ∀ b ∈ s.b2, b.data.isSome = true ∨ s.twrWaits b.addr b.len = true) :
    DoesAt s (exec .bar2Starve s) [] fun u => u.b2 = s.b2 := by
  have hb' : s.start.b2.find? (fun b => b.data.isNone && !s.start.twrWaits b.addr b.len) = none := by
    rw [List.find?_eq_none]
    intro b hmem
    rcases hb b hmem with hd | hw
    · simp [Option.isSome_iff_ne_none.mp hd]
    · simp [show s.start.twrWaits b.addr b.len = true from hw]
  have he : exec .bar2Starve s = .next s.start := by
    show execBar2Starve s = _
    rw [execBar2Starve, live_of s _ h, hb']
  exact ⟨s.start, he, rfl, fun _ _ _ => rfl, memSame_refl s⟩

/-! A port that does not answer (R612). -/

theorem bar2Read_down (x : BitVec 36) (len : Nat) (h : s.dead = false) (hp : s.portReady = false) :
    DoesAt s (exec (.bar2Read x len) s) [] fun u => u.out = [.bar2Abort x.toNat] ∧ u.b2 = s.b2 := by
  have he : exec (.bar2Read x len) s = .next (s.start.emit (.bar2Abort x.toNat)) := by
    show execBar2Read x len s = _
    rw [execBar2Read, live_of s _ h, show s.start.portReady = false from hp]
    rfl
  exact ⟨_, he, ⟨rfl, rfl⟩, fun _ _ _ => rfl, memSame_refl s⟩

theorem bar2Write_down (x : BitVec 36) (bytes : List Byte) (en : List Bool) (h : s.dead = false) (hp : s.portReady = false) :
    DoesAt s (exec (.bar2Write x bytes en) s) [] fun u => u.out = [] ∧ u.b2 = s.b2 := by
  have he : exec (.bar2Write x bytes en) s = .next s.start := by
    show execBar2Write x bytes en s = _
    rw [execBar2Write, live_of s _ h, show s.start.portReady = false from hp]
    rfl
  exact ⟨_, he, ⟨rfl, rfl⟩, fun _ _ _ => rfl, memSame_refl s⟩

end Sys2Proof.Machine
end

section
/-! The admission window of the press (R383, R14 to R19, R406): what it takes up, what it moves, and the waiting BAR2 accesses that it lets go on. -/
namespace Sys2Proof.Machine

variable (s : State) (t : Nat)

/-! Waiting accesses. -/

/-- What carrying out an access does, where it does not wait. -/
theorem b2Serve_cases {s u : State} {b : B2Acc} (h : b2Serve s b = some u) :
    u = b2Refuse s b ∨ (∃ l : List Out, u = l.foldl State.emit (readOut s b.addr b.len).2.2.2) ∨ u = xpNote s .XP_STAT_WRDISC msgREFUSE
      ∨ ∃ l en, u = b2Store s b.addr l en := by
  unfold b2Serve at h
  split at h
  · exact .inl (Option.some.inj h).symm
  · split at h
    · cases h
    · split at h
      · split at h
        · exact .inr (.inl ⟨_, (Option.some.inj h).symm⟩)
        · cases h
      · dsimp only at h
        split at h
        · exact .inr (.inr (.inl (Option.some.inj h).symm))
        · exact .inr (.inr (.inr ⟨_, _, (Option.some.inj h).symm⟩))

/-- What an access that is carried out moves: bytes read, refusals, errors and messages. -/
def serveFlds : List Fld := .X_RD_BYTES :: .XP_STAT_BADADDR :: .XP_STAT_WRDISC :: eccFlds

variable {fl : List Fld} {s₀ : State}

theorem of_serveFlds {l : List Fld} (hfl : serveFlds ⊆ fl) (h : l ⊆ serveFlds := by decide) : l ⊆ fl := List.Subset.trans h hfl

theorem xpNote_k {s : State} {f : Fld} {kind : Nat} (hf : f ∈ fl) (hm : msgFlds ⊆ fl) (hk : KeepsR s₀ s.regs fl) : KeepsR s₀ (xpNote s f kind).regs fl :=
  raise_k (List.Subset.trans (by decide) hm) (set_k hf hk)

theorem b2Refuse_k {s : State} {b : B2Acc} (hfl : serveFlds ⊆ fl) (hk : KeepsR s₀ s.regs fl) : KeepsR s₀ (b2Refuse s b).regs fl := by
  obtain ⟨A, n, d⟩ := b
  cases d <;> exact xpNote_k (hfl (by decide)) (of_serveFlds hfl) hk

theorem b2Serve_k {s u : State} {b : B2Acc} (h : b2Serve s b = some u) (hfl : serveFlds ⊆ fl) (hk : KeepsR s₀ s.regs fl) : KeepsR s₀ u.regs fl := by
  obtain rfl | ⟨l, rfl⟩ | rfl | ⟨l, en, rfl⟩ := b2Serve_cases h
  · exact b2Refuse_k hfl hk
  · rw [foldl_emit]
    exact readOut_k (of_serveFlds hfl) hk
  · exact xpNote_k (hfl (by decide)) (of_serveFlds hfl) hk
  · exact b2Store_k (of_serveFlds hfl) hk

theorem core_of_apart {s u : State} (h : u.apart = s.apart) : u.core = s.core := by
  obtain ⟨himem, hdmem, hnvm, -, -, -, -⟩ := apart_iff.mp h
  rw [State.core, State.core, himem, hdmem, hnvm]

theorem xpNote_core (f : Fld) (kind : Nat) : (xpNote s f kind).core = s.core := by
  simp [xpNote]

theorem b2Refuse_core (b : B2Acc) : (b2Refuse s b).core = s.core := by
  obtain ⟨A, n, d⟩ := b
  cases d <;> exact xpNote_core _ _ _

theorem b2Serve_core {s u : State} {b : B2Acc} (h : b2Serve s b = some u) : u.core = s.core := by
  obtain rfl | ⟨l, rfl⟩ | rfl | ⟨l, en, rfl⟩ := b2Serve_cases h
  · exact b2Refuse_core s b
  · rw [foldl_emit]
    exact (core_of_apart (readOut_apart s b.addr b.len) :)
  · exact xpNote_core s _ _
  · exact core_of_apart (b2Store_apart s _ _ _)

/-- What carrying out an access keeps, serving those that wait keeps. -/
theorem b2Drain_keeps (P : State → Prop) (h : ∀ s b u, b2Serve s b = some u → P s → P u) (l : List B2Acc) (hs : P s) : P (b2Drain t l s).2 := by
  induction l generalizing s with
  | nil => exact hs
  | cons b r ih =>
    unfold b2Drain
    split
    · split
      · exact ih _ (h _ _ _ ‹_› hs)
      · exact hs
    · exact ih _ hs

/-- Accesses to the other tower go on waiting. -/
theorem b2Drain_other {l : List B2Acc} (h : ∀ b ∈ l, towerOf b.addr ≠ t) : b2Drain t l s = (l, s) := by
  induction l with
  | nil => rfl
  | cons b r ih =>
    rw [b2Drain, if_neg (h b (by simp)), ih fun c hc => h c (by simp [hc])]

/-! The steps of the window. -/

/-- The settings that take effect at a window. -/
def windowSettings : State :=
  let s := s.wr .PRS_PLIM_EFF 0 (min (s.rd .X_THR 0) (s.rd .PRS_PLIM_LIMIT 0))
  let s := s.wrB .PRS_PLIM_THROT 0 (decide (s.rd .PRS_PLIM_EFF 0 < s.rd .PRS_PLIM_LIMIT 0))
  s.wr .PRS_CEIL_CEIL t (s.effCeil t / 128)

/-- Stopped paths restart, running ones stop (R18, R19). -/
def windowPaths : State :=
  let s := windowSettings s t
  let s := restartPaths t (s.loadPaths t true) s
  stopPaths t (s.loadPaths t false).reverse s

/-- A clear under way takes what the window before left and the carry does not keep (R406). -/
def windowClear : State := clearWork s t (s.getCarry t - s.rd .X_RD_BYTES t - 8192).toNat

/-- The staged records are admitted within the budget. -/
def windowAdm : Adm :=
  let s := windowPaths s t
  let u := windowClear s t
  admitAll t ⟨u.setStaged t [], min (s.getCarry t - s.rd .X_RD_BYTES t) 8192 + u.avail t - u.rd .X_DLY_BYTES t, false, false, 0⟩ (u.getStaged t)

/-- The end of a window: its drops shown, its charges cleared, and its carry. -/
def windowEnd (a : Adm) : State :=
  let s := a.s.wrB (if t = 0 then .PRS_STAT_DROP0 else .PRS_STAT_DROP1) 0 a.dropped
  let s := (s.clr .X_DLY_BYTES t).clr .X_RD_BYTES t
  let s := s.incWrap .X_WINDOW t 1
  s.setCarry t (a.budget - a.excess)

theorem admissionWindow_eq : admissionWindow s t = windowEnd t (windowAdm s t) := rfl

/-! What a window moves. -/

/-- What a window moves besides its own count. -/
def windowFlds : List Fld := pressFlds ++ portFlds ++ ([.X_PATH_STOPPED, .PATH_DLYSTAT_FILL, .X_DLY_CNT, .X_DLY_LO, .TWR_CLRSTAT_BUSY, .TWR_CLRSTAT_DONE, .TWR_CLRSTAT_RESULT,
  .X_CLR_ACC, .X_CLR_COUNT, .X_CLR_FIRST, .PRS_CEIL_CEIL, .PRS_PLIM_EFF, .PRS_PLIM_THROT, .PRS_STAT_DROP0, .PRS_STAT_DROP1, .X_DLY_BYTES, .X_RD_BYTES] : List Fld)

theorem restartPaths_k {l : List Nat} {s : State} {t : Nat} (hk : KeepsR s₀ s.regs windowFlds) : KeepsR s₀ (restartPaths t l s).regs windowFlds := by
  induction l generalizing s with
  | nil => exact hk
  | cons p r ih => exact ite_k (ih (restartPath_k (by decide) hk)) hk

theorem stopPaths_k {l : List Nat} {s : State} {t : Nat} (hk : KeepsR s₀ s.regs windowFlds) : KeepsR s₀ (stopPaths t l s).regs windowFlds := by
  induction l generalizing s with
  | nil => exact hk
  | cons p r ih => exact ite_k hk (ih (stopPath_k (by decide) hk))

theorem windowPaths_k : KeepsR s (windowPaths s t).regs windowFlds :=
  stopPaths_k (restartPaths_k (wr_k (by decide) (wrB_k (by decide) (wr_k (by decide) (keepsR_refl s _)))))

theorem windowClear_k {s : State} {t : Nat} (hk : KeepsR s₀ s.regs windowFlds) : KeepsR s₀ (windowClear s t).regs windowFlds :=
  clearWork_k (by decide) hk

theorem windowAdm_k : KeepsR s (windowAdm s t).s.regs windowFlds := by
  have hfl : pressFlds ⊆ windowFlds := by decide
  have hstart := setStaged_k (t := t) (v := []) (windowClear_k (t := t) (windowPaths_k s t))
  rw [windowAdm]
  exact admitAll_k hfl hstart

theorem windowEnd_k {a : Adm} (hk : KeepsR s₀ a.s.regs windowFlds) : KeepsR s₀ (windowEnd t a).regs (.X_WINDOW :: windowFlds) := by
  have hdrop : (if t = 0 then Fld.PRS_STAT_DROP0 else .PRS_STAT_DROP1) ∈ (.X_WINDOW :: windowFlds) := by split <;> decide
  have hk' : KeepsR s₀ a.s.regs (.X_WINDOW :: windowFlds) := fun f i hf => hk f i fun h => hf (List.mem_cons_of_mem _ h)
  exact setCarry_k (incWrap_k (by simp) (clr_k (by decide) (clr_k (by decide) (wrB_k hdrop hk'))))

theorem rd_windowEnd_window (a : Adm) : (windowEnd t a).rd .X_WINDOW t = (a.s.rd .X_WINDOW t + 1) % 2 ^ 32 := by
  have hw : Fld.X_WINDOW.width = 32 := rfl
  have hdrop : (if t = 0 then Fld.PRS_STAT_DROP0 else .PRS_STAT_DROP1) ≠ .X_WINDOW := by split <;> decide
  simp [windowEnd, State.incWrap, State.clr, State.wrB, State.rd_wr, hw, hdrop.symm]

/-- A window counts itself. -/
theorem rd_admissionWindow_window : (admissionWindow s t).rd .X_WINDOW t = (s.rd .X_WINDOW t + 1) % 2 ^ 32 := by
  rw [admissionWindow_eq, rd_windowEnd_window]
  exact congrArg (fun n => (n + 1) % 2 ^ 32) (windowAdm_k s t .X_WINDOW t (by decide))

theorem clearWork_core (n : Nat) : (clearWork s t n).core = s.core := by
  unfold clearWork
  dsimp only
  split
  · rfl
  · split <;> rfl

theorem windowEnd_core (a : Adm) : (windowEnd t a).core = a.s.core := by
  simp [windowEnd]

theorem admissionWindow_core : (admissionWindow s t).core = s.core := by
  have hs : (windowSettings s t).core = s.core := by simp [windowSettings]
  rw [admissionWindow_eq, windowEnd_core, windowAdm, admitAll_core, State.setStaged_core, windowClear, clearWork_core, windowPaths, stopPaths_core, restartPaths_core, hs]

end Sys2Proof.Machine
end

section
/-! What an admission window does as a command: without the press, with nothing staged, and in general (R383, R448). -/
namespace Sys2Proof.Machine

variable (s : State) (t : Nat)

/-! What the bandwidth of a tower and the paths that load it depend on. -/

/-- The fields from which a tower's bandwidth is found (R15, R410, R440, R569, R595). -/
def availFlds : List Fld := [.TWR_STAT_STATE, .X_REP_OP, .DEV_STATE_STATE, .CLK_SLP_EN, .CLK_DSLP_EN, .CLK_RUN_EN, .CLK_GPEND_GATE_PEND, .CLK_FAIL_FAIL, .REP_STAT_RETIRED, .REP_STAT_RCH,
  .X_REP_CH, .TWR_STAT_REF2X, .PRS_PLIM_EFF, .PRS_PLIM_SHARE0]

/-- The fields from which the paths that load a tower are found (R14, R62, R65, R392). -/
def pathLoadFlds : List Fld := [.LINK_CFG_EN, .LINK_CFG_FIRST, .LINK_CFG_WIDTH, .PATH_MODE_AB, .PATH_MODE_BA, .PATH_SRC_SEL, .DLR_CFG_FIRST, .PUN_SLAB_FIRST, .RPL_CFG_PUN, .X_PATH_STOPPED]

section
variable {s u : State} {fl : List Fld} (hk : s.fldsBut u fl)
include hk

theorem avail_congr (hfl : ∀ f ∈ availFlds, f ∉ fl) (t : Nat) : u.avail t = s.avail t := by
  have hrd : ∀ f ∈ availFlds, ∀ i, u.rd f i = s.rd f i := fun f hf i => hk f i (hfl f hf)
  simp only [availFlds, List.forall_mem_cons, List.not_mem_nil] at hrd
  have hclk (d : Nat) : u.clkRuns d = s.clkRuns d := by
    simp only [State.clkRuns, State.clkEn, State.clkFailed, State.dev, State.bit, hrd]
    rfl
  have hret : u.retired t = s.retired t := by
    simp only [State.retired, State.on, hrd]
    rfl
  have hceil : u.effCeil t = s.effCeil t := by
    simp only [State.effCeil, State.capCeil, State.powerCeil, State.on, hret, hrd]
    rfl
  simp only [State.avail, hclk, hceil, hrd]

theorem loadPaths_congr (hfl : ∀ f ∈ pathLoadFlds, f ∉ fl) (hrpl : u.rpl = s.rpl) (t : Nat) (b : Bool) : u.loadPaths t b = s.loadPaths t b := by
  have hrd : ∀ f ∈ pathLoadFlds, ∀ i, u.rd f i = s.rd f i := fun f hf i => hk f i (hfl f hf)
  simp only [pathLoadFlds, List.forall_mem_cons, List.not_mem_nil] at hrd
  have hfirst (L : Nat) : u.linkFirst L = s.linkFirst L := by simp only [State.linkFirst, hrd]
  have hwidth (L : Nat) : u.linkWidth L = s.linkWidth L := by simp only [State.linkWidth, hrd]
  have hlink (n : Nat) : u.linkOf n = s.linkOf n := by simp only [State.linkOf, State.on, hfirst, hwidth, hrd]
  have hgov (n : Nat) : u.govLane n = s.govLane n := by
    simp only [State.govLane, hlink, hfirst]
  have hmode (p : Nat) : u.mode p = s.mode p := by
    unfold State.mode modeFld
    split <;> simp [hgov, hrd]
  have hload (p : Nat) : u.towerLoad p = s.towerLoad p := by
    simp [State.towerLoad, State.replaying, State.srcSel, State.govPath, State.punTower, hgov, hmode, hrpl, hrd]
  simp [State.loadPaths, State.on, hload, hrd]

end

/-! Writes of named instances. -/

section
variable {s u : State} {l : List (Fld × Nat)}

theorem regsBut_wr {f : Fld} {i : Nat} (v : Nat) (hf : (f, i) ∈ l) (h : s.regsBut u l) : s.regsBut (u.wr f i v) l := fun g j hg =>
  (u.rd_wr_ne v fun hgj => hg (by obtain ⟨rfl, rfl⟩ := hgj; exact hf)).trans (h g j hg)

end

@[simp] theorem State.setStaged_b2 (l : List Staged) : (s.setStaged t l).b2 = s.b2 := (rfl)
@[simp] theorem State.setCarry_b2 (v : Int) : (s.setCarry t v).b2 = s.b2 := (rfl)

/-! The command. -/

/-- The waiting accesses of a tower go on. -/
def waitersGoOn : State := { (b2Drain t s.b2 s).2 with b2 := (b2Drain t s.b2 s).1 }

theorem exec_admissionWindow_running {t : Fin 2} (h : s.dead = false) (hp : s.pressRuns = true) :
    exec (.admissionWindow t) s = .next (waitersGoOn (admissionWindow s.start t) t) := by
  show execAdmissionWindow t s = _
  rw [execAdmissionWindow, live_of s _ h, if_pos (show s.start.pressRuns = true from hp)]
  rfl

/-- A tower's charges and staged records are dropped. -/
def windowIdle : State := ((s.setStaged t []).clr .X_DLY_BYTES t).clr .X_RD_BYTES t

theorem exec_admissionWindow_stopped {t : Fin 2} (h : s.dead = false) (hp : s.pressRuns = false) :
    exec (.admissionWindow t) s = .next (waitersGoOn (windowIdle s.start t) t) := by
  show execAdmissionWindow t s = _
  rw [execAdmissionWindow, live_of s _ h, show s.start.pressRuns = false from hp]
  rfl

theorem waitersGoOn_alone {q : List B2Acc} (hq : s.b2 = q) (h : ∀ b ∈ q, towerOf b.addr ≠ t) : waitersGoOn s t = s := by
  subst hq
  rw [waitersGoOn, b2Drain_other s t h]

theorem waitersGoOn_k {s₀ s : State} {fl : List Fld} {t : Nat} (hfl : serveFlds ⊆ fl) (hk : KeepsR s₀ s.regs fl) : KeepsR s₀ (waitersGoOn s t).regs fl :=
  b2Drain_keeps s t (fun u => KeepsR s₀ u.regs fl) (fun _ _ _ h hk => b2Serve_k h hfl hk) _ hk

theorem waitersGoOn_core : (waitersGoOn s t).core = s.core :=
  b2Drain_keeps s t (fun u => u.core = s.core) (fun _ _ _ h hc => (b2Serve_core h).trans hc) _ rfl

/-! A window while the press does not run. -/

theorem admissionWindow_stopped {t : Fin 2} (h : s.dead = false) (hp : s.pressRuns = false) (hb : ∀ b ∈ s.b2, towerOf b.addr ≠ t) :
    DoesAt s (exec (.admissionWindow t) s) [(.X_DLY_BYTES, t), (.X_RD_BYTES, t)] fun u => u.getStaged t = [] ∧ u.b2 = s.b2 ∧ u.rd .X_DLY_BYTES t = 0 ∧ u.rd .X_RD_BYTES t = 0 := by
  rw [exec_admissionWindow_stopped s h hp, waitersGoOn_alone (windowIdle s.start t) t rfl hb]
  refine ⟨_, rfl, ⟨?_, rfl, ?_, ?_⟩, ?_, memSame_refl s⟩
  · exact State.getStaged_setStaged_same s.start t []
  · simp [windowIdle, State.clr, State.rd_wr]
  · simp [windowIdle, State.clr]
  · exact regsBut_wr _ (by simp) (regsBut_wr _ (by simp) fun _ _ _ => rfl)

/-! A window with nothing staged, no path to stop or restart, and no clear under way. -/

section
variable {s : State} {t : Nat}

/-- What the settings of a window leave (R382, R595). -/
theorem windowSettings_keeps : s.fldsBut (windowSettings s t) [.PRS_PLIM_EFF, .PRS_PLIM_THROT, .PRS_CEIL_CEIL] :=
  fldsBut_of (wr_k (by decide) (wrB_k (by decide) (wr_k (by decide) (keepsR_refl s _))))

theorem windowPaths_quiet (hr : s.loadPaths t true = []) (hs : s.loadPaths t false = []) : windowPaths s t = windowSettings s t := by
  have hload := loadPaths_congr (windowSettings_keeps (s := s) (t := t)) (by decide) rfl t
  rw [windowPaths, hload true, hr]
  show stopPaths t ((windowSettings s t).loadPaths t false).reverse (windowSettings s t) = _
  rw [hload false, hs]
  rfl

theorem windowClear_idle (h : s.on .TWR_CLRSTAT_BUSY t = false) : windowClear s t = s := by
  rw [windowClear, clearWork, h]
  rfl

/-- The budget of a window: what the carry keeps, the tower's bandwidth, less what delay lines moved (R16, R383). -/
def windowBudget (s : State) (t : Nat) : Int := min (s.getCarry t - s.rd .X_RD_BYTES t) 8192 + s.avail t - s.rd .X_DLY_BYTES t

/-- What a window with nothing staged ends with. -/
def quietAdm (s : State) (t : Nat) : Adm := ⟨(windowSettings s t).setStaged t [], windowBudget (windowSettings s t) t, false, false, 0⟩

theorem windowAdm_quiet (hr : s.loadPaths t true = []) (hs : s.loadPaths t false = []) (hc : s.on .TWR_CLRSTAT_BUSY t = false) (hg : s.getStaged t = []) :
    windowAdm s t = quietAdm s t := by
  have hc' : (windowSettings s t).on .TWR_CLRSTAT_BUSY t = false := by
    rw [State.on, windowSettings_keeps _ _ (by decide)]
    exact hc
  rw [windowAdm, windowPaths_quiet hr hs]
  show admitAll t ⟨(windowClear (windowSettings s t) t).setStaged t [], _, false, false, 0⟩ ((windowClear (windowSettings s t) t).getStaged t) = _
  rw [windowClear_idle hc', show (windowSettings s t).getStaged t = [] from hg]
  rfl

/-- The fields that a window with nothing to do writes. -/
def quietInsts (t : Fin 2) : List (Fld × Nat) := [(.PRS_PLIM_EFF, 0), (.PRS_PLIM_THROT, 0), (.PRS_CEIL_CEIL, t),
  (if t = 0 then .PRS_STAT_DROP0 else .PRS_STAT_DROP1, 0), (.X_DLY_BYTES, t), (.X_RD_BYTES, t), (.X_WINDOW, t)]

theorem windowSettings_insts {t : Fin 2} : s.regsBut (windowSettings s t) (quietInsts t) :=
  regsBut_wr _ (by simp [quietInsts]) (regsBut_wr _ (by simp [quietInsts]) (regsBut_wr _ (by simp [quietInsts]) fun _ _ _ => rfl))

theorem quietAdm_insts {t : Fin 2} : s.regsBut (quietAdm s t).s (quietInsts t) := fun f i hf =>
  (State.rd_setStaged _ t [] f i).trans (windowSettings_insts f i hf)

theorem windowEnd_insts {t : Fin 2} {a : Adm} (h : s.regsBut a.s (quietInsts t)) : s.regsBut (windowEnd t a) (quietInsts t) :=
  regsBut_wr _ (by simp [quietInsts]) (regsBut_wr _ (by simp [quietInsts]) (regsBut_wr _ (by simp [quietInsts]) (regsBut_wr _ (by simp [quietInsts]) h)))

theorem windowEnd_quiet_memSame : s.memSame (windowEnd t (quietAdm s t)) := by
  simp [State.memSame, State.getI, State.getD, State.getNvm, State.getWin, windowEnd, quietAdm, windowSettings, State.incWrap, State.clr_def, State.wrB_def]

theorem windowEnd_quiet_b2 : (windowEnd t (quietAdm s t)).b2 = s.b2 := by
  simp [windowEnd, quietAdm, windowSettings, State.incWrap, State.clr_def, State.wrB_def]

/-- The power limit in force after a window (R595). -/
theorem rd_windowSettings_eff : (windowSettings s t).rd .PRS_PLIM_EFF 0 = min (s.rd .X_THR 0) (s.rd .PRS_PLIM_LIMIT 0) % 2 ^ Fld.PRS_PLIM_EFF.width := by
  simp [windowSettings, State.wrB_def, State.rd_wr]

/-- What the end of a window shows and clears. -/
def windowEndFlds : List Fld := [.PRS_STAT_DROP0, .PRS_STAT_DROP1, .X_DLY_BYTES, .X_RD_BYTES, .X_WINDOW]

theorem windowEnd_keeps (a : Adm) : a.s.fldsBut (windowEnd t a) windowEndFlds := by
  have hdrop : (if t = 0 then Fld.PRS_STAT_DROP0 else .PRS_STAT_DROP1) ∈ windowEndFlds := by split <;> decide
  exact setCarry_k (incWrap_k (by decide) (clr_k (by decide) (clr_k (by decide) (wrB_k hdrop (keepsR_refl a.s _)))))

theorem rd_windowEnd_charges (a : Adm) : (windowEnd t a).rd .X_RD_BYTES t = 0 ∧ (windowEnd t a).rd .X_DLY_BYTES t = 0 := by
  simp [windowEnd, State.incWrap, State.clr_def, State.rd_wr]

theorem getCarry_windowEnd (a : Adm) : (windowEnd t a).getCarry t = a.budget - a.excess := State.getCarry_setCarry_same _ _ _

/-- The budget of a quiet window, in what stood before it and the bandwidth that it found. -/
theorem windowBudget_settings (t : Nat) : windowBudget (windowSettings s t) t
    = min (s.getCarry t - s.rd .X_RD_BYTES t) 8192 + (windowSettings s t).avail t - s.rd .X_DLY_BYTES t := by
  rw [windowBudget, windowSettings_keeps .X_RD_BYTES t (by decide), windowSettings_keeps .X_DLY_BYTES t (by decide)]
  rfl

end

theorem admissionWindow_quiet {t : Fin 2} (h : s.dead = false) (hp : s.pressRuns = true) (hg : s.getStaged t = []) (hr : s.loadPaths t true = [])
    (hs : s.loadPaths t false = []) (hc : s.on .TWR_CLRSTAT_BUSY t = false) (hb : ∀ b ∈ s.b2, towerOf b.addr ≠ t) :
    DoesAt s (exec (.admissionWindow t) s) (quietInsts t) fun u =>
      u.rd .PRS_PLIM_EFF 0 = min (s.rd .X_THR 0) (s.rd .PRS_PLIM_LIMIT 0) % 2 ^ Fld.PRS_PLIM_EFF.width
        ∧ u.rd .X_WINDOW t = (s.rd .X_WINDOW t + 1) % 2 ^ 32 ∧ u.rd .X_RD_BYTES t = 0 ∧ u.rd .X_DLY_BYTES t = 0
        ∧ u.getCarry t = min (s.getCarry t - s.rd .X_RD_BYTES t) 8192 + u.avail t - s.rd .X_DLY_BYTES t := by
  have hw : admissionWindow s.start t = windowEnd t (quietAdm s.start t) := by
    rw [admissionWindow_eq]
    exact congrArg (windowEnd t) (windowAdm_quiet (s := s.start) hr hs hc hg)
  have hcount : (windowEnd t (quietAdm s.start t)).rd .X_WINDOW t = (s.rd .X_WINDOW t + 1) % 2 ^ 32 := hw ▸ rd_admissionWindow_window s.start t
  rw [exec_admissionWindow_running s h hp, hw, waitersGoOn_alone (windowEnd t (quietAdm s.start t)) t windowEnd_quiet_b2 hb]
  refine ⟨_, rfl, ⟨?_, hcount, (rd_windowEnd_charges (quietAdm s.start t)).1, (rd_windowEnd_charges (quietAdm s.start t)).2, ?_⟩, windowEnd_insts (quietAdm_insts (s := s.start)), windowEnd_quiet_memSame (s := s.start)⟩
  · rw [windowEnd_keeps (quietAdm s.start t) .PRS_PLIM_EFF 0 (by decide)]
    exact rd_windowSettings_eff (s := s.start)
  · rw [getCarry_windowEnd, avail_congr (windowEnd_keeps (quietAdm s.start t)) (by decide)]
    show windowBudget (windowSettings s.start t) t - (0 : Nat) = _
    rw [windowBudget_settings, Int.ofNat_zero, Int.sub_zero]
    rfl

/-! Any window. -/

/-- Every field that an admission window may move, with what the accesses that it lets go on move. -/
def admissionFlds : List Fld := eccFlds ++ portFlds ++ ([.PATH_DLYSTAT_FILL, .TWR_CLRSTAT_BUSY, .TWR_CLRSTAT_DONE, .TWR_CLRSTAT_RESULT, .X_CLR_ACC, .X_CLR_COUNT, .X_CLR_FIRST,
  .PRS_CEIL_CEIL, .PRS_DROPT_COUNT, .PRS_PLIM_EFF, .PRS_PLIM_THROT, .PRS_STAT_DROP0, .PRS_STAT_DROP1, .PUN_DISC_COUNT, .PUN_HEAD_OFS, .PUN_RECS_COUNT, .PUN_STAT_STATE, .PUN_STAT_WRAP,
  .PUN_TAIL_OFS, .STRM_LOSTB_COUNT, .STRM_LOSTR_COUNT, .STRM_SEQ_SEQ, .X_DLY_BYTES, .X_DLY_CNT, .X_DLY_LO, .X_PATH_STOPPED, .X_PUN_SINCE, .X_RD_BYTES, .X_WINDOW, .XP_STAT_BADADDR,
  .XP_STAT_WRDISC] : List Fld)

theorem admissionWindow_runs {t : Fin 2} (h : s.dead = false) (hp : s.pressRuns = true) :
    DoesCore s (exec (.admissionWindow t) s) admissionFlds fun u => u.rd .X_WINDOW t = (s.rd .X_WINDOW t + 1) % 2 ^ 32 := by
  have hcount := rd_admissionWindow_window s.start t
  have hserve : ((waitersGoOn (admissionWindow s.start t) t).rd .X_WINDOW t) = (admissionWindow s.start t).rd .X_WINDOW t :=
    waitersGoOn_k (List.Subset.refl _) (keepsR_refl _ _) .X_WINDOW t (by decide)
  have hwin : KeepsR s.start (admissionWindow s.start t).regs (.X_WINDOW :: windowFlds) := by
    rw [admissionWindow_eq]
    exact windowEnd_k t (windowAdm_k s.start t)
  have hsub : .X_WINDOW :: windowFlds ⊆ admissionFlds := by decide
  have hregs : KeepsR s.start (admissionWindow s.start t).regs admissionFlds := fun f i hf => hwin f i fun hm => hf (hsub hm)
  have hcore : (waitersGoOn (admissionWindow s.start t) t).core = s.core := (waitersGoOn_core _ _).trans (admissionWindow_core s.start t)
  rw [exec_admissionWindow_running s h hp]
  refine ⟨_, rfl, hserve.trans hcount, fldsBut_of (s := s.start) (waitersGoOn_k (by decide) hregs), ?_⟩
  simp only [State.core, Prod.mk.injEq] at hcore
  obtain ⟨himem, hdmem, hnvm⟩ := hcore
  simp only [State.getI, State.getD, State.getNvm, himem, hdmem, hnvm, implies_true, and_self]

end Sys2Proof.Machine
end

section
/-! The statement of family 00_scope about the towers as the host sees them. -/
namespace Sys2Proof.Machine

/-- Settles O46: an access over BAR2 goes through the lemmas of its arrival (`arrival_…`), a read that has waited too long through those of `bar2Starve`, a window through
`admissionWindow_…`. That waiting accesses keep their order and go on at a window is the model's choice (log entry 40), and so is what a window takes in (log entry 15). -/
theorem hostTowerAccess : Obligations.HostTowerAccess := by
  unfold Obligations.HostTowerAccess
  intro s x len bytes en t
  have hread (h : s.portUp) := exec_bar2Read s x len h
  have hwrite (h : s.portUp) := exec_bar2Write s x bytes en h
  refine ⟨fun h hp => ⟨bar2Read_down s x len h hp, bar2Write_down s x bytes en h hp⟩, fun hup hn => ?_, fun hup hm => ?_,
    fun hup hn hA => hread hup ▸ arrival_unmapped s hn hA, fun hup hm hA => hwrite hup ▸ arrival_unmapped s hm hA,
    fun A hup hn hA hq => hread hup ▸ arrival_queued s hn hA hq, fun A hup hm hA hq => hwrite hup ▸ arrival_queued s hm hA hq,
    fun A hup hn hA hq hr => hread hup ▸ arrival_refused s hn hA hq hr, fun A hup hm hA hq hr => hwrite hup ▸ arrival_refused s hm hA hq hr,
    fun A hup hn hA hq hr hw => hread hup ▸ arrival_waits s hn hA hq ?_,
    fun A hup hm hA hq hr hw => hwrite hup ▸ arrival_waits s hm hA hq (b2Serve_waits s.start (Bool.eq_false_iff.mpr hr) hw),
    fun A hup hn hA hq hr hw hf => hread hup ▸ arrival_read s hn hA hq (Bool.eq_false_iff.mpr hr) hw hf,
    fun A hup hm hA hq hr hw hh => hwrite hup ▸ arrival_held s hm hA hq (Bool.eq_false_iff.mpr hr) hw hh,
    fun A hup hm hA hq hr hw hh => hwrite hup ▸ arrival_store s hm hA hq (Bool.eq_false_iff.mpr hr) hw hh,
    fun b h hb => ?_, fun h hb => bar2Starve_idle s h hb, fun h hp hb => admissionWindow_stopped s h hp hb,
    fun h hp hg hr hs hc hb => admissionWindow_quiet s h hp hg hr hs hc hb, fun h hp => admissionWindow_runs s h hp⟩
  · rw [hread hup, show b2Len x len = 0 from hn, b2Arrive_empty]
    exact ⟨_, rfl, rfl, fun _ _ _ => rfl, memSame_refl s⟩
  · rw [hwrite hup, show (b2Bytes x bytes).length = 0 from hm, b2Arrive_empty]
    exact ⟨_, rfl, rfl, fun _ _ _ => rfl, memSame_refl s⟩
  · have hr' : s.twrRefuses (towerOf A) = false := Bool.eq_false_iff.mpr hr
    rcases hw with hw | hf
    · exact b2Serve_waits s.start hr' hw
    · exact b2Serve_noRoom s.start hr' hf
  · obtain ⟨u, he, ⟨hon, hout, hb2, hsent⟩, hregs, hmem⟩ := bar2Starve_aborts s h hb
    exact ⟨u, he, ⟨hb2, hout, hon, hsent⟩, hregs, hmem⟩

end Sys2Proof.Machine
end

section
/-! The statement of family 01_device_organisation about MGMT resets (R477, R601, R602) fails while a hot switch waits for its new firmware. -/
namespace Sys2Proof.Machine

variable (s : State)

/-- The registers that the core's stop moves (R466, R482). -/
def coreStopFlds : List Fld := [.X_FWUP, .MB_STAT_NOFW, .TW_MBSTAT_NOFW, .X_SPDM, .X_MCTP_N]

theorem rd_coreStop_ne {f : Fld} (i : Nat) (hf : f ∉ coreStopFlds) : (coreStop s).rd f i = s.rd f i := by
  have hshow : (fwShow s false).rd f i = s.rd f i := fwShow_k (fl := coreStopFlds) (by decide) (keepsR_refl s _) f i hf
  have hregs : (coreStop s).regs = ((fwShow s false).drop fun k => k.1 == .X_SPDM || k.1 == .X_MCTP_N).regs := by
    simp [coreStop, State.drop, Bool.not_or, bne]
  have hdrop : (coreStop s).rd f i = ((fwShow s false).drop fun k => k.1 == .X_SPDM || k.1 == .X_MCTP_N).rd f i := by
    simp only [State.rd, hregs]
  simp only [coreStopFlds, List.mem_cons, not_or] at hf
  rw [hdrop, State.rd_drop, if_neg (by simp [hf]), hshow]

/-- From the bank switch on, a MGMT reset is the switch-back (R602), which leaves RST_CMD's answer. -/
theorem rd_mgmtBegin_switched (byCmd : Bool) (h : s.hot = .switched) :
    (mgmtBegin s byCmd).rd .RST_CMD_RESULT 0 = s.rd .RST_CMD_RESULT 0 := by
  have hback : mgmtBegin s byCmd = switchBack (coreStop ((s.incSat .RST_STAT_MGMTCNT 0 1).wrB .X_CORE_CMD 0 byCmd)) := if_pos h
  have hkeep := switchBack_k (List.Subset.refl _) (keepsR_refl (coreStop ((s.incSat .RST_STAT_MGMTCNT 0 1).wrB .X_CORE_CMD 0 byCmd)) _)
  rw [hback, fldsBut_of hkeep .RST_CMD_RESULT 0 (by decide), rd_coreStop_ne _ _ (by decide)]
  simp [State.incSat, State.wrB, State.rd_wr]

/-- From the bank switch on, RST_CMD's request of a MGMT reset is taken, whatever the core does. -/
theorem exec_rstMgmt_switched (r : Route) (h : s.takes r 0x5000) (hot : s.hot = .switched) (hrun : s.running.isSome = true) :
    exec (.rstMgmt r) s = .next (mgmtBegin (s.start.wr .RST_CMD_RESULT 0 1) true) := by
  have hmay : s.start.mgmtMay = true := by
    show s.mgmtMay = true
    simp [State.mgmtMay, hot, hrun]
  refine (live_gate s r 0x5000 (fun s => rstCmd s 0x50) h).trans ?_
  simp [rstCmd, bitsOf, bitOf, hmay]

/-- A hot switch after its bank switch (R57): the new bank's core runs and has not yet reported ready. -/
def awaitingNew : State :=
  { ((State.reset.wr .DEV_STATE_STATE 0 devIDLE).wr .DEV_STATE_BANK 0 1).wr .X_CORE 0 2 with
    hot := .switched, bankA := some ⟨0, 0, false, []⟩, bankB := some ⟨0, 1, false, []⟩ }

/-- Refutes O54: in the second phase of a hot switch the core is busy (X_CORE is not 0), and yet RST_CMD's MGMT request is no second reset that R601 refuses with 0x03: it acts as
the switch-back of R58 (R602), and the model answers 0x01. (The core then awaits the old bank's hash, log entry 54, where the statement's other clause has it run at once.) -/
theorem not_managementResets : ¬ Obligations.ManagementResets := by
  unfold Obligations.ManagementResets
  intro h
  obtain ⟨hrefused, -⟩ := h awaitingNew .port
  have htakes : awaitingNew.takes .port 0x5000 := by decide
  obtain ⟨u, hu, hthree, -⟩ := hrefused htakes (.inl (by decide))
  have hnext := exec_rstMgmt_switched awaitingNew .port htakes rfl rfl
  rw [hu, Host.Outcome.next.injEq] at hnext
  rw [hnext, rd_mgmtBegin_switched _ _ rfl, State.rd_wr_same] at hthree
  exact absurd hthree (by decide)

end Sys2Proof.Machine
end

section
/-! What a received unit leaves alone while its path keeps its mode (R214 to R219): the definition, the state's operations, messages, records and the injection queue. -/
namespace Sys2Proof.Machine
variable (s : State)

/-- What a unit leaves alone while its path keeps its mode: the sequencers' memories, the NVM, the byte windows, and the pending changes of mode. -/
def State.still (s : State) : List (Nat × Word) × List (Nat × Word) × List (Nat × Byte) × List (Nat × Byte) × List (Nat × Option ModeChg) :=
  (s.imem, s.dmem, s.nvm, s.win, s.chg)

theorem still_iff {s t : State} : t.still = s.still ↔ t.imem = s.imem ∧ t.dmem = s.dmem ∧ t.nvm = s.nvm ∧ t.win = s.win ∧ t.chg = s.chg := by
  simp [State.still]

@[simp] theorem State.wr_still (f : Fld) (i v : Nat) : (s.wr f i v).still = s.still := (rfl)
@[simp] theorem State.set_still (f : Fld) (i : Nat) : (s.set f i).still = s.still := (rfl)
@[simp] theorem State.clr_still (f : Fld) (i : Nat) : (s.clr f i).still = s.still := (rfl)
@[simp] theorem State.wrB_still (f : Fld) (i : Nat) (b : Bool) : (s.wrB f i b).still = s.still := (rfl)
@[simp] theorem State.wrBit_still (f : Fld) (i b : Nat) (v : Bool) : (s.wrBit f i b v).still = s.still := (rfl)
@[simp] theorem State.incSat_still (f : Fld) (i n : Nat) : (s.incSat f i n).still = s.still := (rfl)
@[simp] theorem State.incWrap_still (f : Fld) (i n : Nat) : (s.incWrap f i n).still = s.still := (rfl)
@[simp] theorem State.emit_still (o : Out) : (s.emit o).still = s.still := (rfl)
@[simp] theorem State.emitTx_still (p : Nat) (o : Out) : (s.emitTx p o).still = s.still := (rfl)
@[simp] theorem State.setStaged_still (t : Nat) (l : List Staged) : (s.setStaged t l).still = s.still := (rfl)
@[simp] theorem State.setStrm_still (p : Nat) (v : StrmSt) : (s.setStrm p v).still = s.still := (rfl)
@[simp] theorem State.setHeld_still (p : Nat) (l : List HeldUnit) : (s.setHeld p l).still = s.still := (rfl)
@[simp] theorem State.setItems_still (p : Nat) (l : List Item) : (s.setItems p l).still = s.still := (rfl)
@[simp] theorem State.setStrikes_still (q : Nat) (l : List (Nat × Nat)) : (s.setStrikes q l).still = s.still := (rfl)
@[simp] theorem State.setWait_still (t : Nat) (w : Option Wait) : (s.setWait t w).still = s.still := (rfl)
@[simp] theorem State.setRpl_still (p : Nat) (r : Option RplSt) : (s.setRpl p r).still = s.still := (rfl)
@[simp] theorem State.setT_still (A : Nat) (c : Code) : (s.setT A c).still = s.still := (rfl)
@[simp] theorem State.freshNat_still : s.freshNat.2.still = s.still := (rfl)
@[simp] theorem State.raise_still (a b c : Nat) : (s.raise a b c).still = s.still := by simp [State.still]

/-- A repeated change whose every step leaves them leaves them. -/
theorem State.each_still {α : Type} (l : List α) (f : State → α → State) (h : ∀ s a, (f s a).still = s.still) : (s.each l f).still = s.still :=
  List.foldlRecOn (motive := fun u => u.still = s.still) l f rfl fun u hu a _ => (h u a).trans hu

/-! Messages, records and guarded waits. -/

/-- What an event, a guarded wait and a change of rate leave alone: what is still, and what has been sent. -/
def State.quiet (s : State) := (s.still, s.out)

theorem still_of_quiet {s t : State} (h : t.quiet = s.quiet) : t.still = s.still := (Prod.ext_iff.mp h).1
theorem out_of_quiet {s t : State} (h : t.quiet = s.quiet) : t.out = s.out := (Prod.ext_iff.mp h).2

@[simp] theorem State.wr_quiet (f : Fld) (i v : Nat) : (s.wr f i v).quiet = s.quiet := (rfl)
@[simp] theorem State.set_quiet (f : Fld) (i : Nat) : (s.set f i).quiet = s.quiet := (rfl)
@[simp] theorem State.clr_quiet (f : Fld) (i : Nat) : (s.clr f i).quiet = s.quiet := (rfl)
@[simp] theorem State.wrB_quiet (f : Fld) (i : Nat) (b : Bool) : (s.wrB f i b).quiet = s.quiet := (rfl)

theorem State.each_quiet {α : Type} (l : List α) (f : State → α → State) (h : ∀ s a, (f s a).quiet = s.quiet) : (s.each l f).quiet = s.quiet :=
  List.foldlRecOn (motive := fun u => u.quiet = s.quiet) l f rfl fun u hu a _ => (h u a).trans hu

@[simp] theorem stageRecs_quiet (p : Nat) (exempt unit : Bool) (recs : List Rec) : (stageRecs s p exempt unit recs).quiet = s.quiet := by
  unfold stageRecs
  dsimp only
  split_ifs <;> rfl

@[simp] theorem eventRec_quiet (p kind pos : Nat) (bytes : List Byte) : (eventRec s p kind pos bytes).quiet = s.quiet := by
  unfold eventRec
  split <;> simp

@[simp] theorem linkBytes_quiet (p : Nat) : (linkBytes s p).2.quiet = s.quiet := by
  unfold linkBytes
  dsimp only
  split_ifs <;> rfl

@[simp] theorem linkEvent_quiet (n : Nat) : (linkEvent s n).quiet = s.quiet :=
  s.each_quiet _ _ fun s p => by simp

@[simp] theorem guardUnit_quiet (p : Nat) : (guardUnit s p).quiet = s.quiet :=
  s.each_quiet _ _ fun s e => by
    split
    · split
      · split <;> rfl
      · rfl
    · rfl

@[simp] theorem stageRecs_still (p : Nat) (exempt unit : Bool) (recs : List Rec) : (stageRecs s p exempt unit recs).still = s.still := still_of_quiet (stageRecs_quiet s p exempt unit recs)
@[simp] theorem eventRec_still (p kind pos : Nat) (bytes : List Byte) : (eventRec s p kind pos bytes).still = s.still := still_of_quiet (eventRec_quiet s p kind pos bytes)
@[simp] theorem linkBytes_still (p : Nat) : (linkBytes s p).2.still = s.still := still_of_quiet (linkBytes_quiet s p)
@[simp] theorem linkEvent_still (n : Nat) : (linkEvent s n).still = s.still := still_of_quiet (linkEvent_quiet s n)

@[simp] theorem pathEvent_still (p kind addr : Nat) : (pathEvent s p kind addr).still = s.still := by simp [pathEvent]
@[simp] theorem cancelAction_still (p addr : Nat) : (cancelAction s p addr).still = s.still := by simp [cancelAction]

@[simp] theorem closeRun_still (p : Nat) : (closeRun s p).still = s.still := by
  unfold closeRun
  dsimp only
  split <;> simp

/-! The injection queue. -/

@[simp] theorem injTake_still (e lp act : Nat) (fix : Bool) (m : Moment) (data src : Nat) : (injTake s e lp act fix m data src).still = s.still := by
  simp only [injTake, State.wr_still, State.clr_still, State.wrB_still, State.incWrap_still]
@[simp] theorem injRelease_still (e : Nat) : (injRelease s e).still = s.still := (rfl)

@[simp] theorem injRecord_still (g lp pos outcome ent src : Nat) : (injRecord s g lp pos outcome ent src).still = s.still := by
  simp [injRecord, apply_ite State.still]

@[simp] theorem injEvent_still (g lp pos outcome ent : Nat) : (injEvent s g lp pos outcome ent).still = s.still := by
  unfold injEvent
  dsimp only
  split_ifs <;> simp

@[simp] theorem injDone_still (e pos outcome : Nat) : (injDone s e pos outcome).still = s.still := by simp [injDone]
@[simp] theorem injNone_still (g lp pos outcome src : Nat) : (injNone s g lp pos outcome src).still = s.still := by simp [injNone]

@[simp] theorem cancelEntries_still (p pos : Nat) (f : State → Nat → Bool) : (cancelEntries s p pos f).still = s.still :=
  s.each_still _ _ fun s e => injDone_still s e pos _

@[simp] theorem cancelUnspliced_still (p pos stamp : Nat) : (cancelUnspliced s p pos stamp).still = s.still := by
  unfold cancelUnspliced
  split <;> simp

@[simp] theorem missUnit_still (p pos stamp : Nat) : (missUnit s p pos stamp).still = s.still :=
  s.each_still _ _ fun s e => by split <;> simp

@[simp] theorem supersede_still (pos : Nat) (es : List Nat) : (supersede s pos es).still = s.still :=
  s.each_still _ _ fun s e => injDone_still s e pos _

@[simp] theorem applyClean_still (p : Nat) (us : List SendUnit) (u : HeldUnit) (e : Nat) : (applyClean p us u s e).still = s.still := by
  unfold applyClean
  dsimp only
  split_ifs <;> simp

end Sys2Proof.Machine
end

section
/-! What a received unit leaves alone: the steps of the press, the matchers, the counts and the delay lines. -/
namespace Sys2Proof.Machine
variable (s : State)

/-! Leaving the injection stage. -/

@[simp] theorem startBursts_still (p : Nat) (u : HeldUnit) : (startBursts s p u).still = s.still := by
  unfold startBursts
  split
  · rfl
  · exact s.each_still _ _ fun s e => by simp

@[simp] theorem noteClean_still (p : Nat) (u : HeldUnit) : (noteClean s p u).still = s.still := by
  unfold noteClean
  split <;> rfl

@[simp] theorem transmit_still (p : Nat) (line : List Byte) (reenc : Bool) : (transmit s p line reenc).still = s.still := by
  unfold transmit
  split_ifs <;> rfl

/-! The press. -/

@[simp] theorem pendCount_still (p : Nat) : (pendCount s p).still = s.still := (rfl)

@[simp] theorem capOn_still (p pos : Nat) : (capOn s p pos).still = s.still := by
  unfold capOn
  split <;> simp

@[simp] theorem capOff_still (p pos cause : Nat) : (capOff s p pos cause).still = s.still := by
  unfold capOff
  split <;> simp

@[simp] theorem capDo_still (p pos : Nat) (a : CapAct) : (capDo p pos s a).still = s.still := by
  unfold capDo
  split <;> simp

@[simp] theorem capMark_still (p pos stamp : Nat) (valid : Bool) (a : CapAct) : (capMark p pos stamp valid s a).still = s.still := by
  unfold capMark
  split
  · split <;> simp
  · rfl

@[simp] theorem capCancelUntapped_still (p pos stamp : Nat) : (capCancelUntapped s p pos stamp).still = s.still := by
  unfold capCancelUntapped
  dsimp only
  split
  · rfl
  · exact State.each_still _ _ _ fun s _ => cancelAction_still s p pos

/-- Those of the matchers' switches that are due are carried out, or noted. -/
theorem capsMatched_still (p pos : Nat) (tap : Bool) (mdue : List CapAct) :
    (if tap = true then (if mdue.any (·.kind == .off) then capOff s p pos 1 else capOn s p pos) else mdue.foldl (fun s a => s.set .MATCH_STAT_ACTSKIP a.src) s).still = s.still := by
  split_ifs
  · simp
  · simp
  · exact s.each_still _ _ fun s a => rfl

@[simp] theorem applyCaps_still (p pos stamp : Nat) (valid : Bool) : (applyCaps s p pos stamp valid).still = s.still := by
  have hdue (u : State) (l : List CapAct) : (l.foldl (capMark p pos stamp valid) (l.foldl (capDo p pos) u)).still = u.still :=
    (State.each_still _ _ _ fun s a => capMark_still s p pos stamp valid a).trans (u.each_still _ _ fun s a => capDo_still s p pos a)
  unfold applyCaps
  dsimp only
  rw [apply_ite State.still, hdue, pendCount_still, State.setStrm_still, ite_self, capCancelUntapped_still]
  split
  · rfl
  · exact capsMatched_still (s.setStrm p _) p pos _ _

@[simp] theorem failRec_still (p pos stamp : Nat) (valid : Bool) (e : Option Failure) : (failRec s p pos stamp valid e).still = s.still := by
  unfold failRec
  split <;> simp

@[simp] theorem failItem_still (p : Nat) (it : Item) (e : Option Failure) : (failItem s p it e).still = s.still := by simp [failItem]

@[simp] theorem filterDrop_still (p : Nat) (f : Option FiltSet) (form : List Byte) : (filterDrop s p f form).still = s.still := by
  have hrun (u : State) : (match (u.getStrm p).tmpl with
      | some (t, _) => if t = form then u else closeRun u p
      | none => u).still = u.still := by
    split
    · split <;> simp
    · rfl
  cases f with
  | none => exact hrun s
  | some f => exact hrun _

@[simp] theorem formFiller_still (p pos stamp : Nat) (valid : Bool) (form : List Byte) (cut : Option Nat) (raw dec : Bool) :
    (formFiller s p pos stamp valid form cut raw dec).still = s.still := by simp [formFiller]

@[simp] theorem formUnit_still (p pos stamp : Nat) (valid fill : Bool) (form : List Byte) (cut : Option Nat) (raw dec : Bool) :
    (formUnit s p pos stamp valid fill form cut raw dec).still = s.still := by
  unfold formUnit
  dsimp only
  split
  · simp
  · split
    · split
      · split <;> simp
      · simp
    · simp

@[simp] theorem recordUnit_still (p pos stamp : Nat) (valid : Bool) (f : Option FiltSet) (cls : Nat) (fails : Bool) (hits : List Nat) (form : List Byte) (raw dec : Bool) :
    (recordUnit s p pos stamp valid f cls fails hits form raw dec).still = s.still := by
  unfold recordUnit
  dsimp only
  split <;> simp

/-! Trigger lines, matchers and waits. -/

@[simp] theorem pollWaits_still : (pollWaits s).still = s.still :=
  s.each_still _ _ fun s e => by
    split
    · split
      · rfl
      · split <;> rfl
    · rfl

@[simp] theorem guardUnit_still (p : Nat) : (guardUnit s p).still = s.still := still_of_quiet (guardUnit_quiet s p)

@[simp] theorem owedHit_still (p m key : Nat) : (owedHit s p m key).still = s.still :=
  s.each_still _ _ fun s e => by
    split
    · split <;> rfl
    · rfl

@[simp] theorem genWaits_still (p : Nat) : (genWaits s p).still = s.still :=
  s.each_still _ _ fun s e => by
    split
    · split
      · split <;> rfl
      · rfl
    · rfl

@[simp] theorem tlRise_still (i : Nat) : (tlRise s i).still = s.still :=
  State.each_still _ _ _ fun s k => by
    split_ifs <;> rfl

@[simp] theorem unFell_still (i : Nat) : (unFell s i).still = s.still :=
  s.each_still _ _ fun s t => by split <;> rfl

@[simp] theorem tlNote_still (i : Nat) : (tlNote s i).still = s.still := (rfl)

@[simp] theorem tlSet_still (i : Nat) : (tlSet s i).still = s.still := by
  unfold tlSet
  dsimp only
  simp [apply_ite State.still]

@[simp] theorem lastHit_still (m p : Nat) (h : HitInfo) : (lastHit s m p h).still = s.still := by
  unfold lastHit
  split <;> rfl

@[simp] theorem placeEntry_still (m p : Nat) (b : List Word) (h : HitInfo) : (placeEntry s m p b h).still = s.still := by
  unfold placeEntry
  dsimp only
  split
  · rfl
  · split
    · simp
    · split
      · simp
      · obtain ⟨at_, pos, stamp, before⟩ := h
        cases at_ <;> simp [apply_ite State.still]

@[simp] theorem fireActions_still (m p : Nat) (b : List Word) (h : HitInfo) : (fireActions s m p b h).still = s.still := by
  unfold fireActions
  dsimp only
  simp [apply_ite State.still]

@[simp] theorem matchHit_still (p : Nat) (x : Nat × HitInfo) : (matchHit p s x).still = s.still := by
  unfold matchHit
  dsimp only
  simp [apply_ite State.still]

/-! Counting a unit, and what its counting brings. -/

@[simp] theorem fecCount_still (p : Nat) (u : RxUnit) : (fecCount s p u).still = s.still := by
  unfold fecCount
  dsimp only
  split
  · simp
  · split
    · simp
    · simp

@[simp] theorem State.pchk_still (l : List (Nat × List Nat)) : ({ s with pchk := l } : State).still = s.still := (rfl)

@[simp] theorem pchkUnit_still (p ui : Nat) (bad : List Nat) : (pchkUnit s p ui bad).still = s.still := by
  unfold pchkUnit
  dsimp only
  split
  · rfl
  · rw [State.pchk_still]
    simp

@[simp] theorem skpDue_still (p pos : Nat) : (skpDue s p pos).still = s.still := by
  unfold skpDue
  split <;> simp

@[simp] theorem f5Burst_still (p pos : Nat) : (f5Burst s p pos).still = s.still := by
  unfold f5Burst
  dsimp only
  split
  · split <;> simp
  · rfl

@[simp] theorem unitUnstaged_still (p : Nat) (h : HeldUnit) : (unitUnstaged s p h).still = s.still := by
  unfold unitUnstaged
  dsimp only
  simp [apply_ite State.still]

@[simp] theorem calShow_still (n : Nat) : (calShow s n).still = s.still := by simp only [calShow, State.wr_still]
@[simp] theorem calSet_still (x st : Nat) : (calSet s x st).still = s.still := by simp only [calSet, calShow_still, State.wr_still]
@[simp] theorem calRewind_still (x : Nat) : (calRewind s x).still = s.still := by simp only [calRewind, State.wr_still, State.clr_still]
@[simp] theorem calDone_still (x : Nat) : (calDone s x).still = s.still := by simp [calDone]
@[simp] theorem setTrim_still (x i w : Nat) : (setTrim s x i w).still = s.still := by simp only [setTrim, State.wr_still]

@[simp] theorem calSwapDo_still (x : Nat) : (calSwapDo s x).still = s.still := by
  unfold calSwapDo
  dsimp only
  split
  · rfl
  · split
    · simp
    · split <;> simp

@[simp] theorem calLater_still (p : Nat) : (calLater s p).still = s.still := by
  unfold calLater
  dsimp only
  split_ifs <;> simp

/-! Delay lines. -/

@[simp] theorem dlyEmpty_still (p : Nat) : (dlyEmpty s p).still = s.still := (rfl)
@[simp] theorem setCellHold_still (q : Nat) (l : List (List Byte)) : (setCellHold s q l).still = s.still := (rfl)

@[simp] theorem cellSend_still (q : Nat) (b : List Byte) : (cellSend q s b).still = s.still := by
  unfold cellSend
  split <;> rfl

@[simp] theorem delayNone_still (p : Nat) (u : RxUnit) (line : List Byte) : (delayNone s p u line).still = s.still := by
  have hcharge (l : List (Fin 16 × List Byte)) : (s.each l fun s e => s.incSat .X_DLY_BYTES (s.rd .DLR_CFG_FIRST (p + 2 * e.1.val) / 1536) 128).still = s.still :=
    s.each_still _ _ fun s e => rfl
  have hsend (u : State) (l : List (Fin 16 × List Byte)) : (u.each l fun s e => cellSend (p + 2 * e.1.val) s (payN 64 e.2)).still = u.still :=
    u.each_still _ _ fun s e => by simp
  unfold delayNone
  dsimp only
  split_ifs <;> simp [hcharge, hsend]

/-! Words of the towers. -/

@[simp] theorem State.bursts_still (l : List Nat) : ({ s with bursts := l } : State).still = s.still := (rfl)

@[simp] theorem touch_still (A : Nat) (w : Bool) : (s.touch A w).still = s.still := by
  unfold State.touch
  dsimp only
  split <;> rfl

@[simp] theorem queueSoft_still (k : RowKey) : (s.queueSoft k).still = s.still := by
  unfold State.queueSoft
  split <;> rfl

@[simp] theorem logErr_still (A kind src syn : Nat) : (logErr s A kind src syn).still = s.still := by
  unfold logErr
  dsimp only
  split <;> simp [State.logRecount]

@[simp] theorem countCe_still (A src kind syn : Nat) : (countCe s A src kind syn).still = s.still := by
  unfold countCe
  dsimp only
  split_ifs <;> simp

@[simp] theorem countUe_still (A src : Nat) (c : Code) : (countUe s A src c).still = s.still := by simp [countUe]

@[simp] theorem readWord_still (src A : Nat) : (readWord s src A).2.still = s.still := by
  unfold readWord
  dsimp only
  split
  · simp
  · simp
  · dsimp only
    split
    · simp
    · exact (State.bursts_still _ _).trans (by simp)
  · simp

@[simp] theorem readBytes_still (src A n : Nat) : (readBytes s src A n).2.2.still = s.still :=
  readBytes_keeps s (fun u => u.still = s.still) (fun u _ _ h => (readWord_still u _ _).trans h) src A n rfl

@[simp] theorem writeWords_still (A : Nat) (l : List Byte) : (writeWords s A l).still = s.still :=
  s.each_still _ _ fun s _ => by simp [writeWord]

end Sys2Proof.Machine
end

section
/-! The steps of a received unit, each with the registers that a unit moves while its path keeps its mode: the delay line, the injection stage, the press's records. -/
namespace Sys2Proof.Machine
variable {s t u : State}

/-- The registers that a unit moves while its path keeps its mode: those of its capture, its injection stage, its matchers, its delay line, its checks and the rotation on its
receiver. -/
def passFlds : List Fld := eccFlds ++ logFlds ++ entFlds ++ lineFlds ++ calFlds ++ ([.PATH_DISC_COUNT, .STRM_CFG_ON, .STRM_CFG_PEND, .X_CAP_FROM, .FLT_CNT_COUNT, .IDE_STAT_MACFAIL,
  .IDE_STAT_SYNC, .X_IDE_LAST, .X_IDE_OFF, .X_CW_CLEAN, .X_TS_CUT, .X_INJ_NPOS, .X_SKP_V, .F5_STAT_SKIP, .MATCH_CNT_COUNT, .MATCH_LEP_EPOCH, .MATCH_LPOS_POS, .MATCH_STAT_ACTSKIP,
  .MATCH_STAT_LASTPATH, .MATCH_STAT_OVF, .X_M_CYC, .X_M_FIRED, .X_ITEM, .X_EDS, .FEC_CORR_COUNT, .FEC_CW_COUNT, .FEC_SYM_COUNT, .FEC_UNC_COUNT, .X_FEC_ACC, .X_CW, .PATH_PCHK_ERRS,
  .PATH_PCHK_LOCK, .X_PCHK_RUN, .PATH_DLY_CELLS, .PATH_DLYSTAT_FILL, .X_DLYH_V, .X_DLYP_V, .X_DLY_BYTES, .X_DLY_CNT, .X_DLY_EFF, .X_DLY_IN, .X_DLY_LO, .CAL_SLC_ROLE, .CAL_SLC_GAIN,
  .CAL_SLC_PAIR, .CAL_OFS_OFS, .CAL_LCNT_RUNS, .CAL_LSTAT_TLAST_A, .CAL_LSTAT_TLAST_B, .X_CAL_CONS, .X_SWITCHED] : List Fld)

/-- t is s but for those registers and for what is neither a register nor still. -/
def Passes (s t : State) : Prop := KeepsR s t.regs passFlds ∧ t.still = s.still

namespace Passes

theorem refl (s : State) : Passes s s := ⟨keepsR_refl s _, rfl⟩

theorem trans (h : Passes s t) (h' : Passes t u) : Passes s u :=
  ⟨fun f i hf => (h'.1 f i hf).trans (h.1 f i hf), h'.2.trans h.2⟩

theorem wr (h : Passes s t) {f : Fld} (hf : f ∈ passFlds) {i v : Nat} : Passes s (t.wr f i v) := ⟨wr_k hf h.1, h.2⟩

/-! What is neither a register nor still may change. -/

theorem emit (h : Passes s t) {o : Out} : Passes s (t.emit o) := ⟨h.1, h.2⟩
theorem emitTx (h : Passes s t) {p : Nat} {o : Out} : Passes s (t.emitTx p o) := ⟨h.1, h.2⟩
theorem setHeld (h : Passes s t) {p : Nat} {l : List HeldUnit} : Passes s (t.setHeld p l) := ⟨h.1, h.2⟩
theorem setItems (h : Passes s t) {p : Nat} {l : List Item} : Passes s (t.setItems p l) := ⟨h.1, h.2⟩
theorem setStrikes (h : Passes s t) {q : Nat} {l : List (Nat × Nat)} : Passes s (t.setStrikes q l) := ⟨h.1, h.2⟩
theorem setCellHold (h : Passes s t) {q : Nat} {l : List (List Byte)} : Passes s (setCellHold t q l) := ⟨h.1, h.2⟩
theorem dly (h : Passes s t) {l : List (Nat × List Nat)} : Passes s { t with dly := l } := ⟨h.1, h.2⟩
theorem freeCtr (h : Passes s t) {n : Nat} : Passes s { t with freeCtr := n } := ⟨h.1, h.2⟩

theorem ite {c : Prop} [Decidable c] (h : Passes s t) (h' : Passes s u) : Passes s (if c then t else u) := by split <;> assumption

/-- A fold whose every step passes passes; the state is a part of what is folded. -/
theorem foldl {α β : Type} (π : β → State) (f : β → α → β) (h : ∀ b a, Passes (π b) (π (f b a))) (l : List α) (b : β) : Passes (π b) (π (l.foldl f b)) :=
  List.foldlRecOn (motive := fun c => Passes (π b) (π c)) l f (refl _) fun c hc a _ => hc.trans (h c a)

theorem each {α : Type} (l : List α) (f : State → α → State) (h : ∀ s a, Passes s (f s a)) : Passes s (s.each l f) := foldl id f h l s

end Passes

variable (s : State)

theorem injDone_passes (e pos outcome : Nat) : Passes s (injDone s e pos outcome) := ⟨injDone_k (by decide) (keepsR_refl s _), injDone_still s _ _ _⟩
theorem raise_passes (a b c : Nat) : Passes s (s.raise a b c) := ⟨raise_k (by decide) (keepsR_refl s _), State.raise_still s _ _ _⟩
theorem readWord_passes (src A : Nat) : Passes s (readWord s src A).2 := ⟨readWord_k (by decide) (keepsR_refl s _), readWord_still s _ _⟩

/-! Delay lines (R152 to R155, R414). -/

theorem readBytes_passes (src A n : Nat) : Passes s (readBytes s src A n).2.2 :=
  readBytes_keeps s (Passes s) (fun u _ _ h => h.trans (readWord_passes u _ _)) src A n (.refl s)

theorem readCell_passes (q i : Nat) : Passes s (readCell s q i).2 := by
  have hread := readBytes_passes s 1 (s.cellAddr q i) 64
  have hevent (u : State) : Passes u (pathEventNext u q msgUNCORR) := ⟨pathEventNext_k (by decide) (keepsR_refl u _), by simp [pathEventNext]⟩
  unfold readCell
  dsimp only
  exact .ite hread (hread.trans (hevent _))

theorem cellOut_passes (q : Nat) : Passes s (cellOut s q) := (readCell_passes s q _).setCellHold

theorem cellsKeep_passes (q new : Nat) : Passes s (cellsKeep s q new) :=
  (Passes.foldl id _ (fun u (_ : Nat) => cellOut_passes u q) _ s).setCellHold.wr (by decide)

theorem dlyChange_passes (p cells : Nat) : Passes s (dlyChange s p cells) := by
  have hkeep : Passes s (s.each (s.linkPaths p) fun u q => cellsKeep u q (s.cellsInForce p cells)) := .each _ _ fun u q => cellsKeep_passes u q _
  unfold dlyChange
  dsimp only
  exact (((hkeep.wr (by decide)).dly.wr (by decide)).wr (by decide)).trans (.each _ _ fun u q => (Passes.refl u).wr (by decide))

theorem dlyDue_passes (p pos stamp : Nat) : Passes s (dlyDue s p pos stamp) := by
  have hcancel (u : State) : Passes u (cancelAction u p pos) := ⟨cancelAction_k (by decide) (keepsR_refl u _), cancelAction_still u p pos⟩
  have hhost : Passes s (if s.on .X_DLYH_V p && posReached pos (s.rd .X_DLYH_POS p) then
      (if (s.clr .X_DLYH_V p).mode p = mDELAY then dlyChange (s.clr .X_DLYH_V p) p ((s.clr .X_DLYH_V p).rd .PATH_DLY_CELLS p) else s.clr .X_DLYH_V p) else s) :=
    have hclr : Passes s (s.clr .X_DLYH_V p) := .wr (.refl s) (by decide)
    .ite (.ite (hclr.trans (dlyChange_passes _ p _)) hclr) (.refl s)
  refine hhost.trans ?_
  unfold dlyDue
  dsimp only
  refine .ite ?_ (.refl _)
  have hclr (u : State) : Passes u (u.clr .X_DLYP_V p) := .wr (.refl u) (by decide)
  exact .ite (((hclr _).wr (by decide)).trans (dlyChange_passes _ p _)) ((hclr _).trans (hcancel _))

theorem cellSend_passes (q : Nat) (b : List Byte) : Passes s (cellSend q s b) := ⟨cellSend_k (keepsR_refl s _), cellSend_still s q b⟩

theorem cellNext_passes (q : Nat) : Passes s (cellNext s q) :=
  ((Passes.refl s).setCellHold.trans (cellSend_passes _ q _)).wr (by decide)

theorem delayCell_passes (p : Nat) (e : Fin 16 × List Byte) : Passes s (delayCell p s e) := by
  have hroom (u : State) (c : Prop) [Decidable c] (q t : Nat) : Passes u (if c then (cellOut u q).incSat .X_DLY_BYTES t 64 else u) :=
    .ite ((cellOut_passes u q).wr (by decide)) (.refl u)
  have hsend (u : State) (c d : Prop) [Decidable c] [Decidable d] (q : Nat) (o : Out) : Passes u (if c then cellNext u q else if d then u else u.emitTx q o) :=
    .ite (cellNext_passes u q) (.ite (.refl u) (Passes.refl u).emitTx)
  have hstore (u : State) (A : Nat) (l : List Byte) : Passes u (writeWords u A l) := ⟨writeWords_k (keepsR_refl u _), writeWords_still u A l⟩
  unfold delayCell
  dsimp only
  split
  · exact .refl s
  · exact ((((hroom s _ _ _).trans (hsend _ _ _ _ _)).trans (hstore _ _ _)).wr (by decide)).wr (by decide) |>.wr (by decide)

theorem delayUnit_passes (p : Nat) (u : RxUnit) (line : List Byte) : Passes s (delayUnit s p u line) := by
  have hcells : Passes s (u.cells.foldl (delayCell p) s) := .each _ _ fun s e => delayCell_passes s p e
  unfold delayUnit
  dsimp only
  split
  · exact ⟨delayNone_k (by decide) (keepsR_refl s _), delayNone_still s p u line⟩
  · refine hcells.trans (.ite (.refl _) (.ite ?_ ?_))
    · exact (Passes.refl _).dly.wr (by decide)
    · exact (Passes.refl _).dly

/-! The injection stage (R335, R342 to R349). -/

theorem alterOne_passes (p : Nat) (t : Target) (a : AlterAcc) (e : Nat) : Passes a.s (alterOne p t a e).s := by
  unfold alterOne
  dsimp only
  split
  · exact injDone_passes a.s e _ _
  · split
    · exact injDone_passes a.s e _ _
    · split
      · exact injDone_passes a.s e _ _
      · exact .ite ((injDone_passes a.s e _ _).trans (raise_passes _ _ _ _)) (injDone_passes a.s e _ _)

theorem applyTarget_passes (p : Nat) (x : State × List SendUnit) (t : Target) (es : List Nat) : Passes x.1 (applyTarget p x t es).1 := by
  have hdone (u : State) (l : List Nat) (o : Nat) : Passes u (l.foldl (fun s e => injDone s e t.pos o) u) := .each l _ fun u e => injDone_passes u e _ _
  unfold applyTarget
  dsimp only
  split
  · exact ((hdone _ _ _).trans (injDone_passes _ _ _ _)).trans (hdone _ _ _)
  · exact ((hdone _ _ _).trans (Passes.foldl AlterAcc.s _ (alterOne_passes p t) _ _)).trans (hdone _ _ _)

theorem applyInsert_passes (p : Nat) (x : State × List SendUnit) (e : Nat) : Passes x.1 (applyInsert p x e).1 := by
  have hwait (f i v : Nat) : Passes x.1 ((x.1.set .X_INJ_REACH i).wr .X_INJ_NPOS f v) := .wr (.wr (.refl _) (by decide)) (by decide)
  unfold applyInsert
  dsimp only
  split
  · exact .refl _
  · split
    · exact injDone_passes x.1 e _ _
    · split
      · exact injDone_passes x.1 e _ _
      · split
        · rw [apply_ite Prod.fst]
          exact .ite (injDone_passes x.1 e _ _) (hwait _ _ _)
        · exact hwait _ _ _

theorem resolve_passes (p : Nat) (us : List SendUnit) (acc : List (Tgt × Nat) × State) (e : Nat) : Passes acc.2 (resolve p us acc e).2 := by
  unfold resolve
  dsimp only
  split
  · exact .refl _
  · exact injDone_passes acc.2 e _ _
  · split
    · exact injDone_passes acc.2 e _ _
    · split
      · exact injDone_passes acc.2 e _ _
      · exact .refl _
  · exact .refl _

theorem applyClean_passes (p : Nat) (us : List SendUnit) (u : HeldUnit) (e : Nat) : Passes s (applyClean p us u s e) :=
  ⟨applyClean_k (by decide) (keepsR_refl s _), applyClean_still s p us u e⟩

theorem applyEntries_passes (p : Nat) (us : List SendUnit) : Passes s (applyEntries s p us).1 := by
  have hclean (l : List Nat) : Passes s (l.foldl (fun s e => match s.namedAt us e with
      | some i => (match us[i]? with | some x => applyClean p us x.u s e | none => s)
      | none => s) s) := .each l _ fun u e => by
    split
    · split
      · exact applyClean_passes u p us _ e
      · exact .refl u
    · exact .refl u
  unfold applyEntries
  dsimp only
  refine .trans ?_ (Passes.foldl Prod.fst _ (applyInsert_passes p) _ _)
  refine .trans ?_ (Passes.foldl Prod.fst _ (fun x t => ?_) _ _)
  · exact (hclean _).trans (Passes.foldl Prod.snd _ (resolve_passes p us) _ _)
  · split
    · exact applyTarget_passes p x _ _
    · exact .refl _

theorem strikeLane_passes (p bits : Nat) (u : HeldUnit) (x : State × List Byte) (lane : Nat) : Passes x.1 (strikeLane p bits u x lane).1 := by
  unfold strikeLane
  dsimp only
  split
  · exact .refl _
  · refine .trans ?_ (Passes.foldl Prod.fst _ (fun y b => ?_) _ _)
    · exact (Passes.refl _).setStrikes
    · split
      · exact .refl _
      · split
        · exact .refl _
        · exact (Passes.refl _).emit

theorem regenPiece_passes (p : Nat) (x : List Byte × State) (pc : Piece) : Passes x.2 (regenPiece p x pc).2 := by
  unfold regenPiece
  dsimp only
  split
  · refine Passes.foldl Prod.snd _ (fun y _ => ?_) _ _
    exact (Passes.refl y.2).freeCtr
  · split <;> exact .refl _

theorem regen_passes (p : Nat) (retimed : Bool) (u : HeldUnit) (l : List Byte) : Passes s (regen s p retimed u l).2 := by
  unfold regen
  split
  · exact Passes.foldl Prod.snd _ (regenPiece_passes p) _ _
  · exact .refl s

theorem transmit_passes (p : Nat) (line : List Byte) (reenc : Bool) : Passes s (transmit s p line reenc) :=
  ⟨transmit_k (by decide) (keepsR_refl s _), transmit_still s p line reenc⟩

theorem sendUnit_passes (p : Nat) (retimed : Bool) (x : SendUnit) : Passes s (sendUnit p retimed s x) := by
  have hburst : Passes s (startBursts s p x.u) := ⟨startBursts_k (by decide) (keepsR_refl s _), startBursts_still s p x.u⟩
  have hclean (u : State) : Passes u (noteClean u p x.u) := ⟨noteClean_k (keepsR_refl u _), noteClean_still u p x.u⟩
  have hlanes (y : State × List Byte) (l : List Nat) (bits : Nat) : Passes y.1 (l.foldl (strikeLane p bits x.u) y).1 := .foldl Prod.fst _ (strikeLane_passes p bits x.u) l y
  unfold sendUnit
  dsimp only
  refine ((hburst.trans (hlanes (_, x.content) _ _)).trans (hclean _)).trans (.ite (.ite ?_ (.refl _)) ?_)
  · exact ((Passes.wr (.refl _) (by decide)).trans (regen_passes _ _ _ _ _)).trans (transmit_passes _ _ _ _)
  · exact (regen_passes _ _ _ _ _).trans (transmit_passes _ _ _ _)

theorem fireHeld_passes (p : Nat) (us : List HeldUnit) : Passes s (fireHeld s p us) :=
  .ite (.refl s) ((applyEntries_passes s p _).trans (.each _ _ fun u x => sendUnit_passes u p _ x))

/-! The press (R356, R368 to R372, R385). -/

theorem failItem_passes (p : Nat) (it : Item) (e : Option Failure) : Passes s (failItem s p it e) :=
  ⟨failItem_k (by decide) (keepsR_refl s _), failItem_still s p it e⟩

theorem failRec_passes (p pos stamp : Nat) (valid : Bool) (e : Option Failure) : Passes s (failRec s p pos stamp valid e) :=
  ⟨failRec_k (by decide) (keepsR_refl s _), failRec_still s p pos stamp valid e⟩

theorem recordUnit_passes (p pos stamp : Nat) (valid : Bool) (f : Option FiltSet) (cls : Nat) (fails : Bool) (hits : List Nat) (form : List Byte) (raw dec : Bool) :
    Passes s (recordUnit s p pos stamp valid f cls fails hits form raw dec) :=
  ⟨recordUnit_k (by decide) (keepsR_refl s _), recordUnit_still s p pos stamp valid f cls fails hits form raw dec⟩

theorem applyCaps_passes (p pos stamp : Nat) (valid : Bool) : Passes s (applyCaps s p pos stamp valid) :=
  ⟨applyCaps_k (by decide) (keepsR_refl s _), applyCaps_still s p pos stamp valid⟩

theorem ideItem_passes (p : Nat) (items : List Item) (it : Item) : Passes s (ideItem s p items it).2 := by
  have hlost (k b : Nat) : Passes s (((s.wrBit .X_IDE_OFF k b true).clr .IDE_STAT_SYNC k).incSat .IDE_STAT_MACFAIL k 1) :=
    .wr (.wr (.wr (.refl s) (by decide)) (by decide)) (by decide)
  unfold ideItem
  dsimp only
  split
  · exact .refl s
  · split
    · exact .refl s
    · split
      · exact .refl s
      · split
        · exact hlost _ _
        · split
          · exact .refl s
          · exact .wr (.refl s) (by decide)
          · exact hlost _ _

theorem itemErrors_passes (p : Nat) (items : List Item) (x : Pressed) (it : Item) : Passes x.s (itemErrors p items x it).s := by
  have hide := ideItem_passes x.s p items it
  unfold itemErrors
  split <;> rename_i he <;> rw [he] at hide
  · exact hide.trans (failItem_passes _ p it _)
  · exact hide.trans (failItem_passes _ p it _)
  · exact (hide.trans (failItem_passes _ p it _)).trans (failItem_passes _ p it _)

theorem recordItem_passes (p : Nat) (items : List Item) (f : Option FiltSet) (x : Pressed) (it : Item) : Passes x.s (recordItem p items f x it).s :=
  (itemErrors_passes p items x it).trans (recordUnit_passes _ _ _ _ _ _ _ _ _ _ _ _)

theorem pressRaw_passes (p : Nat) (items : List Item) (x : Pressed) (u : HeldUnit) : Passes x.s (pressRaw p items x u).s :=
  ((Passes.each _ _ fun s (it : Item) => failItem_passes s p it it.err).trans (failRec_passes _ _ _ _ _ _)).trans (recordUnit_passes _ _ _ _ _ _ _ _ _ _ _ _)

theorem pressFlit_passes (p : Nat) (items : List Item) (x : Pressed) (u : HeldUnit) : Passes x.s (pressFlit p items x u).s :=
  (Passes.foldl Pressed.s _ (itemErrors_passes p items) _ x).trans (recordUnit_passes _ _ _ _ _ _ _ _ _ _ _ _)

theorem pressBlock_passes (p : Nat) (items : List Item) (u : HeldUnit) (cap : Bool) (x : Pressed) (i : Nat) : Passes x.s (pressBlock p items u cap x i).s := by
  unfold pressBlock
  dsimp only
  split
  · exact .foldl Pressed.s _ (recordItem_passes p items _) _ x
  · split
    · exact (Passes.foldl Pressed.s _ (itemErrors_passes p items) _ x).trans (recordUnit_passes _ _ _ _ _ _ _ _ _ _ _ _)
    · exact .foldl Pressed.s _ (itemErrors_passes p items) _ x

end Sys2Proof.Machine
end

section
/-! The steps of a received unit, put together: the press, the injection stage, the matchers and forwarding. -/
namespace Sys2Proof.Machine
variable (s : State)

/-! A unit through the press and the injection stage. -/

theorem pressHeld_passes (p : Nat) (items : List Item) (x : Pressed) (u : HeldUnit) : Passes x.s (pressHeld p items x u).s := by
  unfold pressHeld
  extract_lets s cap caps raw y ended
  have hy : Passes x.s y.s := (applyCaps_passes x.s p u.pos u.stamp u.valid).trans (.ite (failRec_passes _ _ _ _ _ _) (.refl s))
  refine hy.trans ?_
  clear_value y cap raw
  split_ifs
  · exact pressRaw_passes p items y u
  · exact .refl _
  · exact recordUnit_passes _ _ _ _ _ _ _ _ _ _ _ _
  · exact .refl _
  · exact .refl _
  · exact Passes.foldl Pressed.s _ (pressBlock_passes p items u cap) _ y
  · exact pressFlit_passes p items y u
  · exact .refl _
  · exact .refl _
  · exact Passes.foldl Pressed.s _ (recordItem_passes p items _) _ y

theorem pressAll_passes (p : Nat) : Passes s (pressAll s p) := by
  unfold pressAll
  dsimp only
  have hpress (c : Prop) [Decidable c] (t : State) (items : List Item) (l : List HeldUnit) :
      Passes t (if c then (l.foldl (pressHeld p items) ⟨t, [], []⟩).s else t) :=
    .ite (Passes.foldl Pressed.s _ (pressHeld_passes p items) l ⟨t, [], []⟩) (.refl t)
  have hset (t : State) (l : List HeldUnit) : Passes t (t.setHeld p l) := (Passes.refl t).setHeld
  refine .ite ((hset s _).trans (hpress _ _ _ _)) ?_
  exact ((hset s _).trans (hpress _ _ _ _)).setItems

theorem releaseHeld_passes (p : Nat) : Passes s (releaseHeld s p) :=
  .ite (.refl s) (((pressAll_passes s p).setHeld.trans (fireHeld_passes _ p _)).setItems)

theorem passStage_passes (p : Nat) : Passes s (passStage s p) := (Passes.refl s).setHeld.trans (fireHeld_passes _ p _)

theorem settle_passes (p : Nat) : Passes s (settle s p) := .ite (.refl s) (.ite (passStage_passes s p) (releaseHeld_passes s p))

theorem pressDecided_passes (p : Nat) : Passes s (pressDecided s p) := .ite (pressAll_passes s p) (.refl s)

/-! What counts, matches and sends a unit. -/

theorem matchHit_passes (p : Nat) (x : Nat × HitInfo) : Passes s (matchHit p s x) := ⟨matchHit_k (by decide) (keepsR_refl s _), matchHit_still s p x⟩
theorem pollWaits_passes : Passes s (pollWaits s) := ⟨pollWaits_k (keepsR_refl s _), pollWaits_still s⟩
theorem calLater_passes (p : Nat) : Passes s (calLater s p) := ⟨calLater_k (by decide) (keepsR_refl s _), calLater_still s p⟩
theorem cancelUnspliced_passes (p pos stamp : Nat) : Passes s (cancelUnspliced s p pos stamp) :=
  ⟨cancelUnspliced_k (by decide) (keepsR_refl s _), cancelUnspliced_still s p pos stamp⟩
theorem skpDue_passes (p pos : Nat) : Passes s (skpDue s p pos) := ⟨skpDue_k (by decide) (keepsR_refl s _), skpDue_still s p pos⟩
theorem f5Burst_passes (p pos : Nat) : Passes s (f5Burst s p pos) := ⟨f5Burst_k (by decide) (keepsR_refl s _), f5Burst_still s p pos⟩
theorem fecCount_passes (p : Nat) (u : RxUnit) : Passes s (fecCount s p u) := ⟨fecCount_k (by decide) (keepsR_refl s _), fecCount_still s p u⟩
theorem pchkUnit_passes (p ui : Nat) (bad : List Nat) : Passes s (pchkUnit s p ui bad) := ⟨pchkUnit_k (by decide) (keepsR_refl s _), pchkUnit_still s p ui bad⟩
theorem unitUnstaged_passes (p : Nat) (h : HeldUnit) : Passes s (unitUnstaged s p h) := ⟨unitUnstaged_k (by decide) (keepsR_refl s _), unitUnstaged_still s p h⟩

theorem tapUnit_passes (p : Nat) (u : RxUnit) : Passes s (tapUnit s p u) := by
  unfold tapUnit
  dsimp only
  have hheld (t : State) (i : List Item) (n e : Nat) (l : List HeldUnit) : Passes t ((((t.setItems p i).wr .X_ITEM p n).wr .X_EDS p e).setHeld p l) :=
    ((((Passes.refl t).setItems).wr (by decide)).wr (by decide)).setHeld
  have hhits (t : State) (l : List (Nat × HitInfo)) : Passes t (if l = [] then l.foldl (matchHit p) t else pollWaits (l.foldl (matchHit p) t)) :=
    have h : Passes t (l.foldl (matchHit p) t) := .each l _ fun t x => matchHit_passes t p x
    .ite h (h.trans (pollWaits_passes _))
  exact ((hheld s _ _ _ _).trans (hhits _ _)).trans (pressDecided_passes _ p)

theorem forwardUnit_passes (p : Nat) (u : RxUnit) (h : HeldUnit) : Passes s (forwardUnit s p u h) := by
  unfold forwardUnit
  dsimp only
  split_ifs
  · exact .wr (.refl s) (by decide)
  · exact (Passes.refl s).emit
  · exact .refl s
  · exact (Passes.refl s).emitTx
  · exact (Passes.refl s).emitTx
  · exact delayUnit_passes s p u h.line
  · exact .refl s
  · exact (regen_passes s p _ h _).trans (transmit_passes _ p _ false)

end Sys2Proof.Machine
end

section
/-! A link's change of rate (R98) and the ports of a link send nothing, and move no memory. -/
namespace Sys2Proof.Machine
variable (s : State)

/-! Receivers that adapt anew, and what the transceivers of a link show. -/

@[simp] theorem calSet_quiet (x st : Nat) : (calSet s x st).quiet = s.quiet := by simp only [calSet, calShow, State.wr_quiet]
@[simp] theorem calRewind_quiet (x : Nat) : (calRewind s x).quiet = s.quiet := by simp only [calRewind, State.wr_quiet, State.clr_quiet]

@[simp] theorem calPause_quiet (x : Nat) : (calPause s x).quiet = s.quiet := by
  unfold calPause
  split
  · simp
  · rfl

@[simp] theorem rxRated_quiet (r : Nat) : (rxRated s r).quiet = s.quiet := by simp [rxRated]

@[simp] theorem rateChanged_quiet (L : Nat) : (rateChanged s L).quiet = s.quiet :=
  s.each_quiet _ _ fun s _ => s.each_quiet _ _ rxRated_quiet

@[simp] theorem rxRoles_quiet (x : Nat) (pam : Bool) : (rxRoles s x pam).quiet = s.quiet := by
  unfold rxRoles
  dsimp only
  split
  · rfl
  · exact s.each_quiet _ _ fun s e => rfl

@[simp] theorem refreshPort_quiet (r : Nat) : (refreshPort s r).quiet = s.quiet := by
  unfold refreshPort
  dsimp only
  simp [apply_ite State.quiet]

@[simp] theorem refreshLink_quiet (n : Nat) : (refreshLink s n).quiet = s.quiet :=
  s.each_quiet _ _ fun s _ => s.each_quiet _ _ refreshPort_quiet

@[simp] theorem rateSwitch_quiet (L : Nat) : (rateSwitch s L).quiet = s.quiet := by
  unfold rateSwitch
  split <;> simp

theorem eiosSeen_quiet (p : Nat) (u : RxUnit) : (eiosSeen s p u).quiet = s.quiet := by
  unfold eiosSeen
  split
  · split <;> simp
  · rfl

end Sys2Proof.Machine
end

section
/-! What a switch of mode leaves alone (R77 to R86), the change that it takes up excepted. -/
namespace Sys2Proof.Machine
variable (s : State)

@[simp] theorem rateChanged_still (L : Nat) : (rateChanged s L).still = s.still := still_of_quiet (rateChanged_quiet s L)
@[simp] theorem refreshPort_still (r : Nat) : (refreshPort s r).still = s.still := still_of_quiet (refreshPort_quiet s r)
@[simp] theorem refreshLink_still (n : Nat) : (refreshLink s n).still = s.still := still_of_quiet (refreshLink_quiet s n)

/-! A link whose pairing has changed. -/

@[simp] theorem laneJoin_still (L m : Nat) : (laneJoin s L m).still = s.still := by simp [laneJoin]

@[simp] theorem enterDetect_still (L : Nat) : (enterDetect s L).still = s.still := by
  have hlanes (u : State) (l : List Nat) : (u.each l fun s n =>
      (if s.on .X_LANE_IDLE n then laneJoin s L n else s).each (lanePorts n) fun s r => refreshPort ((s.clr .X_PRECODE r).clr .X_EQ_DONE r) r).still = u.still :=
    u.each_still _ _ fun s n => (State.each_still _ _ _ fun s r => by simp).trans (by simp [apply_ite State.still])
  refine (hlanes _ _).trans ?_
  simp [apply_ite State.still]

@[simp] theorem segEnter_still (L side st : Nat) : (segEnter s L side st).still = s.still := by simp [segEnter, apply_ite State.still]

@[simp] theorem segsChanged_still (n L : Nat) (wasR : Bool) : (segsChanged s n L wasR).still = s.still := by simp [segsChanged, apply_ite State.still]

@[simp] theorem ltDown_still (t : Nat) : (ltDown s t).still = s.still := by
  have hrated (u : State) (L side : Nat) : (u.each (u.termPorts L side) rxRated).still = u.still := u.each_still _ _ fun s r => still_of_quiet (rxRated_quiet s r)
  have hsent (u : State) (v : List (Nat × List LtTx)) : ({ u with ltSent := v } : State).still = u.still := rfl
  unfold ltDown
  dsimp only
  rw [hsent]
  simp [apply_ite State.still, ltRated, hrated]

@[simp] theorem ltDetect_still (L side : Nat) : (ltDetect s L side).still = s.still := by
  unfold ltDetect
  split
  · rfl
  · exact s.each_still _ _ fun s x => by simp [detectBegin, apply_ite State.still]

@[simp] theorem pairingChanged_still (n : Nat) (wasR : Bool) : (pairingChanged s n wasR).still = s.still := by
  unfold pairingChanged
  split
  · rfl
  · refine (State.each_still _ _ _ fun s side => ?_).trans (by simp [apply_ite State.still])
    split
    · simp [apply_ite State.still]
    · rfl

/-! What an old mode held goes, and a new mode begins. -/

@[simp] theorem cancelDlySkp_still (p pos : Nat) : (cancelDlySkp s p pos).still = s.still := by simp [cancelDlySkp, apply_ite State.still]

@[simp] theorem cancelAll_still (p pos : Nat) : (cancelAll s p pos).still = s.still :=
  s.each_still _ _ fun s q => by
    have hskip (u : State) (l : List CapAct) : (l.foldl (fun s a => s.set .MATCH_STAT_ACTSKIP a.src) u).still = u.still := u.each_still l _ fun s a => by simp
    have hcancel (u : State) (l : List CapAct) : (l.foldl (fun s _ => cancelAction s q pos) u).still = u.still := u.each_still l _ fun s _ => by simp
    simp [hskip, hcancel]

@[simp] theorem dlyDrop_still (p : Nat) : (dlyDrop s p).still = s.still := by
  refine (State.each_still _ _ _ fun s q => ?_).trans ?_ <;> simp

@[simp] theorem dlyEnter_still (p : Nat) : (dlyEnter s p).still = s.still := by
  refine (State.each_still _ _ _ fun s q => ?_).trans ?_ <;> simp

@[simp] theorem pchkRestart_still (p : Nat) : (pchkRestart s p).still = s.still := (rfl)

@[simp] theorem calDrop_still (x : Nat) : (calDrop s x).still = s.still := by
  have hq (l : List Nat) : ({ s with calq := l } : State).still = s.still := rfl
  simp [calDrop, apply_ite State.still, hq]

@[simp] theorem rxOff_still (p : Nat) : (rxOff s p).still = s.still := s.each_still _ _ fun s q => by simp

@[simp] theorem posZero_still (p : Nat) : (posZero s p).still = s.still := by
  have hlanes (u : State) (l : List Nat) : (u.each l fun s q => genWaits ((s.clr .PATH_POS_POS q).incWrap .PATH_POS_GEN q 1) q).still = u.still :=
    u.each_still _ _ fun s q => by simp
  simp [posZero, hlanes]

/-- A replay that starts again (R392). Its definition is delta reduced as a function: the equation of its body would have the kernel compute the records that it looks at. -/
theorem rplRestart_cases (p : Nat) : ∃ r, rplRestart s p = s.setRpl p r ∨ ∃ q, rplRestart s p = (s.setRpl p r).wr .RPL_NEXT_SEQ p q := by
  have hdef : rplRestart = rplRestart := rfl
  conv_rhs at hdef => delta rplRestart
  rw [hdef]
  refine ⟨some (s.rplStart p), ?_⟩
  dsimp only
  generalize s.rplStart p = r
  cases rplFirst s p (s.punData (s.rd .RPL_CFG_PUN p) / 16) r.ofs with
  | none => exact .inl rfl
  | some q => exact .inr ⟨q, rfl⟩

@[simp] theorem rplRestart_still (p : Nat) : (rplRestart s p).still = s.still := by
  obtain ⟨r, h | ⟨q, h⟩⟩ := rplRestart_cases s p <;> rw [h] <;> simp

@[simp] theorem rplBegin_still (p : Nat) : (rplBegin s p).still = s.still := by simp [rplBegin]
@[simp] theorem modeEvent_still (p pos old new : Nat) : (modeEvent s p pos old new).still = s.still := by simp [modeEvent]
@[simp] theorem splitStep_still (n : Nat) : (splitStep s n).still = s.still := by simp [splitStep]

@[simp] theorem modeLeave_still (p pos old new : Nat) : (modeLeave s p pos old new).still = s.still := by
  have hrel : (releaseHeld s p).still = s.still := (releaseHeld_passes s p).2
  have hcancel (u : State) (l : List Nat) : (u.each l fun s q => cancelEntries s q pos fun s e => q == p || s.rd .INJ_ENT_INFO_ACT e == 7).still = u.still :=
    u.each_still _ _ fun s q => by simp
  simp [modeLeave, apply_ite State.still, hrel, hcancel]

@[simp] theorem modeEnter_still (p pos old new : Nat) : (modeEnter s p pos old new).still = s.still := by
  have hgo (u : State) (l : List Nat) : (u.each l fun s q => s.clr .X_PATH_STOPPED q).still = u.still := u.each_still _ _ fun s q => by simp
  have hlag (u : State) (l : List Nat) : (u.each l fun s m => if s.on .X_LANE_IDLE m then s.set .X_LANE_LAG m else s).still = u.still :=
    u.each_still _ _ fun s m => by simp [apply_ite State.still]
  simp [modeEnter, apply_ite State.still, hgo, hlag]

@[simp] theorem f5CapLeave_still (p pos new : Nat) : (f5CapLeave s p pos new).still = s.still := by simp [f5CapLeave, apply_ite State.still]
@[simp] theorem f5CapEnter_still (p pos : Nat) : (f5CapEnter s p pos).still = s.still := by simp [f5CapEnter, apply_ite State.still]

end Sys2Proof.Machine
end

section
/-! A received unit, a switch of mode included, moves the registers of unitFlds alone, and no memory but the towers. -/
namespace Sys2Proof.Machine
variable {s t u : State}

/-- The sequencers' memories, the NVM and the byte windows. -/
def State.chips (s : State) := (s.imem, s.dmem, s.nvm, s.win)

theorem chips_of_still (h : t.still = s.still) : t.chips = s.chips := by
  obtain ⟨himem, hdmem, hnvm, hwin, -⟩ := still_iff.mp h
  simp [State.chips, himem, hdmem, hnvm, hwin]

theorem chipSame_of_chips (h : t.chips = s.chips) : s.chipSame t := by
  obtain ⟨himem, hdmem, hnvm, hwin⟩ : t.imem = s.imem ∧ t.dmem = s.dmem ∧ t.nvm = s.nvm ∧ t.win = s.win := by simpa [State.chips] using h
  simp [State.chipSame, State.getI, State.getD, State.getNvm, State.getWin, himem, hdmem, hnvm, hwin]

/-- t is s but for the registers that a received unit moves, and for what is neither a register nor chip memory. -/
def Crosses (s t : State) : Prop := KeepsR s t.regs unitFlds ∧ t.chips = s.chips

namespace Crosses

theorem refl (s : State) : Crosses s s := ⟨keepsR_refl s _, rfl⟩

theorem trans (h : Crosses s t) (h' : Crosses t u) : Crosses s u :=
  ⟨fun f i hf => (h'.1 f i hf).trans (h.1 f i hf), h'.2.trans h.2⟩

theorem ite {c : Prop} [Decidable c] (h : Crosses s t) (h' : Crosses s u) : Crosses s (if c then t else u) := by split <;> assumption

theorem each {α : Type} (l : List α) (f : State → α → State) (h : ∀ s a, Crosses s (f s a)) : Crosses s (s.each l f) :=
  List.foldlRecOn (motive := fun c => Crosses s c) l f (refl _) fun c hc a _ => hc.trans (h c a)

/-- A step that leaves alone what a unit leaves alone. -/
theorem of_still (hk : KeepsR s t.regs unitFlds) (h : t.still = s.still) : Crosses s t := ⟨hk, chips_of_still h⟩

end Crosses

theorem passFlds_subset_unitFlds : passFlds ⊆ unitFlds := by
  have hall : passFlds.all (unitFlds.contains ·) = true := by decide
  intro f hf
  simpa using List.all_eq_true.mp hall f hf

theorem Passes.crosses (h : Passes s t) : Crosses s t := .of_still (fun f i hf => h.1 f i fun hp => hf (passFlds_subset_unitFlds hp)) h.2

variable (s : State)

theorem modeLeave_crosses (p pos old new : Nat) : Crosses s (modeLeave s p pos old new) := by
  have hrel : Crosses s (releaseHeld s p) := (releaseHeld_passes s p).crosses
  have hcancel (u : State) (l : List Nat) : Crosses u (u.each l fun s q => cancelEntries s q pos fun s e => q == p || s.rd .INJ_ENT_INFO_ACT e == 7) :=
    .each _ _ fun u q => .of_still (cancelEntries_k (by decide) (keepsR_refl u _)) (cancelEntries_still u q pos _)
  have hdrop (u : State) : Crosses u (dlyDrop u p) := .of_still (dlyDrop_k (by decide) (keepsR_refl u _)) (dlyDrop_still u p)
  have hclose (u : State) : Crosses u (closeRun u p) := .of_still (closeRun_k (by decide) (keepsR_refl u _)) (closeRun_still u p)
  have hoff (u : State) : Crosses u (capOff u p pos 3) := .of_still (capOff_k (by decide) (keepsR_refl u _)) (capOff_still u p pos 3)
  have hrpl (u : State) : Crosses u (u.setRpl p none) := ⟨keepsR_refl u _, rfl⟩
  have hif (c : Prop) [Decidable c] (f : State → State) (hf : ∀ u, Crosses u (f u)) (u : State) : Crosses u (if c then f u else u) := .ite (hf u) (.refl u)
  exact ((((hrel.trans (hif _ _ (fun u => hcancel u _) _)).trans (hif _ _ hdrop _)).trans (hif _ _ hclose _)).trans (hif _ _ hoff _)).trans (hif _ _ hrpl _)

theorem modeEnter_crosses (p pos old new : Nat) : Crosses s (modeEnter s p pos old new) := by
  have hgo : Crosses s (s.each (s.linkPaths p) fun s q => s.clr .X_PATH_STOPPED q) := .each _ _ fun u q => ⟨clr_k (by decide) (keepsR_refl u _), rfl⟩
  have hlag (u : State) (l : List Nat) : Crosses u (u.each l fun s m => if s.on .X_LANE_IDLE m then s.set .X_LANE_LAG m else s) :=
    .each _ _ fun u q => .ite ⟨set_k (by decide) (keepsR_refl u _), rfl⟩ (.refl u)
  have hcancel (u : State) : Crosses u (cancelAll u p pos) := .of_still (cancelAll_k (by decide) (keepsR_refl u _)) (cancelAll_still u p pos)
  have hzero (u : State) : Crosses u (posZero u p) := .of_still (posZero_k (by decide) (keepsR_refl u _)) (posZero_still u p)
  have hoff (u : State) : Crosses u (rxOff u p) := .of_still (rxOff_k (by decide) (keepsR_refl u _)) (rxOff_still u p)
  have hdelay (u : State) : Crosses u (dlyEnter u p) := .of_still (dlyEnter_k (by decide) (keepsR_refl u _)) (dlyEnter_still u p)
  have hrpl (u : State) : Crosses u (rplBegin u p) := by
    refine .of_still ?_ (rplBegin_still u p)
    obtain ⟨r, h | ⟨q, h⟩⟩ := rplRestart_cases u p
    · exact (congrArg (fun v => KeepsR u (v.clr .RPL_STAT_DONE p).regs unitFlds) h).mpr (clr_k (by decide) (keepsR_refl u _))
    · exact (congrArg (fun v => KeepsR u (v.clr .RPL_STAT_DONE p).regs unitFlds) h).mpr (clr_k (by decide) (wr_k (by decide) (keepsR_refl u _)))
  have hif (c : Prop) [Decidable c] (f : State → State) (hf : ∀ u, Crosses u (f u)) (u : State) : Crosses u (if c then f u else u) := .ite (hf u) (.refl u)
  exact ((((hgo.trans (hlag _ _)).trans (hif _ _ (fun u => (hzero u).trans (hcancel _)) _)).trans (hif _ _ (fun u => (hcancel u).trans (hoff _)) _)).trans
    (hif _ _ hdelay _)).trans (hif _ _ hrpl _)

theorem modeFld_mem_unitFlds (p : Nat) : modeFld p ∈ unitFlds := by unfold modeFld; split <;> decide
theorem pendFld_mem_unitFlds (p : Nat) : pendFld p ∈ unitFlds := by unfold pendFld; split <;> decide

theorem switchMode_crosses (p pos : Nat) : Crosses s (switchMode s p pos) := by
  have hchg (u : State) (v : Option ModeChg) : Crosses u (u.setChg p v) := ⟨keepsR_refl u _, rfl⟩
  have hclr (u : State) (i : Nat) : Crosses u (u.clr (pendFld p) i) := ⟨clr_k (pendFld_mem_unitFlds p) (keepsR_refl u _), rfl⟩
  have hwr (u : State) (i v : Nat) : Crosses u (u.wr (modeFld p) i v) := ⟨wr_k (modeFld_mem_unitFlds p) (keepsR_refl u _), rfl⟩
  have hsplit (u : State) (n : Nat) : Crosses u (splitStep u n) := .of_still (splitStep_k (by decide) (keepsR_refl u _)) (splitStep_still u n)
  have hevent (u : State) (old new : Nat) : Crosses u (modeEvent u p pos old new) := .of_still (modeEvent_k (by decide) (keepsR_refl u _)) (modeEvent_still u p pos old new)
  have hleave (u : State) (new : Nat) : Crosses u (f5CapLeave u p pos new) := .of_still (f5CapLeave_k (by decide) (keepsR_refl u _)) (f5CapLeave_still u p pos new)
  have henter (u : State) : Crosses u (f5CapEnter u p pos) := .of_still (f5CapEnter_k (by decide) (keepsR_refl u _)) (f5CapEnter_still u p pos)
  have hswitched (u : State) (l : List Nat) : Crosses u (u.each l fun s q => s.set .X_SWITCHED q) := .each _ _ fun u q => ⟨set_k (by decide) (keepsR_refl u _), rfl⟩
  have hpair (u : State) (n : Nat) (r : Bool) : Crosses u (pairingChanged u n r) := .of_still (pairingChanged_k (by decide) (keepsR_refl u _)) (pairingChanged_still u n r)
  have hrefresh (u : State) (n : Nat) : Crosses u (refreshLink u n) := .of_still (refreshLink_k (by decide) (keepsR_refl u _)) (refreshLink_still u n)
  unfold switchMode
  split
  · exact .refl s
  next c _ =>
    dsimp only
    have hbegin : Crosses s (splitStep ((s.setChg p none).clr (pendFld p) (p / 2)) (p / 2)) := ((hchg s none).trans (hclr _ _)).trans (hsplit _ _)
    refine .trans ?_ (hrefresh _ _)
    refine .trans ?_ (hpair _ _ _)
    refine .trans ?_ (henter _)
    refine .trans ?_ (.ite (.refl _) (hevent _ _ _))
    refine .trans ?_ (modeEnter_crosses _ _ _ _ _)
    refine .trans ?_ (hswitched _ _)
    refine .trans ?_ (hwr _ _ _)
    refine .trans ?_ (modeLeave_crosses _ _ _ _ _)
    refine .trans ?_ (.ite (.refl _) (hleave _ _))
    exact hbegin.trans (.ite (hevent _ _ _) (.refl _))

theorem modeDue_crosses (p pos stamp : Nat) : Crosses s (modeDue s p pos stamp) := by
  unfold modeDue
  split
  · exact .ite (switchMode_crosses s p pos) (.refl s)
  · exact .refl s

/-! A received unit. -/

theorem countUnit_crosses (p : Nat) (u : RxUnit) : Crosses s (countUnit s p u) := by
  unfold countUnit
  dsimp only
  have hcount (l : List Nat) : Crosses s (s.each l fun s q => s.incWrap .PATH_POS_POS q 1) := .each _ _ fun u q => ⟨wr_k (by decide) (keepsR_refl u _), rfl⟩
  have hdue (t : State) (pos stamp : Nat) :
      Crosses t (f5Burst (skpDue (cancelUnspliced (dlyDue (modeDue t p pos stamp) p pos stamp) p pos stamp) p pos) p pos) :=
    ((((modeDue_crosses t p pos stamp).trans (dlyDue_passes _ p pos stamp).crosses).trans (cancelUnspliced_passes _ p pos stamp).crosses).trans
      (skpDue_passes _ p pos).crosses).trans (f5Burst_passes _ p pos).crosses
  have hlater (t : State) (l : List Nat) : Crosses t (t.each l calLater) := .each _ _ fun t q => (calLater_passes t q).crosses
  exact .ite (.refl s) ((((hcount _).trans (.ite (hdue _ _ _) (.refl _))).trans (hlater _ _)).trans (pollWaits_passes _).crosses)

theorem eiosSeen_crosses (p : Nat) (u : RxUnit) : Crosses s (eiosSeen s p u) :=
  .of_still (eiosSeen_k (by decide) (keepsR_refl s _)) (still_of_quiet (eiosSeen_quiet s p u))

theorem unitPass_crosses (p : Nat) (u : RxUnit) : Crosses s (unitPass s p u) := by
  have hcount (t : State) : Crosses t (countUnit t p u) := countUnit_crosses t p u
  have hcheck (t : State) : Crosses t (pchkUnit t p u.ui u.bad) := (pchkUnit_passes t p u.ui u.bad).crosses
  have hfec (t : State) : Crosses t (fecCount t p u) := (fecCount_passes t p u).crosses
  have htap (t : State) : Crosses t (if hasTap (t.mode p) then tapUnit t p u else applyCaps t p (t.pos p) (t.stampOf p) t.tbValid) :=
    .ite (tapUnit_passes t p u).crosses (applyCaps_passes t p _ _ _).crosses
  have hsend (t : State) (h : HeldUnit) : Crosses t (eiosSeen (forwardUnit (unitUnstaged t p h) p u h) p u) :=
    ((unitUnstaged_passes t p h).crosses.trans (forwardUnit_passes _ p u h).crosses).trans (eiosSeen_crosses _ p u)
  unfold unitPass
  dsimp only
  have hsettle := (settle_passes s p).crosses.trans (hcount _)
  exact .ite (.trans (.ite (hcount s) (.refl s)) (hcheck _))
    (.ite hsettle (hsettle.trans ((((hfec _).trans (hcheck _)).trans (htap _)).trans (hsend _ _))))

end Sys2Proof.Machine
end

section
/-! What a path's link, mode and transmitter are found from, and that a unit moves none of it while its path keeps its mode. -/
namespace Sys2Proof.Machine

/-- The fields from which a path's link, its encoding's protocol, its modes and what its transmitter may send are found (R62, R65, R68, R82, R95, R98, R134, R164, R217). -/
def wayFlds : List Fld := [.LINK_CFG_EN, .LINK_CFG_FIRST, .LINK_CFG_WIDTH, .LINK_CFG_PROTO, .PATH_MODE_AB, .PATH_MODE_BA, .LNK_PSTAT_STATE, .LNK_PSTAT_WIDTH, .LNK_ESTAT_SEGA, .LNK_ESTAT_SEGB,
  .X_EQ_PHASE, .X_L0S, .X_LANE_IDLE, .X_SPLIT, .XCVR_CTL_TXINV]

/-- t shows a unit the same way as s. -/
def SameWay (s t : State) : Prop := ∀ f ∈ wayFlds, ∀ i, t.rd f i = s.rd f i

section
variable {s t u : State}

theorem SameWay.trans (h : SameWay s t) (h' : SameWay t u) : SameWay s u := fun f hf i => (h' f hf i).trans (h f hf i)

theorem Passes.rd (h : Passes s t) {f : Fld} (hf : f ∉ passFlds) (i : Nat) : t.rd f i = s.rd f i := h.1 f i hf

theorem Passes.getChg (h : Passes s t) (p : Nat) : t.getChg p = s.getChg p := by
  obtain ⟨-, -, -, -, hchg⟩ := still_iff.mp h.2
  simp [State.getChg, hchg]

theorem Passes.sameWay (h : Passes s t) : SameWay s t := fun f hf i => h.rd ((by decide : ∀ f ∈ wayFlds, f ∉ passFlds) f hf) i

end

section
variable {s t : State} (h : SameWay s t)
include h

theorem linkOf_congr (n : Nat) : t.linkOf n = s.linkOf n := by
  have hen := h .LINK_CFG_EN (by decide)
  have hfirst := h .LINK_CFG_FIRST (by decide)
  have hwidth := h .LINK_CFG_WIDTH (by decide)
  simp only [State.linkOf, State.linkFirst, State.linkWidth, State.on, hen, hfirst, hwidth]
  rfl

theorem linkFirst_congr (L : Nat) : t.linkFirst L = s.linkFirst L := by
  simp only [State.linkFirst, h .LINK_CFG_FIRST (by decide)]

theorem linkWidth_congr (L : Nat) : t.linkWidth L = s.linkWidth L := by
  simp only [State.linkWidth, h .LINK_CFG_WIDTH (by decide)]

theorem govLane_congr (n : Nat) : t.govLane n = s.govLane n := by
  simp only [State.govLane, linkOf_congr h, linkFirst_congr h]

theorem govPath_congr (p : Nat) : t.govPath p = s.govPath p := by simp only [State.govPath, govLane_congr h]

theorem linkPaths_congr (p : Nat) : t.linkPaths p = s.linkPaths p := by
  simp only [State.linkPaths, State.linkLanes, linkOf_congr h, linkFirst_congr h, linkWidth_congr h]

theorem mode_congr (p : Nat) : t.mode p = s.mode p := by
  have hfld : modeFld p ∈ wayFlds := by unfold modeFld; split <;> decide
  simp only [State.mode, govLane_congr h, h _ hfld]

theorem kindR_congr (n : Nat) : t.kindR n = s.kindR n := by simp only [State.kindR, mode_congr h]

theorem protoOf_congr (n : Nat) : t.protoOf n = s.protoOf n := by
  simp only [State.protoOf, linkOf_congr h, h .LINK_CFG_PROTO (by decide)]

theorem pcie_congr (n : Nat) : t.pcie n = s.pcie n := by simp only [State.pcie, protoOf_congr h]

theorem activeWidth_congr (n : Nat) : t.activeWidth n = s.activeWidth n := by
  simp only [State.activeWidth, linkOf_congr h, linkWidth_congr h, h .LINK_CFG_PROTO (by decide), h .LNK_PSTAT_WIDTH (by decide)]

theorem countPaths_congr (p : Nat) : t.countPaths p = s.countPaths p := by
  simp only [State.countPaths, State.on, protoOf_congr h, linkPaths_congr h, activeWidth_congr h, h .X_LANE_IDLE (by decide)]

theorem segsUp_congr (p : Nat) : t.segsUp p = s.segsUp p := by
  simp only [State.segsUp, State.segmented, State.on, linkOf_congr h, linkFirst_congr h, kindR_congr h, h .LINK_CFG_EN (by decide), h .LINK_CFG_PROTO (by decide),
    h .LNK_ESTAT_SEGA (by decide), h .LNK_ESTAT_SEGB (by decide)]

theorem eqPhase_congr (p : Nat) : t.eqPhase p = s.eqPhase p := by
  simp only [State.eqPhase, linkOf_congr h, pcie_congr h, kindR_congr h, h .LNK_PSTAT_STATE (by decide), h .X_EQ_PHASE (by decide)]

theorem linkIdle_congr (p : Nat) : t.linkIdle p = s.linkIdle p := by
  simp only [State.linkIdle, State.bit, State.on, linkOf_congr h, pcie_congr h, kindR_congr h, h .LNK_PSTAT_STATE (by decide), h .X_L0S (by decide), h .X_LANE_IDLE (by decide)]

theorem splitNow_congr (n : Nat) : t.splitNow n = s.splitNow n := by simp only [State.splitNow, govLane_congr h, h .X_SPLIT (by decide)]

theorem txInv_congr (p : Nat) : t.txInv p = s.txInv p := by
  simp only [State.txInv, State.on, linkPaths_congr h, h .XCVR_CTL_TXINV (by decide)]
  rfl

end

end Sys2Proof.Machine
end

section
/-! The count of a unit (R214, R217) on a path with no change of mode. -/
namespace Sys2Proof.Machine

/-! What a unit's count leaves to a path with no change of mode. -/

section
variable {s t : State}

/-- Positions step by one on every path of a list that names none twice. -/
theorem rd_each_incWrap (f : Fld) (l : List Nat) (hl : l.Nodup) (s : State) (q : Nat) :
    (s.each l fun s q => s.incWrap f q 1).rd f q = if q ∈ l then (s.rd f q + 1) % 2 ^ f.width else s.rd f q := by
  induction l generalizing s with
  | nil => simp [State.each]
  | cons a l ih =>
    obtain ⟨ha, hl⟩ := List.nodup_cons.mp hl
    have hstep : (s.each (a :: l) fun s q => s.incWrap f q 1) = (s.incWrap f a 1).each l fun s q => s.incWrap f q 1 := rfl
    rw [hstep, ih hl]
    by_cases hq : q = a
    · subst hq
      simp [ha, State.incWrap]
    · simp [hq, State.incWrap, State.rd_wr]

theorem linkPaths_nodup (s : State) (p : Nat) : (s.linkPaths p).Nodup := by
  have hlanes : (s.linkLanes (p / 2)).Nodup := by
    unfold State.linkLanes
    split
    · exact List.Nodup.map (fun a b hab => by simpa using hab) List.nodup_range
    · exact List.nodup_singleton _
  exact hlanes.map fun a b hab => by omega

theorem countPaths_nodup (s : State) (p : Nat) : (s.countPaths p).Nodup := by
  unfold State.countPaths
  split
  · exact List.nodup_singleton _
  · exact ((linkPaths_nodup s p).sublist (List.take_sublist _ _)).filter _

/-- s with a unit of path p counted, and nothing else done. -/
def counted (s : State) (p : Nat) (u : RxUnit) : State := if u.aside then s else s.each (s.countPaths p) fun s q => s.incWrap .PATH_POS_POS q 1

theorem counted_pos (s : State) (p : Nat) (u : RxUnit) (q : Nat) :
    (counted s p u).rd .PATH_POS_POS q = if u.aside = false ∧ q ∈ s.countPaths p then (s.rd .PATH_POS_POS q + 1) % 2 ^ 48 else s.rd .PATH_POS_POS q := by
  unfold counted
  split
  next h => simp [h]
  next h =>
    rw [rd_each_incWrap _ _ (countPaths_nodup s p)]
    simp [h, show Fld.PATH_POS_POS.width = 48 from rfl]

theorem counted_sameWay (s : State) (p : Nat) (u : RxUnit) : SameWay s (counted s p u) := by
  have hk : KeepsR s (counted s p u).regs [.PATH_POS_POS] := by
    unfold counted
    exact ite_k (keepsR_refl s _) (each_k (keepsR_refl s _) fun u q hu => wr_k (by decide) hu)
  exact fun f hf i => hk f i (by revert f; decide)

theorem modeDue_none (h : s.getChg p = none) (pos stamp : Nat) : modeDue s p pos stamp = s := by simp [modeDue, h]

theorem countUnit_passes (s : State) (p : Nat) (u : RxUnit) (h : s.getChg p = none) : Passes (counted s p u) (countUnit s p u) := by
  have hlater (t : State) (l : List Nat) : Passes t (t.each l calLater) := .each _ _ fun t q => calLater_passes t q
  have hdue (t : State) (ht : t.getChg p = none) (pos stamp : Nat) :
      Passes t (f5Burst (skpDue (cancelUnspliced (dlyDue (modeDue t p pos stamp) p pos stamp) p pos stamp) p pos) p pos) := by
    rw [modeDue_none ht]
    exact (((dlyDue_passes t p pos stamp).trans (cancelUnspliced_passes _ p pos stamp)).trans (skpDue_passes _ p pos)).trans (f5Burst_passes _ p pos)
  have hchg : (s.each (s.countPaths p) fun s q => s.incWrap .PATH_POS_POS q 1).getChg p = none := by
    have hstill := s.each_still (s.countPaths p) (fun s q => s.incWrap .PATH_POS_POS q 1) fun s q => by simp
    obtain ⟨-, -, -, -, hc⟩ := still_iff.mp hstill
    rw [← h, State.getChg, hc]
    rfl
  unfold counted countUnit
  dsimp only
  split
  · exact .refl s
  · exact ((Passes.ite (hdue _ hchg _ _) (.refl _)).trans (hlater _ _)).trans (pollWaits_passes _)

end

end Sys2Proof.Machine
end

section
/-! The statement of family 01_device_organisation about received units (R61, R66, R214 to R217). -/
namespace Sys2Proof.Machine
variable (s : State)

/-! A unit that its path's transmitter sends on as received. -/

theorem ownSegUp_of_segsUp {p : Nat} (h : s.segsUp p = true) : s.ownSegUp p = true := by
  unfold State.segsUp at h
  unfold State.ownSegUp
  split
  next L hL =>
    simp only [hL, Bool.or_eq_true, Bool.and_eq_true, beq_iff_eq] at h ⊢
    refine h.imp_right fun ⟨ha, hb⟩ => ?_
    have hseg : s.rd (segFld (txSide p)) L = 4 := by
      unfold segFld
      split <;> assumption
    simp [hseg]
  · rfl

/-- No PCIe or CXL encoding is made of Ethernet's blocks. -/
theorem encOf_eth_of_pcie {p : Nat} (h : s.pcie (p / 2) = true) : (s.encOf p).eth = false := by
  simp only [State.pcie, State.protoOf, Bool.or_eq_true, beq_iff_eq] at h
  unfold State.encOf
  split at h
  next L hL =>
    simp only [hL, h, if_true, fmtEnc]
    split_ifs <;> rfl
  next => simp at h

/-- A PCIe or CXL unit carries what its parts are. -/
theorem intake_pieces_of_no_parts {p : Nat} (pos stamp : Nat) {u : RxUnit} (line dec : List Byte) (h : s.pcie (p / 2) = true) (hu : u.parts = []) :
    (s.intake p pos stamp u line dec).pieces = [] := by
  simp only [State.intake, encOf_eth_of_pcie s h, hu]
  split <;> rfl

theorem forwardUnit_of_relay {p : Nat} {h : HeldUnit} (u : RxUnit) (hplain : s.pcie (p / 2) = false ∨ h.pieces = []) (hmode : s.mode p = mRELAY) (hsegs : s.segsUp p = true)
    (heq : s.eqPhase p = false) (hidle : s.linkIdle p = false) (hrev : s.mode (revPath p) ≠ mLOOP) : forwardUnit s p u h = s.emit (.tx p h.line false (s.txInv p)) := by
  have hregen : regen s p (s.pcie (p / 2) && s.kindR (p / 2)) h h.line = (h.line, s) := by
    rcases hplain with hp | hp <;> simp [regen, hp]
  have htraining : (s.pcie (p / 2) && s.kindR (p / 2) && h.training) = false := by
    rcases hplain with hp | hp <;> simp [HeldUnit.training, hp]
  have hsend : transmit s p h.line false = s.emit (.tx p h.line false (s.txInv p)) := by simp [transmit, hrev, hidle]
  unfold forwardUnit
  dsimp only
  rw [hregen, htraining, hmode, heq, ownSegUp_of_segsUp s hsegs, hsegs]
  simp [mRELAY, mLOOP, mSPLICE, mDELAY, forwards, hsend]

theorem forwardUnit_of_loop {p : Nat} {h : HeldUnit} (u : RxUnit) (hmode : s.mode p = mLOOP) (hrev : s.mode (revPath p) ≠ mSOURCE) (hsplit : s.splitNow (p / 2) = false) :
    forwardUnit s p u h = s.emit (.tx (revPath p) h.line false (s.txInv (revPath p))) := by
  simp [forwardUnit, hmode, hrev, hsplit]

/-! The way of a unit on a governing path with no change of mode. -/

/-- A governing path's unit goes out from a state that s leads to by counting the unit, in the form in which the pipeline holds it. -/
theorem unitPass_forwards {s : State} {p : Nat} (u : RxUnit) (hgov : s.govPath p = p) (hmode : s.mode p ≠ mDARK) (hchg : s.getChg p = none) :
    ∃ t t' h, unitPass s p u = eiosSeen (forwardUnit t p u h) p u ∧ Passes s t' ∧ Passes (counted t' p u) t ∧ h.line = u.line
      ∧ (s.pcie (p / 2) = true → u.parts = [] → h.pieces = []) := by
  have hsettle := settle_passes s p
  have hcount := countUnit_passes (settle s p) p u (by rw [hsettle.getChg, hchg])
  have hway : SameWay s (countUnit (settle s p) p u) := (hsettle.sameWay.trans (counted_sameWay _ p u)).trans hcount.sameWay
  have hlit : (countUnit (settle s p) p u).mode p ≠ mDARK := by rwa [mode_congr hway]
  let c := pchkUnit (fecCount (countUnit (settle s p) p u) p u) p u.ui u.bad
  have hc : Passes (countUnit (settle s p) p u) c := (fecCount_passes _ p u).trans (pchkUnit_passes _ p u.ui u.bad)
  let h := c.heldUnit p u (c.intake p (c.pos p) (c.stampOf p) u u.line u.dec).pieces
  let tap := if hasTap (c.mode p) then tapUnit c p u else applyCaps c p (c.pos p) (c.stampOf p) c.tbValid
  have htap : Passes c tap := .ite (tapUnit_passes c p u) (applyCaps_passes c p _ _ _)
  refine ⟨unitUnstaged tap p h, settle s p, h, ?_, hsettle, ((hcount.trans hc).trans htap).trans (unitUnstaged_passes tap p h), rfl, fun hp hu => ?_⟩
  · unfold unitPass
    dsimp only
    rw [if_neg (not_not.mpr hgov), if_neg hlit]
  · exact intake_pieces_of_no_parts c _ _ u.line u.dec (by rwa [pcie_congr (hway.trans hc.sameWay)]) hu

/-! What ends a unit's command leaves positions and what was sent. -/

theorem guardUnits_quiet (t : State) (l : List Nat) : (t.each l guardUnit).quiet = t.quiet := t.each_quiet l guardUnit guardUnit_quiet

theorem guardUnits_eiosSeen_out (t : State) (p : Nat) (u : RxUnit) (l : List Nat) : ((eiosSeen t p u).each l guardUnit).out = t.out :=
  out_of_quiet ((guardUnits_quiet _ l).trans (eiosSeen_quiet t p u))

theorem guardUnits_eiosSeen_pos (t : State) (p : Nat) (u : RxUnit) (l : List Nat) (q : Nat) : ((eiosSeen t p u).each l guardUnit).rd .PATH_POS_POS q = t.rd .PATH_POS_POS q := by
  have hk := each_k (xs := l) (eiosSeen_k (p := p) (u := u) (List.Subset.refl _) (keepsR_refl t _)) fun v q hv => guardUnit_k (p := q) hv
  exact hk .PATH_POS_POS q (by decide)

/-! UNIT_DECODE. -/

theorem startIn_sameWay (same : Bool) : SameWay s (s.startIn same) := fun _ _ _ => by cases same <;> rfl

theorem exec_unitDecode_of_dark {s : State} {p : Fin 512} (same : Bool) (w : RxUnit) (hlive : s.dead = false) (hdark : s.mode p = mDARK ∨ s.groveOn (gOf p) = false) :
    exec (.unitDecode p same w) s = .next (s.startIn same) := by
  have hgrove : (s.startIn same).groveOn (gOf p) = s.groveOn (gOf p) := by cases same <;> rfl
  have hexec : exec (.unitDecode p same w) s = execUnitDecode p same w s := rfl
  simp only [hexec, execUnitDecode, liveIn, hlive, mode_congr (startIn_sameWay s same), hgrove]
  simp [hdark]

theorem exec_unitDecode_of_lit {s : State} {p : Fin 512} (same : Bool) (w : RxUnit) (hlive : s.dead = false) (hmode : s.mode p ≠ mDARK) (hgrove : s.groveOn (gOf p) = true) :
    exec (.unitDecode p same w) s = .next ((unitPass (s.startIn same) p (s.recv p w)).each ((s.startIn same).counts p (s.recv p w)) guardUnit) := by
  have hgrove' : (s.startIn same).groveOn (gOf p) = true := by rw [← hgrove]; cases same <;> rfl
  have hrecv : (s.startIn same).recv p w = s.recv p w := by cases same <;> rfl
  have hexec : exec (.unitDecode p same w) s = execUnitDecode p same w s := rfl
  simp only [hexec, execUnitDecode, liveIn, hlive, mode_congr (startIn_sameWay s same), hgrove', hrecv]
  simp [hmode]

/-- A unit on a governing path with no change of mode: what is sent and the positions are those of forwarding it from a state t that shows it the same way as s. -/
theorem exec_unitDecode_of_unchanged {s : State} {p : Fin 512} (same : Bool) (w : RxUnit) (hlive : s.dead = false) (hmode : s.mode p ≠ mDARK) (hgrove : s.groveOn (gOf p) = true)
    (hgov : s.govPath p = p.val) (hchg : s.getChg p = none) :
    ∃ t h u, exec (.unitDecode p same w) s = .next u ∧ u.out = (forwardUnit t p (s.recv p w) h).out ∧ SameWay s t
      ∧ (∀ q, u.rd .PATH_POS_POS q =
          if (s.recv p w).aside = false ∧ q ∈ s.countPaths p then (s.rd .PATH_POS_POS q + 1) % 2 ^ 48 else s.rd .PATH_POS_POS q)
      ∧ h.line = (s.recv p w).line ∧ (s.pcie (p / 2) = true → (s.recv p w).parts = [] → h.pieces = []) := by
  have hway := startIn_sameWay s same
  obtain ⟨t, t', h, hpass, hsettle, hcount, hline, hpieces⟩ := unitPass_forwards (s := s.startIn same) (s.recv p w) (by rwa [govPath_congr hway]) (by rwa [mode_congr hway])
    (by cases same <;> exact hchg)
  have hway' : SameWay s t' := hway.trans hsettle.sameWay
  rw [exec_unitDecode_of_lit same w hlive hmode hgrove, hpass]
  refine ⟨t, h, _, rfl, guardUnits_eiosSeen_out _ _ _ _, (hway'.trans (counted_sameWay t' p _)).trans hcount.sameWay, fun q => ?_, hline, by rwa [pcie_congr hway] at hpieces⟩
  have hpos (i : Nat) : t'.rd .PATH_POS_POS i = s.rd .PATH_POS_POS i := (hsettle.rd (by decide) i).trans (by cases same <;> rfl)
  rw [guardUnits_eiosSeen_pos, (forwardUnit_passes t p _ h).rd (by decide), hcount.rd (by decide), counted_pos, countPaths_congr hway', hpos]

/-- Settles O29: every step of a unit's way is framed by the fields that it may move. While no change of mode waits on the path, those fields hold neither the positions nor the modes nor what the
transmitter goes by, so that a unit counts once and leaves as it came. -/
theorem receivedUnits : Obligations.ReceivedUnits := by
  unfold Obligations.ReceivedUnits
  intro s p same w x v lit still
  have hstart (f : Fld) (i : Nat) : (s.startIn same).rd f i = s.rd f i := by cases same <;> rfl
  refine ⟨fun hlive hdark => ?_, fun ⟨hlive, hmode, hgrove⟩ => ?_, ?_, ?_, ?_⟩
  · refine ⟨_, exec_unitDecode_of_dark same w hlive hdark, ?_, fun f i _ => hstart f i, ?_⟩
    · cases same <;> rfl
    · cases same <;> exact memSame_refl s
  · have hcross : Crosses (s.startIn same) ((unitPass (s.startIn same) p v).each ((s.startIn same).counts p v) guardUnit) :=
      (unitPass_crosses _ p v).trans (.each _ _ fun t q => .of_still (guardUnit_k (keepsR_refl t _)) (guardUnit_still t q))
    have hchips : (s.startIn same).chips = s.chips := by cases same <;> rfl
    exact ⟨_, exec_unitDecode_of_lit same w hlive hmode hgrove, trivial, fun f i hf => (hcross.1 f i hf).trans (hstart f i), chipSame_of_chips (hcross.2.trans hchips)⟩
  · rintro ⟨⟨hlive, hmode, hgrove⟩, hgov, hchg, -⟩
    obtain ⟨t, h, u, hx, -, -, hpos, -, -⟩ := exec_unitDecode_of_unchanged same w hlive hmode hgrove hgov hchg
    exact ⟨u, hx, hpos⟩
  · rintro ⟨⟨hlive, hmode, hgrove⟩, hgov, hchg, -⟩ hplain hrelay hsegs heq hidle hrev
    obtain ⟨t, h, u, hx, hout, hway, -, hline, hpieces⟩ := exec_unitDecode_of_unchanged same w hlive hmode hgrove hgov hchg
    have hplain' : t.pcie (p / 2) = false ∨ h.pieces = [] := by
      rw [pcie_congr hway]
      by_cases hp : s.pcie (p / 2) = true
      · exact .inr (hpieces hp (hplain.resolve_left (by simp [hp])))
      · exact .inl (by simpa using hp)
    have hfwd := forwardUnit_of_relay t v hplain' (by rwa [mode_congr hway]) (by rwa [segsUp_congr hway]) (by rwa [eqPhase_congr hway]) (by rwa [linkIdle_congr hway])
      (by rwa [mode_congr hway])
    exact ⟨u, hx, by rw [hout, hfwd, hline, txInv_congr hway]; simp [State.emit, v]⟩
  · rintro ⟨⟨hlive, hmode, hgrove⟩, hgov, hchg, -⟩ hloop hrev hsplit
    obtain ⟨t, h, u, hx, hout, hway, -, hline, -⟩ := exec_unitDecode_of_unchanged same w hlive hmode hgrove hgov hchg
    have hfwd := forwardUnit_of_loop t (h := h) v (by rwa [mode_congr hway]) (by rwa [mode_congr hway]) (by rwa [splitNow_congr hway])
    exact ⟨u, hx, by rw [hout, hfwd, hline, txInv_congr hway]; simp [State.emit, v]⟩

end Sys2Proof.Machine
end

section
/-! The invariant (R24, R612) under the state's own operations: the stores that it speaks of, writes of fields other than the device's state, writes of memories, filters of the stores. -/
namespace Sys2Proof.Machine

variable {s t : State}

/-! The stores of the invariant. -/

/-- What the invariant speaks of: registers, sequencer memories, NVM, byte windows, tower words, and the slabs whose contents were lost, which give the towers' defaults. -/
structure Stores where
  regs : List ((Fld × Nat) × Nat)
  imem : List (Nat × Word)
  dmem : List (Nat × Word)
  nvm : List (Nat × Byte)
  win : List (Nat × Byte)
  tower : List (Nat × Code)
  lost : List (Nat × Nat)

def State.stores (s : State) : Stores := ⟨s.regs, s.imem, s.dmem, s.nvm, s.win, s.tower, s.lost⟩

theorem stores_iff : t.stores = s.stores ↔
    t.regs = s.regs ∧ t.imem = s.imem ∧ t.dmem = s.dmem ∧ t.nvm = s.nvm ∧ t.win = s.win ∧ t.tower = s.tower ∧ t.lost = s.lost := by
  simp [State.stores]

/-- A state with the same stores meets the invariant too. -/
theorem inv_of_stores (h : s.inv) (e : t.stores = s.stores) : t.inv := by
  obtain ⟨hr, hi, hd, hn, hw, ht, hl⟩ := stores_iff.mp e
  have hdev : t.dev = s.dev := by simp [State.dev, State.rd, hr]
  have hdflt : t.towerDflt = s.towerDflt := by funext w; simp [State.towerDflt, hl]
  simpa [State.inv, State.devLegal, State.memWf, State.towerWf, hdev, hdflt, hr, hi, hd, hn, hw, ht] using h

theorem inv_iff : s.inv ↔ (devROM ≤ s.dev ∧ s.dev ≤ devLATCHED) ∧ regsWf s.regs = true ∧ s.memWf = true ∧ s.towerWf = true := by
  simp [State.inv, State.devLegal]

/-! Branches and repetitions. -/

section
variable {α β : Type} {c : Prop} [Decidable c]

theorem ite_inv {a b : State} (ha : a.inv) (hb : b.inv) : (if c then a else b).inv := by split <;> assumption
theorem ite_snd_inv {a b : α × State} (ha : a.2.inv) (hb : b.2.inv) : (if c then a else b).2.inv := by split <;> assumption
theorem ite_fst_inv {a b : State × α} (ha : a.1.inv) (hb : b.1.inv) : (if c then a else b).1.inv := by split <;> assumption
theorem ite_snd_snd_inv {a b : α × β × State} (ha : a.2.2.inv) (hb : b.2.2.inv) : (if c then a else b).2.2.inv := by split <;> assumption
end

theorem foldl_inv {α : Type} {l : List α} {f : State → α → State} (h : s.inv) (hf : ∀ s a, s.inv → (f s a).inv) : (l.foldl f s).inv :=
  List.foldlRecOn (motive := State.inv) l f h fun u hu a _ => hf u a hu

theorem each_inv {α : Type} {l : List α} {f : State → α → State} (h : s.inv) (hf : ∀ s a, s.inv → (f s a).inv) : (s.each l f).inv := foldl_inv h hf

theorem foldl_fst_inv {α β : Type} {l : List α} {x : State × β} {f : State × β → α → State × β} (h : x.1.inv) (hf : ∀ x a, x.1.inv → (f x a).1.inv) : (l.foldl f x).1.inv :=
  List.foldlRecOn (motive := fun x => x.1.inv) l f h fun u hu a _ => hf u a hu

theorem foldl_snd_inv {α β : Type} {l : List α} {x : β × State} {f : β × State → α → β × State} (h : x.2.inv) (hf : ∀ x a, x.2.inv → (f x a).2.inv) : (l.foldl f x).2.inv :=
  List.foldlRecOn (motive := fun x => x.2.inv) l f h fun u hu a _ => hf u a hu

theorem foldl_snd_snd_inv {α β γ : Type} {l : List α} {x : β × γ × State} {f : β × γ × State → α → β × γ × State} (h : x.2.2.inv) (hf : ∀ x a, x.2.2.inv → (f x a).2.2.inv) :
    (l.foldl f x).2.2.inv :=
  List.foldlRecOn (motive := fun x => x.2.2.inv) l f h fun u hu a _ => hf u a hu

/-- A repeated change of something that holds a state. -/
theorem foldl_of_inv {α β : Type} (g : β → State) {l : List α} {x : β} {f : β → α → β} (h : (g x).inv) (hf : ∀ x a, (g x).inv → (g (f x a)).inv) : (g (l.foldl f x)).inv :=
  List.foldlRecOn (motive := fun x => (g x).inv) l f h fun u hu a _ => hf u a hu

theorem ite_of_inv {β : Type} (g : β → State) {c : Prop} [Decidable c] {a b : β} (ha : (g a).inv) (hb : (g b).inv) : (g (if c then a else b)).inv := by split <;> assumption

/-! States that may be missing, and outcomes. -/

/-- A state that there may be. -/
def optInv (o : Option State) : Prop := ∀ t, o = some t → t.inv

/-- The next state of an outcome. -/
def outInv (x : Host.Outcome State Fault Refusal) : Prop := ∀ t, x = .next t → t.inv

theorem some_inv (h : s.inv) : optInv (some s) := fun _ e => Option.some.inj e ▸ h
theorem none_inv : optInv none := fun _ e => absurd e (Option.some_ne_none _).symm
theorem next_inv (h : s.inv) : outInv (.next s) := fun _ e => Host.Outcome.next.inj e ▸ h

theorem getD_inv {o : Option State} (ho : optInv o) (h : s.inv) : (o.getD s).inv := by
  cases o with
  | none => exact h
  | some t => exact ho t rfl

section
variable {c : Prop} [Decidable c]
theorem ite_opt_inv {a b : Option State} (ha : optInv a) (hb : optInv b) : optInv (if c then a else b) := by split <;> assumption
theorem ite_out_inv {a b : Host.Outcome State Fault Refusal} (ha : outInv a) (hb : outInv b) : outInv (if c then a else b) := by split <;> assumption
end

/-! Register fields. The state of the device takes only states of its table. -/

theorem wr_inv {f : Fld} {i v : Nat} (h : s.inv) (hf : f ≠ .DEV_STATE_STATE) : (s.wr f i v).inv := by
  obtain ⟨hd, hr, hm⟩ := inv_iff.mp h
  have hdev : (s.wr f i v).dev = s.dev := State.rd_wr_ne s v fun e => hf e.1.symm
  exact inv_iff.mpr ⟨by rwa [hdev], regsWf_wr s f i v hr, hm⟩

theorem wr_dev_inv {i v : Nat} (h : s.inv) (hv : devROM ≤ v ∧ v ≤ devLATCHED) : (s.wr .DEV_STATE_STATE i v).inv := by
  obtain ⟨hd, hr, hm⟩ := inv_iff.mp h
  refine inv_iff.mpr ⟨?_, regsWf_wr s _ i v hr, hm⟩
  have hw : v % 2 ^ Fld.DEV_STATE_STATE.width = v := Nat.mod_eq_of_lt (Nat.lt_of_le_of_lt hv.2 (by decide))
  rw [State.dev, State.rd_wr, hw]
  split
  · exact hv
  · exact hd

theorem set_inv {f : Fld} {i : Nat} (h : s.inv) (hf : f ≠ .DEV_STATE_STATE) : (s.set f i).inv := wr_inv h hf
theorem clr_inv {f : Fld} {i : Nat} (h : s.inv) (hf : f ≠ .DEV_STATE_STATE) : (s.clr f i).inv := wr_inv h hf
theorem wrB_inv {f : Fld} {i : Nat} {b : Bool} (h : s.inv) (hf : f ≠ .DEV_STATE_STATE) : (s.wrB f i b).inv := wr_inv h hf
theorem wrBit_inv {f : Fld} {i b : Nat} {v : Bool} (h : s.inv) (hf : f ≠ .DEV_STATE_STATE) : (s.wrBit f i b v).inv := wr_inv h hf
theorem incSat_inv {f : Fld} {i n : Nat} (h : s.inv) (hf : f ≠ .DEV_STATE_STATE) : (s.incSat f i n).inv := wr_inv h hf
theorem incWrap_inv {f : Fld} {i n : Nat} (h : s.inv) (hf : f ≠ .DEV_STATE_STATE) : (s.incWrap f i n).inv := wr_inv h hf
theorem w1c_inv {f : Fld} {i v : Nat} (h : s.inv) (hf : f ≠ .DEV_STATE_STATE) : (s.w1c f i v).inv := wr_inv h hf

/-! Fields that are chosen by a path, a side, a receiver or a mailbox are not the device's state. -/

theorem modeFld_ne {p : Nat} : modeFld p ≠ .DEV_STATE_STATE := by unfold modeFld; split <;> decide
theorem pendFld_ne {p : Nat} : pendFld p ≠ .DEV_STATE_STATE := by unfold pendFld; split <;> decide
theorem segFld_ne {side : Nat} : segFld side ≠ .DEV_STATE_STATE := by unfold segFld; split <;> decide
theorem noShadowFld_ne {x : Nat} : noShadowFld x ≠ .DEV_STATE_STATE := by unfold noShadowFld; split <;> decide
theorem tlastFld_ne {x : Nat} : tlastFld x ≠ .DEV_STATE_STATE := by unfold tlastFld; split <;> decide
theorem wearFld_ne {c : Nat} : wearFld c ≠ .DEV_STATE_STATE := by unfold wearFld; split <;> decide
theorem mbPend_ne {m : Nat} : mbPend m ≠ .DEV_STATE_STATE := by unfold mbPend; split <;> decide
theorem mbRsp_ne {m : Nat} : mbRsp m ≠ .DEV_STATE_STATE := by unfold mbRsp; split <;> decide
theorem mbErr_ne {m : Nat} : mbErr m ≠ .DEV_STATE_STATE := by unfold mbErr; split <;> decide

/-- A field of an access kind other than the state's own, which no register write reaches (R612). -/
theorem acc_ne {f : Fld} {a : Acc} (h : f.acc = a) (ha : a ≠ Fld.DEV_STATE_STATE.acc) : f ≠ .DEV_STATE_STATE :=
  fun e => ha (by rw [← h, e])

/-! Memories. -/

theorem setI_inv {g w : Nat} {x : Word} (h : s.inv) : (s.setI g w x).inv := by
  obtain ⟨hd, hr, hm, ht⟩ := h
  exact ⟨hd, hr, memWf_setI s g w x hm, ht⟩

theorem setD_inv {g w : Nat} {x : Word} (h : s.inv) : (s.setD g w x).inv := by
  obtain ⟨hd, hr, hm, ht⟩ := h
  exact ⟨hd, hr, memWf_setD s g w x hm, ht⟩

theorem setNvm_inv {a : Nat} {x : Byte} (h : s.inv) : (s.setNvm a x).inv := by
  obtain ⟨hd, hr, hm, ht⟩ := h
  exact ⟨hd, hr, memWf_setNvm s a x hm, ht⟩

theorem setWin_inv {a : Nat} {x : Byte} (h : s.inv) : (s.setWin a x).inv := by
  obtain ⟨hd, hr, hm, ht⟩ := h
  exact ⟨hd, hr, memWf_setWin s a x hm, ht⟩

theorem setT_inv {A : Nat} {c : Code} (h : s.inv) : (s.setT A c).inv := by
  obtain ⟨hd, hr, hm, ht⟩ := h
  exact ⟨hd, hr, hm, storeWf_set id Function.injective_id s.towerDflt s.tower (A / 8) c ht⟩

/-! Entries of the stores that go. -/

theorem storeWfFrom_filter {κ α : Type} [DecidableEq α] (code : κ → Nat) (dflt dflt' : κ → α) (p : κ × α → Bool) (hp : ∀ e, p e = true → dflt' e.1 = dflt e.1) :
    ∀ (m : List (κ × α)) (b : Nat), storeWfFrom code dflt b m = true → storeWfFrom code dflt' b (m.filter p) = true := by
  intro m
  induction m with
  | nil => exact fun _ _ => rfl
  | cons e r ih =>
    intro b h
    simp only [storeWfFrom, Bool.and_eq_true, decide_eq_true_eq] at h
    obtain ⟨⟨hb, hv⟩, hr⟩ := h
    cases hpe : p e with
    | true =>
      simp only [List.filter_cons_of_pos hpe, storeWfFrom, Bool.and_eq_true, decide_eq_true_eq]
      exact ⟨⟨hb, by rwa [hp e hpe]⟩, ih _ hr⟩
    | false =>
      rw [List.filter_cons_of_neg (by simp [hpe])]
      exact storeWfFrom_mono code dflt' (by omega) (ih _ hr)

theorem storeWf_filter {κ α : Type} [DecidableEq α] {code : κ → Nat} {dflt : κ → α} {m : List (κ × α)} (p : κ × α → Bool) (h : storeWf code dflt m = true) :
    storeWf code dflt (m.filter p) = true :=
  storeWfFrom_filter code dflt dflt p (fun _ _ => rfl) m 0 h

theorem storeGet_filter_or {κ α : Type} [DecidableEq κ] (m : List (κ × α)) (p : κ → Bool) (d : α) (k : κ) :
    storeGet (m.filter fun e => p e.1) d k = if p k then storeGet m d k else d := by
  have h := storeGet_filter m (fun k => !p k) d k
  simp only [Bool.not_not] at h
  rw [h]
  cases p k <;> rfl

/-- Fields that go read as after reset, when the device is in ROM. -/
theorem regs_filter_inv {p : Fld × Nat → Bool} (h : s.inv) : State.inv { s with regs := s.regs.filter fun e => p e.1 } := by
  obtain ⟨hd, hr, hm⟩ := inv_iff.mp h
  refine inv_iff.mpr ⟨?_, storeWf_filter _ hr, hm⟩
  simp only [State.dev, State.rd, storeGet_filter_or]
  split
  · exact hd
  · decide

theorem drop_inv {p : Fld × Nat → Bool} (h : s.inv) : (s.drop p).inv := regs_filter_inv (p := fun k => !p k) h

theorem memWf_iff : s.memWf = true ↔ storeWf id (fun _ => (0 : Word)) s.imem = true ∧ storeWf id (fun _ => (0 : Word)) s.dmem = true ∧ storeWf id nvmReset s.nvm = true
    ∧ storeWf id winReset s.win = true := by
  simp [State.memWf, and_assoc]

theorem win_filter_inv {p : Nat × Byte → Bool} (h : s.inv) : State.inv { s with win := s.win.filter p } := by
  obtain ⟨hd, hr, hm, ht⟩ := h
  obtain ⟨hi, hdm, hn, hw⟩ := memWf_iff.mp hm
  exact ⟨hd, hr, memWf_iff.mpr ⟨hi, hdm, hn, storeWf_filter p hw⟩, ht⟩

/-- Words of the towers go, and with them losses of slabs, where the defaults of the words that stay are the same. -/
theorem tower_filter_inv {p : Nat × Code → Bool} {l : List (Nat × Nat)} {n : Nat} (h : s.inv)
    (hp : ∀ e, p e = true → nget l 0 (e.1 / 0x800000) = nget s.lost 0 (e.1 / 0x800000)) : State.inv { s with freeCtr := n, tower := s.tower.filter p, lost := l } := by
  obtain ⟨hd, hr, hm, ht⟩ := h
  refine ⟨hd, hr, hm, storeWfFrom_filter id s.towerDflt _ p (fun e he => ?_) s.tower 0 ht⟩
  simp only [State.towerDflt, hp e he]

end Sys2Proof.Machine
end

section
/-! The invariant under changes of what it does not speak of, by the parts of the state. -/
namespace Sys2Proof.Machine

variable {s : State}

theorem with_out_inv {out : List Out} (h : s.inv) : State.inv { s with out := out } := inv_of_stores h rfl
theorem with_cyc_out_inv {cyc : Nat} {out : List Out} (h : s.inv) : State.inv { s with cyc := cyc, out := out } := inv_of_stores h rfl
theorem with_freeCtr_inv {freeCtr : Nat} (h : s.inv) : State.inv { s with freeCtr := freeCtr } := inv_of_stores h rfl
theorem with_strm_inv {strm : List (Nat × StrmSt)} (h : s.inv) : State.inv { s with strm := strm } := inv_of_stores h rfl
theorem with_chg_inv {chg : List (Nat × Option ModeChg)} (h : s.inv) : State.inv { s with chg := chg } := inv_of_stores h rfl
theorem with_waits_inv {waits : List (Nat × Option Wait)} (h : s.inv) : State.inv { s with waits := waits } := inv_of_stores h rfl
theorem with_mblk_inv {mblk : List (Nat × List Word)} (h : s.inv) : State.inv { s with mblk := mblk } := inv_of_stores h rfl
theorem with_staged_inv {staged : List (Nat × List Staged)} (h : s.inv) : State.inv { s with staged := staged } := inv_of_stores h rfl
theorem with_carry_inv {carry : List (Nat × Int)} (h : s.inv) : State.inv { s with carry := carry } := inv_of_stores h rfl
theorem with_fq_inv {fq : List Msg} (h : s.inv) : State.inv { s with fq := fq } := inv_of_stores h rfl
theorem with_fqOver_inv {fqOver : List Msg} (h : s.inv) : State.inv { s with fqOver := fqOver } := inv_of_stores h rfl
theorem with_causes_inv {causes : List (Nat × Option Msg)} (h : s.inv) : State.inv { s with causes := causes } := inv_of_stores h rfl
theorem with_softq_inv {softq : List (RowKey × Bool)} (h : s.inv) : State.inv { s with softq := softq } := inv_of_stores h rfl
theorem with_banks_inv {banks : List (Nat × BankAct)} (h : s.inv) : State.inv { s with banks := banks } := inv_of_stores h rfl
theorem with_encBuf_inv {encBuf : List (Nat × Option EncUnit)} (h : s.inv) : State.inv { s with encBuf := encBuf } := inv_of_stores h rfl
theorem with_punLens_inv {punLens : List (Nat × List Nat)} (h : s.inv) : State.inv { s with punLens := punLens } := inv_of_stores h rfl
theorem with_hv_inv {hv : List (Nat × Option HvJob)} (h : s.inv) : State.inv { s with hv := hv } := inv_of_stores h rfl
theorem with_dly_dlyHold_inv {dly : List (Nat × List Nat)} {dlyHold : List (Nat × List (List Byte))} (h : s.inv) : State.inv
    { s with dly := dly, dlyHold := dlyHold } := inv_of_stores h rfl
theorem with_vheld_inv {vheld : List VTrig} (h : s.inv) : State.inv { s with vheld := vheld } := inv_of_stores h rfl
theorem with_vofs_inv {vofs : List Int} (h : s.inv) : State.inv { s with vofs := vofs } := inv_of_stores h rfl
theorem with_vwait_inv {vwait : List VTrig} (h : s.inv) : State.inv { s with vwait := vwait } := inv_of_stores h rfl
theorem with_vreq_inv {vreq : List VTrig} (h : s.inv) : State.inv { s with vreq := vreq } := inv_of_stores h rfl
theorem with_vdel_vofs_inv {vdel : List Int} {vofs : List Int} (h : s.inv) : State.inv { s with vdel := vdel, vofs := vofs } := inv_of_stores h rfl
theorem with_items_inv {items : List (Nat × List Item)} (h : s.inv) : State.inv { s with items := items } := inv_of_stores h rfl
theorem with_held_inv {held : List (Nat × List HeldUnit)} (h : s.inv) : State.inv { s with held := held } := inv_of_stores h rfl
theorem with_strikes_inv {strikes : List (Nat × List (Nat × Nat))} (h : s.inv) : State.inv { s with strikes := strikes } := inv_of_stores h rfl
theorem with_rpl_inv {rpl : List (Nat × Option RplSt)} (h : s.inv) : State.inv { s with rpl := rpl } := inv_of_stores h rfl
theorem with_reps_inv {reps : List RepEnt} (h : s.inv) : State.inv { s with reps := reps } := inv_of_stores h rfl
theorem with_bursts_inv {bursts : List Nat} (h : s.inv) : State.inv { s with bursts := bursts } := inv_of_stores h rfl
theorem with_scrRows_inv {scrRows : List (RowKey × Nat)} (h : s.inv) : State.inv { s with scrRows := scrRows } := inv_of_stores h rfl
theorem with_scrTsv_inv {scrTsv : List (Nat × Nat)} (h : s.inv) : State.inv { s with scrTsv := scrTsv } := inv_of_stores h rfl
theorem with_scrRows_scrTsv_inv {scrRows : List (RowKey × Nat)} {scrTsv : List (Nat × Nat)} (h : s.inv) : State.inv
    { s with scrRows := scrRows, scrTsv := scrTsv } := inv_of_stores h rfl
theorem with_nvmPend_inv {nvmPend : List RepEnt} (h : s.inv) : State.inv { s with nvmPend := nvmPend } := inv_of_stores h rfl
theorem with_reps_hards_inv {reps : List RepEnt} {hards : List RowKey} (h : s.inv) : State.inv { s with reps := reps, hards := hards } := inv_of_stores h rfl
theorem with_calq_inv {calq : List Nat} (h : s.inv) : State.inv { s with calq := calq } := inv_of_stores h rfl
theorem with_ltSent_inv {ltSent : List (Nat × List LtTx)} (h : s.inv) : State.inv { s with ltSent := ltSent } := inv_of_stores h rfl
theorem with_pchk_inv {pchk : List (Nat × List Nat)} (h : s.inv) : State.inv { s with pchk := pchk } := inv_of_stores h rfl
theorem with_pkts_inv {pkts : List (Nat × Option Pkt)} (h : s.inv) : State.inv { s with pkts := pkts } := inv_of_stores h rfl
theorem with_ltHdr_inv {ltHdr : List (Nat × List Nat)} (h : s.inv) : State.inv { s with ltHdr := ltHdr } := inv_of_stores h rfl
theorem with_dlyHold_inv {dlyHold : List (Nat × List (List Byte))} (h : s.inv) : State.inv { s with dlyHold := dlyHold } := inv_of_stores h rfl
theorem with_dly_inv {dly : List (Nat × List Nat)} (h : s.inv) : State.inv { s with dly := dly } := inv_of_stores h rfl
theorem with_held_items_inv {held : List (Nat × List HeldUnit)} {items : List (Nat × List Item)} (h : s.inv) : State.inv
    { s with held := held, items := items } := inv_of_stores h rfl
theorem with_halfStage_inv {halfStage : List (Nat × Option (Nat × Nat))} (h : s.inv) : State.inv { s with halfStage := halfStage } := inv_of_stores h rfl
theorem with_fwLoad_inv {fwLoad : Option FwLoad} (h : s.inv) : State.inv { s with fwLoad := fwLoad } := inv_of_stores h rfl
theorem with_hot_inv {hot : HotPhase} (h : s.inv) : State.inv { s with hot := hot } := inv_of_stores h rfl
theorem with_evbuf_inv {evbuf : List EvRec} (h : s.inv) : State.inv { s with evbuf := evbuf } := inv_of_stores h rfl
theorem with_b2_inv {b2 : List B2Acc} (h : s.inv) : State.inv { s with b2 := b2 } := inv_of_stores h rfl
theorem with_mctpq_inv {mctpq : List (List (List Byte))} (h : s.inv) : State.inv { s with mctpq := mctpq } := inv_of_stores h rfl
theorem with_mctpin_inv {mctpin : List (List Byte)} (h : s.inv) : State.inv { s with mctpin := mctpin } := inv_of_stores h rfl
theorem with_hostq_inv {hostq : List EvRec} (h : s.inv) : State.inv { s with hostq := hostq } := inv_of_stores h rfl
theorem with_spdm_inv {spdm : List SpdmSess} (h : s.inv) : State.inv { s with spdm := spdm } := inv_of_stores h rfl
theorem with_pkeys_inv {pkeys : List (Nat × Option Nat)} (h : s.inv) : State.inv { s with pkeys := pkeys } := inv_of_stores h rfl
theorem with_ikeys_inv {ikeys : List (Nat × Option (List Byte))} (h : s.inv) : State.inv { s with ikeys := ikeys } := inv_of_stores h rfl
theorem with_klk_inv {klk : Option (List Byte)} (h : s.inv) : State.inv { s with klk := klk } := inv_of_stores h rfl
theorem with_bankA_inv {bankA : Option FwImage} (h : s.inv) : State.inv { s with bankA := bankA } := inv_of_stores h rfl
theorem with_bankB_inv {bankB : Option FwImage} (h : s.inv) : State.inv { s with bankB := bankB } := inv_of_stores h rfl
theorem with_opHash_inv {opHash : List (Nat × List Byte)} (h : s.inv) : State.inv { s with opHash := opHash } := inv_of_stores h rfl
theorem with_rjob_inv {rjob : Option RindJob} (h : s.inv) : State.inv { s with rjob := rjob } := inv_of_stores h rfl
theorem with_hiLatch_inv {hiLatch : List (Nat × Option Nat)} (h : s.inv) : State.inv { s with hiLatch := hiLatch } := inv_of_stores h rfl
theorem with_pending_inv {pending : List Instr} (h : s.inv) : State.inv { s with pending := pending } := inv_of_stores h rfl

end Sys2Proof.Machine
end

section
/-! The invariant under the operations of Machine/Ops: registers, counters, messages, output. -/
namespace Sys2Proof.Machine

variable {s : State}

theorem emit_inv {o : Out} (h : s.inv) : (s.emit o).inv := with_out_inv h
theorem start_inv (h : s.inv) : s.start.inv := with_cyc_out_inv h
theorem startIn_inv {same : Bool} (h : s.inv) : (State.startIn same s).inv := ite_inv (with_out_inv h) (start_inv h)
theorem freshNat_inv (h : s.inv) : s.freshNat.2.inv := with_freeCtr_inv h
theorem freshBytes_inv {n : Nat} (h : s.inv) : (s.freshBytes n).2.inv := with_freeCtr_inv h
theorem setWins_inv {a : Nat} {l : List Byte} (h : s.inv) : (s.setWins a l).inv := each_inv h fun _ _ h => setWin_inv h
theorem setNvms_inv {a : Nat} {l : List Byte} (h : s.inv) : (s.setNvms a l).inv := each_inv h fun _ _ h => setNvm_inv h
theorem setStrm_inv {p : Nat} {v : StrmSt} (h : s.inv) : (s.setStrm p v).inv := with_strm_inv h
theorem setChg_inv {p : Nat} {v : Option ModeChg} (h : s.inv) : (s.setChg p v).inv := with_chg_inv h
theorem setWait_inv {t : Nat} {v : Option Wait} (h : s.inv) : (s.setWait t v).inv := with_waits_inv h
theorem setBlk_inv {m : Nat} {v : List Word} (h : s.inv) : (s.setBlk m v).inv := with_mblk_inv h
theorem setStaged_inv {t : Nat} {v : List Staged} (h : s.inv) : (s.setStaged t v).inv := with_staged_inv h
theorem setCarry_inv {t : Nat} {v : Int} (h : s.inv) : (s.setCarry t v).inv := with_carry_inv h
theorem msix_inv {v : Nat} (h : s.inv) : (s.msix v).inv := ite_inv (setWin_inv h) (emit_inv h)
theorem alert_inv {c : Nat} (h : s.inv) : (s.alert c).inv := ite_inv (wrBit_inv h (by decide)) h

theorem setDev_inv {st : Nat} (h : s.inv) (hst : devROM ≤ st ∧ st ≤ devLATCHED) : (s.setDev st).inv :=
  ite_inv h (msix_inv (alert_inv (wr_dev_inv h hst)))

theorem live_inv {f : State → State} (h : s.inv) (hf : ∀ s, s.inv → (f s).inv) : outInv (live s f) :=
  ite_out_inv (next_inv (start_inv h)) (next_inv (hf _ (start_inv h)))

theorem liveIn_inv {same : Bool} {f : State → State} (h : s.inv) (hf : ∀ s, s.inv → (f s).inv) : outInv (liveIn same s f) :=
  ite_out_inv (next_inv (startIn_inv h)) (next_inv (hf _ (startIn_inv h)))

theorem setStatus_inv {src : Nat} (h : s.inv) : (s.setStatus src).inv := wrBit_inv h (by decide)

theorem raise_inv {src kind addr : Nat} (h : s.inv) : (s.raise src kind addr).inv :=
  ite_inv (with_fq_inv h) (with_fqOver_inv (set_inv (incSat_inv (setStatus_inv h) (by decide)) (by decide)))

theorem raiseCause_inv {src kind addr : Nat} (h : s.inv) : (s.raiseCause src kind addr).inv := raise_inv (with_causes_inv h)
theorem raiseCauseAt_inv {src kind addr n : Nat} (h : s.inv) : (s.raiseCauseAt src kind addr n).inv := raise_inv (with_causes_inv h)
theorem endCauseAt_inv {src n : Nat} (h : s.inv) : (s.endCauseAt src n).inv := with_causes_inv h
theorem endCause_inv {src : Nat} (h : s.inv) : (s.endCause src).inv := with_causes_inv h
theorem emitTx_inv {p : Nat} {o : Out} (h : s.inv) : (s.emitTx p o).inv := emit_inv h

end Sys2Proof.Machine
end

section
/-! The invariant under the operations of Machine/Gate: accesses that a block answers. -/
namespace Sys2Proof.Machine

variable {s : State}

theorem aonLive_inv {f : State → State} (h : s.inv) (hf : ∀ s, s.inv → (f s).inv) : outInv (aonLive s f) := live_inv h fun _ h => ite_inv (hf _ h) h

theorem accessFail_inv {r : Route} {a : Nat} (h : s.inv) : (s.accessFail r a).inv := by
  unfold State.accessFail
  split
  · exact emit_inv h
  · exact emit_inv h
  · exact set_inv h (by decide)

theorem gate_inv {r : Route} {a : Nat} {f : State → State} (hf : ∀ s, s.inv → (f s).inv) (h : s.inv) : (gate r a f s).inv :=
  ite_inv (accessFail_inv h) (ite_inv (set_inv h (by decide)) (hf _ h))

end Sys2Proof.Machine
end

section
/-! The invariant under the operations of Machine/Tower: the towers' words. -/
namespace Sys2Proof.Machine

variable {s : State}

theorem logRecount_inv {t : Nat} (h : s.inv) : (s.logRecount t).inv := wr_inv h (by decide)

theorem logErr_inv {A kind src syn : Nat} (h : s.inv) : (logErr s A kind src syn).inv := by
  unfold logErr
  dsimp only
  split
  · exact set_inv (incSat_inv h (by decide)) (by decide)
  · refine logRecount_inv ?_
    refine incWrap_inv ?_ (by decide)
    refine wr_inv ?_ (by decide)
    refine wr_inv ?_ (by decide)
    refine wr_inv ?_ (by decide)
    exact set_inv (wrB_inv (wrB_inv (wr_inv (wr_inv (wr_inv h (by decide)) (by decide)) (by decide)) (by decide)) (by decide)) (by decide)

/-- Losses noted for other slabs leave what is noted for slab k. -/
theorem nget_foldl_nset_ne {l : List Nat} {f : Nat → Nat} {n k : Nat} (m : List (Nat × Nat)) (hk : ∀ i ∈ l, k ≠ f i) :
    nget (l.foldl (fun m i => nset m 0 (f i) n) m) 0 k = nget m 0 k :=
  List.foldlRecOn (motive := fun u => nget u 0 k = nget m 0 k) l _ rfl fun u hu i hi => (nget_nset_ne u 0 0 n (hk i hi)).trans hu

theorem towerLost_inv {t : Nat} (h : s.inv) : (towerLost s t).inv := by
  refine tower_filter_inv h fun e he => nget_foldl_nset_ne s.lost fun i hi => ?_
  simp only [bne_iff_ne, ne_eq] at he
  have := List.mem_range.mp hi
  omega

theorem queueSoft_inv {k : RowKey} (h : s.inv) : (s.queueSoft k).inv := ite_inv (with_softq_inv h) h
theorem touch_inv {A : Nat} {write : Bool} (h : s.inv) : (s.touch A write).inv := ite_inv h (with_banks_inv h)

theorem countCe_inv {A src kind syn : Nat} (h : s.inv) : (countCe s A src kind syn).inv := by
  unfold countCe
  extract_lets _ _ s1 _ s2
  have hs1 : s1.inv := incSat_inv h (by decide)
  have hs2 : s2.inv := ite_inv (raise_inv (set_inv hs1 (by decide))) hs1
  exact ite_inv (logErr_inv hs2) hs2

theorem countUe_inv {A src : Nat} {c : Code} (h : s.inv) : (countUe s A src c).inv :=
  queueSoft_inv (raise_inv (logErr_inv (incSat_inv (setT_inv (touch_inv h)) (by decide))))

theorem readWord_inv {src A : Nat} (h : s.inv) : (readWord s src A).2.inv := by
  have ht : (s.touch A false).inv := touch_inv h
  unfold readWord
  dsimp only
  generalize s.touch A false = u at ht ⊢
  generalize u.getT A = c
  obtain ⟨e, w⟩ := decodeWord c
  cases e with
  | clean => exact ht
  | single j => exact countCe_inv ht
  | double i j => exact ite_inv (countCe_inv ht) (with_bursts_inv (countCe_inv ht))
  | uncorrectable => exact countUe_inv ht

theorem writeWord_inv {A : Nat} {v : Word} (h : s.inv) : (writeWord s A v).inv := setT_inv (touch_inv h)
theorem writePart_inv {src A : Nat} {new : List Byte} {en : List Bool} (h : s.inv) : (writePart s src A new en).inv := setT_inv (touch_inv (readWord_inv h))
theorem writeWords_inv {A : Nat} {l : List Byte} (h : s.inv) : (writeWords s A l).inv := each_inv h fun _ _ h => writeWord_inv h
theorem readBytes_inv {src A n : Nat} (h : s.inv) : (readBytes s src A n).2.2.inv := foldl_snd_snd_inv h fun _ _ h => readWord_inv h

/-- The words that a sweep leaves lie in slabs that it leaves (R402, R405). -/
theorem sweepSlabs_inv {first count : Nat} (h : s.inv) : (sweepSlabs s first count).inv := by
  refine tower_filter_inv h fun e he => ?_
  have hslab : ¬(first ≤ e.1 / 0x800000 ∧ e.1 / 0x800000 < first + count) := by
    simp only [Bool.not_eq_true', decide_eq_false_iff_not] at he
    omega
  rw [nget, nget, storeGet_filter s.lost (fun k => decide (first ≤ k ∧ k < first + count)), if_neg (by simpa using hslab)]

theorem clearEnd_inv {t : Nat} (h : s.inv) : (clearEnd s t).inv :=
  clr_inv (clr_inv (clr_inv (wr_inv (clr_inv (wr_inv (sweepSlabs_inv h) (by decide)) (by decide)) (by decide)) (by decide)) (by decide)) (by decide)

theorem clearWork_inv {t n : Nat} (h : s.inv) : (clearWork s t n).inv :=
  ite_inv h (ite_inv (clearEnd_inv h) (wr_inv (wr_inv (sweepSlabs_inv h) (by decide)) (by decide)))

theorem takeInj_inv {k : Nat} (h : s.inv) : (takeInj s k).2.inv := ite_snd_inv (ite_inv (clr_inv (wr_inv h (by decide)) (by decide)) (wr_inv h (by decide))) h

end Sys2Proof.Machine
end

section
/-! The invariant under the operations of Machine/Press: the press. -/
namespace Sys2Proof.Machine

variable {s : State}

theorem setEnc_inv {i : Nat} {e : Option EncUnit} (h : s.inv) : (s.setEnc i e).inv := with_encBuf_inv h

theorem encWrite_inv {k : Nat} {e : EncUnit} (h : s.inv) : (encWrite s k e).inv := by
  unfold encWrite
  split
  · exact h
  · exact writeWords_inv h

theorem encAdd_inv {k area unit inOfs : Nat} {l : List Byte} (h : s.inv) : (encAdd s k area unit inOfs l).inv := ite_inv (setEnc_inv (encWrite_inv h)) (setEnc_inv h)

theorem punStore_inv {k area at_ : Nat} {l : List Byte} (h : s.inv) : (punStore s k area at_ l).inv :=
  ite_inv (ite_inv (encAdd_inv h) (encAdd_inv (encAdd_inv h))) (writeWords_inv h)

theorem punStoreRing_inv {k ofs : Nat} {l : List Byte} (h : s.inv) : (punStoreRing s k ofs l).inv := ite_inv (punStore_inv h) (punStore_inv (punStore_inv h))
theorem punKeep_inv {k size : Nat} {lens : List Nat} (h : s.inv) : (punKeep s k size lens).inv := wr_inv (with_punLens_inv h) (by decide)
theorem punTail_inv {k n : Nat} (h : s.inv) : (punTail s k n).inv := punKeep_inv h

theorem encFlush_inv {k : Nat} (h : s.inv) : (encFlush s k).inv := by
  unfold encFlush
  refine each_inv h fun _ _ h => ?_
  split
  · exact ite_inv (punKeep_inv (encWrite_inv h)) (encWrite_inv h)
  · exact h

theorem punIndexPut_inv {k ofs epoch : Nat} {epv : Bool} (h : s.inv) : (punIndexPut s k ofs epoch epv).inv := ite_inv (punStore_inv h) h
theorem punStop_inv {k : Nat} (h : s.inv) : (punStop s k).inv := ite_inv (encFlush_inv (msix_inv (wr_inv h (by decide)))) (msix_inv (wr_inv h (by decide)))
theorem hvCut_inv {k : Nat} (h : s.inv) : (hvCut s k).inv := with_hv_inv h

theorem punAdvance_inv {k n : Nat} (h : s.inv) : (punAdvance s k n).inv := by
  unfold punAdvance
  extract_lets _ s1
  have hs1 : s1.inv := incSat_inv h (by decide)
  exact ite_inv (ite_inv (wr_inv hs1 (by decide)) hs1) (ite_inv (ite_inv (punStop_inv hs1) hs1) h)

theorem punPut_inv {k : Nat} {l : List Byte} {epoch : Nat} {epv : Bool} (h : s.inv) : (punPut s k l epoch epv).inv := by
  unfold punPut
  extract_lets _ _ _ _ _ _ _ s4 s5
  have hs4 : s4.inv := incWrap_inv (punIndexPut_inv (ite_inv (punTail_inv (punStoreRing_inv h)) (with_punLens_inv (punStore_inv h)))) (by decide)
  have hs5 : s5.inv := wr_inv hs4 (by decide)
  exact ite_inv (ite_inv (set_inv hs5 (by decide)) hs5) (wr_inv hs4 (by decide))

theorem punStart_inv {k : Nat} (h : s.inv) : (punStart s k).inv := by
  unfold punStart
  extract_lets _ _ _ _ _ _ _ s8
  have hs8 : s8.inv := by
    refine setEnc_inv ?_
    refine setEnc_inv ?_
    refine with_punLens_inv ?_
    refine clr_inv ?_ (by decide)
    exact clr_inv (clr_inv (clr_inv (clr_inv (clr_inv (clr_inv h (by decide)) (by decide)) (by decide)) (by decide)) (by decide)) (by decide)
  exact ite_inv (wr_inv hs8 (by decide)) (wr_inv hs8 (by decide))

theorem punTrigger_inv {k epoch : Nat} {byCmd : Bool} (h : s.inv) : (punTrigger s k epoch byCmd).inv := by
  unfold punTrigger
  refine ite_inv (set_inv h (by decide)) ?_
  refine ite_inv ?_ h
  extract_lets _ _ s3 _ _ _ s6
  have hs3 : s3.inv := msix_inv (clr_inv (clr_inv (wr_inv (wr_inv (wr_inv h (by decide)) (by decide)) (by decide)) (by decide)) (by decide))
  have hs6 : s6.inv := ite_inv (setCarry_inv (incWrap_inv (punPut_inv hs3) (by decide))) hs3
  exact ite_inv (punStop_inv hs6) hs6

theorem stageRecs_inv {p : Nat} {exempt unit : Bool} {recs : List Rec} (h : s.inv) : (stageRecs s p exempt unit recs).inv :=
  ite_inv h (ite_inv (ite_inv (incSat_inv h (by decide)) h) (setStaged_inv h))

theorem closeRun_inv {p : Nat} (h : s.inv) : (closeRun s p).inv := by
  unfold closeRun
  dsimp only
  split
  · exact h
  · exact stageRecs_inv (setStrm_inv h)

theorem eventRec_inv {p kind pos : Nat} {bytes : List Byte} (h : s.inv) : (eventRec s p kind pos bytes).inv := ite_inv (stageRecs_inv h) h

theorem linkBytes_inv {p : Nat} (h : s.inv) : (linkBytes s p).2.inv := by
  unfold linkBytes
  dsimp only
  split_ifs
  · exact h
  · exact h
  · exact freshNat_inv h

theorem pathEvent_inv {p kind addr : Nat} (h : s.inv) : (pathEvent s p kind addr).inv := eventRec_inv (raise_inv h)
theorem pathEventNext_inv {p kind : Nat} (h : s.inv) : (pathEventNext s p kind).inv := pathEvent_inv h
theorem linkEvent_inv {n : Nat} (h : s.inv) : (linkEvent s n).inv := each_inv h fun _ _ h => eventRec_inv (linkBytes_inv h)

theorem takeSeq_inv {p : Nat} {r : Rec} (h : s.inv) : (takeSeq s p r).2.inv := by
  unfold takeSeq
  dsimp only
  split
  · exact incWrap_inv h (by decide)
  · exact setStrm_inv (incWrap_inv h (by decide))

theorem putRec_inv {k p : Nat} {r : Rec} (h : s.inv) : (putRec k p s r).inv := punAdvance_inv (punPut_inv (takeSeq_inv h))
theorem putGap_inv {t k p : Nat} {before : Rec} (h : s.inv) : (putGap s t k p before).inv := putRec_inv (setStrm_inv h)

theorem dropRec_inv {t p : Nat} {r : Rec} (h : s.inv) : (dropRec t p s r).inv := by
  unfold dropRec
  extract_lets x s1 _ s2 s3 s4 s5
  have hx : x.2.inv := takeSeq_inv h
  have hs1 : s1.inv := hx
  have hs2 : s2.inv := setStrm_inv hs1
  have hs3 : s3.inv := incSat_inv hs2 (by decide)
  have hs4 : s4.inv := incSat_inv hs3 (by decide)
  have hs5 : s5.inv := incSat_inv hs4 (by decide)
  clear_value *
  split
  · exact hs5
  · extract_lets s1
    have hs1 : s1.inv := by
      dsimp only [s1]
      split
      · exact ite_inv (closeRun_inv hs5) hs5
      · exact hs5
    clear_value *
    split
    · exact ite_inv (setStrm_inv hs1) hs1
    · exact hs1

theorem discardUnit_inv {u : Staged} (h : s.inv) : (discardUnit s u).inv := ite_inv (incSat_inv h (by decide)) h

theorem putAll_inv {k p : Nat} {l : List Rec} (h : s.inv) : (putAll k p l s).2.inv := by
  induction l generalizing s with
  | nil => exact h
  | cons r l ih => exact ite_snd_inv h (ite_snd_inv (punStop_inv h) (ih (putRec_inv h)))

theorem putUnit_inv {t : Nat} {u : Staged} {gap : Bool} (h : s.inv) : (putUnit t s u gap).2.inv :=
  ite_snd_inv (putAll_inv h) (ite_snd_inv (punStop_inv h) (putAll_inv (putGap_inv h)))

theorem admitOne_inv {t : Nat} {a : Adm} {u : Staged} (h : a.s.inv) : (admitOne t a u).s.inv := by
  refine ite_of_inv Adm.s (discardUnit_inv h) ?_
  refine ite_of_inv Adm.s (putUnit_inv h) ?_
  exact ite_of_inv Adm.s (ite_inv (putUnit_inv h) (raise_inv (putUnit_inv h))) (foldl_inv h (fun _ _ h => dropRec_inv h))

theorem admitAll_inv {t : Nat} {a : Adm} {us : List Staged} (h : a.s.inv) : (admitAll t a us).s.inv :=
  foldl_of_inv Adm.s h fun _ _ h => foldl_of_inv Adm.s h fun _ _ h => admitOne_inv h

theorem dlyEmpty_inv {p : Nat} (h : s.inv) : (dlyEmpty s p).inv := with_dly_dlyHold_inv (clr_inv (clr_inv h (by decide)) (by decide))
theorem readCharge_inv {t n : Nat} (h : s.inv) : (readCharge s t n).inv := ite_inv (wr_inv h (by decide)) h

end Sys2Proof.Machine
end

section
/-! The invariant under the operations of Machine/Waits: waits. -/
namespace Sys2Proof.Machine

variable {s : State}

theorem pollWaits_inv (h : s.inv) : (pollWaits s).inv := by
  unfold pollWaits
  refine each_inv h fun _ _ h => ?_
  split
  · refine ite_inv h ?_
    split
    · exact setWait_inv h
    · exact h
  · exact h

theorem pollGsb_inv {g i : Nat} (h : s.inv) : (pollGsb s g i).inv := by
  unfold pollGsb
  refine each_inv h fun _ _ h => ?_
  split
  · split
    · exact ite_inv h (setWait_inv h)
    · exact h
  · exact h

theorem guardUnit_inv {p : Nat} (h : s.inv) : (guardUnit s p).inv := by
  unfold guardUnit
  refine each_inv h fun _ _ h => ?_
  split
  · split
    · exact ite_inv (setWait_inv h) h
    · exact h
  · exact h

theorem owedHit_inv {p m key : Nat} (h : s.inv) : (owedHit s p m key).inv := by
  unfold owedHit
  refine each_inv h fun _ _ h => ?_
  split
  · exact ite_inv (setWait_inv h) h
  · exact h

theorem genWaits_inv {p : Nat} (h : s.inv) : (genWaits s p).inv := by
  unfold genWaits
  refine each_inv h fun _ _ h => ?_
  split
  · split
    · exact ite_inv (setWait_inv h) h
    · exact h
  · exact h

end Sys2Proof.Machine
end

section
/-! The invariant under the operations of Machine/Trig: triggers, timebase and vine. -/
namespace Sys2Proof.Machine

variable {s : State}

theorem tlRise_inv {i : Nat} (h : s.inv) : (tlRise s i).inv := by
  refine each_inv (wr_inv (wrBit_inv h (by decide)) (by decide)) fun _ _ h => ?_
  exact ite_inv (ite_inv (set_inv h (by decide)) (ite_inv (wr_inv (set_inv h (by decide)) (by decide)) h)) h

theorem tlNote_inv {i : Nat} (h : s.inv) : (tlNote s i).inv := wrBit_inv h (by decide)

theorem unFell_inv {i : Nat} (h : s.inv) : (unFell s i).inv := by
  unfold unFell
  refine each_inv h fun _ _ h => ?_
  split
  · exact setWait_inv h
  · exact h

theorem tlSet_inv {i : Nat} (h : s.inv) : (tlSet s i).inv := by
  unfold tlSet
  extract_lets _ s1 s2
  have hs1 : s1.inv := wr_inv h (by decide)
  have hs2 : s2.inv := ite_inv hs1 (ite_inv (unFell_inv (wrBit_inv hs1 (by decide))) (tlRise_inv hs1))
  exact pollWaits_inv (wrB_inv (ite_inv (tlNote_inv hs2) hs2) (by decide))

theorem tlFall_inv {i : Nat} (h : s.inv) : (tlFall s i).inv := pollWaits_inv (clr_inv (wrBit_inv h (by decide)) (by decide))

theorem tlClr_inv {i : Nat} (h : s.inv) : (tlClr s i).inv :=
  ite_inv (tlNote_inv h) (ite_inv h (wr_inv (tlFall_inv (wrB_inv (wr_inv h (by decide)) (by decide))) (by decide)))

theorem execTlSet_inv {r : Route} {i : Fin 64} {same : Bool} (h : s.inv) : outInv (execTlSet r i same s) := liveIn_inv h fun _ h => gate_inv
    (fun _ h => tlSet_inv h) h

theorem execTlClr_inv {r : Route} {i : Fin 64} {same : Bool} (h : s.inv) : outInv (execTlClr r i same s) := liveIn_inv h fun _ h => gate_inv
    (fun _ h => tlClr_inv h) h

theorem execTlPulseEnd_inv {i : Fin 64} (h : s.inv) : outInv (execTlPulseEnd i s) := live_inv h fun _ h => ite_inv (tlFall_inv h) h
theorem epochEvents_inv {before after : Nat} (h : s.inv) : (epochEvents s before after).inv := each_inv h fun _ _ h => ite_inv (eventRec_inv h) h

theorem vineAct_inv {v : VTrig} {late : Bool} (h : s.inv) : (vineAct s v late).inv := by
  unfold vineAct
  extract_lets _ _ s3 s4
  have hs3 : s3.inv := wrB_inv (wr_inv (wr_inv h (by decide)) (by decide)) (by decide)
  have hs4 : s4.inv := ite_inv (raise_inv (set_inv hs3 (by decide))) hs3
  exact ite_inv (tlClr_inv hs4) (tlSet_inv hs4)

theorem vineRecount_inv (h : s.inv) : (vineRecount s).inv := wr_inv h (by decide)
theorem vineDue_inv (h : s.inv) : (vineDue s).inv := ite_inv (vineRecount_inv (foldl_inv (with_vheld_inv h) (fun _ _ h => vineAct_inv h))) h
theorem epochMoved_inv (h : s.inv) : (epochMoved s).inv := pollWaits_inv (vineDue_inv h)

theorem epochLoad_inv {e : Nat} (h : s.inv) : (epochLoad s e).inv := by
  unfold epochLoad
  extract_lets _ _ _ _ s2 s3 s4
  have hs2 : s2.inv := set_inv (wr_inv (with_vofs_inv (clr_inv (clr_inv (clr_inv h (by decide)) (by decide)) (by decide))) (by decide)) (by decide)
  have hs3 : s3.inv := ite_inv hs2 (endCause_inv hs2)
  have hs4 : s4.inv := ite_inv hs3 (incSat_inv hs3 (by decide))
  exact epochMoved_inv (ite_inv hs4 (epochEvents_inv hs4))

theorem epochLose_inv (h : s.inv) : (epochLose s).inv := by
  unfold epochLose
  extract_lets _ s2
  have hs2 : s2.inv := clr_inv (clr_inv (clr_inv (clr_inv (clr_inv h (by decide)) (by decide)) (by decide)) (by decide)) (by decide)
  refine ite_inv ?_ hs2
  exact epochEvents_inv (raiseCause_inv (clr_inv (clr_inv (clr_inv (set_inv (clr_inv hs2 (by decide)) (by decide)) (by decide)) (by decide)) (by decide)))

theorem slewBegin_inv {ofs : Int} (h : s.inv) : (slewBegin s ofs).inv :=
  ite_inv (clr_inv (clr_inv h (by decide)) (by decide)) (wr_inv (set_inv h (by decide)) (by decide))

theorem execEpochSlewTick_inv (h : s.inv) : outInv (execEpochSlewTick s) :=
  live_inv h fun _ h => ite_inv h (epochMoved_inv (slewBegin_inv (ite_inv (incWrap_inv h (by decide)) (wr_inv h (by decide)))))

theorem execTrefFrame_inv {sync : Bool} {epochBytes : BitVec 64} {crc : BitVec 8} {late : Nat} (h : s.inv) : outInv (execTrefFrame sync epochBytes crc late s) := by
  refine live_inv h fun _ h => ?_
  refine ite_inv h ?_
  refine ite_inv ?_ ?_
  · refine ite_inv ?_ ?_
    · refine ite_inv (slewBegin_inv (clr_inv (clr_inv h (by decide)) (by decide))) ?_
      exact ite_inv (epochLose_inv (incSat_inv (clr_inv h (by decide)) (by decide))) (incSat_inv (clr_inv h (by decide)) (by decide))
    · exact ite_inv (epochLose_inv (incSat_inv h (by decide))) (incSat_inv h (by decide))
  · refine ite_inv ?_ (clr_inv h (by decide))
    exact ite_inv (set_inv (epochLoad_inv (wr_inv (set_inv h (by decide)) (by decide))) (by decide)) (wr_inv (set_inv h (by decide)) (by decide))

theorem execTrefEdgeLoss_inv (h : s.inv) : outInv (execTrefEdgeLoss s) := live_inv h fun _ h => ite_inv (epochLose_inv h) h
theorem vineSend_inv {i kind : Nat} {ws : List Nat} (h : s.inv) : (vineSend s i kind ws).inv := emit_inv h
theorem vineTake_inv {v : VTrig} (h : s.inv) : (vineTake s v).inv := ite_inv (vineAct_inv h) (vineRecount_inv (with_vheld_inv h))
theorem rootAdmit_inv {v : VTrig} (h : s.inv) : (rootAdmit s v).inv := vineTake_inv (each_inv (wr_inv h (by decide)) (fun _ _ h => vineSend_inv h))
theorem rootRequest_inv {v : VTrig} (h : s.inv) : (rootRequest s v).inv := ite_inv (rootAdmit_inv h) (with_vwait_inv h)

theorem vineRequest_inv {vl : Nat} {clear : Bool} {t : Nat} (h : s.inv) : (vineRequest s vl clear t).2.inv :=
  ite_snd_inv (rootRequest_inv h) (ite_snd_inv (vineSend_inv h) (ite_snd_inv (with_vreq_inv h) h))

theorem vinSendWrite_inv {v : Nat} (h : s.inv) : (vinSendWrite s v).inv := ite_inv (wr_inv (vineRequest_inv h) (by decide)) h

theorem execVinSend_inv {r : Route} {vl : Fin 16} {clear : Bool} (h : s.inv) : outInv (execVinSend r vl clear s) :=
  live_inv h fun _ h => gate_inv (fun _ h => vinSendWrite_inv h) h

theorem execVinePortState_inv {i st : Fin 4} (h : s.inv) : outInv (execVinePortState i st s) := by
  unfold execVinePortState
  refine live_inv h fun _ h => ?_
  extract_lets _ s1
  have hs1 : s1.inv := wr_inv h (by decide)
  exact ite_inv (ite_inv (with_vreq_inv (each_inv hs1 (fun _ _ h => vineSend_inv h))) (ite_inv hs1 (epochLose_inv hs1))) hs1

theorem execVineEpochSend_inv (h : s.inv) : outInv (execVineEpochSend s) := live_inv h fun _ h => each_inv h fun _ _ h => vineSend_inv h
theorem vineAcquire_inv {e : Nat} (h : s.inv) : (vineAcquire s e).inv := ite_inv (set_inv (epochLoad_inv h) (by decide)) h

theorem execVineEpochFrame_inv {epoch : BitVec 64} {valid : Bool} {hops : Nat} {parent : BitVec 16} (h : s.inv) : outInv
    (execVineEpochFrame epoch valid hops parent s) := by
  refine live_inv h fun _ h => ?_
  refine ite_inv h ?_
  refine ite_inv (epochLose_inv (raise_inv (wr_inv h (by decide)))) ?_
  refine ite_inv (epochLose_inv (wr_inv (wr_inv h (by decide)) (by decide))) ?_
  exact vineAcquire_inv (incSat_inv (wr_inv (wr_inv h (by decide)) (by decide)) (by decide))

theorem execEpochFrameTimeout_inv (h : s.inv) : outInv (execEpochFrameTimeout s) := live_inv h fun _ h => ite_inv h (epochLose_inv h)
theorem execVineDreqSend_inv (h : s.inv) : outInv (execVineDreqSend s) := live_inv h fun _ h => ite_inv h (vineSend_inv (wr_inv (wr_inv h (by decide)) (by decide)))

theorem execVineDreq_inv {i : Fin 4} {seq : BitVec 16} {turn : Nat} (h : s.inv) : outInv (execVineDreq i seq turn s) := live_inv h fun _ h => ite_inv
    (vineSend_inv h) h

theorem execVineDrsp_inv {seq : BitVec 16} {t2 t3 : BitVec 64} {wait : Nat} (h : s.inv) : outInv (execVineDrsp seq t2 t3 wait s) := by
  unfold execVineDrsp
  refine live_inv h fun _ h => ?_
  refine ite_inv h ?_
  extract_lets _ _ _ _ _ _ _ _ _ _ _ _ s4
  have hs4 : s4.inv := wr_inv (wr_inv (incSat_inv (with_vdel_vofs_inv h) (by decide)) (by decide)) (by decide)
  exact ite_inv (ite_inv (slewBegin_inv hs4) (epochLoad_inv hs4)) (vineAcquire_inv hs4)

theorem execVineStatusSend_inv (h : s.inv) : outInv (execVineStatusSend s) := live_inv h fun _ h => ite_inv h (vineSend_inv h)

theorem execVineStatusFrame_inv {_i : Fin 4} {_id : BitVec 16} {_hops : Nat} {_valid _miss : Bool} (h : s.inv) : outInv
    (execVineStatusFrame _i _id _hops _valid _miss s) :=
  live_inv h fun _ h => h

theorem execVineTrigup_inv {i : Fin 4} {origin : BitVec 16} {vl : Fin 16} {clear : Bool} {t : BitVec 64} {lateO : Bool} (h : s.inv) : outInv
    (execVineTrigup i origin vl clear t lateO s) :=
  live_inv h fun _ h => ite_inv h (ite_inv (rootRequest_inv h) (ite_inv (vineSend_inv h) h))

theorem execRootTriggerAdmit_inv (h : s.inv) : outInv (execRootTriggerAdmit s) := by
  unfold execRootTriggerAdmit
  refine live_inv h fun _ h => ?_
  split
  · exact ite_inv (rootAdmit_inv (with_vwait_inv h)) h
  · exact h

theorem execVineTrig_inv {seq origin : BitVec 16} {vl : Fin 16} {clear : Bool} {t : BitVec 64} {lateO : Bool} (h : s.inv) : outInv
    (execVineTrig seq origin vl clear t lateO s) := by
  refine live_inv h fun _ h => ?_
  refine ite_inv h ?_
  exact vineTake_inv (each_inv (set_inv (wr_inv (ite_inv (raise_inv (set_inv h (by decide))) h) (by decide)) (by decide)) (fun _ _ h => vineSend_inv h))

theorem execVineTriggerAct_inv {same : Bool} (h : s.inv) : outInv (execVineTriggerAct same s) := liveIn_inv h fun _ h => vineDue_inv h

theorem vinCtlSet_inv {v : Nat} (h : s.inv) : (vinCtlSet s v).inv := by
  unfold vinCtlSet
  extract_lets _ s1 _ _ _ s4
  have hs1 : s1.inv := wr_inv (wr_inv (wr_inv h (by decide)) (by decide)) (by decide)
  have hs4 : s4.inv := by
    refine each_inv ?_ fun _ _ h => ite_inv h (clr_inv h (by decide))
    exact ite_inv hs1 (with_vdel_vofs_inv (ite_inv (clr_inv (epochLose_inv hs1) (by decide)) (epochLose_inv hs1)))
  exact ite_inv hs4 (epochLose_inv hs4)

theorem vinNodeSet_inv {v : Nat} (h : s.inv) : (vinNodeSet s v).inv := ite_inv h (epochLose_inv (wr_inv h (by decide)))

theorem execVinCtlWrite_inv {r : Route} {node : Bool} {v : DW} (h : s.inv) : outInv (execVinCtlWrite r node v s) :=
  live_inv h fun _ h => ite_inv (gate_inv (fun _ h => vinNodeSet_inv h) h) (gate_inv (fun _ h => vinCtlSet_inv h) h)

end Sys2Proof.Machine
end

section
/-! The invariant under the operations of Machine/Line: line units. -/
namespace Sys2Proof.Machine

variable {s : State}

theorem setItems_inv {p : Nat} {v : List Item} (h : s.inv) : (s.setItems p v).inv := with_items_inv h
theorem setHeld_inv {p : Nat} {v : List HeldUnit} (h : s.inv) : (s.setHeld p v).inv := with_held_inv h

end Sys2Proof.Machine
end

section
/-! The invariant under the operations of Machine/Inj: the injection queue. -/
namespace Sys2Proof.Machine

variable {s : State}

theorem cancelAction_inv {p addr : Nat} (h : s.inv) : (cancelAction s p addr).inv := incSat_inv (pathEvent_inv h) (by decide)

theorem injTake_inv {e lp act : Nat} {fix : Bool} {m : Moment} {data src : Nat} (h : s.inv) : (injTake s e lp act fix m data src).inv := by
  refine wr_inv ?_ (by decide)
  refine clr_inv ?_ (by decide)
  refine clr_inv ?_ (by decide)
  refine clr_inv ?_ (by decide)
  refine incWrap_inv ?_ (by decide)
  refine wr_inv ?_ (by decide)
  refine wr_inv ?_ (by decide)
  refine wr_inv ?_ (by decide)
  exact wr_inv (wrB_inv (wrB_inv (wr_inv (wr_inv (wr_inv h (by decide)) (by decide)) (by decide)) (by decide)) (by decide)) (by decide)

theorem injRelease_inv {e : Nat} (h : s.inv) : (injRelease s e).inv := wr_inv (wr_inv h (by decide)) (by decide)

theorem injRecord_inv {g lp pos outcome ent src : Nat} (h : s.inv) : (injRecord s g lp pos outcome ent src).inv := by
  unfold injRecord
  extract_lets _ _ _ _ _ _ s6
  have hs6 : s6.inv := incWrap_inv (wr_inv (wr_inv (wr_inv (wr_inv (wr_inv h (by decide)) (by decide)) (by decide)) (by decide)) (by decide)) (by decide)
  exact ite_inv (incSat_inv hs6 (by decide)) (incSat_inv hs6 (by decide))

theorem injEvent_inv {g lp pos outcome ent : Nat} (h : s.inv) : (injEvent s g lp pos outcome ent).inv :=
  ite_inv (raise_inv h) (ite_inv (raise_inv h) (ite_inv (pathEvent_inv h) (ite_inv (cancelAction_inv h) (ite_inv (pathEvent_inv h) h))))

theorem injDone_inv {e pos outcome : Nat} (h : s.inv) : (injDone s e pos outcome).inv := injRelease_inv (injEvent_inv (injRecord_inv h))
theorem injNone_inv {g lp pos outcome src : Nat} (h : s.inv) : (injNone s g lp pos outcome src).inv := injEvent_inv (injRecord_inv h)

theorem alterOne_inv {p : Nat} {t : Target} {a : AlterAcc} {e : Nat} (h : a.s.inv) : (alterOne p t a e).s.inv := by
  refine ite_of_inv AlterAcc.s (injDone_inv h) ?_
  exact ite_of_inv AlterAcc.s (injDone_inv h) (ite_of_inv AlterAcc.s (injDone_inv h) (ite_inv (raise_inv (injDone_inv h)) (injDone_inv h)))

theorem supersede_inv {pos : Nat} {es : List Nat} (h : s.inv) : (supersede s pos es).inv := foldl_inv h fun _ _ h => injDone_inv h

theorem applyTarget_inv {p : Nat} {x : State × List SendUnit} {t : Target} {es : List Nat} (h : x.1.inv) : (applyTarget p x t es).1.inv := by
  unfold applyTarget
  dsimp only
  split
  · exact supersede_inv (injDone_inv (foldl_inv h (fun _ _ h => injDone_inv h)))
  · exact foldl_inv (foldl_of_inv AlterAcc.s (foldl_inv h (fun _ _ h => injDone_inv h)) (fun _ _ h => alterOne_inv h)) fun _ _ h => injDone_inv h

theorem applyClean_inv {p : Nat} {us : List SendUnit} {u : HeldUnit} {e : Nat} (h : s.inv) : (applyClean p us u s e).inv :=
  ite_inv (injDone_inv h) (ite_inv (wr_inv (injDone_inv h) (by decide)) (emit_inv (wr_inv (injDone_inv h) (by decide))))

theorem applyInsert_inv {p : Nat} {x : State × List SendUnit} {e : Nat} (h : x.1.inv) : (applyInsert p x e).1.inv := by
  unfold applyInsert
  dsimp only
  split
  · exact h
  · refine ite_fst_inv (injDone_inv h) ?_
    refine ite_fst_inv (injDone_inv h) ?_
    split
    · exact ite_fst_inv (injDone_inv h) (wr_inv (set_inv h (by decide)) (by decide))
    · exact wr_inv (set_inv h (by decide)) (by decide)

theorem resolve_inv {p : Nat} {us : List SendUnit} {acc : List (Tgt × Nat) × State} {e : Nat} (h : acc.2.inv) : (resolve p us acc e).2.inv := by
  unfold resolve
  dsimp only
  split
  · exact h
  · exact injDone_inv h
  · exact ite_snd_inv (injDone_inv h) (ite_snd_inv (injDone_inv h) h)
  · exact h

theorem applyEntries_inv {p : Nat} {us : List SendUnit} (h : s.inv) : (applyEntries s p us).1.inv := by
  unfold applyEntries
  refine foldl_fst_inv ?_ fun _ _ h => applyInsert_inv h
  refine foldl_fst_inv ?_ fun _ _ h => ?_
  · refine foldl_snd_inv ?_ fun _ _ h => resolve_inv h
    refine foldl_inv h fun _ _ h => ?_
    split
    · split
      · exact applyClean_inv h
      · exact h
    · exact h
  · split
    · exact applyTarget_inv h
    · exact h

theorem setStrikes_inv {q : Nat} {v : List (Nat × Nat)} (h : s.inv) : (s.setStrikes q v).inv := with_strikes_inv h
theorem startBursts_inv {p : Nat} {u : HeldUnit} (h : s.inv) : (startBursts s p u).inv := ite_inv h (foldl_inv h (fun _ _ h => setStrikes_inv (injDone_inv h)))

theorem strikeLane_inv {p bits : Nat} {u : HeldUnit} {x : State × List Byte} {lane : Nat} (h : x.1.inv) : (strikeLane p bits u x lane).1.inv :=
  ite_fst_inv h (foldl_fst_inv (setStrikes_inv h) (fun _ _ h => ite_fst_inv h (ite_fst_inv h (emit_inv h))))

theorem transmit_inv {p : Nat} {line : List Byte} {reenc : Bool} (h : s.inv) : (transmit s p line reenc).inv :=
  ite_inv (incSat_inv h (by decide)) (ite_inv h (emit_inv h))

theorem regenPiece_inv {p : Nat} {x : List Byte × State} {pc : Piece} (h : x.2.inv) : (regenPiece p x pc).2.inv :=
  ite_snd_inv (foldl_snd_inv h (fun _ _ h => with_freeCtr_inv h)) (ite_snd_inv h h)

theorem regen_inv {p : Nat} {retimed : Bool} {u : HeldUnit} {l : List Byte} (h : s.inv) : (regen s p retimed u l).2.inv :=
  ite_snd_inv (foldl_snd_inv h (fun _ _ h => regenPiece_inv h)) h

theorem noteClean_inv {p : Nat} {u : HeldUnit} (h : s.inv) : (noteClean s p u).inv := ite_inv h (emit_inv h)

theorem sendUnit_inv {p : Nat} {retimed : Bool} {x : SendUnit} (h : s.inv) : (sendUnit p retimed s x).inv := by
  unfold sendUnit
  extract_lets _ y
  have hy : y.1.inv := foldl_fst_inv (startBursts_inv h) fun _ _ h => strikeLane_inv h
  refine ite_inv ?_ (transmit_inv (regen_inv (noteClean_inv hy)))
  exact ite_inv (transmit_inv (regen_inv (set_inv (noteClean_inv hy) (by decide)))) (noteClean_inv hy)

theorem fireUnits_inv {p : Nat} {retimed : Bool} {us : List HeldUnit} (h : s.inv) : (fireUnits s p retimed us).inv :=
  foldl_inv (applyEntries_inv h) fun _ _ h => sendUnit_inv h

theorem cancelEntries_inv {p pos : Nat} {f : State → Nat → Bool} (h : s.inv) : (cancelEntries s p pos f).inv := foldl_inv h fun _ _ h => injDone_inv h
theorem cancelUnspliced_inv {p pos stamp : Nat} (h : s.inv) : (cancelUnspliced s p pos stamp).inv := ite_inv h (cancelEntries_inv h)
theorem execInsertSearchExpire_inv {g : Fin 16} {e : Fin 64} (h : s.inv) : outInv (execInsertSearchExpire g e s) := live_inv h fun _ h => ite_inv (injDone_inv h) h

theorem missUnit_inv {p pos stamp : Nat} (h : s.inv) : (missUnit s p pos stamp).inv :=
  foldl_inv h fun _ _ h => ite_inv (wr_inv (set_inv h (by decide)) (by decide)) (injDone_inv h)

theorem injCmd_inv {g v : Nat} (h : s.inv) : (injCmd s g v).inv := ite_inv (injDone_inv h) h

theorem execInjCancel_inv {r : Route} {g : Fin 16} {e : Fin 64} (h : s.inv) : outInv (execInjCancel r g e s) :=
  live_inv h fun _ h => gate_inv (fun _ h => injCmd_inv h) h

end Sys2Proof.Machine
end

section
/-! The invariant under the operations of Machine/PunRead: punnet reads and replay. -/
namespace Sys2Proof.Machine

variable {s : State}

theorem punRead_inv {src k at_ n : Nat} {plain : Bool} (h : s.inv) : (punRead s src k at_ n plain).2.2.inv :=
  punRead_keeps s State.inv (fun _ _ _ _ h => readBytes_inv h) src k at_ n plain h

theorem punReadRing_inv {src k ofs n : Nat} (h : s.inv) : (punReadRing s src k ofs n).2.2.inv := ite_snd_snd_inv (punRead_inv h) (punRead_inv (punRead_inv h))

theorem markEntry_inv {k e : Nat} (h : s.inv) : (markEntry s k e).inv := by
  unfold markEntry
  refine ite_inv ?_ (writeWords_inv h)
  split
  · refine ite_inv (setEnc_inv h) ?_
    split
    · exact writeWords_inv h
    · exact h
  · exact writeWords_inv h
  · exact h

theorem punDamage_inv {A : Nat} (h : s.inv) : (punDamage s A).inv := by
  unfold punDamage
  split
  · exact h
  · refine ite_inv ?_ h
    refine ite_inv (incSat_inv h (by decide)) ?_
    dsimp only
    split
    · exact markEntry_inv (incSat_inv h (by decide))
    · exact incSat_inv h (by decide)

theorem setRpl_inv {p : Nat} {v : Option RplSt} (h : s.inv) : (s.setRpl p v).inv := with_rpl_inv h

theorem rplRestart_inv {p : Nat} (h : s.inv) : (rplRestart s p).inv := by
  obtain ⟨r, e | ⟨q, e⟩⟩ := rplRestart_cases s p
  · exact e ▸ setRpl_inv h
  · exact e ▸ wr_inv (setRpl_inv h) (by decide)

theorem rplBegin_inv {p : Nat} (h : s.inv) : (rplBegin s p).inv := clr_inv (rplRestart_inv h) (by decide)
theorem rplEnd_inv {p : Nat} (h : s.inv) : (rplEnd s p).inv := ite_inv (rplRestart_inv h) (emit_inv (set_inv (setRpl_inv h) (by decide)))
theorem rplSend_inv {p : Nat} {o : Out} {unit : Bool} (h : s.inv) : (rplSend s p o unit).inv := ite_inv (ite_inv (incSat_inv h (by decide)) h) (emit_inv h)
theorem rplUnit_inv {p : Nat} {u : List Byte} (h : s.inv) : (rplUnit s p u).inv := rplSend_inv h
theorem rplFill_inv {p : Nat} (h : s.inv) : (rplFill s p).inv := rplSend_inv h
theorem rplCharge_inv {p n : Nat} (h : s.inv) : (rplCharge s p n).inv := wr_inv h (by decide)

theorem rplWalk_inv {p n : Nat} {r : RplSt} (h : s.inv) : (rplWalk p n r s).inv := by
  induction n generalizing r s with
  | zero => exact rplEnd_inv h
  | succ n ih =>
    have hread (ofs m k : Nat) {s : State} (h : s.inv) :
        (if (punReadRing s 1 k ofs m).2.1 = [] then rplCharge (punReadRing s 1 k ofs m).2.2 p m
          else pathEventNext (rplCharge (punReadRing s 1 k ofs m).2.2 p m) p msgUNCORR).inv :=
      ite_inv (rplCharge_inv (punReadRing_inv h)) (pathEventNext_inv (rplCharge_inv (punReadRing_inv h)))
    refine ite_inv (ite_inv (rplEnd_inv h) (rplFill_inv (setRpl_inv h))) ?_
    have hs2 := hread r.ofs 32 (s.rd .RPL_CFG_PUN p) h
    generalize (if (punReadRing s 1 (s.rd .RPL_CFG_PUN p) r.ofs 32).2.1 = [] then rplCharge (punReadRing s 1 (s.rd .RPL_CFG_PUN p) r.ofs 32).2.2 p 32
          else pathEventNext (rplCharge (punReadRing s 1 (s.rd .RPL_CFG_PUN p) r.ofs 32).2.2 p 32) p msgUNCORR) = u at hs2 ⊢
    refine ite_inv (ih hs2) (ite_inv (ih hs2) ?_)
    refine ite_inv (rplFill_inv (wr_inv (setRpl_inv hs2) (by decide))) ?_
    have hs4 (ofs m : Nat) := hread ofs m (s.rd .RPL_CFG_PUN p) hs2
    refine ite_inv (rplEnd_inv (pathEventNext_inv (set_inv (wr_inv (hs4 _ _) (by decide)) (by decide)))) ?_
    extract_lets _ _ done cnt u' s5
    have hdone : done.inv := wr_inv (hs4 _ _) (by decide)
    have hs5 : s5.inv := ite_inv hdone (hs4 _ _)
    refine (ite_inv (ite_inv (ih (hs4 _ _)) (rplUnit_inv (setRpl_inv hdone))) (ite_inv ?_ (ih hdone)))
    exact ite_inv (ih hs5) (ite_inv (rplFill_inv (setRpl_inv (ite_inv hs5 hdone))) (rplUnit_inv (setRpl_inv hs5)))

theorem rplStep_inv {p : Nat} (h : s.inv) : (rplStep s p).inv := by
  unfold rplStep
  refine ite_inv h ?_
  split
  · exact h
  · refine ite_inv (rplFill_inv (setRpl_inv h)) ?_
    refine ite_inv ?_ (ite_inv (rplWalk_inv h) h)
    refine rplUnit_inv ?_
    refine setRpl_inv ?_
    split
    · exact ite_inv (wr_inv h (by decide)) h
    · exact h

end Sys2Proof.Machine
end

section
/-! The invariant under the operations of Machine/Capture: capture. -/
namespace Sys2Proof.Machine

variable {s : State}

theorem pendCount_inv {p : Nat} (h : s.inv) : (pendCount s p).inv := wr_inv h (by decide)

theorem capAccept_inv {p : Nat} {m : Moment} {kind : CapKind} {cause src : Nat} (h : s.inv) : (capAccept s p m kind cause src).2.inv :=
  ite_snd_inv h (ite_snd_inv h (ite_snd_inv h (ite_snd_inv h (ite_snd_inv h (ite_snd_inv h (pendCount_inv (setStrm_inv h)))))))

theorem capOn_inv {p pos : Nat} (h : s.inv) : (capOn s p pos).inv := ite_inv h (eventRec_inv (linkBytes_inv (wr_inv (set_inv h (by decide)) (by decide))))
theorem capOff_inv {p pos cause : Nat} (h : s.inv) : (capOff s p pos cause).inv := ite_inv (clr_inv (eventRec_inv (closeRun_inv h)) (by decide)) h

theorem capDo_inv {p pos : Nat} {a : CapAct} (h : s.inv) : (capDo p pos s a).inv := by
  unfold capDo
  split
  · exact capOn_inv h
  · exact capOff_inv h
  · exact h

theorem capMark_inv {p pos stamp : Nat} {valid : Bool} {a : CapAct} (h : s.inv) : (capMark p pos stamp valid s a).inv := by
  unfold capMark
  split
  · exact ite_inv (stageRecs_inv h) h
  · exact h

theorem capCancelUntapped_inv {p pos stamp : Nat} (h : s.inv) : (capCancelUntapped s p pos stamp).inv :=
  ite_inv h (foldl_inv (pendCount_inv (setStrm_inv h)) (fun _ _ h => cancelAction_inv h))

theorem applyCaps_inv {p pos stamp : Nat} {valid : Bool} (h : s.inv) : (applyCaps s p pos stamp valid).inv := by
  unfold applyCaps
  extract_lets _ _ _ s2
  have hs2 : s2.inv := by
    refine ite_inv h ?_
    exact ite_inv (ite_inv (capOff_inv (setStrm_inv h)) (capOn_inv (setStrm_inv h))) (foldl_inv (setStrm_inv h) (fun _ _ h => set_inv h (by decide)))
  refine ite_inv (capCancelUntapped_inv hs2) ?_
  exact foldl_inv (foldl_inv (pendCount_inv (setStrm_inv (capCancelUntapped_inv hs2))) (fun _ _ h => capDo_inv h)) fun _ _ h => capMark_inv h

theorem strmAssign_inv {p pun cls : Nat} (h : s.inv) : (strmAssign s p pun cls).inv := ite_inv h (clr_inv (wr_inv (wr_inv h (by decide)) (by decide)) (by decide))

theorem strmCfgSet_inv {p v : Nat} (h : s.inv) : (strmCfgSet s p v).inv := by
  unfold strmCfgSet
  extract_lets s1 _ _ s2
  have hs1 : s1.inv := w1c_inv h (by decide)
  have hs2 : s2.inv := ite_inv (set_inv hs1 (by decide)) (strmAssign_inv hs1)
  exact wr_inv (wr_inv (wr_inv (wr_inv (ite_inv hs2 (closeRun_inv hs2)) (by decide)) (by decide)) (by decide)) (by decide)

theorem execStrmCfgWrite_inv {r : Route} {p : Fin 512} {v : DW} (h : s.inv) : outInv (execStrmCfgWrite r p v s) :=
  live_inv h fun _ h => gate_inv (fun _ h => strmCfgSet_inv h) h

theorem strmCmd_inv {v : Nat} (h : s.inv) : (strmCmd s v).inv := ite_inv (wr_inv h (by decide)) (ite_inv (wr_inv (capAccept_inv h) (by decide)) h)
theorem execStrmOn_inv {r : Route} {p : Fin 512} (h : s.inv) : outInv (execStrmOn r p s) := live_inv h fun _ h => gate_inv (fun _ h => strmCmd_inv h) h
theorem execStrmOff_inv {r : Route} {p : Fin 512} (h : s.inv) : outInv (execStrmOff r p s) := live_inv h fun _ h => gate_inv (fun _ h => strmCmd_inv h) h

theorem execStrmCmdTimeout_inv {p : Fin 512} (h : s.inv) : outInv (execStrmCmdTimeout p s) :=
  live_inv h fun _ h => foldl_inv (pendCount_inv (setStrm_inv h)) fun _ _ h => ite_inv (capDo_inv h) (cancelAction_inv h)

theorem execElideRunClose_inv {p : Fin 512} (h : s.inv) : outInv (execElideRunClose p s) := live_inv h fun _ h => closeRun_inv h

theorem punCfgFields_inv {k v idxk : Nat} (h : s.inv) : (punCfgFields s k v idxk).inv :=
  wr_inv (wr_inv (wr_inv (wr_inv (wr_inv (wr_inv h (by decide)) (by decide)) (by decide)) (by decide)) (by decide)) (by decide)

theorem punCfgSet_inv {k v : Nat} (h : s.inv) : (punCfgSet s k v).inv := by
  refine ite_inv ?_ ?_
  · refine ite_inv (ite_inv h (set_inv h (by decide))) ?_
    refine ite_inv (set_inv h (by decide)) ?_
    refine punCfgFields_inv ?_
    exact clr_inv (wr_inv (clr_inv (hvCut_inv (setEnc_inv (setEnc_inv (ite_inv (encFlush_inv h) h)))) (by decide)) (by decide)) (by decide)
  · exact ite_inv (ite_inv h (ite_inv (punStart_inv (set_inv (punCfgFields_inv h) (by decide))) (set_inv h (by decide)))) (punCfgFields_inv h)

theorem execPunCfgWrite_inv {r : Route} {k : Fin 256} {v : DW} (h : s.inv) : outInv (execPunCfgWrite r k v s) :=
  live_inv h fun _ h => gate_inv (fun _ h => punCfgSet_inv h) h

theorem punIfOff_inv {k : Nat} {f : State → State} (h : s.inv) (hf : ∀ s, s.inv → (f s).inv) : (punIfOff s k f).inv := ite_inv (set_inv h (by decide)) (hf _ h)

theorem punCmd_inv {v : Nat} (h : s.inv) : (punCmd s v).inv := by
  refine ite_inv h ?_
  refine ite_inv (wr_inv h (by decide)) ?_
  refine ite_inv (wr_inv h (by decide)) ?_
  refine ite_inv (wr_inv (punTrigger_inv h) (by decide)) ?_
  refine ite_inv ?_ (wr_inv (ite_inv (encFlush_inv h) h) (by decide))
  exact ite_inv (wr_inv (clr_inv (punStart_inv (hvCut_inv h)) (by decide)) (by decide)) (wr_inv h (by decide))

theorem execPunTrig_inv {r : Route} {k : Fin 256} (h : s.inv) : outInv (execPunTrig r k s) := live_inv h fun _ h => gate_inv (fun _ h => punCmd_inv h) h
theorem execPunRestart_inv {r : Route} {k : Fin 256} (h : s.inv) : outInv (execPunRestart r k s) := live_inv h fun _ h => gate_inv (fun _ h => punCmd_inv h) h
theorem execPunFlush_inv {r : Route} {k : Fin 256} (h : s.inv) : outInv (execPunFlush r k s) := live_inv h fun _ h => gate_inv (fun _ h => punCmd_inv h) h

theorem execPunnetLineTrigger_inv {k : Fin 256} (h : s.inv) : outInv (execPunnetLineTrigger k s) :=
  live_inv h fun _ h => ite_inv (punTrigger_inv (clr_inv h (by decide))) h

theorem execXtsUnitRewrite_inv {k : Fin 256} (h : s.inv) : outInv (execXtsUnitRewrite k s) := live_inv h fun _ h => encFlush_inv h

theorem rplCfgSet_inv {p v : Nat} (h : s.inv) : (rplCfgSet s p v).inv := ite_inv h
    (wr_inv (wr_inv (wr_inv (wr_inv h (by decide)) (by decide)) (by decide)) (by decide))

theorem execRplCfgWrite_inv {r : Route} {p : Fin 512} {v : DW} (h : s.inv) : outInv (execRplCfgWrite r p v s) :=
  live_inv h fun _ h => gate_inv (fun _ h => rplCfgSet_inv h) h

end Sys2Proof.Machine
end

section
/-! The invariant under the operations of Machine/Mem: the towers at work. -/
namespace Sys2Proof.Machine

variable {s : State}

theorem execRefreshCommand_inv {t : Fin 2} {c : Fin 16} {pc : Fin 2} (h : s.inv) : outInv (execRefreshCommand t c pc s) :=
  live_inv h fun _ h => ite_inv (each_inv (incSat_inv h (by decide)) (fun _ _ h => with_banks_inv h)) h

theorem execRefreshManagement_inv {t : Fin 2} {c : Fin 16} {pc : Fin 2} {bank : Fin 16} (h : s.inv) : outInv (execRefreshManagement t c pc bank s) :=
  live_inv h fun _ h => ite_inv (incSat_inv (with_banks_inv (emit_inv h)) (by decide)) h

theorem twrClr_inv {t v : Nat} (h : s.inv) : (twrClr s t v).inv := by
  refine ite_inv h ?_
  refine ite_inv (wr_inv h (by decide)) ?_
  refine ite_inv (wr_inv h (by decide)) ?_
  refine ite_inv (wr_inv h (by decide)) ?_
  exact ite_inv (wr_inv h (by decide)) (clr_inv (wr_inv (set_inv (wr_inv (wr_inv h (by decide)) (by decide)) (by decide)) (by decide)) (by decide))

theorem execTowerClear_inv {r : Route} {t : Fin 2} {first count : BitVec 12} (h : s.inv) : outInv (execTowerClear r t first count s) :=
  live_inv h fun _ h => gate_inv (fun _ h => twrClr_inv h) h

theorem execTowerClearDone_inv {t : Fin 2} (h : s.inv) : outInv (execTowerClearDone t s) := live_inv h fun _ h => ite_inv (clearEnd_inv h) h
theorem repHeader_inv {n : Nat} (h : s.inv) : (repHeader s n).inv := setNvms_inv h
theorem repAppend_inv {e : RepEnt} (h : s.inv) : (repAppend s e).inv := ite_inv (repHeader_inv (setNvms_inv h)) h
theorem repRewrite_inv {f : RepEnt → Bool} (h : s.inv) : (repRewrite s f).inv := repHeader_inv (setNvms_inv h)
theorem spareRecount_inv {t c : Nat} (h : s.inv) : (spareRecount s t c).inv := wr_inv (wr_inv (wr_inv h (by decide)) (by decide)) (by decide)
theorem repCheck_inv (h : s.inv) : (repCheck s).inv := each_inv h fun _ _ h => raise_inv h
theorem repTidy_inv (h : s.inv) : (repTidy s).inv := ite_inv h (repRewrite_inv h)

theorem repApply_inv {t : Nat} {cs : List Nat} (h : s.inv) : (repApply s t cs).inv := by
  unfold repApply
  refine each_inv ?_ fun _ _ h => spareRecount_inv h
  refine each_inv h fun _ _ h => ?_
  split
  · exact h
  · exact ite_inv (with_reps_inv h) h

theorem chanResetBegin_inv {t c : Nat} (h : s.inv) : (chanResetBegin s t c).inv :=
  ite_inv (set_inv h (by decide)) (wr_inv (wr_inv (clr_inv h (by decide)) (by decide)) (by decide))

theorem chCmd_inv {t c v : Nat} (h : s.inv) : (chCmd s t c v).inv := ite_inv h (ite_inv (wr_inv h (by decide)) (chanResetBegin_inv (wr_inv h (by decide))))
theorem execChReset_inv {r : Route} {t : Fin 2} {c : Fin 16} (h : s.inv) : outInv (execChReset r t c s) := live_inv h fun _ h => gate_inv (fun _ h => chCmd_inv h) h
theorem chanDone_inv {t c : Nat} (h : s.inv) : (chanDone s t c).inv := ite_inv (wr_inv h (by decide)) (wr_inv (wr_inv h (by decide)) (by decide))

theorem execChanResetDone_inv {t : Fin 2} {c : Fin 16} (h : s.inv) : outInv (execChanResetDone t c s) :=
  live_inv h fun _ h => ite_inv (repTidy_inv (clr_inv (chanDone_inv (repApply_inv (repCheck_inv h))) (by decide))) h

theorem chanResetsHeld_inv {t : Nat} (h : s.inv) : (chanResetsHeld s t).inv := each_inv h fun _ _ h => ite_inv (chanResetBegin_inv h) h

theorem dlrCfgSet_inv {p v : Nat} (h : s.inv) : (dlrCfgSet s p v).inv := by
  refine ite_inv (set_inv h (by decide)) ?_
  refine ite_inv ?_ ?_
  · exact wr_inv (wr_inv (wr_inv (w1c_inv h (by decide)) (by decide)) (by decide)) (by decide)
  · exact ite_inv h (ite_inv (set_inv h (by decide)) (wr_inv (wr_inv (wr_inv (w1c_inv h (by decide)) (by decide)) (by decide)) (by decide)))

theorem execDlrCfgWrite_inv {r : Route} {p : Fin 512} {v : DW} (h : s.inv) : outInv (execDlrCfgWrite r p v s) :=
  live_inv h fun _ h => gate_inv (fun _ h => dlrCfgSet_inv h) h

theorem fixWord_inv {A : Nat} (h : s.inv) : (fixWord s A).inv := by
  unfold fixWord
  dsimp only
  split
  · exact setT_inv (touch_inv h)
  · exact setT_inv (touch_inv h)
  · exact h

theorem execBurstRewrite_inv {t : Fin 2} (h : s.inv) : outInv (execBurstRewrite t s) := by
  unfold execBurstRewrite
  refine live_inv h fun _ h => ?_
  split
  · exact h
  · exact ite_inv h (each_inv (with_bursts_inv h) (fun _ _ h => ite_inv (readWord_inv h) (fixWord_inv h)))

theorem scrubWord_inv {A : Nat} (h : s.inv) : (scrubWord s A).inv := by
  unfold scrubWord
  dsimp only
  split
  · exact readWord_inv h
  · exact punDamage_inv (readWord_inv h)
  · refine ite_inv ?_ ?_
    · exact ite_inv (queueSoft_inv (with_scrRows_inv (fixWord_inv (readWord_inv h)))) (with_scrRows_inv (fixWord_inv (readWord_inv h)))
    · refine each_inv ?_ fun _ _ h => with_scrTsv_inv h
      exact ite_inv (queueSoft_inv (with_scrRows_inv (fixWord_inv (readWord_inv h)))) (with_scrRows_inv (fixWord_inv (readWord_inv h)))

theorem repBegin_inv {t op : Nat} {k : RowKey} {ch lane : Nat} {cmd : Bool} (h : s.inv) : (repBegin s t op k ch lane cmd).inv :=
  wrB_inv (wr_inv (wr_inv (wr_inv (wr_inv (wr_inv (wr_inv h (by decide)) (by decide)) (by decide)) (by decide)) (by decide)) (by decide)) (by decide)

theorem autoTsv_inv {t c : Nat} (h : s.inv) : (autoTsv s t c).inv := by
  unfold autoTsv
  split
  · exact h
  · exact ite_inv (repBegin_inv (with_scrTsv_inv h)) h

theorem execScrubBurst_inv {t : Fin 2} {c : Fin 16} (h : s.inv) : outInv (execScrubBurst t c s) := by
  unfold execScrubBurst
  refine live_inv h fun _ h => ?_
  refine ite_inv h ?_
  extract_lets _ _ _ _ _ _ s5
  have hs5 : s5.inv := wr_inv (wr_inv (autoTsv_inv (with_bursts_inv (each_inv h (fun _ _ h => scrubWord_inv h)))) (by decide)) (by decide)
  exact ite_inv (with_scrRows_scrTsv_inv (incSat_inv hs5 (by decide))) hs5

theorem repCmd_inv {t v : Nat} (h : s.inv) : (repCmd s t v).inv := by
  unfold repCmd
  refine ite_inv h ?_
  refine ite_inv (wr_inv h (by decide)) ?_
  refine ite_inv (with_softq_inv (wr_inv h (by decide))) ?_
  extract_lets s1
  have hs1 : s1.inv := repBegin_inv (wr_inv h (by decide))
  exact ite_inv (wr_inv (wr_inv hs1 (by decide)) (by decide)) (ite_inv (wr_inv hs1 (by decide)) hs1)

theorem execRepSoft_inv {r : Route} {t : Fin 2} (h : s.inv) : outInv (execRepSoft r t s) := live_inv h fun _ h => gate_inv (fun _ h => repCmd_inv h) h
theorem execRepHard_inv {r : Route} {t : Fin 2} (h : s.inv) : outInv (execRepHard r t s) := live_inv h fun _ h => gate_inv (fun _ h => repCmd_inv h) h

theorem execRepTsv_inv {r : Route} {t : Fin 2} {c : Fin 16} {lane : Fin 160} (h : s.inv) : outInv (execRepTsv r t c lane s) :=
  live_inv h fun _ h => gate_inv (fun _ h => repCmd_inv h) h

theorem execRepRetire_inv {r : Route} {t : Fin 2} {c : Fin 16} (h : s.inv) : outInv (execRepRetire r t c s) :=
  live_inv h fun _ h => gate_inv (fun _ h => repCmd_inv h) h

theorem repEnd_inv {t : Nat} (h : s.inv) : (repEnd s t).inv := chanResetsHeld_inv (clr_inv (wr_inv (ite_inv (wr_inv h (by decide)) h) (by decide)) (by decide))
theorem pendRecount_inv (h : s.inv) : (pendRecount s).inv := each_inv h fun _ _ h => wr_inv h (by decide)
theorem repQueueNvm_inv {e : RepEnt} (h : s.inv) : (repQueueNvm s e).inv := pendRecount_inv (with_nvmPend_inv h)

theorem execQueuedSoftRepairStart_inv {t : Fin 2} (h : s.inv) : outInv (execQueuedSoftRepairStart t s) := by
  unfold execQueuedSoftRepairStart
  refine live_inv h fun _ h => ?_
  split
  · exact h
  · refine ite_inv h ?_
    exact ite_inv (repBegin_inv (with_softq_inv h)) (ite_inv (wr_inv (raise_inv (with_softq_inv h)) (by decide)) (raise_inv (with_softq_inv h)))

theorem with_softq_reps_inv {softq : List (RowKey × Bool)} {reps : List RepEnt} (h : s.inv) : State.inv
    { s with softq := softq, reps := reps } := inv_of_stores h rfl

/-- Its definition is delta reduced as a function, for the equation of its body would have the kernel compute the spares of the row. -/
theorem softRepairEnd_inv {t : Nat} (h : s.inv) : (softRepairEnd s t).inv := by
  have hfix : (s.each (s.rowAddrs (s.repKey t)) fun s A => fixWord (readWord s 4 A).2 A).inv := each_inv h fun _ _ h => fixWord_inv (readWord_inv h)
  have hdef : softRepairEnd = softRepairEnd := rfl
  conv_rhs at hdef => delta softRepairEnd
  rw [hdef]
  refine ite_inv ?_ h
  extract_lets k u
  have hu : u.inv := hfix
  cases u.freeSpare k with
  | none => exact repEnd_inv hu
  | some sp => exact repEnd_inv (repQueueNvm_inv (spareRecount_inv (with_softq_reps_inv hu)))

theorem execSoftRepairDone_inv {t : Fin 2} (h : s.inv) : outInv (execSoftRepairDone t s) := live_inv h fun _ h => softRepairEnd_inv h

theorem execNvmRepairAppend_inv (h : s.inv) : outInv (execNvmRepairAppend s) := by
  unfold execNvmRepairAppend
  refine live_inv h fun _ h => ?_
  split
  · exact ite_inv h (pendRecount_inv (with_nvmPend_inv (repAppend_inv h)))
  · exact h

theorem hardRepairEnd_inv {t : Nat} (h : s.inv) : (hardRepairEnd s t).inv :=
  ite_inv (repEnd_inv (spareRecount_inv (chanDone_inv (repRewrite_inv (with_reps_hards_inv (each_inv h (fun _ _ h => setT_inv (touch_inv h)))))))) h

theorem execTsvSwapDone_inv {t : Fin 2} (h : s.inv) : outInv (execTsvSwapDone t s) := by
  unfold execTsvSwapDone
  refine live_inv h fun _ h => ?_
  refine ite_inv ?_ h
  dsimp only
  split
  · exact repEnd_inv h
  · exact repEnd_inv (repQueueNvm_inv (spareRecount_inv (with_reps_inv h)))

theorem retireEnd_inv {t : Nat} (h : s.inv) : (retireEnd s t).inv :=
  ite_inv (repEnd_inv (sweepSlabs_inv (wr_inv (set_inv (repAppend_inv h) (by decide)) (by decide)))) h

theorem tstShow_inv {t : Nat} {data : Word} {u p : Bool} {chk : Nat} (h : s.inv) : (tstShow s t data u p chk).inv :=
  wrB_inv (wrB_inv (wr_inv (wr_inv h (by decide)) (by decide)) (by decide)) (by decide)

theorem tstRead_inv {t : Nat} (h : s.inv) : (tstRead s t).inv := by
  unfold tstRead
  extract_lets _ _ i x s1
  have hi : i.2.inv := takeInj_inv h
  have hx : x.2.inv := readWord_inv hi
  have hs1 : s1.inv := touch_inv hi
  clear_value *
  split
  · exact wr_inv (tstShow_inv hx) (by decide)
  · extract_lets _ _ _ s1 _ _ s2 s3
    have hs1 : s1.inv := wr_inv (tstShow_inv hs1) (by decide)
    have hs2 : s2.inv := incSat_inv hs1 (by decide)
    have hs3 : s3.inv := by
      dsimp only [s3]
      split
      · exact hs1
      · exact queueSoft_inv (logErr_inv (incSat_inv (setT_inv hs1) (by decide)))
      · exact ite_inv (with_bursts_inv (ite_inv (logErr_inv hs2) hs2)) (ite_inv (logErr_inv hs2) hs2)
    exact ite_inv (raise_inv hs1) (raise_inv hs3)

theorem tstReadraw_inv {t : Nat} (h : s.inv) : (tstReadraw s t).inv := clr_inv (tstShow_inv (touch_inv h)) (by decide)
theorem tstWrite_inv {t : Nat} {raw : Bool} (h : s.inv) : (tstWrite s t raw).inv := clr_inv (setT_inv (touch_inv h)) (by decide)

theorem tstCmd_inv {t v : Nat} (h : s.inv) : (tstCmd s t v).inv := by
  refine ite_inv h ?_
  refine ite_inv (wr_inv h (by decide)) ?_
  exact ite_inv (tstRead_inv (set_inv h (by decide))) (ite_inv (tstReadraw_inv (set_inv h (by decide))) (tstWrite_inv (set_inv h (by decide))))

theorem execTstRead_inv {r : Route} {t : Fin 2} (h : s.inv) : outInv (execTstRead r t s) := live_inv h fun _ h => gate_inv (fun _ h => tstCmd_inv h) h
theorem execTstReadraw_inv {r : Route} {t : Fin 2} (h : s.inv) : outInv (execTstReadraw r t s) := live_inv h fun _ h => gate_inv (fun _ h => tstCmd_inv h) h
theorem execTstWrite_inv {r : Route} {t : Fin 2} (h : s.inv) : outInv (execTstWrite r t s) := live_inv h fun _ h => gate_inv (fun _ h => tstCmd_inv h) h
theorem execTstWriteraw_inv {r : Route} {t : Fin 2} (h : s.inv) : outInv (execTstWriteraw r t s) := live_inv h fun _ h => gate_inv (fun _ h => tstCmd_inv h) h

theorem execTestWindowDone_inv {t : Fin 2} (h : s.inv) : outInv (execTestWindowDone t s) := by
  refine live_inv h fun _ h => ?_
  refine ite_inv ?_ h
  exact ite_inv (wr_inv (clr_inv h (by decide)) (by decide)) (clr_inv (wr_inv (wr_inv (clr_inv h (by decide)) (by decide)) (by decide)) (by decide))

theorem logAck_inv {t v : Nat} (h : s.inv) : (logAck s t v).inv :=
  logRecount_inv (ite_inv (each_inv (ite_inv (clr_inv h (by decide)) h) (fun _ _ h => clr_inv h (by decide))) (ite_inv (clr_inv h (by decide)) h))

theorem execLogFree_inv {r : Route} {t : Fin 2} {e : Fin 64} (h : s.inv) : outInv (execLogFree r t e s) := live_inv h fun _ h => gate_inv (fun _ h => logAck_inv h) h
theorem execLogFreeAll_inv {r : Route} {t : Fin 2} (h : s.inv) : outInv (execLogFreeAll r t s) := live_inv h fun _ h => gate_inv (fun _ h => logAck_inv h) h
theorem scrCfgSet_inv {t c v : Nat} (h : s.inv) : (scrCfgSet s t c v).inv := ite_inv (wr_inv h (by decide)) (set_inv h (by decide))
theorem rfmSet_inv {t v : Nat} (h : s.inv) : (rfmSet s t v).inv := ite_inv (wr_inv h (by decide)) (set_inv h (by decide))

end Sys2Proof.Machine
end

section
/-! The invariant under the operations of Machine/Hold: held units. -/
namespace Sys2Proof.Machine

variable {s : State}

theorem errorRec_inv {p pos kind lane ofs syms : Nat} (h : s.inv) : (errorRec s p pos kind lane ofs syms).inv := ite_inv (stageRecs_inv h) h

theorem filterDrop_inv {p : Nat} {f : Option FiltSet} {form : List Byte} (h : s.inv) : (filterDrop s p f form).inv := by
  unfold filterDrop
  extract_lets s1
  have hs1 : s1.inv := by
    dsimp only [s1]
    split
    · exact incSat_inv h (by decide)
    · exact h
  clear_value *
  split
  · exact ite_inv hs1 (closeRun_inv hs1)
  · exact hs1

theorem formFiller_inv {p pos stamp : Nat} {valid : Bool} {form : List Byte} {cut : Option Nat} {raw dec : Bool} (h : s.inv) :
    (formFiller s p pos stamp valid form cut raw dec).inv :=
  stageRecs_inv (setStrm_inv (closeRun_inv h))

theorem formUnit_inv {p pos stamp : Nat} {valid fill : Bool} {form : List Byte} {cut : Option Nat} {raw dec : Bool} (h : s.inv) :
    (formUnit s p pos stamp valid fill form cut raw dec).inv := by
  unfold formUnit
  refine ite_inv (stageRecs_inv h) ?_
  refine ite_inv ?_ (stageRecs_inv (closeRun_inv h))
  split
  · exact ite_inv (setStrm_inv h) (formFiller_inv h)
  · exact formFiller_inv h

theorem ideItem_inv {p : Nat} {items : List Item} {it : Item} (h : s.inv) : (ideItem s p items it).2.inv := by
  unfold ideItem
  split
  · exact h
  · split
    · exact h
    · extract_lets lost
      have hlost : lost.inv := incSat_inv (clr_inv (wrBit_inv h (by decide)) (by decide)) (by decide)
      clear_value *
      refine ite_snd_inv h ?_
      refine ite_snd_inv hlost ?_
      split
      · exact h
      · exact wr_inv h (by decide)
      · exact hlost

theorem failRec_inv {p pos stamp : Nat} {valid : Bool} {e : Option Failure} (h : s.inv) : (failRec s p pos stamp valid e).inv := by
  unfold failRec
  split
  · exact stageRecs_inv h
  · exact h

theorem failItem_inv {p : Nat} {it : Item} {e : Option Failure} (h : s.inv) : (failItem s p it e).inv := failRec_inv h

theorem recordUnit_inv {p pos stamp : Nat} {valid : Bool} {f : Option FiltSet} {cls : Nat} {fails : Bool} {hits : List Nat} {form : List Byte} {raw dec : Bool}
    (h : s.inv) : (recordUnit s p pos stamp valid f cls fails hits form raw dec).inv :=
  ite_inv (formUnit_inv h) (filterDrop_inv h)

theorem itemErrors_inv {p : Nat} {items : List Item} {x : Pressed} {it : Item} (h : x.s.inv) : (itemErrors p items x it).s.inv := by
  have hs : (ideItem x.s p items it).2.inv := ideItem_inv h
  unfold itemErrors
  generalize ideItem x.s p items it = y at hs ⊢
  obtain ⟨e, t⟩ := y
  cases e with
  | asIs => exact failItem_inv hs
  | plain l => exact failItem_inv hs
  | failed => exact failItem_inv (failItem_inv hs)

theorem recordItem_inv {p : Nat} {items : List Item} {f : Option FiltSet} {x : Pressed} {it : Item} (h : x.s.inv) : (recordItem p items f x it).s.inv :=
  recordUnit_inv (itemErrors_inv h)

theorem pressRaw_inv {p : Nat} {items : List Item} {x : Pressed} {u : HeldUnit} (h : x.s.inv) : (pressRaw p items x u).s.inv :=
  recordUnit_inv (failRec_inv (foldl_inv h (fun _ _ h => failItem_inv h)))

theorem pressFlit_inv {p : Nat} {items : List Item} {x : Pressed} {u : HeldUnit} (h : x.s.inv) : (pressFlit p items x u).s.inv :=
  recordUnit_inv (foldl_of_inv Pressed.s h (fun _ _ h => itemErrors_inv h))

theorem pressBlock_inv {p : Nat} {items : List Item} {u : HeldUnit} {cap : Bool} {x : Pressed} {i : Nat} (h : x.s.inv) : (pressBlock p items u cap x i).s.inv := by
  refine ite_of_inv Pressed.s (foldl_of_inv Pressed.s h (fun _ _ h => recordItem_inv h)) ?_
  refine ite_of_inv Pressed.s ?_ (foldl_of_inv Pressed.s h (fun _ _ h => itemErrors_inv h))
  exact recordUnit_inv (foldl_of_inv Pressed.s h (fun _ _ h => itemErrors_inv h))

theorem pressHeld_inv {p : Nat} {items : List Item} {x : Pressed} {u : HeldUnit} (h : x.s.inv) : (pressHeld p items x u).s.inv := by
  unfold pressHeld
  extract_lets _ _ _ _ x1
  have hx1 : x1.s.inv := ite_inv (failRec_inv (applyCaps_inv h)) (applyCaps_inv h)
  refine ite_of_inv Pressed.s (ite_of_inv Pressed.s (pressRaw_inv hx1) hx1) ?_
  refine ite_of_inv Pressed.s (ite_of_inv Pressed.s (recordUnit_inv hx1) hx1) ?_
  refine ite_of_inv Pressed.s ?_ ?_
  · exact ite_of_inv Pressed.s hx1 (foldl_of_inv Pressed.s hx1 (fun _ _ h => pressBlock_inv h))
  · refine ite_of_inv Pressed.s (ite_of_inv Pressed.s (pressFlit_inv hx1) hx1) ?_
    exact ite_of_inv Pressed.s hx1 (foldl_of_inv Pressed.s hx1 (fun _ _ h => recordItem_inv h))

theorem pressAll_inv {p : Nat} (h : s.inv) : (pressAll s p).inv := by
  unfold pressAll
  extract_lets _ _ _ s2
  have hs2 : s2.inv := ite_inv (foldl_of_inv Pressed.s (setHeld_inv h) (fun _ _ h => pressHeld_inv h)) (setHeld_inv h)
  exact ite_inv hs2 (setItems_inv hs2)

theorem fireHeld_inv {p : Nat} {us : List HeldUnit} (h : s.inv) : (fireHeld s p us).inv := ite_inv h (fireUnits_inv h)
theorem releaseHeld_inv {p : Nat} (h : s.inv) : (releaseHeld s p).inv := ite_inv h (setItems_inv (fireHeld_inv (setHeld_inv (pressAll_inv h))))
theorem passStage_inv {p : Nat} (h : s.inv) : (passStage s p).inv := fireHeld_inv (setHeld_inv h)
theorem settle_inv {p : Nat} (h : s.inv) : (settle s p).inv := ite_inv h (ite_inv (passStage_inv h) (releaseHeld_inv h))
theorem pressDecided_inv {p : Nat} (h : s.inv) : (pressDecided s p).inv := ite_inv (pressAll_inv h) h
theorem execCaptureSwitch_inv {p : Fin 512} (h : s.inv) : outInv (execCaptureSwitch p s) := live_inv h fun _ h => pressDecided_inv h
theorem execInjEntryFire_inv {p : Fin 512} (h : s.inv) : outInv (execInjEntryFire p s) := live_inv h fun _ h => settle_inv h

end Sys2Proof.Machine
end

section
/-! The invariant under the operations of Machine/CalOps: calibration runs. -/
namespace Sys2Proof.Machine

variable {s : State}

theorem calShow_inv {n : Nat} (h : s.inv) : (calShow s n).inv := wr_inv (wr_inv h (by decide)) (by decide)
theorem calSet_inv {x st : Nat} (h : s.inv) : (calSet s x st).inv := calShow_inv (wr_inv h (by decide))
theorem calRewind_inv {x : Nat} (h : s.inv) : (calRewind s x).inv := clr_inv (clr_inv (clr_inv (wr_inv h (by decide)) (by decide)) (by decide)) (by decide)
theorem calDrop_inv {x : Nat} (h : s.inv) : (calDrop s x).inv := ite_inv (with_calq_inv h) (calSet_inv (calRewind_inv (clr_inv (with_calq_inv h) (by decide))))
theorem calPause_inv {x : Nat} (h : s.inv) : (calPause s x).inv := ite_inv (calSet_inv (calRewind_inv h)) h
theorem calResume_inv {x : Nat} (h : s.inv) : (calResume s x).inv := ite_inv (calSet_inv h) h
theorem rxRoles_inv {x : Nat} {pam : Bool} (h : s.inv) : (rxRoles s x pam).inv := ite_inv h (each_inv h (fun _ _ h => wr_inv h (by decide)))
theorem calQueue_inv {x : Nat} (h : s.inv) : (calQueue s x).inv := ite_inv (calSet_inv (calRewind_inv (with_calq_inv (clr_inv h (by decide))))) h

end Sys2Proof.Machine
end

section
/-! The invariant under the operations of Machine/Port: transmitters and links. -/
namespace Sys2Proof.Machine

variable {s : State}

theorem refreshPort_inv {r : Nat} (h : s.inv) : (refreshPort s r).inv := by
  unfold refreshPort
  extract_lets _ _ _ _ s2 _ s4 _ _ _ s7
  have hs2 : s2.inv := wrB_inv (ite_inv h (rxRoles_inv h)) (by decide)
  have hs4 : s4.inv := wr_inv (ite_inv hs2 (wrB_inv hs2 (by decide))) (by decide)
  have hs7 : s7.inv := wr_inv (wrB_inv (ite_inv hs4 (wr_inv hs4 (by decide))) (by decide)) (by decide)
  exact wrB_inv (ite_inv (set_inv hs7 (by decide)) hs7) (by decide)

theorem refreshLink_inv {n : Nat} (h : s.inv) : (refreshLink s n).inv := each_inv h fun _ _ h => each_inv h fun _ _ h => refreshPort_inv h
theorem laneJoin_inv {L m : Nat} (h : s.inv) : (laneJoin s L m).inv := clr_inv (clr_inv (wr_inv (wr_inv h (by decide)) (by decide)) (by decide)) (by decide)
theorem detectBegin_inv {x : Nat} (h : s.inv) : (detectBegin s x).inv := ite_inv (set_inv h (by decide)) h
theorem rxRated_inv {r : Nat} (h : s.inv) : (rxRated s r).inv := calPause_inv (clr_inv (clr_inv h (by decide)) (by decide))
theorem rateChanged_inv {L : Nat} (h : s.inv) : (rateChanged s L).inv := each_inv h fun _ _ h => each_inv h fun _ _ h => rxRated_inv h

theorem enterDetect_inv {L : Nat} (h : s.inv) : (enterDetect s L).inv := by
  refine each_inv ?_ fun _ _ h => ?_
  · refine clr_inv ?_ (by decide)
    refine clr_inv ?_ (by decide)
    refine clr_inv ?_ (by decide)
    refine wr_inv ?_ (by decide)
    refine clr_inv ?_ (by decide)
    refine clr_inv ?_ (by decide)
    refine clr_inv ?_ (by decide)
    refine clr_inv ?_ (by decide)
    exact clr_inv (clr_inv (clr_inv (clr_inv (clr_inv (ite_inv h (rateChanged_inv h)) (by decide)) (by decide)) (by decide)) (by decide)) (by decide)
  · exact each_inv (ite_inv (laneJoin_inv h) h) fun _ _ h => refreshPort_inv (clr_inv (clr_inv h (by decide)) (by decide))

theorem ltRated_inv {t : Nat} (h : s.inv) : (ltRated s t).inv := each_inv h fun _ _ h => rxRated_inv h

theorem ltDown_inv {t : Nat} (h : s.inv) : (ltDown s t).inv := by
  refine with_ltSent_inv ?_
  refine clr_inv ?_ (by decide)
  refine clr_inv ?_ (by decide)
  refine clr_inv ?_ (by decide)
  refine clr_inv ?_ (by decide)
  refine clr_inv ?_ (by decide)
  refine clr_inv ?_ (by decide)
  refine clr_inv ?_ (by decide)
  refine clr_inv ?_ (by decide)
  refine clr_inv ?_ (by decide)
  refine clr_inv ?_ (by decide)
  refine clr_inv ?_ (by decide)
  exact clr_inv (clr_inv (clr_inv (clr_inv (clr_inv (ite_inv h (ltRated_inv h)) (by decide)) (by decide)) (by decide)) (by decide)) (by decide)

theorem ltDetect_inv {L side : Nat} (h : s.inv) : (ltDetect s L side).inv := ite_inv h (each_inv h (fun _ _ h => detectBegin_inv h))
theorem segEnter_inv {L side st : Nat} (h : s.inv) : (segEnter s L side st).inv := ite_inv (emitTx_inv (wr_inv h segFld_ne)) (wr_inv h segFld_ne)

theorem segsChanged_inv {n L : Nat} {wasR : Bool} (h : s.inv) : (segsChanged s n L wasR).inv := by
  unfold segsChanged
  extract_lets _ s1
  have hs1 : s1.inv := ite_inv (ite_inv h (segEnter_inv (segEnter_inv h))) (clr_inv (clr_inv h (by decide)) (by decide))
  exact ite_inv hs1 (linkEvent_inv hs1)

theorem pairingChanged_inv {n : Nat} {wasR : Bool} (h : s.inv) : (pairingChanged s n wasR).inv := by
  unfold pairingChanged
  split
  · exact h
  · refine each_inv ?_ fun _ _ h => ?_
    · refine ite_inv ?_ ?_
      · exact segsChanged_inv (ite_inv (ite_inv (linkEvent_inv (enterDetect_inv h)) (enterDetect_inv h)) h)
      · exact ite_inv (ite_inv (linkEvent_inv (enterDetect_inv h)) (enterDetect_inv h)) h
    · split
      · exact ite_inv (clr_inv (ltDown_inv h) (by decide)) (ite_inv (ltDetect_inv h) h)
      · exact h

end Sys2Proof.Machine
end

section
/-! The invariant under the operations of Machine/Admit: admission. -/
namespace Sys2Proof.Machine

variable {s : State}

theorem refreshPath_inv {p : Nat} (h : s.inv) : (refreshPath s p).inv := ite_inv (refreshPort_inv h) (each_inv h (fun _ _ h => refreshPort_inv h))
theorem stopPath_inv {p : Nat} (h : s.inv) : (stopPath s p).inv := pathEventNext_inv (emit_inv (refreshPath_inv (set_inv h (by decide))))

theorem stopPaths_inv {t : Nat} {l : List Nat} (h : s.inv) : (stopPaths t l s).inv := by
  induction l generalizing s with
  | nil => exact h
  | cons p r ih => exact ite_inv h (ih (stopPath_inv h))

theorem restartPath_inv {p : Nat} (h : s.inv) : (restartPath s p).inv :=
  refreshPath_inv (ite_inv (wrB_inv (dlyEmpty_inv (clr_inv h (by decide))) (by decide)) (dlyEmpty_inv (clr_inv h (by decide))))

theorem restartPaths_inv {t : Nat} {l : List Nat} (h : s.inv) : (restartPaths t l s).inv := by
  induction l generalizing s with
  | nil => exact h
  | cons p r ih => exact ite_inv (ih (restartPath_inv h)) h

theorem admissionWindow_inv {t : Nat} (h : s.inv) : (admissionWindow s t).inv := by
  refine setCarry_inv ?_
  refine incWrap_inv ?_ (by decide)
  refine clr_inv ?_ (by decide)
  refine clr_inv ?_ (by decide)
  refine wrB_inv ?_ (by split <;> decide)
  exact admitAll_inv (setStaged_inv (clearWork_inv (stopPaths_inv (restartPaths_inv (wr_inv (wrB_inv (wr_inv h (by decide)) (by decide)) (by decide))))))

theorem execReplaySend_inv {p : Fin 512} (h : s.inv) : outInv (execReplaySend p s) := live_inv h fun _ h => ite_inv (rplStep_inv h) (refreshPath_inv (rplStep_inv h))

end Sys2Proof.Machine
end

section
/-! The invariant under the operations of Machine/Paths: path modes. -/
namespace Sys2Proof.Machine

variable {s : State}

theorem linkCfgSet_inv {L v : Nat} (h : s.inv) : (linkCfgSet s L v).inv :=
  ite_inv (set_inv h (by decide)) (wr_inv (wr_inv (wr_inv (wr_inv h (by decide)) (by decide)) (by decide)) (by decide))

theorem execLinkCfgWrite_inv {r : Route} {g k : Fin 16} {v : DW} (h : s.inv) : outInv (execLinkCfgWrite r g k v s) :=
  live_inv h fun _ h => gate_inv (fun _ h => linkCfgSet_inv h) h

theorem ltCfgSet_inv {t v : Nat} (h : s.inv) : (ltCfgSet s t v).inv := ite_inv (set_inv h (by decide))
    (wr_inv (wr_inv (wr_inv h (by decide)) (by decide)) (by decide))

theorem execLtCfgWrite_inv {r : Route} {g : Fin 16} {t : Fin 2} {v : DW} (h : s.inv) : outInv (execLtCfgWrite r g t v s) :=
  live_inv h fun _ h => gate_inv (fun _ h => ltCfgSet_inv h) h

theorem chgBegin_inv {p target : Nat} {w : ChgWhen} (h : s.inv) : (chgBegin s p target w).inv := set_inv (setChg_inv h) pendFld_ne

theorem chgHost_inv {n a b : Nat} {builtin : Bool} (h : s.inv) : (chgHost s n a b builtin).2.inv := by
  unfold chgHost
  refine ite_snd_inv ?_ h
  extract_lets s1 s2
  have hs1 : s1.inv := ite_inv (chgBegin_inv h) h
  have hs2 : s2.inv := ite_inv (chgBegin_inv hs1) hs1
  exact ite_inv (wr_inv hs2 (by decide)) hs2

theorem pathModeSet_inv {n v : Nat} (h : s.inv) : (pathModeSet s n v).inv := wr_inv (chgHost_inv h) (by decide)

theorem execPathModeWrite_inv {r : Route} {n : Fin 256} {v : DW} (h : s.inv) : outInv (execPathModeWrite r n v s) :=
  live_inv h fun _ h => gate_inv (fun _ h => pathModeSet_inv h) h

theorem pathSrcSet_inv {p v : Nat} (h : s.inv) : (pathSrcSet s p v).inv :=
  ite_inv h (ite_inv (wr_inv h (by decide)) (ite_inv h (ite_inv (wr_inv h (by decide)) (wr_inv h (by decide)))))

theorem execPathSrcWrite_inv {r : Route} {p : Fin 512} {v : DW} (h : s.inv) : outInv (execPathSrcWrite r p v s) :=
  live_inv h fun _ h => gate_inv (fun _ h => pathSrcSet_inv h) h

theorem cancelDlySkp_inv {p pos : Nat} (h : s.inv) : (cancelDlySkp s p pos).inv := by
  unfold cancelDlySkp
  extract_lets _ s2
  have hs2 : s2.inv := clr_inv (ite_inv (cancelAction_inv (clr_inv h (by decide))) h) (by decide)
  exact ite_inv (cancelAction_inv (clr_inv hs2 (by decide))) hs2

theorem cancelAll_inv {p pos : Nat} (h : s.inv) : (cancelAll s p pos).inv := by
  refine each_inv h fun _ _ h => ?_
  refine cancelDlySkp_inv ?_
  exact cancelEntries_inv (foldl_inv (pendCount_inv (setStrm_inv (foldl_inv h (fun _ _ h => set_inv h (by decide))))) (fun _ _ h => cancelAction_inv h))

theorem dlyDrop_inv {p : Nat} (h : s.inv) : (dlyDrop s p).inv := each_inv (incSat_inv h (by decide)) fun _ _ h => clr_inv (dlyEmpty_inv h) (by decide)

theorem dlyEnter_inv {p : Nat} (h : s.inv) : (dlyEnter s p).inv :=
  each_inv (wr_inv (wr_inv h (by decide)) (by decide)) fun _ _ h => wrB_inv (dlyEmpty_inv h) (by decide)

theorem pchkRestart_inv {p : Nat} (h : s.inv) : (pchkRestart s p).inv := with_pchk_inv (clr_inv (clr_inv h (by decide)) (by decide))
theorem rxOff_inv {p : Nat} (h : s.inv) : (rxOff s p).inv := each_inv h fun _ _ h => calDrop_inv (pchkRestart_inv (clr_inv (clr_inv h (by decide)) (by decide)))

theorem posZero_inv {p : Nat} (h : s.inv) : (posZero s p).inv := eventRec_inv
    (each_inv h (fun _ _ h => genWaits_inv (incWrap_inv (clr_inv h (by decide)) (by decide))))

theorem modeEvent_inv {p pos old new : Nat} (h : s.inv) : (modeEvent s p pos old new).inv := eventRec_inv h

theorem modeLeave_inv {p pos old new : Nat} (h : s.inv) : (modeLeave s p pos old new).inv := by
  unfold modeLeave
  extract_lets _ s2 s3 s4 s5
  have hs2 : s2.inv := ite_inv (each_inv (releaseHeld_inv h) (fun _ _ h => cancelEntries_inv h)) (releaseHeld_inv h)
  have hs3 : s3.inv := ite_inv (dlyDrop_inv hs2) hs2
  have hs4 : s4.inv := ite_inv (closeRun_inv hs3) hs3
  have hs5 : s5.inv := ite_inv (capOff_inv hs4) hs4
  exact ite_inv (setRpl_inv hs5) hs5

theorem modeEnter_inv {p pos old new : Nat} (h : s.inv) : (modeEnter s p pos old new).inv := by
  unfold modeEnter
  extract_lets _ s2 s3 s4 s5
  have hs2 : s2.inv := each_inv (each_inv h (fun _ _ h => clr_inv h (by decide))) fun _ _ h => ite_inv (set_inv h (by decide)) h
  have hs3 : s3.inv := ite_inv (cancelAll_inv (posZero_inv hs2)) hs2
  have hs4 : s4.inv := ite_inv (rxOff_inv (cancelAll_inv hs3)) hs3
  have hs5 : s5.inv := ite_inv (dlyEnter_inv hs4) hs4
  exact ite_inv (rplBegin_inv hs5) hs5

theorem f5CapLeave_inv {p pos new : Nat} (h : s.inv) : (f5CapLeave s p pos new).inv := ite_inv (capOff_inv h) h
theorem f5CapEnter_inv {p pos : Nat} (h : s.inv) : (f5CapEnter s p pos).inv := ite_inv (ite_inv (capOn_inv h) (set_inv h (by decide))) h
theorem splitStep_inv {n : Nat} (h : s.inv) : (splitStep s n).inv := wr_inv h (by decide)

theorem switchMode_inv {p pos : Nat} (h : s.inv) : (switchMode s p pos).inv := by
  unfold switchMode
  split
  · exact h
  · extract_lets _ _ _ _ s1 s2 _ _ s5
    have hs1 : s1.inv := splitStep_inv (clr_inv (setChg_inv h) pendFld_ne)
    have hs2 : s2.inv := ite_inv (modeEvent_inv hs1) hs1
    have hs5 : s5.inv := each_inv (wr_inv (modeLeave_inv (ite_inv hs2 (f5CapLeave_inv hs2))) modeFld_ne) fun _ _ h => set_inv h (by decide)
    exact refreshLink_inv (pairingChanged_inv (f5CapEnter_inv (ite_inv (modeEnter_inv hs5) (modeEvent_inv (modeEnter_inv hs5)))))

theorem modeDue_inv {p pos stamp : Nat} (h : s.inv) : (modeDue s p pos stamp).inv := by
  unfold modeDue
  split
  · exact ite_inv (switchMode_inv h) h
  · exact h

theorem execModeSwitch_inv {p : Fin 512} (h : s.inv) : outInv (execModeSwitch p s) := live_inv h fun _ h => modeDue_inv h

theorem execModeChangeTimeout_inv {p : Fin 512} (h : s.inv) : outInv (execModeChangeTimeout p s) := by
  unfold execModeChangeTimeout
  refine live_inv h fun _ h => ?_
  dsimp only
  split
  · exact ite_inv (switchMode_inv h) h
  · exact h

theorem execModeFromDarkEffect_inv {p : Fin 512} (h : s.inv) : outInv (execModeFromDarkEffect p s) := by
  unfold execModeFromDarkEffect
  refine live_inv h fun _ h => ?_
  dsimp only
  split
  · exact ite_inv (switchMode_inv h) h
  · exact h

end Sys2Proof.Machine
end

section
/-! The invariant under the operations of Machine/Events: lane events. -/
namespace Sys2Proof.Machine

variable {s : State}

theorem laneEvent_inv {n kind side slice : Nat} (h : s.inv) : (laneEvent s n kind side slice).inv := raise_inv h
theorem portEvent_inv {r kind : Nat} (h : s.inv) : (portEvent s r kind).inv := laneEvent_inv h
theorem trainRec_inv {p state corr unc sym : Nat} (h : s.inv) : (trainRec s p state corr unc sym).inv := ite_inv (stageRecs_inv h) h

end Sys2Proof.Machine
end

section
/-! The invariant under the operations of Machine/Pcie: PCI Express and CXL. -/
namespace Sys2Proof.Machine

variable {s : State}

theorem tsPosition_inv {L : Nat} {ts : TsInfo} (h : s.inv) : (tsPosition s L ts).inv :=
  ite_inv (wr_inv h (by decide)) (ite_inv (wr_inv h (by decide)) (ite_inv h (pathEventNext_inv (wr_inv h (by decide)))))

theorem idleEdges_inv {L : Nat} {was : Nat → Bool} (h : s.inv) : (idleEdges s L was).inv := each_inv h fun _ _ h => ite_inv h (emitTx_inv h)
theorem lanesJoin_inv {L n after : Nat} (h : s.inv) : (lanesJoin s L n after).inv := each_inv h fun _ _ h => ite_inv (laneJoin_inv h) h

theorem rateSwitch_inv {L : Nat} (h : s.inv) : (rateSwitch s L).inv := by
  unfold rateSwitch
  split
  · exact h
  · exact refreshLink_inv (linkEvent_inv (rateChanged_inv (wr_inv (clr_inv h (by decide)) (by decide))))

theorem linkTo_inv {L : Nat} {tgt : LinkPos} (h : s.inv) : (linkTo s L tgt).inv := by
  unfold linkTo
  extract_lets _ _ _ _ _ s2 _ _ _ _ s3 _ _ _ s7
  have hs2 : s2.inv := wr_inv (wr_inv h (by decide)) (by decide)
  have hs3 : s3.inv := ite_inv (enterDetect_inv hs2) hs2
  have hs7 : s7.inv := by
    refine idleEdges_inv ?_
    refine refreshLink_inv ?_
    refine linkEvent_inv ?_
    refine lanesJoin_inv ?_
    refine wr_inv ?_ (by decide)
    exact wrB_inv (wr_inv (ite_inv (each_inv hs3 (fun _ _ h => each_inv h fun _ _ h => clr_inv h (by decide))) hs3) (by decide)) (by decide)
  exact ite_inv hs2 (ite_inv (trainRec_inv (trainRec_inv hs7)) hs7)

theorem ownLane_inv {L side : Nat} {x : List EqInfo × State} {r : Nat} (h : x.2.inv) : (ownLane L side x r).2.inv := ite_snd_inv (freshNat_inv h) h
theorem ownSet_inv {L side : Nat} {ts : TsInfo} (h : s.inv) : (ownSet s L side ts).inv := emitTx_inv (foldl_snd_inv h (fun _ _ h => ownLane_inv h))
theorem presetPort_inv {L r preset : Nat} (h : s.inv) : (presetPort s L r preset).inv := refreshPort_inv (wr_inv (wr_inv h (by decide)) (by decide))
theorem presetApply_inv {L side preset : Nat} (h : s.inv) : (presetApply s L side preset).inv := each_inv h fun _ _ h => presetPort_inv h
theorem tsForward_inv {L side : Nat} {ts : TsInfo} (h : s.inv) : (tsForward s L side ts).inv := ite_inv (clr_inv h (by decide)) (emitTx_inv h)

theorem execTrainingOrderedSet_inv {L : Fin 256} {side : Fin 2} {ts : TsInfo} {tgt : LinkPos} (h : s.inv) : outInv (execTrainingOrderedSet L side ts tgt s) := by
  unfold execTrainingOrderedSet
  refine live_inv h fun _ h => ?_
  refine ite_inv ?_ h
  extract_lets _ _ _ s2 _ s4
  have hs2 : s2.inv := ite_inv (tsPosition_inv (settle_inv h)) (settle_inv h)
  have hs4 : s4.inv := each_inv (ite_inv (presetApply_inv hs2) hs2) fun _ _ h => wrB_inv h (by decide)
  exact linkTo_inv (ite_inv (ownSet_inv hs4) (tsForward_inv hs4))

theorem execEqPresetRequest_inv {r : Fin 512} {req : EqReq} (h : s.inv) : outInv (execEqPresetRequest r req s) := by
  unfold execEqPresetRequest
  refine live_inv h fun _ h => ?_
  refine ite_inv h ?_
  dsimp only
  split
  · exact emit_inv (presetPort_inv h)
  · exact ite_inv (emit_inv (refreshPort_inv (clr_inv (wr_inv h (by decide)) (by decide)))) (emit_inv h)

theorem execEqPhaseDone_inv {r : Fin 512} {missed : Bool} (h : s.inv) : outInv (execEqPhaseDone r missed s) :=
  live_inv h fun _ h => ite_inv h (ite_inv (portEvent_inv (set_inv h (by decide))) (set_inv h (by decide)))

theorem ebReach_inv {p : Nat} (h : s.inv) : (ebReach s p).inv := settle_inv h

theorem execSkpOrderedSet_inv {p : Fin 512} {drift : Fin 3} (h : s.inv) : outInv (execSkpOrderedSet p drift s) :=
  live_inv h fun _ h => ite_inv (ebReach_inv h) (emit_inv (wr_inv (ite_inv (clr_inv (ebReach_inv h) (by decide)) (ebReach_inv h)) (by decide)))

theorem execEbRecentre_inv {p : Fin 512} {overflow : Bool} {units : Nat} (h : s.inv) : outInv (execEbRecentre p overflow units s) := by
  unfold execEbRecentre
  refine live_inv h fun _ h => ?_
  dsimp only
  split
  · exact ebReach_inv h
  · exact ite_inv (ebReach_inv h) (errorRec_inv (pathEventNext_inv (emit_inv (set_inv (wr_inv (ebReach_inv h) (by decide)) (by decide)))))

theorem margShow_inv {L : Nat} (h : s.inv) : (margShow s L).inv := wrB_inv h (by decide)

theorem setMarg_inv {L r : Nat} {on : Bool} (h : s.inv) : (setMarg s L r on).inv :=
  each_inv (each_inv (margShow_inv (wrB_inv h (by decide))) (fun _ _ h => ite_inv (calPause_inv h) (ite_inv h (calResume_inv h)))) fun _ _ h => refreshPort_inv h

theorem margAnswer_inv {L r out : Nat} {c : BitVec 16} (h : s.inv) : (margAnswer s L r out c).inv := by
  unfold margAnswer
  extract_lets _ s1 x
  have hs1 : s1.inv := ite_inv (setMarg_inv h) (ite_inv (setMarg_inv h) h)
  have hx : x.2.inv := by
    dsimp only [x]
    split
    · split
      · exact hs1
      · exact freshNat_inv hs1
    · exact hs1
    · exact freshNat_inv hs1
  exact emit_inv hx

theorem execMarginCommand_inv {n : Fin 256} {side : Fin 2} {c : BitVec 16} (h : s.inv) : outInv (execMarginCommand n side c s) := by
  unfold execMarginCommand
  refine live_inv h fun _ h => ?_
  split
  · exact h
  · exact ite_inv h (ite_inv (margAnswer_inv h) (ite_inv (margAnswer_inv h) (emit_inv h)))

theorem execMarginTimeout_inv {r : Fin 512} (h : s.inv) : outInv (execMarginTimeout r s) := by
  unfold execMarginTimeout
  refine live_inv h fun _ h => ?_
  split
  · exact ite_inv (setMarg_inv h) h
  · exact h

theorem clkreqExit_inv {L : Nat} (h : s.inv) : (clkreqExit s L).inv := by
  unfold clkreqExit
  split
  · exact emit_inv (clr_inv (set_inv h (by decide)) (by decide))
  · exact h

theorem l12Enter_inv {L : Nat} (h : s.inv) : (l12Enter s L).inv := by
  unfold l12Enter
  refine each_inv ?_ fun _ _ h => each_inv h fun _ _ h => clr_inv h (by decide)
  split
  · exact wr_inv (clr_inv h (by decide)) (by decide)
  · exact h

theorem lanesIdle_inv {L : Nat} {idled : Nat → Bool} (h : s.inv) : (lanesIdle s L idled).inv :=
  each_inv h fun _ _ h => ite_inv (set_inv h (by decide)) (ite_inv (laneJoin_inv h) h)

theorem execLinkPowerState_inv {L : Fin 256} {st : Fin 13} {idled : BitVec 16} {dirs : BitVec 2} (h : s.inv) : outInv (execLinkPowerState L st idled dirs s) := by
  unfold execLinkPowerState
  refine live_inv h fun _ h => ?_
  refine ite_inv ?_ h
  extract_lets _ _ _ _ _ s2
  have hs2 : s2.inv := wr_inv (wrB_inv (wr_inv (ite_inv (clkreqExit_inv h) h) (by decide)) (by decide)) (by decide)
  exact idleEdges_inv (refreshLink_inv (linkEvent_inv (ite_inv (l12Enter_inv (lanesIdle_inv hs2)) (lanesIdle_inv hs2))))

theorem execGsbPerst_inv {g : Fin 16} {i : Fin 4} {level : Bool} (h : s.inv) : outInv (execGsbPerst g i level s) := by
  unfold execGsbPerst
  refine live_inv h fun _ h => ?_
  refine ite_inv h ?_
  extract_lets s1
  have hs1 : s1.inv := wrB_inv (wrB_inv h (by decide)) (by decide)
  refine ite_inv ?_ ?_
  · refine ite_inv ?_ hs1
    refine pathEventNext_inv ?_
    refine linkEvent_inv ?_
    refine refreshLink_inv ?_
    exact each_inv (ite_inv (rateChanged_inv (enterDetect_inv hs1)) hs1) fun _ _ h => each_inv h fun _ _ h => clr_inv (clr_inv h (by decide)) (by decide)
  · refine ite_inv ?_ ?_
    · exact refreshLink_inv (linkEvent_inv (l12Enter_inv (wr_inv hs1 (by decide))))
    · exact ite_inv (refreshLink_inv (linkEvent_inv (clkreqExit_inv (clr_inv (wr_inv hs1 (by decide)) (by decide))))) (ite_inv (pollGsb_inv hs1) hs1)

theorem execCxlNegotiation_inv {L : Fin 256} {fmt : Fin 4} (h : s.inv) : outInv (execCxlNegotiation L fmt s) := by
  unfold execCxlNegotiation
  refine live_inv h fun _ h => ?_
  refine ite_inv ?_ h
  extract_lets _ _ _ s2 s3
  have hs2 : s2.inv := wrB_inv (wr_inv h (by decide)) (by decide)
  have hs3 : s3.inv := ite_inv (linkEvent_inv hs2) hs2
  exact ite_inv hs3 (pathEventNext_inv hs3)

theorem lnkPciSet_inv {L v : Nat} (h : s.inv) : (lnkPciSet s L v).inv := by
  unfold lnkPciSet
  extract_lets s1 _ s3 _ s5
  have hs1 : s1.inv := wr_inv h (by decide)
  have hs3 : s3.inv := wr_inv (ite_inv hs1 (wr_inv hs1 (by decide))) (by decide)
  have hs5 : s5.inv := wr_inv (wr_inv (ite_inv hs3 (wr_inv hs3 (by decide))) (by decide)) (by decide)
  exact ite_inv hs5 (wr_inv hs5 (by decide))

theorem execLnkPciWrite_inv {r : Route} {L : Fin 256} {v : DW} (h : s.inv) : outInv (execLnkPciWrite r L v s) :=
  live_inv h fun _ h => gate_inv (fun _ h => lnkPciSet_inv h) h

end Sys2Proof.Machine
end

section
/-! The invariant under the operations of Machine/Term: link terminators. -/
namespace Sys2Proof.Machine

variable {s : State}

theorem ltPciCfgSet_inv {t v : Nat} (h : s.inv) : (ltPciCfgSet s t v).inv :=
  ite_inv (set_inv h (by decide)) (wr_inv (wr_inv (ite_inv (wr_inv h (by decide)) (wr_inv (wr_inv h (by decide)) (by decide))) (by decide)) (by decide))

theorem execLtPciCfgWrite_inv {r : Route} {t : Fin 32} {v : DW} (h : s.inv) : outInv (execLtPciCfgWrite r t v s) :=
  live_inv h fun _ h => gate_inv (fun _ h => ltPciCfgSet_inv h) h

theorem ltRingSet_inv {t : Nat} {tx : Bool} {v : Nat} (h : s.inv) : (ltRingSet s t tx v).inv :=
  ite_inv (set_inv h (by decide)) (ite_inv (wr_inv (wr_inv h (by decide)) (by decide)) (wr_inv (wr_inv h (by decide)) (by decide)))

theorem execLtRingWrite_inv {r : Route} {t : Fin 32} {tx : Bool} {v : DW} (h : s.inv) : outInv (execLtRingWrite r t tx v s) :=
  live_inv h fun _ h => gate_inv (fun _ h => ltRingSet_inv h) h

theorem ringPut_inv {g base size : Nat} {ws : List Nat} (h : s.inv) : (ringPut s g base size ws).inv := setD_inv (each_inv h (fun _ _ h => setD_inv h))
theorem setPkt_inv {g h : Nat} {v : Option Pkt} (hs : s.inv) : (s.setPkt g h v).inv := with_pkts_inv hs
theorem ltEmit_inv {t : Nat} {o : Out} (h : s.inv) : (ltEmit s t o).inv := emitTx_inv h
theorem ltReturn_inv {t fc h d : Nat} (hs : s.inv) : (ltReturn s t fc h d).inv := ite_inv hs (ltEmit_inv (incWrap_inv (incWrap_inv hs (by decide)) (by decide)))

theorem freeHandle_inv {g h : Nat} (hs : s.inv) : (freeHandle s g h).inv := by
  unfold freeHandle
  split
  · exact hs
  · exact ltReturn_inv (setPkt_inv hs)

theorem ringWritten_inv {g w : Nat} (h : s.inv) : (ringWritten s g w).inv :=
  each_inv h fun _ _ h => ite_inv (foldl_inv (with_ltHdr_inv h) (fun _ _ h => ltReturn_inv h)) h

theorem dataWrite_inv {g w : Nat} {v : Word} (h : s.inv) : (dataWrite s g w v).inv := ringWritten_inv (setD_inv h)

theorem ltDeliver_inv {t typ flags fc credits : Nat} {slot : Bool} {bytes : List Byte} (h : s.inv) : optInv (ltDeliver s t typ flags fc credits slot bytes) :=
  ite_opt_inv none_inv (ite_opt_inv none_inv (some_inv (with_ltHdr_inv (ringPut_inv (ite_inv h (setPkt_inv (freshNat_inv h)))))))

theorem ltNak_inv {t : Nat} (h : s.inv) : (ltNak s t).inv := ite_inv h (ltEmit_inv (set_inv (incSat_inv h (by decide)) (by decide)))

theorem execLtRxTlp_inv {t : Fin 32} {slot checkOk ecrc ep ecrcBad : Bool} {seq : BitVec 12} {bytes : List Byte} (h : s.inv) : outInv
    (execLtRxTlp t slot checkOk ecrc ep ecrcBad seq bytes s) := by
  unfold execLtRxTlp
  refine live_inv h fun _ h => ?_
  refine ite_inv h ?_
  extract_lets _ _ _ s1
  have hs1 : s1.inv := clr_inv (ite_inv (wr_inv h (by decide)) h) (by decide)
  exact ite_inv (ltNak_inv h) (ite_inv (getD_inv (ltDeliver_inv (ltEmit_inv hs1)) (ltEmit_inv hs1)) (ltEmit_inv h))

theorem ltTxBytes_inv {hdr : List Byte} {pkt : Option Pkt} {len : Nat} (h : s.inv) : (ltTxBytes s hdr pkt len).2.inv := by
  unfold ltTxBytes
  dsimp only
  split
  · dsimp only
    exact freshBytes_inv h
  · exact h

theorem txAdvance_inv {t : Nat} (h : s.inv) : (txAdvance s t).inv := setD_inv h

theorem txName_inv {g h : Nat} (hs : s.inv) : (txName s g h).inv := by
  unfold txName
  split
  · exact setPkt_inv hs
  · exact hs

theorem txSend_inv {t typ : Nat} {d : TxDesc} {l : List Byte} (h : s.inv) : (txSend s t typ d l).inv := ltEmit_inv
    (with_ltSent_inv (txName_inv (wr_inv h (by decide))))

theorem txTlp_inv {t : Nat} {d : TxDesc} {l : List Byte} (h : s.inv) : (txTlp s t d l).inv := txSend_inv (incWrap_inv (incWrap_inv h (by decide)) (by decide))

theorem ltTransmit_inv {t : Nat} (h : s.inv) : (ltTransmit s t).inv := by
  refine ite_inv (txAdvance_inv h) ?_
  refine ite_inv (pathEventNext_inv (txAdvance_inv h)) ?_
  refine ite_inv (freeHandle_inv (txAdvance_inv h)) ?_
  refine ite_inv ?_ ?_
  · exact freeHandle_inv (ltEmit_inv (ltEmit_inv (txAdvance_inv (ltTxBytes_inv h))))
  · exact ite_inv h (ite_inv (txSend_inv (txAdvance_inv (ltTxBytes_inv h))) (ite_inv (txTlp_inv (txAdvance_inv (ltTxBytes_inv h))) h))

theorem execLtTxDescriptor_inv {t : Fin 32} (h : s.inv) : outInv (execLtTxDescriptor t s) := live_inv h fun _ h => ite_inv (ltTransmit_inv h) h

theorem ltAcked_inv {t b : Nat} (h : s.inv) : (ltAcked s t b).inv := by
  unfold ltAcked
  refine foldl_inv (with_ltSent_inv h) fun _ _ h => ?_
  split
  · exact freeHandle_inv h
  · exact h

theorem ltReplay_inv {t : Nat} (h : s.inv) : (ltReplay s t).inv := ite_inv h (foldl_inv (incSat_inv h (by decide)) (fun _ _ h => ltEmit_inv h))
theorem ltActive_inv {t : Nat} (h : s.inv) : (ltActive s t).inv := ite_inv (set_inv h (by decide)) h

theorem ltCredits_inv {t fc : Nat} {init : Bool} {h d : Nat} (hs : s.inv) : (ltCredits s t fc init h d).inv := by
  refine ite_inv ?_ (wr_inv (wr_inv hs (by decide)) (by decide))
  exact ltActive_inv (wrBit_inv (clr_inv (clr_inv (wr_inv (wr_inv (wr_inv hs (by decide)) (by decide)) (by decide)) (by decide)) (by decide)) (by decide))

theorem execLtTlpAck_inv {t : Fin 32} {d : Dllp} (h : s.inv) : outInv (execLtTlpAck t d s) := by
  unfold execLtTlpAck
  refine live_inv h fun _ h => ?_
  refine ite_inv h ?_
  split
  · exact ltAcked_inv h
  · exact ltReplay_inv (ltAcked_inv h)
  · exact ltCredits_inv h
  · exact set_inv h (by decide)
  · exact ite_inv (ltEmit_inv h) h

theorem fcInitType_inv {t fc : Nat} (h : s.inv) : (fcInitType t s fc).inv :=
  ltEmit_inv (ite_inv (wr_inv (wr_inv (freshNat_inv (freshNat_inv h)) (by decide)) (by decide)) (wr_inv (wr_inv h (by decide)) (by decide)))

theorem execLtFcInit_inv {t : Fin 32} (h : s.inv) : outInv (execLtFcInit t s) :=
  live_inv h fun _ h => ite_inv (ltActive_inv (foldl_inv (ltEmit_inv (wrBit_inv h (by decide))) (fun _ _ h => fcInitType_inv h))) h

theorem ltMove_inv {t st : Nat} (h : s.inv) : (ltMove s t st).inv := by
  unfold ltMove
  extract_lets _ _ s2
  have hs2 : s2.inv := refreshLink_inv (linkEvent_inv (wr_inv (ite_inv h (clr_inv (clr_inv (ltDown_inv h) (by decide)) (by decide))) (by decide)))
  exact ite_inv (ltDetect_inv hs2) hs2

theorem ltOwnSet_inv {t : Nat} (h : s.inv) : (ltOwnSet s t).inv := ite_inv (ltEmit_inv h) h

theorem ltEthTo_inv {t st : Nat} {lf rf : Bool} (h : s.inv) : (ltEthTo s t st lf rf).inv := by
  unfold ltEthTo
  extract_lets _ s1 s2
  have hs1 : s1.inv := wrB_inv (wrB_inv (wr_inv h (by decide)) (by decide)) (by decide)
  have hs2 : s2.inv := ite_inv (clr_inv hs1 (by decide)) hs1
  exact ite_inv hs2 (linkEvent_inv hs2)

theorem ltPciTo_inv {t st rate : Nat} {flit cxl : Bool} {width : Nat} {reversed : Bool} {inverted : Nat} (h : s.inv) :
    (ltPciTo s t st rate flit cxl width reversed inverted).inv := by
  unfold ltPciTo
  extract_lets _ _ _ _ _ _ _ _ _ s4 s5 s6 _ _ s8 _ s10
  have hs4 : s4.inv := by
    refine wr_inv ?_ (by decide)
    exact wrB_inv (wrB_inv (wrB_inv (wr_inv (wr_inv (ite_inv (ltDown_inv h) h) (by decide)) (by decide)) (by decide)) (by decide)) (by decide)
  have hs5 : s5.inv := ite_inv (clr_inv (clr_inv hs4 (by decide)) (by decide)) (ltActive_inv hs4)
  have hs6 : s6.inv := ite_inv (ltRated_inv hs5) hs5
  have hs8 : s8.inv := wr_inv (wrB_inv (wr_inv (ite_inv (clr_inv hs6 (by decide)) hs6) (by decide)) (by decide)) (by decide)
  have hs10 : s10.inv := refreshLink_inv (ite_inv (linkEvent_inv (lanesJoin_inv hs8)) (lanesJoin_inv hs8))
  exact ite_inv (ltDetect_inv hs10) (ltOwnSet_inv hs10)

theorem execTerminatorTraining_inv {t : Fin 32} {st : Fin 16} {rate : Fin 7} {flit cxl : Bool} {width : Fin 5} {reversed : Bool} {inverted : BitVec 16}
    (h : s.inv) : outInv (execTerminatorTraining t st rate flit cxl width reversed inverted s) :=
  live_inv h fun _ h => ite_inv h (ite_inv (ite_inv h (ltEthTo_inv h)) (ite_inv (ltPciTo_inv h) h))

theorem execReplayTimerExpiry_inv {t : Fin 32} (h : s.inv) : outInv (execReplayTimerExpiry t s) := live_inv h fun _ h => ite_inv (ltReplay_inv h) h

end Sys2Proof.Machine
end

section
/-! The invariant under the operations of Machine/Eth: Ethernet and raw lanes. -/
namespace Sys2Proof.Machine

variable {s : State}

theorem readCell_inv {q i : Nat} (h : s.inv) : (readCell s q i).2.inv := ite_inv (readBytes_inv h) (pathEventNext_inv (readBytes_inv h))
theorem setCellHold_inv {q : Nat} {l : List (List Byte)} (h : s.inv) : (setCellHold s q l).inv := with_dlyHold_inv h
theorem cellOut_inv {q : Nat} (h : s.inv) : (cellOut s q).inv := setCellHold_inv (readCell_inv h)
theorem cellsOut_inv {q : Nat} (h : s.inv) : (cellsOut s q).inv := foldl_inv h fun _ _ h => cellOut_inv h
theorem cellSend_inv {q : Nat} {b : List Byte} (h : s.inv) : (cellSend q s b).inv := ite_inv h (emit_inv h)

theorem dlyDrainLane_inv {q : Nat} (h : s.inv) : (dlyDrainLane s q).inv :=
  dlyEmpty_inv (foldl_inv (cellsOut_inv (ite_inv (incSat_inv h (by decide)) h)) (fun _ _ h => cellSend_inv h))

theorem dlyDrain_inv {p : Nat} (h : s.inv) : (dlyDrain s p).inv := each_inv h fun _ _ h => dlyDrainLane_inv h
theorem cellsKeep_inv {q new : Nat} (h : s.inv) : (cellsKeep s q new).inv := wr_inv (setCellHold_inv (cellsOut_inv h)) (by decide)

theorem dlyChange_inv {p cells : Nat} (h : s.inv) : (dlyChange s p cells).inv := by
  refine each_inv ?_ fun _ _ h => wrB_inv h (by decide)
  exact wr_inv (wr_inv (with_dly_inv (incSat_inv (each_inv h (fun _ _ h => cellsKeep_inv h)) (by decide))) (by decide)) (by decide)

theorem lnkEthSet_inv {L v : Nat} (h : s.inv) : (lnkEthSet s L v).inv := by
  unfold lnkEthSet
  extract_lets _ flags
  have hflags (u : State) (hu : u.inv) : (flags u).inv :=
    have hw := wr_inv (wr_inv hu (by decide)) (by decide)
    ite_inv hw (each_inv hw fun _ _ h => ite_inv (dlyChange_inv h) h)
  refine ite_inv (set_inv h (by decide)) (ite_inv (hflags _ (ite_inv h (set_inv h (by decide)))) (hflags _ ?_))
  exact wr_inv (wr_inv (wr_inv (wr_inv (wr_inv (wr_inv h (by decide)) (by decide)) (by decide)) (by decide)) (by decide)) (by decide)

theorem execLnkEthWrite_inv {r : Route} {L : Fin 256} {v : DW} (h : s.inv) : outInv (execLnkEthWrite r L v s) :=
  live_inv h fun _ h => gate_inv (fun _ h => lnkEthSet_inv h) h

theorem execAnFailure_inv {L : Fin 256} {side : Fin 2} (h : s.inv) : outInv (execAnFailure L side s) :=
  live_inv h fun _ h => ite_inv (pathEventNext_inv (ite_inv (set_inv (segEnter_inv h) (by decide)) (linkEvent_inv (set_inv (segEnter_inv h) (by decide))))) h

theorem execSegmentDataMode_inv {L : Fin 256} {side : Fin 2} {st : Fin 5} {corr unc sym : BitVec 32} (h : s.inv) : outInv
    (execSegmentDataMode L side st corr unc sym s) := by
  unfold execSegmentDataMode
  refine live_inv h fun _ h => ?_
  refine ite_inv ?_ h
  extract_lets _ s1 s2
  have hs1 : s1.inv := linkEvent_inv (segEnter_inv h)
  have hs2 : s2.inv := ite_inv (trainRec_inv hs1) hs1
  exact ite_inv hs2 (emitTx_inv hs2)

theorem rxLost_inv {p : Nat} (h : s.inv) : (rxLost s p).inv := ite_inv (emitTx_inv (ite_inv (dlyDrain_inv h) h)) (ite_inv (dlyDrop_inv h) h)

theorem execSegmentLoss_inv {L : Fin 256} {side : Fin 2} {st : Fin 4} (h : s.inv) : outInv (execSegmentLoss L side st s) :=
  live_inv h fun _ h => ite_inv (rxLost_inv (linkEvent_inv (segEnter_inv h))) h

theorem execLtEthRxFrame_inv {t : Fin 32} {fcsBad : Bool} {bytes : List Byte} (h : s.inv) : outInv (execLtEthRxFrame t fcsBad bytes s) :=
  live_inv h fun _ h => ite_inv h (ite_inv (incSat_inv h (by decide)) (getD_inv (ltDeliver_inv h) (incSat_inv h (by decide))))

theorem execLtEthTxFrame_inv {t : Fin 32} (h : s.inv) : outInv (execLtEthTxFrame t s) := live_inv h fun _ h => ite_inv (ltTransmit_inv h) h
theorem ltEthCfgSet_inv {t v : Nat} (h : s.inv) : (ltEthCfgSet s t v).inv := ite_inv (set_inv h (by decide)) (wr_inv (wr_inv h (by decide)) (by decide))

theorem execLtEthCfgWrite_inv {r : Route} {t : Fin 32} {v : DW} (h : s.inv) : outInv (execLtEthCfgWrite r t v s) :=
  live_inv h fun _ h => gate_inv (fun _ h => ltEthCfgSet_inv h) h

theorem rawRateSet_inv {n v : Nat} (h : s.inv) : (rawRateSet s n v).inv :=
  ite_inv h (ite_inv (set_inv h (by decide)) (ite_inv (wr_inv (wr_inv h (by decide)) (by decide)) h))

theorem execRawRateWrite_inv {r : Route} {n : Fin 256} {v : DW} (h : s.inv) : outInv (execRawRateWrite r n v s) :=
  live_inv h fun _ h => gate_inv (fun _ h => rawRateSet_inv h) h

theorem pathPatSet_inv {p v : Nat} (h : s.inv) : (pathPatSet s p v).inv := by
  unfold pathPatSet
  refine ite_inv h ?_
  extract_lets _ _ _ s2
  have hs2 : s2.inv := wr_inv (wr_inv (wr_inv (wr_inv (wr_inv (wr_inv h (by decide)) (by decide)) (by decide)) (by decide)) (by decide)) (by decide)
  exact refreshPort_inv (ite_inv hs2 (pchkRestart_inv hs2))

theorem execPathPatWrite_inv {r : Route} {p : Fin 512} {v : DW} (h : s.inv) : outInv (execPathPatWrite r p v s) :=
  live_inv h fun _ h => gate_inv (fun _ h => pathPatSet_inv h) h

theorem execPatternLock_inv {p : Fin 512} (h : s.inv) : outInv (execPatternLock p s) := live_inv h fun _ h => ite_inv (set_inv h (by decide)) h

theorem pchkUnit_inv {p ui : Nat} {bad : List Nat} (h : s.inv) : (pchkUnit s p ui bad).inv :=
  ite_inv h (with_pchk_inv (incSat_inv (wr_inv (wrB_inv h (by decide)) (by decide)) (by decide)))

theorem pathDlySet_inv {p v : Nat} (h : s.inv) : (pathDlySet s p v).inv :=
  ite_inv h (ite_inv (set_inv h (by decide)) (ite_inv (wr_inv (set_inv (wr_inv h (by decide)) (by decide)) (by decide)) (wr_inv h (by decide))))

theorem execPathDlyWrite_inv {r : Route} {p : Fin 512} {v : DW} (h : s.inv) : outInv (execPathDlyWrite r p v s) :=
  live_inv h fun _ h => gate_inv (fun _ h => pathDlySet_inv h) h

theorem dlyDue_inv {p pos stamp : Nat} (h : s.inv) : (dlyDue s p pos stamp).inv := by
  unfold dlyDue
  extract_lets s1 s2 _ _ s3
  have hs1 : s1.inv := clr_inv h (by decide)
  have hs2 : s2.inv := ite_inv (ite_inv (dlyChange_inv hs1) hs1) h
  have hs3 : s3.inv := clr_inv hs2 (by decide)
  exact ite_inv (ite_inv (dlyChange_inv (wr_inv hs3 (by decide))) (cancelAction_inv hs3)) hs2

theorem execDelayChangeEffect_inv {p : Fin 512} (h : s.inv) : outInv (execDelayChangeEffect p s) :=
  live_inv h fun _ h => dlyDue_inv (modeDue_inv (ite_inv (wr_inv h (by decide)) h))

end Sys2Proof.Machine
end

section
/-! The invariant under the operations of Machine/Xcvr: transceivers. -/
namespace Sys2Proof.Machine

variable {s : State}

theorem execSignalDetectChange_inv {r : Fin 512} {mv : BitVec 12} (h : s.inv) : outInv (execSignalDetectChange r mv s) := by
  unfold execSignalDetectChange
  refine live_inv h fun _ h => ?_
  dsimp only
  split
  · exact each_inv (wrB_inv h (by decide)) fun _ _ h => detectBegin_inv h
  · exact wrB_inv h (by decide)

theorem execCdrLock_inv {r : Fin 512} (h : s.inv) : outInv (execCdrLock r s) := live_inv h fun _ h => ite_inv (refreshLink_inv (set_inv h (by decide))) h

theorem execAdaptationDone_inv {r : Fin 512} {ctle : BitVec 5} {dfe : BitVec 7} (h : s.inv) : outInv (execAdaptationDone r ctle dfe s) := by
  unfold execAdaptationDone
  refine live_inv h fun _ h => ?_
  refine ite_inv ?_ h
  extract_lets s1
  have hs1 : s1.inv := ite_inv h (wr_inv (wr_inv (set_inv h (by decide)) (by decide)) (by decide))
  exact ite_inv hs1 (calResume_inv hs1)

theorem holdover_inv {p : Nat} (h : s.inv) : (holdover s p).inv :=
  ite_inv h (ite_inv (emitTx_inv (wrB_inv (dlyDrainLane_inv h) (by decide))) (wrB_inv (dlyDrainLane_inv h) (by decide)))

theorem execLossOfLock_inv {r : Fin 512} {expected : Bool} (h : s.inv) : outInv (execLossOfLock r expected s) := by
  refine live_inv h fun _ h => ?_
  refine ite_inv h ?_
  refine refreshLink_inv ?_
  refine holdover_inv ?_
  exact ite_inv (errorRec_inv (portEvent_inv (set_inv (calPause_inv (clr_inv h (by decide))) (by decide)))) (calPause_inv (clr_inv h (by decide)))

theorem ppmSet_inv {x v : Nat} (h : s.inv) : optInv (ppmSet s x v) := ite_opt_inv (some_inv (wr_inv h (by decide))) none_inv
theorem clkSet_inv {x v : Nat} (h : s.inv) : optInv (clkSet s x v) := ite_opt_inv (some_inv (refreshPort_inv (wr_inv (wr_inv h (by decide)) (by decide)))) none_inv

theorem firSet_inv {x v : Nat} (h : s.inv) : optInv (firSet s x v) := by
  refine ite_opt_inv ?_ none_inv
  refine some_inv ?_
  exact refreshPort_inv (wr_inv (wr_inv (wr_inv (wr_inv (wr_inv (wr_inv h (by decide)) (by decide)) (by decide)) (by decide)) (by decide)) (by decide))

theorem lvlSet_inv {x v : Nat} (h : s.inv) : optInv (lvlSet s x v) := ite_opt_inv (some_inv (wr_inv (wr_inv h (by decide)) (by decide))) none_inv
theorem orTxerr_inv {x : Nat} {f : Option State} (h : s.inv) (hf : optInv f) : (orTxerr x s f).inv := getD_inv hf (set_inv h (by decide))

theorem execTxPpmWrite_inv {r : Route} {x : Fin 512} {v : DW} (h : s.inv) : outInv (execTxPpmWrite r x v s) :=
  live_inv h fun _ h => gate_inv (fun _ h => orTxerr_inv h (ppmSet_inv h)) h

theorem execTxClkWrite_inv {r : Route} {x : Fin 512} {v : DW} (h : s.inv) : outInv (execTxClkWrite r x v s) :=
  live_inv h fun _ h => gate_inv (fun _ h => orTxerr_inv h (clkSet_inv h)) h

theorem execTxFirWrite_inv {r : Route} {x : Fin 512} {v : DW} (h : s.inv) : outInv (execTxFirWrite r x v s) :=
  live_inv h fun _ h => gate_inv (fun _ h => orTxerr_inv h (firSet_inv h)) h

theorem execTxLvlWrite_inv {r : Route} {x : Fin 512} {v : DW} (h : s.inv) : outInv (execTxLvlWrite r x v s) :=
  live_inv h fun _ h => gate_inv (fun _ h => orTxerr_inv h (lvlSet_inv h)) h

theorem execSscSettingApply_inv {r : Fin 512} (h : s.inv) : outInv (execSscSettingApply r s) := live_inv h fun _ h => refreshPort_inv (wr_inv h (by decide))

theorem xcvrCtlSet_inv {x v : Nat} (h : s.inv) : (xcvrCtlSet s x v).inv :=
  ite_inv (detectBegin_inv (wr_inv (wr_inv (wr_inv h (by decide)) (by decide)) (by decide))) (wr_inv (wr_inv (wr_inv h (by decide)) (by decide)) (by decide))

theorem execDetreq_inv {r : Route} {x : Fin 512} {ctl : BitVec 3} (h : s.inv) : outInv (execDetreq r x ctl s) :=
  live_inv h fun _ h => gate_inv (fun _ h => xcvrCtlSet_inv h) h

theorem execRxDetectDone_inv {r : Fin 512} {present : Bool} (h : s.inv) : outInv (execRxDetectDone r present s) :=
  live_inv h fun _ h => ite_inv (wr_inv (clr_inv h (by decide)) (by decide)) h

theorem qualLoad_inv {x : Nat} (h : s.inv) : (qualLoad s x).inv := by
  refine ite_inv h ?_
  refine incWrap_inv ?_ (by decide)
  refine wr_inv ?_ (by decide)
  exact wr_inv (wr_inv (wr_inv (wr_inv (wr_inv (wr_inv (wr_inv h (by decide)) (by decide)) (by decide)) (by decide)) (by decide)) (by decide)) (by decide)

theorem execQualWindowEnd_inv {r : Fin 512} {eye : BitVec 32} {ber : BitVec 16} {noError : Bool} {ofs : BitVec 8} {ofsIdx : Fin 4} (h : s.inv) : outInv
    (execQualWindowEnd r eye ber noError ofs ofsIdx s) := by
  refine live_inv h fun _ h => ?_
  refine ite_inv (wrB_inv h (by decide)) ?_
  refine ite_inv ?_ ?_
  · exact qualLoad_inv (wr_inv (wr_inv (wrB_inv h (by decide)) (by decide)) (by decide))
  · exact wr_inv (wr_inv (wrB_inv h (by decide)) (by decide)) (by decide)

theorem qualCtlSet_inv {x v : Nat} (h : s.inv) : (qualCtlSet s x v).inv :=
  ite_inv (qualLoad_inv (wr_inv (ite_inv (wr_inv h (by decide)) h) (by decide))) (wr_inv (ite_inv (wr_inv h (by decide)) h) (by decide))

theorem execQualSnap_inv {r : Route} {x : Fin 512} {ctl : BitVec 4} (h : s.inv) : outInv (execQualSnap r x ctl s) :=
  live_inv h fun _ h => gate_inv (fun _ h => qualCtlSet_inv h) h

end Sys2Proof.Machine
end

section
/-! The invariant under the operations of Machine/Cal: calibration. -/
namespace Sys2Proof.Machine

variable {s : State}

theorem setTrim_inv {x i w : Nat} (h : s.inv) : (setTrim s x i w).inv := wr_inv (wr_inv (wr_inv h (by decide)) (by decide)) (by decide)
theorem calStart_inv {x : Nat} (h : s.inv) : (calStart s x).inv := calSet_inv (calRewind_inv (wr_inv (with_calq_inv h) (by decide)))

theorem execCalRunStart_inv {g : Fin 16} (h : s.inv) : outInv (execCalRunStart g s) := by
  unfold execCalRunStart
  refine live_inv h fun _ h => ?_
  dsimp only
  split
  · exact h
  · exact ite_inv (each_inv h (fun _ _ h => calStart_inv h)) h

theorem rxEvent_inv {x kind slice : Nat} (h : s.inv) : (rxEvent s x kind slice).inv := laneEvent_inv h
theorem calEnd_inv {x rounds : Nat} (h : s.inv) : (calEnd s x rounds).inv := wr_inv (calSet_inv (calRewind_inv h)) (by decide)

theorem calFail_inv {x slice : Nat} (h : s.inv) : (calFail s x slice).inv := by
  refine ite_inv ?_ ?_
  · exact calSet_inv (calRewind_inv (rxEvent_inv (wr_inv (incSat_inv h (by decide)) (by decide))))
  · exact calEnd_inv (rxEvent_inv (wr_inv (incSat_inv h (by decide)) (by decide)))

theorem sliceRetire_inv {x i : Nat} (h : s.inv) : (sliceRetire s x i).inv :=
  ite_inv (refreshPort_inv (calSet_inv (calRewind_inv (set_inv (rxEvent_inv (wr_inv h (by decide))) noShadowFld_ne)))) (rxEvent_inv (wr_inv h (by decide)))

theorem execCalPassDone_inv {x : Fin 512} {found : Option SliceTrim} (h : s.inv) : outInv (execCalPassDone x found s) := by
  unfold execCalPassDone
  refine live_inv h fun _ h => ?_
  refine ite_inv h ?_
  split
  · exact h
  · extract_lets _ _ _ s1 s2
    have hs1 : s1.inv := wr_inv h (by decide)
    have hs2 : s2.inv := ite_inv (incSat_inv hs1 (by decide)) hs1
    clear_value *
    split
    · exact ite_inv (sliceRetire_inv hs2) (ite_inv (calFail_inv hs2) (wr_inv hs2 (by decide)))
    · exact ite_inv (set_inv (wr_inv hs2 (by decide)) (by decide)) (ite_inv (calFail_inv (wr_inv hs2 (by decide))) (wr_inv hs2 (by decide)))

theorem calDone_inv {x : Nat} (h : s.inv) : (calDone s x).inv := calSet_inv (calRewind_inv (clr_inv (wr_inv (incSat_inv h (by decide)) tlastFld_ne) (by decide)))

theorem calSwapDo_inv {x : Nat} (h : s.inv) : (calSwapDo s x).inv := by
  unfold calSwapDo
  split
  · exact h
  · refine ite_inv (calDone_inv (setTrim_inv h)) ?_
    refine clr_inv ?_ (by decide)
    refine clr_inv ?_ (by decide)
    refine clr_inv ?_ (by decide)
    refine wr_inv ?_ (by decide)
    split
    · exact wr_inv (wr_inv (setTrim_inv h) (by decide)) (by decide)
    · exact wr_inv (setTrim_inv h) (by decide)

theorem execCalSwap_inv {x : Fin 512} {tx : Option TxTrim} (h : s.inv) : outInv (execCalSwap x tx s) := by
  unfold execCalSwap
  refine live_inv h fun _ h => ?_
  refine ite_inv h ?_
  extract_lets s1
  have hs1 : s1.inv := by
    dsimp only [s1]
    split
    · exact wr_inv (wr_inv h (by decide)) (by decide)
    · exact h
  exact ite_inv (set_inv hs1 (by decide)) (calSwapDo_inv hs1)

theorem calLater_inv {p : Nat} (h : s.inv) : (calLater s p).inv := ite_inv (clr_inv h (by decide)) (ite_inv (calSwapDo_inv (clr_inv h (by decide))) h)
theorem execCalRequeue_inv {x : Fin 512} (h : s.inv) : outInv (execCalRequeue x s) := live_inv h fun _ h => ite_inv (calQueue_inv (clr_inv h (by decide))) h

theorem execCalNoUnitTimeout_inv {x : Fin 512} (h : s.inv) : outInv (execCalNoUnitTimeout x s) :=
  live_inv h fun _ h => ite_inv (wr_inv (calSet_inv (calRewind_inv h)) (by decide)) h

theorem rxRestore_inv {x v : Nat} (h : s.inv) : (rxRestore s x v).inv := by
  unfold rxRestore
  extract_lets s1 _ s2 s3 s4
  have hs1 : s1.inv := foldl_inv h fun _ _ h => setTrim_inv h
  have hs2 : s2.inv := foldl_inv hs1 fun _ _ h => wr_inv h (by decide)
  have hs3 : s3.inv := each_inv hs2 fun _ _ h => wr_inv h (by decide)
  have hs4 : s4.inv := wrB_inv hs3 noShadowFld_ne
  clear_value *
  split
  · exact ite_inv (rxEvent_inv hs4) hs4
  · exact hs4

theorem rxDefault_inv {x : Nat} (h : s.inv) : (rxDefault s x).inv :=
  clr_inv (wr_inv (wr_inv (foldl_inv h (fun _ _ h => wr_inv (setTrim_inv h) (by decide))) (by decide)) (by decide)) noShadowFld_ne

theorem calRestore_inv {n : Nat} (h : s.inv) : (calRestore s n).inv := by
  unfold calRestore
  split
  · refine calShow_inv ?_
    refine clr_inv ?_ (by decide)
    refine wr_inv ?_ (by decide)
    exact wr_inv (wr_inv (wr_inv (rxRestore_inv (rxRestore_inv (wr_inv (wr_inv h (by decide)) (by decide)))) (by decide)) (by decide)) (by decide)
  · exact laneEvent_inv (calShow_inv (set_inv (set_inv (rxDefault_inv (rxDefault_inv h)) (by decide)) (by decide)))

theorem calRestoreAll_inv (h : s.inv) : (calRestoreAll s).inv :=
  with_freeCtr_inv (foldl_inv (clr_inv (wr_inv h (by decide)) (by decide)) (fun _ _ h => calRestore_inv h))

theorem wbRecords_inv {c : Nat} (h : s.inv) : (wbRecords s c).inv := foldl_inv h fun _ _ h => setNvms_inv h

theorem calWriteback_inv (h : s.inv) : (calWriteback s).inv := by
  refine ite_inv (wr_inv h (by decide)) ?_
  exact ite_inv (wr_inv (set_inv h (by decide)) (by decide)) (with_freeCtr_inv (wr_inv (wbRecords_inv (set_inv h (by decide))) (by decide)))

theorem calCmd_inv {v : Nat} (h : s.inv) : (calCmd s v).inv := by
  refine ite_inv (calWriteback_inv h) ?_
  refine ite_inv (wr_inv h (by decide)) ?_
  refine ite_inv ?_ (ite_inv (wr_inv (set_inv h (by decide)) (by decide)) h)
  refine wr_inv ?_ (by decide)
  refine calShow_inv ?_
  refine each_inv h fun _ _ h => ?_
  exact calQueue_inv (ite_inv (calSet_inv (clr_inv (clr_inv h (by decide)) (by decide))) (clr_inv (clr_inv h (by decide)) (by decide)))

theorem execWriteback_inv {r : Route} (h : s.inv) : outInv (execWriteback r s) := live_inv h fun _ h => gate_inv (fun _ h => calCmd_inv h) h
theorem execRecal_inv {r : Route} {n : Fin 256} (h : s.inv) : outInv (execRecal r n s) := live_inv h fun _ h => gate_inv (fun _ h => calCmd_inv h) h
theorem execForeground_inv {r : Route} {n : Fin 256} (h : s.inv) : outInv (execForeground r n s) := live_inv h fun _ h => gate_inv (fun _ h => calCmd_inv h) h

theorem wbEnd_inv {differs : Bool} (h : s.inv) : (wbEnd s differs).inv := by
  refine ite_inv (raise_inv (wr_inv (clr_inv h (by decide)) (by decide))) ?_
  exact wr_inv (wr_inv (setNvms_inv (incWrap_inv (clr_inv h (by decide)) wearFld_ne)) (by decide)) (by decide)

theorem execWritebackDone_inv {differs : Bool} (h : s.inv) : outInv (execWritebackDone differs s) := live_inv h fun _ h => ite_inv h (wbEnd_inv h)

theorem fgPort_inv {x : Nat} {t : PortTrim} (h : s.inv) : (fgPort s x t).inv := by
  unfold fgPort
  refine each_inv (wr_inv (wr_inv h (by decide)) (by decide)) fun _ _ h => ?_
  split
  · exact setTrim_inv h
  · exact rxEvent_inv h

theorem execForegroundCalDone_inv {n : Fin 256} {a b : PortTrim} (h : s.inv) : outInv (execForegroundCalDone n a b s) := by
  unfold execForegroundCalDone
  refine live_inv h fun _ h => ?_
  refine ite_inv ?_ h
  extract_lets _ s2
  have hs2 : s2.inv := calShow_inv (clr_inv (clr_inv (fgPort_inv (fgPort_inv h)) (by decide)) (by decide))
  exact ite_inv (each_inv hs2 (fun _ _ h => calQueue_inv h)) hs2

theorem calCtlSet_inv {v : Nat} (h : s.inv) : (calCtlSet s v).inv :=
  ite_inv (wr_inv (wr_inv (wr_inv h (by decide)) (by decide)) (by decide)) (set_inv (wr_inv (wr_inv h (by decide)) (by decide)) (by decide))

end Sys2Proof.Machine
end

section
/-! The invariant under the operations of Machine/Match: matchers. -/
namespace Sys2Proof.Machine

variable {s : State}

theorem candDrop_inv {m : Nat} (h : s.inv) : (candDrop s m).inv := with_held_items_inv h

theorem matchArm_inv {m : Nat} {b : List Word} (h : s.inv) : (matchArm s m b).inv := by
  refine pollWaits_inv ?_
  refine clr_inv ?_ (by decide)
  exact clr_inv (clr_inv (clr_inv (clr_inv (set_inv (setBlk_inv (candDrop_inv h)) (by decide)) (by decide)) (by decide)) (by decide)) (by decide)

theorem matchDisarm_inv {m : Nat} (h : s.inv) : (matchDisarm s m).inv := clr_inv (candDrop_inv h) (by decide)

theorem matchCmd_inv {g v : Nat} (h : s.inv) : (matchCmd s g v).inv := by
  refine ite_inv h ?_
  refine ite_inv (wr_inv h (by decide)) ?_
  refine ite_inv (wr_inv h (by decide)) ?_
  refine ite_inv (wr_inv (matchDisarm_inv h) (by decide)) ?_
  exact ite_inv (wr_inv h (by decide)) (ite_inv (wr_inv h (by decide)) (wr_inv (matchArm_inv h) (by decide)))

theorem execMatchCmdArm_inv {r : Route} {g : Fin 16} {m : Fin 32} {block : BitVec 12} (h : s.inv) : outInv (execMatchCmdArm r g m block s) :=
  live_inv h fun _ h => gate_inv (fun _ h => matchCmd_inv h) h

theorem execMatchCmdDisarm_inv {r : Route} {g : Fin 16} {m : Fin 32} (h : s.inv) : outInv (execMatchCmdDisarm r g m s) :=
  live_inv h fun _ h => gate_inv (fun _ h => matchCmd_inv h) h

theorem placeEntry_inv {m p : Nat} {b : List Word} {h : HitInfo} (hs : s.inv) : (placeEntry s m p b h).inv := by
  unfold placeEntry
  refine ite_inv hs ?_
  refine ite_inv (injNone_inv hs) ?_
  split
  · exact injNone_inv hs
  · refine ite_inv ?_ ?_
    · exact ite_inv (injDone_inv (injTake_inv hs)) (ite_inv (injDone_inv (injTake_inv hs)) (injTake_inv hs))
    · extract_lets s1
      have hs1 : s1.inv := by
        dsimp only [s1]
        split
        · exact wr_inv (wr_inv (wr_inv (injTake_inv hs) (by decide)) (by decide)) (by decide)
        · exact wr_inv (wr_inv (injTake_inv hs) (by decide)) (by decide)
      exact ite_inv hs1 (injDone_inv hs1)

theorem fireActions_inv {m p : Nat} {b : List Word} {h : HitInfo} (hs : s.inv) : (fireActions s m p b h).inv := by
  unfold fireActions
  extract_lets s1 _ s2
  have hs1 : s1.inv := ite_inv (tlSet_inv hs) hs
  have hs2 : s2.inv := ite_inv hs1 (setStrm_inv hs1)
  exact ite_inv hs2 (placeEntry_inv hs2)

theorem lastHit_inv {m p : Nat} {h : HitInfo} (hs : s.inv) : (lastHit s m p h).inv :=
  ite_inv hs (wr_inv (wr_inv (wr_inv (wr_inv hs (by decide)) (by decide)) (by decide)) (by decide))

theorem matchHit_inv {p : Nat} {x : Nat × HitInfo} (h : s.inv) : (matchHit p s x).inv := by
  unfold matchHit
  extract_lets _ _ _ s1 _ s3
  have hs1 : s1.inv := lastHit_inv (wr_inv h (by decide))
  have hs3 : s3.inv := ite_inv (raise_inv (set_inv (owedHit_inv hs1) (by decide))) (owedHit_inv hs1)
  exact ite_inv (fireActions_inv (set_inv hs3 (by decide))) hs3

end Sys2Proof.Machine
end

section
/-! The invariant under the operations of Machine/Unit: a received unit. -/
namespace Sys2Proof.Machine

variable {s : State}

theorem cellNext_inv {q : Nat} (h : s.inv) : (cellNext s q).inv := incWrap_inv (cellSend_inv (setCellHold_inv h)) (by decide)

theorem delayCell_inv {p : Nat} {e : Fin 16 × List Byte} (h : s.inv) : (delayCell p s e).inv := by
  unfold delayCell
  refine ite_inv h ?_
  extract_lets _ _ s1
  have hs1 : s1.inv := ite_inv (incSat_inv (cellOut_inv h) (by decide)) h
  exact wrB_inv (incWrap_inv (incSat_inv (writeWords_inv (ite_inv (cellNext_inv hs1) (ite_inv hs1 (emitTx_inv hs1)))) (by decide)) (by decide)) (by decide)

theorem delayNone_inv {p : Nat} {u : RxUnit} {line : List Byte} (h : s.inv) : (delayNone s p u line).inv := by
  unfold delayNone
  extract_lets _ _ s1 s2
  have hs1 : s1.inv := each_inv h fun _ _ h => incSat_inv h (by decide)
  have hs2 : s2.inv := each_inv hs1 fun _ _ h => cellSend_inv h
  exact ite_inv (transmit_inv hs1) (ite_inv (incSat_inv hs2 (by decide)) hs2)

theorem delayUnit_inv {p : Nat} {u : RxUnit} {line : List Byte} (h : s.inv) : (delayUnit s p u line).inv := by
  unfold delayUnit
  refine ite_inv (delayNone_inv h) ?_
  extract_lets s1
  have hs1 : s1.inv := foldl_inv h fun _ _ h => delayCell_inv h
  exact ite_inv hs1 (ite_inv (incSat_inv (with_dly_inv hs1) (by decide)) (with_dly_inv hs1))

theorem forwardUnit_inv {p : Nat} {u : RxUnit} {h : HeldUnit} (hs : s.inv) : (forwardUnit s p u h).inv := by
  refine ite_inv (ite_inv (incSat_inv hs (by decide)) (emit_inv hs)) ?_
  exact ite_inv hs (ite_inv (emitTx_inv hs) (ite_inv (emitTx_inv hs) (ite_inv (delayUnit_inv hs) (ite_inv hs (transmit_inv (regen_inv hs))))))

theorem fecCount_inv {p : Nat} {u : RxUnit} (h : s.inv) : (fecCount s p u).inv := by
  unfold fecCount
  dsimp only
  split
  · exact incWrap_inv h (by decide)
  · refine ite_inv ?_ (incWrap_inv h (by decide))
    refine incSat_inv ?_ (by decide)
    exact incSat_inv (incSat_inv (incSat_inv (wr_inv (incWrap_inv h (by decide)) (by decide)) (by decide)) (by decide)) (by decide)

theorem skpDue_inv {p pos : Nat} (h : s.inv) : (skpDue s p pos).inv := ite_inv (cancelAction_inv (clr_inv h (by decide))) h

theorem f5Burst_inv {p pos : Nat} (h : s.inv) : (f5Burst s p pos).inv := by
  unfold f5Burst
  refine ite_inv ?_ h
  split
  · exact injTake_inv h
  · exact incSat_inv h (by decide)

theorem countUnit_inv {p : Nat} {u : RxUnit} (h : s.inv) : (countUnit s p u).inv := by
  refine ite_inv h ?_
  refine pollWaits_inv ?_
  refine each_inv ?_ fun _ _ h => calLater_inv h
  refine ite_inv ?_ (each_inv h (fun _ _ h => incWrap_inv h (by decide)))
  exact f5Burst_inv (skpDue_inv (cancelUnspliced_inv (dlyDue_inv (modeDue_inv (each_inv h (fun _ _ h => incWrap_inv h (by decide)))))))

theorem tapUnit_inv {p : Nat} {u : RxUnit} (h : s.inv) : (tapUnit s p u).inv := by
  unfold tapUnit
  extract_lets _ _ _ _ s2
  have hs2 : s2.inv := foldl_inv (setHeld_inv (wr_inv (wr_inv (setItems_inv h) (by decide)) (by decide))) fun _ _ h => matchHit_inv h
  exact pressDecided_inv (ite_inv hs2 (pollWaits_inv hs2))

theorem eiosSeen_inv {p : Nat} {u : RxUnit} (h : s.inv) : (eiosSeen s p u).inv := by
  unfold eiosSeen
  split
  · exact ite_inv (rateSwitch_inv h) h
  · exact h

theorem unitUnstaged_inv {p : Nat} {h : HeldUnit} (hs : s.inv) : (unitUnstaged s p h).inv :=
  ite_inv (ite_inv (ite_inv hs (missUnit_inv hs)) (emitTx_inv (ite_inv hs (missUnit_inv hs)))) hs

theorem unitPass_inv {p : Nat} {u : RxUnit} (h : s.inv) : (unitPass s p u).inv := by
  refine ite_inv (pchkUnit_inv (ite_inv (countUnit_inv h) h)) ?_
  refine ite_inv (countUnit_inv (settle_inv h)) ?_
  refine eiosSeen_inv ?_
  refine forwardUnit_inv ?_
  refine unitUnstaged_inv ?_
  refine ite_inv ?_ ?_
  · exact tapUnit_inv (pchkUnit_inv (fecCount_inv (countUnit_inv (settle_inv h))))
  · exact applyCaps_inv (pchkUnit_inv (fecCount_inv (countUnit_inv (settle_inv h))))

theorem execUnitDecode_inv {p : Fin 512} {same : Bool} {u : RxUnit} (h : s.inv) : outInv (execUnitDecode p same u s) :=
  liveIn_inv h fun _ h => ite_inv h (each_inv (unitPass_inv h) (fun _ _ h => guardUnit_inv h))

end Sys2Proof.Machine
end

section
/-! The invariant under the operations of Machine/Operands: operands. -/
namespace Sys2Proof.Machine

variable {s : State}

theorem setWreg_inv {th i v : Nat} (h : s.inv) : (setWreg s th i v).inv := wr_inv h (by decide)

end Sys2Proof.Machine
end

section
/-! The invariant under the operations of Machine/Flags: flags. -/
namespace Sys2Proof.Machine

variable {s : State}

theorem setFlags_inv {th : Nat} {z c m e : Option Bool} (h : s.inv) : (setFlags s th z c m e).inv := wr_inv h (by decide)
theorem putZM_inv {c : SCtx} {v : Nat} {carry : Option Bool} (h : s.inv) : (putZM s c v carry).inv := setFlags_inv (setWreg_inv h)
theorem putCode_inv {c : SCtx} {code entry : Nat} {past : Bool} (h : s.inv) : (putCode s c code entry past).inv := setFlags_inv (setWreg_inv h)
theorem putOutcome_inv {th rd outcome : Nat} {num : Option Nat} {held : Bool} (h : s.inv) : (putOutcome s th rd outcome num held).inv := setFlags_inv (setWreg_inv h)

end Sys2Proof.Machine
end

section
/-! The invariant under the operations of Machine/Seq: the sequencers. -/
namespace Sys2Proof.Machine

variable {s : State}

theorem threadFault_inv {g t cause pc addr : Nat} (h : s.inv) : (threadFault s g t cause pc addr).inv :=
  raise_inv (wr_inv (wr_inv (wr_inv h (by decide)) (by decide)) (by decide))

theorem advance_inv {c : SCtx} {nx : Nat} (h : s.inv) : (advance s c nx).inv := ite_inv (threadFault_inv h) (wr_inv (wr_inv h (by decide)) (by decide))

theorem finishOp_inv {c : SCtx} {r : SRes} (h : r.1.inv) : (finishOp c r).inv := by
  unfold finishOp
  split
  · exact advance_inv h
  · exact advance_inv h
  · exact threadFault_inv h
  · exact wr_inv (wr_inv h (by decide)) (by decide)
  · exact wr_inv (wr_inv h (by decide)) (by decide)

theorem setDepth_inv {th n : Nat} (h : s.inv) : (setDepth s th n).inv := wrB_inv (wr_inv (wr_inv h (by decide)) (by decide)) (by decide)
theorem fetchParity_inv {g : Nat} (h : s.inv) : (fetchParity s g).2.inv := takeInj_inv h
theorem parityFault_inv {g t : Nat} (h : s.inv) : (parityFault s g t).inv := threadFault_inv h

theorem issueAs_inv {o : SOp} {sem : SCtx → State → SRes} {g t : Nat} {step : Bool} {adv : Nat} (hf : ∀ x0 s, s.inv → (sem x0 s).1.inv) (h : s.inv) :
    (issueAs o sem s g t step adv).inv := by
  unfold issueAs
  dsimp only
  split
  · exact ite_inv (ite_inv (parityFault_inv (fetchParity_inv h)) (finishOp_inv (hf _ _ (fetchParity_inv h)))) h
  · exact ite_inv (ite_inv (parityFault_inv (fetchParity_inv h)) (threadFault_inv (fetchParity_inv h))) h

theorem seqRowIn_inv {same : Bool} {o : SOp} {sem : SCtx → State → SRes} {g : Fin 16} {t : Fin 4} (hf : ∀ x0 s, s.inv → (sem x0 s).1.inv) (h : s.inv) : outInv
    (seqRowIn same o sem g t s) :=
  liveIn_inv h fun _ h => ite_inv (issueAs_inv (fun _ _ h => hf _ _ h) h) h

theorem seqRow_inv {o : SOp} {sem : SCtx → State → SRes} {g : Fin 16} {t : Fin 4} {adv : Nat} (hf : ∀ x0 s, s.inv → (sem x0 s).1.inv) (h : s.inv) : outInv
    (seqRow o sem g t adv s) :=
  live_inv h fun _ h => ite_inv (issueAs_inv (fun _ _ h => hf _ _ h) h) h

theorem semNop_inv {x : SCtx} (h : s.inv) : (semNop x s).1.inv := h
theorem semHalt_inv {x : SCtx} (h : s.inv) : (semHalt x s).1.inv := h
theorem semYield_inv {x : SCtx} (h : s.inv) : (semYield x s).1.inv := h
theorem semFence_inv {x : SCtx} (h : s.inv) : (semFence x s).1.inv := h
theorem arith_inv {c : SCtx} {r : Nat × Bool} (h : s.inv) : (arith c s r).1.inv := putZM_inv h
theorem semAdd_inv {c : SCtx} (h : s.inv) : (semAdd c s).1.inv := arith_inv h
theorem semSub_inv {c : SCtx} (h : s.inv) : (semSub c s).1.inv := arith_inv h
theorem semAnd_inv {c : SCtx} (h : s.inv) : (semAnd c s).1.inv := arith_inv h
theorem semOr_inv {c : SCtx} (h : s.inv) : (semOr c s).1.inv := arith_inv h
theorem semXor_inv {c : SCtx} (h : s.inv) : (semXor c s).1.inv := arith_inv h
theorem semShl_inv {c : SCtx} (h : s.inv) : (semShl c s).1.inv := arith_inv h
theorem semShr_inv {c : SCtx} (h : s.inv) : (semShr c s).1.inv := arith_inv h
theorem semMul_inv {c : SCtx} (h : s.inv) : (semMul c s).1.inv := arith_inv h
theorem semAddi_inv {c : SCtx} (h : s.inv) : (semAddi c s).1.inv := arith_inv h
theorem semAndi_inv {c : SCtx} (h : s.inv) : (semAndi c s).1.inv := arith_inv h
theorem semOri_inv {c : SCtx} (h : s.inv) : (semOri c s).1.inv := arith_inv h
theorem semLdi_inv {c : SCtx} (h : s.inv) : (semLdi c s).1.inv := setWreg_inv h
theorem semLdhi_inv {c : SCtx} (h : s.inv) : (semLdhi c s).1.inv := setWreg_inv h
theorem semLd_inv {c : SCtx} (h : s.inv) : (semLd c s).1.inv := ite_fst_inv h (putZM_inv h)
theorem semSt_inv {c : SCtx} (h : s.inv) : (semSt c s).1.inv := ite_fst_inv h (dataWrite_inv h)
theorem branchIf_inv {c : SCtx} {b : Bool} (h : s.inv) : (branchIf c s b).1.inv := h
theorem semBr_inv {c : SCtx} (h : s.inv) : (semBr c s).1.inv := branchIf_inv h
theorem semBeq_inv {c : SCtx} (h : s.inv) : (semBeq c s).1.inv := branchIf_inv h
theorem semBne_inv {c : SCtx} (h : s.inv) : (semBne c s).1.inv := branchIf_inv h
theorem semBlt_inv {c : SCtx} (h : s.inv) : (semBlt c s).1.inv := branchIf_inv h
theorem semBge_inv {c : SCtx} (h : s.inv) : (semBge c s).1.inv := branchIf_inv h
theorem semCall_inv {c : SCtx} (h : s.inv) : (semCall c s).1.inv := ite_fst_inv h (setDepth_inv (wr_inv h (by decide)))
theorem semRet_inv {c : SCtx} (h : s.inv) : (semRet c s).1.inv := ite_fst_inv h (setDepth_inv h)
theorem semLoop_inv {c : SCtx} (h : s.inv) : (semLoop c s).1.inv := ite_fst_inv h (setWreg_inv h)

theorem waitOp_inv {c : SCtx} {cond : WaitCond} {anyNum never : Bool} (h : s.inv) : (waitOp c s cond anyNum never).1.inv := by
  unfold waitOp
  split
  · exact putOutcome_inv h
  · exact ite_fst_inv (putOutcome_inv h) (setWait_inv h)

theorem semWpos_inv {c : SCtx} (h : s.inv) : (semWpos c s).1.inv := waitOp_inv h
theorem semWepoch_inv {c : SCtx} (h : s.inv) : (semWepoch c s).1.inv := waitOp_inv h
theorem semWmatch_inv {c : SCtx} (h : s.inv) : (semWmatch c s).1.inv := waitOp_inv h
theorem semTwait_inv {c : SCtx} (h : s.inv) : (semTwait c s).1.inv := waitOp_inv h
theorem semRpos_inv {c : SCtx} (h : s.inv) : (semRpos c s).1.inv := setWreg_inv h
theorem semRepoch_inv {c : SCtx} (h : s.inv) : (semRepoch c s).1.inv := setFlags_inv (setWreg_inv h)
theorem semWany_inv {c : SCtx} (h : s.inv) : (semWany c s).1.inv := ite_fst_inv h (ite_fst_inv h (waitOp_inv h))
theorem waitEnd_inv {g t : Nat} {w : Wait} {outcome : Nat} (h : s.inv) : (waitEnd s g t w outcome).inv := advance_inv (putOutcome_inv (setWait_inv h))

theorem execWaitComplete_inv {g : Fin 16} {t : Fin 4} (h : s.inv) : outInv (execWaitComplete g t s) := by
  unfold execWaitComplete
  refine live_inv h fun _ h => ?_
  split
  · exact ite_inv h (ite_inv (waitEnd_inv h) (ite_inv (waitEnd_inv h) h))
  · exact h

theorem execWaitLimit_inv {g : Fin 16} {t : Fin 4} (h : s.inv) : outInv (execWaitLimit g t s) := by
  unfold execWaitLimit
  refine live_inv h fun _ h => ?_
  split
  · exact ite_inv (waitEnd_inv h) h
  · exact h

theorem semMode_inv {c : SCtx} (h : s.inv) : (semMode c s).1.inv := putCode_inv (ite_inv (chgBegin_inv h) h)

theorem trainDo_inv {t op : Nat} (h : s.inv) : (trainDo s t op).inv := by
  unfold trainDo
  refine ite_inv (set_inv (ltEthTo_inv h) (by decide)) ?_
  split
  · exact set_inv (ltMove_inv h) (by decide)
  · exact set_inv (ltMove_inv h) (by decide)
  · exact ltMove_inv h
  · exact set_inv (ltMove_inv h) (by decide)

theorem trainOp_inv {c : SCtx} {op : Nat} (h : s.inv) : (trainOp c s op).1.inv := putCode_inv (ite_inv (trainDo_inv h) h)
theorem semTrainRecovery_inv {c : SCtx} (h : s.inv) : (semTrainRecovery c s).1.inv := trainOp_inv h
theorem semTrainHotReset_inv {c : SCtx} (h : s.inv) : (semTrainHotReset c s).1.inv := trainOp_inv h
theorem semTrainDisable_inv {c : SCtx} (h : s.inv) : (semTrainDisable c s).1.inv := trainOp_inv h
theorem semTrainRestart_inv {c : SCtx} (h : s.inv) : (semTrainRestart c s).1.inv := trainOp_inv h

theorem semRate_inv {c : SCtx} (h : s.inv) : (semRate c s).1.inv :=
  putCode_inv (ite_inv (ite_inv (ltMove_inv (set_inv (wr_inv h (by decide)) (by decide))) (set_inv (wr_inv h (by decide)) (by decide))) h)

theorem txOp_inv {c : SCtx} {r : Option State} (h : s.inv) (hr : optInv r) : (txOp c s r).1.inv := by
  unfold txOp
  refine ite_fst_inv (putCode_inv h) ?_
  cases r with
  | none => exact putCode_inv h
  | some t => exact putCode_inv (hr t rfl)

theorem semRatePpm_inv {c : SCtx} (h : s.inv) : (semRatePpm c s).1.inv := txOp_inv h (ppmSet_inv h)
theorem semEq_inv {c : SCtx} (h : s.inv) : (semEq c s).1.inv := txOp_inv h (firSet_inv h)
theorem semEqLvl_inv {c : SCtx} (h : s.inv) : (semEqLvl c s).1.inv := txOp_inv h (lvlSet_inv h)
theorem semArm_inv {c : SCtx} (h : s.inv) : (semArm c s).1.inv := ite_fst_inv h (putCode_inv (ite_inv (matchArm_inv h) h))
theorem semDisarm_inv {c : SCtx} (h : s.inv) : (semDisarm c s).1.inv := ite_fst_inv (putCode_inv h) (putCode_inv (matchDisarm_inv h))
theorem semRmatch_inv {c : SCtx} (h : s.inv) : (semRmatch c s).1.inv := setWreg_inv h
theorem capOp_inv {c : SCtx} {k : CapKind} (h : s.inv) : (capOp c s k).1.inv := putCode_inv (capAccept_inv h)
theorem semCapon_inv {c : SCtx} (h : s.inv) : (semCapon c s).1.inv := capOp_inv h
theorem semCapoff_inv {c : SCtx} (h : s.inv) : (semCapoff c s).1.inv := capOp_inv h
theorem semCapmark_inv {c : SCtx} (h : s.inv) : (semCapmark c s).1.inv := capOp_inv h
theorem semCapsel_inv {c : SCtx} (h : s.inv) : (semCapsel c s).1.inv := putCode_inv (ite_inv (strmAssign_inv h) h)
theorem semFilt_inv {c : SCtx} (h : s.inv) : (semFilt c s).1.inv := putCode_inv (ite_inv (wr_inv (wr_inv h (by decide)) (by decide)) h)

theorem takeEntry_inv {c : SCtx} {act : Nat} {fix : Bool} {m : Moment} {data : Nat} (h : s.inv) : (takeEntry c s act fix m data).2.inv := by
  unfold takeEntry
  split
  · exact injTake_inv h
  · exact h

theorem semInj_inv {c : SCtx} (h : s.inv) : (semInj c s).1.inv := putCode_inv (ite_snd_inv (takeEntry_inv h) h)
theorem semErrb_inv {c : SCtx} (h : s.inv) : (semErrb c s).1.inv := putCode_inv (ite_snd_inv (takeEntry_inv h) h)
theorem semDly_inv {c : SCtx} (h : s.inv) : (semDly c s).1.inv := putCode_inv (ite_inv (wr_inv (wr_inv (wr_inv h (by decide)) (by decide)) (by decide)) h)
theorem semSkpadj_inv {c : SCtx} (h : s.inv) : (semSkpadj c s).1.inv := putCode_inv (ite_inv (wr_inv (wr_inv (set_inv h (by decide)) (by decide)) (by decide)) h)
theorem semTset_inv {c : SCtx} (h : s.inv) : (semTset c s).1.inv := tlSet_inv h
theorem semTclr_inv {c : SCtx} (h : s.inv) : (semTclr c s).1.inv := tlClr_inv h
theorem semVsend_inv {c : SCtx} (h : s.inv) : (semVsend c s).1.inv := putCode_inv (vineRequest_inv h)
theorem semCntr_inv {c : SCtx} (h : s.inv) : (semCntr c s).1.inv := putZM_inv h
theorem semEvt_inv {c : SCtx} (h : s.inv) : (semEvt c s).1.inv := pathEvent_inv h
theorem semEvtG_inv {c : SCtx} (h : s.inv) : (semEvtG c s).1.inv := raise_inv h

theorem sem_inv {o : SOp} {c : SCtx} (h : s.inv) : (o.sem c s).1.inv := by
  cases o with
  | nop => exact semNop_inv (x := c) h
  | halt => exact semHalt_inv (x := c) h
  | yield => exact semYield_inv (x := c) h
  | fence => exact semFence_inv (x := c) h
  | add => exact semAdd_inv h
  | sub => exact semSub_inv h
  | and => exact semAnd_inv h
  | or => exact semOr_inv h
  | xor => exact semXor_inv h
  | shl => exact semShl_inv h
  | shr => exact semShr_inv h
  | mul => exact semMul_inv h
  | addi => exact semAddi_inv h
  | andi => exact semAndi_inv h
  | ori => exact semOri_inv h
  | ldi => exact semLdi_inv h
  | ldhi => exact semLdhi_inv h
  | ld => exact semLd_inv h
  | st => exact semSt_inv h
  | br => exact semBr_inv h
  | beq => exact semBeq_inv h
  | bne => exact semBne_inv h
  | blt => exact semBlt_inv h
  | bge => exact semBge_inv h
  | call => exact semCall_inv h
  | ret => exact semRet_inv h
  | loop => exact semLoop_inv h
  | wpos => exact semWpos_inv h
  | wepoch => exact semWepoch_inv h
  | rpos => exact semRpos_inv h
  | repoch => exact semRepoch_inv h
  | wany => exact semWany_inv h
  | mode => exact semMode_inv h
  | trainRecovery => exact semTrainRecovery_inv h
  | trainHotReset => exact semTrainHotReset_inv h
  | trainDisable => exact semTrainDisable_inv h
  | trainRestart => exact semTrainRestart_inv h
  | rate => exact semRate_inv h
  | ratePpm => exact semRatePpm_inv h
  | eq => exact semEq_inv h
  | eqLvl => exact semEqLvl_inv h
  | arm => exact semArm_inv h
  | disarm => exact semDisarm_inv h
  | wmatch => exact semWmatch_inv h
  | rmatch => exact semRmatch_inv h
  | capon => exact semCapon_inv h
  | capoff => exact semCapoff_inv h
  | capmark => exact semCapmark_inv h
  | capsel => exact semCapsel_inv h
  | filt => exact semFilt_inv h
  | inj => exact semInj_inv h
  | errb => exact semErrb_inv h
  | dly => exact semDly_inv h
  | skpadj => exact semSkpadj_inv h
  | tset => exact semTset_inv h
  | tclr => exact semTclr_inv h
  | twait => exact semTwait_inv h
  | vsend => exact semVsend_inv h
  | cntr => exact semCntr_inv h
  | evt => exact semEvt_inv h
  | evtG => exact semEvtG_inv h

theorem execNop_inv {g : Fin 16} {t : Fin 4} (h : s.inv) : outInv (execNop g t s) := seqRow_inv (fun c _ h => semNop_inv (x := c) h) h
theorem execHalt_inv {g : Fin 16} {t : Fin 4} (h : s.inv) : outInv (execHalt g t s) := seqRow_inv (fun c _ h => semHalt_inv (x := c) h) h
theorem execYield_inv {g : Fin 16} {t : Fin 4} (h : s.inv) : outInv (execYield g t s) := seqRow_inv (fun c _ h => semYield_inv (x := c) h) h
theorem execFence_inv {g : Fin 16} {t : Fin 4} (h : s.inv) : outInv (execFence g t s) := seqRow_inv (fun c _ h => semFence_inv (x := c) h) h
theorem execAdd_inv {g : Fin 16} {t : Fin 4} (h : s.inv) : outInv (execAdd g t s) := seqRow_inv (fun _ _ h => semAdd_inv h) h
theorem execSub_inv {g : Fin 16} {t : Fin 4} (h : s.inv) : outInv (execSub g t s) := seqRow_inv (fun _ _ h => semSub_inv h) h
theorem execAnd_inv {g : Fin 16} {t : Fin 4} (h : s.inv) : outInv (execAnd g t s) := seqRow_inv (fun _ _ h => semAnd_inv h) h
theorem execOr_inv {g : Fin 16} {t : Fin 4} (h : s.inv) : outInv (execOr g t s) := seqRow_inv (fun _ _ h => semOr_inv h) h
theorem execXor_inv {g : Fin 16} {t : Fin 4} (h : s.inv) : outInv (execXor g t s) := seqRow_inv (fun _ _ h => semXor_inv h) h
theorem execShl_inv {g : Fin 16} {t : Fin 4} (h : s.inv) : outInv (execShl g t s) := seqRow_inv (fun _ _ h => semShl_inv h) h
theorem execShr_inv {g : Fin 16} {t : Fin 4} (h : s.inv) : outInv (execShr g t s) := seqRow_inv (fun _ _ h => semShr_inv h) h
theorem execMul_inv {g : Fin 16} {t : Fin 4} (h : s.inv) : outInv (execMul g t s) := seqRow_inv (fun _ _ h => semMul_inv h) h
theorem execAddi_inv {g : Fin 16} {t : Fin 4} (h : s.inv) : outInv (execAddi g t s) := seqRow_inv (fun _ _ h => semAddi_inv h) h
theorem execAndi_inv {g : Fin 16} {t : Fin 4} (h : s.inv) : outInv (execAndi g t s) := seqRow_inv (fun _ _ h => semAndi_inv h) h
theorem execOri_inv {g : Fin 16} {t : Fin 4} (h : s.inv) : outInv (execOri g t s) := seqRow_inv (fun _ _ h => semOri_inv h) h
theorem execLdi_inv {g : Fin 16} {t : Fin 4} (h : s.inv) : outInv (execLdi g t s) := seqRow_inv (fun _ _ h => semLdi_inv h) h
theorem execLdhi_inv {g : Fin 16} {t : Fin 4} (h : s.inv) : outInv (execLdhi g t s) := seqRow_inv (fun _ _ h => semLdhi_inv h) h
theorem execLd_inv {g : Fin 16} {t : Fin 4} (h : s.inv) : outInv (execLd g t s) := seqRow_inv (fun _ _ h => semLd_inv h) h
theorem execSt_inv {g : Fin 16} {t : Fin 4} (h : s.inv) : outInv (execSt g t s) := seqRow_inv (fun _ _ h => semSt_inv h) h
theorem execBr_inv {g : Fin 16} {t : Fin 4} (h : s.inv) : outInv (execBr g t s) := seqRow_inv (fun _ _ h => semBr_inv h) h
theorem execBeq_inv {g : Fin 16} {t : Fin 4} (h : s.inv) : outInv (execBeq g t s) := seqRow_inv (fun _ _ h => semBeq_inv h) h
theorem execBne_inv {g : Fin 16} {t : Fin 4} (h : s.inv) : outInv (execBne g t s) := seqRow_inv (fun _ _ h => semBne_inv h) h
theorem execBlt_inv {g : Fin 16} {t : Fin 4} (h : s.inv) : outInv (execBlt g t s) := seqRow_inv (fun _ _ h => semBlt_inv h) h
theorem execBge_inv {g : Fin 16} {t : Fin 4} (h : s.inv) : outInv (execBge g t s) := seqRow_inv (fun _ _ h => semBge_inv h) h
theorem execCall_inv {g : Fin 16} {t : Fin 4} (h : s.inv) : outInv (execCall g t s) := seqRow_inv (fun _ _ h => semCall_inv h) h
theorem execRet_inv {g : Fin 16} {t : Fin 4} (h : s.inv) : outInv (execRet g t s) := seqRow_inv (fun _ _ h => semRet_inv h) h
theorem execLoop_inv {g : Fin 16} {t : Fin 4} (h : s.inv) : outInv (execLoop g t s) := seqRow_inv (fun _ _ h => semLoop_inv h) h
theorem execWpos_inv {g : Fin 16} {t : Fin 4} (h : s.inv) : outInv (execWpos g t s) := seqRow_inv (fun _ _ h => semWpos_inv h) h
theorem execWepoch_inv {g : Fin 16} {t : Fin 4} (h : s.inv) : outInv (execWepoch g t s) := seqRow_inv (fun _ _ h => semWepoch_inv h) h
theorem execRpos_inv {g : Fin 16} {t : Fin 4} (h : s.inv) : outInv (execRpos g t s) := seqRow_inv (fun _ _ h => semRpos_inv h) h
theorem execRepoch_inv {g : Fin 16} {t : Fin 4} (h : s.inv) : outInv (execRepoch g t s) := seqRow_inv (fun _ _ h => semRepoch_inv h) h
theorem execWany_inv {g : Fin 16} {t : Fin 4} (h : s.inv) : outInv (execWany g t s) := seqRow_inv (fun _ _ h => semWany_inv h) h
theorem execWmatch_inv {g : Fin 16} {t : Fin 4} (h : s.inv) : outInv (execWmatch g t s) := seqRow_inv (fun _ _ h => semWmatch_inv h) h
theorem execTwait_inv {g : Fin 16} {t : Fin 4} (h : s.inv) : outInv (execTwait g t s) := seqRow_inv (fun _ _ h => semTwait_inv h) h
theorem execMode_inv {g : Fin 16} {t : Fin 4} {adv : Nat} (h : s.inv) : outInv (execMode g t adv s) := seqRow_inv (fun _ _ h => semMode_inv h) h
theorem execTrainRecovery_inv {g : Fin 16} {t : Fin 4} (h : s.inv) : outInv (execTrainRecovery g t s) := seqRow_inv (fun _ _ h => semTrainRecovery_inv h) h
theorem execTrainHotReset_inv {g : Fin 16} {t : Fin 4} (h : s.inv) : outInv (execTrainHotReset g t s) := seqRow_inv (fun _ _ h => semTrainHotReset_inv h) h
theorem execTrainDisable_inv {g : Fin 16} {t : Fin 4} (h : s.inv) : outInv (execTrainDisable g t s) := seqRow_inv (fun _ _ h => semTrainDisable_inv h) h
theorem execTrainRestart_inv {g : Fin 16} {t : Fin 4} (h : s.inv) : outInv (execTrainRestart g t s) := seqRow_inv (fun _ _ h => semTrainRestart_inv h) h
theorem execRate_inv {g : Fin 16} {t : Fin 4} (h : s.inv) : outInv (execRate g t s) := seqRow_inv (fun _ _ h => semRate_inv h) h
theorem execRatePpm_inv {g : Fin 16} {t : Fin 4} (h : s.inv) : outInv (execRatePpm g t s) := seqRow_inv (fun _ _ h => semRatePpm_inv h) h
theorem execEq_inv {g : Fin 16} {t : Fin 4} (h : s.inv) : outInv (execEq g t s) := seqRow_inv (fun _ _ h => semEq_inv h) h
theorem execEqLvl_inv {g : Fin 16} {t : Fin 4} (h : s.inv) : outInv (execEqLvl g t s) := seqRow_inv (fun _ _ h => semEqLvl_inv h) h
theorem execArm_inv {g : Fin 16} {t : Fin 4} (h : s.inv) : outInv (execArm g t s) := seqRow_inv (fun _ _ h => semArm_inv h) h
theorem execDisarm_inv {g : Fin 16} {t : Fin 4} (h : s.inv) : outInv (execDisarm g t s) := seqRow_inv (fun _ _ h => semDisarm_inv h) h
theorem execRmatch_inv {g : Fin 16} {t : Fin 4} (h : s.inv) : outInv (execRmatch g t s) := seqRow_inv (fun _ _ h => semRmatch_inv h) h
theorem execCapon_inv {g : Fin 16} {t : Fin 4} {adv : Nat} (h : s.inv) : outInv (execCapon g t adv s) := seqRow_inv (fun _ _ h => semCapon_inv h) h
theorem execCapoff_inv {g : Fin 16} {t : Fin 4} {adv : Nat} (h : s.inv) : outInv (execCapoff g t adv s) := seqRow_inv (fun _ _ h => semCapoff_inv h) h
theorem execCapmark_inv {g : Fin 16} {t : Fin 4} {adv : Nat} (h : s.inv) : outInv (execCapmark g t adv s) := seqRow_inv (fun _ _ h => semCapmark_inv h) h
theorem execCapsel_inv {g : Fin 16} {t : Fin 4} (h : s.inv) : outInv (execCapsel g t s) := seqRow_inv (fun _ _ h => semCapsel_inv h) h
theorem execFilt_inv {g : Fin 16} {t : Fin 4} (h : s.inv) : outInv (execFilt g t s) := seqRow_inv (fun _ _ h => semFilt_inv h) h
theorem execInj_inv {g : Fin 16} {t : Fin 4} {adv : Nat} (h : s.inv) : outInv (execInj g t adv s) := seqRow_inv (fun _ _ h => semInj_inv h) h
theorem execErrb_inv {g : Fin 16} {t : Fin 4} {adv : Nat} (h : s.inv) : outInv (execErrb g t adv s) := seqRow_inv (fun _ _ h => semErrb_inv h) h
theorem execDly_inv {g : Fin 16} {t : Fin 4} {adv : Nat} (h : s.inv) : outInv (execDly g t adv s) := seqRow_inv (fun _ _ h => semDly_inv h) h
theorem execSkpadj_inv {g : Fin 16} {t : Fin 4} {adv : Nat} (h : s.inv) : outInv (execSkpadj g t adv s) := seqRow_inv (fun _ _ h => semSkpadj_inv h) h
theorem execTset_inv {g : Fin 16} {t : Fin 4} {same : Bool} (h : s.inv) : outInv (execTset g t same s) := seqRowIn_inv (fun _ _ h => semTset_inv h) h
theorem execTclr_inv {g : Fin 16} {t : Fin 4} {same : Bool} (h : s.inv) : outInv (execTclr g t same s) := seqRowIn_inv (fun _ _ h => semTclr_inv h) h
theorem execVsend_inv {g : Fin 16} {t : Fin 4} (h : s.inv) : outInv (execVsend g t s) := seqRow_inv (fun _ _ h => semVsend_inv h) h
theorem execCntr_inv {g : Fin 16} {t : Fin 4} (h : s.inv) : outInv (execCntr g t s) := seqRow_inv (fun _ _ h => semCntr_inv h) h
theorem execEvt_inv {g : Fin 16} {t : Fin 4} (h : s.inv) : outInv (execEvt g t s) := seqRow_inv (fun _ _ h => semEvt_inv h) h
theorem execEvtG_inv {g : Fin 16} {t : Fin 4} (h : s.inv) : outInv (execEvtG g t s) := seqRow_inv (fun _ _ h => semEvtG_inv h) h

theorem execReservedOpcode_inv {g : Fin 16} {t : Fin 4} {parity : Bool} (h : s.inv) : outInv (execReservedOpcode g t parity s) := by
  refine live_inv h fun _ h => ?_
  refine ite_inv h ?_
  exact ite_inv (threadFault_inv (fetchParity_inv h)) (ite_inv (ite_inv (parityFault_inv (fetchParity_inv h)) (threadFault_inv (fetchParity_inv h))) h)

theorem stepThread_inv {g t adv : Nat} (h : s.inv) : (stepThread s g t adv).inv := by
  unfold stepThread
  split
  · exact issueAs_inv (fun _ _ h => sem_inv h) h
  · exact ite_inv (parityFault_inv (fetchParity_inv h)) (threadFault_inv (fetchParity_inv h))

theorem goThread_inv {th : Nat} (h : s.inv) : (goThread s th).inv := ite_inv (setDepth_inv (clr_inv (wr_inv (wr_inv h (by decide)) (by decide)) (by decide))) h
theorem stopThread_inv {th : Nat} (h : s.inv) : (stopThread s th).inv := ite_inv h (wr_inv (setWait_inv h) (by decide))

theorem seqCtlSet_inv {g v adv : Nat} (h : s.inv) : (seqCtlSet s g v adv).inv := by
  refine each_inv ?_ fun _ _ h => ite_inv (stopThread_inv h) h
  refine ite_inv (set_inv (w1c_inv h (by decide)) (by decide)) ?_
  exact each_inv (w1c_inv h (by decide)) fun _ _ h => ite_inv (stepThread_inv (ite_inv (goThread_inv h) h)) (ite_inv (goThread_inv h) h)

theorem execSeqGo_inv {r : Route} {g : Fin 16} {threads : BitVec 4} (h : s.inv) : outInv (execSeqGo r g threads s) :=
  live_inv h fun _ h => gate_inv (fun _ h => seqCtlSet_inv h) h

theorem execSeqStop_inv {r : Route} {g : Fin 16} {threads : BitVec 4} (h : s.inv) : outInv (execSeqStop r g threads s) :=
  live_inv h fun _ h => gate_inv (fun _ h => seqCtlSet_inv h) h

theorem execSeqStep_inv {r : Route} {g : Fin 16} {threads : BitVec 4} {adv : Nat} (h : s.inv) : outInv (execSeqStep r g threads adv s) :=
  live_inv h fun _ h => gate_inv (fun _ h => seqCtlSet_inv h) h

theorem lowHalf_inv {r : Route} {g key v : Nat} (h : s.inv) : (lowHalf s r g key v).inv := with_halfStage_inv h
theorem highHalf_inv {r : Route} {g key old v : Nat} (h : s.inv) : (highHalf s r g key old v).2.inv := with_halfStage_inv h

theorem regHalf_inv {r : Route} {g th i : Nat} {hi : Bool} {v : Nat} (h : s.inv) : (regHalf s r g th i hi v).inv :=
  ite_inv (set_inv h (by decide)) (ite_inv (setWreg_inv (highHalf_inv h)) (lowHalf_inv h))

theorem execSeqRegsWrite_inv {r : Route} {g : Fin 16} {t : Fin 4} {i : Fin 32} {hi : Bool} {v : DW} (h : s.inv) : outInv (execSeqRegsWrite r g t i hi v s) :=
  live_inv h fun _ h => gate_inv (fun _ h => regHalf_inv h) h

theorem memHalf_inv {r : Route} {g : Nat} {data : Bool} {w : Nat} {hi : Bool} {v : Nat} (h : s.inv) : (memHalf s r g data w hi v).inv :=
  ite_inv h (ite_inv (ite_inv (dataWrite_inv (highHalf_inv h)) (setI_inv (highHalf_inv h))) (lowHalf_inv h))

theorem execMemLowHalfWrite_inv {r : Route} {g : Fin 16} {data : Bool} {w : Fin 16384} {v : DW} (h : s.inv) : outInv (execMemLowHalfWrite r g data w v s) :=
  live_inv h fun _ h => gate_inv (fun _ h => memHalf_inv h) h

theorem execMemHighHalfWrite_inv {r : Route} {g : Fin 16} {data : Bool} {w : Fin 16384} {v : DW} (h : s.inv) : outInv (execMemHighHalfWrite r g data w v s) :=
  live_inv h fun _ h => gate_inv (fun _ h => memHalf_inv h) h

theorem execGroveClearDone_inv {g : Fin 16} (h : s.inv) : outInv (execGroveClearDone g s) := live_inv h fun _ h => clr_inv h (by decide)

end Sys2Proof.Machine
end

section
/-! The invariant under the operations of Machine/Resets: resets. -/
namespace Sys2Proof.Machine

variable {s t : State}

theorem f5Start_inv {g : Nat} (h : s.inv) : (f5Start s g).inv := each_inv (wrBit_inv h (by decide)) fun _ _ h => wr_inv h (by decide)
theorem groveFields_inv {g : Nat} (h : s.inv) : (groveFields s g).inv := drop_inv h

theorem groveStores_inv {g : Nat} (h : s.inv) : (groveStores s g).inv := by
  obtain ⟨hd, hr, hm, ht⟩ := h
  obtain ⟨hi, hdm, hn, hw⟩ := memWf_iff.mp hm
  exact ⟨hd, hr, memWf_iff.mpr ⟨storeWf_filter _ hi, storeWf_filter _ hdm, hn, hw⟩, ht⟩

theorem strmForget_inv {p : Nat} (h : s.inv) : (strmForget s p).inv := setStrm_inv h

theorem groveReset_inv {g : Nat} (h : s.inv) : (groveReset s g).inv := by
  unfold groveReset
  extract_lets _ _ _ _ _ _ _ s7
  have hs7 : s7.inv := by
    refine each_inv ?_ fun _ _ h => refreshPort_inv h
    refine set_inv ?_ (by decide)
    refine each_inv ?_ fun _ _ h => wr_inv h (by decide)
    refine each_inv ?_ fun _ _ h => incWrap_inv h (by decide)
    exact groveStores_inv (groveFields_inv (each_inv (each_inv h (fun _ _ h => strmForget_inv (capOff_inv h))) (fun _ _ h => calDrop_inv (calDrop_inv h))))
  exact ite_inv (f5Start_inv hs7) hs7

theorem execGroveReset_inv {g : Fin 16} (h : s.inv) : outInv (execGroveReset g s) := live_inv h fun _ h => ite_inv (groveReset_inv h) h
theorem loadDrop_inv (h : s.inv) : (loadDrop s).inv := clr_inv (clr_inv (clr_inv (clr_inv (with_fwLoad_inv h) (by decide)) (by decide)) (by decide)) (by decide)

theorem loadAbort_inv (h : s.inv) : (loadAbort s).inv := by
  unfold loadAbort
  split
  · exact h
  · exact ite_inv (setDev_inv (loadDrop_inv h) (by decide)) (loadDrop_inv h)

theorem portReset_inv (h : s.inv) : (portReset s).inv := by
  unfold portReset
  extract_lets s1 up s2 s3 s4
  have hs1 : s1.inv := by
    dsimp only [s1]
    split
    · exact loadAbort_inv h
    · exact h
  have hs3 : s3.inv := clr_inv (wr_inv (drop_inv hs1) (by decide)) (by decide)
  have hs4 : s4.inv := ite_inv (wr_inv hs3 (by decide)) hs3
  exact inv_of_stores (win_filter_inv hs4) rfl

theorem forceDark_inv {p : Nat} (h : s.inv) : (forceDark s p).inv := by
  unfold forceDark
  refine ite_inv h ?_
  extract_lets _ _ _ _ s1 _ _ s4
  have hs1 : s1.inv := by
    dsimp only [s1]
    split
    · exact cancelAction_inv h
    · exact cancelAction_inv h
    · exact h
  have hs4 : s4.inv := each_inv (setItems_inv (setHeld_inv (clr_inv (clr_inv (setChg_inv hs1) pendFld_ne) (by decide)))) fun _ _ h => setStrikes_inv h
  refine refreshLink_inv ?_
  refine pairingChanged_inv ?_
  exact rxOff_inv (cancelAll_inv (each_inv (wr_inv (setRpl_inv (ite_inv (dlyDrop_inv hs4) hs4)) modeFld_ne) (fun _ _ h => clr_inv h (by decide))))

theorem towerUp_inv {t : Nat} (h : s.inv) : (towerUp s t).inv := ite_inv (each_inv (wr_inv (repApply_inv h) (by decide)) (fun _ _ h => wr_inv h (by decide))) h
theorem towersUpOf_inv {ts : List Nat} (h : s.inv) : (towersUpOf s ts).inv := ite_inv (repTidy_inv (each_inv (repCheck_inv h) (fun _ _ h => towerUp_inv h))) h
theorem towersUp_inv (h : s.inv) : (towersUp s).inv := towersUpOf_inv h

theorem towersDown_inv (h : s.inv) : (towersDown s).inv :=
  each_inv h fun _ _ h => ite_inv (each_inv (wr_inv h (by decide)) (fun _ _ h => ite_inv h (wr_inv h (by decide)))) h

theorem domsOn_inv {ds : List Nat} (h : s.inv) : (domsOn s ds).inv := each_inv h fun _ _ h => wrBit_inv h (by decide)

theorem standbyLeave_inv (h : s.inv) : (standbyLeave s).inv := by
  refine each_inv ?_ fun _ _ h => ite_inv (f5Start_inv h) h
  exact each_inv (calRestoreAll_inv (set_inv (clr_inv h (by decide)) (by decide))) fun _ _ h => each_inv h fun _ _ h => spareRecount_inv h

theorem enterHold_inv (h : s.inv) : (enterHold s).inv := by
  refine ite_inv h ?_
  refine towersUp_inv ?_
  refine each_inv ?_ fun _ _ h => forceDark_inv h
  refine with_staged_inv ?_
  refine each_inv ?_ fun _ _ h => setStrm_inv (clr_inv h (by decide))
  refine setDev_inv ?_ (by decide)
  exact ite_inv (wrB_inv (standbyLeave_inv (domsOn_inv (ite_inv (loadDrop_inv h) h))) (by decide)) (domsOn_inv (ite_inv (loadDrop_inv h) h))

theorem fwShow_inv {up : Bool} (h : s.inv) : (fwShow s up).inv := wr_inv (wr_inv (wrB_inv h (by decide)) (by decide)) (by decide)

theorem coreStop_inv (h : s.inv) : (coreStop s).inv :=
  inv_of_stores (regs_filter_inv (p := fun k => k.1 != .X_SPDM && k.1 != .X_MCTP_N) (fwShow_inv (up := false) h)) rfl

theorem switchBack_inv (h : s.inv) : (switchBack s).inv := by
  unfold switchBack
  split
  · exact h
  · exact wr_inv (with_hot_inv (wr_inv (wr_inv (ite_inv (wrBit_inv h (by decide)) h) (by decide)) (by decide))) (by decide)
  · exact wr_inv (with_hot_inv (wr_inv (wr_inv (ite_inv (wrBit_inv h (by decide)) h) (by decide)) (by decide))) (by decide)

theorem mgmtBegin_inv {byCmd : Bool} (h : s.inv) : (mgmtBegin s byCmd).inv := by
  unfold mgmtBegin
  refine ite_inv ?_ ?_
  · exact switchBack_inv (coreStop_inv (wrB_inv (incSat_inv h (by decide)) (by decide)))
  · refine wr_inv ?_ (by decide)
    refine coreStop_inv ?_
    refine drop_inv ?_
    split
    · exact loadAbort_inv (with_hot_inv (wrB_inv (incSat_inv h (by decide)) (by decide)))
    · exact with_hot_inv (wrB_inv (incSat_inv h (by decide)) (by decide))

theorem preserveFlush_inv {t : Nat} (h : s.inv) : (preserveFlush s t).inv := each_inv h fun _ _ h => ite_inv (encFlush_inv h) h

theorem bare_inv {f : Fld → Bool} (h : s.inv) : (s.bare f).inv := by
  obtain ⟨hd, hr, -⟩ := inv_iff.mp (regs_filter_inv (p := fun k => f k.1) h)
  obtain ⟨-, -, hm, -⟩ := h
  obtain ⟨-, -, hn, -⟩ := memWf_iff.mp hm
  exact inv_iff.mpr ⟨hd, hr, memWf_iff.mpr ⟨rfl, rfl, hn, rfl⟩, rfl⟩

theorem twPrimary_inv (h : s.inv) : (twPrimary s).inv := wr_inv h (by decide)
theorem rideShow_inv {t : Nat} (h : s.inv) : (rideShow s t).inv := each_inv (set_inv (wr_inv h (by decide)) (by split <;> decide)) fun _ _ h => wr_inv h (by decide)

theorem advCut_inv (h : s.inv) : (advCut s).inv := by
  unfold advCut
  split
  · exact ite_inv (wr_inv (freshNat_inv h) (by decide)) h
  · exact h

/-- Towers that ride a reset keep their words, and the losses that give the defaults of the others (R408). -/
theorem rides_inv {ride : List Nat} {reps : List RepEnt} (h : s.inv) (ht : t.inv) :
    State.inv { t with
      tower := s.tower.filter fun e => ride.contains (e.1 / 0x800000 / 1536)
      lost := s.lost.filter fun e => ride.contains (e.1 / 1536)
      reps := reps } := by
  obtain ⟨hd, hr, hm, -⟩ := ht
  have hw := tower_filter_inv (p := fun e => ride.contains (e.1 / 0x800000 / 1536)) (l := s.lost.filter fun e => ride.contains (e.1 / 1536))
      (n := 0) h fun e he => by
    rw [nget, nget, storeGet_filter_or s.lost (fun k => ride.contains (k / 1536)), if_pos he]
  exact ⟨hd, hr, hm, hw.2.2.2⟩

theorem chipLike_inv {last : Nat} (h : s.inv) : (chipLike s last).inv := by
  unfold chipLike
  extract_lets s1 ride s2 b b'
  have hs2 : s2.inv := foldl_inv (advCut_inv h) fun _ _ h => preserveFlush_inv (softRepairEnd_inv h)
  exact twPrimary_inv (wr_inv (foldl_inv (rides_inv hs2 (bare_inv hs2)) fun _ _ h => rideShow_inv h) (by decide))

theorem porReset_inv {addr rdly : Nat} (h : s.inv) : (porReset s addr rdly).inv := twPrimary_inv (wr_inv (wr_inv (bare_inv (advCut_inv h)) (by decide)) (by decide))
theorem execPor_inv {addr rdly : Fin 8} (h : s.inv) : outInv (execPor addr rdly s) := next_inv (porReset_inv (start_inv h))
theorem execPinReset_inv (h : s.inv) : outInv (execPinReset s) := live_inv h fun _ h => set_inv (chipLike_inv h) (by decide)
theorem execResetNRelease_inv (h : s.inv) : outInv (execResetNRelease s) := next_inv (clr_inv (start_inv h) (by decide))

theorem chipReaction_inv {src kind : Nat} {esc faultn : Bool} (h : s.inv) : (chipReaction s src kind esc faultn).inv := by
  unfold chipReaction
  extract_lets s1 _ s3
  have hs1 : s1.inv := ite_inv (set_inv h (by decide)) h
  have hs3 : s3.inv := wrB_inv (set_inv (wr_inv (wr_inv hs1 (by decide)) (by decide)) (by decide)) (by decide)
  exact ite_inv hs1 (ite_inv (enterHold_inv hs3) (chipLike_inv hs3))

theorem execChipReset_inv {r : Route} (h : s.inv) : outInv (execChipReset r s) := live_inv h fun _ h => gate_inv (fun _ h => chipLike_inv h) h

theorem coreHashed_inv {hashOk : Bool} (h : s.inv) : (coreHashed s hashOk).inv :=
  ite_inv (wr_inv h (by decide)) (chipReaction_inv (raise_inv (wr_inv (freshNat_inv h) (by decide))))

theorem execMgmtReset_inv {hashOk : Bool} (h : s.inv) : outInv (execMgmtReset hashOk s) := live_inv h fun _ h => ite_inv (coreHashed_inv h) h
theorem execWatchdogExpire_inv (h : s.inv) : outInv (execWatchdogExpire s) := live_inv h fun _ h => ite_inv (mgmtBegin_inv (raise_inv (freshNat_inv h))) h
theorem execKick_inv {r : Route} (h : s.inv) : outInv (execKick r s) := live_inv h fun _ h => gate_inv (fun _ h => h) h

theorem rstCmd_inv {v : Nat} (h : s.inv) : (rstCmd s v).inv := by
  refine ite_inv h ?_
  refine ite_inv ?_ ?_
  · exact ite_inv (wr_inv h (by decide)) (mgmtBegin_inv (wr_inv h (by decide)))
  · exact ite_inv (ite_inv (wr_inv h (by decide)) (ite_inv (wr_inv h (by decide)) (groveReset_inv (wr_inv h (by decide))))) h

theorem execRstMgmt_inv {r : Route} (h : s.inv) : outInv (execRstMgmt r s) := live_inv h fun _ h => gate_inv (fun _ h => rstCmd_inv h) h
theorem execRstGrove_inv {r : Route} {g : Fin 16} (h : s.inv) : outInv (execRstGrove r g s) := live_inv h fun _ h => gate_inv (fun _ h => rstCmd_inv h) h

theorem execPortReset_inv {kind : Fin 4} (h : s.inv) : outInv (execPortReset kind s) := by
  unfold execPortReset
  refine live_inv h fun _ h => ?_
  extract_lets _ _ s2 s3
  have hs2 : s2.inv := ite_inv (wr_inv (portReset_inv h) (by decide)) (portReset_inv h)
  have hs3 : s3.inv := ite_inv (clr_inv hs2 (by decide)) hs2
  exact ite_inv (raise_inv hs3) hs3

theorem execPerstNRelease_inv (h : s.inv) : outInv (execPerstNRelease s) := live_inv h fun _ h => set_inv h (by decide)

theorem cfgStore_inv {c : PortCfg} (h : s.inv) : (cfgStore s c).inv :=
  wr_inv (wr_inv (wr_inv (wr_inv (wrB_inv (wrB_inv (wrB_inv h (by decide)) (by decide)) (by decide)) (by decide)) (by decide)) (by decide)) (by decide)

theorem msixSend_inv {v : Nat} (h : s.inv) : (msixSend s v).inv := ite_inv h (emit_inv (setWin_inv h))

theorem execBusMasterChange_inv {bme d3hot : Bool} {cfg : PortCfg} (h : s.inv) : outInv (execBusMasterChange bme d3hot cfg s) :=
  live_inv h fun _ h => ite_inv (each_inv (cfgStore_inv (wrB_inv (wrB_inv h (by decide)) (by decide))) (fun _ _ h => msixSend_inv h)) h

end Sys2Proof.Machine
end

section
/-! The invariant under the operations of Machine/Clock: clocks. -/
namespace Sys2Proof.Machine

variable {s : State}

theorem execRefPresent_inv {ref : Fin 5} (h : s.inv) : outInv (execRefPresent ref s) := live_inv h fun _ h => wrBit_inv h (by decide)
theorem brefChoose_inv (h : s.inv) : (brefChoose s).inv := set_inv (wrB_inv h (by decide)) (by decide)

theorem execRefWaitEnd_inv {ref : Fin 5} (h : s.inv) : outInv (execRefWaitEnd ref s) := by
  unfold execRefWaitEnd
  refine live_inv h fun _ h => ?_
  refine ite_inv ?_ h
  extract_lets s1 s2
  have hs1 : s1.inv := wrBit_inv h (by decide)
  have hs2 : s2.inv := ite_inv (wrBit_inv hs1 (by decide)) hs1
  exact ite_inv (brefChoose_inv hs2) hs2

theorem switchBegin_inv {src : Nat} (h : s.inv) : (switchBegin s src).inv := set_inv (wr_inv h (by decide)) (by decide)

theorem execCpllLock_inv (h : s.inv) : outInv (execCpllLock s) :=
  live_inv h fun _ h => ite_inv (switchBegin_inv (clr_inv (set_inv h (by decide)) (by decide))) (set_inv h (by decide))

theorem execAonclkReady_inv (h : s.inv) : outInv (execAonclkReady s) := live_inv h fun _ h => set_inv h (by decide)

theorem execPllLock_inv {pll : Pll} (h : s.inv) : outInv (execPllLock pll s) := by
  unfold execPllLock
  refine live_inv h fun _ h => ?_
  split
  · exact ite_inv (wrBit_inv h (by decide)) h
  · exact ite_inv (wrBit_inv h (by decide)) h
  · exact ite_inv (set_inv h (by decide)) h
  · exact set_inv h (by decide)

theorem markFailed_inv {ds : List Nat} (h : s.inv) : (markFailed s ds).inv := each_inv h fun _ _ h => wrBit_inv (wrBit_inv h (by decide)) (by decide)

theorem stopLoads_inv {ts : List Nat} (h : s.inv) : (stopLoads s ts).inv :=
  each_inv h fun _ _ h => each_inv h fun _ _ h => emit_inv (refreshPath_inv (set_inv h (by decide)))

theorem towerForced_inv {t : Nat} (h : s.inv) : (towerForced s t).inv := ite_inv (each_inv (wr_inv h (by decide)) (fun _ _ h => ite_inv h (wr_inv h (by decide)))) h

theorem vineIdle_inv (h : s.inv) : (vineIdle s).inv :=
  ite_inv (each_inv h (fun _ _ h => wr_inv h (by decide))) (epochLose_inv (each_inv h (fun _ _ h => wr_inv h (by decide))))

theorem quadFail_inv {q : Nat} (h : s.inv) : (quadFail s q).inv := by
  refine raiseCause_inv ?_
  refine each_inv ?_ fun _ _ h => ite_inv (refreshPort_inv h) (emit_inv (refreshPort_inv h))
  exact each_inv (markFailed_inv (wrBit_inv h (by decide))) fun _ _ h => calDrop_inv (calDrop_inv h)

theorem earlyFail_inv (h : s.inv) : (earlyFail s).inv :=
  set_inv (wr_dev_inv (vineIdle_inv (each_inv h (fun _ _ h => clr_inv (set_inv h (by decide)) (by decide)))) (by decide)) (by decide)

theorem hclkFail_inv (h : s.inv) : (hclkFail s).inv := ite_inv (raiseCause_inv (set_inv h (by decide))) (earlyFail_inv h)

theorem coreFail_inv (h : s.inv) : (coreFail s).inv := by
  unfold coreFail
  extract_lets _ s1 s2 _ _ _ _ s7
  have hs1 : s1.inv := clr_inv h (by decide)
  have hs2 : s2.inv := clr_inv (clr_inv hs1 (by decide)) (by decide)
  have hs7 : s7.inv := by
    refine clr_inv ?_ (by decide)
    exact vineIdle_inv (markFailed_inv (towerForced_inv (towerForced_inv (stopLoads_inv (ite_inv (ite_inv hs2 (set_inv hs2 (by decide))) hs1)))))
  exact ite_inv (hclkFail_inv (raiseCause_inv hs7)) (raiseCause_inv hs7)

theorem readoutFail_inv (h : s.inv) : (readoutFail s).inv := raiseCause_inv (portReset_inv (markFailed_inv (clr_inv h (by decide))))
theorem refGone_inv {ref : Nat} (h : s.inv) : (refGone s ref).inv := wrBit_inv (wrBit_inv h (by decide)) (by decide)
theorem mpllFail_inv {t : Nat} (h : s.inv) : (mpllFail s t).inv := raiseCause_inv (markFailed_inv (wrBit_inv (towerForced_inv (stopLoads_inv h)) (by decide)))
theorem fpllFail_inv (h : s.inv) : (fpllFail s).inv := raiseCause_inv (markFailed_inv (stopLoads_inv h))
theorem npllFail_inv (h : s.inv) : (npllFail s).inv := raiseCause_inv (vineIdle_inv (markFailed_inv h))

theorem domFail_inv {d : Nat} (h : s.inv) : (domFail s d).inv := by
  refine ite_inv (raiseCause_inv (markFailed_inv h)) ?_
  refine ite_inv (mpllFail_inv h) ?_
  refine ite_inv (fpllFail_inv h) ?_
  refine ite_inv (raise_inv h) ?_
  refine ite_inv (ite_inv (hclkFail_inv h) h) ?_
  exact ite_inv (readoutFail_inv h) (ite_inv (npllFail_inv h) (ite_inv (quadFail_inv h) (ite_inv (raiseCause_inv (markFailed_inv h)) h)))

theorem clockFail_inv {a : ClkFault} (h : s.inv) : (clockFail s a).inv := by
  unfold clockFail
  split
  · exact ite_inv (coreFail_inv (quadFail_inv (wrBit_inv (refGone_inv h) (by decide)))) (quadFail_inv (wrBit_inv (refGone_inv h) (by decide)))
  · exact quadFail_inv h
  · exact coreFail_inv h
  · exact fpllFail_inv h
  · exact mpllFail_inv h
  · exact npllFail_inv h
  · exact ite_inv (coreFail_inv (readoutFail_inv (refGone_inv h))) (readoutFail_inv (refGone_inv h))
  · exact readoutFail_inv h
  · exact raiseCause_inv (markFailed_inv (ite_inv (clr_inv (clr_inv (clr_inv h (by decide)) (by decide)) (by decide)) h))
  · exact domFail_inv h

theorem execClockFailure_inv {f : ClkFault} (h : s.inv) : outInv (execClockFailure f s) := aonLive_inv h fun _ h => clockFail_inv h

theorem clkCmd_inv {v : Nat} (h : s.inv) : (clkCmd s v).inv := by
  refine ite_inv h ?_
  refine ite_inv (wr_inv h (by decide)) ?_
  exact ite_inv (wr_inv h (by decide)) (ite_inv (wr_inv h (by decide)) (ite_inv (wr_inv h (by decide)) (wr_inv (wr_inv h (by decide)) (by decide))))

theorem execClkRestart_inv {r : Route} {target : Fin 16} (h : s.inv) : outInv (execClkRestart r target s) := live_inv h fun _ h => gate_inv
    (fun _ h => clkCmd_inv h) h

theorem towersBack_inv {ts : List Nat} (h : s.inv) : (towersBack s ts).inv := ite_inv (towersUpOf_inv h) h

theorem restartDone_inv {target : Nat} (h : s.inv) : (restartDone s target).inv := by
  unfold restartDone
  extract_lets _ s2 s3
  have hs2 : s2.inv := clr_inv (clr_inv (each_inv h (fun _ _ h => wrBit_inv h (by decide))) (by decide)) (by decide)
  have hs3 : s3.inv := ite_inv hs2 (endCause_inv hs2)
  refine ite_inv (each_inv (endCause_inv hs3) (fun _ _ h => groveReset_inv h)) ?_
  exact ite_inv (towersBack_inv hs3) (ite_inv (towersBack_inv hs3) (endCause_inv hs3))

theorem execClockRestartDone_inv (h : s.inv) : outInv (execClockRestartDone s) := live_inv h fun _ h => ite_inv h (restartDone_inv h)

theorem clkSelSet_inv {v : Nat} (h : s.inv) : (clkSelSet s v).inv := by
  unfold clkSelSet
  extract_lets s1
  have hs1 : s1.inv := ite_inv h (wr_inv h (by decide))
  exact ite_inv (raise_inv (set_inv hs1 (by decide))) (ite_inv hs1 (switchBegin_inv (wrB_inv hs1 (by decide))))

theorem execClkSelWrite_inv {r : Route} {v : DW} (h : s.inv) : outInv (execClkSelWrite r v s) := live_inv h fun _ h => gate_inv (fun _ h => clkSelSet_inv h) h

theorem execClockSwitchDone_inv (h : s.inv) : outInv (execClockSwitchDone s) :=
  live_inv h fun _ h => ite_inv (endCause_inv (clr_inv (clr_inv (clr_inv h (by decide)) (by decide)) (by decide))) (clr_inv (clr_inv h (by decide)) (by decide))

theorem gateBit_inv {d : Nat} {busy : Bool} (h : s.inv) : (gateBit s d busy).inv :=
  ite_inv (wrBit_inv (wrBit_inv h (by decide)) (by decide)) (raise_inv (set_inv h (by decide)))

theorem clkRunSet_inv {hi : Bool} {v busy : Nat} (h : s.inv) : (clkRunSet s hi v busy).inv :=
  each_inv h fun _ _ h => ite_inv h (ite_inv (wrBit_inv (wrBit_inv h (by decide)) (by decide)) (gateBit_inv h))

theorem execClkRunWrite_inv {r : Route} {hi : Bool} {v : DW} {busy : BitVec 39} (h : s.inv) : outInv (execClkRunWrite r hi v busy s) :=
  live_inv h fun _ h => gate_inv (fun _ h => clkRunSet_inv h) h

theorem execGateApply_inv {d : Fin 39} (h : s.inv) : outInv (execGateApply d s) := live_inv h fun _ h => wrBit_inv h (by decide)

theorem gateReset_inv {d : Nat} (h : s.inv) : (gateReset s d).inv := by
  refine ite_inv (groveReset_inv h) ?_
  refine ite_inv ?_ ?_
  · exact each_inv h fun _ _ h => ite_inv h (ite_inv (clr_inv h (by decide)) (chanResetBegin_inv h))
  · refine ite_inv (with_staged_inv h) ?_
    refine ite_inv (mgmtBegin_inv h) ?_
    refine ite_inv (portReset_inv h) ?_
    exact ite_inv (vineIdle_inv h) (ite_inv (each_inv h (fun _ _ h => calDrop_inv h)) (ite_inv (each_inv h (fun _ _ h => groveReset_inv h)) h))

theorem execGateForce_inv {d : Fin 39} (h : s.inv) : outInv (execGateForce d s) := live_inv h fun _ h => ite_inv
    (raise_inv (gateReset_inv (wrBit_inv h (by decide)))) h

theorem fmCtlSet_inv {v : Nat} (h : s.inv) : (fmCtlSet s v).inv := by
  unfold fmCtlSet
  extract_lets s1 _ _ s4
  have hs1 : s1.inv := w1c_inv h (by decide)
  have hs4 : s4.inv := wr_inv (wr_inv (wr_inv (ite_inv (wr_inv hs1 (by decide)) hs1) (by decide)) (by decide)) (by decide)
  exact ite_inv hs4 (ite_inv (set_inv hs4 (by decide)) (set_inv hs4 (by decide)))

theorem execFmGo_inv {r : Route} {v : DW} (h : s.inv) : outInv (execFmGo r v s) := live_inv h fun _ h => gate_inv (fun _ h => fmCtlSet_inv h) h

theorem execFmDone_inv {count : BitVec 48} {fmax fmin mean : BitVec 16} {modf : BitVec 12} {crossings : Nat} (h : s.inv) : outInv
    (execFmDone count fmax fmin mean modf crossings s) := by
  refine live_inv h fun _ h => ?_
  refine ite_inv h ?_
  refine ite_inv ?_ (wr_inv (clr_inv h (by decide)) (by decide))
  refine wr_inv ?_ (by decide)
  exact wrB_inv (wr_inv (wr_inv (wr_inv (wr_inv (clr_inv h (by decide)) (by decide)) (by decide)) (by decide)) (by decide)) (by decide)

end Sys2Proof.Machine
end

section
/-! The invariant under the operations of Machine/Power: power and heat. -/
namespace Sys2Proof.Machine

variable {s : State}

theorem domUp_inv {d : Nat} (h : s.inv) : (domUp s d).inv :=
  ite_inv (groveReset_inv (wrBit_inv h (by decide))) (ite_inv (with_hv_inv (drop_inv (wrBit_inv h (by decide)))) (drop_inv (wrBit_inv h (by decide))))

theorem domDown_inv {d : Nat} (h : s.inv) : (domDown s d).inv := by
  unfold domDown
  extract_lets s1
  have hs1 : s1.inv := wrBit_inv h (by decide)
  exact ite_inv (with_hv_inv hs1) (ite_inv (vineIdle_inv hs1) (ite_inv (wrBit_inv hs1 (by decide)) hs1))

theorem pwrOffSet_inv {hi : Bool} {v : Nat} (h : s.inv) : (pwrOffSet s hi v).inv := by
  refine each_inv h fun _ _ h => ?_
  refine ite_inv h ?_
  refine ite_inv ?_ ?_
  · exact ite_inv (domDown_inv (wrBit_inv h (by decide))) (set_inv h (by decide))
  · exact ite_inv (domUp_inv (wrBit_inv h (by decide))) (wrBit_inv h (by decide))

theorem execPwrOffWrite_inv {r : Route} {hi : Bool} {v : DW} (h : s.inv) : outInv (execPwrOffWrite r hi v s) :=
  live_inv h fun _ h => gate_inv (fun _ h => pwrOffSet_inv h) h

theorem execPdaPowerOn_inv {g : Fin 16} (h : s.inv) : outInv (execPdaPowerOn g s) := live_inv h fun _ h => ite_inv (wrBit_inv h (by decide)) h
theorem execPdaPowerOff_inv {g : Fin 16} (h : s.inv) : outInv (execPdaPowerOff g s) := live_inv h fun _ h => ite_inv (wrBit_inv h (by decide)) h
theorem latch_inv (h : s.inv) : (latch s).inv := twPrimary_inv (set_inv (set_inv (wr_dev_inv (bare_inv h) (by decide)) (by decide)) (by decide))
theorem hkInvalid_inv {ch : Nat} (h : s.inv) : (hkInvalid s ch).inv := raiseCauseAt_inv (clr_inv h (by decide))
theorem hkShow_inv {ch v : Nat} (h : s.inv) : (hkShow s ch v).inv := endCauseAt_inv (set_inv (wr_inv h (by decide)) (by decide))
theorem supplyCheck_inv {m v : Nat} (h : s.inv) : (supplyCheck s m v).inv := ite_inv (endCauseAt_inv h) (raiseCauseAt_inv (ite_inv (towerLost_inv h) h))

theorem hkConvert_inv {ch : Nat} {value : BitVec 16} {valid : Bool} {second : BitVec 16} {secondValid : Bool} (h : s.inv) :
    (hkConvert s ch value valid second secondValid).inv := by
  refine ite_inv h ?_
  refine ite_inv (endCauseAt_inv (clr_inv h (by decide))) ?_
  refine ite_inv (hkInvalid_inv h) ?_
  refine ite_inv ?_ (ite_inv (supplyCheck_inv (hkShow_inv h)) (hkShow_inv h))
  exact ite_inv (hkShow_inv h) (ite_inv (hkInvalid_inv (hkShow_inv h)) (ite_inv (latch_inv (hkShow_inv h)) (raise_inv (hkShow_inv (hkShow_inv h)))))

theorem hkHeld_inv {ch : Nat} {value : BitVec 16} {valid : Bool} {second : BitVec 16} {secondValid : Bool} (h : s.inv) :
    (hkHeld s ch value valid second secondValid).inv :=
  ite_inv h (ite_inv (latch_inv h) (ite_inv (towerLost_inv h) h))

theorem execHkConversion_inv {ch : Fin 96} {value : BitVec 16} {valid : Bool} {second : BitVec 16} {secondValid : Bool} (h : s.inv) : outInv
    (execHkConversion ch value valid second secondValid s) :=
  ite_out_inv (next_inv (hkHeld_inv (start_inv h))) (live_inv h (fun _ h => hkConvert_inv h))

theorem dieStep_inv {t c : Nat} (h : s.inv) : (dieStep t s c).inv := by
  unfold dieStep
  dsimp only
  split
  · exact raiseCauseAt_inv (set_inv (set_inv h (by decide)) (by decide))
  · exact endCauseAt_inv (wr_inv (clr_inv (wrB_inv h (by decide)) (by decide)) (by decide))

theorem towerStep_inv {t : Nat} (h : s.inv) : (towerStep s t).inv := by
  unfold towerStep
  dsimp only
  split
  · exact wr_inv (wr_inv (wrB_inv (wrB_inv (foldl_inv h (fun _ _ h => dieStep_inv h)) (by decide)) (by decide)) (by decide)) (by decide)
  · exact wrB_inv (wrB_inv (foldl_inv h (fun _ _ h => dieStep_inv h)) (by decide)) (by decide)

theorem plimShow_inv (h : s.inv) : (plimShow s).inv := wrB_inv (wr_inv h (by decide)) (by decide)

theorem throttle_inv (h : s.inv) : (throttle s).inv := by
  unfold throttle
  extract_lets _ _ s1
  have hs1 : s1.inv := wrB_inv h (by decide)
  refine ite_inv (plimShow_inv (clr_inv (wr_inv hs1 (by decide)) (by decide))) ?_
  refine ite_inv ?_ (plimShow_inv (clr_inv hs1 (by decide)))
  exact ite_inv (plimShow_inv (clr_inv (wr_inv hs1 (by decide)) (by decide))) (plimShow_inv (wr_inv hs1 (by decide)))

theorem maxShow_inv (h : s.inv) : (maxShow s).inv := by
  unfold maxShow
  dsimp only
  split
  · refine wr_inv ?_ (by decide)
    split
    · exact wr_inv h (by decide)
    · exact h
  · split
    · exact wr_inv h (by decide)
    · exact h

theorem warnStep_inv (h : s.inv) : (warnStep s).inv := by
  unfold warnStep
  refine each_inv h fun _ _ h => ?_
  dsimp only
  split
  · exact ite_inv (raiseCauseAt_inv h) (endCauseAt_inv h)
  · exact endCauseAt_inv h

theorem calStep_inv (h : s.inv) : (calStep s).inv := by
  refine each_inv (each_inv h (fun _ _ h => ite_inv (wr_inv h (by decide)) h)) fun _ _ h => ?_
  exact each_inv h fun _ _ h => ite_inv (calQueue_inv (clr_inv h (by decide))) (ite_inv (calQueue_inv h) h)

theorem roundEnd_inv (h : s.inv) : (roundEnd s).inv := by
  unfold roundEnd
  refine ite_inv (incWrap_inv h (by decide)) ?_
  extract_lets _ s2
  have hs2 : s2.inv := warnStep_inv (maxShow_inv (throttle_inv (towerStep_inv (towerStep_inv (incWrap_inv h (by decide))))))
  exact ite_inv (calStep_inv hs2) hs2

theorem thmCfgSet_inv {v : Nat} (h : s.inv) : (thmCfgSet s v).inv := ite_inv (set_inv h (by decide)) (wr_inv (wr_inv h (by decide)) (by decide))
theorem prsPlimSet_inv {v : Nat} (h : s.inv) : (prsPlimSet s v).inv := ite_inv (set_inv h (by decide)) (plimShow_inv (wr_inv (wr_inv h (by decide)) (by decide)))

theorem execDroop_inv {g : Fin 16} {report : Bool} (h : s.inv) : outInv (execDroop g report s) :=
  live_inv h fun _ h => ite_inv (ite_inv (raise_inv (incSat_inv h (by decide))) (incSat_inv h (by decide))) h

end Sys2Proof.Machine
end

section
/-! The invariant under the operations of Machine/Fault: the fault collector. -/
namespace Sys2Proof.Machine

variable {s : State}

theorem cuReset_inv {u : Nat} (h : s.inv) : (cuReset s u).inv := drop_inv h

theorem hvAbort_inv {e : Nat} (h : s.inv) : (hvAbort s e).inv := by
  unfold hvAbort
  refine clr_inv ?_ (by decide)
  split
  · exact with_hv_inv h
  · exact h

theorem groveReact_inv {g : Nat} (h : s.inv) : (groveReact s g).inv := ite_inv (groveReset_inv h) h
theorem chanReact_inv {t c : Nat} (h : s.inv) : (chanReact s t c).inv := ite_inv (chanResetBegin_inv h) h
theorem twReact_inv (h : s.inv) : (twReact s).inv := raise_inv (set_inv h (by decide))

theorem blockReset_inv {src : Nat} (h : s.inv) : (blockReset s src).inv := by
  refine ite_inv (groveReact_inv h) ?_
  refine ite_inv (groveReact_inv h) ?_
  refine ite_inv (groveReact_inv h) ?_
  refine ite_inv (chanReact_inv h) ?_
  refine ite_inv (portReset_inv h) ?_
  refine ite_inv (groveReact_inv h) ?_
  exact ite_inv (twReact_inv h) (ite_inv (cuReset_inv h) (ite_inv (each_inv h (fun _ _ h => hvAbort_inv h)) (ite_inv (ite_inv (mgmtBegin_inv h) h) h)))

theorem trapTo_inv (h : s.inv) : (trapTo s).inv := ite_inv (emit_inv h) (set_inv h (by decide))
theorem interrupt_inv {src : Nat} (h : s.inv) : (interrupt s src).inv := msix_inv (set_inv h (by decide))

theorem react_inv {m : Msg} {lvl : Nat} {esc : Bool} (h : s.inv) : (react s m lvl esc).inv := by
  refine ite_inv h ?_
  refine ite_inv (trapTo_inv (interrupt_inv h)) ?_
  refine ite_inv (blockReset_inv (interrupt_inv h)) ?_
  exact ite_inv (chipReaction_inv (interrupt_inv h)) (ite_inv (set_inv (interrupt_inv h) (by decide)) (interrupt_inv h))

theorem firstFault_inv {m : Msg} {lvl : Nat} {esc : Bool} (h : s.inv) : (firstFault s m lvl esc).inv := by
  refine ite_inv h ?_
  refine ite_inv (set_inv h (by decide)) ?_
  refine wr_inv ?_ (by decide)
  refine wrB_inv ?_ (by decide)
  refine wrB_inv ?_ (by decide)
  exact wrB_inv (set_inv (wr_inv (wr_inv (wr_inv (wr_inv h (by decide)) (by decide)) (by decide)) (by decide)) (by decide)) (by decide)

theorem bufferEvent_inv {m : Msg} {lvl : Nat} (h : s.inv) : (bufferEvent s m lvl).inv := ite_inv (with_evbuf_inv h) (incSat_inv h (by decide))
theorem takeMessage_inv {m : Msg} (h : s.inv) : (takeMessage s m).inv := react_inv (firstFault_inv (bufferEvent_inv (setStatus_inv h)))
theorem takeOver_inv {m : Msg} (h : s.inv) : (takeOver s m).inv := react_inv h

theorem faultMessage_inv (h : s.inv) : (faultMessage s).inv := by
  unfold faultMessage
  split
  · exact takeOver_inv (with_fqOver_inv h)
  · split
    · exact h
    · exact takeMessage_inv (ite_inv (raise_inv (clr_inv (with_fq_inv h) (by decide))) (with_fq_inv h))

theorem execFaultMessage_inv (h : s.inv) : outInv (execFaultMessage s) := live_inv h fun _ h => faultMessage_inv h

theorem statClear_inv {i v : Nat} (h : s.inv) : (statClear s i v).inv := by
  unfold statClear
  refine each_inv (w1c_inv h (by decide)) fun _ _ h => ?_
  refine ite_inv ?_ h
  split
  · exact raise_inv h
  · exact h

theorem execStatusClear_inv {r : Route} {i : Fin 36} {v : DW} (h : s.inv) : outInv (execStatusClear r i v s) :=
  live_inv h fun _ h => gate_inv (fun _ h => statClear_inv h) h

theorem firstClear_inv {v : Nat} (h : s.inv) : (firstClear s v).inv := ite_inv (drop_inv h) h
theorem execFirstFaultClear_inv {r : Route} (h : s.inv) : outInv (execFirstFaultClear r s) := live_inv h fun _ h => gate_inv (fun _ h => firstClear_inv h) h
theorem fltCtlSet_inv {v : Nat} (h : s.inv) : (fltCtlSet s v).inv := ite_inv (clr_inv (wr_inv h (by decide)) (by decide)) (wr_inv h (by decide))
theorem execFaultnClr_inv {r : Route} {irqen : Bool} (h : s.inv) : outInv (execFaultnClr r irqen s) := live_inv h fun _ h => gate_inv (fun _ h => fltCtlSet_inv h) h
theorem gstatSet_inv {v : Nat} (h : s.inv) : (gstatSet s v).inv := ite_inv (wrB_inv h (by decide)) h
theorem sevSet_inv {src v : Nat} (h : s.inv) : (sevSet s src v).inv := ite_inv h (ite_inv (wr_inv (wr_inv h (by decide)) (by decide)) (wr_inv h (by decide)))

theorem execFltSevWrite_inv {r : Route} {src : Fin 1152} {v : DW} (h : s.inv) : outInv (execFltSevWrite r src v s) :=
  live_inv h fun _ h => gate_inv (fun _ h => sevSet_inv h) h

theorem fltInjSet_inv {v : Nat} (h : s.inv) : (fltInjSet s v).inv := by
  unfold fltInjSet
  extract_lets _ _ _ _ s2
  have hs2 : s2.inv := wr_inv (wr_inv (ite_inv (wr_inv h (by decide)) h) (by decide)) (by decide)
  refine ite_inv hs2 ?_
  refine ite_inv (wr_inv hs2 (by decide)) ?_
  refine ite_inv (wr_inv hs2 (by decide)) ?_
  exact ite_inv (wr_inv hs2 (by decide)) (wr_inv (set_inv (wr_inv (wr_inv (wr_inv hs2 (by decide)) (by decide)) (by decide)) (by decide)) (by decide))

theorem execFltInjArm_inv {r : Route} {v : DW} (h : s.inv) : outInv (execFltInjArm r v s) := live_inv h fun _ h => gate_inv (fun _ h => fltInjSet_inv h) h

end Sys2Proof.Machine
end

section
/-! The invariant under the operations of Machine/Readout: the readout port. -/
namespace Sys2Proof.Machine

variable {s : State}

theorem xpNote_inv {f : Fld} {kind : Nat} (h : s.inv) (hfld : f ≠ .DEV_STATE_STATE) : (xpNote s f kind).inv := raise_inv (set_inv h hfld)

theorem readOut_inv {A n : Nat} (h : s.inv) : (readOut s A n).2.2.2.inv := by
  unfold readOut
  dsimp only
  split
  · exact punRead_inv (readCharge_inv h)
  · exact readBytes_inv (readCharge_inv h)

theorem b2Refuse_inv {b : B2Acc} (h : s.inv) : (b2Refuse s b).inv := by
  unfold b2Refuse
  refine xpNote_inv ?_ (by decide)
  split
  · exact emit_inv h
  · exact h

theorem b2Store_inv {A : Nat} {l : List Byte} {en : List Bool} (h : s.inv) : (b2Store s A l en).inv :=
  each_inv h fun _ _ h => ite_inv (writeWord_inv h) (ite_inv (writePart_inv h) h)

theorem b2Serve_inv {b : B2Acc} (h : s.inv) : optInv (b2Serve s b) := by
  unfold b2Serve
  refine ite_opt_inv (some_inv (b2Refuse_inv h)) ?_
  refine ite_opt_inv none_inv ?_
  split
  · exact ite_opt_inv (some_inv (foldl_inv (readOut_inv h) (fun _ _ h => emit_inv h))) none_inv
  · exact ite_opt_inv (some_inv (xpNote_inv h (by decide))) (some_inv (b2Store_inv h))

theorem b2Arrive_inv {x n : Nat} {data : Option (List Byte × List Bool)} (h : s.inv) : (b2Arrive s x n data).inv := by
  unfold b2Arrive
  refine ite_inv h ?_
  split
  · exact b2Refuse_inv h
  · refine ite_inv (inv_of_stores h rfl) ?_
    split
    · next t e => exact b2Serve_inv h t e
    · exact inv_of_stores h rfl

theorem execBar2Read_inv {x : BitVec 36} {len : Nat} (h : s.inv) : outInv (execBar2Read x len s) := live_inv h fun _ h => ite_inv (b2Arrive_inv h) (emit_inv h)

theorem execBar2Write_inv {x : BitVec 36} {bytes : List Byte} {en : List Bool} (h : s.inv) : outInv (execBar2Write x bytes en s) :=
  live_inv h fun _ h => ite_inv (b2Arrive_inv h) h

theorem b2Drain_inv {t : Nat} {l : List B2Acc} (h : s.inv) : (b2Drain t l s).2.inv := by
  induction l generalizing s with
  | nil => exact h
  | cons b r ih =>
    unfold b2Drain
    refine ite_snd_inv ?_ (ih h)
    split
    · next u e => exact ih (b2Serve_inv h u e)
    · exact h

theorem execBar2Starve_inv (h : s.inv) : outInv (execBar2Starve s) := by
  unfold execBar2Starve
  refine live_inv h fun _ h => ?_
  split
  · exact xpNote_inv (emit_inv (with_b2_inv h)) (by decide)
  · exact h

theorem execAdmissionWindow_inv {t : Fin 2} (h : s.inv) : outInv (execAdmissionWindow t s) :=
  live_inv h fun _ h => with_b2_inv (b2Drain_inv (ite_inv (admissionWindow_inv h) (clr_inv (clr_inv (setStaged_inv h) (by decide)) (by decide))))

theorem hvBad_inv {e : Nat} (h : s.inv) : (hvBad s e).inv := set_inv h (by decide)
theorem hvProdSet_inv {e v : Nat} (h : s.inv) : (hvProdSet s e v).inv := ite_inv (hvBad_inv h) (wr_inv h (by decide))
theorem hvSizeSet_inv {e v : Nat} (h : s.inv) : (hvSizeSet s e v).inv := ite_inv (hvBad_inv h) (wr_inv h (by decide))
theorem hvBaseSet_inv {e half v : Nat} (h : s.inv) : (hvBaseSet s e half v).inv := ite_inv (hvBad_inv h) (wr_inv h (by decide))
theorem hvCtlSet_inv {e v : Nat} (h : s.inv) : (hvCtlSet s e v).inv := ite_inv (hvAbort_inv h) (wr_inv h (by decide))

theorem execHvProdWrite_inv {r : Route} {e : Fin 8} {v : DW} (h : s.inv) : outInv (execHvProdWrite r e v s) :=
  live_inv h fun _ h => gate_inv (fun _ h => hvProdSet_inv h) h

theorem execHvAbort_inv {r : Route} {e : Fin 8} (h : s.inv) : outInv (execHvAbort r e s) := live_inv h fun _ h => gate_inv (fun _ h => hvCtlSet_inv h) h

theorem execHvEnable_inv {r : Route} {e : Fin 8} {en : Bool} (h : s.inv) : outInv (execHvEnable r e en s) :=
  live_inv h fun _ h => gate_inv (fun _ h => hvCtlSet_inv h) h

theorem setHv_inv {e : Nat} {j : Option HvJob} (h : s.inv) : (s.setHv e j).inv := with_hv_inv h
theorem hvPass_inv {e n : Nat} (h : s.inv) : (hvPass s e n).inv := ite_inv (wr_inv (wr_inv h (by decide)) (by decide)) (wr_inv (wr_inv h (by decide)) (by decide))

theorem hvEnd_inv {e : Nat} {j : HvJob} {status next : Nat} (h : s.inv) : (hvEnd s e j status next).inv := by
  unfold hvEnd
  extract_lets _ _ _ _ _ s5 s6
  have hs5 : s5.inv := setHv_inv (clr_inv (clr_inv (wr_inv (emit_inv (emit_inv (emit_inv h))) (by decide)) (by decide)) (by decide))
  have hs6 : s6.inv := ite_inv (hvPass_inv hs5) hs5
  exact ite_inv (msix_inv hs6) hs6

theorem hvWrite_inv {e : Nat} {j : HvJob} {l : List Byte} (h : s.inv) : (hvWrite s e j l).inv := incSat_inv (wr_inv (emit_inv h) (by decide)) (by decide)

theorem hvTake_inv {e : Nat} {desc : Option (List Byte)} {want : List Byte → Bool} (h : s.inv) : (hvTake s e desc want).inv := by
  unfold hvTake
  refine ite_inv ?_ h
  split
  · exact raise_inv (msix_inv (set_inv h (by decide)))
  · exact ite_inv (ite_inv (hvEnd_inv h) (ite_inv (hvEnd_inv h) (ite_inv (hvEnd_inv h) (setHv_inv (wr_inv (set_inv h (by decide)) (by decide)))))) h

theorem hvRaw_inv {e : Nat} {j : HvJob} (h : s.inv) : (hvRaw s e j).inv :=
  ite_inv (hvEnd_inv h) (ite_inv h (ite_inv (hvEnd_inv (hvWrite_inv (readOut_inv (hvPass_inv h)))) (setHv_inv (hvWrite_inv (readOut_inv (hvPass_inv h))))))

theorem execHarvestRaw_inv {e : Fin 8} {desc : Option (List Byte)} (h : s.inv) : outInv (execHarvestRaw e desc s) := by
  unfold execHarvestRaw
  refine live_inv h fun _ h => ?_
  split
  · exact ite_inv (hvRaw_inv h) h
  · dsimp only
    split
    · exact hvRaw_inv (hvTake_inv h)
    · exact hvTake_inv h

theorem hvAtStop_inv {e : Nat} {j : HvJob} (h : s.inv) : (hvAtStop s e j).inv := ite_inv (hvEnd_inv h) (hvEnd_inv (hvWrite_inv h))

theorem hvRecord_inv {e : Nat} {j : HvJob} (h : s.inv) : (hvRecord s e j).inv := by
  unfold hvRecord
  refine ite_inv (hvEnd_inv h) ?_
  refine ite_inv (hvEnd_inv h) ?_
  refine ite_inv (hvAtStop_inv h) ?_
  refine ite_inv (ite_inv (setHv_inv h) (hvEnd_inv h)) ?_
  refine ite_inv h ?_
  refine ite_inv ?_ ?_
  · extract_lets _ _ _ x
    have hx : x.2.2.inv := punReadRing_inv (readCharge_inv (hvPass_inv h))
    exact ite_inv (setHv_inv hx) (ite_inv (setHv_inv hx) (hvEnd_inv hx))
  · exact ite_inv (setHv_inv (hvWrite_inv (punReadRing_inv (readCharge_inv (hvPass_inv h))))) (hvEnd_inv (punReadRing_inv (readCharge_inv (hvPass_inv h))))

theorem execHarvestRecords_inv {e : Fin 8} {desc : Option (List Byte)} (h : s.inv) : outInv (execHarvestRecords e desc s) := by
  unfold execHarvestRecords
  refine live_inv h fun _ h => ?_
  split
  · exact ite_inv (hvRecord_inv h) h
  · exact hvTake_inv h

end Sys2Proof.Machine
end

section
/-! The invariant under the operations of Machine/Check: check-value units. -/
namespace Sys2Proof.Machine

variable {s : State}

theorem cuShow_inv {u : Nat} (h : s.inv) : (cuShow s u).inv := wr_inv h (by decide)
theorem cuInit_inv {u : Nat} (h : s.inv) : (cuInit s u).inv := cuShow_inv (clr_inv (clr_inv (clr_inv (wr_inv h (by decide)) (by decide)) (by decide)) (by decide))
theorem cuSend_inv {u : Nat} {inj collide : Bool} (h : s.inv) : (cuSend s u inj collide).inv := raise_inv h

theorem cuCompare_inv {u : Nat} (h : s.inv) : (cuCompare s u).inv := by
  unfold cuCompare
  refine ite_inv ?_ h
  extract_lets _ _ _ _ _ s2
  have hs2 : s2.inv := ite_inv (set_inv (takeInj_inv h) (by decide)) (set_inv (takeInj_inv h) (by decide))
  exact ite_inv (cuSend_inv hs2) (ite_inv hs2 (cuSend_inv hs2))

theorem cuField_inv {u : Nat} (h : s.inv) : (cuField s u).2.inv := by
  unfold cuField
  dsimp only
  split
  · exact h
  · dsimp only
    exact freshBytes_inv h

theorem cuAlive_inv {u : Nat} (h : s.inv) : (cuAlive s u).inv := by
  unfold cuAlive
  refine ite_inv h ?_
  refine set_inv ?_ (by decide)
  refine wr_inv ?_ (by decide)
  refine ite_inv ?_ (cuField_inv h)
  extract_lets s1
  have hs1 : s1.inv := ite_inv (cuSend_inv (set_inv (cuField_inv h) (by decide))) (cuField_inv h)
  exact ite_inv (cuSend_inv (set_inv hs1 (by decide))) hs1

theorem cuEnd_inv {u : Nat} (h : s.inv) : (cuEnd s u).inv := cuInit_inv (wr_inv (cuAlive_inv (cuCompare_inv h)) (by decide))

theorem cuByte_inv {u : Nat} {a : State × Bool} {b : Byte} (h : a.1.inv) : (cuByte u a b).1.inv := by
  unfold cuByte
  refine ite_fst_inv (set_inv h (by decide)) ?_
  extract_lets _ _ s2 _ _ _ s4
  have hs2 : s2.inv := wr_inv h (by decide)
  have hs4 : s4.inv := cuShow_inv (incWrap_inv (ite_inv (wrBit_inv (wr_inv hs2 (by decide)) (by decide)) hs2) (by decide))
  exact ite_fst_inv (cuEnd_inv hs4) hs4

theorem cuFeed_inv {u n v : Nat} (h : s.inv) : (cuFeed s u n v).inv := foldl_fst_inv h fun _ _ h => cuByte_inv h
theorem cuPlace_inv {f : Fld} {u v : Nat} (h : s.inv) (hfld : f ≠ .DEV_STATE_STATE) : (cuPlace s f u v).inv := ite_inv h (clr_inv (wr_inv h hfld) (by decide))
theorem cuCmd_inv {u v : Nat} (h : s.inv) : (cuCmd s u v).inv := ite_inv (cuInit_inv (clr_inv h (by decide))) h

theorem cuCtlSet_inv {u v : Nat} (h : s.inv) : (cuCtlSet s u v).inv := by
  unfold cuCtlSet
  extract_lets _ _ s1 s2 _ s4 s5
  have hs1 : s1.inv := wr_inv (wr_inv h (by decide)) (by decide)
  have hs2 : s2.inv := ite_inv (wr_inv hs1 (by decide)) hs1
  have hs4 : s4.inv := wr_inv (ite_inv (wr_inv hs2 (by decide)) hs2) (by decide)
  have hs5 : s5.inv := ite_inv (cuInit_inv (wr_inv hs4 (by decide))) hs4
  exact ite_inv (cuEnd_inv hs5) hs5

theorem cuStatSet_inv {u v : Nat} (h : s.inv) : (cuStatSet s u v).inv :=
  have hne : ∀ e ∈ [(0, Fld.CU_STAT_MATCH), (1, .CU_STAT_MISM), (2, .CU_STAT_REPEAT), (3, .CU_STAT_SKIP), (4, .CU_STAT_OVERRUN)], e.2 ≠ .DEV_STATE_STATE := by decide
  List.foldlRecOn (motive := State.inv) _ _ (wr_inv h (by decide)) fun _ hs e he => ite_inv (clr_inv hs (hne e he)) hs

theorem cuValSet_inv {u half v : Nat} (h : s.inv) : (cuValSet s u half v).inv := cuShow_inv (wr_inv h (by decide))
theorem cuExpSet_inv {u half v : Nat} (h : s.inv) : (cuExpSet s u half v).inv := wr_inv h (by decide)
theorem execCuFeed8_inv {r : Route} {u : Fin 8} {v : DW} (h : s.inv) : outInv (execCuFeed8 r u v s) := live_inv h fun _ h => gate_inv (fun _ h => cuFeed_inv h) h
theorem execCuFeed16_inv {r : Route} {u : Fin 8} {v : DW} (h : s.inv) : outInv (execCuFeed16 r u v s) := live_inv h fun _ h => gate_inv (fun _ h => cuFeed_inv h) h
theorem execCuFeed32_inv {r : Route} {u : Fin 8} {v : DW} (h : s.inv) : outInv (execCuFeed32 r u v s) := live_inv h fun _ h => gate_inv (fun _ h => cuFeed_inv h) h
theorem execCuInit_inv {r : Route} {u : Fin 8} (h : s.inv) : outInv (execCuInit r u s) := live_inv h fun _ h => gate_inv (fun _ h => cuCmd_inv h) h

theorem execCuCtlWrite_inv {r : Route} {u : Fin 8} {v : DW} (h : s.inv) : outInv (execCuCtlWrite r u v s) :=
  live_inv h fun _ h => gate_inv (fun _ h => cuCtlSet_inv h) h

theorem execCuStatWrite_inv {r : Route} {u : Fin 8} {v : DW} (h : s.inv) : outInv (execCuStatWrite r u v s) :=
  live_inv h fun _ h => gate_inv (fun _ h => cuStatSet_inv h) h

end Sys2Proof.Machine
end

section
/-! The invariant under the operations of Machine/Mgmt: the management core. -/
namespace Sys2Proof.Machine

variable {s : State}

theorem bankRead_inv (h : s.inv) : (bankRead s).inv := by
  unfold bankRead
  dsimp only
  split
  · exact takeInj_inv h
  · exact raise_inv (freshNat_inv (takeInj_inv h))

theorem mbAnswer_inv {m : Nat} {msg : List Byte} (h : s.inv) : (mbAnswer s m msg).inv := by
  unfold mbAnswer
  extract_lets _ s2
  have hs2 : s2.inv := wr_inv (set_inv (clr_inv (setWins_inv h) mbPend_ne) mbRsp_ne) (by decide)
  exact ite_inv (msix_inv hs2) (alert_inv hs2)

theorem mctpSend_inv {b : Sys2Proof.Bind} {msg : List Byte} (h : s.inv) : (mctpSend s b msg).inv := by
  unfold mctpSend
  split
  · exact with_mctpq_inv h
  · exact emit_inv h
  · exact emit_inv h

theorem answer_inv {v : Via} {req : List Byte} {status : Nat} {payload : List Byte} (h : s.inv) : (answer s v req status payload).inv := by
  unfold answer
  split
  · exact mbAnswer_inv h
  · exact mbAnswer_inv h
  · exact mctpSend_inv (with_mctpin_inv h)

theorem serve_inv {v : Via} {cmd len : Nat} {body : State → List Byte → Nat × List Byte × State} (h : s.inv) (hf : ∀ s x1, s.inv → (body s x1).2.2.inv) :
    (serve s v cmd len body).inv := by
  unfold serve
  split
  · exact h
  · refine ite_inv ?_ ?_
    · split
      · exact ite_inv h (answer_inv (bankRead_inv h))
      · exact h
    · refine ite_inv (answer_inv (bankRead_inv h)) ?_
      exact ite_inv (answer_inv (bankRead_inv h)) (ite_inv (answer_inv (bankRead_inv h)) (answer_inv (hf _ _ (bankRead_inv h))))

theorem serveUnknown_inv (h : s.inv) : (serveUnknown s).inv := foldl_inv h fun _ _ h => ite_inv (mbAnswer_inv h) h

theorem mbDoorbell_inv {m v : Nat} (h : s.inv) : (mbDoorbell s m v).inv :=
  ite_inv h (ite_inv (set_inv h mbErr_ne) (serveUnknown_inv (set_inv (ite_inv h (wr_inv h (by decide))) mbPend_ne)))

theorem execMbDoorbell_inv {r : Route} (h : s.inv) : outInv (execMbDoorbell r s) := live_inv h fun _ h => gate_inv (fun _ h => mbDoorbell_inv h) h
theorem execTwMbDoorbell_inv {r : Route} (h : s.inv) : outInv (execTwMbDoorbell r s) := live_inv h fun _ h => gate_inv (fun _ h => mbDoorbell_inv h) h
theorem execGetInfo_inv {v : Via} (h : s.inv) : outInv (execGetInfo v s) := live_inv h fun _ h => serveUnknown_inv (serve_inv h (fun _ _ h => h))
theorem execGetMeas_inv {v : Via} (h : s.inv) : outInv (execGetMeas v s) := live_inv h fun _ h => serveUnknown_inv (serve_inv h (fun _ _ h => ite_snd_snd_inv h h))
theorem execNvmRead_inv {v : Via} (h : s.inv) : outInv (execNvmRead v s) := live_inv h fun _ h => serveUnknown_inv (serve_inv h (fun _ _ h => ite_snd_snd_inv h h))

theorem execCalWriteback_inv {v : Via} {differs : Bool} (h : s.inv) : outInv (execCalWriteback v differs s) :=
  live_inv h fun _ h => serveUnknown_inv (serve_inv h (fun _ _ h => ite_snd_snd_inv h (ite_snd_snd_inv (wbEnd_inv (calCmd_inv h)) (calCmd_inv h))))

theorem evShow_inv (h : s.inv) : (evShow s).inv := wr_inv h (by decide)

theorem execGetEvents_inv {v : Via} (h : s.inv) : outInv (execGetEvents v s) :=
  live_inv h fun _ h => serveUnknown_inv (serve_inv h (fun _ _ h => ite_snd_snd_inv h (evShow_inv (with_hostq_inv h))))

theorem execEventDrain_inv {parity : Bool} (h : s.inv) : outInv (execEventDrain parity s) := by
  unfold execEventDrain
  refine live_inv h fun _ h => ?_
  split
  · exact h
  · refine ite_inv h ?_
    extract_lets s1 _ _ s3 _ s5
    have hs1 : s1.inv := bankRead_inv (with_evbuf_inv h)
    have hs3 : s3.inv := ite_inv (raise_inv (takeInj_inv hs1)) (ite_inv (raise_inv (takeInj_inv hs1)) (takeInj_inv hs1))
    have hs5 : s5.inv := evShow_inv (incWrap_inv (ite_inv (incSat_inv (with_hostq_inv hs3) (by decide)) (with_hostq_inv hs3)) (by decide))
    exact ite_inv hs5 (alert_inv hs5)

theorem budgetNote_inv {auto : Bool} (h : s.inv) : (budgetNote s auto).inv := each_inv h fun _ _ h => wrB_inv (ite_inv (raise_inv h) h) (by decide)

theorem execBudget_inv {v : Via} (h : s.inv) : outInv (execBudget v s) :=
  live_inv h fun _ h => serveUnknown_inv (serve_inv h (fun _ _ h => ite_snd_snd_inv h (ite_inv (wrB_inv h (by decide)) h)))

theorem budgetAuto_inv (h : s.inv) : (budgetAuto s).inv := ite_inv (budgetNote_inv (bankRead_inv h)) h
theorem execBudgetAutoCheck_inv (h : s.inv) : outInv (execBudgetAutoCheck s) := live_inv h fun _ h => budgetAuto_inv h

theorem execHousekeepingRoundEnd_inv (h : s.inv) : outInv (execHousekeepingRoundEnd s) :=
  aonLive_inv h fun _ h => ite_inv (budgetAuto_inv (roundEnd_inv h)) (roundEnd_inv h)

theorem execHardRepairDone_inv {t : Fin 2} (h : s.inv) : outInv (execHardRepairDone t s) := live_inv h fun _ h => serveUnknown_inv (hardRepairEnd_inv h)
theorem execRetireDone_inv {t : Fin 2} (h : s.inv) : outInv (execRetireDone t s) := live_inv h fun _ h => serveUnknown_inv (retireEnd_inv h)

theorem mctpServe_inv {b : Sys2Proof.Bind} {f : State → State} (h : s.inv) (hf : ∀ s, s.inv → (f s).inv) : (mctpServe s b f).inv :=
  ite_inv (hf _ (bankRead_inv (with_mctpin_inv h))) h

theorem mctpControl_inv {b : Sys2Proof.Bind} {f : State → State} (h : s.inv) (hf : ∀ s, s.inv → (f s).inv) : (mctpControl s b f).inv :=
  mctpServe_inv h fun _ h => ite_inv (mctpSend_inv h) (hf _ h)

theorem execSetEndpointId_inv {b : Sys2Proof.Bind} {eid : Byte} {wide : Option Bool} (h : s.inv) : outInv (execSetEndpointId b eid wide s) := by
  unfold execSetEndpointId
  refine live_inv h fun _ h => ?_
  refine mctpControl_inv h fun _ h => ?_
  refine mctpSend_inv ?_
  refine wr_inv ?_ (by decide)
  split
  · exact h
  · exact h
  · exact wrB_inv h (by decide)

theorem execGetEndpointId_inv {b : Sys2Proof.Bind} (h : s.inv) : outInv (execGetEndpointId b s) := live_inv h fun _ h => mctpControl_inv h fun _ h => mctpSend_inv h

theorem execGetMctpVersionSupport_inv {b : Sys2Proof.Bind} (h : s.inv) : outInv (execGetMctpVersionSupport b s) :=
  live_inv h fun _ h => mctpControl_inv h fun _ h => mctpSend_inv h

theorem execGetMessageTypeSupport_inv {b : Sys2Proof.Bind} (h : s.inv) : outInv (execGetMessageTypeSupport b s) :=
  live_inv h fun _ h => mctpControl_inv h fun _ h => mctpSend_inv h

theorem execGetEndpointUuid_inv {b : Sys2Proof.Bind} (h : s.inv) : outInv
    (execGetEndpointUuid b s) := live_inv h fun _ h => mctpControl_inv h fun _ h => mctpSend_inv h

theorem spdmSend_inv {b : Sys2Proof.Bind} {a : SpdmAns} {l : List Byte} (h : s.inv) : (spdmSend s b a l).inv := mctpSend_inv (emit_inv h)

theorem spdmServe_inv {b : Sys2Proof.Bind} {stage : Nat} {f : State → State} (h : s.inv) (hf : ∀ s, s.inv → (f s).inv) : (spdmServe s b stage f).inv :=
  mctpServe_inv h fun _ h => ite_inv (spdmSend_inv h) (ite_inv (spdmSend_inv h) (hf _ h))

theorem spdmSigned_inv {b : Sys2Proof.Bind} {l : List Byte} {f : State → State} (h : s.inv) (hf : ∀ s, s.inv → (f s).inv) : (spdmSigned s b l f).inv :=
  ite_inv (spdmSend_inv h) (ite_inv (spdmSend_inv h) (spdmSend_inv (hf _ (freshBytes_inv h))))

theorem execGetVersion_inv {b : Sys2Proof.Bind} (h : s.inv) : outInv (execGetVersion b s) :=
  live_inv h fun _ h => spdmServe_inv h fun _ h => spdmSend_inv (wr_inv h (by decide))

theorem execGetCapabilities_inv {b : Sys2Proof.Bind} (h : s.inv) : outInv (execGetCapabilities b s) :=
  live_inv h fun _ h => spdmServe_inv h fun _ h => spdmSend_inv (wr_inv (freshBytes_inv h) (by decide))

theorem execNegotiateAlgorithms_inv {b : Sys2Proof.Bind} (h : s.inv) : outInv (execNegotiateAlgorithms b s) :=
  live_inv h fun _ h => spdmServe_inv h fun _ h => spdmSend_inv (wr_inv h (by decide))

theorem execGetDigests_inv {b : Sys2Proof.Bind} (h : s.inv) : outInv (execGetDigests b s) := live_inv h fun _ h => spdmServe_inv h fun _ h => spdmSend_inv h

theorem spdmSlot_inv {b : Sys2Proof.Bind} {slot : Fin 8} {f : State → State} (h : s.inv) (hf : ∀ s, s.inv → (f s).inv) : (spdmSlot s b slot f).inv :=
  spdmServe_inv h fun _ h => ite_inv (spdmSend_inv h) (hf _ h)

theorem execGetCertificate_inv {b : Sys2Proof.Bind} {slot : Fin 8} {ofs len : BitVec 16} (h : s.inv) : outInv (execGetCertificate b slot ofs len s) :=
  live_inv h fun _ h => spdmSlot_inv h fun _ h => spdmSend_inv h

theorem execChallenge_inv {b : Sys2Proof.Bind} {slot : Fin 8} (h : s.inv) : outInv (execChallenge b slot s) :=
  live_inv h fun _ h => spdmSlot_inv h fun _ h => spdmSigned_inv h fun _ h => h

theorem execGetMeasurements_inv {b : Sys2Proof.Bind} {slot : Fin 8} {index : Byte} {signed : Bool} (h : s.inv) : outInv
    (execGetMeasurements b slot index signed s) :=
  live_inv h fun _ h => spdmSlot_inv h fun _ h => ite_inv (spdmSend_inv h) (ite_inv (spdmSigned_inv h (fun _ h => h)) (spdmSend_inv h))

theorem execKeyExchange_inv {b : Sys2Proof.Bind} {slot : Fin 8} (h : s.inv) : outInv (execKeyExchange b slot s) :=
  live_inv h fun _ h => spdmSlot_inv h fun _ h => ite_inv (spdmSend_inv h) (spdmSigned_inv h (fun _ h => wr_inv (with_spdm_inv h) (by decide)))

theorem spdmIn_inv {b : Sys2Proof.Bind} {id : Nat} {est : Bool} {f : State → State} (h : s.inv) (hf : ∀ s, s.inv → (f s).inv) : (spdmIn s b id est f).inv :=
  spdmServe_inv h fun _ h => ite_inv (spdmSend_inv (hf _ h)) (spdmSend_inv h)

theorem execFinish_inv {b : Sys2Proof.Bind} {id : BitVec 16} (h : s.inv) : outInv
    (execFinish b id s) := live_inv h fun _ h => spdmIn_inv h fun _ h => with_spdm_inv h

theorem execHeartbeat_inv {b : Sys2Proof.Bind} {id : BitVec 16} (h : s.inv) : outInv (execHeartbeat b id s) := live_inv h fun _ h => spdmIn_inv h fun _ h => h
theorem execKeyUpdate_inv {b : Sys2Proof.Bind} {id : BitVec 16} (h : s.inv) : outInv (execKeyUpdate b id s) := live_inv h fun _ h => spdmIn_inv h fun _ h => h

theorem execEndSession_inv {b : Sys2Proof.Bind} {id : BitVec 16} (h : s.inv) : outInv (execEndSession b id s) :=
  live_inv h fun _ h => spdmIn_inv h fun _ h => with_spdm_inv h

end Sys2Proof.Machine
end

section
/-! The invariant under the operations of Machine/Rind: the Rind. -/
namespace Sys2Proof.Machine

variable {s : State}

theorem apprShow_inv (h : s.inv) : (apprShow s).inv := wrB_inv h (by decide)
theorem nonceNew_inv (h : s.inv) : (nonceNew s).inv := setWins_inv (freshBytes_inv h)
theorem winClear_inv {a b : Nat} (h : s.inv) : (winClear s a b).inv := win_filter_inv h

theorem imageFail_inv {code : Nat} (h : s.inv) : (imageFail s code).inv := alert_inv
    (clr_inv (set_inv (wr_inv (loadAbort_inv h) (by decide)) (by decide)) (by decide))

theorem pkeyShow_inv {k : Nat} (h : s.inv) : (pkeyShow s k).inv := wrBit_inv h (by decide)
theorem ikeyShow_inv {b : Nat} (h : s.inv) : (ikeyShow s b).inv := wrB_inv (foldl_inv h (fun _ _ h => wrBit_inv h (by decide))) (by decide)

theorem pkeyLose_inv {k : Nat} (h : s.inv) : (pkeyLose s k).inv := by
  refine ite_inv h ?_
  refine ite_inv ?_ (pkeyShow_inv (with_pkeys_inv h))
  refine each_inv ?_ fun _ _ h => ?_
  · refine ite_inv ?_ (setEnc_inv (setEnc_inv (pkeyShow_inv (with_pkeys_inv h))))
    exact msix_inv (wr_inv (setEnc_inv (setEnc_inv (pkeyShow_inv (with_pkeys_inv h)))) (by decide))
  · exact pathEventNext_inv (refreshPath_inv (emit_inv (set_inv (setRpl_inv h) (by decide))))

theorem ikeyLose_inv {b set_ : Nat} (h : s.inv) : (ikeyLose s b set_).inv := ite_inv h (ikeyShow_inv (clr_inv (with_ikeys_inv h) (by decide)))
theorem sessClose_inv (h : s.inv) : (sessClose s).inv := clr_inv (with_klk_inv h) (by decide)

theorem zeroise_inv (h : s.inv) : (zeroise s).inv := by
  have hraise : (if s.holdsKey && !s.on .RND_STAT_ERROR 0 then s.raise 1056 msgSECURITY 0 else s).inv := ite_inv (raise_inv h) h
  have hkeys (l : List Nat) {s : State} (h : s.inv) : (s.each l pkeyLose).inv := each_inv h fun _ _ h => pkeyLose_inv h
  have hides (l : List Nat) {s : State} (h : s.inv) : (s.each l fun s b => ikeyLose (ikeyLose s b 0) b 1).inv := each_inv h fun _ _ h => ikeyLose_inv
      (ikeyLose_inv h)
  exact incSat_inv (with_spdm_inv (sessClose_inv (hides _ (hkeys _ hraise)))) (by decide)

theorem rindFail_inv (h : s.inv) : (rindFail s).inv := by
  have hz : (zeroise ((s.set .RND_STAT_ERROR 0).raiseCause 1056 msgSECURITY 0)).inv := zeroise_inv (raiseCause_inv (set_inv h (by decide)))
  unfold rindFail
  dsimp only
  generalize zeroise ((s.set .RND_STAT_ERROR 0).raiseCause 1056 msgSECURITY 0) = u at hz ⊢
  exact ite_inv (imageFail_inv (apprShow_inv hz)) (apprShow_inv hz)

theorem rndOpen_inv {input : List Byte} {ok : Bool} (h : s.inv) : (rndOpen s input ok).2.inv := by
  refine ite_snd_inv (nonceNew_inv h) ?_
  refine ite_snd_inv (nonceNew_inv h) ?_
  exact setWins_inv (winClear_inv (wr_inv (set_inv (with_klk_inv (freshBytes_inv (freshBytes_inv (nonceNew_inv h)))) (by decide)) (by decide)))

theorem rndLoadpk_inv {k : Nat} {plain : Option (List Byte)} (h : s.inv) : (rndLoadpk s k plain).2.inv := by
  unfold rndLoadpk
  split
  · exact h
  · exact ite_snd_inv h (ite_snd_inv h (ite_snd_inv h (pkeyShow_inv (with_pkeys_inv h))))

theorem rndGenpk_inv {k : Nat} (h : s.inv) : (rndGenpk s k).2.inv := ite_snd_inv h (pkeyShow_inv (with_pkeys_inv (freshNat_inv h)))

theorem rndLoadide_inv {b arg1 : Nat} {plain : Option (List Byte)} (h : s.inv) : (rndLoadide s b arg1 plain).2.inv := by
  unfold rndLoadide
  refine ite_snd_inv h ?_
  split
  · exact h
  · exact ite_snd_inv h (ite_snd_inv h (ikeyShow_inv (clr_inv (set_inv (with_ikeys_inv h) (by decide)) (by decide))))

theorem rndClearkey_inv {i arg1 : Nat} (h : s.inv) : (rndClearkey s i arg1).2.inv :=
  ite_snd_inv h (ite_inv (pkeyLose_inv (ite_inv (raise_inv h) h)) (ikeyLose_inv (ite_inv (raise_inv h) h)))

theorem rndAdvsvn_inv {v : Nat} (h : s.inv) : (rndAdvsvn s v).2.inv := by
  unfold rndAdvsvn
  refine ite_snd_inv h ?_
  refine ite_snd_inv h ?_
  dsimp only
  split
  · refine ite_snd_inv ?_ (wr_inv h (by decide))
    exact ite_inv (with_bankA_inv (clr_inv (wr_inv h (by decide)) (by decide))) (with_bankB_inv (clr_inv (wr_inv h (by decide)) (by decide)))
  · exact wr_inv h (by decide)

theorem rndEnroll_inv {slot : Nat} {input : List Byte} (h : s.inv) : (rndEnroll s slot input).2.inv :=
  ite_snd_inv h (ite_snd_inv h (wrBit_inv (with_opHash_inv h) (by decide)))

theorem rndRevoke_inv {slot : Nat} (h : s.inv) : (rndRevoke s slot).2.inv := ite_snd_inv h (ite_snd_inv h (ite_snd_inv h (wrBit_inv h (by decide))))

theorem rndUnlock_inv {t : List Byte} {ok : Bool} (h : s.inv) : (rndUnlock s t ok).2.inv := by
  have hz : (zeroise (nonceNew s)).inv := zeroise_inv (nonceNew_inv h)
  unfold rndUnlock
  generalize zeroise (nonceNew s) = u at hz ⊢
  exact ite_snd_inv (raise_inv (apprShow_inv (set_inv (wr_inv hz (by decide)) (by decide)))) (nonceNew_inv h)

theorem rndDecommission_inv {arg0 : Nat} (h : s.inv) : (rndDecommission s arg0).2.inv := ite_snd_inv (zeroise_inv (set_inv h (by decide))) h

theorem rndDo_inv {j : RindJob} (h : s.inv) : (rndDo s j).2.inv := by
  unfold rndDo
  refine ite_snd_inv h ?_
  refine ite_snd_inv h ?_
  split
  · exact nonceNew_inv h
  · exact rndOpen_inv h
  · exact sessClose_inv h
  · exact rndLoadpk_inv h
  · exact rndGenpk_inv h
  · exact rndLoadide_inv h
  · exact rndClearkey_inv h
  · exact zeroise_inv h
  · exact rndAdvsvn_inv h
  · exact rndEnroll_inv h
  · exact rndRevoke_inv h
  · exact rndUnlock_inv h
  · exact rndDecommission_inv h
  · exact h

theorem rndFinish_inv {j : RindJob} (h : s.inv) : (rndFinish s j).inv := winClear_inv (wr_inv (with_rjob_inv (rndDo_inv h)) (by decide))

theorem rndStart_inv {cmd arg0 arg1 : Nat} {ok : Bool} {plain : List Byte} (h : s.inv) : (rndStart s cmd arg0 arg1 ok plain).inv := by
  refine ite_inv (set_inv h (by decide)) ?_
  exact ite_inv h (ite_inv (rndFinish_inv h) (ite_inv (set_inv (wr_inv (with_rjob_inv h) (by decide)) (by decide)) (wr_inv (with_rjob_inv h) (by decide))))

theorem rndWrite_inv {cmd arg0 arg1 : Nat} {ok : Bool} {plain : List Byte} (h : s.inv) : outInv (rndWrite s cmd arg0 arg1 ok plain) :=
  live_inv h fun _ h => gate_inv (fun _ h => rndStart_inv h) h

theorem execNonce_inv (h : s.inv) : outInv (execNonce s) := rndWrite_inv h
theorem execRndOpen_inv {ok : Bool} (h : s.inv) : outInv (execRndOpen ok s) := rndWrite_inv h
theorem execClose_inv (h : s.inv) : outInv (execClose s) := rndWrite_inv h
theorem execLoadpk_inv {punnet : Byte} {plain : Option (List Byte)} (h : s.inv) : outInv (execLoadpk punnet plain s) := rndWrite_inv h
theorem execGenpk_inv {punnet : Byte} (h : s.inv) : outInv (execGenpk punnet s) := rndWrite_inv h
theorem execLoadide_inv {binding arg1 : Byte} {plain : Option (List Byte)} (h : s.inv) : outInv (execLoadide binding arg1 plain s) := rndWrite_inv h
theorem execClearkey_inv {index arg1 : Byte} (h : s.inv) : outInv (execClearkey index arg1 s) := rndWrite_inv h
theorem execZeroise_inv (h : s.inv) : outInv (execZeroise s) := rndWrite_inv h
theorem execAdvsvn_inv {counter : Byte} (h : s.inv) : outInv (execAdvsvn counter s) := rndWrite_inv h
theorem execEnroll_inv {slot : Byte} (h : s.inv) : outInv (execEnroll slot s) := rndWrite_inv h
theorem execRevoke_inv {slot : Byte} (h : s.inv) : outInv (execRevoke slot s) := rndWrite_inv h
theorem execSelftest_inv (h : s.inv) : outInv (execSelftest s) := rndWrite_inv h
theorem execDbgunlock_inv {ok : Bool} (h : s.inv) : outInv (execDbgunlock ok s) := rndWrite_inv h
theorem execDecommission_inv {arg0 : Byte} (h : s.inv) : outInv (execDecommission arg0 s) := rndWrite_inv h

theorem execRindCommandDone_inv (h : s.inv) : outInv (execRindCommandDone s) := by
  unfold execRindCommandDone
  refine live_inv h fun _ h => ?_
  split
  · exact ite_inv h (rndFinish_inv h)
  · exact h

theorem execRindSelftestDone_inv {ok : Bool} (h : s.inv) : outInv (execRindSelftestDone ok s) := by
  unfold execRindSelftestDone
  refine live_inv h fun _ h => ?_
  refine ite_inv ?_ (ite_inv (rindFail_inv h) h)
  extract_lets s1 s2
  have hs1 : s1.inv := clr_inv h (by decide)
  have hs2 : s2.inv := ite_inv (apprShow_inv (nonceNew_inv hs1)) (rindFail_inv hs1)
  clear_value *
  split
  · exact ite_inv (rndFinish_inv hs2) hs2
  · exact hs2

theorem execTapInstruction_inv {i : TapIr} (h : s.inv) : outInv (execTapInstruction i s) :=
  live_inv h fun _ h => ite_inv (emit_inv (wr_inv h (by decide))) (emit_inv (raise_inv (wr_inv h (by decide))))

theorem execTapDbgauth_inv {token : List Byte} {ok : Bool} (h : s.inv) : outInv (execTapDbgauth token ok s) :=
  live_inv h fun _ h => ite_inv h (ite_inv (emit_inv h) (ite_inv (emit_inv h) (emit_inv (rndUnlock_inv h))))

end Sys2Proof.Machine
end

section
/-! The invariant under the operations of Machine/F5: the MRN-5104 profile. -/
namespace Sys2Proof.Machine

variable {s : State}

theorem f5Words_inv {g : Nat} (h : s.inv) : (f5Words s g).inv := drop_inv h

theorem f5Change_inv {g : Nat} {en : Bool} (h : s.inv) : (f5Change s g en).inv := by
  refine groveReset_inv ?_
  refine ite_inv ?_ ?_
  · refine each_inv ?_ fun _ _ h => clr_inv h (by decide)
    exact each_inv (f5Words_inv (wrBit_inv (wrBit_inv h (by decide)) (by decide))) fun _ _ h => clr_inv h (by decide)
  · exact f5Words_inv (wrBit_inv (wrBit_inv h (by decide)) (by decide))

theorem f5CtlSet_inv {v : Nat} (h : s.inv) : (f5CtlSet s v).inv := by
  refine each_inv ?_ fun _ _ h => ite_inv h (ite_inv (f5Change_inv h) (set_inv h (by decide)))
  exact each_inv (wr_inv h (by decide)) fun _ _ h => ite_inv (each_inv h (fun _ _ h => ite_inv (capOff_inv h) h)) h

theorem execF5CtlWrite_inv {r : Route} {v : DW} (h : s.inv) : outInv (execF5CtlWrite r v s) := live_inv h fun _ h => gate_inv (fun _ h => f5CtlSet_inv h) h

theorem f5Store_inv {n : Nat} {w : F5Word} (h : s.inv) : (f5Store s n w).inv := by
  refine wr_inv ?_ (by decide)
  refine wr_inv ?_ (by decide)
  exact wr_inv (wr_inv (wr_inv (wr_inv (wr_inv (wr_inv (wr_inv h (by decide)) (by decide)) (by decide)) (by decide)) (by decide)) (by decide)) (by decide)

theorem f5Link_inv {n : Nat} {w : F5Word} (h : s.inv) : (f5Link s n w).inv :=
  each_inv (linkCfgSet_inv (each_inv h (fun _ _ h => clr_inv h (by decide)))) fun _ _ h => linkCfgSet_inv h

theorem f5Rate_inv {n : Nat} {w : F5Word} (h : s.inv) : (f5Rate s n w).inv := by
  unfold f5Rate
  refine ite_inv h ?_
  split
  · exact rawRateSet_inv h
  · exact lnkEthSet_inv h
  · exact lnkPciSet_inv h

theorem f5Gen_inv {p pat : Nat} (h : s.inv) : (f5Gen s p pat).inv := each_inv (pathSrcSet_inv h) fun _ _ h => pathPatSet_inv h

theorem f5ModeSet_inv {n v : Nat} (h : s.inv) : (f5ModeSet s n v).inv := by
  unfold f5ModeSet
  refine ite_inv h ?_
  refine ite_inv (wr_inv h (by decide)) ?_
  extract_lets _ x x1
  have hx : x.inv := ite_inv (f5Rate_inv (f5Link_inv h)) h
  have hx1 : x1.inv := ite_inv (f5Gen_inv hx) hx
  exact ite_inv (wr_inv h (by decide)) (wr_inv (wr_inv (f5Store_inv (chgHost_inv (ite_inv (f5Gen_inv hx1) hx1))) (by decide)) (by decide))

theorem execF5ModeWrite_inv {r : Route} {g j : Fin 16} {v : DW} (h : s.inv) : outInv (execF5ModeWrite r g j v s) :=
  live_inv h fun _ h => gate_inv (fun _ h => f5ModeSet_inv h) h

end Sys2Proof.Machine
end

section
/-! The invariant under the operations of Machine/Boot: bring-up and firmware. -/
namespace Sys2Proof.Machine

variable {s : State}

theorem execReadoutReady_inv (h : s.inv) : outInv (execReadoutReady s) := live_inv h fun _ h => ite_inv (set_inv h (by decide)) h
theorem setBank_inv {b : Bool} {i : Option FwImage} (h : s.inv) : (s.setBank b i).inv := ite_inv (with_bankB_inv h) (with_bankA_inv h)

theorem loadAppend_inv {r : Route} {idle : Bool} {bytes : List Byte} (h : s.inv) : (loadAppend s r idle bytes).inv := by
  unfold loadAppend
  refine ite_inv h ?_
  refine set_inv ?_ (by decide)
  refine wr_inv ?_ (by decide)
  split
  · exact with_fwLoad_inv h
  · exact ite_inv (setBank_inv (clr_inv (with_fwLoad_inv h) (by decide))) (setDev_inv (with_fwLoad_inv h) (by decide))

theorem mbxFail_inv {code : Nat} (h : s.inv) : (mbxFail s code).inv := set_inv (wr_inv h (by decide)) (by decide)

theorem mbxGo_inv (h : s.inv) : (mbxGo s).inv :=
  ite_inv (clr_inv h (by decide)) (ite_inv (mbxFail_inv h) (ite_inv h (ite_inv (mbxFail_inv h) (loadAppend_inv (clr_inv h (by decide))))))

theorem loadDone_inv {r : Route} {idle : Bool} (h : s.inv) : (loadDone s r idle).inv := by
  unfold loadDone
  refine ite_inv (mbxFail_inv h) ?_
  refine ite_inv h ?_
  refine set_inv ?_ (by decide)
  refine set_inv ?_ (by decide)
  split
  · exact h
  · exact with_fwLoad_inv h

theorem fwMbxCtl_inv {v : Nat} (h : s.inv) : (fwMbxCtl s v).inv := by
  unfold fwMbxCtl
  extract_lets s1 s2 s3
  have hs1 : s1.inv := ite_inv (wr_inv h (by decide)) h
  have hs2 : s2.inv := ite_inv (loadAbort_inv hs1) hs1
  have hs3 : s3.inv := ite_inv (mbxGo_inv hs2) hs2
  exact ite_inv (loadDone_inv hs3) hs3

theorem execFwMbxGo_inv {r : Route} {target : Fin 4} (h : s.inv) : outInv (execFwMbxGo r target s) := live_inv h fun _ h => gate_inv (fun _ h => fwMbxCtl_inv h) h

theorem execFwMbxAbort_inv {r : Route} {target : Fin 4} (h : s.inv) : outInv (execFwMbxAbort r target s) := live_inv h fun _ h => gate_inv
    (fun _ h => fwMbxCtl_inv h) h

theorem execFwMbxDone_inv {r : Route} {target : Fin 4} (h : s.inv) : outInv (execFwMbxDone r target s) := live_inv h fun _ h => gate_inv
    (fun _ h => fwMbxCtl_inv h) h

theorem fwUp_inv (h : s.inv) : (fwUp s).inv := serveUnknown_inv (ite_inv (emit_inv (clr_inv (fwShow_inv h) (by decide))) (fwShow_inv h))
theorem domsOff_inv {ds : List Nat} (h : s.inv) : (domsOff s ds).inv := each_inv h fun _ _ h => wrBit_inv h (by decide)
theorem quadMarks_inv (h : s.inv) : (quadMarks s).inv := each_inv h fun _ _ h => ite_inv h (raiseCause_inv (markFailed_inv h))

theorem bootStart_inv {i : FwImage} (h : s.inv) : (bootStart s i).inv := by
  refine repTidy_inv ?_
  refine repApply_inv ?_
  refine repApply_inv ?_
  refine repCheck_inv ?_
  refine calRestoreAll_inv ?_
  refine quadMarks_inv ?_
  refine fwUp_inv ?_
  refine wr_inv ?_ (by decide)
  exact clr_inv (domsOn_inv (setDev_inv (apprShow_inv (wrB_inv (clr_inv (with_bankA_inv h) (by decide)) (by decide))) (by decide))) (by decide)

theorem execImageCheckDone_inv {key : KeyVerdict} {keyid sig hash : Bool} (h : s.inv) : outInv (execImageCheckDone key keyid sig hash s) := by
  unfold execImageCheckDone
  refine live_inv h fun _ h => ?_
  split
  · exact h
  · refine ite_inv h ?_
    refine ite_inv (imageFail_inv h) ?_
    extract_lets _ _ s3
    have hs3 : s3.inv := by
      exact alert_inv (clr_inv (set_inv (clr_inv (clr_inv (clr_inv (with_fwLoad_inv h) (by decide)) (by decide)) (by decide)) (by decide)) (by decide))
    exact ite_inv (msix_inv (set_inv (setBank_inv hs3) (by decide))) (bootStart_inv hs3)

theorem testTsv_inv {t c lane : Nat} (h : s.inv) : (testTsv s t c lane).2.inv := by
  unfold testTsv
  split
  · exact repQueueNvm_inv (spareRecount_inv (with_reps_inv h))
  · exact h

theorem testRow_inv {k : RowKey} {bad : Nat} (h : s.inv) : (testRow s k bad).2.inv := by
  unfold testRow
  split
  · exact repQueueNvm_inv (spareRecount_inv (with_reps_inv h))
  · exact h

theorem testLost_inv {t c : Nat} (h : s.inv) : (testLost s t c).2.inv := ite_snd_inv h (ite_snd_inv (repAppend_inv (wr_inv (set_inv h (by decide)) (by decide))) h)

theorem testStep_inv {acc : Bool × State} {t c : Nat} {fix : State → Bool × State} (h : acc.2.inv) (hf : ∀ s, s.inv → (fix s).2.inv) :
    (testStep acc t c fix).2.inv :=
  ite_snd_inv h (ite_snd_inv (hf _ h) (testLost_inv (hf _ h)))

theorem selfTest_inv {tsvs : List (Fin 2 × Fin 16 × Fin 160)} {words : List (BitVec 38 × Fin 5)} (h : s.inv) : (selfTest s tsvs words).2.inv :=
  foldl_snd_inv (foldl_snd_inv h (fun _ _ h => testStep_inv h fun _ h => testTsv_inv h)) fun _ _ h => testStep_inv h fun _ h => testRow_inv h

theorem towerActive_inv {t : Nat} (h : s.inv) : (towerActive s t).inv := each_inv (wr_inv h (by decide)) fun _ _ h => wr_inv h (by decide)
theorem initServe_inv (h : s.inv) : (initServe s).inv := setDev_inv (wr_inv h (by decide)) (by decide)

theorem execInitStepDone_inv {tsvs : List (Fin 2 × Fin 16 × Fin 160)} {words : List (BitVec 38 × Fin 5)} (h : s.inv) : outInv (execInitStepDone tsvs words s) := by
  unfold execInitStepDone
  refine live_inv h fun _ h => ?_
  refine ite_inv h ?_
  dsimp only
  split
  · refine ite_inv ?_ ?_
    · exact initServe_inv (each_inv h (fun _ _ h => ite_inv h (towerActive_inv h)))
    · exact wr_inv (each_inv h (fun _ _ h => ite_inv h (towerActive_inv h))) (by decide)
  · exact ite_inv (enterHold_inv (foldl_inv (selfTest_inv h) (fun _ _ h => towerLost_inv h))) (wr_inv (selfTest_inv h) (by decide))
  · exact initServe_inv (foldl_inv h (fun _ _ h => towerActive_inv (sweepSlabs_inv h)))
  · exact h

theorem devCmd_inv {ok : Bool} {f : State → State} (h : s.inv) (hf : ∀ s, s.inv → (f s).inv) : (devCmd s ok f).inv :=
  ite_inv h (ite_inv (hf _ h) (wr_inv h (by decide)))

theorem stateGates_inv {was : Nat → Bool} {busy : Nat} (h : s.inv) : (stateGates s was busy).inv := each_inv h fun _ _ h => wrBit_inv h (by decide)

theorem idleEnter_inv {busy : Nat} (h : s.inv) : (idleEnter s busy).inv :=
  ite_inv (wr_inv h (by decide)) (wr_inv (stateGates_inv (setDev_inv (drop_inv (domsOff_inv (towersDown_inv h))) (by decide))) (by decide))

theorem execEnterIdle_inv {r : Route} {busy : BitVec 39} (h : s.inv) : outInv (execEnterIdle r busy s) :=
  live_inv h fun _ h => gate_inv (fun _ h => devCmd_inv h fun _ h => idleEnter_inv h) h

theorem idleExit_inv {busy : Nat} (h : s.inv) : (idleExit s busy).inv := wr_inv (stateGates_inv (towersBack_inv (setDev_inv (domsOn_inv h) (by decide)))) (by decide)

theorem execExitIdle_inv {r : Route} {busy : BitVec 39} (h : s.inv) : outInv (execExitIdle r busy s) :=
  live_inv h fun _ h => gate_inv (fun _ h => devCmd_inv h fun _ h => idleExit_inv h) h

theorem standbyEnter_inv (h : s.inv) : (standbyEnter s).inv := by
  unfold standbyEnter
  extract_lets _ s2 s3 s4 _ s6 s7 s8 s9 s10 s11
  have hs3 : s3.inv := drop_inv (coreStop_inv (domsOff_inv (loadAbort_inv h)))
  have hs4 : s4.inv := each_inv hs3 fun _ _ h => endCause_inv h
  have hs6 : s6.inv := clr_inv (clr_inv (clr_inv (clr_inv (clr_inv (clr_inv hs4 (by decide)) (by decide)) (by decide)) (by decide)) (by decide)) (by decide)
  clear_value s6
  have hs7 : s7.inv := inv_of_stores (s := s6) hs6 rfl
  have hs9 : s9.inv := each_inv (winClear_inv (winClear_inv hs7)) fun _ _ h => each_inv (wr_inv h (by decide)) fun _ _ h => wr_inv h (by decide)
  have hs11 : s11.inv := each_inv (each_inv hs9 fun _ _ h => wr_inv h (by decide)) fun _ _ h => refreshPort_inv h
  exact wr_inv (set_inv (setDev_inv hs11 (by decide)) (by decide)) (by decide)

theorem execEnterStandby_inv {r : Route} (h : s.inv) : outInv (execEnterStandby r s) :=
  live_inv h fun _ h => gate_inv (fun _ h => devCmd_inv h fun _ h => standbyEnter_inv h) h

theorem wake_inv {hashOk : Bool} (h : s.inv) : (wake s hashOk).inv :=
  ite_inv (coreHashed_inv (setDev_inv (standbyLeave_inv (domsOn_inv h)) (by decide))) (setDev_inv (standbyLeave_inv (domsOn_inv h)) (by decide))

theorem execStandbyWake_inv {hashOk : Bool} (h : s.inv) : outInv (execStandbyWake hashOk s) := live_inv h fun _ h => ite_inv (wake_inv h) h
theorem hotBegin_inv (h : s.inv) : (hotBegin s).inv := wr_inv (with_hot_inv h) (by decide)

theorem execHotSwitch_inv {r : Route} (h : s.inv) : outInv (execHotSwitch r s) := live_inv h fun _ h => gate_inv
    (fun _ h => devCmd_inv h fun _ h => hotBegin_inv h) h

theorem execHotSwitchQuiescent_inv (h : s.inv) : outInv (execHotSwitchQuiescent s) :=
  live_inv h fun _ h => ite_inv (wr_inv (wrB_inv (with_hot_inv (coreStop_inv h)) (by decide)) (by decide)) h

theorem execHotSwitchTimeout_inv (h : s.inv) : outInv (execHotSwitchTimeout s) :=
  live_inv h fun _ h => ite_inv (wr_inv (wr_inv (with_hot_inv h) (by decide)) (by decide)) h

theorem execFwReady_inv (h : s.inv) : outInv (execFwReady s) := by
  unfold execFwReady
  refine live_inv h fun _ h => ?_
  refine ite_inv h ?_
  extract_lets s1 s2
  have hs1 : s1.inv := wr_inv h (by decide)
  have hs2 : s2.inv := ite_inv (clr_inv (wr_inv (with_hot_inv hs1) (by decide)) (by decide)) hs1
  exact repTidy_inv (fwUp_inv (ite_inv (wr_inv (clr_inv hs2 (by decide)) (by decide)) hs2))

theorem execSwitchBack_inv (h : s.inv) : outInv (execSwitchBack s) := live_inv h fun _ h => ite_inv (switchBack_inv h) h

end Sys2Proof.Machine
end

section
/-! The invariant under the operations of Machine/Bus: accesses by offset. -/
namespace Sys2Proof.Machine

variable {s : State}

theorem rcClear_inv {f : Fld} {i : Nat} (h : s.inv) (hfld : f ≠ .DEV_STATE_STATE) : (rcClear s f i).inv :=
  ite_inv (clr_inv (clr_inv h hfld) (by decide)) (clr_inv h hfld)

theorem regClear_inv {w : RegRow} {i : Nat} (h : s.inv) : (regClear s w i).inv := by
  refine foldl_inv h fun s e h => ?_
  split
  · next he => exact rcClear_inv h (acc_ne (by simpa using he) (by decide))
  · exact h

theorem keepHigh_inv {a v : Nat} (h : s.inv) : (keepHigh s a v).inv := with_hiLatch_inv h
theorem unlatch_inv {a cur : Nat} (h : s.inv) : (unlatch s a cur).2.inv := with_hiLatch_inv h

theorem readReg_inv {w : RegRow} {i a : Nat} (h : s.inv) : (readReg s w i a).2.inv := by
  unfold readReg
  dsimp only
  split
  · exact keepHigh_inv (regClear_inv (unlatch_inv h))
  · exact regClear_inv (unlatch_inv h)

theorem readMem_inv {g : Nat} {data : Bool} {w : Nat} {hi : Bool} {a : Nat} (h : s.inv) : (readMem s g data w hi a).2.inv :=
  ite_snd_inv (unlatch_inv h) (keepHigh_inv h)

theorem readDw_inv {a : Nat} (h : s.inv) : (readDw s a).2.inv := by
  unfold readDw
  split
  · exact h
  · exact h
  · split
    · exact readMem_inv h
    · split
      · exact readReg_inv h
      · exact h

theorem busDw_inv {r : Route} {a : Nat} (h : s.inv) : (busDw s r a).2.inv := ite_snd_inv (accessFail_inv h) (readDw_inv h)

theorem busRead_inv {r : Route} {a n : Nat} (h : s.inv) : (busRead s r a n).inv := by
  unfold busRead
  refine ite_inv h ?_
  refine ite_inv (emit_inv h) ?_
  refine ite_inv (accessFail_inv h) ?_
  refine each_inv h fun _ _ h => ?_
  dsimp only
  split
  · exact emit_inv (busDw_inv h)
  · exact busDw_inv h

theorem execPairLowRead_inv {r : Route} {a : BitVec 24} {n : Nat} (h : s.inv) : outInv (execPairLowRead r a n s) := live_inv h fun _ h => busRead_inv h
theorem execRcFieldRead_inv {r : Route} {a : BitVec 24} {n : Nat} (h : s.inv) : outInv (execRcFieldRead r a n s) := live_inv h fun _ h => busRead_inv h

/-- A register write reaches fields of the kinds RW and W1C alone, and DEV_STATE.STATE is neither. -/
theorem slotWrite_inv {i v : Nat} {e : Slot} (h : s.inv) : (slotWrite s i v e).inv := by
  unfold slotWrite
  dsimp only
  split
  · next he => exact wr_inv h (acc_ne he (by decide))
  · next he => exact w1c_inv h (acc_ne he (by decide))
  · exact h

theorem plainWrite_inv {w : RegRow} {i v : Nat} (h : s.inv) : (plainWrite s w i v).inv := foldl_inv h fun _ _ h => slotWrite_inv h

theorem clkDivSet_inv {v : Nat} (h : s.inv) : (clkDivSet s v).inv := ite_inv (wr_inv (ite_inv (wr_inv h (by decide)) h) (by decide))
    (ite_inv (wr_inv h (by decide)) h)

theorem clkVecSet_inv {f : Fld} {hi : Bool} {v : Nat} {ds : List Nat} (h : s.inv) (hfld : f ≠ .DEV_STATE_STATE) : (clkVecSet s f hi v ds).inv :=
  foldl_inv h fun _ _ h => ite_inv (wrBit_inv h hfld) h

theorem devCmdSet_inv {v : Nat} (h : s.inv) : (devCmdSet s v).inv := by
  unfold devCmdSet
  split
  · exact devCmd_inv h fun _ h => idleEnter_inv h
  · exact devCmd_inv h fun _ h => idleExit_inv h
  · exact devCmd_inv h fun _ h => standbyEnter_inv h
  · exact chipLike_inv h
  · exact devCmd_inv h fun _ h => hotBegin_inv h
  · exact h

theorem fwLenSet_inv {v : Nat} (h : s.inv) : (fwLenSet s v).inv := ite_inv h (wr_inv h (by decide))
theorem gsbSet_inv {k v : Nat} (h : s.inv) : (gsbSet s k v).inv := wr_inv (wr_inv (ite_inv (wr_inv h (by decide)) h) (by decide)) (by decide)
theorem filtSet_inv {k v : Nat} (h : s.inv) : (filtSet s k v).inv := wr_inv (wr_inv (wr_inv (wr_inv h (by decide)) (by decide)) (by decide)) (by decide)
theorem rndCmdSet_inv {v : Nat} (h : s.inv) : (rndCmdSet s v).inv := rndStart_inv (freshBytes_inv (freshNat_inv h))

theorem lowWrite_inv {base i v : Nat} (h : s.inv) : optInv (lowWrite s base i v) := by
  unfold lowWrite
  split
  · exact some_inv (devCmdSet_inv h)
  · exact some_inv (clkSelSet_inv h)
  · exact some_inv (clkDivSet_inv h)
  · exact some_inv (clkCmd_inv h)
  · exact some_inv (clkRunSet_inv h)
  · exact some_inv (clkRunSet_inv h)
  · exact some_inv (clkVecSet_inv h (by decide))
  · exact some_inv (clkVecSet_inv h (by decide))
  · exact some_inv (clkVecSet_inv h (by decide))
  · exact some_inv h
  · exact some_inv (fmCtlSet_inv h)
  · exact some_inv (pwrOffSet_inv h)
  · exact some_inv (pwrOffSet_inv h)
  · exact some_inv (rstCmd_inv h)
  · exact some_inv (fwMbxCtl_inv h)
  · exact some_inv (fwLenSet_inv h)
  · exact some_inv (ite_inv h (wr_inv h (by decide)))
  · exact some_inv (mbDoorbell_inv h)
  · exact some_inv (fltCtlSet_inv h)
  · exact some_inv (gstatSet_inv h)
  · exact some_inv (firstClear_inv h)
  · exact some_inv (fltInjSet_inv h)
  · exact some_inv (statClear_inv h)
  · exact some_inv (sevSet_inv h)
  · exact some_inv (thmCfgSet_inv h)
  · exact some_inv (mbDoorbell_inv h)
  · exact some_inv (cuCtlSet_inv h)
  · exact some_inv (cuCmd_inv h)
  · exact some_inv (cuFeed_inv h)
  · exact some_inv (cuFeed_inv h)
  · exact some_inv (cuFeed_inv h)
  · exact some_inv (cuValSet_inv h)
  · exact some_inv (cuValSet_inv h)
  · exact some_inv (cuExpSet_inv h)
  · exact some_inv (cuExpSet_inv h)
  · exact some_inv (cuPlace_inv h (by decide))
  · exact some_inv (cuStatSet_inv h)
  · exact some_inv (cuPlace_inv h (by decide))
  · exact some_inv (calCtlSet_inv h)
  · exact some_inv (calCmd_inv h)
  · exact some_inv (rndCmdSet_inv h)
  · exact some_inv (vinCtlSet_inv h)
  · exact some_inv (vinNodeSet_inv h)
  · exact some_inv (vinSendWrite_inv h)
  · exact some_inv (f5CtlSet_inv h)
  · exact some_inv (f5ModeSet_inv h)
  · exact none_inv

theorem groveWrite_inv {r : Route} {base i v : Nat} (h : s.inv) : optInv (groveWrite s r base i v) := by
  unfold groveWrite
  split
  · exact some_inv (linkCfgSet_inv h)
  · exact some_inv (pathModeSet_inv h)
  · exact some_inv (pathSrcSet_inv h)
  · exact some_inv (ltCfgSet_inv h)
  · exact some_inv (lnkPciSet_inv h)
  · exact some_inv (ltPciCfgSet_inv h)
  · exact some_inv (ltRingSet_inv h)
  · exact some_inv (ltRingSet_inv h)
  · exact some_inv (ltEthCfgSet_inv h)
  · exact some_inv (gsbSet_inv h)
  · exact some_inv (lnkEthSet_inv h)
  · exact some_inv (pathPatSet_inv h)
  · exact some_inv (rawRateSet_inv h)
  · exact some_inv (pathDlySet_inv h)
  · exact some_inv (seqCtlSet_inv h)
  · exact some_inv (regHalf_inv h)
  · exact some_inv (regHalf_inv h)
  · exact some_inv (matchCmd_inv h)
  · exact some_inv (filtSet_inv h)
  · exact some_inv (injCmd_inv h)
  · exact some_inv (xcvrCtlSet_inv h)
  · exact some_inv (orTxerr_inv h (firSet_inv h))
  · exact some_inv (orTxerr_inv h (lvlSet_inv h))
  · exact some_inv (orTxerr_inv h (clkSet_inv h))
  · exact some_inv (orTxerr_inv h (ppmSet_inv h))
  · exact some_inv (qualCtlSet_inv h)
  · exact none_inv

theorem highWrite_inv {w : RegRow} {i v : Nat} (h : s.inv) : optInv (highWrite s w i v) := by
  unfold highWrite
  split
  · exact some_inv (twrClr_inv h)
  · exact some_inv (rfmSet_inv h)
  · exact some_inv (chCmd_inv h)
  · exact some_inv (dlrCfgSet_inv h)
  · exact some_inv (scrCfgSet_inv h)
  · exact some_inv (logAck_inv h)
  · exact some_inv (repCmd_inv h)
  · exact some_inv (tstCmd_inv h)
  · exact some_inv (prsPlimSet_inv h)
  · exact some_inv (strmCfgSet_inv h)
  · exact some_inv (strmCmd_inv h)
  · exact some_inv (punCfgSet_inv h)
  · exact some_inv (punIfOff_inv h (fun _ h => plainWrite_inv h))
  · exact some_inv (punIfOff_inv h (fun _ h => plainWrite_inv h))
  · exact some_inv (punIfOff_inv h (fun _ h => plainWrite_inv h))
  · exact some_inv (punCmd_inv h)
  · exact some_inv (rplCfgSet_inv h)
  · exact some_inv (tlSet_inv h)
  · exact some_inv (tlClr_inv h)
  · exact some_inv (hvCtlSet_inv h)
  · exact some_inv (hvBaseSet_inv h)
  · exact some_inv (hvBaseSet_inv h)
  · exact some_inv (hvSizeSet_inv h)
  · exact some_inv (hvProdSet_inv h)
  · exact none_inv

theorem writeReg_inv {r : Route} {w : RegRow} {i v : Nat} (h : s.inv) : (writeReg s r w i v).inv :=
  getD_inv (ite_opt_inv (lowWrite_inv h) (ite_opt_inv (groveWrite_inv h) (highWrite_inv h))) (plainWrite_inv h)

theorem msixWrite_inv {a v : Nat} (h : s.inv) : (msixWrite s a v).inv := ite_inv (msixSend_inv (setWin_inv h)) (setWins_inv h)

theorem writeDw_inv {r : Route} {a v : Nat} (h : s.inv) : (writeDw s r a v).inv := by
  unfold writeDw
  split
  · exact h
  · exact msixWrite_inv h
  · exact ite_inv h (setWins_inv h)
  · split
    · exact memHalf_inv h
    · split
      · exact writeReg_inv h
      · exact h

theorem busWriteDw_inv {r : Route} {a v : Nat} (h : s.inv) : (busWriteDw s r a v).inv := ite_inv (accessFail_inv h) (ite_inv (set_inv h (by decide)) (writeDw_inv h))
theorem busWrite_inv {r : Route} {a : Nat} {vs : List Nat} (h : s.inv) : (busWrite s r a vs).inv := each_inv h fun _ _ h => busWriteDw_inv h

theorem execRegisterWrite_inv {r : Route} {a : BitVec 24} {vs : List DW} {whole : Bool} (h : s.inv) : outInv (execRegisterWrite r a vs whole s) :=
  live_inv h fun _ h => ite_inv (xpNote_inv h (by decide)) (busWrite_inv h)

end Sys2Proof.Machine
end

section
/-! The invariant under the operations of Machine/TwoWire: the two-wire bus. -/
namespace Sys2Proof.Machine

variable {s : State}

theorem busyNak_inv (h : s.inv) : (busyNak s).inv := emit_inv (incSat_inv h (by decide))

theorem twXfer_inv {a : BitVec 7} {cmd : Nat} {f : State → State} (h : s.inv) (hf : ∀ s, s.inv → (f s).inv) : outInv (twXfer s a cmd f) := by
  unfold twXfer
  refine ite_out_inv (next_inv (start_inv h)) ?_
  refine ite_out_inv (next_inv (emit_inv (start_inv h))) ?_
  refine ite_out_inv (next_inv (busyNak_inv (start_inv h))) ?_
  refine ite_out_inv (next_inv (busyNak_inv (with_freeCtr_inv (start_inv h)))) ?_
  extract_lets _ s1
  have hs1 : s1.inv := ite_inv (with_freeCtr_inv (clr_inv (start_inv h) (by decide))) (start_inv h)
  exact ite_out_inv (next_inv (emit_inv hs1)) (next_inv (hf _ hs1))

theorem twWrite_inv {l : List Byte} {pec : Bool} {e : TwEnd} {f : State → State} (h : s.inv) (hf : ∀ s, s.inv → (f s).inv) : (twWrite s l pec e f).inv := by
  unfold twWrite
  split
  · exact set_inv h (by decide)
  · exact emit_inv h
  · exact ite_inv (set_inv h (by decide)) (hf _ h)
  · exact ite_inv (emit_inv h) (ite_inv (hf _ h) (emit_inv (set_inv h (by decide))))

theorem twRead_inv {l form : List Byte} {pec : Bool} {n : Nat} (h : s.inv) : (twRead s l form pec n).inv := emit_inv (ite_inv h (set_inv h (by decide)))

theorem twGet_inv {a : BitVec 7} {cmd : Nat} {form : List Byte} {extra : Bool} {n : Nat} (h : s.inv) : (twGet s a cmd form extra n).inv :=
  ite_inv (emit_inv h) (twRead_inv h)

theorem execTwIdent_inv {a : BitVec 7} {extra : Bool} {n : Nat} (h : s.inv) : outInv (execTwIdent a extra n s) := twXfer_inv h fun _ h => twGet_inv h
theorem execTwState_inv {a : BitVec 7} {extra : Bool} {n : Nat} (h : s.inv) : outInv (execTwState a extra n s) := twXfer_inv h fun _ h => twGet_inv h
theorem execEventsum_inv {a : BitVec 7} {extra : Bool} {n : Nat} (h : s.inv) : outInv (execEventsum a extra n s) := twXfer_inv h fun _ h => twGet_inv h

theorem regrdGo_inv {late k a : Nat} (h : s.inv) : (regrdGo late k a s).2.inv := by
  induction k generalizing late a s with
  | zero => exact h
  | succ k ih => exact ih (ite_snd_inv (set_inv (busDw_inv h) (by decide)) (busDw_inv h))

theorem regrdServe_inv {a : BitVec 7} {ofs len late n : Nat} (h : s.inv) : (regrdServe s a ofs len late n).inv := ite_inv (busyNak_inv h)
    (twRead_inv (regrdGo_inv h))

theorem execRegrd_inv {a : BitVec 7} {count : Byte} {ofs : BitVec 32} {len : Byte} {e : TwEnd} {late n : Nat} (h : s.inv) : outInv
    (execRegrd a count ofs len e late n s) :=
  twXfer_inv h fun _ h => ite_inv (emit_inv h) (ite_inv (emit_inv h) (ite_inv (emit_inv (set_inv h (by decide))) (twWrite_inv h (fun _ h => regrdServe_inv h))))

theorem regwrDo_inv {l : List Byte} (h : s.inv) : (regwrDo s l).inv := ite_inv h (busWrite_inv h)

theorem execRegwr_inv {a : BitVec 7} {block : List Byte} {e : TwEnd} (h : s.inv) : outInv (execRegwr a block e s) :=
  twXfer_inv h fun _ h => ite_inv (emit_inv h) (twWrite_inv h (fun _ h => regwrDo_inv h))

theorem execFwchunk_inv {a : BitVec 7} {data : List Byte} {e : TwEnd} (h : s.inv) : outInv (execFwchunk a data e s) :=
  twXfer_inv h fun _ h => ite_inv (emit_inv h) (twWrite_inv h (fun _ h => ite_inv (loadAppend_inv h) h))

theorem execFwdone_inv {a : BitVec 7} {e : TwEnd} (h : s.inv) : outInv (execFwdone a e s) := twXfer_inv h fun _ h => twWrite_inv h fun _ h => loadDone_inv h

theorem execAlertcfg_inv {a : BitVec 7} {b0 b1 : Byte} {e : TwEnd} (h : s.inv) : outInv (execAlertcfg a b0 b1 e s) :=
  twXfer_inv h fun _ h => ite_inv (emit_inv h) (twWrite_inv h (fun _ h => wr_inv (wr_inv (wr_inv h (by decide)) (by decide)) (by decide)))

theorem execBuscfg_inv {a : BitVec 7} {b0 b1 b2 b3 : Byte} {e : TwEnd} (h : s.inv) : outInv (execBuscfg a b0 b1 b2 b3 e s) := by
  refine twXfer_inv h fun _ h => ?_
  refine ite_inv (emit_inv h) ?_
  refine twWrite_inv h fun _ h => ?_
  exact wr_inv (wr_inv (wr_inv (wr_inv (wr_inv (wr_inv h (by decide)) (by decide)) (by decide)) (by decide)) (by decide)) (by decide)

theorem execTwConfigWrite_inv {r : Route} {reg : Fin 5} {v : DW} (h : s.inv) : outInv (execTwConfigWrite r reg v s) := live_inv h fun _ h => busWriteDw_inv h
theorem twEvent_inv {kind : Nat} (h : s.inv) : (twEvent s kind).inv := raise_inv h
theorem execTwRepeatedStartAbort_inv (h : s.inv) : outInv (execTwRepeatedStartAbort s) := aonLive_inv h fun _ h => ite_inv h (twEvent_inv (set_inv h (by decide)))

theorem tryCount_inv {f : Fld} {gone : State → State} (h : s.inv) (hf : ∀ s, s.inv → (gone s).inv) (hfld : f ≠ .DEV_STATE_STATE) : (tryCount s f gone).inv :=
  ite_inv (twEvent_inv (hf _ (clr_inv h hfld))) (incWrap_inv h hfld)

theorem alertMiss_inv (h : s.inv) : (alertMiss s).inv := tryCount_inv h (fun _ h => set_inv (clr_inv h (by decide)) (by decide)) (by decide)
theorem mctpMiss_inv (h : s.inv) : (mctpMiss s).inv := tryCount_inv h (fun _ h => set_inv (with_mctpq_inv h) (by decide)) (by decide)
theorem alertBytes_inv (h : s.inv) : (alertBytes s).2.inv := ite_inv (freshNat_inv h) h

theorem alertTry_inv {o : TwTry} (h : s.inv) : (alertTry s o).inv := by
  unfold alertTry
  split
  · exact emit_inv (clr_inv (clr_inv (alertBytes_inv h) (by decide)) (by decide))
  · exact alertMiss_inv h
  · exact alertMiss_inv h

theorem execAlert_inv {o : TwTry} (h : s.inv) : outInv (execAlert o s) := aonLive_inv h fun _ h => ite_inv (alertTry_inv h) h

theorem mctpTry_inv {o : TwTry} (h : s.inv) : (mctpTry s o).inv := by
  unfold mctpTry
  split
  · exact h
  · exact with_mctpq_inv h
  · split
    · exact emit_inv (clr_inv (with_mctpq_inv h) (by decide))
    · exact mctpMiss_inv h
    · exact mctpMiss_inv h

theorem retryCount_inv {f : Fld} (h : s.inv) : (retryCount s f).inv := ite_inv h (incSat_inv h (by decide))

theorem execAlertRetry_inv {mctp : Bool} {o : TwTry} (h : s.inv) : outInv (execAlertRetry mctp o s) :=
  aonLive_inv h fun _ h => ite_inv (ite_inv h (mctpTry_inv (retryCount_inv h))) (ite_inv (alertTry_inv (retryCount_inv h)) h)

theorem execTwTimeout_inv {cut : Option Bool} (h : s.inv) : outInv (execTwTimeout cut s) := by
  unfold execTwTimeout
  refine aonLive_inv h fun _ h => ?_
  refine ite_inv ?_ h
  refine twEvent_inv ?_
  refine set_inv ?_ (by decide)
  split
  · exact ite_inv h (mctpMiss_inv (retryCount_inv h))
  · exact ite_inv (alertMiss_inv (retryCount_inv h)) h
  · exact h

theorem execMctpPacket_inv {a : BitVec 7} {block : List Byte} {room : Bool} {e : TwEnd} (h : s.inv) : outInv (execMctpPacket a block room e s) :=
  twXfer_inv h fun _ h => ite_inv (emit_inv h) (ite_inv (emit_inv h) (twWrite_inv h (fun _ h => ite_inv h (with_mctpin_inv h))))

end Sys2Proof.Machine
end

section
/-! The invariant under the operations of Machine/Dispatch: every command. -/
namespace Sys2Proof.Machine

variable {s : State}

theorem exec_inv {i : Instr} (h : s.inv) : outInv (exec i s) := by
  cases i with
  | por => exact execPor_inv h
  | pinReset => exact execPinReset_inv h
  | chipReset => exact execChipReset_inv h
  | refPresent => exact execRefPresent_inv h
  | refWaitEnd => exact execRefWaitEnd_inv h
  | cpllLock => exact execCpllLock_inv h
  | readoutReady => exact execReadoutReady_inv h
  | fwMbxGo => exact execFwMbxGo_inv h
  | fwMbxAbort => exact execFwMbxAbort_inv h
  | fwMbxDone => exact execFwMbxDone_inv h
  | imageCheckDone => exact execImageCheckDone_inv h
  | initStepDone => exact execInitStepDone_inv h
  | enterIdle => exact execEnterIdle_inv h
  | exitIdle => exact execExitIdle_inv h
  | enterStandby => exact execEnterStandby_inv h
  | standbyWake => exact execStandbyWake_inv h
  | hotSwitch => exact execHotSwitch_inv h
  | hotSwitchQuiescent => exact execHotSwitchQuiescent_inv h
  | hotSwitchTimeout => exact execHotSwitchTimeout_inv h
  | fwReady => exact execFwReady_inv h
  | switchBack => exact execSwitchBack_inv h
  | linkCfgWrite => exact execLinkCfgWrite_inv h
  | ltCfgWrite => exact execLtCfgWrite_inv h
  | pathModeWrite => exact execPathModeWrite_inv h
  | pathSrcWrite => exact execPathSrcWrite_inv h
  | modeSwitch => exact execModeSwitch_inv h
  | modeChangeTimeout => exact execModeChangeTimeout_inv h
  | modeFromDarkEffect => exact execModeFromDarkEffect_inv h
  | unitDecode => exact execUnitDecode_inv h
  | trainingOrderedSet => exact execTrainingOrderedSet_inv h
  | eqPresetRequest => exact execEqPresetRequest_inv h
  | eqPhaseDone => exact execEqPhaseDone_inv h
  | skpOrderedSet => exact execSkpOrderedSet_inv h
  | ebRecentre => exact execEbRecentre_inv h
  | marginCommand => exact execMarginCommand_inv h
  | marginTimeout => exact execMarginTimeout_inv h
  | linkPowerState => exact execLinkPowerState_inv h
  | gsbPerst => exact execGsbPerst_inv h
  | cxlNegotiation => exact execCxlNegotiation_inv h
  | lnkPciWrite => exact execLnkPciWrite_inv h
  | ltPciCfgWrite => exact execLtPciCfgWrite_inv h
  | ltRingWrite => exact execLtRingWrite_inv h
  | ltRxTlp => exact execLtRxTlp_inv h
  | ltTxDescriptor => exact execLtTxDescriptor_inv h
  | ltTlpAck => exact execLtTlpAck_inv h
  | ltFcInit => exact execLtFcInit_inv h
  | lnkEthWrite => exact execLnkEthWrite_inv h
  | anFailure => exact execAnFailure_inv h
  | segmentDataMode => exact execSegmentDataMode_inv h
  | segmentLoss => exact execSegmentLoss_inv h
  | ltEthRxFrame => exact execLtEthRxFrame_inv h
  | ltEthTxFrame => exact execLtEthTxFrame_inv h
  | ltEthCfgWrite => exact execLtEthCfgWrite_inv h
  | rawRateWrite => exact execRawRateWrite_inv h
  | pathPatWrite => exact execPathPatWrite_inv h
  | patternLock => exact execPatternLock_inv h
  | pathDlyWrite => exact execPathDlyWrite_inv h
  | delayChangeEffect => exact execDelayChangeEffect_inv h
  | signalDetectChange => exact execSignalDetectChange_inv h
  | cdrLock => exact execCdrLock_inv h
  | adaptationDone => exact execAdaptationDone_inv h
  | lossOfLock => exact execLossOfLock_inv h
  | txPpmWrite => exact execTxPpmWrite_inv h
  | txClkWrite => exact execTxClkWrite_inv h
  | sscSettingApply => exact execSscSettingApply_inv h
  | txFirWrite => exact execTxFirWrite_inv h
  | txLvlWrite => exact execTxLvlWrite_inv h
  | detreq => exact execDetreq_inv h
  | rxDetectDone => exact execRxDetectDone_inv h
  | qualWindowEnd => exact execQualWindowEnd_inv h
  | qualSnap => exact execQualSnap_inv h
  | calRunStart => exact execCalRunStart_inv h
  | calPassDone => exact execCalPassDone_inv h
  | calSwap => exact execCalSwap_inv h
  | calRequeue => exact execCalRequeue_inv h
  | calNoUnitTimeout => exact execCalNoUnitTimeout_inv h
  | writeback => exact execWriteback_inv h
  | writebackDone => exact execWritebackDone_inv h
  | recal => exact execRecal_inv h
  | foreground => exact execForeground_inv h
  | foregroundCalDone => exact execForegroundCalDone_inv h
  | trefFrame => exact execTrefFrame_inv h
  | trefEdgeLoss => exact execTrefEdgeLoss_inv h
  | epochSlewTick => exact execEpochSlewTick_inv h
  | tlSet => exact execTlSet_inv h
  | tlClr => exact execTlClr_inv h
  | tlPulseEnd => exact execTlPulseEnd_inv h
  | vinePortState => exact execVinePortState_inv h
  | vineEpochSend => exact execVineEpochSend_inv h
  | vineEpochFrame => exact execVineEpochFrame_inv h
  | epochFrameTimeout => exact execEpochFrameTimeout_inv h
  | vineDreqSend => exact execVineDreqSend_inv h
  | vineDreq => exact execVineDreq_inv h
  | vineDrsp => exact execVineDrsp_inv h
  | vineStatusSend => exact execVineStatusSend_inv h
  | vineStatusFrame i id hops valid miss => exact execVineStatusFrame_inv (_i := i) (_id := id) (_hops := hops) (_valid := valid) (_miss := miss) h
  | vinSend => exact execVinSend_inv h
  | vineTrigup => exact execVineTrigup_inv h
  | rootTriggerAdmit => exact execRootTriggerAdmit_inv h
  | vineTrig => exact execVineTrig_inv h
  | vineTriggerAct => exact execVineTriggerAct_inv h
  | vinCtlWrite => exact execVinCtlWrite_inv h
  | seqGo => exact execSeqGo_inv h
  | seqStop => exact execSeqStop_inv h
  | seqStep => exact execSeqStep_inv h
  | seqRegsWrite => exact execSeqRegsWrite_inv h
  | memLowHalfWrite => exact execMemLowHalfWrite_inv h
  | memHighHalfWrite => exact execMemHighHalfWrite_inv h
  | groveReset => exact execGroveReset_inv h
  | groveClearDone => exact execGroveClearDone_inv h
  | nop => exact execNop_inv h
  | halt => exact execHalt_inv h
  | yield => exact execYield_inv h
  | fence => exact execFence_inv h
  | add => exact execAdd_inv h
  | sub => exact execSub_inv h
  | and => exact execAnd_inv h
  | or => exact execOr_inv h
  | xor => exact execXor_inv h
  | shl => exact execShl_inv h
  | shr => exact execShr_inv h
  | mul => exact execMul_inv h
  | addi => exact execAddi_inv h
  | andi => exact execAndi_inv h
  | ori => exact execOri_inv h
  | ldi => exact execLdi_inv h
  | ldhi => exact execLdhi_inv h
  | ld => exact execLd_inv h
  | st => exact execSt_inv h
  | br => exact execBr_inv h
  | beq => exact execBeq_inv h
  | bne => exact execBne_inv h
  | blt => exact execBlt_inv h
  | bge => exact execBge_inv h
  | call => exact execCall_inv h
  | ret => exact execRet_inv h
  | loop => exact execLoop_inv h
  | wpos => exact execWpos_inv h
  | wepoch => exact execWepoch_inv h
  | rpos => exact execRpos_inv h
  | repoch => exact execRepoch_inv h
  | wany => exact execWany_inv h
  | wmatch => exact execWmatch_inv h
  | twait => exact execTwait_inv h
  | waitComplete => exact execWaitComplete_inv h
  | waitLimit => exact execWaitLimit_inv h
  | mode => exact execMode_inv h
  | trainRecovery => exact execTrainRecovery_inv h
  | trainHotReset => exact execTrainHotReset_inv h
  | trainDisable => exact execTrainDisable_inv h
  | trainRestart => exact execTrainRestart_inv h
  | rate => exact execRate_inv h
  | ratePpm => exact execRatePpm_inv h
  | eq => exact execEq_inv h
  | eqLvl => exact execEqLvl_inv h
  | arm => exact execArm_inv h
  | disarm => exact execDisarm_inv h
  | rmatch => exact execRmatch_inv h
  | capon => exact execCapon_inv h
  | capoff => exact execCapoff_inv h
  | capmark => exact execCapmark_inv h
  | capsel => exact execCapsel_inv h
  | filt => exact execFilt_inv h
  | inj => exact execInj_inv h
  | errb => exact execErrb_inv h
  | dly => exact execDly_inv h
  | skpadj => exact execSkpadj_inv h
  | tset => exact execTset_inv h
  | tclr => exact execTclr_inv h
  | vsend => exact execVsend_inv h
  | cntr => exact execCntr_inv h
  | evt => exact execEvt_inv h
  | evtG => exact execEvtG_inv h
  | matchCmdArm => exact execMatchCmdArm_inv h
  | matchCmdDisarm => exact execMatchCmdDisarm_inv h
  | captureSwitch => exact execCaptureSwitch_inv h
  | injEntryFire => exact execInjEntryFire_inv h
  | insertSearchExpire => exact execInsertSearchExpire_inv h
  | injCancel => exact execInjCancel_inv h
  | strmCfgWrite => exact execStrmCfgWrite_inv h
  | strmOn => exact execStrmOn_inv h
  | strmOff => exact execStrmOff_inv h
  | strmCmdTimeout => exact execStrmCmdTimeout_inv h
  | elideRunClose => exact execElideRunClose_inv h
  | admissionWindow => exact execAdmissionWindow_inv h
  | punCfgWrite => exact execPunCfgWrite_inv h
  | punTrig => exact execPunTrig_inv h
  | punRestart => exact execPunRestart_inv h
  | punFlush => exact execPunFlush_inv h
  | punnetLineTrigger => exact execPunnetLineTrigger_inv h
  | xtsUnitRewrite => exact execXtsUnitRewrite_inv h
  | rplCfgWrite => exact execRplCfgWrite_inv h
  | replaySend => exact execReplaySend_inv h
  | refreshCommand => exact execRefreshCommand_inv h
  | refreshManagement => exact execRefreshManagement_inv h
  | towerClear => exact execTowerClear_inv h
  | towerClearDone => exact execTowerClearDone_inv h
  | chReset => exact execChReset_inv h
  | chanResetDone => exact execChanResetDone_inv h
  | dlrCfgWrite => exact execDlrCfgWrite_inv h
  | burstRewrite => exact execBurstRewrite_inv h
  | scrubBurst => exact execScrubBurst_inv h
  | queuedSoftRepairStart => exact execQueuedSoftRepairStart_inv h
  | repSoft => exact execRepSoft_inv h
  | softRepairDone => exact execSoftRepairDone_inv h
  | nvmRepairAppend => exact execNvmRepairAppend_inv h
  | repHard => exact execRepHard_inv h
  | hardRepairDone => exact execHardRepairDone_inv h
  | repTsv => exact execRepTsv_inv h
  | tsvSwapDone => exact execTsvSwapDone_inv h
  | repRetire => exact execRepRetire_inv h
  | retireDone => exact execRetireDone_inv h
  | tstRead => exact execTstRead_inv h
  | tstReadraw => exact execTstReadraw_inv h
  | tstWrite => exact execTstWrite_inv h
  | tstWriteraw => exact execTstWriteraw_inv h
  | logFree => exact execLogFree_inv h
  | logFreeAll => exact execLogFreeAll_inv h
  | portReset => exact execPortReset_inv h
  | busMasterChange => exact execBusMasterChange_inv h
  | bar2Read => exact execBar2Read_inv h
  | bar2Write => exact execBar2Write_inv h
  | bar2Starve => exact execBar2Starve_inv h
  | hvProdWrite => exact execHvProdWrite_inv h
  | harvestRaw => exact execHarvestRaw_inv h
  | harvestRecords => exact execHarvestRecords_inv h
  | hvAbort => exact execHvAbort_inv h
  | hvEnable => exact execHvEnable_inv h
  | mbDoorbell => exact execMbDoorbell_inv h
  | twMbDoorbell => exact execTwMbDoorbell_inv h
  | getInfo => exact execGetInfo_inv h
  | getMeas => exact execGetMeas_inv h
  | getEvents => exact execGetEvents_inv h
  | nvmRead => exact execNvmRead_inv h
  | calWriteback => exact execCalWriteback_inv h
  | budget => exact execBudget_inv h
  | budgetAutoCheck => exact execBudgetAutoCheck_inv h
  | eventDrain => exact execEventDrain_inv h
  | kick => exact execKick_inv h
  | watchdogExpire => exact execWatchdogExpire_inv h
  | mgmtReset => exact execMgmtReset_inv h
  | setEndpointId => exact execSetEndpointId_inv h
  | getEndpointId => exact execGetEndpointId_inv h
  | getMctpVersionSupport => exact execGetMctpVersionSupport_inv h
  | getMessageTypeSupport => exact execGetMessageTypeSupport_inv h
  | getEndpointUuid => exact execGetEndpointUuid_inv h
  | getVersion => exact execGetVersion_inv h
  | getCapabilities => exact execGetCapabilities_inv h
  | negotiateAlgorithms => exact execNegotiateAlgorithms_inv h
  | getDigests => exact execGetDigests_inv h
  | getCertificate => exact execGetCertificate_inv h
  | challenge => exact execChallenge_inv h
  | getMeasurements => exact execGetMeasurements_inv h
  | keyExchange => exact execKeyExchange_inv h
  | finish => exact execFinish_inv h
  | heartbeat => exact execHeartbeat_inv h
  | keyUpdate => exact execKeyUpdate_inv h
  | endSession => exact execEndSession_inv h
  | twIdent => exact execTwIdent_inv h
  | twState => exact execTwState_inv h
  | eventsum => exact execEventsum_inv h
  | mctpPacket => exact execMctpPacket_inv h
  | regrd => exact execRegrd_inv h
  | regwr => exact execRegwr_inv h
  | fwchunk => exact execFwchunk_inv h
  | fwdone => exact execFwdone_inv h
  | alertcfg => exact execAlertcfg_inv h
  | buscfg => exact execBuscfg_inv h
  | twRepeatedStartAbort => exact execTwRepeatedStartAbort_inv h
  | twTimeout => exact execTwTimeout_inv h
  | alert => exact execAlert_inv h
  | alertRetry => exact execAlertRetry_inv h
  | twConfigWrite => exact execTwConfigWrite_inv h
  | nonce => exact execNonce_inv h
  | rndOpen => exact execRndOpen_inv h
  | close => exact execClose_inv h
  | loadpk => exact execLoadpk_inv h
  | genpk => exact execGenpk_inv h
  | loadide => exact execLoadide_inv h
  | clearkey => exact execClearkey_inv h
  | zeroise => exact execZeroise_inv h
  | advsvn => exact execAdvsvn_inv h
  | enroll => exact execEnroll_inv h
  | revoke => exact execRevoke_inv h
  | selftest => exact execSelftest_inv h
  | dbgunlock => exact execDbgunlock_inv h
  | decommission => exact execDecommission_inv h
  | tapDbgauth => exact execTapDbgauth_inv h
  | tapInstruction => exact execTapInstruction_inv h
  | rindSelftestDone => exact execRindSelftestDone_inv h
  | faultMessage => exact execFaultMessage_inv h
  | statusClear => exact execStatusClear_inv h
  | firstFaultClear => exact execFirstFaultClear_inv h
  | faultnClr => exact execFaultnClr_inv h
  | fltSevWrite => exact execFltSevWrite_inv h
  | fltInjArm => exact execFltInjArm_inv h
  | clockFailure => exact execClockFailure_inv h
  | clkRestart => exact execClkRestart_inv h
  | clockRestartDone => exact execClockRestartDone_inv h
  | clkSelWrite => exact execClkSelWrite_inv h
  | clockSwitchDone => exact execClockSwitchDone_inv h
  | clkRunWrite => exact execClkRunWrite_inv h
  | gateApply => exact execGateApply_inv h
  | gateForce => exact execGateForce_inv h
  | fmGo => exact execFmGo_inv h
  | fmDone => exact execFmDone_inv h
  | pdaPowerOn => exact execPdaPowerOn_inv h
  | pdaPowerOff => exact execPdaPowerOff_inv h
  | pwrOffWrite => exact execPwrOffWrite_inv h
  | hkConversion => exact execHkConversion_inv h
  | housekeepingRoundEnd => exact execHousekeepingRoundEnd_inv h
  | droop => exact execDroop_inv h
  | rstMgmt => exact execRstMgmt_inv h
  | rstGrove => exact execRstGrove_inv h
  | cuFeed8 => exact execCuFeed8_inv h
  | cuFeed16 => exact execCuFeed16_inv h
  | cuFeed32 => exact execCuFeed32_inv h
  | cuInit => exact execCuInit_inv h
  | cuCtlWrite => exact execCuCtlWrite_inv h
  | cuStatWrite => exact execCuStatWrite_inv h
  | f5CtlWrite => exact execF5CtlWrite_inv h
  | f5ModeWrite => exact execF5ModeWrite_inv h
  | pairLowRead => exact execPairLowRead_inv h
  | registerWrite => exact execRegisterWrite_inv h
  | resetNRelease => exact execResetNRelease_inv h
  | perstNRelease => exact execPerstNRelease_inv h
  | aonclkReady => exact execAonclkReady_inv h
  | pllLock => exact execPllLock_inv h
  | terminatorTraining => exact execTerminatorTraining_inv h
  | replayTimerExpiry => exact execReplayTimerExpiry_inv h
  | rcFieldRead => exact execRcFieldRead_inv h
  | rindCommandDone => exact execRindCommandDone_inv h
  | testWindowDone => exact execTestWindowDone_inv h
  | reservedOpcode => exact execReservedOpcode_inv h

end Sys2Proof.Machine
end

section
/-! The invariant under the operations of Machine/Tick: time. -/
namespace Sys2Proof.Machine

variable {s : State}

theorem patSend_inv {p : Nat} (h : s.inv) : (patSend s p).inv := by
  unfold patSend
  extract_lets _ _ _ _ _ _ s1
  have hs1 : s1.inv := wr_inv (wr_inv h (by decide)) (by decide)
  exact ite_inv (ite_inv (incSat_inv hs1 (by decide)) hs1) (emit_inv hs1)

theorem patStart_inv {p : Nat} (h : s.inv) : (patStart s p).inv :=
  clr_inv (clr_inv (with_freeCtr_inv (wr_inv (wr_inv h (by decide)) (by decide))) (by decide)) (by decide)

theorem patTick_inv {p : Nat} (h : s.inv) : (patTick s p).inv :=
  ite_inv (clr_inv h (by decide)) (ite_inv (wr_inv (ite_inv h (patStart_inv h)) (by decide)) (patSend_inv (wr_inv (ite_inv h (patStart_inv h)) (by decide))))

theorem epochTick_inv (h : s.inv) : (epochTick s).inv := ite_inv h (ite_inv (clr_inv h (by decide)) (epochMoved_inv (incWrap_inv h (by decide))))
theorem tick_inv (h : s.inv) : (tick s).inv := ite_inv (start_inv h) (each_inv (epochTick_inv (start_inv h)) (fun _ _ h => patTick_inv h))

end Sys2Proof.Machine
end

section
/-! The invariant under the operations of Machine/Step: a step. -/
namespace Sys2Proof.Machine

variable {s : State}

theorem step_inv (h : s.inv) : outInv (step s) := by
  unfold step
  split
  · exact next_inv (tick_inv h)
  · exact exec_inv (with_pending_inv h)

end Sys2Proof.Machine
end

section
open Sys2Proof Sys2Proof.Machine

/-- Settles O4: a step is a tick or the command at the front, and each operation that they are made of keeps the invariant. -/
theorem stepKeepsCanonicalForm : Obligations.StepKeepsCanonicalForm := fun _ t h e => step_inv h t e

end

section
/-! The end of a clock restart brings the towers up (R572), and with them discards a repair list of the NVM whose check fails. -/
namespace Sys2Proof.Machine

/-- In SERVICE with firmware running, MPLL0 is being restarted for a tower in REFRESH, whose repair list of one entry in the NVM fails its check. -/
def restartBadList : State :=
  repHeader ((((State.reset.wr .DEV_STATE_STATE 0 devSERVICE).wr .X_CLKR 0 6).wr .TWR_STAT_STATE 0 2).set .X_FWUP 0) 1

theorem restartBadList_count : restartBadList.getNvm 0x8044 = 1 := by decide +kernel

theorem restartDone_restartBadList_count : (restartDone restartBadList.start 5).getNvm 0x8044 = 0 := by decide +kernel

theorem exec_clockRestartDone_live (s : State) (hlive : s.dead = false) (hrun : 0 < s.rd .X_CLKR 0) :
    exec .clockRestartDone s = .next (restartDone s.start (s.rd .X_CLKR 0 - 1)) := by
  change execClockRestartDone s = _
  unfold execClockRestartDone
  rw [live_of _ _ hlive]
  exact congrArg Host.Outcome.next (if_neg hrun.ne')

/-- Refutes O56: the clause of `clockRestartDone` holds the NVM unchanged, but the towers come up with the restarted PLL and the count of a repair list
whose check fails is rewritten as 0. -/
theorem not_clockSources : ¬ Obligations.ClockSources := by
  unfold Obligations.ClockSources
  intro h
  obtain ⟨-, -, -, -, -, -, -, -, -, hdone, -⟩ := h restartBadList .port 0 0 0 0 0
  have hrun : restartBadList.rd .X_CLKR 0 - 1 = 5 := by decide
  obtain ⟨u, hu, -, -, -, -, hnvm, -⟩ := hdone (by decide) (by decide) (by decide)
  rw [exec_clockRestartDone_live _ (by decide) (by decide), hrun, Host.Outcome.next.injEq] at hu
  have hcount : u.getNvm 0x8044 = restartBadList.getNvm 0x8044 := by simp only [State.getNvm, hnvm]
  rw [← hu, restartDone_restartBadList_count, restartBadList_count] at hcount
  exact absurd hcount (by decide)

end Sys2Proof.Machine
end

section
/-! The host's writes of configuration space send every vector that pends (R452), 32 to 63 among them, whose pending bits lie at 0x10804 to 0x10807. -/
namespace Sys2Proof.Machine

/-- The port is up with MSI-X still off; vector 32 pends and its entry is not masked. -/
def vector32Pends : State := ((State.reset.set .X_PORT_UP 0).setWin 0x1020C 0).setWin 0x10804 1

/-- The host turns MSI-X on. -/
def msixOn : PortCfg := ⟨true, true, false, 0, 0, 0, 0⟩

theorem exec_busMasterChange_up (s : State) (bme d3hot : Bool) (cfg : PortCfg) (hlive : s.dead = false) (hup : s.on .X_PORT_UP 0 = true) :
    exec (.busMasterChange bme d3hot cfg) s
      = .next ((cfgStore ((s.start.wrB .X_BME 0 bme).wrB .X_D3HOT 0 d3hot) cfg).each (List.range 64) msixSend) := by
  change execBusMasterChange bme d3hot cfg s = _
  unfold execBusMasterChange
  rw [live_of _ _ hlive]
  exact congrArg Host.Outcome.next (if_pos hup)

theorem vector32Pends_sent :
    ((cfgStore ((vector32Pends.start.wrB .X_BME 0 true).wrB .X_D3HOT 0 false) msixOn).each (List.range 64) msixSend).getWin 0x10804 = 0 := by
  decide +kernel

/-- Refutes O53: a write of configuration space that turns MSI-X on sends vector 32, whose pending bit is outside the four bytes that the clause lets change. -/
theorem not_groveAndPortResets : ¬ Obligations.GroveAndPortResets := by
  unfold Obligations.GroveAndPortResets
  intro h
  obtain ⟨-, -, -, -, -, -, -, hup⟩ := h vector32Pends .port 0 0 true false msixOn
  obtain ⟨u, hu, -, -, -, -, -, -, hwin⟩ := hup (by decide) (by decide)
  rw [exec_busMasterChange_up _ _ _ _ (by decide) (by decide), Host.Outcome.next.injEq] at hu
  have hkept := hwin 0x10804 (by decide)
  rw [← hu, vector32Pends_sent] at hkept
  exact absurd hkept (by decide)

end Sys2Proof.Machine
end

section
/-! A soft repair that a PIN reset finds under way in a tower that rides it completes (R443), and the channel's spares are counted again (R437). -/
namespace Sys2Proof.Machine

/-- A soft repair runs in tower 0, whose PRESERVE bit is set, for channel 0, whose REP_SPARE.HARD has not counted the hard repair of its fuses. -/
def softRepairRides : State := { ((State.reset.set .TWR_CTL_PRESERVE 0).set .X_REP_OP 0) with hards := [⟨0, 0, 0, 0, 0⟩] }

/-- The state with other counts of the banks' activations, all that reading a blank word changes. -/
def State.withBanks (s : State) (b : List (Nat × BankAct)) : State := { s with banks := b }

theorem decode_blankCode : (decodeWord blankCode).1 = .clean := by decide +kernel

theorem State.getT_blank {s : State} (htower : s.tower = []) (hlost : s.lost = []) (A : Nat) : s.getT A = blankCode := by
  simp [State.getT, State.towerDflt, htower, hlost, nget, storeGet]

theorem State.touch_withBanks (s : State) (A : Nat) (w : Bool) : ∃ b, s.touch A w = s.withBanks b := by
  unfold State.touch
  dsimp only
  split
  · exact ⟨s.banks, rfl⟩
  · exact ⟨_, rfl⟩

/-- A word that reads as swept has nothing to correct. -/
theorem fixWord_readWord_blank {s : State} (htower : s.tower = []) (hlost : s.lost = []) (A : Nat) :
    ∃ b, fixWord (readWord s 4 A).2 A = s.withBanks b := by
  obtain ⟨b, hb⟩ := s.touch_withBanks A false
  have hread : (readWord s 4 A).2 = s.withBanks b := by
    rw [← hb]
    simp only [readWord, hb, State.getT_blank (s := s.withBanks b) htower hlost, decode_blankCode]
  refine ⟨b, ?_⟩
  rw [hread]
  simp only [fixWord, State.getT_blank (s := s.withBanks b) htower hlost, decode_blankCode]

theorem copyRow_blank {s : State} (htower : s.tower = []) (hlost : s.lost = []) (l : List Nat) :
    ∃ b, s.each l (fun s A => fixWord (readWord s 4 A).2 A) = s.withBanks b := by
  induction l generalizing s with
  | nil => exact ⟨s.banks, rfl⟩
  | cons A l ih =>
    obtain ⟨b, hb⟩ := fixWord_readWord_blank htower hlost A
    obtain ⟨c, hc⟩ := ih (s := s.withBanks b) htower hlost
    refine ⟨c, ?_⟩
    rw [State.each, List.foldl_cons, hb]
    exact hc

/-- What the end of a soft repair on spare sp keeps in its books. -/
def softBooks (s : State) (t sp : Nat) : State :=
  repEnd (repQueueNvm (spareRecount
    { s with reps := s.reps ++ [.soft (s.repKey t) sp], softq := s.softq.filter (· != (s.repKey t, false)) } t (s.repKey t).c) (.soft (s.repKey t) sp)) t

theorem softRepairEnd_of_blank {s : State} {t sp : Nat} (hop : s.rd .X_REP_OP t = 1) (htower : s.tower = []) (hlost : s.lost = [])
    (hfree : s.freeSpare (s.repKey t) = some sp) : ∃ b, softRepairEnd s t = softBooks (s.withBanks b) t sp := by
  obtain ⟨b, hb⟩ := copyRow_blank htower hlost (s.rowAddrs (s.repKey t))
  refine ⟨b, ?_⟩
  have hfree' : (s.withBanks b).freeSpare (s.repKey t) = some sp := hfree
  simp only [softRepairEnd, if_pos hop, hb, hfree', softBooks]
  rfl

/-- Step 2 of R408 has nothing to write where no punnet is enabled. -/
theorem preserveFlush_of_disabled {s : State} (h : ∀ k, s.on .PUN_CFG_EN k = false) (t : Nat) : preserveFlush s t = s :=
  s.each_eq_self _ _ fun k _ => by simp [h k]

/-- REP_SPARE.HARD counts the hard repairs of the channel. -/
theorem softBooks_hard (s : State) (t sp : Nat) : (softBooks s t sp).rd .REP_SPARE_HARD (chI t (s.repKey t).c)
    = (s.hards.filter fun k => k.t == t && k.c == (s.repKey t).c).length % 2 ^ Fld.REP_SPARE_HARD.width := by
  let fl : List Fld := [.CH_STAT_STATE, .REP_CMD_RESULT, .TWR_STAT_STATE, .X_CHRST_WAIT, .X_REP_CMD, .X_REP_OP, .REP_STAT_NVMPEND]
  refine (repEnd_k (fl := fl) (by decide) (repQueueNvm_k (by decide) (keepsR_refl _ fl)) .REP_SPARE_HARD _ (by decide)).trans ?_
  simp [spareRecount, State.rd_wr]

theorem State.rd_bare (s : State) (keep : Fld → Bool) (f : Fld) (i : Nat) :
    (s.bare keep).rd f i = if keep f then s.rd f i else fldReset (f, i) % 2 ^ f.width := by
  have hdrop := s.rd_drop (fun k => !keep k.1) f i
  simp only [State.drop, Bool.not_not] at hdrop
  cases hkeep : keep f <;> simpa [State.rd, State.bare, hkeep] using hdrop

/-- What a reset of the whole device does first in the towers that ride it (R408, R443). -/
def ridesSettled (s : State) : State := ([0, 1].filter (advCut s).preserved).foldl (fun s t => preserveFlush (softRepairEnd s t) t) (advCut s)

/-- A field that survives a PIN reset, and that the reset does not show, reads as it did when the towers had settled. -/
theorem rd_chipLike_of_keeps (s : State) (last : Nat) {f : Fld} (hk : f.keeps svPIN = true)
    (hf : f ∉ ([.CH_STAT_STATE, .DEV_STATE_PRESERVED0, .DEV_STATE_PRESERVED1, .TWR_STAT_STATE, .TW_ADDR_PRIMARY, .RST_STAT_LAST] : List Fld)) (i : Nat) :
    (chipLike s last).rd f i = (ridesSettled s).rd f i := by
  refine (twPrimary_k (by decide) (wr_k (by decide) (each_k (keepsR_refl _ _) fun _ _ h => rideShow_k (by decide) h)) f i hf).trans ?_
  exact ((ridesSettled s).rd_bare (fun f => f.keeps svPIN || f == .CLK_STAT_AONRDY) f i).trans (if_pos (by simp only [hk, Bool.true_or]))

theorem softRepairRides_en (k : Nat) : softRepairRides.start.rd .PUN_CFG_EN k = 0 :=
  ((State.reset.set .TWR_CTL_PRESERVE 0).rd_wr_ne (f := .X_REP_OP) (i := 0) 1 (by simp)).trans (State.reset.rd_wr_ne (f := .TWR_CTL_PRESERVE) (i := 0) 1 (by simp))

theorem softRepairRides_hard : (ridesSettled softRepairRides.start).rd .REP_SPARE_HARD 0 = 1 := by
  have hride : ([0, 1].filter (advCut softRepairRides.start).preserved) = [0] := by decide
  have hcut : advCut softRepairRides.start = softRepairRides.start := rfl
  have hkey : softRepairRides.start.repKey 0 = ⟨0, 0, 0, 0, 0⟩ := by decide
  obtain ⟨b, hb⟩ := softRepairEnd_of_blank (s := softRepairRides.start) (t := 0) (sp := 0) (by decide) rfl rfl (by decide)
  have hoff : ∀ k, (softRepairEnd softRepairRides.start 0).on .PUN_CFG_EN k = false := by
    intro k
    have hkeep := softRepairEnd_k (t := 0) (List.Subset.refl _) (keepsR_refl softRepairRides.start _) .PUN_CFG_EN k (by decide)
    exact bne_eq_false_iff_eq.mpr (hkeep.trans (softRepairRides_en k))
  rw [ridesSettled, hride, hcut, List.foldl_cons, List.foldl_nil, preserveFlush_of_disabled hoff, hb]
  exact softBooks_hard (softRepairRides.start.withBanks b) 0 0

theorem exec_pinReset_live (s : State) (hlive : s.dead = false) : exec .pinReset s = .next ((chipLike s.start 1).set .X_RESETN_LOW 0) := by
  change execPinReset s = _
  exact live_of s _ hlive

/-- Refutes O52: a PIN reset completes the soft repair of a tower that rides it, and with it counts the channel's spares again; where REP_SPARE.HARD disagrees
with the fuses the field changes, which survives every reset. -/
theorem not_wholeDeviceResets : ¬ Obligations.WholeDeviceResets := by
  unfold Obligations.WholeDeviceResets
  intro h
  obtain ⟨-, hpin, -⟩ := h softRepairRides 0 0 .port
  obtain ⟨u, hu, ⟨-, -, hkept, -⟩, -⟩ := hpin (by decide)
  rw [exec_pinReset_live _ (by decide), Host.Outcome.next.injEq] at hu
  have hhard := hkept .REP_SPARE_HARD 0 (by decide) (by decide)
  rw [← hu, State.set, State.rd_wr_ne _ _ (by decide), rd_chipLike_of_keeps _ _ (by decide) (by decide), softRepairRides_hard] at hhard
  exact absurd hhard (by decide)

end Sys2Proof.Machine
end

section
/-! The state right after reset: every register field reads its reset value. -/
namespace Sys2Proof.Machine

theorem rd_reset (f : Fld) (i : Nat) : State.reset.rd f i = fldReset (f, i) := by
  change fldReset (f, i) % 2 ^ f.width = _
  exact Nat.mod_mod _ _

theorem reset_inv : State.reset.inv := ⟨rfl, reset_regsWf, reset_memWf, rfl⟩

/-- R24: no path carries anything until a command gives it a mode. -/
theorem reset_mode (p : Nat) : State.reset.mode p = mDARK := by
  rw [State.mode, rd_reset]
  unfold modeFld
  split <;> rfl

theorem reset_pwrOn (d : Nat) : State.reset.pwrOn d = false := by
  have hzero : State.reset.rd .PWR_STAT_ON 0 = 0 := rfl
  simp [State.pwrOn, State.bit, bitOf, hzero]

theorem reset_groveOn (g : Nat) : State.reset.groveOn g = false := by simp [State.groveOn, reset_pwrOn]

/-- The severities of R562. -/
theorem reset_severity (i : Nat) :
    State.reset.rd .FLT_SEV_REACT i = if i < 768 then 0 else if i = 1051 then 5 else if i = 1028 ∨ i = 1074 then 2 else 1 := by
  have hreset : fldReset (.FLT_SEV_REACT, i) = sevReset i % 8 := rfl
  rw [rd_reset, hreset, sevReset]
  split_ifs <;> rfl

/-- Settles O2: a field's value is the reset column's, and every store is empty. -/
theorem resetState : Obligations.ResetState :=
  ⟨reset_inv, rfl, rfl, rfl, rfl, rfl, rfl, rfl, rfl, rfl, fun _ _ => ⟨rfl, rfl⟩, fun _ => rfl, fun p _ => reset_mode p, fun _ _ => rfl, rfl, rfl,
    fun g _ => reset_groveOn g, fun i _ => reset_severity i⟩

end Sys2Proof.Machine
end

section
/-! A two-wire transaction, in the order in which R492 judges it: not for the device, STANDBY, busy, a chunk that is still being written, a command that is not served. -/
namespace Sys2Proof.Machine
variable (s : State) {a : BitVec 7} {c : Nat} {f : State → State}

/-- The device answers to the address, and is neither held in reset nor without the clock of its kernel (R487, R488, R568). -/
abbrev State.twHears (s : State) (a : BitVec 7) : Prop := s.on .X_RESETN_LOW 0 = false ∧ s.aonRuns = true ∧ s.twMine a.toNat = true

/-- The transaction finds the device busy (R38, R56). -/
abbrev State.twAway (s : State) (c : Nat) : Prop := s.twBusy c = true ∨ (s.hot = .draining ∧ c ∈ [3, 0x0F, 0x20, 0x21])

/-- The chunk that was being written stands in the load. -/
def State.twWritten (s : State) : State := { s.clr .X_FW_WR 0 with freeCtr := s.freeCtr + 1 }

theorem rd_twWritten {f : Fld} (i : Nat) (hf : f ≠ .X_FW_WR) : s.twWritten.rd f i = s.rd f i :=
  s.rd_wr_ne 0 fun h => hf h.1

theorem twWritten_dev : s.twWritten.dev = s.dev := rd_twWritten s 0 (by decide)

theorem twWritten_hears (a : BitVec 7) : s.twWritten.twHears a ↔ s.twHears a := by
  simp [State.twHears, State.aonRuns, State.clkFailed, State.bit, State.twMine, State.on, rd_twWritten]

theorem twWritten_hot : s.twWritten.hot = s.hot := rfl

theorem twWritten_dead : s.twWritten.dead = s.dead := by simp [State.dead, State.on, twWritten_dev, rd_twWritten]

theorem twWritten_away (c : Nat) : s.twWritten.twAway c ↔ s.twAway c := by
  simp [State.twAway, State.twBusy, State.on, twWritten_dev, twWritten_dead, twWritten_hot, rd_twWritten]

theorem twWritten_writes (c : Nat) : s.twWritten.twWrites c = false := by
  have hdone : s.twWritten.rd .X_FW_WR 0 = 0 := s.rd_wr_same .X_FW_WR 0 0
  simp [State.twWrites, State.on, hdone]

theorem twDrains_iff : s.twDrains c = true ↔ s.hot = .draining ∧ c ∈ [3, 0x0F, 0x20, 0x21] := by
  simp [State.twDrains]

variable {s}

theorem twXfer_unheard (h : ¬s.twHears a) : twXfer s a c f = .next s.start := by
  refine if_pos ?_
  by_contra hn
  simp only [Bool.or_eq_true, Bool.not_eq_true', not_or, Bool.not_eq_true, Bool.not_eq_false] at hn
  exact h ⟨hn.1.1, hn.1.2, hn.2⟩

theorem twXfer_heard (h : s.twHears a) : twXfer s a c f =
    if s.dev = devSTANDBY then .next (s.start.emit (.twNak .address))
    else if s.twBusy c || s.twDrains c then .next (busyNak s.start)
    else if s.twWrites c && Config.chunkWriting s.freeCtr then .next (busyNak { s.start with freeCtr := s.freeCtr + 1 })
    else
      let t := if s.twWrites c then { s.start.clr .X_FW_WR 0 with freeCtr := s.freeCtr + 1 } else s.start
      if !t.twServed.contains c || t.twTaken c then .next (t.emit (.twNak .command)) else .next (f t) := by
  obtain ⟨hreset, hclock, hmine⟩ := h
  have hguard : ¬(s.start.on .X_RESETN_LOW 0 || !s.start.aonRuns || !s.start.twMine a.toNat) = true := by
    change ¬(s.on .X_RESETN_LOW 0 || !s.aonRuns || !s.twMine a.toNat) = true
    simp [hreset, hclock, hmine]
  exact if_neg hguard

theorem twXfer_standby (h : s.twHears a) (hs : s.dev = devSTANDBY) : twXfer s a c f = .next (s.start.emit (.twNak .address)) := by
  rw [twXfer_heard h, if_pos hs]

theorem twXfer_away (h : s.twHears a) (hs : s.dev ≠ devSTANDBY) (haway : s.twAway c) : twXfer s a c f = .next (busyNak s.start) := by
  rw [twXfer_heard h, if_neg hs, if_pos]
  rwa [Bool.or_eq_true, twDrains_iff]

theorem twXfer_ready (h : s.twHears a) (hs : s.dev ≠ devSTANDBY) (haway : ¬s.twAway c) (hw : s.twWrites c = false) : twXfer s a c f =
    if !s.twServed.contains c || s.twTaken c then .next (s.start.emit (.twNak .command)) else .next (f s.start) := by
  have hfree : ¬(s.twBusy c || s.twDrains c) = true := by rwa [Bool.or_eq_true, twDrains_iff]
  rw [twXfer_heard h, if_neg hs, if_neg hfree, hw, Bool.false_and, if_neg Bool.false_ne_true, if_neg Bool.false_ne_true]
  rfl

theorem twXfer_unserved (h : s.twHears a) (hs : s.dev ≠ devSTANDBY) (haway : ¬s.twAway c) (hw : s.twWrites c = false)
    (htakes : ¬(c ∈ s.twServed ∧ s.twTaken c = false)) : twXfer s a c f = .next (s.start.emit (.twNak .command)) := by
  rw [twXfer_ready h hs haway hw, if_pos]
  by_contra hn
  simp only [Bool.or_eq_true, Bool.not_eq_true', not_or, Bool.not_eq_true, Bool.not_eq_false, List.contains_iff_mem] at hn
  exact htakes hn

theorem twXfer_served (h : s.twHears a) (hs : s.dev ≠ devSTANDBY) (haway : ¬s.twAway c) (hw : s.twWrites c = false)
    (htakes : c ∈ s.twServed ∧ s.twTaken c = false) : twXfer s a c f = .next (f s.start) := by
  rw [twXfer_ready h hs haway hw, if_neg]
  simp [htakes.1, htakes.2]

/-- A transaction that may find the last chunk being written either finds it so, or runs as after its end (R38). -/
theorem twXfer_writes (h : s.twHears a) (hs : s.dev ≠ devSTANDBY) (haway : ¬s.twAway c) (hw : s.twWrites c = true) :
    twXfer s a c f = .next (busyNak { s.start with freeCtr := s.freeCtr + 1 }) ∨ twXfer s a c f = twXfer s.twWritten a c f := by
  have hfree : ¬(s.twBusy c || s.twDrains c) = true := by rwa [Bool.or_eq_true, twDrains_iff]
  rw [twXfer_heard h, if_neg hs, if_neg hfree, hw, Bool.true_and]
  by_cases hc : Config.chunkWriting s.freeCtr = true
  · exact .inl (if_pos hc)
  · right
    rw [twXfer_ready ((twWritten_hears s a).mpr h) (twWritten_dev s ▸ hs) (mt (twWritten_away s c).mp haway) (twWritten_writes s c), if_neg hc]
    rfl

/-! What such a transaction changes, where it is not served. -/

variable (s)

theorem nothing_does : DoesAt s (.next s.start) [] fun u => u.out = [] := ⟨_, rfl, rfl, fun _ _ _ => rfl, memSame_refl s⟩

theorem nak_does (p : TwPos) : DoesAt s (.next (s.start.emit (.twNak p))) [] fun u => u.out = [.twNak p] :=
  ⟨_, rfl, rfl, fun _ _ _ => rfl, memSame_refl s⟩

theorem busyNak_does {t : State} (hr : t.regs = s.regs) (ho : t.out = []) (hm : s.memSame t) :
    DoesAt s (.next (busyNak t)) [(.TW_CNT_NAKBUSY, 0)] fun u => u.out = [.twNak .address] ∧ u.rd .TW_CNT_NAKBUSY 0 = min (s.rd .TW_CNT_NAKBUSY 0 + 1) 65535 := by
  have hrd : ∀ f i, t.rd f i = s.rd f i := fun f i => by rw [State.rd, State.rd, hr]
  refine ⟨_, rfl, ⟨by simp [busyNak, State.incSat, ho], ?_⟩, fun f i hf => ?_, hm⟩
  · have hlt : min (s.rd .TW_CNT_NAKBUSY 0 + 1) 65535 < 2 ^ 16 := by omega
    exact (t.rd_wr_same _ _ _).trans (by rw [hrd]; exact Nat.mod_eq_of_lt hlt)
  · refine (t.rd_wr_ne _ fun h => hf ?_).trans (hrd f i)
    simp [h.1, h.2]

/-- The bytes of a form and its PEC, where it applies, after the bytes l (R489, R493). -/
def twFull (l form : List Byte) (pec : Bool) : List Byte := if pec then form ++ [pecOf (l ++ form)] else form

/-- What the controller takes of them in n bytes: ones past the last. -/
def twSent (full : List Byte) (n : Nat) : Out := .twoWire (full.take n ++ List.replicate (n - full.length) 0xFF)

theorem twRead_whole {l form : List Byte} {pec : Bool} {n : Nat} (h : n = (twFull l form pec).length) :
    twRead s l form pec n = s.emit (twSent (twFull l form pec) n) :=
  congrArg (fun s : State => s.emit (twSent (twFull l form pec) n)) (if_pos h)

theorem twRead_other {l form : List Byte} {pec : Bool} {n : Nat} (h : n ≠ (twFull l form pec).length) :
    twRead s l form pec n = (s.set .TW_STAT_PROTO 0).emit (twSent (twFull l form pec) n) :=
  congrArg (fun s : State => s.emit (twSent (twFull l form pec) n)) (if_neg h)

theorem set_on {f : Fld} (i : Nat) (hw : f.width ≠ 0) : (s.set f i).on f i = true := by
  have hlt : 1 < 2 ^ f.width := Nat.one_lt_two_pow hw
  rw [State.on, State.set, State.rd_wr_same, Nat.mod_eq_of_lt hlt]
  rfl

/-- A read of n bytes from the device. -/
theorem twRead_does (l form : List Byte) (pec : Bool) (n : Nat) :
    DoesAt s (.next (twRead s.start l form pec n)) [(.TW_STAT_PROTO, 0)] fun u => u.out = [twSent (twFull l form pec) n]
      ∧ (n ≠ (twFull l form pec).length → u.on .TW_STAT_PROTO 0 = true)
      ∧ (n = (twFull l form pec).length → u.rd .TW_STAT_PROTO 0 = s.rd .TW_STAT_PROTO 0) ∧ u.hostq = s.hostq := by
  by_cases hn : n = (twFull l form pec).length
  · rw [twRead_whole _ hn]
    exact ⟨_, rfl, ⟨rfl, fun h => absurd hn h, fun _ => rfl, rfl⟩, fun _ _ _ => rfl, memSame_refl s⟩
  · rw [twRead_other _ hn]
    refine ⟨_, rfl, ⟨rfl, fun _ => set_on s.start (f := .TW_STAT_PROTO) 0 (by decide), fun h => absurd h hn, rfl⟩, fun f i hf => ?_, memSame_refl s⟩
    refine s.start.rd_wr_ne (f := .TW_STAT_PROTO) (i := 0) 1 fun h => hf ?_
    simp [h.1, h.2]

theorem exec_twIdent (a : BitVec 7) (extra : Bool) (n : Nat) :
    exec (.twIdent a extra n) s = twXfer s a 0x01 fun s => twGet s a 0x01 s.identForm extra n := by
  change execTwIdent a extra n s = _
  rfl

theorem exec_twState (a : BitVec 7) (extra : Bool) (n : Nat) :
    exec (.twState a extra n) s = twXfer s a 0x02 fun s => twGet s a 0x02 s.stateForm extra n := by
  change execTwState a extra n s = _
  rfl

theorem exec_eventsum (a : BitVec 7) (extra : Bool) (n : Nat) :
    exec (.eventsum a extra n) s = twXfer s a 0x03 fun s => twGet s a 0x03 s.eventsumForm extra n := by
  change execEventsum a extra n s = _
  rfl

/-- A byte that the controller writes into a read is one too many. -/
theorem twGet_extra_does (a : BitVec 7) (c : Nat) (form : List Byte) (n : Nat) :
    DoesAt s (.next (twGet s.start a c form true n)) [] fun u => u.out = [.twNak .data] := nak_does s .data

/-- The commands of R489 with their codes. -/
def twRows (a : BitVec 7) (n : Nat) (count len b0 b1 b2 b3 : Byte) (ofs : BitVec 32) (e : TwEnd) (late : Nat) (room extra : Bool) (block : List Byte) : List (Nat × Instr) :=
  [(1, .twIdent a extra n), (2, .twState a extra n), (3, .eventsum a extra n),
    (0x0F, .mctpPacket a block room e), (0x10, .regrd a count ofs len e late n), (0x11, .regwr a block e), (0x20, .fwchunk a block e),
    (0x21, .fwdone a e), (0x30, .alertcfg a b0 b1 e), (0x3F, .buscfg a b0 b1 b2 b3 e)]

/-- Each of them is a transaction. -/
theorem twRows_twXfer {n : Nat} {count len b0 b1 b2 b3 : Byte} {ofs : BitVec 32} {e : TwEnd} {late : Nat} {room extra : Bool} {block : List Byte} {y : Nat × Instr}
    (hy : y ∈ twRows a n count len b0 b1 b2 b3 ofs e late room extra block) : ∃ f, ∀ s, exec y.2 s = twXfer s a y.1 f := by
  simp only [twRows, List.mem_cons, List.not_mem_nil, or_false] at hy
  obtain rfl | rfl | rfl | rfl | rfl | rfl | rfl | rfl | rfl | rfl := hy
  · constructor
    intro s
    exact exec_twIdent s a extra n
  · constructor
    intro s
    exact exec_twState s a extra n
  · constructor
    intro s
    exact exec_eventsum s a extra n
  · constructor
    intro s
    change execMctpPacket a block room e s = _
    unfold execMctpPacket
    rfl
  · constructor
    intro s
    change execRegrd a count ofs len e late n s = _
    unfold execRegrd
    rfl
  · constructor
    intro s
    change execRegwr a block e s = _
    unfold execRegwr
    rfl
  · constructor
    intro s
    change execFwchunk a block e s = _
    unfold execFwchunk
    rfl
  · constructor
    intro s
    change execFwdone a e s = _
    unfold execFwdone
    rfl
  · constructor
    intro s
    change execAlertcfg a b0 b1 e s = _
    unfold execAlertcfg
    rfl
  · constructor
    intro s
    change execBuscfg a b0 b1 b2 b3 e s = _
    unfold execBuscfg
    rfl

end Sys2Proof.Machine
end

section
open Sys2Proof Sys2Proof.Machine

/-- Settles O49: each command is a transaction, whose case R492 decides, and the reads send their forms. -/
theorem twoWireReads : Obligations.TwoWireReads := by
  unfold Obligations.TwoWireReads
  intro s a n count len b0 b1 b2 b3 ofs e late room extra block ident state sum rows mine awake takes away served says_ reads q newest busy written
  have hserved : ∀ {c f}, served c → twXfer s a c f = .next (f s.start) := fun ⟨⟨hmine, hstandby⟩, haway, hwrites, htakes⟩ =>
    twXfer_served hmine hstandby haway hwrites htakes
  have hreads : ∀ {x c f form}, x = twXfer s a c f → served c → f s.start = twRead s.start (twHead a c ++ [twRdAddr a]) form s.twPec n → reads x c form := by
    intro x c f form hx hc hform
    rw [hx, hserved hc, hform]
    exact twRead_does s _ form s.twPec n
  refine ⟨fun y hy => ?_, fun y hy h he => ?_, fun h he => ?_, fun h he => ?_, fun h he => ?_⟩
  · obtain ⟨f, hf⟩ := twRows_twXfer hy
    rw [hf s, hf written]
    refine ⟨fun h => ?_, fun h hs => ?_, fun ⟨h, hs⟩ haway => ?_, fun ⟨h, hs⟩ haway hw => ?_, fun ⟨h, hs⟩ haway hw htakes => ?_⟩
    · rw [twXfer_unheard h]
      exact nothing_does s
    · rw [twXfer_standby h hs]
      exact nak_does s _
    · rw [twXfer_away h hs haway]
      exact busyNak_does s rfl rfl (memSame_refl s)
    · refine (twXfer_writes h hs haway hw).imp (fun hx => ?_) id
      rw [hx]
      exact busyNak_does s rfl rfl (memSame_refl s)
    · rw [twXfer_unserved h hs haway hw htakes]
      exact nak_does s _
  · simp only [List.mem_cons, List.not_mem_nil, or_false] at hy
    subst he
    have hextra : ∀ {x c} {form : State → List Byte}, x = twXfer s a c (fun s => twGet s a c (form s) true n) → served c → DoesAt s x [] fun u => u.out = [.twNak .data] := by
      intro x c form hx hc
      rw [hx, hserved hc]
      exact twGet_extra_does s a c _ n
    obtain rfl | rfl | rfl := hy
    · exact hextra (exec_twIdent ..) h
    · exact hextra (exec_twState ..) h
    · exact hextra (exec_eventsum ..) h
  · subst he
    exact hreads (exec_twIdent ..) h rfl
  · subst he
    exact hreads (exec_twState ..) h rfl
  · subst he
    exact hreads (exec_eventsum ..) h rfl

end

section
/-! What the boot, the loads and the low-power states change of the memories: nothing, or the pending bits of the first MSI-X vectors (R452). -/
namespace Sys2Proof.Machine
variable (s : State)

/-- The memories: those of the sequencers, the towers, the NVM and the byte windows. -/
structure Mems where
  imem : List (Nat × Word)
  dmem : List (Nat × Word)
  tower : List (Nat × Code)
  nvm : List (Nat × Byte)
  win : List (Nat × Byte)

def State.mems (s : State) : Mems := ⟨s.imem, s.dmem, s.tower, s.nvm, s.win⟩

theorem mems_iff {s t : State} : t.mems = s.mems ↔ t.imem = s.imem ∧ t.dmem = s.dmem ∧ t.tower = s.tower ∧ t.nvm = s.nvm ∧ t.win = s.win := by
  simp [State.mems]

theorem memSame_of_mems {s t : State} (h : t.mems = s.mems) : s.memSame t := by
  obtain ⟨hi, hd, ht, hn, hw⟩ := mems_iff.mp h
  simp [State.memSame, State.getI, State.getD, State.getNvm, State.getWin, hi, hd, ht, hn, hw]

/-- The memories of t are those of s but for the pending bits of the MSI-X vectors 0 to 7. -/
def State.pends (s t : State) : Prop :=
  (t.imem = s.imem ∧ t.dmem = s.dmem ∧ t.tower = s.tower ∧ t.nvm = s.nvm) ∧ ∀ a, a ≠ 0x10800 → t.getWin a = s.getWin a

theorem pends_of_mems {s t : State} (h : t.mems = s.mems) : s.pends t := by
  obtain ⟨hi, hd, ht, hn, hw⟩ := mems_iff.mp h
  exact ⟨⟨hi, hd, ht, hn⟩, fun _ _ => by rw [State.getWin, State.getWin, hw]⟩

theorem pends_trans {s t u : State} (h : s.pends t) (h' : t.pends u) : s.pends u := by
  obtain ⟨⟨hi, hd, ht, hn⟩, hw⟩ := h
  obtain ⟨⟨hi', hd', ht', hn'⟩, hw'⟩ := h'
  exact ⟨⟨hi'.trans hi, hd'.trans hd, ht'.trans ht, hn'.trans hn⟩, fun a ha => (hw' a ha).trans (hw a ha)⟩

theorem doesPend_of {s t : State} {l : List Fld} {P : State → Prop} (hP : P t) (hk : KeepsR s t.regs l) (hm : s.pends t) : DoesPend s (.next t) l P := by
  obtain ⟨⟨hi, hd, ht, hn⟩, hw⟩ := hm
  refine ⟨t, rfl, hP, fldsBut_of hk, fun _ _ => by rw [State.getI, State.getI, hi], fun _ _ => by rw [State.getD, State.getD, hd], ht,
    fun _ => by rw [State.getNvm, State.getNvm, hn], fun a ha => hw a fun h => ha ?_⟩
  omega

/-! The state's own operations. -/

@[simp] theorem State.wr_mems (f : Fld) (i v : Nat) : (s.wr f i v).mems = s.mems := rfl
@[simp] theorem State.set_mems (f : Fld) (i : Nat) : (s.set f i).mems = s.mems := rfl
@[simp] theorem State.clr_mems (f : Fld) (i : Nat) : (s.clr f i).mems = s.mems := rfl
@[simp] theorem State.wrB_mems (f : Fld) (i : Nat) (b : Bool) : (s.wrB f i b).mems = s.mems := rfl
@[simp] theorem State.wrBit_mems (f : Fld) (i b : Nat) (v : Bool) : (s.wrBit f i b v).mems = s.mems := rfl
@[simp] theorem State.incSat_mems (f : Fld) (i n : Nat) : (s.incSat f i n).mems = s.mems := rfl
@[simp] theorem State.start_mems : s.start.mems = s.mems := rfl
@[simp] theorem State.drop_mems (p : Fld × Nat → Bool) : (s.drop p).mems = s.mems := rfl

@[simp] theorem State.raise_mems (src kind addr : Nat) : (s.raise src kind addr).mems = s.mems := by
  unfold State.raise
  split <;> rfl

@[simp] theorem State.alert_mems (c : Nat) : (s.alert c).mems = s.mems := by
  unfold State.alert
  split <;> rfl

theorem foldl_mems {α : Type} (l : List α) (f : State → α → State) (h : ∀ s a, (f s a).mems = s.mems) : (l.foldl f s).mems = s.mems :=
  List.foldlRecOn (motive := fun u : State => u.mems = s.mems) l f rfl fun u hu a _ => (h u a).trans hu

theorem msix_pends {v : Nat} (hv : v < 8) : s.pends (s.msix v) := by
  unfold State.msix
  dsimp only
  split
  · refine ⟨⟨rfl, rfl, rfl, rfl⟩, fun a ha => s.getWin_setWin_ne _ ?_⟩
    omega
  · exact ⟨⟨rfl, rfl, rfl, rfl⟩, fun _ _ => rfl⟩

theorem setDev_pends (st : Nat) : s.pends (s.setDev st) := by
  unfold State.setDev
  split
  · exact pends_of_mems rfl
  · exact pends_trans (pends_of_mems (by simp)) (msix_pends _ (by decide))

end Sys2Proof.Machine
end

section
/-! The operations on a load of an image (R41, R42, R48, R49, R54, R55). -/
namespace Sys2Proof.Machine
variable {s : State} {r : Route} {idle : Bool} {bytes : List Byte}

/-- A load begins with its first bytes: a boot load enters LOAD, one of the idle bank empties it. -/
def loadBegin (s : State) (r : Route) (idle : Bool) (bytes : List Byte) : State :=
  let s := { s with fwLoad := some ⟨r, idle, bytes⟩ }
  if idle then (s.clr .DEV_STATE_HR_PEND 0).setBank (!s.on .DEV_STATE_BANK 0) none else s.setDev devLOAD

/-- A load goes on. -/
def loadMore (s : State) (l : FwLoad) (bytes : List Byte) : State := { s with fwLoad := some { l with bytes := l.bytes ++ bytes } }

/-- Bytes are counted, and are being written. -/
def loadCount (s : State) (n : Nat) : State := (s.wr .FW_MBX_TOTAL_TOTAL 0 (s.rd .FW_MBX_TOTAL_TOTAL 0 + n)).set .X_FW_WR 0

theorem loadAppend_nil : loadAppend s r idle [] = s := rfl

theorem loadAppend_none (hb : bytes ≠ []) (hl : s.fwLoad = none) : loadAppend s r idle bytes = loadCount (loadBegin s r idle bytes) bytes.length := by
  rw [loadAppend, if_neg hb]
  simp only [hl]
  rfl

theorem loadAppend_some {l : FwLoad} (hb : bytes ≠ []) (hl : s.fwLoad = some l) : loadAppend s r idle bytes = loadCount (loadMore s l bytes) bytes.length := by
  rw [loadAppend, if_neg hb]
  simp only [hl]
  rfl

theorem setDev_fwLoad (st : Nat) : (s.setDev st).fwLoad = s.fwLoad := by
  unfold State.setDev
  split <;> simp

theorem setBank_fields (b : Bool) (i : Option FwImage) : (s.setBank b i).regs = s.regs ∧ (s.setBank b i).mems = s.mems ∧ (s.setBank b i).fwLoad = s.fwLoad := by
  cases b <;> exact ⟨rfl, rfl, rfl⟩

/-- The bank that is not running is the idle one. -/
theorem idleImage_setBank (i : Option FwImage) : (s.setBank (!s.on .DEV_STATE_BANK 0) i).idleImage = i := by
  have hbank : (s.setBank (!s.on .DEV_STATE_BANK 0) i).on .DEV_STATE_BANK 0 = s.on .DEV_STATE_BANK 0 := by
    rw [State.on, State.rd, (setBank_fields _ _).1]
    rfl
  rw [State.idleImage, hbank]
  cases s.on .DEV_STATE_BANK 0 <;> rfl

theorem loadBegin_fwLoad : (loadBegin s r idle bytes).fwLoad = some ⟨r, idle, bytes⟩ := by
  cases idle
  · exact setDev_fwLoad _
  · exact (setBank_fields _ _).2.2

theorem loadBegin_dev : (loadBegin s r false bytes).dev = devLOAD := State.dev_setDev _ _ (by decide)

theorem loadBegin_idle : (loadBegin s r true bytes).on .DEV_STATE_HR_PEND 0 = false ∧ (loadBegin s r true bytes).idleImage = none := by
  let t := { s with fwLoad := some ⟨r, true, bytes⟩ }.clr .DEV_STATE_HR_PEND 0
  constructor
  · rw [State.on, State.rd, show (loadBegin s r true bytes).regs = t.regs from (setBank_fields _ _).1]
    exact bne_eq_false_iff_eq.mpr (State.rd_wr_same _ .DEV_STATE_HR_PEND 0 0)
  · have hbank : t.on .DEV_STATE_BANK 0 = s.on .DEV_STATE_BANK 0 := congrArg (· != 0) (State.rd_wr_ne _ 0 (by decide))
    have hidle := idleImage_setBank (s := t) none
    rwa [hbank] at hidle

theorem loadBegin_total : (loadBegin s r idle bytes).rd .FW_MBX_TOTAL_TOTAL 0 = s.rd .FW_MBX_TOTAL_TOTAL 0 := by
  cases idle
  · exact State.rd_setDev _ _ _ _ (by decide) (by decide)
  · rw [State.rd, show (loadBegin s r true bytes).regs = (s.clr .DEV_STATE_HR_PEND 0).regs from (setBank_fields _ _).1]
    exact s.rd_wr_ne 0 (by decide)

theorem loadCount_total (n : Nat) :
    (loadCount s n).rd .FW_MBX_TOTAL_TOTAL 0 = (s.rd .FW_MBX_TOTAL_TOTAL 0 + n) % 2 ^ Fld.FW_MBX_TOTAL_TOTAL.width :=
  (State.rd_wr_ne _ 1 (by decide)).trans (s.rd_wr_same _ _ _)

theorem loadCount_dev (n : Nat) : (loadCount s n).dev = s.dev :=
  (State.rd_wr_ne _ 1 (by decide)).trans (s.rd_wr_ne _ (by decide))

theorem loadCount_idle (n : Nat) : (loadCount s n).on .DEV_STATE_HR_PEND 0 = s.on .DEV_STATE_HR_PEND 0 ∧ (loadCount s n).idleImage = s.idleImage := by
  have hpend : (loadCount s n).rd .DEV_STATE_HR_PEND 0 = s.rd .DEV_STATE_HR_PEND 0 := (State.rd_wr_ne _ 1 (by decide)).trans (s.rd_wr_ne _ (by decide))
  have hbank : (loadCount s n).rd .DEV_STATE_BANK 0 = s.rd .DEV_STATE_BANK 0 := (State.rd_wr_ne _ 1 (by decide)).trans (s.rd_wr_ne _ (by decide))
  exact ⟨by rw [State.on, State.on, hpend], by rw [State.idleImage, State.idleImage, State.on, State.on, hbank]; rfl⟩

theorem loadBegin_pends : s.pends (loadBegin s r idle bytes) := by
  cases idle
  · exact setDev_pends { s with fwLoad := some ⟨r, false, bytes⟩ } devLOAD
  · exact pends_of_mems (setBank_fields _ _).2.1

theorem loadAppend_pends : s.pends (loadAppend s r idle bytes) := by
  by_cases hb : bytes = []
  · subst hb
    exact pends_of_mems rfl
  · cases hl : s.fwLoad with
    | none =>
      rw [loadAppend_none hb hl]
      exact pends_trans loadBegin_pends (pends_of_mems rfl)
    | some l =>
      rw [loadAppend_some hb hl]
      exact pends_of_mems rfl

/-- What bytes that are appended give: the load with them, their count, and where they begin it the state or the idle bank that this leaves. -/
theorem loadAppend_spec (hb : bytes ≠ []) :
    (∀ l, s.fwLoad = some l → (loadAppend s r idle bytes).fwLoad = some { l with bytes := l.bytes ++ bytes })
    ∧ (s.fwLoad = none → (loadAppend s r idle bytes).fwLoad = some ⟨r, idle, bytes⟩)
    ∧ (loadAppend s r idle bytes).rd .FW_MBX_TOTAL_TOTAL 0 = (s.rd .FW_MBX_TOTAL_TOTAL 0 + bytes.length) % 2 ^ Fld.FW_MBX_TOTAL_TOTAL.width
    ∧ (s.fwLoad = none → (idle = false → (loadAppend s r idle bytes).dev = devLOAD)
      ∧ (idle = true → (loadAppend s r idle bytes).on .DEV_STATE_HR_PEND 0 = false ∧ (loadAppend s r idle bytes).idleImage = none)) := by
  cases hl : s.fwLoad with
  | none =>
    rw [loadAppend_none hb hl]
    refine ⟨fun l h => absurd h (by simp), fun _ => loadBegin_fwLoad, ?_, fun _ => ⟨?_, ?_⟩⟩
    · rw [loadCount_total, loadBegin_total]
    · rintro rfl
      rw [loadCount_dev, loadBegin_dev]
    · rintro rfl
      rw [(loadCount_idle _).1, (loadCount_idle _).2]
      exact loadBegin_idle
  | some l =>
    rw [loadAppend_some hb hl]
    refine ⟨fun l' h => ?_, fun h => absurd h (by simp), loadCount_total _, fun h => absurd h (by simp)⟩
    rw [← Option.some.inj h]
    rfl

/-- The load whose checks start: the one in progress, or one without bytes. -/
def loadOwned (s : State) (r : Route) (idle : Bool) : State :=
  match s.fwLoad with
  | some _ => s
  | none => { s with fwLoad := some ⟨r, idle, []⟩ }

theorem loadDone_taken (h : s.loadTaken r = true) : loadDone s r idle = mbxFail s 7 := if_pos h

theorem loadDone_shut (ht : s.loadTaken r = false) (h : s.on .X_FW_CHK 0 = true ∨ s.loadOk idle = false) : loadDone s r idle = s := by
  rw [loadDone, if_neg (by rw [ht]; decide), if_pos]
  simpa using h

theorem loadDone_checks (ht : s.loadTaken r = false) (hc : s.on .X_FW_CHK 0 = false) (ho : s.loadOk idle = true) :
    loadDone s r idle = ((loadOwned s r idle).set .X_FW_CHK 0).set .FW_MBX_STAT_BUSY 0 := by
  rw [loadDone, if_neg (by rw [ht]; decide), if_neg (by simp [hc, ho])]
  rfl

theorem loadOwned_fields : (loadOwned s r idle).regs = s.regs ∧ (loadOwned s r idle).mems = s.mems := by
  unfold loadOwned
  cases s.fwLoad <;> exact ⟨rfl, rfl⟩

/-- DONE changes no more than the marks of the checks. -/
theorem loadDone_spec (ht : s.loadTaken r = false) (hc : s.on .X_FW_CHK 0 = false) (ho : s.loadOk idle = true) :
    (loadDone s r idle).on .X_FW_CHK 0 = true ∧ (loadDone s r idle).on .FW_MBX_STAT_BUSY 0 = true ∧ (loadDone s r idle).fwLoad = (loadOwned s r idle).fwLoad
      ∧ s.regsBut (loadDone s r idle) [(.X_FW_CHK, 0), (.FW_MBX_STAT_BUSY, 0)] ∧ (loadDone s r idle).mems = s.mems := by
  rw [loadDone_checks ht hc ho]
  refine ⟨?_, set_on _ (f := .FW_MBX_STAT_BUSY) 0 (by decide), rfl, fun f i hf => ?_, loadOwned_fields.2⟩
  · rw [State.on, State.set, State.rd_wr_ne _ _ (by decide)]
    exact set_on _ (f := .X_FW_CHK) 0 (by decide)
  · simp only [List.mem_cons, Prod.mk.injEq, List.not_mem_nil, or_false, not_or] at hf
    have hsame : (loadOwned s r idle).rd f i = s.rd f i := by rw [State.rd, State.rd, loadOwned_fields.1]
    exact ((State.rd_wr_ne _ 1 hf.2).trans (State.rd_wr_ne _ 1 hf.1)).trans hsame

/-- The bytes of the load in progress. -/
def State.loadBytes (s : State) : List Byte := match s.fwLoad with | some l => l.bytes | none => []

theorem route_of_loadTaken {l : FwLoad} (ht : s.loadTaken r = false) (hl : s.fwLoad = some l) : l.route = r := by
  simpa [State.loadTaken, hl] using ht

/-- The load of a route that owns it, with the bytes that come. -/
theorem loadAppend_fwLoad (hb : bytes ≠ []) (ht : s.loadTaken r = false) (hi : ∀ l, s.fwLoad = some l → l.idle = idle) :
    (loadAppend s r idle bytes).fwLoad = some ⟨r, idle, s.loadBytes ++ bytes⟩ := by
  obtain ⟨hmore, hnew, -⟩ := loadAppend_spec (s := s) (r := r) (idle := idle) hb
  cases hl : s.fwLoad with
  | none => rw [hnew hl, State.loadBytes, hl, List.nil_append]
  | some l =>
    obtain ⟨route, kind, had⟩ := l
    rw [hmore _ hl, State.loadBytes, hl, ← hi _ hl, ← route_of_loadTaken ht hl]

theorem loadOwned_fwLoad (ht : s.loadTaken r = false) (hi : ∀ l, s.fwLoad = some l → l.idle = idle) :
    (loadOwned s r idle).fwLoad = some ⟨r, idle, s.loadBytes⟩ := by
  cases hl : s.fwLoad with
  | none => simp only [loadOwned, State.loadBytes, hl]
  | some l =>
    obtain ⟨route, kind, had⟩ := l
    simp only [loadOwned, State.loadBytes, hl]
    rw [← hi _ hl, ← route_of_loadTaken ht hl]

end Sys2Proof.Machine
end

section
/-! How a two-wire write ends (R490 to R494), and the six writes of R489 as such. -/
namespace Sys2Proof.Machine
variable (s : State)

theorem set_does (f : Fld) (hw : f.width ≠ 0) {t : State} {o : List Out} (ht : t = { s.start.set f 0 with out := o }) :
    DoesAt s (.next t) [(f, 0)] fun u => u.on f 0 = true ∧ u.out = o := by
  subst ht
  refine ⟨_, rfl, ⟨set_on s.start 0 hw, rfl⟩, fun g i hg => ?_, memSame_refl s⟩
  refine s.start.rd_wr_ne (f := f) (i := 0) 1 fun h => hg ?_
  simp [h.1, h.2]

variable {s} {l : List Byte} {pec : Bool} {g : State → State}

theorem twWrite_early_does : DoesAt s (.next (twWrite s.start l pec .early g)) [(.TW_STAT_PROTO, 0)] fun u => u.on .TW_STAT_PROTO 0 = true ∧ u.out = [] :=
  set_does s .TW_STAT_PROTO (by decide) rfl

theorem twWrite_over_does : DoesAt s (.next (twWrite s.start l pec .over g)) [] fun u => u.out = [.twNak .data] := nak_does s .data

theorem twWrite_missing_does : DoesAt s (.next (twWrite s.start l true (.stop none) g)) [(.TW_STAT_PECMISS, 0)] fun u => u.on .TW_STAT_PECMISS 0 = true ∧ u.out = [] :=
  set_does s .TW_STAT_PECMISS (by decide) rfl

theorem twWrite_unasked_does (p : Byte) : DoesAt s (.next (twWrite s.start l false (.stop (some p)) g)) [] fun u => u.out = [.twNak .data] := nak_does s .data

theorem twWrite_wrong_does {p : Byte} (h : p ≠ pecOf l) :
    DoesAt s (.next (twWrite s.start l true (.stop (some p)) g)) [(.TW_STAT_PECERR, 0)] fun u => u.on .TW_STAT_PECERR 0 = true ∧ u.out = [.twNak .pec] := by
  refine set_does s .TW_STAT_PECERR (by decide) ?_
  rw [twWrite, if_neg (by decide), if_neg h]
  rfl

/-- A write with the PEC that applies is executed. -/
theorem twWrite_whole : twWrite s l pec (.stop (if pec then some (pecOf l) else none)) g = g s := by
  cases pec
  · rfl
  · rw [if_pos rfl, twWrite, if_neg (by decide), if_pos rfl]

/-- x is a write of the bytes l after the command code, which is judged when the device has taken the bytes, or answered NAK before; g executes it. -/
def IsTwWrite (s : State) (a : BitVec 7) (e : TwEnd) (c : Nat) (x : Host.Outcome State Fault Refusal) (pec ok : Bool) (l : List Byte) (p : TwPos)
    (g : State → State) : Prop :=
  x = .next (if ok then twWrite s.start (twHead a c ++ l) pec e g else s.start.emit (.twNak p))

variable {a : BitVec 7} {e : TwEnd} {c : Nat} {x : Host.Outcome State Fault Refusal} {ok : Bool} {p : TwPos}

/-- A write that is not executed leaves its status bit at most. -/
theorem isTwWrite_ends (h : IsTwWrite s a e c x pec ok l p g) :
    (ok = false → DoesAt s x [] fun u => u.out = [.twNak p])
    ∧ (ok = true → e = .early → DoesAt s x [(.TW_STAT_PROTO, 0)] fun u => u.on .TW_STAT_PROTO 0 = true ∧ u.out = [])
    ∧ (ok = true → e = .over → DoesAt s x [] fun u => u.out = [.twNak .data])
    ∧ (ok = true → pec = true → e = .stop none → DoesAt s x [(.TW_STAT_PECMISS, 0)] fun u => u.on .TW_STAT_PECMISS 0 = true ∧ u.out = [])
    ∧ (∀ q, ok = true → pec = false → e = .stop (some q) → DoesAt s x [] fun u => u.out = [.twNak .data])
    ∧ (∀ q, ok = true → pec = true → e = .stop (some q) → q ≠ pecOf (twHead a c ++ l) →
        DoesAt s x [(.TW_STAT_PECERR, 0)] fun u => u.on .TW_STAT_PECERR 0 = true ∧ u.out = [.twNak .pec]) := by
  subst h
  refine ⟨?_, ?_, ?_, ?_, ?_, ?_⟩
  · rintro rfl
    exact nak_does s p
  · rintro rfl rfl
    exact twWrite_early_does (l := twHead a c ++ l) (pec := pec) (g := g)
  · rintro rfl rfl
    exact twWrite_over_does (l := twHead a c ++ l) (pec := pec) (g := g)
  · rintro rfl rfl rfl
    exact twWrite_missing_does (l := twHead a c ++ l) (g := g)
  · rintro q rfl rfl rfl
    exact twWrite_unasked_does (l := twHead a c ++ l) (g := g) q
  · rintro q rfl rfl rfl hq
    exact twWrite_wrong_does (g := g) hq

theorem isTwWrite_runs (h : IsTwWrite s a e c x pec ok l p g) (hok : ok = true) (he : e = .stop (if pec then some (pecOf (twHead a c ++ l)) else none)) :
    x = .next (g s.start) := by
  rw [h, hok, if_pos rfl, he, twWrite_whole]

theorem isTwWrite_of {bad : Prop} [Decidable bad] (hok : ok = true ↔ ¬bad)
    (hx : x = .next (if bad then s.start.emit (.twNak p) else twWrite s.start (twHead a c ++ l) pec e g)) : IsTwWrite s a e c x pec ok l p g := by
  by_cases hbad : bad
  · rw [if_pos hbad] at hx
    rwa [IsTwWrite, Bool.eq_false_iff.mpr fun h => hok.mp h hbad, if_neg Bool.false_ne_true]
  · rw [if_neg hbad] at hx
    rwa [IsTwWrite, hok.mpr hbad, if_pos rfl]

/-- The device serves a transaction to the address with the command code. -/
abbrev State.twServes (s : State) (a : BitVec 7) (c : Nat) : Prop :=
  s.twHears a ∧ s.dev ≠ devSTANDBY ∧ ¬s.twAway c ∧ s.twWrites c = false ∧ c ∈ s.twServed ∧ s.twTaken c = false

theorem twXfer_serves {f : State → State} (h : s.twServes a c) : twXfer s a c f = .next (f s.start) := by
  obtain ⟨hears, hstandby, haway, hwrites, htakes⟩ := h
  exact twXfer_served hears hstandby haway hwrites htakes

variable (e) (block : List Byte)

theorem regwr_isTwWrite (h : s.twServes a 0x11) : IsTwWrite s a e 0x11 (exec (.regwr a block e) s) s.twPec (regwrCount block.length)
    (leBytes 1 block.length ++ block) .count fun s => regwrDo s block := by
  change execRegwr a block e s = _
  unfold execRegwr
  rw [twXfer_serves h]
  cases regwrCount block.length <;> rfl

theorem fwchunk_isTwWrite (h : s.twServes a 0x20) : IsTwWrite s a e 0x20 (exec (.fwchunk a block e) s) s.twPec (decide (block.length ≤ 240))
    (leBytes 1 block.length ++ block) .count fun s => if s.loadOk s.twIdle then loadAppend s .twoWire s.twIdle block else s := by
  refine isTwWrite_of (bad := 240 < block.length) (by simp) ?_
  change execFwchunk a block e s = _
  unfold execFwchunk
  rw [twXfer_serves h]
  rfl

theorem fwdone_isTwWrite (h : s.twServes a 0x21) : IsTwWrite s a e 0x21 (exec (.fwdone a e) s) s.twPec true [] .data fun s => loadDone s .twoWire s.twIdle := by
  change execFwdone a e s = _
  unfold execFwdone
  rw [twXfer_serves h]
  rfl

/-- ALERTCFG's fields. -/
def alertcfgDo (s : State) (b0 b1 : Byte) : State :=
  ((s.wr .TW_ALERT_HOSTADDR 0 (b0.toNat % 128)).wr .TW_ALERT_EN 0 (b0.toNat / 128)).wr .TW_ALERT_CAUSES 0 b1.toNat

theorem alertcfg_isTwWrite (b0 b1 : Byte) (h : s.twServes a 0x30) :
    IsTwWrite s a e 0x30 (exec (.alertcfg a b0 b1 e) s) s.twPec (decide (b1.toNat < 16)) [b0, b1] .data fun s => alertcfgDo s b0 b1 := by
  refine isTwWrite_of (bad := 16 ≤ b1.toNat) (by simp) ?_
  change execAlertcfg a b0 b1 e s = _
  unfold execAlertcfg
  rw [twXfer_serves h]
  rfl

/-- BUSCFG's fields. -/
def buscfgDo (s : State) (b0 b1 b2 : Byte) : State :=
  let s := ((s.wr .TW_CFG_PEC 0 (bitsOf b0.toNat 0 0)).wr .TW_CFG_TOEN 0 (bitsOf b0.toNat 1 1)).wr .TW_CFG_ADDR2EN 0 (bitsOf b0.toNat 2 2)
  ((s.wr .TW_CFG_MASKEN 0 (bitsOf b0.toNat 3 3)).wr .TW_ADDR_ADDR2 0 b1.toNat).wr .TW_ADDR_MASK 0 b2.toNat

theorem buscfg_isTwWrite (b0 b1 b2 b3 : Byte) (h : s.twServes a 0x3F) : IsTwWrite s a e 0x3F (exec (.buscfg a b0 b1 b2 b3 e) s) s.twPec
    (decide (b0.toNat < 16 ∧ b1.toNat < 128 ∧ b2.toNat < 128 ∧ b3 = 0)) [b0, b1, b2, b3] .data fun s => buscfgDo s b0 b1 b2 := by
  refine isTwWrite_of (bad := 16 ≤ b0.toNat ∨ 128 ≤ b1.toNat ∨ 128 ≤ b2.toNat ∨ b3 ≠ 0) (by simp) ?_
  change execBuscfg a b0 b1 b2 b3 e s = _
  unfold execBuscfg
  rw [twXfer_serves h]
  rfl

theorem mctpPacket_isTwWrite (room : Bool) (h : s.twServes a 0x0F) : IsTwWrite s a e 0x0F (exec (.mctpPacket a block room e) s) true
    (room && s.fwFree && decide (block.length = 0 ∨ 5 ≤ block.length ∧ block.length ≤ 255)) (leBytes 1 block.length ++ block)
    (if room && s.fwFree then .count else .address) fun s => if block = [] then s else { s with mctpin := s.mctpin ++ [block] } := by
  have hx : exec (.mctpPacket a block room e) s = execMctpPacket a block room e s := rfl
  rw [hx]
  unfold execMctpPacket
  rw [twXfer_serves h]
  have hfree : s.start.fwFree = s.fwFree := rfl
  rw [hfree]
  cases room && s.fwFree
  · rfl
  · refine isTwWrite_of (bad := block ≠ [] ∧ block.length < mctpLeast ∨ 255 < block.length) ?_ rfl
    simp only [Bool.true_and, decide_eq_true_eq, mctpLeast, ← List.length_pos_iff]
    omega

end Sys2Proof.Machine
end

section
/-! REGRD (R489, R496, R501): the words that its read part reads. -/
namespace Sys2Proof.Machine
variable (s : State)

theorem rcClear_regerr {f : Fld} (i : Nat) (hf : f.acc = .rc) : (rcClear s f i).rd .TW_STAT_REGERR 0 = s.rd .TW_STAT_REGERR 0 := by
  have hne : ¬(Fld.TW_STAT_REGERR = f ∧ 0 = i) := fun h => absurd (h.1 ▸ hf) (by decide)
  rw [rcClear]
  split
  · exact ((s.clr f i).rd_wr_ne 0 fun h => absurd h.1 (by decide)).trans (s.rd_wr_ne 0 hne)
  · exact s.rd_wr_ne 0 hne

theorem regClear_regerr (w : RegRow) (i : Nat) : (regClear s w i).rd .TW_STAT_REGERR 0 = s.rd .TW_STAT_REGERR 0 := by
  refine List.foldlRecOn (motive := fun u : State => u.rd .TW_STAT_REGERR 0 = s.rd .TW_STAT_REGERR 0) _ _ rfl fun u hu e _ => ?_
  split
  · next hrc => rw [rcClear_regerr _ _ (by simpa using hrc), hu]
  · exact hu

theorem readReg_regerr (w : RegRow) (i a : Nat) : (readReg s w i a).2.rd .TW_STAT_REGERR 0 = s.rd .TW_STAT_REGERR 0 := by
  have hclear : (regClear (unlatch s a (s.regVal w i)).2 w i).rd .TW_STAT_REGERR 0 = s.rd .TW_STAT_REGERR 0 := regClear_regerr (unlatch s a (s.regVal w i)).2 w i
  unfold readReg
  dsimp only
  cases highOf w with
  | none => exact hclear
  | some h => exact hclear

theorem readDw_regerr (a : Nat) : (readDw s a).2.rd .TW_STAT_REGERR 0 = s.rd .TW_STAT_REGERR 0 := by
  unfold readDw
  cases winAt a with
  | some k => cases k <;> rfl
  | none =>
    dsimp only
    cases memAt a with
    | some m =>
      obtain ⟨g, data, w, hi⟩ := m
      cases hi <;> rfl
    | none =>
      dsimp only
      cases regAt a with
      | some x => exact readReg_regerr s x.1 x.2 a
      | none => rfl

/-- A read that fails sets REGERR; none clears it. -/
theorem busDw_regerr {s : State} (a : Nat) (h : s.on .TW_STAT_REGERR 0 = true) : (busDw s .twoWire a).2.on .TW_STAT_REGERR 0 = true := by
  unfold busDw
  split
  · exact set_on s (f := .TW_STAT_REGERR) 0 (by decide)
  · rw [State.on, readDw_regerr]
    exact h

/-- One word of the read part: ones with REGERR where its access fails or is late (bit 0 of late). -/
def regrdWord (s : State) (late a : Nat) : Option Nat × State :=
  let x := busDw s .twoWire a
  if bitOf late 0 then (none, x.2.set .TW_STAT_REGERR 0) else x

theorem regrdGo_succ (late k a : Nat) : regrdGo late (k + 1) a s =
    (leBytes 4 ((regrdWord s late a).1.getD 0xFFFFFFFF) ++ (regrdGo (late / 2) k (a + 4) (regrdWord s late a).2).1,
      (regrdGo (late / 2) k (a + 4) (regrdWord s late a).2).2) := rfl

theorem regrdWord_regerr {s : State} (late a : Nat) (h : s.on .TW_STAT_REGERR 0 = true) : (regrdWord s late a).2.on .TW_STAT_REGERR 0 = true := by
  unfold regrdWord
  dsimp only
  split
  · exact set_on _ (f := .TW_STAT_REGERR) 0 (by decide)
  · exact busDw_regerr a h

theorem regrdGo_regerr {s : State} (late k a : Nat) (h : s.on .TW_STAT_REGERR 0 = true) : (regrdGo late k a s).2.on .TW_STAT_REGERR 0 = true := by
  induction k generalizing late a s with
  | zero => exact h
  | succ k ih =>
    rw [regrdGo_succ]
    exact ih _ _ (regrdWord_regerr late a h)

theorem regrdWord_late {late : Nat} (a : Nat) (h : bitOf late 0 = true) :
    (regrdWord s late a).1 = none ∧ (regrdWord s late a).2.on .TW_STAT_REGERR 0 = true := by
  rw [regrdWord, if_pos h]
  exact ⟨rfl, set_on _ (f := .TW_STAT_REGERR) 0 (by decide)⟩

theorem bitOf_half (v i : Nat) : bitOf v (i + 1) = bitOf (v / 2) i := by
  rw [bitOf, bitOf, Nat.pow_succ', Nat.div_div_eq_div_mul]

theorem sliceBytes_append (x y : List Byte) (i n : Nat) : sliceBytes (x ++ y) (x.length + i) n = sliceBytes y i n := by
  refine List.map_congr_left fun k _ => ?_
  rw [Nat.add_assoc, List.getD_append_right _ _ _ _ (Nat.le_add_right ..), Nat.add_sub_cancel_left]

/-- A word whose access has not completed in time is sent as ones. -/
theorem regrdGo_late (late k a i : Nat) (hi : i < k) (h : bitOf late i = true) :
    sliceBytes (regrdGo late k a s).1 (4 * i) 4 = [0xFF, 0xFF, 0xFF, 0xFF] ∧ (regrdGo late k a s).2.on .TW_STAT_REGERR 0 = true := by
  induction k generalizing late a i s with
  | zero => exact absurd hi (Nat.not_lt_zero i)
  | succ k ih =>
    rw [regrdGo_succ]
    cases i with
    | zero =>
      obtain ⟨hnone, herr⟩ := regrdWord_late s a h
      rw [hnone]
      exact ⟨rfl, regrdGo_regerr _ _ _ herr⟩
    | succ i =>
      obtain ⟨hslice, herr⟩ := ih (regrdWord s late a).2 (late / 2) (a + 4) i (by omega) (bitOf_half late i ▸ h)
      have hword : ∀ v, 4 * (i + 1) = (leBytes 4 v).length + 4 * i := fun v => by simp only [leBytes, List.length_map, List.length_range]; omega
      rw [hword, sliceBytes_append]
      exact ⟨hslice, herr⟩

variable {s} {a : BitVec 7}

theorem leNat_lt (l : List Byte) : leNat l < 2 ^ (8 * l.length) := by
  induction l with
  | nil => decide
  | cons b l ih =>
    have hb : b.toNat < 2 ^ 8 := b.isLt
    rw [leNat, List.length_cons, Nat.mul_succ, Nat.pow_add]
    omega

theorem dwsOf_toNat (n : Nat) (l : List Byte) : ((dwsOf n l).map (BitVec.ofNat 32)).map BitVec.toNat = dwsOf n l := by
  induction n generalizing l with
  | zero => rfl
  | succ n ih =>
    have hlen : 8 * (l.take 4).length ≤ 32 := by rw [List.length_take]; omega
    have hlt : leNat (l.take 4) < 2 ^ 32 := (leNat_lt _).trans_le (Nat.pow_le_pow_right (by decide) hlen)
    rw [dwsOf, List.map_cons, List.map_cons, ih, BitVec.toNat_ofNat, Nat.mod_eq_of_lt hlt]

theorem dead_of_twServed {s : State} {c : Nat} (h : c ∈ s.twServed) (hc : 2 < c) : s.dead = false := by
  rw [State.twServed] at h
  cases hdead : s.dead with
  | false => rfl
  | true =>
    simp only [hdead, if_true, List.mem_cons, List.not_mem_nil, or_false] at h
    omega

/-- A block that REGWR takes is the register write of its DWs. -/
theorem exec_registerWrite_regwrDo {s : State} {block : List Byte} (hlive : s.dead = false) (hb : block ≠ []) (hat : leNat (block.take 4) < 2 ^ 26) :
    exec (.registerWrite .twoWire (BitVec.ofNat 24 (leNat (block.take 4) / 4)) ((dwsOf (block.length / 4 - 1) (block.drop 4)).map (BitVec.ofNat 32)) true) s
      = .next (regwrDo s.start block) := by
  have hdw : 4 * (BitVec.ofNat 24 (leNat (block.take 4) / 4)).toNat = leNat (block.take 4) / 4 * 4 := by
    rw [BitVec.toNat_ofNat, Nat.mod_eq_of_lt (by omega), Nat.mul_comm]
  change execRegisterWrite _ _ _ _ s = _
  unfold execRegisterWrite
  rw [live_of _ _ hlive, if_neg fun h => absurd h.1 (by decide), dwsOf_toNat, hdw, regwrDo, if_neg hb]

theorem alertcfgDo_does (s : State) (b0 : Byte) {b1 : Byte} (hb : b1.toNat < 16) :
    DoesAt s (.next (alertcfgDo s.start b0 b1)) [(.TW_ALERT_HOSTADDR, 0), (.TW_ALERT_EN, 0), (.TW_ALERT_CAUSES, 0)] fun u => u.out = []
      ∧ u.rd .TW_ALERT_HOSTADDR 0 = b0.toNat % 128 ∧ u.rd .TW_ALERT_EN 0 = b0.toNat / 128 ∧ u.rd .TW_ALERT_CAUSES 0 = b1.toNat := by
  have hb0 : b0.toNat < 256 := b0.isLt
  refine ⟨_, rfl, ⟨rfl, ?_, ?_, ?_⟩, fun f i hf => ?_, memSame_refl s⟩
  · simp only [alertcfgDo, State.rd_wr, reduceCtorEq, false_and, if_false, and_self, if_true]
    exact Nat.mod_eq_of_lt (show b0.toNat % 128 < 2 ^ 7 by omega)
  · simp only [alertcfgDo, State.rd_wr, reduceCtorEq, false_and, if_false, and_self, if_true]
    exact Nat.mod_eq_of_lt (show b0.toNat / 128 < 2 ^ 1 by omega)
  · simp only [alertcfgDo, State.rd_wr, reduceCtorEq, false_and, if_false, and_self, if_true]
    exact Nat.mod_eq_of_lt (show b1.toNat < 2 ^ 4 by omega)
  · simp only [List.mem_cons, Prod.mk.injEq, List.not_mem_nil, or_false, not_or] at hf
    obtain ⟨h0, h1, h2⟩ := hf
    simp only [alertcfgDo, State.rd_wr, h0, h1, h2, if_false, State.rd_start]

theorem buscfgDo_regsBut (s : State) (b0 b1 b2 : Byte) :
    s.regsBut (buscfgDo s.start b0 b1 b2) [(.TW_CFG_PEC, 0), (.TW_CFG_TOEN, 0), (.TW_CFG_ADDR2EN, 0), (.TW_CFG_MASKEN, 0), (.TW_ADDR_ADDR2, 0), (.TW_ADDR_MASK, 0)] := by
  intro f i hf
  simp only [List.mem_cons, Prod.mk.injEq, List.not_mem_nil, or_false, not_or] at hf
  obtain ⟨h0, h1, h2, h3, h4, h5⟩ := hf
  simp only [buscfgDo, State.rd_wr, h0, h1, h2, h3, h4, h5, if_false, State.rd_start]

theorem buscfgDo_does (s : State) {b0 b1 b2 : Byte} (h0 : b0.toNat < 16) (h1 : b1.toNat < 128) (h2 : b2.toNat < 128) :
    DoesAt s (.next (buscfgDo s.start b0 b1 b2)) [(.TW_CFG_PEC, 0), (.TW_CFG_TOEN, 0), (.TW_CFG_ADDR2EN, 0), (.TW_CFG_MASKEN, 0), (.TW_ADDR_ADDR2, 0), (.TW_ADDR_MASK, 0)] fun u =>
      u.out = [] ∧ u.rd .TW_CFG_PEC 0 = b0.toNat % 2 ∧ u.rd .TW_CFG_TOEN 0 = b0.toNat / 2 % 2 ∧ u.rd .TW_CFG_ADDR2EN 0 = b0.toNat / 4 % 2
        ∧ u.rd .TW_CFG_MASKEN 0 = b0.toNat / 8 ∧ u.rd .TW_ADDR_ADDR2 0 = b1.toNat ∧ u.rd .TW_ADDR_MASK 0 = b2.toNat := by
  refine ⟨_, rfl, ⟨rfl, ?_, ?_, ?_, ?_, ?_, ?_⟩, buscfgDo_regsBut s b0 b1 b2, memSame_refl s⟩
  all_goals simp only [buscfgDo, bitsOf, State.rd_wr, reduceCtorEq, false_and, if_false, and_self, if_true]
  · exact (Nat.mod_eq_of_lt (show b0.toNat / 2 ^ 0 % 2 ^ (0 + 1 - 0) < 2 ^ 1 by omega)).trans (by omega)
  · exact (Nat.mod_eq_of_lt (show b0.toNat / 2 ^ 1 % 2 ^ (1 + 1 - 1) < 2 ^ 1 by omega)).trans (by omega)
  · exact (Nat.mod_eq_of_lt (show b0.toNat / 2 ^ 2 % 2 ^ (2 + 1 - 2) < 2 ^ 1 by omega)).trans (by omega)
  · exact (Nat.mod_eq_of_lt (show b0.toNat / 2 ^ 3 % 2 ^ (3 + 1 - 3) < 2 ^ 1 by omega)).trans (by omega)
  · exact Nat.mod_eq_of_lt (show b1.toNat < 2 ^ 7 by omega)
  · exact Nat.mod_eq_of_lt (show b2.toNat < 2 ^ 7 by omega)
/-- A packet is delivered; a block without bytes is none. -/
theorem mctpIn_does (s : State) (block : List Byte) :
    DoesAt s (.next (if block = [] then s.start else { s.start with mctpin := s.start.mctpin ++ [block] })) [] fun u => u.out = []
      ∧ u.mctpin = if block.length = 0 then s.mctpin else s.mctpin ++ [block] := by
  by_cases hb : block = []
  · rw [if_pos hb]
    exact ⟨_, rfl, ⟨rfl, (if_pos (List.length_eq_zero_iff.mpr hb)).symm⟩, fun _ _ _ => rfl, memSame_refl s⟩
  · rw [if_neg hb]
    exact ⟨_, rfl, ⟨rfl, (if_neg fun h => hb (List.length_eq_zero_iff.mp h)).symm⟩, fun _ _ _ => rfl, memSame_refl s⟩

/-- What REGRD's write part leads to, where its count and length are those of its form. -/
theorem exec_regrd (h : s.twServes a 0x10) (count : Byte) (ofs : BitVec 32) (len : Byte) (e : TwEnd) (late n : Nat) : exec (.regrd a count ofs len e late n) s =
    .next (if count ≠ 5 then s.start.emit (.twNak .count)
      else if 252 < len.toNat ∨ len.toNat % 4 ≠ 0 then s.start.emit (.twNak .data)
      else if e = .stop none ∧ s.twPec then (s.start.set .TW_STAT_PROTO 0).emit (.twNak .address)
      else twWrite s.start (twHead a 0x10 ++ ([count] ++ leBytes 4 ofs.toNat ++ [len])) s.twPec e fun s => regrdServe s a ofs.toNat len.toNat late n) := by
  have hx : exec (.regrd a count ofs len e late n) s = execRegrd a count ofs len e late n s := rfl
  rw [hx]
  unfold execRegrd
  rw [twXfer_serves h]
  rfl

theorem exec_regrd_unfit (h : s.twServes a 0x10) {count len : Byte} (hfit : ¬(count = 5 ∧ len.toNat ≤ 252 ∧ len.toNat % 4 = 0)) (ofs : BitVec 32) (e : TwEnd) (late n : Nat) :
    exec (.regrd a count ofs len e late n) s = .next (s.start.emit (.twNak (if count = 5 then .data else .count))) := by
  rw [exec_regrd h]
  by_cases hcount : count = 5
  · have hbad : 252 < len.toNat ∨ len.toNat % 4 ≠ 0 := by
      simp only [hcount, true_and] at hfit
      omega
    rw [if_neg (not_not.mpr hcount), if_pos hbad, if_pos hcount]
  · rw [if_pos hcount, if_neg hcount]

theorem exec_regrd_fit (h : s.twServes a 0x10) {count len : Byte} (hfit : count = 5 ∧ len.toNat ≤ 252 ∧ len.toNat % 4 = 0) (ofs : BitVec 32) {e : TwEnd} (late n : Nat)
    (he : ¬(e = .stop none ∧ s.twPec = true)) : exec (.regrd a count ofs len e late n) s =
    .next (twWrite s.start (twHead a 0x10 ++ ([count] ++ leBytes 4 ofs.toNat ++ [len])) s.twPec e fun s => regrdServe s a ofs.toNat len.toNat late n) := by
  obtain ⟨hcount, hmax, hdw⟩ := hfit
  rw [exec_regrd h, if_neg (not_not.mpr hcount), if_neg (by omega), if_neg he]

/-- With the PEC that applies, the read part is served. -/
theorem exec_regrd_runs (h : s.twServes a 0x10) {count len : Byte} (hfit : count = 5 ∧ len.toNat ≤ 252 ∧ len.toNat % 4 = 0) (ofs : BitVec 32) {e : TwEnd} (late n : Nat)
    (he : e = .stop (if s.twPec then some (pecOf (twHead a 0x10 ++ ([count] ++ leBytes 4 ofs.toNat ++ [len]))) else none)) :
    exec (.regrd a count ofs len e late n) s = .next (regrdServe s.start a ofs.toNat len.toNat late n) := by
  rw [exec_regrd_fit h hfit ofs late n, he, twWrite_whole]
  rintro ⟨hnone, hpec⟩
  simp [he, hpec] at hnone

theorem exec_regrd_missing (h : s.twServes a 0x10) {count len : Byte} (hfit : count = 5 ∧ len.toNat ≤ 252 ∧ len.toNat % 4 = 0) (ofs : BitVec 32) (late n : Nat)
    (hpec : s.twPec = true) : exec (.regrd a count ofs len (.stop none) late n) s = .next ((s.start.set .TW_STAT_PROTO 0).emit (.twNak .address)) := by
  obtain ⟨hcount, hmax, hdw⟩ := hfit
  rw [exec_regrd h, if_neg (not_not.mpr hcount), if_neg (by omega), if_pos ⟨rfl, hpec⟩]

/-- A read of n bytes by which only PROTO changes. -/
theorem twRead_sends (s : State) (l form : List Byte) (pec : Bool) (n : Nat) : Does s (.next (twRead s l form pec n)) [.TW_STAT_PROTO] fun u =>
    (n ≠ (twFull l form pec).length → u.on .TW_STAT_PROTO 0 = true) ∧ u.out = s.out ++ [twSent (twFull l form pec) n] := by
  by_cases hn : n = (twFull l form pec).length
  · rw [twRead_whole _ hn]
    exact ⟨_, rfl, ⟨fun h => absurd hn h, rfl⟩, fun _ _ _ => rfl, memSame_refl s⟩
  · rw [twRead_other _ hn]
    refine ⟨_, rfl, ⟨fun _ => set_on s (f := .TW_STAT_PROTO) 0 (by decide), rfl⟩, fun f i hf => ?_, memSame_refl s⟩
    refine s.rd_wr_ne (f := .TW_STAT_PROTO) (i := 0) 1 fun h => hf ?_
    simp [h.1]

end Sys2Proof.Machine
end

section
open Sys2Proof Sys2Proof.Machine

/-- Settles O50: each write is judged by its bytes and its end, and one that passes is executed on the state it found. -/
theorem twoWireWrites : Obligations.TwoWireWrites := by
  unfold Obligations.TwoWireWrites
  intro s a n count len b0 b1 b2 b3 ofs e late room block m regrd regwr chunk done alert bus mctp on rows served nak bit pec runs idle had head fits k got form full at_
  have hserves : ∀ {c}, served c → s.twServes a c := fun ⟨hreset, hclock, hmine, hstandby, hbusy, hdrains, hwrites, hcode, htaken⟩ =>
    ⟨⟨hreset, hclock, hmine⟩, hstandby, fun h => h.elim (fun h => absurd (hbusy.symm.trans h) (by decide)) hdrains, hwrites, hcode, htaken⟩
  have hrows : ∀ y ∈ rows, served y.1 → ∃ g, IsTwWrite s a e y.1 y.2.1 y.2.2.1 y.2.2.2.1 y.2.2.2.2.1 y.2.2.2.2.2 g := by
    simp only [rows, List.mem_cons, List.not_mem_nil, or_false]
    rintro y (rfl | rfl | rfl | rfl | rfl | rfl) h
    · exact ⟨_, regwr_isTwWrite e block (hserves h)⟩
    · exact ⟨_, fwchunk_isTwWrite e block (hserves h)⟩
    · exact ⟨_, fwdone_isTwWrite e (hserves h)⟩
    · exact ⟨_, alertcfg_isTwWrite e b0 b1 (hserves h)⟩
    · exact ⟨_, buscfg_isTwWrite e b0 b1 b2 b3 (hserves h)⟩
    · exact ⟨_, mctpPacket_isTwWrite e block room (hserves h)⟩
  refine ⟨fun y hy h => ?_, ?_⟩
  · obtain ⟨g, hg⟩ := hrows y hy h
    exact isTwWrite_ends hg
  refine ⟨fun h hfit => ?_, fun h hfit he => ?_, fun h hfit he => ?_, fun h hfit hpec he => ?_, fun p h hfit hpec he hp => ?_, fun p h hfit hpec he => ?_,
    fun h hfit hlate => ?_, fun h hfit hlate => ?_, fun i hi hlate => regrdGo_late s.start late k _ i hi hlate, ?_⟩
  · rw [show regrd = _ from exec_regrd_unfit (hserves h) hfit ofs e late n]
    exact nak_does s _
  · subst he
    rw [show regrd = _ from exec_regrd_fit (hserves h) hfit ofs late n (by simp)]
    exact twWrite_early_does
  · subst he
    rw [show regrd = _ from exec_regrd_fit (hserves h) hfit ofs late n (by simp)]
    exact twWrite_over_does
  · subst he
    rw [show regrd = _ from exec_regrd_missing (hserves h) hfit ofs late n hpec]
    exact set_does s .TW_STAT_PROTO (by decide) rfl
  · subst he
    rw [show regrd = _ from exec_regrd_fit (hserves h) hfit ofs late n (by simp), show s.twPec = true from hpec]
    exact twWrite_wrong_does hp
  · subst he
    rw [show regrd = _ from exec_regrd_fit (hserves h) hfit ofs late n (by simp), show s.twPec = false from hpec]
    exact twWrite_unasked_does p
  · obtain ⟨h, he⟩ := h
    rw [show regrd = _ from exec_regrd_runs (hserves h) hfit ofs late n he, regrdServe, if_pos hlate]
    exact busyNak_does s rfl rfl (memSame_refl s)
  · obtain ⟨h, he⟩ := h
    rw [show regrd = _ from exec_regrd_runs (hserves h) hfit ofs late n he, regrdServe, if_neg (by rw [hlate]; decide)]
    exact twRead_sends got.2 [twRdAddr a] form s.twPec n
  have hwrite : ∀ {c p g x q ok l}, IsTwWrite s a e c x p ok l q g → ok = true → runs c p l → x = .next (g s.start) := fun h hok hrun =>
    isTwWrite_runs h hok hrun.2
  have howns : ∀ {c}, c = 0x20 ∨ c = 0x21 → served c → s.start.loadTaken .twoWire = false := by
    rintro c (rfl | rfl) h <;> exact (hserves h).2.2.2.2.2
  have htwIdle : ∀ l, s.start.fwLoad = some l → l.idle = s.start.twIdle := fun l hl => by rw [State.twIdle, hl]
  refine ⟨fun h hm => ?_, fun h hlo hhi hdw hat => ?_, fun h hm hno => ?_, fun h hm hne hok => ?_, fun h hshut => ?_, fun h hchk hok => ?_, fun h hb => ?_,
    fun h h0 h1 h2 h3 => ?_, fun h hroom hfree hm => ?_⟩
  · have hnil : block = [] := List.length_eq_zero_iff.mp hm
    subst hnil
    rw [show regwr = _ from hwrite (regwr_isTwWrite e [] (hserves h.1)) rfl h]
    exact nothing_does s
  · have hcount : regwrCount block.length = true := by
      simp only [regwrCount, Bool.or_eq_true, decide_eq_true_eq]
      exact .inr ⟨hlo, hhi, hdw⟩
    have hne : block ≠ [] := fun hnil => absurd (hnil ▸ hlo : 4 ≤ ([] : List Byte).length) (by decide)
    have hlive : s.dead = false := dead_of_twServed (hserves h.1).2.2.2.2.1 (by decide)
    rw [show regwr = _ from hwrite (regwr_isTwWrite e block (hserves h.1)) hcount h, exec_registerWrite_regwrDo hlive hne hat]
  · rw [show chunk = _ from hwrite (fwchunk_isTwWrite e block (hserves h.1)) (decide_eq_true hm) h]
    have hstays : (if s.start.loadOk s.start.twIdle then loadAppend s.start .twoWire s.start.twIdle block else s.start) = s.start := by
      obtain hm | hoff := hno
      · rw [List.length_eq_zero_iff.mp hm, loadAppend_nil, ite_self]
      · exact if_neg (Bool.eq_false_iff.mp hoff)
    rw [hstays]
    exact ⟨s.start, rfl, ⟨rfl, rfl⟩, fun _ _ _ => rfl, memSame_refl s⟩
  · rw [show chunk = _ from hwrite (fwchunk_isTwWrite e block (hserves h.1)) (decide_eq_true hm) h]
    rw [if_pos (show s.start.loadOk s.start.twIdle = true from hok)]
    have hne' : block ≠ [] := fun hnil => hne (List.length_eq_zero_iff.mpr hnil)
    obtain ⟨-, -, htotal, hbegun⟩ := loadAppend_spec (s := s.start) (r := .twoWire) (idle := s.start.twIdle) hne'
    exact doesPend_of ⟨loadAppend_fwLoad hne' (howns (.inl rfl) h.1) htwIdle, htotal, hbegun⟩ (loadAppend_k (by decide) (keepsR_refl s _)) loadAppend_pends
  · rw [show done = _ from hwrite (fwdone_isTwWrite e (hserves h.1)) rfl h, loadDone_shut (idle := s.start.twIdle) (howns (.inr rfl) h.1) hshut]
    exact ⟨s.start, rfl, ⟨rfl, rfl⟩, fun _ _ _ => rfl, memSame_refl s⟩
  · obtain ⟨hon, hbusy, hload, hregs, hmems⟩ := loadDone_spec (s := s.start) (idle := s.start.twIdle) (howns (.inr rfl) h.1) hchk hok
    rw [show done = _ from hwrite (fwdone_isTwWrite e (hserves h.1)) rfl h]
    exact ⟨_, rfl, ⟨hon, hbusy, hload.trans (loadOwned_fwLoad (howns (.inr rfl) h.1) htwIdle)⟩, hregs, memSame_of_mems (s := s) hmems⟩
  · rw [show alert = _ from hwrite (alertcfg_isTwWrite e b0 b1 (hserves h.1)) (decide_eq_true hb) h]
    exact alertcfgDo_does s b0 hb
  · rw [show bus = _ from hwrite (buscfg_isTwWrite e b0 b1 b2 b3 (hserves h.1)) (decide_eq_true ⟨h0, h1, h2, h3⟩) h]
    exact buscfgDo_does s h0 h1 h2
  · have hok : (room && s.fwFree && decide (block.length = 0 ∨ 5 ≤ block.length ∧ block.length ≤ 255)) = true := by
      rw [hroom, hfree, Bool.true_and, Bool.true_and, decide_eq_true_eq]
      exact hm
    rw [show mctp = _ from hwrite (mctpPacket_isTwWrite e block room (hserves h.1)) hok h]
    exact mctpIn_does s block

end

section
/-! What the operations of the boot and of the low-power states leave alone: the memories, the load and the images, a hot switch under way, and what has been sent. -/
namespace Sys2Proof.Machine
variable (s : State)

/-- The memories but the NVM, the load, the images, the hot switch, and what the command has sent. -/
def State.rest (s : State) := (s.imem, s.dmem, s.tower, s.win, s.fwLoad, s.bankA, s.bankB, s.hot, s.out)

/-- The same with the NVM. -/
def State.kept (s : State) := (s.rest, s.nvm)

theorem rest_iff {s t : State} : t.rest = s.rest ↔ t.imem = s.imem ∧ t.dmem = s.dmem ∧ t.tower = s.tower ∧ t.win = s.win ∧ t.fwLoad = s.fwLoad ∧ t.bankA = s.bankA
    ∧ t.bankB = s.bankB ∧ t.hot = s.hot ∧ t.out = s.out := by
  simp [State.rest]

theorem mems_of_kept {s t : State} (h : t.kept = s.kept) : t.mems = s.mems := by
  obtain ⟨hrest, hnvm⟩ := Prod.ext_iff.mp h
  obtain ⟨hi, hd, ht, hw, -⟩ := rest_iff.mp hrest
  exact mems_iff.mpr ⟨hi, hd, ht, hnvm, hw⟩

@[simp] theorem State.wr_kept (f : Fld) (i v : Nat) : (s.wr f i v).kept = s.kept := rfl
@[simp] theorem State.set_kept (f : Fld) (i : Nat) : (s.set f i).kept = s.kept := rfl
@[simp] theorem State.clr_kept (f : Fld) (i : Nat) : (s.clr f i).kept = s.kept := rfl
@[simp] theorem State.wrB_kept (f : Fld) (i : Nat) (b : Bool) : (s.wrB f i b).kept = s.kept := rfl
@[simp] theorem State.wrBit_kept (f : Fld) (i b : Nat) (v : Bool) : (s.wrBit f i b v).kept = s.kept := rfl

@[simp] theorem State.raise_kept (src kind addr : Nat) : (s.raise src kind addr).kept = s.kept := by
  unfold State.raise
  split <;> rfl

@[simp] theorem State.raiseCause_kept (src kind addr : Nat) : (s.raiseCause src kind addr).kept = s.kept := State.raise_kept _ src kind addr

@[simp] theorem State.alert_kept (c : Nat) : (s.alert c).kept = s.kept := by
  unfold State.alert
  split <;> rfl

theorem ite_kept {s a b : State} {c : Prop} [Decidable c] (ha : a.kept = s.kept) (hb : b.kept = s.kept) : (if c then a else b).kept = s.kept := by
  split <;> assumption

theorem foldl_kept {α : Type} (l : List α) (f : State → α → State) (h : ∀ s a, (f s a).kept = s.kept) : (l.foldl f s).kept = s.kept :=
  List.foldlRecOn (motive := fun u : State => u.kept = s.kept) l f rfl fun u hu a _ => (h u a).trans hu

theorem State.each_kept {α : Type} (l : List α) (f : State → α → State) (h : ∀ s a, (f s a).kept = s.kept) : (s.each l f).kept = s.kept :=
  foldl_kept s l f h

/-! Domains and clocks. -/

@[simp] theorem domsOn_kept (ds : List Nat) : (domsOn s ds).kept = s.kept := s.each_kept _ _ fun _ _ => rfl
@[simp] theorem domsOff_kept (ds : List Nat) : (domsOff s ds).kept = s.kept := s.each_kept _ _ fun _ _ => rfl
@[simp] theorem markFailed_kept (ds : List Nat) : (markFailed s ds).kept = s.kept := s.each_kept _ _ fun _ _ => rfl
@[simp] theorem stateGates_kept (was : Nat → Bool) (busy : Nat) : (stateGates s was busy).kept = s.kept := s.each_kept _ _ fun _ _ => rfl

@[simp] theorem quadMarks_kept : (quadMarks s).kept = s.kept := s.each_kept _ _ fun s q => by
  split <;> simp

/-! Calibration (R50, R206, R213). -/

@[simp] theorem setTrim_kept (x i w : Nat) : (setTrim s x i w).kept = s.kept := rfl
@[simp] theorem calShow_kept (n : Nat) : (calShow s n).kept = s.kept := rfl
@[simp] theorem laneEvent_kept (n kind side slice : Nat) : (laneEvent s n kind side slice).kept = s.kept := s.raise_kept _ _ _
@[simp] theorem rxEvent_kept (x kind slice : Nat) : (rxEvent s x kind slice).kept = s.kept := laneEvent_kept s _ _ _ _

@[simp] theorem rxDefault_kept (x : Nat) : (rxDefault s x).kept = s.kept := by
  refine (State.clr_kept ..).trans ((State.wr_kept ..).trans ((State.wr_kept ..).trans ?_))
  exact foldl_kept s _ _ fun _ _ => rfl

@[simp] theorem rxRestore_kept (x v : Nat) : (rxRestore s x v).kept = s.kept := by
  unfold rxRestore
  extract_lets a usable b c d
  have ha : a.kept = s.kept := foldl_kept s _ _ fun s i => setTrim_kept s _ _ _
  have hb : b.kept = s.kept := (foldl_kept a _ _ fun s i => s.wr_kept _ _ _).trans ha
  have hc : c.kept = s.kept := (b.each_kept _ _ fun s e => s.wr_kept _ _ _).trans hb
  have hd : d.kept = s.kept := (c.wrB_kept _ _ _).trans hc
  split
  · split
    · exact (rxEvent_kept ..).trans hd
    · exact hd
  · exact hd

@[simp] theorem calRestore_kept (n : Nat) : (calRestore s n).kept = s.kept := by
  unfold calRestore
  cases s.goodRecord n <;> simp

@[simp] theorem calRestoreAll_kept : (calRestoreAll s).kept = s.kept := by
  unfold calRestoreAll
  extract_lets a b
  have ha : a.kept = s.kept := (State.clr_kept ..).trans (State.wr_kept ..)
  have hb : b.kept = s.kept := (foldl_kept a _ _ calRestore_kept).trans ha
  clear_value b
  exact hb

/-! The repair list (R438). -/

@[simp] theorem spareRecount_kept (t c : Nat) : (spareRecount s t c).kept = s.kept := rfl
@[simp] theorem repCheck_kept : (repCheck s).kept = s.kept := s.each_kept _ _ fun s _ => by simp

@[simp] theorem repApply_kept (t : Nat) (cs : List Nat) : (repApply s t cs).kept = s.kept := by
  refine (State.each_kept _ _ _ fun s c => spareRecount_kept s t c).trans (s.each_kept _ _ fun s i => ?_)
  cases s.repAt i with
  | none => rfl
  | some e => exact ite_kept rfl rfl

theorem setNvms_rest (a : Nat) (l : List Byte) : (s.setNvms a l).rest = s.rest :=
  List.foldlRecOn (motive := fun u : State => u.rest = s.rest) _ _ rfl fun _ hu _ _ => hu

theorem repTidy_rest : (repTidy s).rest = s.rest := by
  unfold repTidy
  split
  · rfl
  · exact (setNvms_rest ..).trans (setNvms_rest ..)

theorem repBad_of_nvm {s t : State} (h : t.nvm = s.nvm) : t.repBad = s.repBad := by
  have hbytes : t.getNvms = s.getNvms := by
    funext a n
    simp only [State.getNvms, State.getNvm, h]
  simp only [State.repBad, State.repCount, State.repAt, hbytes]

theorem repTidy_of_good {s : State} (h : s.repBad = [] ∨ s.mgmtAway = true) : repTidy s = s := by
  refine if_pos ?_
  obtain h | h := h <;> simp [h]

end Sys2Proof.Machine
end

section
/-! The start of the firmware (R466, R548): the mailboxes' requests with a CMD that no command has are answered, and a held trap goes out. -/
namespace Sys2Proof.Machine
variable {s t u : State}

/-- What may change where the mailboxes are answered: responses, the pending bits of the first MSI-X vectors, and what is sent. -/
def State.mails (s t : State) : Prop :=
  ((t.imem = s.imem ∧ t.dmem = s.dmem ∧ t.tower = s.tower ∧ t.nvm = s.nvm) ∧ (t.fwLoad = s.fwLoad ∧ t.bankA = s.bankA ∧ t.bankB = s.bankB ∧ t.hot = s.hot))
    ∧ (∀ a, ¬(0x9800 ≤ a ∧ a < 0x9C00) → ¬(0x301400 ≤ a ∧ a < 0x301800) → a ≠ 0x10800 → t.getWin a = s.getWin a) ∧ ∀ o ∈ s.out, o ∈ t.out

theorem mails_of_kept (h : t.kept = s.kept) : s.mails t := by
  obtain ⟨hrest, hnvm⟩ := Prod.ext_iff.mp h
  obtain ⟨hi, hd, ht, hw, hl, ha, hb, hh, ho⟩ := rest_iff.mp hrest
  exact ⟨⟨⟨hi, hd, ht, hnvm⟩, hl, ha, hb, hh⟩, fun _ _ _ _ => by rw [State.getWin, State.getWin, hw], fun _ h => ho ▸ h⟩

theorem mails_trans (h : s.mails t) (h' : t.mails u) : s.mails u := by
  obtain ⟨⟨⟨hi, hd, ht, hn⟩, hl, ha, hb, hh⟩, hw, ho⟩ := h
  obtain ⟨⟨⟨hi', hd', ht', hn'⟩, hl', ha', hb', hh'⟩, hw', ho'⟩ := h'
  exact ⟨⟨⟨hi'.trans hi, hd'.trans hd, ht'.trans ht, hn'.trans hn⟩, hl'.trans hl, ha'.trans ha, hb'.trans hb, hh'.trans hh⟩,
    fun a h1 h2 h3 => (hw' a h1 h2 h3).trans (hw a h1 h2 h3), fun o h => ho' o (ho o h)⟩

theorem mails_msix (s : State) {v : Nat} (hv : v < 8) : s.mails (s.msix v) := by
  obtain ⟨hmem, hwin⟩ := msix_pends s hv
  refine ⟨⟨hmem, ?_⟩, fun a _ _ h => hwin a h, ?_⟩
  · simp
  · unfold State.msix
    dsimp only
    split
    · exact fun _ h => h
    · exact fun _ h => List.mem_append_left _ h

theorem mails_setDev (s : State) (st : Nat) : s.mails (s.setDev st) := by
  unfold State.setDev
  split
  · exact mails_of_kept rfl
  · exact mails_trans (mails_of_kept (by simp)) (mails_msix _ (by decide))

/-- A run of bytes leaves the bytes outside it. -/
theorem getWin_setWins_out (s : State) (base : Nat) (l : List Byte) {a : Nat} (h : a < base ∨ base + l.length ≤ a) : (s.setWins base l).getWin a = s.getWin a := by
  refine List.foldlRecOn (motive := fun u : State => u.getWin a = s.getWin a) _ _ rfl fun u hu e he => ?_
  have hlt : e.2 < l.length := by
    have := List.snd_lt_of_mem_zipIdx he
    omega
  exact (u.getWin_setWin_ne _ (by omega)).trans hu

theorem setWins_mails (s : State) {m : Nat} {msg : List Byte} (h : msg.length ≤ 1024) : s.mails (s.setWins (mbRspAt m) msg) := by
  have hkept : (s.setWins (mbRspAt m) msg).imem = s.imem ∧ (s.setWins (mbRspAt m) msg).dmem = s.dmem ∧ (s.setWins (mbRspAt m) msg).tower = s.tower
      ∧ (s.setWins (mbRspAt m) msg).nvm = s.nvm ∧ (s.setWins (mbRspAt m) msg).fwLoad = s.fwLoad ∧ (s.setWins (mbRspAt m) msg).bankA = s.bankA
      ∧ (s.setWins (mbRspAt m) msg).bankB = s.bankB ∧ (s.setWins (mbRspAt m) msg).hot = s.hot ∧ (s.setWins (mbRspAt m) msg).out = s.out :=
    List.foldlRecOn (motive := fun u : State => u.imem = s.imem ∧ u.dmem = s.dmem ∧ u.tower = s.tower ∧ u.nvm = s.nvm ∧ u.fwLoad = s.fwLoad ∧ u.bankA = s.bankA
      ∧ u.bankB = s.bankB ∧ u.hot = s.hot ∧ u.out = s.out) _ _ ⟨rfl, rfl, rfl, rfl, rfl, rfl, rfl, rfl, rfl⟩ fun _ hu _ _ => hu
  obtain ⟨hi, hd, ht, hn, hl, ha, hb, hh, ho⟩ := hkept
  refine ⟨⟨⟨hi, hd, ht, hn⟩, hl, ha, hb, hh⟩, fun a h1 h2 _ => getWin_setWins_out s _ _ ?_, fun _ h => ho ▸ h⟩
  unfold mbRspAt
  split <;> omega

theorem respMsg_length (req : List Byte) (status : Nat) : (respMsg req status []).length = 16 := by
  simp [respMsg, sliceBytes, leBytes]

theorem mbAnswer_mails (s : State) (m : Nat) {msg : List Byte} (h : msg.length ≤ 1024) : s.mails (mbAnswer s m msg) := by
  unfold mbAnswer
  extract_lets a b
  have hb : s.mails b := mails_trans (setWins_mails s h) (mails_of_kept rfl)
  split
  · exact mails_trans hb (mails_msix b (by decide))
  · exact mails_trans hb (mails_of_kept (b.alert_kept 2))

theorem serveUnknown_mails (s : State) : s.mails (serveUnknown s) := by
  refine List.foldlRecOn (motive := s.mails) _ _ (mails_of_kept rfl) fun u hu m _ => ?_
  split
  · exact mails_trans hu (mbAnswer_mails u m (by rw [respMsg_length]; decide))
  · exact hu

/-- The firmware is shown ready, and a held trap goes out. -/
def fwShown (s : State) : State :=
  let s := fwShow s true
  if s.on .FLT_GSTAT_TRAPPEND 0 then (s.clr .FLT_GSTAT_TRAPPEND 0).emit .trap else s

theorem fwShown_mails (s : State) : s.mails (fwShown s) := by
  unfold fwShown
  extract_lets a
  have ha : s.mails a := mails_of_kept rfl
  split
  · exact mails_trans ha ⟨⟨⟨rfl, rfl, rfl, rfl⟩, rfl, rfl, rfl, rfl⟩, fun _ _ _ _ => rfl, fun _ h => List.mem_append_left _ h⟩
  · exact ha

theorem fwUp_mails (s : State) : s.mails (fwUp s) := mails_trans (fwShown_mails s) (serveUnknown_mails _)

theorem rd_fwShown {f : Fld} (i : Nat) (hf : f ∉ ([.X_FWUP, .MB_STAT_NOFW, .TW_MBSTAT_NOFW, .FLT_GSTAT_TRAPPEND] : List Fld)) : (fwShown s).rd f i = s.rd f i := by
  simp only [List.mem_cons, List.not_mem_nil, or_false, not_or] at hf
  obtain ⟨hup, hmb, htw, htrap⟩ := hf
  have hshow : (fwShow s true).rd f i = s.rd f i := by simp [fwShow, State.wrB_def, State.rd_wr, hup, hmb, htw]
  unfold fwShown
  dsimp only
  split
  · exact (State.rd_wr_ne _ 0 fun h => htrap h.1).trans hshow
  · exact hshow

theorem fwShown_spec (s : State) : (fwShown s).rd .X_FWUP 0 = 1 ∧ (fwShown s).rd .MB_STAT_NOFW 0 = 0
    ∧ (s.on .FLT_GSTAT_TRAPPEND 0 = true → (fwShown s).on .FLT_GSTAT_TRAPPEND 0 = false ∧ .trap ∈ (fwShown s).out) := by
  have hup : (fwShow s true).rd .X_FWUP 0 = 1 := by
    simp [fwShow, State.wrB_def, State.rd_wr]
    decide
  have hmb : (fwShow s true).rd .MB_STAT_NOFW 0 = 0 := by simp [fwShow, State.wrB_def, State.rd_wr]
  have htrap : (fwShow s true).on .FLT_GSTAT_TRAPPEND 0 = s.on .FLT_GSTAT_TRAPPEND 0 := by simp [fwShow, State.wrB_def, State.on, State.rd_wr]
  unfold fwShown
  dsimp only
  rw [htrap]
  split
  · next h =>
    refine ⟨(State.rd_wr_ne (f := .FLT_GSTAT_TRAPPEND) (i := 0) _ 0 (by decide)).trans hup,
      (State.rd_wr_ne (f := .FLT_GSTAT_TRAPPEND) (i := 0) _ 0 (by decide)).trans hmb, fun _ => ⟨?_, List.mem_append_right _ (by simp)⟩⟩
    exact bne_eq_false_iff_eq.mpr (State.rd_wr_same _ .FLT_GSTAT_TRAPPEND 0 0)
  · next h => exact ⟨hup, hmb, fun h' => absurd h' h⟩

/-- What the mailboxes and the repair list see when firmware is up is all that changes. -/
theorem doesMailNvm_of {l : List Fld} {P : State → Prop} (hP : P t) (hk : KeepsR s t.regs l) (hm : s.mails u) (hr : t.rest = u.rest) :
    DoesMailNvm s (.next t) l P := by
  obtain ⟨⟨⟨hi, hd, ht, -⟩, -⟩, hw, -⟩ := hm
  obtain ⟨hi', hd', ht', hw', -⟩ := rest_iff.mp hr
  refine ⟨t, rfl, hP, fldsBut_of hk, fun _ _ => ?_, fun _ _ => ?_, ht'.trans ht, fun a h1 h2 h3 => ?_⟩
  · rw [State.getI, State.getI, hi', hi]
  · rw [State.getD, State.getD, hd', hd]
  · have h := hw a h1 h2 h3
    rwa [State.getWin, State.getWin, ← hw'] at h

end Sys2Proof.Machine
end

section
/-! Hot reload (R53, R56 to R58): the commands and the events of a hot switch, each by its cases. -/
namespace Sys2Proof.Machine
variable {s : State} {r : Route}

theorem stays_does {P : State → Prop} (h : P s.start) : DoesAt s (.next s.start) [] P := ⟨_, rfl, h, fun _ _ _ => rfl, memSame_refl s⟩

theorem exec_hotSwitch (h : s.takes r 0x18) : exec (.hotSwitch r) s = .next (devCmd s.start s.maySwitch hotBegin) := by
  change execHotSwitch r s = _
  unfold execHotSwitch
  exact live_gate s r 0x18 (fun s => devCmd s s.maySwitch hotBegin) h

/-- One field of a state is written. -/
theorem wr_does {t : State} {P : State → Prop} {f : Fld} (v : Nat) (hr : t.regs = s.regs) (hm : s.memSame t) (h : P (t.wr f 0 v)) :
    DoesAt s (.next (t.wr f 0 v)) [(f, 0)] P := by
  refine ⟨_, rfl, h, fun g i hg => ?_, hm⟩
  refine (t.rd_wr_ne (f := f) (i := 0) v fun he => hg ?_).trans (by rw [State.rd, State.rd, hr])
  simp [he.1, he.2]

theorem devCmd_busy {t : State} {ok : Bool} {f : State → State} (h : t.hot ≠ .none) : devCmd t ok f = t := if_pos h
theorem devCmd_refused {t : State} {f : State → State} (h : t.hot = .none) : devCmd t false f = t.wr .DEV_CMD_RESULT 0 2 := if_neg (not_not.mpr h)
theorem devCmd_taken {t : State} {f : State → State} (h : t.hot = .none) : devCmd t true f = f t := (if_neg (not_not.mpr h)).trans (if_pos rfl)

theorem rd_result (t : State) {v : Nat} (h : v < 256) : (t.wr .DEV_CMD_RESULT 0 v).rd .DEV_CMD_RESULT 0 = v :=
  (t.rd_wr_same _ _ _).trans (Nat.mod_eq_of_lt h)

/-- The bank switches at the quiescent point. -/
def hotQuiet (s : State) : State :=
  let s := { coreStop s with hot := .switched }
  (s.wrB .DEV_STATE_BANK 0 (!s.on .DEV_STATE_BANK 0)).wr .X_CORE 0 2

theorem exec_hotSwitchQuiescent (hlive : s.dead = false) : exec .hotSwitchQuiescent s
    = .next (if s.hot = .draining ∧ s.on .X_FWUP 0 = true ∧ s.fwFree = true then hotQuiet s.start else s.start) := by
  change execHotSwitchQuiescent s = _
  unfold execHotSwitchQuiescent
  rw [live_of _ _ hlive]
  rfl

theorem exec_hotSwitchTimeout (hlive : s.dead = false) : exec .hotSwitchTimeout s
    = .next (if s.hot = .draining then ({ s.start with hot := .none }.wr .DEV_CMD_RESULT 0 4).wr .DEV_STATE_LASTERR 0 0x0A else s.start) := by
  change execHotSwitchTimeout s = _
  unfold execHotSwitchTimeout
  rw [live_of _ _ hlive]
  rfl

theorem exec_switchBack (hlive : s.dead = false) : exec .switchBack s = .next (if s.hot = .switched then switchBack s.start else s.start) := by
  change execSwitchBack s = _
  unfold execSwitchBack
  rw [live_of _ _ hlive]
  rfl

/-- What FW_READY settles before the firmware is shown: the core's start, the hot switch, the command that stopped it. -/
def coreReady (s : State) : State :=
  let s := s.wr .X_CORE 0 0
  let s := if s.hot = .switched then ({ s with hot := .none }.wr .DEV_CMD_RESULT 0 0).clr .DEV_STATE_HR_PEND 0 else s
  if s.on .X_CORE_CMD 0 then (s.clr .X_CORE_CMD 0).wr .RST_CMD_RESULT 0 0 else s

theorem exec_fwReady (hlive : s.dead = false) :
    exec .fwReady s = .next (if s.rd .X_CORE 0 ≠ 2 then s.start else repTidy (fwUp (coreReady s.start))) := by
  change execFwReady s = _
  unfold execFwReady
  rw [live_of _ _ hlive]
  rfl

/-! The core stops and the bank switches (R57). -/

theorem rd_coreStop (s : State) {f : Fld} (i : Nat) (hf : f ∉ ([.X_SPDM, .X_MCTP_N] : List Fld)) : (coreStop s).rd f i = (fwShow s false).rd f i := by
  simp only [List.mem_cons, List.not_mem_nil, or_false, not_or] at hf
  have hregs : (coreStop s).regs = ((fwShow s false).drop fun k => k.1 == .X_SPDM || k.1 == .X_MCTP_N).regs := by
    simp [coreStop, State.drop, Bool.not_or, bne]
  have hdrop := (fwShow s false).rd_drop (fun k => k.1 == .X_SPDM || k.1 == .X_MCTP_N) f i
  rw [if_neg (by simp [hf.1, hf.2])] at hdrop
  rw [← hdrop, State.rd, State.rd, hregs]

theorem coreStop_spec (s : State) : (coreStop s).rd .X_FWUP 0 = 0 ∧ (coreStop s).rd .MB_STAT_NOFW 0 = 1 ∧ (coreStop s).spdm = [] ∧ (coreStop s).mems = s.mems := by
  refine ⟨(rd_coreStop s 0 (by decide)).trans ?_, (rd_coreStop s 0 (by decide)).trans ?_, rfl, rfl⟩
  · simp [fwShow, State.wrB_def, State.rd_wr]
  · simp [fwShow, State.wrB_def, State.rd_wr]
    decide

theorem on_wrB (s : State) (f : Fld) (i : Nat) (b : Bool) (hw : f.width ≠ 0) : (s.wrB f i b).on f i = b := by
  cases b
  · exact bne_eq_false_iff_eq.mpr (s.rd_wr_same f i 0)
  · exact set_on s i hw

theorem hotQuiet_does (s : State) : Does s (.next (hotQuiet s.start)) [.DEV_STATE_BANK, .MB_STAT_NOFW, .TW_MBSTAT_NOFW, .X_CORE, .X_FWUP, .X_SPDM, .X_MCTP_N] fun u =>
    u.hot = .switched ∧ u.on .DEV_STATE_BANK 0 = (!s.on .DEV_STATE_BANK 0) ∧ u.rd .X_CORE 0 = 2 ∧ u.on .X_FWUP 0 = false ∧ u.rd .MB_STAT_NOFW 0 = 1 ∧ u.spdm = [] := by
  obtain ⟨hup, hnofw, hspdm, hmems⟩ := coreStop_spec s.start
  let c : State := { coreStop s.start with hot := .switched }
  have hbank : c.on .DEV_STATE_BANK 0 = s.on .DEV_STATE_BANK 0 := congrArg (· != 0) (rd_coreStop_ne s.start 0 (by decide))
  have hrd : ∀ {f}, f ≠ .X_CORE → f ≠ .DEV_STATE_BANK → ∀ i, (hotQuiet s.start).rd f i = (coreStop s.start).rd f i := fun h h' i =>
    (State.rd_wr_ne _ 2 fun he => h he.1).trans (c.rd_wr_ne _ fun he => h' he.1)
  refine ⟨_, rfl, ⟨rfl, ?_, State.rd_wr_same _ _ _ _, ?_, ?_, hspdm⟩, fun f i hf => ?_, memSame_of_mems (s := s) hmems⟩
  · rw [← hbank, State.on, show hotQuiet s.start = (c.wrB .DEV_STATE_BANK 0 (!c.on .DEV_STATE_BANK 0)).wr .X_CORE 0 2 from rfl, State.rd_wr_ne _ _ (by decide)]
    exact on_wrB c .DEV_STATE_BANK 0 _ (by decide)
  · rw [State.on, hrd (by decide) (by decide), hup]
    rfl
  · rw [hrd (by decide) (by decide), hnofw]
  · simp only [List.mem_cons, List.not_mem_nil, or_false, not_or] at hf
    obtain ⟨hb, hmb, htw, hcore, hfw, hx, hm⟩ := hf
    rw [hrd hcore hb]
    exact rd_coreStop_ne s.start i (by simp [coreStopFlds, hfw, hmb, htw, hx, hm])

/-! The old bank comes back (R58). -/

theorem switchBack_switched (h : s.hot = .switched) : switchBack s =
    { ((s.wrBit .DEV_STATE_BANK 0 0 (!s.on .DEV_STATE_BANK 0)).wr .DEV_STATE_LASTERR 0 0x0B).wr .DEV_CMD_RESULT 0 5 with hot := .none }.wr .X_CORE 0 1 := by
  simp [switchBack, h]

theorem on_wrBit_flip (s : State) {f : Fld} (hw : f.width = 1) : (s.wrBit f 0 0 (!s.on f 0)).on f 0 = !s.on f 0 := by
  have hlt : s.rd f 0 < 2 := by simpa [hw] using s.rd_lt f 0
  have hrd : (s.wrBit f 0 0 (!s.on f 0)).rd f 0 = setBitTo (s.rd f 0) 0 (!s.on f 0) % 2 ^ 1 := by rw [State.wrBit, State.rd_wr_same, hw]
  change ((s.wrBit f 0 0 (!s.on f 0)).rd f 0 != 0) = _
  rw [hrd, State.on]
  obtain h | h : s.rd f 0 = 0 ∨ s.rd f 0 = 1 := by omega
  · rw [h]
    decide
  · rw [h]
    decide

theorem switchBack_does (h : s.hot = .switched) :
    DoesAt s (.next (switchBack s.start)) [(.DEV_STATE_BANK, 0), (.DEV_STATE_LASTERR, 0), (.DEV_CMD_RESULT, 0), (.X_CORE, 0)] fun u => u.hot = .none
      ∧ u.on .DEV_STATE_BANK 0 = (!s.on .DEV_STATE_BANK 0) ∧ u.rd .DEV_STATE_LASTERR 0 = 0x0B ∧ u.rd .DEV_CMD_RESULT 0 = 5 ∧ u.rd .X_CORE 0 = 1 := by
  rw [switchBack_switched (s := s.start) h]
  let a := s.start.wrBit .DEV_STATE_BANK 0 0 (!s.start.on .DEV_STATE_BANK 0)
  let b := a.wr .DEV_STATE_LASTERR 0 0x0B
  let c : State := { b.wr .DEV_CMD_RESULT 0 5 with hot := .none }
  have hc : ∀ {f i}, f ≠ .X_CORE → (c.wr .X_CORE 0 1).rd f i = (b.wr .DEV_CMD_RESULT 0 5).rd f i := fun h => c.rd_wr_ne 1 fun he => h he.1
  refine ⟨_, rfl, ⟨rfl, ?_, ?_, ?_, c.rd_wr_same _ _ _⟩, fun f i hf => ?_, memSame_refl s⟩
  · rw [State.on, hc (by decide), b.rd_wr_ne _ (by decide), a.rd_wr_ne _ (by decide)]
    exact on_wrBit_flip s.start (by decide)
  · rw [hc (by decide), b.rd_wr_ne _ (by decide)]
    exact a.rd_wr_same _ _ _
  · rw [hc (by decide)]
    exact b.rd_wr_same _ _ _
  · simp only [List.mem_cons, Prod.mk.injEq, List.not_mem_nil, or_false, not_or] at hf
    obtain ⟨h1, h2, h3, h4⟩ := hf
    rw [c.rd_wr_ne _ h4]
    exact (b.rd_wr_ne 5 h3).trans ((a.rd_wr_ne _ h2).trans (s.start.rd_wr_ne _ h1))

/-! The firmware reports ready (R56, R466, R548, R599). -/

/-- What the ready core does to a hot switch. -/
def hotEnds (s : State) : State := if s.hot = .switched then ({ s with hot := .none }.wr .DEV_CMD_RESULT 0 0).clr .DEV_STATE_HR_PEND 0 else s

/-- What it does to the command that stopped the core. -/
def coreAnswers (s : State) : State := if s.on .X_CORE_CMD 0 then (s.clr .X_CORE_CMD 0).wr .RST_CMD_RESULT 0 0 else s

theorem coreReady_eq (s : State) : coreReady s = coreAnswers (hotEnds (s.wr .X_CORE 0 0)) := rfl

theorem rd_hotEnds {f : Fld} (i : Nat) (h : f ≠ .DEV_CMD_RESULT) (h' : f ≠ .DEV_STATE_HR_PEND) : (hotEnds s).rd f i = s.rd f i := by
  unfold hotEnds
  split
  · exact (State.rd_wr_ne _ 0 fun he => h' he.1).trans (State.rd_wr_ne { s with hot := .none } 0 fun he => h he.1)
  · rfl

theorem rd_coreAnswers {f : Fld} (i : Nat) (h : f ≠ .X_CORE_CMD) (h' : f ≠ .RST_CMD_RESULT) : (coreAnswers s).rd f i = s.rd f i := by
  unfold coreAnswers
  split
  · exact (State.rd_wr_ne _ 0 fun he => h' he.1).trans (s.rd_wr_ne 0 fun he => h he.1)
  · rfl

theorem coreAnswers_kept (s : State) : (coreAnswers s).kept = s.kept := ite_kept rfl rfl

/-- The state whose hot switch the ready core has ended; nothing else but registers differs. -/
theorem coreReady_kept (s : State) : (coreReady s).kept = State.kept { s with hot := if s.hot = .switched then .none else s.hot } := by
  rw [coreReady_eq]
  refine (coreAnswers_kept _).trans ?_
  unfold hotEnds
  by_cases h : s.hot = .switched
  · rw [if_pos (show (s.wr .X_CORE 0 0).hot = .switched from h), if_pos h]
    rfl
  · rw [if_neg (show ¬(s.wr .X_CORE 0 0).hot = .switched from h), if_neg h]
    rfl

theorem coreReady_spec (s : State) : (coreReady s).rd .X_CORE 0 = 0
    ∧ (s.hot = .switched → (coreReady s).rd .DEV_CMD_RESULT 0 = 0 ∧ (coreReady s).on .DEV_STATE_HR_PEND 0 = false)
    ∧ (s.on .X_CORE_CMD 0 = true → (coreReady s).rd .RST_CMD_RESULT 0 = 0) := by
  rw [coreReady_eq]
  refine ⟨?_, fun h => ⟨?_, ?_⟩, fun h => ?_⟩
  · rw [rd_coreAnswers _ (by decide) (by decide), rd_hotEnds _ (by decide) (by decide)]
    exact s.rd_wr_same _ _ _
  · rw [rd_coreAnswers _ (by decide) (by decide), hotEnds, if_pos (show (s.wr .X_CORE 0 0).hot = .switched from h)]
    exact (State.rd_wr_ne _ 0 (by decide)).trans (State.rd_wr_same _ .DEV_CMD_RESULT 0 0)
  · rw [State.on, rd_coreAnswers _ (by decide) (by decide), hotEnds, if_pos (show (s.wr .X_CORE 0 0).hot = .switched from h)]
    exact bne_eq_false_iff_eq.mpr (State.rd_wr_same _ .DEV_STATE_HR_PEND 0 0)
  · have hcmd : (hotEnds (s.wr .X_CORE 0 0)).on .X_CORE_CMD 0 = true := by
      rw [State.on, rd_hotEnds _ (by decide) (by decide), State.rd_wr_ne _ _ (by decide)]
      exact h
    rw [coreAnswers, if_pos hcmd]
    exact State.rd_wr_same _ _ _ _

theorem rd_coreReady {f : Fld} (i : Nat) (hf : f ∉ ([.X_CORE, .DEV_CMD_RESULT, .DEV_STATE_HR_PEND, .X_CORE_CMD, .RST_CMD_RESULT] : List Fld)) :
    (coreReady s).rd f i = s.rd f i := by
  simp only [List.mem_cons, List.not_mem_nil, or_false, not_or] at hf
  obtain ⟨hcore, hres, hpend, hcmd, hrst⟩ := hf
  rw [coreReady_eq, rd_coreAnswers _ hcmd hrst, rd_hotEnds _ hres hpend]
  exact s.rd_wr_ne 0 fun he => hcore he.1

/-- What is served, and the repair list that may be written again, come after. -/
theorem rd_repTidy_fwUp {f : Fld} (s : State) (i : Nat) (hf : f ∉ ([.MB_STAT_PEND, .MB_STAT_RSP, .TW_MBSTAT_PEND, .TW_MBSTAT_RSP, .X_ALERT, .X_MB_FIRST] : List Fld)) :
    (repTidy (fwUp s)).rd f i = (fwShown s).rd f i :=
  repTidy_k (serveUnknown_k (by decide) (keepsR_refl (fwShown s) _)) f i hf

theorem hotLate_does (s : State) : DoesAt s (.next (({ s.start with hot := .none }.wr .DEV_CMD_RESULT 0 4).wr .DEV_STATE_LASTERR 0 0x0A))
    [(.DEV_CMD_RESULT, 0), (.DEV_STATE_LASTERR, 0)] fun u => u.hot = .none ∧ u.rd .DEV_CMD_RESULT 0 = 4 ∧ u.rd .DEV_STATE_LASTERR 0 = 0x0A := by
  let a : State := { s.start with hot := .none }
  refine ⟨_, rfl, ⟨rfl, ?_, State.rd_wr_same _ _ _ _⟩, fun f i hf => ?_, memSame_refl s⟩
  · rw [State.rd_wr_ne _ _ (by decide)]
    exact rd_result a (by decide)
  · simp only [List.mem_cons, Prod.mk.injEq, List.not_mem_nil, or_false, not_or] at hf
    rw [State.rd_wr_ne _ _ hf.2]
    exact a.rd_wr_ne 4 hf.1

/-- What the ready firmware writes. -/
def readyFlds : List Fld := mailFlds ++ ([.DEV_CMD_RESULT, .DEV_STATE_HR_PEND, .FLT_GSTAT_TRAPPEND, .MB_STAT_NOFW, .RST_CMD_RESULT, .TW_MBSTAT_NOFW, .X_CORE,
  .X_CORE_CMD, .X_FWUP] : List Fld)

/-- The firmware of a core that was started is up. -/
theorem fwReady_does (s : State) : DoesMailNvm s (.next (repTidy (fwUp (coreReady s.start)))) readyFlds fun u =>
    (s.repBad = [] → ∀ a, u.getNvm a = s.getNvm a) ∧ u.rd .X_CORE 0 = 0 ∧ u.on .X_FWUP 0 = true ∧ u.rd .MB_STAT_NOFW 0 = 0
      ∧ (s.hot = .switched → u.hot = .none ∧ u.rd .DEV_CMD_RESULT 0 = 0 ∧ u.on .DEV_STATE_HR_PEND 0 = false) ∧ (s.hot ≠ .switched → u.hot = s.hot)
      ∧ (s.on .X_CORE_CMD 0 = true → u.rd .RST_CMD_RESULT 0 = 0) ∧ (s.on .FLT_GSTAT_TRAPPEND 0 = true → u.on .FLT_GSTAT_TRAPPEND 0 = false ∧ .trap ∈ u.out) := by
  let c := coreReady s.start
  have hshown : ([.X_FWUP, .MB_STAT_NOFW, .TW_MBSTAT_NOFW, .FLT_GSTAT_TRAPPEND] : List Fld) ⊆ readyFlds := by decide
  have hready : ([.X_CORE, .DEV_CMD_RESULT, .DEV_STATE_HR_PEND, .X_CORE_CMD, .RST_CMD_RESULT] : List Fld) ⊆ readyFlds := by decide
  let u := repTidy (fwUp c)
  obtain ⟨hcore, hswitch, hcmd⟩ := coreReady_spec s.start
  obtain ⟨hup, hnofw, htrap⟩ := fwShown_spec c
  have hmails : State.mails { s.start with hot := if s.hot = .switched then .none else s.hot } (fwUp c) :=
    mails_trans (mails_of_kept (coreReady_kept s.start)) (fwUp_mails c)
  have ⟨⟨⟨_, _, _, hnvm⟩, _, _, _, hhot⟩, _, _⟩ := hmails
  obtain ⟨-, -, -, -, -, -, -, hhot', hout⟩ := rest_iff.mp (repTidy_rest (fwUp c))
  have hu : ∀ {f}, f ∉ ([.MB_STAT_PEND, .MB_STAT_RSP, .TW_MBSTAT_PEND, .TW_MBSTAT_RSP, .X_ALERT, .X_MB_FIRST] : List Fld) → ∀ i, u.rd f i = (fwShown c).rd f i :=
    fun hf i => rd_repTidy_fwUp c i hf
  have hpend : s.on .FLT_GSTAT_TRAPPEND 0 = true → c.on .FLT_GSTAT_TRAPPEND 0 = true := fun h => by
    rw [State.on, rd_coreReady _ (by decide)]
    exact h
  have hkeeps : KeepsR s u.regs readyFlds := by
    refine repTidy_k (serveUnknown_k (by decide) fun f i hf => ?_)
    exact (rd_fwShown i fun h => hf (hshown h)).trans (rd_coreReady i fun h => hf (hready h))
  refine doesMailNvm_of (s := { s.start with hot := if s.hot = .switched then .none else s.hot }) (u := fwUp c)
    ⟨fun hgood a => ?_, ?_, ?_, ?_, fun h => ⟨?_, ?_, ?_⟩, fun h => ?_, fun h => ?_, fun h => ⟨?_, ?_⟩⟩ hkeeps hmails (repTidy_rest _)
  · have hbad : (fwUp c).repBad = [] := (repBad_of_nvm hnvm).trans hgood
    rw [repTidy_of_good (.inl hbad), State.getNvm, hnvm]
    rfl
  · rw [hu (by decide), rd_fwShown _ (by decide), hcore]
  · rw [State.on, hu (by decide), hup]
    rfl
  · rw [hu (by decide), hnofw]
  · exact (hhot'.trans hhot).trans (if_pos h)
  · rw [hu (by decide), rd_fwShown _ (by decide), (hswitch h).1]
  · rw [State.on, hu (by decide), rd_fwShown _ (by decide)]
    exact (hswitch h).2
  · exact (hhot'.trans hhot).trans (if_neg h)
  · rw [hu (by decide), rd_fwShown _ (by decide), hcmd h]
  · rw [State.on, hu (by decide)]
    exact (htrap (hpend h)).1
  · rw [hout]
    exact (serveUnknown_mails (fwShown c)).2.2 _ (htrap (hpend h)).2

end Sys2Proof.Machine
end

section
open Sys2Proof Sys2Proof.Machine

/-- Settles O44: each event of a hot switch by its cases; what the ready firmware serves leaves the marks of the switch alone. -/
theorem hotReload : Obligations.HotReload := by
  unfold Obligations.HotReload
  intro s r begin_ quiet late ready back stops
  refine ⟨fun ht h => ?_, fun ht h hm => ?_, fun ht h hm => ?_, fun hl h => ?_, fun hl h => ?_, fun hl h => ?_, fun hl h => ?_, fun hl h => ?_, fun hl h => ?_,
    fun hl h => ?_, fun hl h => ?_⟩
  · rw [show begin_ = _ from exec_hotSwitch ht, devCmd_busy (show s.start.hot ≠ .none from h)]
    exact stays_does rfl
  · rw [show begin_ = _ from exec_hotSwitch ht, hm, devCmd_refused (show s.start.hot = .none from h)]
    exact wr_does 2 rfl (memSame_refl s) ⟨rd_result _ (by decide), h⟩
  · rw [show begin_ = _ from exec_hotSwitch ht, hm, devCmd_taken (show s.start.hot = .none from h)]
    exact wr_does (t := { s.start with hot := .draining }) 3 rfl (memSame_refl s) ⟨rd_result _ (by decide), rfl⟩
  · rw [show quiet = _ from exec_hotSwitchQuiescent hl, if_neg h]
    exact stays_does rfl
  · rw [show quiet = _ from exec_hotSwitchQuiescent hl, if_pos h]
    exact hotQuiet_does s
  · rw [show late = _ from exec_hotSwitchTimeout hl, if_neg h]
    exact stays_does rfl
  · rw [show late = _ from exec_hotSwitchTimeout hl, if_pos h]
    exact hotLate_does s
  · rw [show ready = _ from exec_fwReady hl, if_pos h]
    exact stays_does rfl
  · rw [show ready = _ from exec_fwReady hl, if_neg (not_not.mpr h)]
    exact fwReady_does s
  · rw [show back = _ from exec_switchBack hl, if_neg h]
    exact stays_does rfl
  · rw [show back = _ from exec_switchBack hl, if_pos h]
    exact switchBack_does h

end

section
/-! A write of FW_MBX_CTL (R41, R42, R48, R49): its TARGET, then GO, ABORT or DONE. -/
namespace Sys2Proof.Machine
variable {s t u : State}

theorem regsBut_trans {l l' : List (Fld × Nat)} (h : s.regsBut t l) (h' : t.regsBut u l') : s.regsBut u (l ++ l') := fun f i hf => by
  rw [List.mem_append, not_or] at hf
  exact (h' f i hf.2).trans (h f i hf.1)

/-- TARGET takes a value that is not reserved (R6). -/
def fwTarget (s : State) (target : Nat) : State := if target ≤ 1 then s.wr .FW_MBX_CTL_TARGET 0 target else s

variable (s) (target : Fin 4)

theorem fwTarget_regs : s.regsBut (fwTarget s target) [(.FW_MBX_CTL_TARGET, 0)] := by
  intro f i hf
  unfold fwTarget
  split
  · exact s.rd_wr_ne _ fun h => hf (by simp [h.1, h.2])
  · rfl

theorem fwTarget_same : (fwTarget s target).mems = s.mems ∧ (fwTarget s target).fwLoad = s.fwLoad ∧ (fwTarget s target).hot = s.hot ∧ (fwTarget s target).out = s.out := by
  unfold fwTarget
  split <;> exact ⟨rfl, rfl, rfl, rfl⟩

theorem fwTarget_target : (fwTarget s target).rd .FW_MBX_CTL_TARGET 0 = if target.val ≤ 1 then target.val else s.rd .FW_MBX_CTL_TARGET 0 := by
  unfold fwTarget
  split
  · next h => exact (s.rd_wr_same _ _ _).trans (Nat.mod_eq_of_lt (show target.val < 2 ^ 2 from target.isLt))
  · rfl

theorem rd_fwTarget {f : Fld} (i : Nat) (hf : f ≠ .FW_MBX_CTL_TARGET) : (fwTarget s target).rd f i = s.rd f i :=
  fwTarget_regs s target f i (by simp [hf])

theorem fwTarget_loadTaken (r : Route) : (fwTarget s target).loadTaken r = s.loadTaken r := by
  rw [State.loadTaken, State.loadTaken, (fwTarget_same s target).2.1]

theorem fwTarget_loadOk (idle : Bool) : (fwTarget s target).loadOk idle = s.loadOk idle := by
  simp only [State.loadOk, State.dev, (fwTarget_same s target).2.2.1, rd_fwTarget s target 0 (f := .DEV_STATE_STATE) (by decide)]
  rfl

theorem fwTarget_k {fl : List Fld} (hf : .FW_MBX_CTL_TARGET ∈ fl) : KeepsR s (fwTarget s target).regs fl := fun _ i hg =>
  rd_fwTarget s target i fun h => hg (h ▸ hf)

/-- Bits 5:4 of a write are TARGET, bits 2:0 the commands. -/
theorem fwMbxCtl_go : fwMbxCtl s (1 + 16 * target.val) = mbxGo (fwTarget s target) := by
  have htarget : bitsOf (1 + 16 * target.val) 5 4 = target.val := by rw [bitsOf]; omega
  have hgo : bitOf (1 + 16 * target.val) 0 = true := by simp only [bitOf, beq_iff_eq]; omega
  have habort : bitOf (1 + 16 * target.val) 1 = false := by simp only [bitOf, beq_eq_false_iff_ne]; omega
  have hdone : bitOf (1 + 16 * target.val) 2 = false := by simp only [bitOf, beq_eq_false_iff_ne]; omega
  simp only [fwMbxCtl, htarget, hgo, habort, hdone, if_true, Bool.false_eq_true, if_false]
  rfl

theorem fwMbxCtl_abort : fwMbxCtl s (2 + 16 * target.val) = loadAbort (fwTarget s target) := by
  have htarget : bitsOf (2 + 16 * target.val) 5 4 = target.val := by rw [bitsOf]; omega
  have hgo : bitOf (2 + 16 * target.val) 0 = false := by simp only [bitOf, beq_eq_false_iff_ne]; omega
  have habort : bitOf (2 + 16 * target.val) 1 = true := by simp only [bitOf, beq_iff_eq]; omega
  have hdone : bitOf (2 + 16 * target.val) 2 = false := by simp only [bitOf, beq_eq_false_iff_ne]; omega
  simp only [fwMbxCtl, htarget, hgo, habort, hdone, if_true, Bool.false_eq_true, if_false]
  rfl

theorem fwMbxCtl_done : fwMbxCtl s (4 + 16 * target.val) = loadDone (fwTarget s target) .port (fwTarget s target).loadIdle := by
  have htarget : bitsOf (4 + 16 * target.val) 5 4 = target.val := by rw [bitsOf]; omega
  have hgo : bitOf (4 + 16 * target.val) 0 = false := by simp only [bitOf, beq_eq_false_iff_ne]; omega
  have habort : bitOf (4 + 16 * target.val) 1 = false := by simp only [bitOf, beq_eq_false_iff_ne]; omega
  have hdone : bitOf (4 + 16 * target.val) 2 = true := by simp only [bitOf, beq_iff_eq]; omega
  simp only [fwMbxCtl, htarget, hgo, habort, hdone, if_true, Bool.false_eq_true, if_false]
  rfl

variable {s} {r : Route}

theorem exec_fwMbxGo (h : s.takes r 0x8000) : exec (.fwMbxGo r target) s = .next (mbxGo (fwTarget s.start target)) := by
  change execFwMbxGo r target s = _
  unfold execFwMbxGo
  rw [live_gate _ _ _ _ h]
  exact congrArg _ (fwMbxCtl_go s.start target)

theorem exec_fwMbxAbort (h : s.takes r 0x8000) : exec (.fwMbxAbort r target) s = .next (loadAbort (fwTarget s.start target)) := by
  change execFwMbxAbort r target s = _
  unfold execFwMbxAbort
  rw [live_gate _ _ _ _ h]
  exact congrArg _ (fwMbxCtl_abort s.start target)

theorem exec_fwMbxDone (h : s.takes r 0x8000) :
    exec (.fwMbxDone r target) s = .next (loadDone (fwTarget s.start target) .port (fwTarget s.start target).loadIdle) := by
  change execFwMbxDone r target s = _
  unfold execFwMbxDone
  rw [live_gate _ _ _ _ h]
  exact congrArg _ (fwMbxCtl_done s.start target)

/-- Only TARGET is written. -/
theorem fwTarget_does : DoesAt s (.next (fwTarget s.start target)) [(.FW_MBX_CTL_TARGET, 0)] fun u =>
    u.rd .FW_MBX_CTL_TARGET 0 = (if target.val ≤ 1 then target.val else s.rd .FW_MBX_CTL_TARGET 0) ∧ u.fwLoad = s.fwLoad :=
  ⟨_, rfl, ⟨fwTarget_target s.start target, (fwTarget_same s.start target).2.1⟩, fwTarget_regs s.start target, memSame_of_mems (s := s) (fwTarget_same s.start target).1⟩

/-- A chunk or an image is refused with its code. -/
theorem mbxFail_does {code : Nat} (hc : code < 256) : DoesAt s (.next (mbxFail (fwTarget s.start target) code))
    [(.FW_MBX_CTL_TARGET, 0), (.DEV_STATE_LASTERR, 0), (.FW_MBX_STAT_ERR, 0)] fun u =>
      u.rd .FW_MBX_CTL_TARGET 0 = (if target.val ≤ 1 then target.val else s.rd .FW_MBX_CTL_TARGET 0) ∧ u.rd .DEV_STATE_LASTERR 0 = code
        ∧ u.on .FW_MBX_STAT_ERR 0 = true ∧ u.fwLoad = s.fwLoad := by
  have hkeeps : (fwTarget s.start target).regsBut (mbxFail (fwTarget s.start target) code) [(.DEV_STATE_LASTERR, 0), (.FW_MBX_STAT_ERR, 0)] := by
    intro f i hf
    simp only [List.mem_cons, Prod.mk.injEq, List.not_mem_nil, or_false, not_or] at hf
    exact (State.rd_wr_ne _ 1 hf.2).trans (State.rd_wr_ne _ code hf.1)
  refine ⟨_, rfl, ⟨?_, ?_, set_on _ (f := .FW_MBX_STAT_ERR) 0 (by decide), (fwTarget_same s.start target).2.1⟩, ?_, memSame_of_mems (s := s) (fwTarget_same s.start target).1⟩
  · rw [hkeeps _ _ (by decide)]
    exact fwTarget_target s.start target
  · exact (State.rd_wr_ne _ 1 (by decide)).trans ((State.rd_wr_same _ _ _ _).trans (Nat.mod_eq_of_lt hc))
  · exact regsBut_trans (fwTarget_regs s.start target) hkeeps

/-! GO, by cases. -/

theorem mbxGo_none (h : t.rd .FW_MBX_LEN_LEN 0 = 0) : mbxGo t = t.clr .FW_MBX_STAT_ERR 0 := if_pos h

theorem mbxGo_taken (h : t.rd .FW_MBX_LEN_LEN 0 ≠ 0) (ht : t.loadTaken .port = true) : mbxGo t = mbxFail t 7 := (if_neg h).trans (if_pos ht)

theorem mbxGo_shut (h : t.rd .FW_MBX_LEN_LEN 0 ≠ 0) (ht : t.loadTaken .port = false) (hs : t.on .X_FW_CHK 0 = true ∨ t.loadOk t.loadIdle = false) : mbxGo t = t := by
  rw [mbxGo, if_neg h, if_neg (by rw [ht]; decide), if_pos]
  simpa using hs

theorem mbxGo_open (h : t.rd .FW_MBX_LEN_LEN 0 ≠ 0) (ht : t.loadTaken .port = false) (hs : ¬(t.on .X_FW_CHK 0 = true ∨ t.loadOk t.loadIdle = false)) : mbxGo t =
    if t.rd .FW_MBX_OFS_OFS 0 ≠ t.rd .FW_MBX_TOTAL_TOTAL 0 then mbxFail t 8
    else loadAppend (t.clr .FW_MBX_STAT_ERR 0) .port t.loadIdle (t.getWins 0xC000 (t.rd .FW_MBX_LEN_LEN 0)) := by
  rw [mbxGo, if_neg h, if_neg (by rw [ht]; decide), if_neg]
  simpa using hs

/-! The end of a load. -/

theorem loadAbort_none (h : s.fwLoad = none) : loadAbort s = s := by simp only [loadAbort, h]

theorem loadAbort_some {l : FwLoad} (h : s.fwLoad = some l) :
    loadAbort s = if !l.idle ∧ s.dev = devLOAD then (loadDrop s).setDev devROM else loadDrop s := by simp only [loadAbort, h]

theorem loadDrop_spec (s : State) : (loadDrop s).fwLoad = none ∧ (loadDrop s).rd .FW_MBX_TOTAL_TOTAL 0 = 0 ∧ (loadDrop s).rd .FW_MBX_STAT_BUSY 0 = 0
    ∧ (loadDrop s).rd .X_FW_CHK 0 = 0 ∧ (loadDrop s).dev = s.dev ∧ (loadDrop s).mems = s.mems := by
  refine ⟨rfl, ?_, ?_, ?_, loadDrop_k (List.Subset.refl _) (keepsR_refl s _) .DEV_STATE_STATE 0 (by decide), rfl⟩ <;> simp [loadDrop, State.clr_def, State.rd_wr]

/-- The load is gone, and in ROM's load the device is back in ROM. -/
theorem loadAbort_spec {l : FwLoad} (h : s.fwLoad = some l) : (loadAbort s).fwLoad = none ∧ (loadAbort s).rd .FW_MBX_TOTAL_TOTAL 0 = 0
    ∧ (loadAbort s).on .FW_MBX_STAT_BUSY 0 = false ∧ (loadAbort s).on .X_FW_CHK 0 = false
    ∧ (loadAbort s).dev = (if l.idle = false ∧ s.dev = devLOAD then devROM else s.dev) := by
  obtain ⟨hload, htotal, hbusy, hchk, hdev, -⟩ := loadDrop_spec s
  rw [loadAbort_some h]
  by_cases hboot : l.idle = false ∧ s.dev = devLOAD
  · rw [if_pos (by simpa using hboot), if_pos hboot]
    simp only [State.on, State.rd_setDev _ _ _ _ (by decide : Fld.FW_MBX_TOTAL_TOTAL ≠ _) (by decide), State.rd_setDev _ _ _ _ (by decide : Fld.FW_MBX_STAT_BUSY ≠ _) (by decide),
      State.rd_setDev _ _ _ _ (by decide : Fld.X_FW_CHK ≠ _) (by decide), htotal, hbusy, hchk]
    exact ⟨(setDev_fwLoad _).trans hload, trivial, rfl, rfl, State.dev_setDev _ _ (by decide)⟩
  · rw [if_neg (by simpa using hboot), if_neg hboot]
    simp only [State.on, htotal, hbusy, hchk]
    exact ⟨hload, trivial, rfl, rfl, hdev⟩

theorem loadAbort_pends (s : State) : s.pends (loadAbort s) := by
  obtain ⟨-, -, -, -, -, hmems⟩ := loadDrop_spec s
  cases h : s.fwLoad with
  | none => exact pends_of_mems (congrArg State.mems (loadAbort_none h))
  | some l =>
    rw [loadAbort_some h]
    split
    · exact pends_trans (pends_of_mems hmems) (setDev_pends _ _)
    · exact pends_of_mems hmems

/-! The checks end (R39, R648). -/

variable {key : KeyVerdict} {keyid sig hash : Bool}

theorem imageCheckDone_none (hlive : s.dead = false) (h : s.fwLoad = none ∨ s.on .X_FW_CHK 0 = false ∨ s.on .RND_STAT_BUSY 0 = true) :
    exec (.imageCheckDone key keyid sig hash) s = .next s.start := by
  change execImageCheckDone key keyid sig hash s = _
  unfold execImageCheckDone
  rw [live_of _ _ hlive]
  cases hl : s.fwLoad with
  | none => simp only [State.start_fwLoad, hl]
  | some l =>
    have hidle : (!s.start.on .X_FW_CHK 0 || s.start.on .RND_STAT_BUSY 0) = true := by
      obtain hn | hoff | hbusy := h
      · simp [hl] at hn
      · simp only [State.on, State.rd_start] at hoff ⊢
        simp [hoff]
      · simp only [State.on, State.rd_start] at hbusy ⊢
        simp [hbusy]
    simp only [State.start_fwLoad, hl, hidle, if_true]

/-- The marks of an image that passes its checks. -/
def imagePassed (s : State) : State :=
  ((((({ s with fwLoad := none }.clr .X_FW_CHK 0).clr .FW_MBX_STAT_BUSY 0).clr .FW_MBX_TOTAL_TOTAL 0).set .FW_MBX_STAT_ACCEPTED 0).clr .FW_MBX_STAT_ERR 0).alert 3

theorem imageCheckDone_some {l : FwLoad} (hlive : s.dead = false) (hchk : s.on .X_FW_CHK 0 = true) (hbusy : s.on .RND_STAT_BUSY 0 = false) (hl : s.fwLoad = some l) :
    exec (.imageCheckDone key keyid sig hash) s = .next (
      if s.imageCode l key keyid sig hash ≠ 0 then imageFail s.start (s.imageCode l key keyid sig hash)
      else if l.idle then (((imagePassed s.start).setBank (!(imagePassed s.start).on .DEV_STATE_BANK 0) (some (imageOf l.bytes))).set .DEV_STATE_HR_PEND 0).msix 0
      else bootStart (imagePassed s.start) (imageOf l.bytes)) := by
  change execImageCheckDone key keyid sig hash s = _
  unfold execImageCheckDone
  rw [live_of _ _ hlive]
  have hrun : ¬(!s.start.on .X_FW_CHK 0 || s.start.on .RND_STAT_BUSY 0) = true := by
    simp only [State.on, State.rd_start] at hchk hbusy ⊢
    simp [hchk, hbusy]
  simp only [State.start_fwLoad, hl, if_neg hrun]
  rfl

theorem imagePassed_kept (s : State) : (imagePassed s).kept = State.kept { s with fwLoad := none } := State.alert_kept _ _

theorem rd_imagePassed {f : Fld} (i : Nat) (hf : f ∉ ([.X_FW_CHK, .FW_MBX_STAT_BUSY, .FW_MBX_TOTAL_TOTAL, .FW_MBX_STAT_ACCEPTED, .FW_MBX_STAT_ERR, .X_ALERT] : List Fld)) :
    (imagePassed s).rd f i = s.rd f i := by
  simp only [List.mem_cons, List.not_mem_nil, or_false, not_or] at hf
  obtain ⟨hchk, hbusy, htotal, hacc, herr, halert⟩ := hf
  rw [imagePassed, State.rd_alert _ _ _ _ halert, State.clr_def, State.rd_wr_ne _ _ fun h => herr h.1, State.set_def, State.rd_wr_ne _ _ fun h => hacc h.1, State.clr_def,
    State.rd_wr_ne _ _ fun h => htotal h.1, State.clr_def, State.rd_wr_ne _ _ fun h => hbusy h.1, State.clr_def, State.rd_wr_ne _ _ fun h => hchk h.1]
  rfl

theorem imagePassed_marks (s : State) : (imagePassed s).rd .FW_MBX_STAT_ACCEPTED 0 = 1 ∧ (imagePassed s).rd .FW_MBX_STAT_ERR 0 = 0 := by
  constructor
  · rw [imagePassed, State.rd_alert _ _ _ _ (by decide), State.clr_def, State.rd_wr_ne _ _ (by decide)]
    exact State.rd_wr_same _ _ _ _
  · rw [imagePassed, State.rd_alert _ _ _ _ (by decide)]
    exact State.rd_wr_same _ _ _ _

/-! An image that fails (R39). -/

theorem rd_imageFail {f : Fld} (code i : Nat) (hf : f ∉ ([.DEV_STATE_LASTERR, .FW_MBX_STAT_ERR, .FW_MBX_STAT_ACCEPTED, .X_ALERT] : List Fld)) :
    (imageFail s code).rd f i = (loadAbort s).rd f i := by
  simp only [List.mem_cons, List.not_mem_nil, or_false, not_or] at hf
  obtain ⟨hlast, herr, hacc, halert⟩ := hf
  rw [imageFail, State.rd_alert _ _ _ _ halert, State.clr_def, State.rd_wr_ne _ _ fun h => hacc h.1, State.set_def, State.rd_wr_ne _ _ fun h => herr h.1,
    State.rd_wr_ne _ _ fun h => hlast h.1]

theorem imageFail_marks (s : State) {code : Nat} (hc : code < 256) :
    (imageFail s code).rd .DEV_STATE_LASTERR 0 = code ∧ (imageFail s code).on .FW_MBX_STAT_ERR 0 = true ∧ (imageFail s code).on .FW_MBX_STAT_ACCEPTED 0 = false := by
  refine ⟨?_, ?_, ?_⟩
  · rw [imageFail, State.rd_alert _ _ _ _ (by decide), State.clr_def, State.rd_wr_ne _ _ (by decide), State.set_def, State.rd_wr_ne _ _ (by decide)]
    exact (State.rd_wr_same _ _ _ _).trans (Nat.mod_eq_of_lt hc)
  · rw [State.on, imageFail, State.rd_alert _ _ _ _ (by decide), State.clr_def, State.rd_wr_ne _ _ (by decide)]
    exact set_on _ (f := .FW_MBX_STAT_ERR) 0 (by decide)
  · rw [State.on, imageFail, State.rd_alert _ _ _ _ (by decide)]
    exact bne_eq_false_iff_eq.mpr (State.rd_wr_same _ .FW_MBX_STAT_ACCEPTED 0 0)

theorem imageFail_fwLoad (s : State) (code : Nat) : (imageFail s code).fwLoad = (loadAbort s).fwLoad := State.alert_fwLoad _ _

theorem imageFail_pends (s : State) (code : Nat) : s.pends (imageFail s code) :=
  pends_trans (loadAbort_pends s) (pends_of_mems (State.alert_mems _ _))

theorem imageCode_lt (s : State) (l : FwLoad) : s.imageCode l key keyid sig hash < 256 := by
  unfold State.imageCode
  split_ifs <;> decide

/-! The boot (R49, R50, R438). -/

/-- A verified boot image is in its bank, and the device's mode shows it. -/
def bootImage (s : State) (i : FwImage) : State := apprShow (({ s with bankA := some i }.clr .DEV_STATE_BANK 0).wrB .DEV_STATE_NONAPPR 0 i.eng)

/-- INIT is entered, with its domains on. -/
def bootEnter (s : State) : State := domsOn (s.setDev devINIT) ((List.range 40).map (16 + ·))

/-- What the start of a verified image marks before the firmware is up. -/
def bootMarks (s : State) (i : FwImage) : State := ((bootEnter (bootImage s i)).clr .X_CORE 0).wr .DEV_STATE_INITSTEP 0 1

/-- INIT step 1 after that: the references' marks, the trims and the repair list. -/
def bootRestore (s : State) : State :=
  repApply (repApply (repCheck (calRestoreAll (quadMarks s))) 0 (List.range 16)) 1 (List.range 16)

theorem bootStart_eq (s : State) (i : FwImage) : bootStart s i = repTidy (bootRestore (fwUp (bootMarks s i))) := rfl

theorem bootRestore_kept (s : State) : (bootRestore s).kept = s.kept := by simp [bootRestore]

theorem bootMarks_mails (s : State) (i : FwImage) : State.mails { s with bankA := some i } (bootMarks s i) := by
  have himage : State.mails { s with bankA := some i } (bootImage s i) :=
    mails_of_kept ((State.wrB_kept ..).trans ((State.wrB_kept ..).trans (State.clr_kept ..)))
  have henter : (bootImage s i).mails (bootEnter (bootImage s i)) := mails_trans (mails_setDev _ devINIT) (mails_of_kept (domsOn_kept _ _))
  exact mails_trans (mails_trans himage henter) (mails_of_kept ((State.wr_kept ..).trans (State.clr_kept ..)))

theorem rd_bootImage {f : Fld} (s : State) (img : FwImage) (i : Nat) (hf : f ∉ ([.DEV_STATE_BANK, .DEV_STATE_NONAPPR, .RND_STAT_APPR] : List Fld)) :
    (bootImage s img).rd f i = s.rd f i := by
  simp only [List.mem_cons, List.not_mem_nil, or_false, not_or] at hf
  obtain ⟨hbank, happr, hrnd⟩ := hf
  rw [bootImage, apprShow, State.wrB_def, State.rd_wr_ne _ _ fun h => hrnd h.1, State.wrB_def, State.rd_wr_ne _ _ fun h => happr h.1, State.clr_def,
    State.rd_wr_ne _ _ fun h => hbank h.1]
  rfl

theorem bootImage_marks (s : State) (img : FwImage) : (bootImage s img).rd .DEV_STATE_BANK 0 = 0 ∧ (bootImage s img).on .DEV_STATE_NONAPPR 0 = img.eng := by
  constructor
  · rw [bootImage, apprShow, State.wrB_def, State.rd_wr_ne _ _ (by decide), State.wrB_def, State.rd_wr_ne _ _ (by decide)]
    exact State.rd_wr_same _ _ _ _
  · rw [State.on, bootImage, apprShow, State.wrB_def, State.rd_wr_ne _ _ (by decide)]
    exact on_wrB _ .DEV_STATE_NONAPPR 0 _ (by decide)

theorem rd_bootEnter {f : Fld} (s : State) (i : Nat) (hf : f ∉ ([.PWR_STAT_ON] : List Fld)) : (bootEnter s).rd f i = (s.setDev devINIT).rd f i :=
  domsOn_k (List.Subset.refl _) (keepsR_refl (s.setDev devINIT) _) f i hf

theorem rd_bootMarks {f : Fld} (s : State) (img : FwImage) (i : Nat) (hf : f ∉ ([.PWR_STAT_ON, .X_CORE, .DEV_STATE_INITSTEP] : List Fld)) :
    (bootMarks s img).rd f i = ((bootImage s img).setDev devINIT).rd f i := by
  simp only [List.mem_cons, List.not_mem_nil, or_false, not_or] at hf
  obtain ⟨hpwr, hcore, hstep⟩ := hf
  rw [bootMarks, State.rd_wr_ne _ _ fun h => hstep h.1, State.clr_def, State.rd_wr_ne _ _ fun h => hcore h.1, rd_bootEnter _ _ (by simpa using hpwr)]

theorem bootMarks_spec (s : State) (img : FwImage) : (bootMarks s img).dev = devINIT ∧ (bootMarks s img).rd .DEV_STATE_INITSTEP 0 = 1 ∧ (bootMarks s img).rd .DEV_STATE_BANK 0 = 0
    ∧ (bootMarks s img).on .DEV_STATE_NONAPPR 0 = img.eng ∧ (bootMarks s img).rd .FW_MBX_STAT_ACCEPTED 0 = s.rd .FW_MBX_STAT_ACCEPTED 0 := by
  obtain ⟨hbank, heng⟩ := bootImage_marks s img
  refine ⟨?_, State.rd_wr_same _ _ _ _, ?_, ?_, ?_⟩
  · rw [State.dev, rd_bootMarks _ _ _ (by decide)]
    exact State.dev_setDev _ _ (by decide)
  · rw [rd_bootMarks _ _ _ (by decide), State.rd_setDev _ _ _ _ (by decide) (by decide), hbank]
  · rw [State.on, rd_bootMarks _ _ _ (by decide), State.rd_setDev _ _ _ _ (by decide) (by decide)]
    exact heng
  · rw [rd_bootMarks _ _ _ (by decide), State.rd_setDev _ _ _ _ (by decide) (by decide), rd_bootImage _ _ _ (by decide)]

end Sys2Proof.Machine
end

section
/-! The commands and the checks of a load, each by its cases (R35, R39 to R42, R49, R648). -/
namespace Sys2Proof.Machine
variable {s : State} {r : Route} {target : Fin 4} {key : KeyVerdict} {keyid sig hash : Bool}

theorem exec_readoutReady (h : s.dead = false) :
    exec .readoutReady s = .next (if s.on .X_PERSTN_HIGH 0 && s.bit .X_REF_DONE 0 4 then s.start.set .X_PORT_UP 0 else s.start) := by
  change execReadoutReady s = _
  unfold execReadoutReady
  rw [live_of _ _ h]
  rfl

/-- TARGET as a write of FW_MBX_CTL leaves it. -/
def targetAfter (s : State) (target : Fin 4) : Nat := if target.val ≤ 1 then target.val else s.rd .FW_MBX_CTL_TARGET 0

/-- Whether the load that a write of FW_MBX_CTL names goes to the idle bank. -/
def idleAfter (s : State) (target : Fin 4) : Bool := match s.fwLoad with | some l => l.idle | none => targetAfter s target == 1

theorem fwTarget_loadIdle (s : State) (target : Fin 4) : (fwTarget s target).loadIdle = idleAfter s target := by
  rw [State.loadIdle, (fwTarget_same s target).2.1, fwTarget_target]
  rfl

theorem fwTarget_loadBytes (s : State) (target : Fin 4) : (fwTarget s target).loadBytes = s.loadBytes := by
  rw [State.loadBytes, State.loadBytes, (fwTarget_same s target).2.1]

theorem getWins_of_mems {s t : State} (h : t.mems = s.mems) : t.getWins = s.getWins := by
  obtain ⟨-, -, -, -, hw⟩ := mems_iff.mp h
  funext a n
  simp only [State.getWins, State.getWin, hw]

theorem getWins_ne_nil (s : State) {a n : Nat} (h : n ≠ 0) : s.getWins a n ≠ [] := by simpa [State.getWins] using h

theorem getWins_length (s : State) (a n : Nat) : (s.getWins a n).length = n := by simp [State.getWins]

/-- A GO that is in order appends the chunk to the port's load (R41, R42). -/
theorem loadGo_does (htaken : s.loadTaken .port = false) (hn : s.rd .FW_MBX_LEN_LEN 0 ≠ 0) :
    DoesPend s (.next (loadAppend ((fwTarget s.start target).clr .FW_MBX_STAT_ERR 0) .port (fwTarget s.start target).loadIdle
      ((fwTarget s.start target).getWins 0xC000 (s.rd .FW_MBX_LEN_LEN 0)))) fwFlds fun u =>
        u.fwLoad = some ⟨.port, idleAfter s target, s.loadBytes ++ s.getWins 0xC000 (s.rd .FW_MBX_LEN_LEN 0)⟩ ∧ u.on .FW_MBX_STAT_ERR 0 = false
          ∧ u.rd .FW_MBX_TOTAL_TOTAL 0 = (s.rd .FW_MBX_TOTAL_TOTAL 0 + s.rd .FW_MBX_LEN_LEN 0) % 2 ^ Fld.FW_MBX_TOTAL_TOTAL.width
          ∧ (s.fwLoad = none → (idleAfter s target = false → u.dev = devLOAD) ∧ (idleAfter s target = true → u.on .DEV_STATE_HR_PEND 0 = false ∧ u.idleImage = none)) := by
  let t := (fwTarget s.start target).clr .FW_MBX_STAT_ERR 0
  let bytes := s.getWins 0xC000 (s.rd .FW_MBX_LEN_LEN 0)
  obtain ⟨hmems, hload, -⟩ := fwTarget_same s.start target
  have hbytes : (fwTarget s.start target).getWins 0xC000 (s.rd .FW_MBX_LEN_LEN 0) = bytes := congrFun (congrFun (getWins_of_mems (s := s) hmems) _) _
  have hidle : (fwTarget s.start target).loadIdle = idleAfter s target := fwTarget_loadIdle s.start target
  have hne : bytes ≠ [] := getWins_ne_nil s hn
  have hown : ∀ l, t.fwLoad = some l → l.idle = idleAfter s target := fun l h => by
    have hl : s.fwLoad = some l := hload.symm.trans h
    simp only [idleAfter, hl]
  rw [hbytes, hidle]
  obtain ⟨-, -, htotal, hbegin⟩ := loadAppend_spec (s := t) (r := .port) (idle := idleAfter s target) hne
  refine doesPend_of ⟨?_, ?_, ?_, fun h => hbegin (hload.trans h)⟩ (loadAppend_k (by decide) (clr_k (by decide) (fwTarget_k s.start target (by decide))))
    (pends_trans (pends_of_mems (s := s) hmems) loadAppend_pends)
  · refine (loadAppend_fwLoad (s := t) hne ((fwTarget_loadTaken s.start target .port).trans htaken) hown).trans ?_
    exact congrArg (fun b => some (FwLoad.mk .port (idleAfter s target) (b ++ bytes))) (fwTarget_loadBytes s.start target)
  · have hkeeps : KeepsR t (loadAppend t .port (idleAfter s target) bytes).regs [.DEV_STATE_HR_PEND, .DEV_STATE_STATE, .FW_MBX_TOTAL_TOTAL, .X_ALERT, .X_FW_WR] :=
      loadAppend_k (List.Subset.refl _) (keepsR_refl t _)
    refine (congrArg (· != 0) (hkeeps .FW_MBX_STAT_ERR 0 (by decide))).trans ?_
    exact bne_eq_false_iff_eq.mpr (State.rd_wr_same _ .FW_MBX_STAT_ERR 0 0)
  · rw [htotal, getWins_length]
    refine congrArg (fun n => (n + _) % _) ?_
    exact (State.rd_wr_ne (f := .FW_MBX_STAT_ERR) (i := 0) _ 0 (by decide)).trans (rd_fwTarget s.start target 0 (by decide))

/-- A GO without bytes only clears ERR. -/
theorem clearErr_does : DoesAt s (.next ((fwTarget s.start target).clr .FW_MBX_STAT_ERR 0)) [(.FW_MBX_CTL_TARGET, 0), (.FW_MBX_STAT_ERR, 0)] fun u =>
    u.on .FW_MBX_STAT_ERR 0 = false ∧ u.fwLoad = s.fwLoad := by
  refine ⟨_, rfl, ⟨bne_eq_false_iff_eq.mpr (State.rd_wr_same _ .FW_MBX_STAT_ERR 0 0), (fwTarget_same s.start target).2.1⟩, ?_,
    memSame_of_mems (s := s) (fwTarget_same s.start target).1⟩
  refine regsBut_trans (l' := [(.FW_MBX_STAT_ERR, 0)]) (fwTarget_regs s.start target) fun f i hf => ?_
  exact State.rd_wr_ne _ 0 fun h => hf (by simp [h.1, h.2])

/-- ABORT discards the load (R42). -/
theorem abort_does {l : FwLoad} (hl : s.fwLoad = some l) : DoesPend s (.next (loadAbort (fwTarget s.start target))) fwFlds fun u =>
    u.fwLoad = none ∧ u.rd .FW_MBX_TOTAL_TOTAL 0 = 0 ∧ u.on .FW_MBX_STAT_BUSY 0 = false ∧ u.on .X_FW_CHK 0 = false
      ∧ u.dev = (if l.idle = false ∧ s.dev = devLOAD then devROM else s.dev) := by
  obtain ⟨hmems, hload, -⟩ := fwTarget_same s.start target
  have hspec := loadAbort_spec (hload.trans hl)
  rw [show (fwTarget s.start target).dev = s.dev from rd_fwTarget s.start target 0 (by decide)] at hspec
  exact doesPend_of hspec (loadAbort_k (by decide) (fwTarget_k s.start target (by decide))) (pends_trans (pends_of_mems (s := s) hmems) (loadAbort_pends _))

/-- DONE starts the checks (R42). -/
theorem done_does (htaken : s.loadTaken .port = false) (hchk : s.on .X_FW_CHK 0 = false) (hok : s.loadOk (idleAfter s target) = true) :
    DoesAt s (.next (loadDone (fwTarget s.start target) .port (fwTarget s.start target).loadIdle)) [(.FW_MBX_CTL_TARGET, 0), (.X_FW_CHK, 0), (.FW_MBX_STAT_BUSY, 0)] fun u =>
      u.on .X_FW_CHK 0 = true ∧ u.on .FW_MBX_STAT_BUSY 0 = true ∧ u.fwLoad = some ⟨.port, idleAfter s target, s.loadBytes⟩ := by
  let t := fwTarget s.start target
  obtain ⟨hmems, hload, -⟩ := fwTarget_same s.start target
  have htaken' : t.loadTaken .port = false := (fwTarget_loadTaken s.start target .port).trans htaken
  have hidle : t.loadIdle = idleAfter s target := fwTarget_loadIdle s.start target
  have hchk' : t.on .X_FW_CHK 0 = false := (congrArg (· != 0) (rd_fwTarget s.start target 0 (by decide))).trans hchk
  have hok' : t.loadOk (idleAfter s target) = true := (fwTarget_loadOk s.start target _).trans hok
  have hown : ∀ l, t.fwLoad = some l → l.idle = idleAfter s target := fun l h => by
    have hl : s.fwLoad = some l := hload.symm.trans h
    simp only [idleAfter, hl]
  rw [hidle]
  obtain ⟨hcheck, hbusy, hown', hregs, hsame⟩ := loadDone_spec htaken' hchk' hok'
  refine ⟨_, rfl, ⟨hcheck, hbusy, hown'.trans ?_⟩, regsBut_trans (fwTarget_regs s.start target) hregs, memSame_of_mems (s := s) (hsame.trans hmems)⟩
  rw [loadOwned_fwLoad htaken' hown]
  exact congrArg (fun b => some (FwLoad.mk .port (idleAfter s target) b)) (fwTarget_loadBytes s.start target)

/-! The end of the checks. -/

/-- An image that fails is discarded with its code (R39). -/
theorem imageFail_does {l : FwLoad} (hl : s.fwLoad = some l) : DoesPend s (.next (imageFail s.start (s.imageCode l key keyid sig hash))) fwFlds fun u =>
    u.rd .DEV_STATE_LASTERR 0 = s.imageCode l key keyid sig hash ∧ u.on .FW_MBX_STAT_ERR 0 = true ∧ u.on .FW_MBX_STAT_ACCEPTED 0 = false ∧ u.fwLoad = none
      ∧ u.dev = (if l.idle = false ∧ s.dev = devLOAD then devROM else s.dev) := by
  obtain ⟨hcode, herr, hacc⟩ := imageFail_marks s.start (imageCode_lt s l (key := key) (keyid := keyid) (sig := sig) (hash := hash))
  obtain ⟨hload, -, -, -, hdev⟩ := loadAbort_spec (s := s.start) hl
  refine doesPend_of (s := s) ⟨hcode, herr, hacc, (imageFail_fwLoad _ _).trans hload, ?_⟩ (imageFail_k (by decide) (keepsR_refl s fwFlds)) (imageFail_pends s.start _)
  exact (rd_imageFail _ 0 (by decide)).trans hdev

/-- The image of a load that passes waits in the idle bank (R54, R55). -/
def idleWaits (s : State) (i : FwImage) : State := ((s.setBank (!s.on .DEV_STATE_BANK 0) (some i)).set .DEV_STATE_HR_PEND 0).msix 0

theorem rd_idleWaits {f : Fld} (s : State) (img : FwImage) (i : Nat) (hf : f ≠ .DEV_STATE_HR_PEND) : (idleWaits s img).rd f i = s.rd f i := by
  rw [idleWaits, State.rd_msix, State.set_def, State.rd_wr_ne _ _ fun h => hf h.1, State.rd, State.rd, (setBank_fields _ _).1]

theorem idleImage_of {s t : State} (hb : t.rd .DEV_STATE_BANK 0 = s.rd .DEV_STATE_BANK 0) (h : t.bankA = s.bankA) (h' : t.bankB = s.bankB) : t.idleImage = s.idleImage := by
  rw [State.idleImage, State.idleImage, State.on, State.on, hb, h, h']

theorem msix_banks (s : State) (v : Nat) : (s.msix v).bankA = s.bankA ∧ (s.msix v).bankB = s.bankB ∧ (s.msix v).fwLoad = s.fwLoad := by simp

theorem idleWaits_spec (s : State) (i : FwImage) : (idleWaits s i).idleImage = some i ∧ (idleWaits s i).fwLoad = s.fwLoad ∧ (idleWaits s i).on .DEV_STATE_HR_PEND 0 = true
    ∧ s.pends (idleWaits s i) := by
  let b := s.setBank (!s.on .DEV_STATE_BANK 0) (some i)
  obtain ⟨-, hmems, hload⟩ := setBank_fields (s := s) (!s.on .DEV_STATE_BANK 0) (some i)
  obtain ⟨hA, hB, hmsix⟩ := msix_banks (b.set .DEV_STATE_HR_PEND 0) 0
  refine ⟨?_, hmsix.trans hload, ?_, pends_trans (pends_of_mems (t := b.set .DEV_STATE_HR_PEND 0) hmems) (msix_pends _ (by decide))⟩
  · refine (idleImage_of (s := b) ?_ hA hB).trans (idleImage_setBank _)
    rw [State.rd_msix]
    exact b.rd_wr_ne 1 (by decide)
  · rw [State.on, idleWaits, State.rd_msix]
    exact set_on b (f := .DEV_STATE_HR_PEND) 0 (by decide)

theorem idlePassed_does (i : FwImage) : DoesPend s (.next (idleWaits (imagePassed s.start) i)) fwFlds fun u => u.on .FW_MBX_STAT_ACCEPTED 0 = true
    ∧ u.on .FW_MBX_STAT_ERR 0 = false ∧ u.on .DEV_STATE_HR_PEND 0 = true ∧ u.fwLoad = none ∧ u.idleImage = some i ∧ u.dev = s.dev := by
  obtain ⟨hacc, herr⟩ := imagePassed_marks s.start
  obtain ⟨hidle, hload, hpend, hpends⟩ := idleWaits_spec (imagePassed s.start) i
  have hkept := imagePassed_kept s.start
  obtain ⟨-, -, -, -, hnone, -⟩ := rest_iff.mp (Prod.ext_iff.mp hkept).1
  have hmems : (imagePassed s.start).mems = s.mems := mems_of_kept (s := { s.start with fwLoad := none }) hkept
  have hmarks : ([.X_FW_CHK, .FW_MBX_STAT_BUSY, .FW_MBX_TOTAL_TOTAL, .FW_MBX_STAT_ACCEPTED, .FW_MBX_STAT_ERR, .X_ALERT] : List Fld) ⊆ fwFlds := by decide
  have hhr : .DEV_STATE_HR_PEND ∈ fwFlds := by decide
  refine doesPend_of ⟨?_, ?_, hpend, hload.trans hnone, hidle, ?_⟩ (fun f j hf => ?_) (pends_trans (pends_of_mems hmems) hpends)
  · rw [State.on, rd_idleWaits _ _ _ (by decide), hacc]
    rfl
  · rw [State.on, rd_idleWaits _ _ _ (by decide), herr]
    rfl
  · exact (rd_idleWaits _ _ _ (by decide)).trans (rd_imagePassed 0 (by decide))
  · exact (rd_idleWaits _ i j fun h => hf (by rwa [h])).trans (rd_imagePassed j fun h => hf (hmarks h))

/-- What the restores of INIT step 1 and the mailboxes may write after the marks of the start. -/
def bootTail : List Fld := mailFlds ++ trimFlds ++ ([.CLK_FAIL_FAIL, .CLK_GPEND_GATE_PEND, .REP_SPARE_HARD, .REP_SPARE_ROWS, .REP_SPARE_TSV] : List Fld)

theorem bootRestore_k {s : State} {l : List Fld} {s₀ : State} (h : bootTail ⊆ l) (hk : KeepsR s₀ s.regs l) : KeepsR s₀ (bootRestore s).regs l := by
  have hsub : ∀ {l' : List Fld}, l' ⊆ bootTail → l' ⊆ l := fun h' _ hx => h (h' hx)
  have hrep : ([.REP_SPARE_HARD, .REP_SPARE_ROWS, .REP_SPARE_TSV] : List Fld) ⊆ l := hsub (by decide)
  exact repApply_k hrep (repApply_k hrep (repCheck_k (hsub (by decide)) (calRestoreAll_k (hsub (by decide)) (quadMarks_k (hsub (by decide)) hk))))

theorem rd_bootStart {f : Fld} (s : State) (img : FwImage) (i : Nat) (hf : f ∉ bootTail) : (bootStart s img).rd f i = (fwShown (bootMarks s img)).rd f i := by
  rw [bootStart_eq]
  exact repTidy_k (bootRestore_k (List.Subset.refl _) (serveUnknown_k (by decide) (keepsR_refl (fwShown (bootMarks s img)) bootTail))) f i hf

theorem bootPassed_does (img : FwImage) : DoesMailNvm s (.next (bootStart (imagePassed s.start) img)) bootFlds fun u =>
    (s.repBad = [] → ∀ a, u.getNvm a = s.getNvm a) ∧ u.dev = devINIT ∧ u.rd .DEV_STATE_INITSTEP 0 = 1 ∧ u.fwLoad = none ∧ u.rd .DEV_STATE_BANK 0 = 0
      ∧ u.running = some img ∧ u.on .DEV_STATE_NONAPPR 0 = img.eng ∧ u.on .X_FWUP 0 = true ∧ u.rd .MB_STAT_NOFW 0 = 0 ∧ u.on .FW_MBX_STAT_ACCEPTED 0 = true := by
  let p := imagePassed s.start
  let m := bootMarks p img
  let v := bootRestore (fwUp m)
  obtain ⟨hdev, hstep, hbank, heng, hacc⟩ := bootMarks_spec p img
  obtain ⟨hup, hnofw, -⟩ := fwShown_spec m
  have hpass := imagePassed_kept s.start
  have hmails : State.mails { s.start with fwLoad := none, bankA := some img } v := by
    have hfrom : State.mails { s.start with fwLoad := none, bankA := some img } { p with bankA := some img } := by
      obtain ⟨hrest, hnvm⟩ := Prod.ext_iff.mp hpass
      obtain ⟨hi, hd, ht, hw, hl, -, hb, hh, ho⟩ := rest_iff.mp hrest
      exact mails_of_kept (Prod.ext (rest_iff.mpr ⟨hi, hd, ht, hw, hl, rfl, hb, hh, ho⟩) hnvm)
    exact mails_trans hfrom (mails_trans (bootMarks_mails p img) (mails_trans (fwUp_mails m) (mails_of_kept (bootRestore_kept _))))
  have hrest : (bootStart p img).rest = v.rest := (congrArg State.rest (bootStart_eq p img)).trans (repTidy_rest v)
  have ⟨⟨⟨_, _, _, hnvm⟩, hload, hbankA, _⟩, _, _⟩ := hmails
  obtain ⟨-, -, -, -, hload', hbankA', -⟩ := rest_iff.mp hrest
  have hu : ∀ {f}, f ∉ bootTail → f ∉ ([.X_FWUP, .MB_STAT_NOFW, .TW_MBSTAT_NOFW, .FLT_GSTAT_TRAPPEND] : List Fld) → ∀ i, (bootStart p img).rd f i = m.rd f i :=
    fun h h' i => (rd_bootStart p img i h).trans (rd_fwShown i h')
  have hbank' : (bootStart p img).rd .DEV_STATE_BANK 0 = 0 := (hu (by decide) (by decide) 0).trans hbank
  have hmarks : ([.X_FW_CHK, .FW_MBX_STAT_BUSY, .FW_MBX_TOTAL_TOTAL, .FW_MBX_STAT_ACCEPTED, .FW_MBX_STAT_ERR, .X_ALERT] : List Fld) ⊆ bootFlds := by decide
  refine doesMailNvm_of (s := { s.start with fwLoad := none, bankA := some img }) (u := v) ⟨fun hgood a => ?_, ?_, ?_, ?_, hbank', ?_, ?_, ?_, ?_, ?_⟩
    (bootStart_k (by decide) fun f i hf => rd_imagePassed i fun h => hf (hmarks h)) hmails hrest
  · have hbad : v.repBad = [] := (repBad_of_nvm hnvm).trans hgood
    rw [bootStart_eq, repTidy_of_good (s := v) (.inl hbad), State.getNvm, hnvm]
    rfl
  · exact (hu (by decide) (by decide) 0).trans hdev
  · exact (hu (by decide) (by decide) 0).trans hstep
  · exact hload'.trans hload
  · rw [State.running, State.on, hbank']
    exact hbankA'.trans hbankA
  · rw [State.on, hu (by decide) (by decide)]
    exact heng
  · rw [State.on, rd_bootStart _ _ _ (by decide), hup]
    rfl
  · rw [rd_bootStart _ _ _ (by decide), hnofw]
  · rw [State.on, hu (by decide) (by decide), hacc, (imagePassed_marks s.start).1]
    rfl

end Sys2Proof.Machine
end

section
open Sys2Proof Sys2Proof.Machine

/-- Settles O42: each command of a load and the end of its checks by their cases; after the marks of the start, INIT step 1 restores other fields. -/
theorem firmwareLoads : Obligations.FirmwareLoads := by
  unfold Obligations.FirmwareLoads
  intro s r target key keyid sig hash cmd go abort done checked tgt idle had n shut taken ordered fails only checks code
  have hgo : cmd → go = .next (mbxGo (fwTarget s.start target)) := exec_fwMbxGo target
  have habort : cmd → abort = .next (loadAbort (fwTarget s.start target)) := exec_fwMbxAbort target
  have hdone : cmd → done = .next (loadDone (fwTarget s.start target) .port (fwTarget s.start target).loadIdle) := exec_fwMbxDone target
  have hrd : ∀ {f}, f ≠ .FW_MBX_CTL_TARGET → (fwTarget s.start target).rd f 0 = s.rd f 0 := fun h => rd_fwTarget s.start target 0 h
  have hlen : (fwTarget s.start target).rd .FW_MBX_LEN_LEN 0 = n := hrd (by decide)
  have htaken : (fwTarget s.start target).loadTaken .port = s.loadTaken .port := fwTarget_loadTaken s.start target .port
  have hidle : (fwTarget s.start target).loadIdle = idle := fwTarget_loadIdle s.start target
  have hshut : ((fwTarget s.start target).on .X_FW_CHK 0 = true ∨ (fwTarget s.start target).loadOk (fwTarget s.start target).loadIdle = false) ↔ shut := by
    rw [hidle, State.on, hrd (by decide), fwTarget_loadOk]
    rfl
  refine ⟨fun hl hp hd => ?_, fun hl h => ?_, fun hc hn => ?_, fun hc hn ht => ?_, fun hc hn ht hs => ?_, fun hc hn hs ht ho => ?_, fun hc hn hs ht ho => ?_,
    fun hc hl => ?_, fun l hc hl => ?_, fun hc ht => ?_, fun hc ht hs => ?_, fun hc hs ht => ?_, fun hl h => ?_, fun l hc hl hcode => ?_, fun l hc hl hcode hi => ?_,
    fun l hc hl hcode hi => ?_⟩
  · rw [exec_readoutReady hl, hp, hd]
    exact wr_does (t := s.start) 1 rfl (memSame_refl s) (set_on s.start (f := .X_PORT_UP) 0 (by decide))
  · rw [exec_readoutReady hl, if_neg (by simpa using h)]
    exact stays_does trivial
  · rw [hgo hc, mbxGo_none (hlen.trans hn)]
    exact clearErr_does
  · rw [hgo hc, mbxGo_taken (hlen ▸ hn) (htaken.trans ht)]
    exact mbxFail_does target (by decide)
  · rw [hgo hc, mbxGo_shut (hlen ▸ hn) (htaken.trans (Bool.not_eq_true _ ▸ ht)) (hshut.mpr hs)]
    exact fwTarget_does target
  · rw [hgo hc, mbxGo_open (hlen ▸ hn) (htaken.trans (Bool.not_eq_true _ ▸ ht)) (mt hshut.mp hs), if_pos (by rwa [hrd (by decide), hrd (by decide)])]
    exact mbxFail_does target (by decide)
  · rw [hgo hc, mbxGo_open (hlen ▸ hn) (htaken.trans (Bool.not_eq_true _ ▸ ht)) (mt hshut.mp hs), if_neg (by rwa [hrd (by decide), hrd (by decide), not_not]), hlen]
    exact loadGo_does (Bool.not_eq_true _ ▸ ht) hn
  · rw [habort hc, loadAbort_none ((fwTarget_same s.start target).2.1.trans hl)]
    exact fwTarget_does target
  · rw [habort hc]
    exact abort_does hl
  · rw [hdone hc, loadDone_taken (htaken.trans ht)]
    exact mbxFail_does target (by decide)
  · rw [hdone hc, loadDone_shut (htaken.trans (Bool.not_eq_true _ ▸ ht)) (hshut.mpr hs)]
    exact fwTarget_does target
  · rw [hdone hc]
    obtain ⟨hchk, hok⟩ := not_or.mp hs
    exact done_does (Bool.not_eq_true _ ▸ ht) (Bool.not_eq_true _ ▸ hchk) (Bool.not_eq_false _ ▸ hok)
  · rw [show checked = _ from imageCheckDone_none hl h]
    exact stays_does rfl
  · obtain ⟨hlive, hchk, hbusy⟩ := hc
    rw [show checked = _ from imageCheckDone_some hlive hchk hbusy hl, if_pos hcode]
    exact imageFail_does hl
  · obtain ⟨hlive, hchk, hbusy⟩ := hc
    rw [show checked = _ from imageCheckDone_some hlive hchk hbusy hl, if_neg (not_not.mpr hcode), if_pos hi]
    exact idlePassed_does (imageOf l.bytes)
  · obtain ⟨hlive, hchk, hbusy⟩ := hc
    rw [show checked = _ from imageCheckDone_some hlive hchk hbusy hl, if_neg (not_not.mpr hcode), if_neg (by rw [hi]; decide)]
    exact bootPassed_does (imageOf l.bytes)

end

section
/-! Bits of a field, the towers' states, and the steps of INIT (R50, R51, R402, R431, R649). -/
namespace Sys2Proof.Machine
variable {s t : State}

/-! Bits that are written one by one. -/

theorem bitOf_add_two_pow {v i : Nat} (h : bitOf v i = false) (j : Nat) : bitOf (v + 2 ^ i) j = if j = i then true else bitOf v j := by
  have heven : v / 2 ^ i % 2 = 0 := by
    simp only [bitOf, beq_eq_false_iff_ne] at h
    omega
  have hpos := Nat.two_pow_pos i
  simp only [bitOf]
  obtain hlt | rfl | hgt := Nat.lt_trichotomy j i
  · obtain ⟨k, rfl⟩ := Nat.exists_eq_add_of_lt hlt
    rw [if_neg (by omega), show 2 ^ (j + k + 1) = 2 ^ j * (2 * 2 ^ k) by ring, Nat.add_mul_div_left _ _ (Nat.two_pow_pos j), Nat.add_mul_mod_self_left]
  · rw [if_pos rfl, Nat.add_div_right _ hpos, beq_iff_eq]
    omega
  · obtain ⟨k, rfl⟩ := Nat.exists_eq_add_of_lt hgt
    have hhalf : (v + 2 ^ i) / 2 ^ i / 2 = v / 2 ^ i / 2 := by
      rw [Nat.add_div_right _ hpos]
      omega
    rw [if_neg (by omega), show 2 ^ (i + k + 1) = 2 ^ i * 2 * 2 ^ k by ring, ← Nat.div_div_eq_div_mul, ← Nat.div_div_eq_div_mul, hhalf,
      ← Nat.div_div_eq_div_mul, ← Nat.div_div_eq_div_mul]

theorem bitOf_setBitTo (v i j : Nat) (b : Bool) : bitOf (setBitTo v i b) j = if j = i then b else bitOf v j := by
  unfold setBitTo
  cases hv : bitOf v i
  · cases b
    · by_cases hj : j = i
      · simp [hj, hv]
      · simp [hj]
    · simpa using bitOf_add_two_pow hv j
  · have hle : 2 ^ i ≤ v := by
      by_contra hlt
      rw [bitOf, Nat.div_eq_of_lt (by omega)] at hv
      exact absurd hv (by decide)
    cases b
    · have hoff : bitOf (v - 2 ^ i) i = false := by
        have hdiv := Nat.add_div_right (v - 2 ^ i) (Nat.two_pow_pos i)
        rw [Nat.sub_add_cancel hle] at hdiv
        simp only [bitOf, beq_iff_eq] at hv
        simp only [bitOf, beq_eq_false_iff_ne]
        omega
      have hback := bitOf_add_two_pow hoff j
      rw [Nat.sub_add_cancel hle] at hback
      by_cases hj : j = i
      · simp [hj, hoff]
      · simp [hj] at hback
        simp [hj, hback]
    · by_cases hj : j = i
      · simp [hj, hv]
      · simp [hj]

theorem State.bit_wrBit (s : State) {f : Fld} (i b : Nat) (v : Bool) {c : Nat} (hc : c < f.width) : (s.wrBit f i b v).bit f i c = if c = b then v else s.bit f i c := by
  rw [State.bit, State.wrBit, State.rd_wr_same, bitOf_eq_testBit, Nat.testBit_mod_two_pow, ← bitOf_eq_testBit, bitOf_setBitTo]
  simp [hc, State.bit]

/-- Bits of a field that a list names, each with a value that this does not change. -/
theorem bit_each_wrBit {f : Fld} (val : State → Nat → Bool) (hval : ∀ s d v c, val (s.wrBit f 0 d v) c = val s c) (l : List Nat) {c : Nat} (hc : c < f.width) (s : State) :
    (s.each l fun s d => s.wrBit f 0 d (val s d)).bit f 0 c = if c ∈ l then val s c else s.bit f 0 c := by
  induction l generalizing s with
  | nil => rfl
  | cons d l ih =>
    change ((s.wrBit f 0 d (val s d)).each l fun s d => s.wrBit f 0 d (val s d)).bit f 0 c = _
    rw [ih, hval, s.bit_wrBit 0 d _ hc]
    by_cases hl : c ∈ l
    · simp [hl]
    · by_cases hd : c = d
      · simp [hd]
      · simp [hl, hd]

theorem bit_domsOff (s : State) (l : List Nat) {d : Nat} (hd : d < 56) : (domsOff s l).bit .PWR_STAT_ON 0 d = if d ∈ l then false else s.bit .PWR_STAT_ON 0 d :=
  bit_each_wrBit (fun _ _ => false) (fun _ _ _ _ => rfl) l hd s

theorem bit_domsOn (s : State) (l : List Nat) {d : Nat} (hd : d < 56) :
    (domsOn s l).bit .PWR_STAT_ON 0 d = if d ∈ l then !s.bit .PWR_OFF_OFF 0 d else s.bit .PWR_STAT_ON 0 d := by
  refine bit_each_wrBit (f := .PWR_STAT_ON) (fun s d => !s.bit .PWR_OFF_OFF 0 d) (fun s d v c => ?_) l hd s
  rw [State.bit, State.bit, State.wrBit, State.rd_wr_ne _ _ (by decide)]

/-! A tower that becomes active. -/

@[simp] theorem towerActive_kept (s : State) (u : Nat) : (towerActive s u).kept = s.kept := State.each_kept _ _ _ fun _ _ => rfl

theorem rd_towerActive (s : State) (u t : Nat) : (towerActive s u).rd .TWR_STAT_STATE t = if t = u then 1 else s.rd .TWR_STAT_STATE t := by
  have hchans : (towerActive s u).rd .TWR_STAT_STATE t = (s.wr .TWR_STAT_STATE u 1).rd .TWR_STAT_STATE t :=
    each_k (fl := [.CH_STAT_STATE]) (keepsR_refl _ _) (fun _ _ h => wr_k (by decide) h) .TWR_STAT_STATE t (by decide)
  rw [hchans]
  split
  · next h =>
    subst h
    exact s.rd_wr_same _ _ _
  · next h => exact s.rd_wr_ne 1 fun he => h he.2

theorem towerFresh_of {u : Nat} (h0 : t.rd .DEV_STATE_PRESERVED0 0 = s.rd .DEV_STATE_PRESERVED0 0) (h1 : t.rd .DEV_STATE_PRESERVED1 0 = s.rd .DEV_STATE_PRESERVED1 0) :
    t.towerFresh u = s.towerFresh u := by
  unfold State.towerFresh
  split
  · rw [State.on, State.on, h0]
  · rw [State.on, State.on, h1]

/-- Preserved towers leave self-refresh at the end of step 1. -/
def backIfKept (s : State) (t : Nat) : State := if s.towerFresh t then s else towerActive s t

theorem backIfKept_k {s₀ : State} {l : List Fld} (t : Nat) (hl : ([.CH_STAT_STATE, .TWR_STAT_STATE] : List Fld) ⊆ l) (hk : KeepsR s₀ s.regs l) :
    KeepsR s₀ (backIfKept s t).regs l := by
  unfold backIfKept
  split
  · exact hk
  · exact towerActive_k hl hk

theorem backIfKept_kept (s : State) (t : Nat) : (backIfKept s t).kept = s.kept := ite_kept rfl (towerActive_kept s t)

theorem rd_backIfKept (s : State) (u t : Nat) : (backIfKept s u).rd .TWR_STAT_STATE t = if t = u ∧ s.towerFresh u = false then 1 else s.rd .TWR_STAT_STATE t := by
  unfold backIfKept
  cases hfresh : s.towerFresh u
  · simpa [hfresh] using rd_towerActive s u t
  · simp

/-- What step 1 does for the preserved towers. -/
def keptBack (s : State) : State := backIfKept (backIfKept s 0) 1

theorem keptBack_k {s₀ : State} {l : List Fld} (hl : ([.CH_STAT_STATE, .TWR_STAT_STATE] : List Fld) ⊆ l) (hk : KeepsR s₀ s.regs l) : KeepsR s₀ (keptBack s).regs l :=
  backIfKept_k 1 hl (backIfKept_k 0 hl hk)

theorem keptBack_kept (s : State) : (keptBack s).kept = s.kept := (backIfKept_kept _ 1).trans (backIfKept_kept s 0)

theorem rd_keptBack (s : State) {t : Nat} (ht : t < 2) (hfresh : s.towerFresh t = false) : (keptBack s).rd .TWR_STAT_STATE t = 1 := by
  have hsame : (backIfKept s 0).towerFresh 1 = s.towerFresh 1 :=
    towerFresh_of (backIfKept_k 0 (List.Subset.refl _) (keepsR_refl s _) _ _ (by decide)) (backIfKept_k 0 (List.Subset.refl _) (keepsR_refl s _) _ _ (by decide))
  rw [keptBack, rd_backIfKept, rd_backIfKept, hsame]
  obtain rfl | rfl : t = 0 ∨ t = 1 := by omega
  · simp [hfresh]
  · simp [hfresh]

/-! The device serves. -/

theorem initServe_spec (s : State) : (initServe s).dev = devSERVICE ∧ (initServe s).rd .DEV_STATE_INITSTEP 0 = 4 ∧ s.pends (initServe s)
    ∧ ∀ t, (initServe s).rd .TWR_STAT_STATE t = s.rd .TWR_STAT_STATE t := by
  refine ⟨State.dev_setDev _ _ (by decide), ?_, pends_trans (pends_of_mems rfl) (setDev_pends _ _), fun t => ?_⟩
  · rw [initServe, State.rd_setDev _ _ _ _ (by decide) (by decide)]
    exact State.rd_wr_same _ _ _ _
  · exact initServe_k (List.Subset.refl _) (keepsR_refl s _) .TWR_STAT_STATE t (by decide)

/-! INIT_STEP_DONE by the step that ends. -/

variable {tsvs : List (Fin 2 × Fin 16 × Fin 160)} {words : List (BitVec 38 × Fin 5)}

theorem initStepDone_idle (hlive : s.dead = false) (h : s.dev ≠ devINIT ∨ ¬(1 ≤ s.rd .DEV_STATE_INITSTEP 0 ∧ s.rd .DEV_STATE_INITSTEP 0 ≤ 3)) :
    exec (.initStepDone tsvs words) s = .next s.start := by
  change execInitStepDone tsvs words s = _
  unfold execInitStepDone
  rw [live_of _ _ hlive]
  by_cases hdev : s.dev = devINIT
  · obtain h | h := h
    · exact absurd hdev h
    · rw [if_neg (not_not.mpr (show s.start.dev = devINIT from hdev))]
      rw [← State.rd_start] at h
      refine congrArg _ ?_
      dsimp only
      split
      · omega
      · omega
      · omega
      · rfl
  · rw [if_pos (show s.start.dev ≠ devINIT from hdev)]

/-- Towers that step 2 tests and step 3 sweeps. -/
def freshTowers (s : State) : List Nat := [0, 1].filter s.towerFresh

theorem freshTowers_nil : freshTowers s = [] ↔ ¬s.towerFresh 0 = true ∧ ¬s.towerFresh 1 = true := by simp [freshTowers]

theorem mem_freshTowers {t : Nat} : t ∈ freshTowers s ↔ t < 2 ∧ s.towerFresh t = true := by
  rw [freshTowers, List.mem_filter]
  simp only [List.mem_cons, List.not_mem_nil, or_false]
  exact and_congr_left fun _ => by omega

theorem initStepDone_one (hlive : s.dead = false) (hdev : s.dev = devINIT) (hstep : s.rd .DEV_STATE_INITSTEP 0 = 1) :
    exec (.initStepDone tsvs words) s = .next (if freshTowers s = [] then initServe (keptBack s.start) else (keptBack s.start).wr .DEV_STATE_INITSTEP 0 2) := by
  change execInitStepDone tsvs words s = _
  unfold execInitStepDone
  rw [live_of _ _ hlive, if_neg (not_not.mpr (show s.start.dev = devINIT from hdev))]
  rw [← State.rd_start] at hstep
  simp only [hstep]
  rfl

theorem initStepDone_two (hlive : s.dead = false) (hdev : s.dev = devINIT) (hstep : s.rd .DEV_STATE_INITSTEP 0 = 2) :
    exec (.initStepDone tsvs words) s = .next (if (selfTest s.start tsvs words).1 = true then enterHold ((freshTowers s).foldl towerLost (selfTest s.start tsvs words).2)
      else (selfTest s.start tsvs words).2.wr .DEV_STATE_INITSTEP 0 3) := by
  change execInitStepDone tsvs words s = _
  unfold execInitStepDone
  rw [live_of _ _ hlive, if_neg (not_not.mpr (show s.start.dev = devINIT from hdev))]
  rw [← State.rd_start] at hstep
  simp only [hstep]
  rfl

/-- The sweep of a tower ends, and the tower is active. -/
def towerSwept (s : State) (t : Nat) : State := towerActive (sweepSlabs s (1536 * t) 1536) t

theorem initStepDone_three (hlive : s.dead = false) (hdev : s.dev = devINIT) (hstep : s.rd .DEV_STATE_INITSTEP 0 = 3) :
    exec (.initStepDone tsvs words) s = .next (initServe ((freshTowers s).foldl towerSwept s.start)) := by
  change execInitStepDone tsvs words s = _
  unfold execInitStepDone
  rw [live_of _ _ hlive, if_neg (not_not.mpr (show s.start.dev = devINIT from hdev))]
  rw [← State.rd_start] at hstep
  simp only [hstep]
  rfl

/-! Step 1. -/

theorem keptBack_mems (s : State) : (keptBack s.start).mems = s.mems := mems_of_kept (s := s.start) (keptBack_kept s.start)

theorem stepOne_does (h : ¬(¬s.towerFresh 0 = true ∧ ¬s.towerFresh 1 = true)) : Does s (.next (if freshTowers s = [] then initServe (keptBack s.start)
      else (keptBack s.start).wr .DEV_STATE_INITSTEP 0 2)) [.TWR_STAT_STATE, .CH_STAT_STATE, .DEV_STATE_INITSTEP] fun u =>
    u.rd .DEV_STATE_INITSTEP 0 = 2 ∧ ∀ t < 2, ¬s.towerFresh t = true → u.rd .TWR_STAT_STATE t = 1 := by
  rw [if_neg (mt freshTowers_nil.mp h)]
  refine ⟨_, rfl, ⟨State.rd_wr_same _ _ _ _, fun t ht hfresh => ?_⟩, fldsBut_of (wr_k (by decide) (keptBack_k (by decide) (keepsR_refl s _))),
    memSame_of_mems ((State.wr_mems ..).trans (keptBack_mems s))⟩
  rw [State.rd_wr_ne _ _ fun he => Fld.noConfusion he.1]
  exact rd_keptBack s.start ht (Bool.not_eq_true (s.towerFresh t) ▸ hfresh)

theorem stepOneServes_does (h : ¬s.towerFresh 0 = true ∧ ¬s.towerFresh 1 = true) : DoesPend s (.next (if freshTowers s = [] then initServe (keptBack s.start)
      else (keptBack s.start).wr .DEV_STATE_INITSTEP 0 2)) [.TWR_STAT_STATE, .CH_STAT_STATE, .DEV_STATE_INITSTEP, .DEV_STATE_STATE, .X_ALERT] fun u =>
    u.dev = devSERVICE ∧ u.rd .DEV_STATE_INITSTEP 0 = 4 ∧ ∀ t < 2, u.rd .TWR_STAT_STATE t = 1 := by
  obtain ⟨hdev, hstep, hpends, htwr⟩ := initServe_spec (keptBack s.start)
  rw [if_pos (freshTowers_nil.mpr h)]
  refine doesPend_of ⟨hdev, hstep, fun t ht => (htwr t).trans (rd_keptBack s.start ht ?_)⟩ (initServe_k (by decide) (keptBack_k (by decide) (keepsR_refl s _)))
    (pends_trans (pends_of_mems (keptBack_mems s)) hpends)
  obtain rfl | rfl : t = 0 ∨ t = 1 := by omega
  · exact Bool.not_eq_true _ ▸ h.1
  · exact Bool.not_eq_true _ ▸ h.2

/-! Step 3: the sweep. -/

theorem towerSwept_k {s₀ : State} {l : List Fld} (t : Nat) (hl : ([.CH_STAT_STATE, .TWR_STAT_STATE] : List Fld) ⊆ l) (hk : KeepsR s₀ s.regs l) :
    KeepsR s₀ (towerSwept s t).regs l := towerActive_k hl (sweepSlabs_k hk)

theorem towersSwept_k {s₀ : State} {l : List Fld} (ts : List Nat) (hl : ([.CH_STAT_STATE, .TWR_STAT_STATE] : List Fld) ⊆ l) (hk : KeepsR s₀ s.regs l) :
    KeepsR s₀ (ts.foldl towerSwept s).regs l := foldl_k hk fun _ t h => towerSwept_k t hl h

theorem sweepSlabs_mems (s : State) (a n : Nat) : (sweepSlabs s a n).imem = s.imem ∧ (sweepSlabs s a n).dmem = s.dmem ∧ (sweepSlabs s a n).nvm = s.nvm := by
  simp [sweepSlabs]

/-- The tower's words go; the other memories stay. -/
theorem towerSwept_spec (s : State) (t : Nat) : (towerSwept s t).imem = s.imem ∧ (towerSwept s t).dmem = s.dmem ∧ (towerSwept s t).nvm = s.nvm
    ∧ ∀ e ∈ (towerSwept s t).tower, e ∈ s.tower ∧ e.1 / 0x800000 / 1536 ≠ t := by
  obtain ⟨hi, hd, ht, hnvm, -⟩ := mems_iff.mp (mems_of_kept (towerActive_kept (sweepSlabs s (1536 * t) 1536) t))
  obtain ⟨hi', hd', hn'⟩ := sweepSlabs_mems s (1536 * t) 1536
  refine ⟨hi.trans hi', hd.trans hd', hnvm.trans hn', fun e he => ?_⟩
  rw [towerSwept, ht] at he
  obtain ⟨hmem, hout⟩ := List.mem_filter.mp he
  refine ⟨hmem, fun h => ?_⟩
  simp only [Bool.not_eq_true', decide_eq_false_iff_not] at hout
  omega

theorem towersSwept_spec (ts : List Nat) (s : State) : (ts.foldl towerSwept s).imem = s.imem ∧ (ts.foldl towerSwept s).dmem = s.dmem ∧ (ts.foldl towerSwept s).nvm = s.nvm
    ∧ (∀ e ∈ (ts.foldl towerSwept s).tower, e ∈ s.tower ∧ e.1 / 0x800000 / 1536 ∉ ts)
    ∧ ∀ t, (ts.foldl towerSwept s).rd .TWR_STAT_STATE t = if t ∈ ts then 1 else s.rd .TWR_STAT_STATE t := by
  induction ts generalizing s with
  | nil => exact ⟨rfl, rfl, rfl, fun e he => ⟨he, by simp⟩, fun t => by simp⟩
  | cons u ts ih =>
    obtain ⟨hi, hd, hn, hout⟩ := towerSwept_spec s u
    obtain ⟨hi', hd', hn', hout', hrd⟩ := ih (towerSwept s u)
    rw [List.foldl_cons]
    refine ⟨hi'.trans hi, hd'.trans hd, hn'.trans hn, fun e he => ?_, fun t => ?_⟩
    · obtain ⟨hmem, hne⟩ := hout' e he
      obtain ⟨hmem', hne'⟩ := hout e hmem
      exact ⟨hmem', List.not_mem_cons_of_ne_of_not_mem hne' hne⟩
    · have hswept : (sweepSlabs s (1536 * u) 1536).rd .TWR_STAT_STATE t = s.rd .TWR_STAT_STATE t := rfl
      rw [hrd, towerSwept, rd_towerActive, hswept]
      by_cases hmem : t ∈ ts
      · simp [hmem]
      · simp [hmem]

end Sys2Proof.Machine
end

section
/-! The self-test of INIT step 2 (R431), which the command's start does not change, and the end of step 3. -/
namespace Sys2Proof.Machine
variable {s t : State} {tsvs : List (Fin 2 × Fin 16 × Fin 160)} {words : List (BitVec 38 × Fin 5)}

/-- A finding and the state with it, as the command's start leaves the state. -/
def startSnd (x : Bool × State) : Bool × State := (x.1, x.2.start)

theorem pendRecount_start (s : State) : pendRecount s.start = (pendRecount s).start := rfl

theorem setNvms_start (s : State) (a : Nat) (l : List Byte) : s.start.setNvms a l = (s.setNvms a l).start :=
  List.foldl_hom State.start fun _ _ => rfl

theorem repAppend_start (s : State) (e : RepEnt) : repAppend s.start e = (repAppend s e).start := by
  unfold repAppend repHeader
  rw [show s.start.repCount = s.repCount from rfl]
  dsimp only
  split
  · rw [setNvms_start, setNvms_start]
  · rfl

/-- A channel of a tower gets a repair, which waits for the firmware. -/
def testGets (s : State) (e : RepEnt) (t c : Nat) : State := repQueueNvm (spareRecount { s with reps := s.reps ++ [e] } t c) e

theorem testGets_start (s : State) (e : RepEnt) (t c : Nat) : testGets s.start e t c = (testGets s e t c).start := by
  unfold testGets repQueueNvm
  rw [← pendRecount_start]
  rfl

theorem testTsv_start (s : State) (t c lane : Nat) : testTsv s.start t c lane = startSnd (testTsv s t c lane) := by
  unfold testTsv
  rw [show s.start.tsvIn t c = s.tsvIn t c from rfl]
  cases (List.range 4).find? fun i => !(s.tsvIn t c).contains i with
  | none => rfl
  | some sp => exact congrArg (Prod.mk true) (testGets_start s (.tsv t c lane sp) t c)

theorem testRow_start (s : State) (k : RowKey) (bad : Nat) : testRow s.start k bad = startSnd (testRow s k bad) := by
  unfold testRow
  rw [show s.start.spareAfter k bad = s.spareAfter k bad from rfl]
  cases s.spareAfter k bad with
  | none => rfl
  | some sp => exact congrArg (Prod.mk true) (testGets_start s (.soft k sp) k.t k.c)

theorem set_start (s : State) (f : Fld) (i : Nat) : s.start.set f i = (s.set f i).start := rfl

theorem wr_start (s : State) (f : Fld) (i v : Nat) : s.start.wr f i v = (s.wr f i v).start := rfl

theorem testLost_start (s : State) (t c : Nat) : testLost s.start t c = startSnd (testLost s t c) := by
  unfold testLost
  rw [show s.start.retired t = s.retired t from rfl, show s.start.on .ECC_CFG_AUTORETIRE t = s.on .ECC_CFG_AUTORETIRE t from rfl]
  split
  · rfl
  · split
    · rw [set_start, wr_start, repAppend_start, startSnd]
    · rfl

theorem testStep_start (acc : Bool × State) (t c : Nat) {fix : State → Bool × State} (hfix : ∀ s, fix s.start = startSnd (fix s)) :
    testStep (startSnd acc) t c fix = startSnd (testStep acc t c fix) := by
  unfold testStep
  rw [show (startSnd acc).2 = acc.2.start from rfl, show (startSnd acc).1 = acc.1 from rfl, show acc.2.start.retired t = acc.2.retired t from rfl, hfix]
  split
  · rfl
  · dsimp only [startSnd]
    rw [testLost_start]
    split
    · rfl
    · rfl

theorem rowFirsts_start (s : State) (seen : List RowKey) (l : List (BitVec 38 × Fin 5)) : rowFirsts s.start seen l = rowFirsts s seen l := by
  induction l generalizing seen with
  | nil => rfl
  | cons e l ih =>
    simp only [rowFirsts, ih]
    rfl

theorem selfTest_start (s : State) : selfTest s.start tsvs words = startSnd (selfTest s tsvs words) := by
  unfold selfTest
  dsimp only
  rw [rowFirsts_start, show s.start.towerFresh = s.towerFresh from rfl, show (false, s.start) = startSnd (false, s) from rfl,
    List.foldl_hom startSnd fun a e => testStep_start a _ _ fun u => testTsv_start u _ _ _, List.foldl_hom startSnd fun a e => testStep_start a _ _ fun u => testRow_start u _ _]

/-! What the self-test leaves alone. -/

theorem repAppend_rest (s : State) (e : RepEnt) : (repAppend s e).rest = s.rest := by
  unfold repAppend repHeader
  dsimp only
  split
  · exact (setNvms_rest ..).trans (setNvms_rest ..)
  · rfl

theorem pendRecount_rest (s : State) : (pendRecount s).rest = s.rest := rfl

theorem testTsv_rest (s : State) (t c lane : Nat) : (testTsv s t c lane).2.rest = s.rest := by
  unfold testTsv
  split
  · exact pendRecount_rest _
  · rfl

theorem testRow_rest (s : State) (k : RowKey) (bad : Nat) : (testRow s k bad).2.rest = s.rest := by
  unfold testRow
  split
  · exact pendRecount_rest _
  · rfl

theorem set_rest (s : State) (f : Fld) (i : Nat) : (s.set f i).rest = s.rest := rfl

theorem wr_rest (s : State) (f : Fld) (i v : Nat) : (s.wr f i v).rest = s.rest := rfl

theorem testLost_rest (s : State) (t c : Nat) : (testLost s t c).2.rest = s.rest := by
  unfold testLost
  split
  · rfl
  · split
    · rw [repAppend_rest, wr_rest, set_rest]
    · rfl

theorem testStep_rest (acc : Bool × State) (t c : Nat) {fix : State → Bool × State} (hfix : ∀ s, (fix s).2.rest = s.rest) :
    (testStep acc t c fix).2.rest = acc.2.rest := by
  unfold testStep
  split
  · rfl
  · dsimp only
    split
    · exact hfix _
    · exact (testLost_rest _ t c).trans (hfix _)

theorem selfTest_rest (s : State) : (selfTest s tsvs words).2.rest = s.rest := by
  unfold selfTest
  dsimp only
  refine List.foldlRecOn (motive := fun a : Bool × State => a.2.rest = s.rest) _ _ (List.foldlRecOn (motive := fun a : Bool × State => a.2.rest = s.rest) _ _ rfl ?_) ?_
  · exact fun a ha e _ => (testStep_rest a _ _ fun u => testTsv_rest u _ _ _).trans ha
  · exact fun a ha e _ => (testStep_rest a _ _ fun u => testRow_rest u _ _).trans ha

/-- What the self-test writes. -/
def testFlds : List Fld := [.REP_SPARE_HARD, .REP_SPARE_ROWS, .REP_SPARE_TSV, .REP_STAT_NVMPEND, .REP_STAT_RCH, .REP_STAT_RETIRED]

theorem testTsv_keeps {s₀ : State} {l : List Fld} (t c lane : Nat) (hl : testFlds ⊆ l) (hk : KeepsR s₀ s.regs l) : KeepsR s₀ (testTsv s t c lane).2.regs l := by
  unfold testTsv
  split
  · exact repQueueNvm_k (fun _ h => hl ((by decide : _ ⊆ testFlds) h)) (spareRecount_k (fun _ h => hl ((by decide : _ ⊆ testFlds) h)) hk)
  · exact hk

theorem testRow_keeps {s₀ : State} {l : List Fld} (k : RowKey) (bad : Nat) (hl : testFlds ⊆ l) (hk : KeepsR s₀ s.regs l) : KeepsR s₀ (testRow s k bad).2.regs l := by
  unfold testRow
  split
  · exact repQueueNvm_k (fun _ h => hl ((by decide : _ ⊆ testFlds) h)) (spareRecount_k (fun _ h => hl ((by decide : _ ⊆ testFlds) h)) hk)
  · exact hk

theorem selfTest_keeps {s₀ : State} {l : List Fld} (hl : testFlds ⊆ l) (hk : KeepsR s₀ s.regs l) : KeepsR s₀ (selfTest s tsvs words).2.regs l := by
  have hlost : ([.REP_STAT_RCH, .REP_STAT_RETIRED] : List Fld) ⊆ l := fun _ h => hl ((by decide : _ ⊆ testFlds) h)
  unfold selfTest
  dsimp only
  refine List.foldlRecOn (motive := fun a : Bool × State => KeepsR s₀ a.2.regs l) _ _
    (List.foldlRecOn (motive := fun a : Bool × State => KeepsR s₀ a.2.regs l) _ _ hk ?_) ?_
  · exact fun a ha e _ => testStep_k hlost (fun _ h => testTsv_keeps _ _ _ hl h) ha
  · exact fun a ha e _ => testStep_k hlost (fun _ h => testRow_keeps _ _ hl h) ha

/-- The self-test ends without a channel that is lost. -/
theorem stepTwo_does : DoesNvm s (.next ((selfTest s.start tsvs words).2.wr .DEV_STATE_INITSTEP 0 3))
    ([.REP_SPARE_HARD, .REP_SPARE_ROWS, .REP_SPARE_TSV] ++ ([.REP_STAT_NVMPEND, .REP_STAT_RCH, .REP_STAT_RETIRED, .DEV_STATE_INITSTEP] : List Fld)) fun u =>
      u.rd .DEV_STATE_INITSTEP 0 = 3 ∧ u.reps = (selfTest s tsvs words).2.reps ∧ (tsvs = [] → words = [] → u.reps = s.reps ∧ u.nvm = s.nvm) := by
  obtain ⟨hi, hd, ht, hw, -⟩ := rest_iff.mp (selfTest_rest (tsvs := tsvs) (words := words) s.start)
  have hreps : (selfTest s.start tsvs words).2.reps = (selfTest s tsvs words).2.reps := by
    rw [selfTest_start]
    rfl
  refine ⟨_, rfl, ⟨State.rd_wr_same _ _ _ _, hreps, ?_⟩, fldsBut_of (wr_k (by decide) (selfTest_keeps (by decide) (keepsR_refl s _))), fun g w => ?_, fun g w => ?_, ht, fun a => ?_⟩
  · rintro rfl rfl
    exact ⟨rfl, rfl⟩
  · rw [State.getI, State.getI, State.wr_imem, hi]
    rfl
  · rw [State.getD, State.getD, State.wr_dmem, hd]
    rfl
  · rw [State.getWin, State.getWin, State.wr_win, hw]
    rfl

theorem each_dev {α : Type} (s : State) (l : List α) (f : State → α → State) (h : ∀ s a, (f s a).dev = s.dev) : (s.each l f).dev = s.dev :=
  List.foldlRecOn (motive := fun u : State => u.dev = s.dev) l f rfl fun u hu a _ => (h u a).trans hu

/-- A unit of a path stops where the device holds. -/
def streamStop (s : State) (p : Nat) : State := (s.clr .STRM_CFG_ON p).setStrm p { s.getStrm p with tmpl := none, run := none }

theorem streamStop_dev (s : State) (p : Nat) : (streamStop s p).dev = s.dev := by
  have h : (s.clr .STRM_CFG_ON p).dev = s.dev := s.rd_wr_ne (f := .STRM_CFG_ON) (i := p) 0 (by simp)
  exact h

/-- What HOLD turns on. -/
def holdOn (s : State) : State :=
  let s := if s.bootLoads then loadDrop s else s
  let s := domsOn s ((List.range 40).map (16 + ·))
  if s.dev = devSTANDBY then (standbyLeave s).wrB .X_CORE 0 s.running.isSome else s

/-- The streams stop, and the staged records are gone. -/
def holdStop (s : State) : State := { s.each (List.range 512) streamStop with staged := [] }

/-- What HOLD stops: the streams and the paths. -/
def holdOff (s : State) : State := towersUp ((holdStop s).each (List.range 512) forceDark)

theorem enterHold_of (h : s.dev ≠ devHOLD) : enterHold s = holdOff ((holdOn s).setDev devHOLD) := by
  rw [enterHold, if_neg h]
  unfold holdOff holdStop holdOn streamStop towersUp
  rfl

theorem forceDark_dev (s : State) (p : Nat) : (forceDark s p).dev = s.dev := forceDark_k (List.Subset.refl _) (keepsR_refl s _) .DEV_STATE_STATE 0 (by decide)

theorem towersUp_dev (s : State) : (towersUp s).dev = s.dev := towersUp_k (List.Subset.refl _) (keepsR_refl s _) .DEV_STATE_STATE 0 (by decide)

theorem staged_dev (s : State) : ({ s with staged := [] } : State).dev = s.dev := rfl

theorem holdStop_dev (s : State) : (holdStop s).dev = s.dev := (staged_dev _).trans (each_dev s _ _ streamStop_dev)

theorem holdOff_dev (s : State) : (holdOff s).dev = s.dev := (towersUp_dev _).trans ((each_dev _ _ _ forceDark_dev).trans (holdStop_dev s))

/-- HOLD is entered, and nothing that follows leaves it. -/
theorem enterHold_dev (s : State) : (enterHold s).dev = devHOLD := by
  by_cases h : s.dev = devHOLD
  · rw [enterHold, if_pos h, h]
  · rw [enterHold_of h, holdOff_dev]
    exact State.dev_setDev _ _ (by decide)

/-- The device serves after the sweep. -/
theorem stepThree_serves (s : State) : ∃ u, Host.Outcome.next (initServe ((freshTowers s).foldl towerSwept s.start)) = (.next u : Host.Outcome State Fault Refusal) ∧ u.dev = devSERVICE
    ∧ u.rd .DEV_STATE_INITSTEP 0 = 4 ∧ (∀ t < 2, s.towerFresh t = true → u.rd .TWR_STAT_STATE t = 1)
    ∧ (∀ e ∈ u.tower, e ∈ s.tower ∧ ∀ t < 2, e.1 / 0x800000 / 1536 = t → ¬s.towerFresh t = true)
    ∧ s.fldsBut u [.TWR_STAT_STATE, .CH_STAT_STATE, .DEV_STATE_INITSTEP, .DEV_STATE_STATE, .X_ALERT] ∧ u.imem = s.imem ∧ u.dmem = s.dmem ∧ u.nvm = s.nvm := by
  obtain ⟨hi, hd, hn, hout, hrd⟩ := towersSwept_spec (freshTowers s) s.start
  obtain ⟨hdev, hstep, ⟨⟨hi', hd', ht', hn'⟩, -⟩, htwr⟩ := initServe_spec ((freshTowers s).foldl towerSwept s.start)
  refine ⟨_, rfl, hdev, hstep, fun t ht hfresh => ?_, fun e he => ?_, fldsBut_of (initServe_k (by decide) (towersSwept_k _ (by decide) (keepsR_refl s _))), hi'.trans hi,
    hd'.trans hd, hn'.trans hn⟩
  · rw [htwr, hrd, if_pos (mem_freshTowers.mpr ⟨ht, hfresh⟩)]
  · rw [ht'] at he
    obtain ⟨hmem, hne⟩ := hout e he
    exact ⟨hmem, fun t ht h hfresh => hne (h ▸ mem_freshTowers.mpr ⟨ht, hfresh⟩)⟩

end Sys2Proof.Machine
end

section
/-! IDLE (R26, R27, R407, R603): what an entry and an exit do to the towers, the domains and the fields. -/
namespace Sys2Proof.Machine
variable {s : State}

/-! Towers in self-refresh. -/

/-- A tower that is active goes to self-refresh. -/
def towerDown (s : State) (t : Nat) : State :=
  if s.twrActive t then
    (s.wr .TWR_STAT_STATE t 2).each (List.range 16) fun s c => if s.retired t = some c then s else s.wr .CH_STAT_STATE (chI t c) 2
  else s

theorem towersDown_eq (s : State) : towersDown s = towerDown (towerDown s 0) 1 := rfl

theorem towerDown_kept (s : State) (t : Nat) : (towerDown s t).kept = s.kept := by
  refine ite_kept ((State.each_kept _ _ _ fun u c => ?_).trans (State.wr_kept ..)) rfl
  exact ite_kept rfl (State.wr_kept ..)

theorem rd_towerDown (s : State) (u t : Nat) : (towerDown s u).rd .TWR_STAT_STATE t = if t = u ∧ s.twrActive u = true then 2 else s.rd .TWR_STAT_STATE t := by
  unfold towerDown
  split
  · next hact =>
    have hchans : ((s.wr .TWR_STAT_STATE u 2).each (List.range 16) fun s c => if s.retired u = some c then s else s.wr .CH_STAT_STATE (chI u c) 2).rd .TWR_STAT_STATE t
        = (s.wr .TWR_STAT_STATE u 2).rd .TWR_STAT_STATE t := by
      refine each_k (fl := [.CH_STAT_STATE]) (keepsR_refl _ _) (fun v c h => ?_) .TWR_STAT_STATE t (by decide)
      split
      · exact h
      · exact wr_k (by decide) h
    rw [hchans]
    by_cases ht : t = u
    · subst ht
      rw [if_pos ⟨rfl, hact⟩]
      exact s.rd_wr_same _ _ _
    · rw [if_neg fun h => ht h.1]
      exact s.rd_wr_ne 2 fun he => ht he.2
  · next hact => rw [if_neg fun h => hact h.2]

theorem towersDown_spec (s : State) : (towersDown s).kept = s.kept ∧ ∀ t < 2, s.twrActive t = true → (towersDown s).rd .TWR_STAT_STATE t = 2 := by
  rw [towersDown_eq]
  refine ⟨(towerDown_kept _ 1).trans (towerDown_kept s 0), fun t ht hact => ?_⟩
  have hother : (towerDown s 0).twrActive 1 = s.twrActive 1 := by
    rw [State.twrActive, State.twrActive, rd_towerDown]
    rfl
  rw [rd_towerDown, rd_towerDown, hother]
  obtain rfl | rfl : t = 0 ∨ t = 1 := by omega
  · simp [hact]
  · simp [hact]

theorem rd_towerUp (s : State) (u t : Nat) :
    (towerUp s u).rd .TWR_STAT_STATE t = if t = u ∧ s.rd .TWR_STAT_STATE u = 2 then 1 else s.rd .TWR_STAT_STATE t := by
  unfold towerUp
  split
  · next h2 =>
    extract_lets a
    have hchans : (a.each (List.range 16) fun s c => s.wr .CH_STAT_STATE (chI u c) (if s.retired u = some c then 3 else 0)).rd .TWR_STAT_STATE t
        = a.rd .TWR_STAT_STATE t := each_k (fl := [.CH_STAT_STATE]) (keepsR_refl _ _) (fun _ _ h => wr_k (by decide) h) .TWR_STAT_STATE t (by decide)
    have hrep : (repApply s u (List.range 16)).rd .TWR_STAT_STATE t = s.rd .TWR_STAT_STATE t :=
      repApply_k (List.Subset.refl _) (keepsR_refl s _) .TWR_STAT_STATE t (by decide)
    rw [hchans]
    by_cases ht : t = u
    · subst ht
      rw [if_pos ⟨rfl, h2⟩]
      exact State.rd_wr_same _ _ _ _
    · rw [if_neg fun h => ht h.1]
      exact (State.rd_wr_ne _ 1 fun he => ht he.2).trans hrep
  · next h2 => rw [if_neg fun h => h2 h.2]

theorem towerUp_rest (s : State) (t : Nat) : (towerUp s t).kept = s.kept := by
  unfold towerUp
  refine ite_kept ?_ rfl
  exact (State.each_kept _ _ _ fun _ _ => State.wr_kept ..).trans ((State.wr_kept ..).trans (repApply_kept ..))

theorem rd_each_towerUp (l : List Nat) (s : State) (t : Nat) :
    (s.each l towerUp).rd .TWR_STAT_STATE t = if t ∈ l ∧ s.rd .TWR_STAT_STATE t = 2 then 1 else s.rd .TWR_STAT_STATE t := by
  induction l generalizing s with
  | nil => simp [State.each]
  | cons u l ih =>
    rw [State.each, List.foldl_cons, ← State.each, ih, rd_towerUp]
    by_cases h2 : s.rd .TWR_STAT_STATE t = 2
    · by_cases hu : t = u
      · subst hu
        simp [h2]
      · simp [h2, hu]
    · by_cases hu : t = u
      · subst hu
        simp [h2]
      · simp [h2, hu]

/-- The towers of a list come back; the repair list is written again only where it is bad and the firmware runs. -/
theorem towersUpOf_spec (s : State) (ts : List Nat) : (towersUpOf s ts).rest = s.rest
    ∧ (s.repBad = [] ∨ s.mgmtAway = true → (towersUpOf s ts).nvm = s.nvm)
    ∧ ∀ t ∈ ts, s.rd .TWR_STAT_STATE t = 2 → (towersUpOf s ts).rd .TWR_STAT_STATE t = 1 := by
  let v := (repCheck s).each ts towerUp
  have hkept : v.kept = s.kept := (State.each_kept _ _ _ towerUp_rest).trans (repCheck_kept s)
  obtain ⟨hrest, hnvm⟩ := Prod.ext_iff.mp hkept
  have haway : v.mgmtAway = s.mgmtAway := by
    have hchk : (repCheck s).rd .X_FWUP 0 = s.rd .X_FWUP 0 := repCheck_k (List.Subset.refl _) (keepsR_refl s _) .X_FWUP 0 (by decide)
    have hup : v.rd .X_FWUP 0 = (repCheck s).rd .X_FWUP 0 :=
      each_k (fl := [.CH_STAT_STATE, .REP_SPARE_HARD, .REP_SPARE_ROWS, .REP_SPARE_TSV, .TWR_STAT_STATE]) (keepsR_refl _ _) (fun _ _ h => towerUp_k (by decide) h)
        .X_FWUP 0 (by decide)
    rw [State.mgmtAway, State.mgmtAway, State.on, State.on, hup, hchk]
  have hv : ∀ t ∈ ts, s.rd .TWR_STAT_STATE t = 2 → v.rd .TWR_STAT_STATE t = 1 := fun t ht h2 => by
    have hchk : (repCheck s).rd .TWR_STAT_STATE t = s.rd .TWR_STAT_STATE t := repCheck_k (List.Subset.refl _) (keepsR_refl s _) .TWR_STAT_STATE t (by decide)
    rw [rd_each_towerUp, hchk, if_pos ⟨ht, h2⟩]
  unfold towersUpOf
  split
  · refine ⟨(repTidy_rest v).trans hrest, fun h => ?_, fun t ht h2 => ?_⟩
    · rw [repTidy_of_good (s := v) (by rwa [repBad_of_nvm hnvm, haway])]
      exact hnvm
    · exact (repTidy_k (fl := []) (keepsR_refl v []) .TWR_STAT_STATE t (by simp)).trans (hv t ht h2)
  · next hnone =>
    refine ⟨rfl, fun _ => rfl, fun t ht h2 => absurd (List.any_eq_true.mpr ⟨t, ht, ?_⟩) hnone⟩
    simp [h2]

/-! Entry. -/

/-- Fields that an entry to IDLE or an exit shows. -/
def shownFlds : List Fld := [.CH_STAT_STATE, .CLK_GPEND_GATE_PEND, .DEV_CMD_RESULT, .DEV_STATE_STATE, .PWR_STAT_ON, .TWR_STAT_STATE, .X_ALERT]

/-- The domains go off and the towers to self-refresh; what IDLE does not keep is lost. -/
def idleDown (s : State) : State := (domsOff (towersDown s) idleOff).drop fun k => k.1.idleLoses

theorem idleEnter_of (busy : Nat) (h : s.mayIdle = true) :
    idleEnter s busy = (stateGates ((idleDown s).setDev devIDLE) s.clkEn busy).wr .DEV_CMD_RESULT 0 0 := by
  rw [idleEnter, if_neg (by simp [h])]
  rfl

theorem idleDown_kept (s : State) : (idleDown s).kept = s.kept := by
  have hdrop : (idleDown s).kept = (domsOff (towersDown s) idleOff).kept := rfl
  exact hdrop.trans ((domsOff_kept _ _).trans (towersDown_spec s).1)

theorem rd_idleDown {f : Fld} (s : State) (i : Nat) :
    (idleDown s).rd f i = if f.idleLoses = true then State.reset.rd f i else (domsOff (towersDown s) idleOff).rd f i :=
  (domsOff (towersDown s) idleOff).rd_drop (fun k => k.1.idleLoses) f i

theorem rd_idleDone {f : Fld} (was : Nat → Bool) (busy i : Nat) (hf : f ∉ ([.CLK_GPEND_GATE_PEND, .DEV_CMD_RESULT, .DEV_STATE_STATE, .X_ALERT] : List Fld)) (s : State) (st : Nat) :
    ((stateGates (s.setDev st) was busy).wr .DEV_CMD_RESULT 0 0).rd f i = s.rd f i :=
  wr_k (by decide) (stateGates_k (by decide) (setDev_k (by decide) (keepsR_refl s _))) f i hf

theorem idleDone_kept (was : Nat → Bool) (busy : Nat) (s : State) : ((stateGates s was busy).wr .DEV_CMD_RESULT 0 0).kept = s.kept :=
  (State.wr_kept ..).trans (stateGates_kept ..)

theorem dev_stateGates (was : Nat → Bool) (busy : Nat) (s : State) : ((stateGates s was busy).wr .DEV_CMD_RESULT 0 0).dev = s.dev :=
  wr_k (fl := [.CLK_GPEND_GATE_PEND, .DEV_CMD_RESULT]) (by decide) (stateGates_k (by decide) (keepsR_refl s _)) .DEV_STATE_STATE 0 (by decide)

theorem idleEnter_does (busy : Nat) (h : s.mayIdle = true) : ∃ u, Host.Outcome.next (idleEnter s.start busy) = (.next u : Host.Outcome State Fault Refusal) ∧ u.dev = devIDLE
    ∧ u.rd .DEV_CMD_RESULT 0 = 0 ∧ (u.imem = s.imem ∧ u.dmem = s.dmem ∧ u.tower = s.tower ∧ u.nvm = s.nvm)
    ∧ (∀ d ∈ idleOff, u.bit .PWR_STAT_ON 0 d = false) ∧ (∀ t < 2, s.twrActive t = true → u.rd .TWR_STAT_STATE t = 2)
    ∧ (∀ f i, f.idleLoses = true → u.rd f i = State.reset.rd f i)
    ∧ ∀ f i, f.idleLoses = false → f ∉ shownFlds →
      u.rd f i = s.rd f i := by
  rw [idleEnter_of (s := s.start) busy h]
  have hkeeps : KeepsR s (domsOff (towersDown s.start) idleOff).regs [.CH_STAT_STATE, .PWR_STAT_ON, .TWR_STAT_STATE] :=
    domsOff_k (by decide) (towersDown_k (by decide) (keepsR_refl s _))
  obtain ⟨⟨hi, hd, ht, hn⟩, -⟩ := setDev_pends (idleDown s.start) devIDLE
  obtain ⟨hi', hd', ht', hn', -⟩ := mems_iff.mp (mems_of_kept (idleDown_kept s.start))
  obtain ⟨hi'', hd'', ht'', hn'', -⟩ := mems_iff.mp (mems_of_kept (idleDone_kept s.start.clkEn busy ((idleDown s.start).setDev devIDLE)))
  refine ⟨_, rfl, ?_, State.rd_wr_same _ _ _ _, ⟨hi''.trans (hi.trans hi'), hd''.trans (hd.trans hd'), ht''.trans (ht.trans ht'), hn''.trans (hn.trans hn')⟩,
    fun d hd => ?_, fun t ht hact => ?_, fun f i hf => ?_, fun f i hf hshown => ?_⟩
  · rw [dev_stateGates]
    exact State.dev_setDev _ _ (by decide)
  · have hlt : d < 56 := (by decide : ∀ d ∈ idleOff, d < 56) d hd
    rw [State.bit, rd_idleDone _ _ _ (by decide), rd_idleDown, if_neg (by decide)]
    exact (bit_domsOff _ _ hlt).trans (if_pos hd)
  · rw [rd_idleDone _ _ _ (by decide), rd_idleDown, if_neg (by decide)]
    refine (domsOff_k (fl := [.PWR_STAT_ON]) (by decide) (keepsR_refl _ _) .TWR_STAT_STATE t (by decide)).trans ?_
    exact (towersDown_spec s.start).2 t ht hact
  · rw [rd_idleDone _ _ _ ?_, rd_idleDown, if_pos hf]
    intro hmem
    exact absurd hf ((by decide : ∀ f ∈ ([.CLK_GPEND_GATE_PEND, .DEV_CMD_RESULT, .DEV_STATE_STATE, .X_ALERT] : List Fld), ¬f.idleLoses = true) f hmem)
  · have hafter : ([.CLK_GPEND_GATE_PEND, .DEV_CMD_RESULT, .DEV_STATE_STATE, .X_ALERT] : List Fld) ⊆ shownFlds := by decide
    have hdown : ([.CH_STAT_STATE, .PWR_STAT_ON, .TWR_STAT_STATE] : List Fld) ⊆ shownFlds := by decide
    rw [rd_idleDone _ _ _ fun hmem => hshown (hafter hmem), rd_idleDown, if_neg (by simp [hf])]
    exact hkeeps f i fun hmem => hshown (hdown hmem)

/-! Exit. -/

/-- The domains of the towers are on, and the device serves. -/
def idleUp (s : State) : State := (domsOn s [34, 35]).setDev devSERVICE

theorem idleUp_k {s₀ : State} {l : List Fld} (hl : ([.DEV_STATE_STATE, .PWR_STAT_ON, .X_ALERT] : List Fld) ⊆ l) (hk : KeepsR s₀ s.regs l) : KeepsR s₀ (idleUp s).regs l := by
  have hdev : ([.DEV_STATE_STATE, .X_ALERT] : List Fld) ⊆ [.DEV_STATE_STATE, .PWR_STAT_ON, .X_ALERT] := by decide
  have hdoms : ([.PWR_STAT_ON] : List Fld) ⊆ [.DEV_STATE_STATE, .PWR_STAT_ON, .X_ALERT] := by decide
  exact setDev_k (fun _ h => hl (hdev h)) (domsOn_k (fun _ h => hl (hdoms h)) hk)

theorem idleExit_eq (s : State) (busy : Nat) :
    idleExit s busy = (stateGates (towersUpOf (idleUp s) ([0, 1].filter fun t => !(idleUp s).clkFailed (16 + t))) s.clkEn busy).wr .DEV_CMD_RESULT 0 0 := by
  have hdev : (idleUp s).dev = devSERVICE := State.dev_setDev _ _ (by decide)
  have hback : towersBack (idleUp s) [0, 1] = towersUpOf (idleUp s) ([0, 1].filter fun t => !(idleUp s).clkFailed (16 + t)) := if_pos (.inl hdev)
  rw [← hback]
  rfl

theorem rd_idleUp {f : Fld} (s : State) (i : Nat) (hf : f ∉ ([.DEV_STATE_STATE, .PWR_STAT_ON, .X_ALERT] : List Fld)) : (idleUp s).rd f i = s.rd f i :=
  idleUp_k (List.Subset.refl _) (keepsR_refl s _) f i hf

theorem bit_idleUp (s : State) {d : Nat} (hd : d ∈ [34, 35]) : (idleUp s).bit .PWR_STAT_ON 0 d = !s.bit .PWR_OFF_OFF 0 d := by
  have hlt : d < 56 := (by decide : ∀ d ∈ [34, 35], d < 56) d hd
  rw [State.bit, idleUp, State.rd_setDev _ _ _ _ (by decide) (by decide)]
  exact (bit_domsOn s _ hlt).trans (if_pos hd)

theorem idleExit_does (busy : Nat) : DoesPendNvm s (.next (idleExit s.start busy))
    (shownFlds ++ ([.REP_SPARE_HARD, .REP_SPARE_ROWS, .REP_SPARE_TSV] : List Fld) ++ msgFlds) fun u =>
    ((s.repBad = [] ∨ s.mgmtAway = true) → ∀ a, u.getNvm a = s.getNvm a) ∧ u.dev = devSERVICE ∧ u.rd .DEV_CMD_RESULT 0 = 0
      ∧ (∀ d ∈ [34, 35], u.bit .PWR_STAT_ON 0 d = !s.bit .PWR_OFF_OFF 0 d)
      ∧ ∀ t < 2, s.rd .TWR_STAT_STATE t = 2 → s.clkFailed (16 + t) = false → u.rd .TWR_STAT_STATE t = 1 := by
  let a := idleUp s.start
  let ts := [0, 1].filter fun t => !a.clkFailed (16 + t)
  let b := towersUpOf a ts
  have hkeeps := idleExit_k (s := s.start) (busy := busy) (fl := shownFlds ++ ([.REP_SPARE_HARD, .REP_SPARE_ROWS, .REP_SPARE_TSV] : List Fld) ++ msgFlds) (by decide) (keepsR_refl s _)
  have heq : idleExit s.start busy = (stateGates b s.start.clkEn busy).wr .DEV_CMD_RESULT 0 0 := idleExit_eq s.start busy
  obtain ⟨hrest, hnvm, htwr⟩ := towersUpOf_spec a ts
  have hup : s.pends a := pends_trans (pends_of_mems (s := s) (mems_of_kept (s := s.start) (domsOn_kept s.start [34, 35]))) (setDev_pends _ _)
  obtain ⟨⟨hi, hd, ht, hn⟩, hw⟩ := hup
  obtain ⟨hi', hd', ht', hw', -⟩ := rest_iff.mp hrest
  obtain ⟨hi'', hd'', ht'', hn'', hw''⟩ := mems_iff.mp (mems_of_kept (idleDone_kept s.start.clkEn busy b))
  have hgates : ∀ f i, f ∉ ([.CLK_GPEND_GATE_PEND, .DEV_CMD_RESULT] : List Fld) → ((stateGates b s.start.clkEn busy).wr .DEV_CMD_RESULT 0 0).rd f i = b.rd f i :=
    fun f i hf => wr_k (by decide) (stateGates_k (by decide) (keepsR_refl b _)) f i hf
  have hb : ∀ f i, f ∉ ([.CH_STAT_STATE, .FLT_DROP_COUNT, .FLT_STAT_STAT, .REP_SPARE_HARD, .REP_SPARE_ROWS, .REP_SPARE_TSV, .TWR_STAT_STATE, .X_FQ_RUN] : List Fld) →
      b.rd f i = a.rd f i := fun f i hf => towersUpOf_k (List.Subset.refl _) (keepsR_refl a _) f i hf
  rw [heq] at hkeeps ⊢
  refine ⟨_, rfl, ⟨fun hgood x => ?_, ?_, State.rd_wr_same _ _ _ _, fun d hd => ?_, fun t hlt h2 hclk => ?_⟩, fldsBut_of hkeeps, fun g w => ?_, fun g w => ?_,
    ht''.trans (ht'.trans ht), fun x hx => ?_⟩
  · have haway : a.mgmtAway = s.mgmtAway := by
      rw [State.mgmtAway, State.mgmtAway, State.on, State.on, rd_idleUp _ _ (by decide)]
      rfl
    have hsame : b.nvm = s.nvm := (hnvm (by rwa [repBad_of_nvm hn, haway])).trans hn
    rw [State.getNvm, State.getNvm, hn'', hsame]
  · refine (hgates _ _ (by decide)).trans ((hb _ _ (by decide)).trans ?_)
    exact State.dev_setDev _ _ (by decide)
  · rw [State.bit, hgates _ _ (by decide), hb _ _ (by decide)]
    exact bit_idleUp s.start hd
  · have hfail : a.clkFailed (16 + t) = false := by
      rw [State.clkFailed, State.bit, rd_idleUp _ _ (by decide)]
      exact hclk
    have hmem : t ∈ ts := by
      refine List.mem_filter.mpr ⟨?_, by simp [hfail]⟩
      simp only [List.mem_cons, List.not_mem_nil, or_false]
      omega
    rw [hgates _ _ (by decide)]
    exact htwr t hmem ((rd_idleUp _ _ (by decide)).trans h2)
  · rw [State.getI, State.getI, hi'', hi', hi]
  · rw [State.getD, State.getD, hd'', hd', hd]
  · have hwin := hw x fun h => hx (by omega)
    rw [State.getWin, State.getWin] at hwin
    rw [State.getWin, State.getWin, hw'', hw', hwin]

end Sys2Proof.Machine
end

section
/-! STANDBY (R28, R407, R603): what an entry drops, clears and shows. -/
namespace Sys2Proof.Machine
variable (s : State)

/-- What STANDBY keeps (the memories, the event buffer) or loses (keys, sessions) besides registers. -/
def State.vault (s : State) := (s.imem, s.dmem, s.tower, s.nvm, s.evbuf, s.klk, s.pkeys, s.ikeys, s.spdm)

theorem vault_iff {s t : State} : t.vault = s.vault ↔ t.imem = s.imem ∧ t.dmem = s.dmem ∧ t.tower = s.tower ∧ t.nvm = s.nvm ∧ t.evbuf = s.evbuf ∧ t.klk = s.klk
    ∧ t.pkeys = s.pkeys ∧ t.ikeys = s.ikeys ∧ t.spdm = s.spdm := by
  simp [State.vault]

@[simp] theorem State.wr_vault (f : Fld) (i v : Nat) : (s.wr f i v).vault = s.vault := rfl
@[simp] theorem State.set_vault (f : Fld) (i : Nat) : (s.set f i).vault = s.vault := rfl
@[simp] theorem State.wrB_vault (f : Fld) (i : Nat) (b : Bool) : (s.wrB f i b).vault = s.vault := rfl
@[simp] theorem State.clr_vault (f : Fld) (i : Nat) : (s.clr f i).vault = s.vault := rfl

theorem State.each_vault {α : Type} (l : List α) (f : State → α → State) (h : ∀ s a, (f s a).vault = s.vault) : (s.each l f).vault = s.vault :=
  List.foldlRecOn (motive := fun u : State => u.vault = s.vault) l f rfl fun u hu a _ => (h u a).trans hu

@[simp] theorem rxRoles_vault (x : Nat) (pam : Bool) : (rxRoles s x pam).vault = s.vault := by
  unfold rxRoles
  dsimp only
  split
  · rfl
  · exact s.each_vault _ _ fun _ _ => rfl

@[simp] theorem refreshPort_vault (r : Nat) : (refreshPort s r).vault = s.vault := by
  unfold refreshPort
  dsimp only
  simp [apply_ite State.vault]

theorem setDev_vault (st : Nat) : (s.setDev st).vault = s.vault := by
  unfold State.setDev
  split
  · rfl
  · simp [State.vault]

/-! Entry, in parts. -/

/-- A field is lost on entry to STANDBY. -/
def standbyLost (f : Fld) : Bool := f.standbyLoses || [Fld.MB_STAT_PEND, .MB_STAT_RSP, .MB_STAT_ERR, .TW_MBSTAT_PEND, .TW_MBSTAT_RSP, .TW_MBSTAT_ERR,
    .REP_STAT_NVMPEND, .STRM_CFG_PEND].contains f || f.blk == .timebase || f.blk == .vine

/-- The load is discarded, the core stops and the domains go off; what STANDBY does not keep is lost. -/
def standbyDown (s : State) : State := (coreStop (domsOff (loadAbort s) (List.range 56))).drop fun k => standbyLost k.1

/-- What runs ends: causes, injections, the meter, a restart, the core. -/
def standbyEnds (s : State) : State :=
  let s := s.each [1024, 1025, 1026, 1027, 1029] State.endCause
  let s := ((s.clr .X_INJ_LEFT 0).clr .FLT_INJ_BUSY 0).clr .FM_CTL_BUSY 0
  ((s.clr .X_CLKR 0).clr .CLK_GPEND_GATE_PEND 0).clr .X_CORE 0

/-- Keys, sessions and what was waiting are gone. -/
def standbyEmpties (s : State) : State :=
  let s := { s with
    hiLatch := [], halfStage := [], waits := [], mblk := [], held := [], items := [], strikes := [], strm := [], staged := [], carry := [], hostq := [], hot := .none, vreq := [], vwait := [],
    vheld := [], bursts := [], banks := [], scrRows := [], scrTsv := [], softq := [], nvmPend := [], punLens := [], encBuf := [], pkeys := [], rpl := [],
    vdel := [], vofs := [], dly := [], dlyHold := [], pkts := [], ltSent := [], ltHdr := [], pchk := [], calq := [], ikeys := [], klk := none, rjob := none, hv := [], b2 := [],
    mctpq := [], spdm := [], mctpin := [] }
  winClear (winClear s 0xC000 0x11000) 0x500100 0x502000

/-- A tower is in self-refresh, whatever it was. -/
def towerSleeps (s : State) (t : Nat) : State :=
  (s.wr .TWR_STAT_STATE t 2).each (List.range 16) fun s c => s.wr .CH_STAT_STATE (chI t c) (if s.retired t = some c then 3 else 2)

/-- The links and the ports as STANDBY shows them. -/
def standbyPorts (s : State) : State := (s.each (List.range 256) fun s L => s.wr .X_PCI_EFF L (s.pciWord L)).each (List.range 512) refreshPort

/-- The device is in STANDBY. -/
def standbyDone (s : State) : State := ((s.setDev devSTANDBY).set .HK_STAT_AONMODE 0).wr .DEV_CMD_RESULT 0 0

theorem standbyEnter_eq : standbyEnter s = standbyDone (standbyPorts ((standbyEmpties (standbyEnds (standbyDown s))).each [0, 1] towerSleeps)) := by
  unfold standbyEnter standbyDone standbyPorts standbyEmpties standbyEnds standbyDown standbyLost towerSleeps
  rfl

/-! What each part leaves alone. -/

variable {s}

theorem loadAbort_vault (s : State) : (loadAbort s).vault = s.vault := by
  unfold loadAbort
  split
  · rfl
  · split
    · exact setDev_vault _ _
    · rfl

theorem domsOff_vault (s : State) (l : List Nat) : (domsOff s l).vault = s.vault := s.each_vault _ _ fun _ _ => rfl

theorem standbyEnds_vault (s : State) : (standbyEnds s).vault = s.vault := by
  have hends : (s.each [1024, 1025, 1026, 1027, 1029] State.endCause).vault = s.vault := s.each_vault _ _ fun _ _ => rfl
  unfold standbyEnds
  simp only [State.clr_vault]
  exact hends

theorem towerSleeps_vault (s : State) (t : Nat) : (towerSleeps s t).vault = s.vault := (State.each_vault _ _ _ fun u _ => u.wr_vault _ _ _).trans (s.wr_vault _ _ _)

theorem standbyPorts_vault (s : State) : (standbyPorts s).vault = s.vault :=
  (State.each_vault _ _ _ refreshPort_vault).trans (s.each_vault _ _ fun u _ => u.wr_vault _ _ _)

theorem standbyDone_vault (s : State) : (standbyDone s).vault = s.vault := (State.wr_vault _ _ _ _).trans ((State.set_vault _ _ _).trans (setDev_vault _ _))

theorem coreStop_stores (s : State) (p : Fld × Nat → Bool) : ((coreStop s).drop p).imem = s.imem ∧ ((coreStop s).drop p).dmem = s.dmem
    ∧ ((coreStop s).drop p).tower = s.tower ∧ ((coreStop s).drop p).nvm = s.nvm ∧ ((coreStop s).drop p).evbuf = s.evbuf := ⟨rfl, rfl, rfl, rfl, rfl⟩

theorem standbyDown_stores (s : State) : (standbyDown s).imem = s.imem ∧ (standbyDown s).dmem = s.dmem ∧ (standbyDown s).tower = s.tower ∧ (standbyDown s).nvm = s.nvm
    ∧ (standbyDown s).evbuf = s.evbuf := by
  obtain ⟨hi, hd, ht, hn, he, -⟩ := vault_iff.mp ((domsOff_vault (loadAbort s) (List.range 56)).trans (loadAbort_vault s))
  obtain ⟨hi', hd', ht', hn', he'⟩ := coreStop_stores (domsOff (loadAbort s) (List.range 56)) fun k => standbyLost k.1
  unfold standbyDown
  exact ⟨hi'.trans hi, hd'.trans hd, ht'.trans ht, hn'.trans hn, he'.trans he⟩

theorem standbyEmpties_spec (s : State) : ((standbyEmpties s).imem = s.imem ∧ (standbyEmpties s).dmem = s.dmem ∧ (standbyEmpties s).tower = s.tower
    ∧ (standbyEmpties s).nvm = s.nvm ∧ (standbyEmpties s).evbuf = s.evbuf) ∧ (standbyEmpties s).klk = none ∧ (standbyEmpties s).pkeys = [] ∧ (standbyEmpties s).ikeys = []
    ∧ (standbyEmpties s).spdm = [] ∧ (standbyEmpties s).regs = s.regs := ⟨⟨rfl, rfl, rfl, rfl, rfl⟩, rfl, rfl, rfl, rfl, rfl⟩

/-! The fields. -/

/-- What is written after the fields are lost. -/
def standbyAfter : List Fld := portFlds ++ ([.TWR_STAT_STATE, .CH_STAT_STATE, .X_PCI_EFF, .DEV_STATE_STATE, .X_ALERT, .HK_STAT_AONMODE, .DEV_CMD_RESULT, .X_INJ_LEFT,
  .FLT_INJ_BUSY, .FM_CTL_BUSY, .X_CLKR, .CLK_GPEND_GATE_PEND, .X_CORE] : List Fld)

theorem towerSleeps_k {s₀ : State} {l : List Fld} (t : Nat) (hl : ([.CH_STAT_STATE, .TWR_STAT_STATE] : List Fld) ⊆ l) (hk : KeepsR s₀ s.regs l) :
    KeepsR s₀ (towerSleeps s t).regs l := each_k (wr_k (hl (by simp)) hk) fun _ _ h => wr_k (hl (by simp)) h

theorem standbyPorts_k {s₀ : State} {l : List Fld} (hl : .X_PCI_EFF :: portFlds ⊆ l) (hk : KeepsR s₀ s.regs l) : KeepsR s₀ (standbyPorts s).regs l := by
  have hport : ([.CAL_SLC_ROLE, .QUAL_BER_STALE, .TX_FIRACT_ACT, .XCVR_STAT_RXTERM, .XCVR_STAT_SSCACT, .XCVR_STAT_TXCLK, .XCVR_STAT_TXIDLE, .X_QW_CUT, .X_SSC_EFF] : List Fld)
    ⊆ .X_PCI_EFF :: portFlds := by decide
  have hpci : Fld.X_PCI_EFF ∈ l := hl List.mem_cons_self
  exact each_k (each_k hk fun u L h => wr_k hpci h) fun u r h => refreshPort_k (fun _ hf => hl (hport hf)) h

theorem standbyDone_k {s₀ : State} {l : List Fld} (hl : ([.DEV_STATE_STATE, .X_ALERT] : List Fld) ⊆ l) (hmode : .HK_STAT_AONMODE ∈ l) (hres : .DEV_CMD_RESULT ∈ l)
    (hk : KeepsR s₀ s.regs l) : KeepsR s₀ (standbyDone s).regs l := wr_k hres (set_k hmode (setDev_k hl hk))

theorem standbyDone_spec (s : State) : (standbyDone s).dev = devSTANDBY ∧ (standbyDone s).rd .DEV_CMD_RESULT 0 = 0 := by
  refine ⟨?_, State.rd_wr_same _ _ _ _⟩
  rw [standbyDone, State.dev, State.rd_wr_ne _ _ (by decide), State.set_def, State.rd_wr_ne _ _ (by decide)]
  exact State.dev_setDev _ _ (by decide)

theorem standbyEnds_k {s₀ : State} {l : List Fld} (hl : ([.X_INJ_LEFT, .FLT_INJ_BUSY, .FM_CTL_BUSY, .X_CLKR, .CLK_GPEND_GATE_PEND, .X_CORE] : List Fld) ⊆ l)
    (hk : KeepsR s₀ s.regs l) : KeepsR s₀ (standbyEnds s).regs l :=
  clr_k (hl (by simp)) (clr_k (hl (by simp)) (clr_k (hl (by simp)) (clr_k (hl (by simp)) (clr_k (hl (by simp)) (clr_k (hl (by simp))
    (each_k hk fun _ _ h => endCause_k h))))))

theorem standbyEmpties_k {s₀ : State} {l : List Fld} (hk : KeepsR s₀ s.regs l) : KeepsR s₀ (standbyEmpties s).regs l := by
  rw [(standbyEmpties_spec s).2.2.2.2.2]
  exact hk

theorem rd_standbyEnter {f : Fld} (s : State) (i : Nat) (hf : f ∉ standbyAfter) : (standbyEnter s).rd f i = (standbyDown s).rd f i := by
  have htowers : ([.CH_STAT_STATE, .TWR_STAT_STATE] : List Fld) ⊆ standbyAfter := by decide
  rw [standbyEnter_eq]
  refine standbyDone_k (by decide) (by decide) (by decide) (standbyPorts_k (by decide) (each_k ?_ fun u t h => towerSleeps_k t htowers h)) f i hf
  exact standbyEmpties_k (standbyEnds_k (by decide) (keepsR_refl _ standbyAfter))

theorem rd_standbyDown {f : Fld} (s : State) (i : Nat) :
    (standbyDown s).rd f i = if standbyLost f = true then State.reset.rd f i else (coreStop (domsOff (loadAbort s) (List.range 56))).rd f i :=
  (coreStop (domsOff (loadAbort s) (List.range 56))).rd_drop (fun k => standbyLost k.1) f i

/-- What is written before. -/
def standbyBefore : List Fld := coreStopFlds ++ ([.PWR_STAT_ON, .DEV_STATE_STATE, .FW_MBX_STAT_BUSY, .FW_MBX_TOTAL_TOTAL, .X_ALERT, .X_FW_CHK, .X_FW_WR] : List Fld)

theorem rd_standbyStop {f : Fld} (s : State) (i : Nat) (hf : f ∉ standbyBefore) : (coreStop (domsOff (loadAbort s) (List.range 56))).rd f i = s.rd f i := by
  have hcore : coreStopFlds ⊆ standbyBefore := by decide
  have hrest : ([.PWR_STAT_ON, .DEV_STATE_STATE, .FW_MBX_STAT_BUSY, .FW_MBX_TOTAL_TOTAL, .X_ALERT, .X_FW_CHK, .X_FW_WR] : List Fld) ⊆ standbyBefore := by decide
  rw [rd_coreStop_ne _ _ fun h => hf (hcore h)]
  exact domsOff_k (by decide) (loadAbort_k (by decide) (keepsR_refl s _)) f i fun h => hf (hrest h)

/-! The towers. -/

theorem rd_towerSleeps (s : State) (u t : Nat) : (towerSleeps s u).rd .TWR_STAT_STATE t = if t = u then 2 else s.rd .TWR_STAT_STATE t := by
  have hchans : (towerSleeps s u).rd .TWR_STAT_STATE t = (s.wr .TWR_STAT_STATE u 2).rd .TWR_STAT_STATE t :=
    each_k (fl := [.CH_STAT_STATE]) (keepsR_refl _ _) (fun _ _ h => wr_k (by decide) h) .TWR_STAT_STATE t (by decide)
  rw [hchans]
  split
  · next h =>
    subst h
    exact s.rd_wr_same _ _ _
  · next h => exact s.rd_wr_ne 2 fun he => h he.2

theorem rd_towersSleep (s : State) {t : Nat} (ht : t < 2) : (s.each [0, 1] towerSleeps).rd .TWR_STAT_STATE t = 2 := by
  rw [State.each, List.foldl_cons, List.foldl_cons, List.foldl_nil, rd_towerSleeps, rd_towerSleeps]
  obtain rfl | rfl : t = 0 ∨ t = 1 := by omega
  · simp
  · simp

theorem rd_standbyDone_tower (s : State) (t : Nat) : (standbyDone (standbyPorts s)).rd .TWR_STAT_STATE t = s.rd .TWR_STAT_STATE t :=
  standbyDone_k (l := .X_PCI_EFF :: portFlds ++ ([.DEV_STATE_STATE, .X_ALERT, .HK_STAT_AONMODE, .DEV_CMD_RESULT] : List Fld)) (by decide) (by decide) (by decide) (standbyPorts_k (by decide) (keepsR_refl _ _)) .TWR_STAT_STATE t (by decide)

/-! The entry as a whole. -/

/-- Fields that change on the way, besides those that are lost. -/
def standbyMoved : List Fld := shownFlds ++ portFlds ++ ([.FLT_INJ_BUSY, .FM_CTL_BUSY, .FW_MBX_STAT_BUSY, .FW_MBX_TOTAL_TOTAL, .HK_STAT_AONMODE, .MB_STAT_NOFW, .TW_MBSTAT_NOFW,
  .X_CLKR, .X_CORE, .X_FWUP, .X_FW_CHK, .X_FW_WR, .X_INJ_LEFT, .X_PCI_EFF, .X_SPDM, .X_MCTP_N] : List Fld)

theorem standbyLost_iff (f : Fld) : standbyLost f = true ↔ f.standbyLoses = true ∨ f ∈ ([.MB_STAT_PEND, .MB_STAT_RSP, .MB_STAT_ERR, .TW_MBSTAT_PEND, .TW_MBSTAT_RSP, .TW_MBSTAT_ERR,
    .REP_STAT_NVMPEND, .STRM_CFG_PEND] : List Fld) ∨ f.blk = .timebase ∨ f.blk = .vine := by
  simp [standbyLost, or_assoc]

theorem standbyEnter_does : ∃ u, Host.Outcome.next (standbyEnter s.start) = (.next u : Host.Outcome State Fault Refusal) ∧ u.dev = devSTANDBY ∧ u.rd .DEV_CMD_RESULT 0 = 0
    ∧ (u.imem = s.imem ∧ u.dmem = s.dmem ∧ u.tower = s.tower ∧ u.nvm = s.nvm) ∧ u.evbuf = s.evbuf ∧ u.klk = none ∧ u.pkeys = [] ∧ u.ikeys = [] ∧ u.spdm = []
    ∧ u.on .X_FWUP 0 = false ∧ (∀ d < 56, u.bit .PWR_STAT_ON 0 d = false) ∧ (∀ t < 2, u.rd .TWR_STAT_STATE t = 2)
    ∧ (∀ f i, standbyLost f = true → f ∉ standbyMoved → u.rd f i = State.reset.rd f i) ∧ ∀ f i, ¬standbyLost f = true → f ∉ standbyMoved → u.rd f i = s.rd f i := by
  have hafter : standbyAfter ⊆ standbyMoved := by decide
  have hbefore : standbyBefore ⊆ standbyMoved := by decide
  obtain ⟨⟨hi, hd, ht, hn, he⟩, hklk, hpk, hik, hsp, -⟩ := standbyEmpties_spec (standbyEnds (standbyDown s.start))
  obtain ⟨hi₁, hd₁, ht₁, hn₁, he₁, -⟩ := vault_iff.mp (standbyEnds_vault (standbyDown s.start))
  obtain ⟨hi', hd', ht', hn', he'⟩ := standbyDown_stores s.start
  let v := (standbyEmpties (standbyEnds (standbyDown s.start))).each [0, 1] towerSleeps
  have heq : standbyEnter s.start = standbyDone (standbyPorts v) := standbyEnter_eq s.start
  have hv : v.vault = (standbyEmpties (standbyEnds (standbyDown s.start))).vault := State.each_vault _ _ _ towerSleeps_vault
  obtain ⟨gi, gd, gt, gn, ge, gk, gp, gik, gs⟩ := vault_iff.mp ((standbyDone_vault _).trans ((standbyPorts_vault v).trans hv))
  obtain ⟨hdev, hres⟩ := standbyDone_spec (standbyPorts v)
  rw [← heq] at gi gd gt gn ge gk gp gik gs hdev hres
  refine ⟨_, rfl, hdev, hres, ⟨gi.trans (hi.trans (hi₁.trans hi')), gd.trans (hd.trans (hd₁.trans hd')), gt.trans (ht.trans (ht₁.trans ht')), gn.trans (hn.trans (hn₁.trans hn'))⟩, ge.trans (he.trans (he₁.trans he')), gk.trans hklk,
    gp.trans hpk, gik.trans hik, gs.trans hsp, ?_, fun d hd => ?_, fun t ht => ?_, fun f i hlost hf => ?_, fun f i hlost hf => ?_⟩
  · rw [State.on, rd_standbyEnter _ _ (by decide), rd_standbyDown, if_pos (by decide)]
    decide
  · rw [State.bit, rd_standbyEnter _ _ (by decide), rd_standbyDown, if_neg (by decide), rd_coreStop_ne _ _ (by decide)]
    exact (bit_domsOff _ _ hd).trans (if_pos (List.mem_range.mpr hd))
  · rw [heq, rd_standbyDone_tower]
    exact rd_towersSleep _ ht
  · rw [rd_standbyEnter _ _ fun h => hf (hafter h), rd_standbyDown, if_pos hlost]
  · rw [rd_standbyEnter _ _ fun h => hf (hafter h), rd_standbyDown, if_neg hlost]
    exact rd_standbyStop s.start i fun h => hf (hbefore h)

end Sys2Proof.Machine
end

section
/-! A wake from STANDBY (R28, R477, R527, R640), and what a hash that differs brings. -/
namespace Sys2Proof.Machine
variable {s : State}

/-! What comes back with the domains. -/

/-- The always-on mode ends, and the Rind's self-tests run. -/
def aonLeft (s : State) : State := (s.clr .HK_STAT_AONMODE 0).set .RND_STAT_BUSY 0

/-- The spares of every channel are counted. -/
def sparesCounted (s : State) : State := s.each [0, 1] fun s t => s.each (List.range 16) fun s c => spareRecount s t c

/-- A grove of the profile starts again. -/
def profileStart (s : State) (g : Nat) : State := if s.bit .F5_CTL_EN 0 g then f5Start s g else s

theorem standbyLeave_eq (s : State) : standbyLeave s = (sparesCounted (calRestoreAll (aonLeft s))).each (List.range 16) profileStart := by
  unfold standbyLeave sparesCounted aonLeft profileStart
  rfl

theorem sparesCounted_kept (s : State) : (sparesCounted s).kept = s.kept := s.each_kept _ _ fun s t => s.each_kept _ _ fun s c => spareRecount_kept s t c

theorem f5Start_kept (s : State) (g : Nat) : (f5Start s g).kept = s.kept := (State.each_kept _ _ _ fun u _ => u.wr_kept _ _ _).trans (s.wrBit_kept _ _ _ _)

theorem standbyLeave_kept (s : State) : (standbyLeave s).kept = s.kept := by
  rw [standbyLeave_eq]
  refine (State.each_kept _ _ _ fun u g => ite_kept (f5Start_kept u g) rfl).trans ((sparesCounted_kept _).trans ((calRestoreAll_kept _).trans ?_))
  exact (State.set_kept _ _ _).trans (s.clr_kept _ _)

theorem profileStart_k {s₀ : State} {l : List Fld} (g : Nat) (hl : ([.F5_STAT_ACT, .SEQ_TSTAT_STATE] : List Fld) ⊆ l) (hk : KeepsR s₀ s.regs l) :
    KeepsR s₀ (profileStart s g).regs l := by
  unfold profileStart
  split
  · exact f5Start_k hl hk
  · exact hk

/-- What is restored after the always-on mode ends. -/
def restoreFlds : List Fld := msgFlds ++ trimFlds ++ ([.REP_SPARE_HARD, .REP_SPARE_ROWS, .REP_SPARE_TSV, .F5_STAT_ACT, .SEQ_TSTAT_STATE] : List Fld)

theorem rd_standbyLeave {f : Fld} (s : State) (i : Nat) (hf : f ∉ restoreFlds) : (standbyLeave s).rd f i = (aonLeft s).rd f i := by
  have hgrove : ([.F5_STAT_ACT, .SEQ_TSTAT_STATE] : List Fld) ⊆ restoreFlds := by decide
  have hspare : ([.REP_SPARE_HARD, .REP_SPARE_ROWS, .REP_SPARE_TSV] : List Fld) ⊆ restoreFlds := by decide
  rw [standbyLeave_eq]
  refine each_k (each_k (calRestoreAll_k (by decide) (keepsR_refl _ _)) fun u t h => each_k h fun v c h' => ?_) (fun u g h => profileStart_k g hgrove h) f i hf
  exact spareRecount_k hspare h'

/-! The threads of the profile's groves. -/

theorem rd_f5Start (s : State) (g k : Nat) : (f5Start s g).rd .SEQ_TSTAT_STATE k = if 4 * g ≤ k ∧ k < 4 * g + 4 then tRUNNING else s.rd .SEQ_TSTAT_STATE k := by
  have hact : (s.wrBit .F5_STAT_ACT 0 g true).rd .SEQ_TSTAT_STATE k = s.rd .SEQ_TSTAT_STATE k := s.rd_wr_ne _ (by simp)
  have hrun : tRUNNING % 2 ^ Fld.SEQ_TSTAT_STATE.width = tRUNNING := by decide
  have hrange : List.range 4 = [0, 1, 2, 3] := rfl
  rw [f5Start, State.each, hrange]
  simp only [List.foldl_cons, List.foldl_nil, State.rd_wr, hact, hrun, true_and]
  split_ifs <;> omega

theorem rd_profileStart_of_running (s : State) (g : Nat) {k : Nat} (h : s.rd .SEQ_TSTAT_STATE k = tRUNNING) : (profileStart s g).rd .SEQ_TSTAT_STATE k = tRUNNING := by
  unfold profileStart
  split
  · rw [rd_f5Start, h, ite_self]
  · exact h

theorem rd_profileStart_of_en {g t : Nat} (h : s.bit .F5_CTL_EN 0 g = true) (ht : t < 4) : (profileStart s g).rd .SEQ_TSTAT_STATE (4 * g + t) = tRUNNING := by
  rw [profileStart, if_pos h, rd_f5Start, if_pos ⟨by omega, by omega⟩]

theorem rd_profileStarts (l : List Nat) {s : State} {g t : Nat} (hen : s.bit .F5_CTL_EN 0 g = true) (ht : t < 4)
    (h : g ∈ l ∨ s.rd .SEQ_TSTAT_STATE (4 * g + t) = tRUNNING) : (s.each l profileStart).rd .SEQ_TSTAT_STATE (4 * g + t) = tRUNNING := by
  induction l generalizing s with
  | nil =>
    obtain h | h := h
    · exact absurd h List.not_mem_nil
    · exact h
  | cons u l ih =>
    have hen' : (profileStart s u).bit .F5_CTL_EN 0 g = true := by
      have hsame : (profileStart s u).rd .F5_CTL_EN 0 = s.rd .F5_CTL_EN 0 := profileStart_k u (List.Subset.refl _) (keepsR_refl s _) .F5_CTL_EN 0 (by decide)
      rw [State.bit, hsame]
      exact hen
    rw [State.each, List.foldl_cons, ← State.each]
    refine ih hen' ?_
    obtain h | h := h
    · obtain rfl | h := List.mem_cons.mp h
      · exact .inr (rd_profileStart_of_en hen ht)
      · exact .inl h
    · exact .inr (rd_profileStart_of_running s u h)

theorem standbyLeave_runs {g t : Nat} (hg : g < 16) (hen : s.bit .F5_CTL_EN 0 g = true) (ht : t < 4) : (standbyLeave s).rd .SEQ_TSTAT_STATE (4 * g + t) = tRUNNING := by
  have hspare : ([.REP_SPARE_HARD, .REP_SPARE_ROWS, .REP_SPARE_TSV] : List Fld) ⊆ restoreFlds := by decide
  have hmid : (sparesCounted (calRestoreAll (aonLeft s))).rd .F5_CTL_EN 0 = (aonLeft s).rd .F5_CTL_EN 0 :=
    each_k (calRestoreAll_k (by decide) (keepsR_refl (aonLeft s) restoreFlds)) (fun u t h => each_k h fun v c h' => spareRecount_k hspare h') .F5_CTL_EN 0 (by decide)
  have haon : (aonLeft s).rd .F5_CTL_EN 0 = s.rd .F5_CTL_EN 0 := (State.rd_wr_ne _ 1 (by decide)).trans (s.rd_wr_ne 0 (by decide))
  rw [standbyLeave_eq]
  refine rd_profileStarts (List.range 16) ?_ ht (.inl (List.mem_range.mpr hg))
  rw [State.bit, hmid, haon]
  exact hen

/-! The wake. -/

/-- The domains that are on after STANDBY. -/
def wakeDoms (s : State) : State := domsOn s ((List.range 56).filter fun d => !idleOff.contains d)

/-- The device is back in IDLE, before the core starts. -/
def wakeUp (s : State) : State := (standbyLeave (wakeDoms s)).setDev devIDLE

theorem wake_eq (s : State) (hashOk : Bool) : wake s hashOk = if (wakeUp s).running.isSome then coreHashed (wakeUp s) hashOk else wakeUp s := rfl

theorem exec_standbyWake {hashOk : Bool} (hlive : s.dead = false) :
    exec (.standbyWake hashOk) s = .next (if s.dev = devSTANDBY then wake s.start hashOk else s.start) := by
  change execStandbyWake hashOk s = _
  unfold execStandbyWake
  rw [live_of _ _ hlive]
  rfl

theorem wakeUp_pends (s : State) : s.pends (wakeUp s) :=
  pends_trans (pends_of_mems (mems_of_kept ((standbyLeave_kept _).trans (domsOn_kept s _)))) (setDev_pends _ _)

theorem rd_wakeUp {f : Fld} (s : State) (i : Nat) (hf : f ∉ restoreFlds ++ ([.DEV_STATE_STATE, .X_ALERT, .PWR_STAT_ON] : List Fld)) :
    (wakeUp s).rd f i = (aonLeft s).rd f i := by
  simp only [List.mem_append, List.mem_cons, List.not_mem_nil, or_false, not_or] at hf
  obtain ⟨hrest, hdev, halert, hpwr⟩ := hf
  have hdoms : (wakeDoms s).rd f i = s.rd f i := domsOn_k (List.Subset.refl _) (keepsR_refl s _) f i (by simpa using hpwr)
  rw [wakeUp, State.rd_setDev _ _ _ _ hdev halert, rd_standbyLeave _ _ hrest]
  simp only [aonLeft, State.set_def, State.clr_def, State.rd_wr, hdoms]

theorem setDev_banks (s : State) (st : Nat) : (s.setDev st).bankA = s.bankA ∧ (s.setDev st).bankB = s.bankB := by
  unfold State.setDev
  split
  · exact ⟨rfl, rfl⟩
  · simp

theorem wakeUp_running (s : State) : (wakeUp s).running = s.running := by
  obtain ⟨hA, hB⟩ := setDev_banks (standbyLeave (wakeDoms s)) devIDLE
  obtain ⟨-, -, -, -, -, hA', hB', -⟩ := rest_iff.mp (Prod.ext_iff.mp ((standbyLeave_kept (wakeDoms s)).trans (domsOn_kept s _))).1
  have hbank : (wakeUp s).rd .DEV_STATE_BANK 0 = s.rd .DEV_STATE_BANK 0 :=
    (rd_wakeUp s 0 (by decide)).trans ((State.rd_wr_ne _ 1 (by decide)).trans (s.rd_wr_ne 0 (by decide)))
  rw [State.running, State.running, State.on, State.on, hbank, show (wakeUp s).bankA = s.bankA from hA.trans hA', show (wakeUp s).bankB = s.bankB from hB.trans hB']

theorem wakeUp_spec (s : State) : (wakeUp s).dev = devIDLE ∧ (wakeUp s).on .RND_STAT_BUSY 0 = true ∧ (wakeUp s).on .HK_STAT_AONMODE 0 = false
    ∧ (∀ d < 56, d ∉ idleOff → (wakeUp s).bit .PWR_STAT_ON 0 d = !s.bit .PWR_OFF_OFF 0 d)
    ∧ ∀ g < 16, s.bit .F5_CTL_EN 0 g = true → ∀ t < 4, (wakeUp s).rd .SEQ_TSTAT_STATE (4 * g + t) = tRUNNING := by
  refine ⟨State.dev_setDev _ _ (by decide), ?_, ?_, fun d hd hoff => ?_, fun g hg hen t ht => ?_⟩
  · rw [State.on, rd_wakeUp _ _ (by decide)]
    exact set_on _ (f := .RND_STAT_BUSY) 0 (by decide)
  · rw [State.on, rd_wakeUp _ _ (by decide), aonLeft, State.set_def, State.rd_wr_ne _ _ (by decide)]
    exact bne_eq_false_iff_eq.mpr (s.rd_wr_same .HK_STAT_AONMODE 0 0)
  · have haon : (aonLeft (wakeDoms s)).rd .PWR_STAT_ON 0 = (wakeDoms s).rd .PWR_STAT_ON 0 := (State.rd_wr_ne _ 1 (by decide)).trans (State.rd_wr_ne _ 0 (by decide))
    rw [State.bit, wakeUp, State.rd_setDev _ _ _ _ (by decide) (by decide), rd_standbyLeave _ _ (by decide), haon]
    exact (bit_domsOn s _ hd).trans (if_pos (List.mem_filter.mpr ⟨List.mem_range.mpr hd, by simpa using hoff⟩))
  · have hen' : (wakeDoms s).bit .F5_CTL_EN 0 g = true := by
      have hsame : (wakeDoms s).rd .F5_CTL_EN 0 = s.rd .F5_CTL_EN 0 := domsOn_k (List.Subset.refl _) (keepsR_refl s _) .F5_CTL_EN 0 (by decide)
      rw [State.bit, hsame]
      exact hen
    rw [wakeUp, State.rd_setDev _ _ _ _ (by simp) (by simp)]
    exact standbyLeave_runs hg hen' ht

/-- Fields of a wake. -/
def wakeFlds : List Fld := msgFlds ++ trimFlds ++ ([.REP_SPARE_HARD, .REP_SPARE_ROWS, .REP_SPARE_TSV] : List Fld)
  ++ ([.DEV_STATE_STATE, .X_ALERT, .HK_STAT_AONMODE, .RND_STAT_BUSY, .F5_STAT_ACT, .SEQ_TSTAT_STATE, .PWR_STAT_ON, .X_CORE] : List Fld)

theorem wakeUp_k (s : State) : KeepsR s (wakeUp s).regs wakeFlds := setDev_k (by decide) (standbyLeave_k (by decide) (domsOn_k (by decide) (keepsR_refl s _)))

/-- The retained bank's hash agrees, or no bank is retained. -/
theorem wake_does {hashOk : Bool} (h : hashOk = true ∨ s.running = none) : DoesPend s (.next (wake s.start hashOk)) wakeFlds fun u =>
    u.dev = devIDLE ∧ u.on .RND_STAT_BUSY 0 = true ∧ u.on .HK_STAT_AONMODE 0 = false ∧ (s.running ≠ none → u.rd .X_CORE 0 = 2)
      ∧ (∀ d < 56, d ∉ idleOff → u.bit .PWR_STAT_ON 0 d = !s.bit .PWR_OFF_OFF 0 d)
      ∧ ∀ g < 16, s.bit .F5_CTL_EN 0 g = true → ∀ t < 4, u.rd .SEQ_TSTAT_STATE (4 * g + t) = tRUNNING := by
  obtain ⟨hdev, hbusy, hmode, hdoms, hruns⟩ := wakeUp_spec s.start
  have hrun : (wakeUp s.start).running = s.running := wakeUp_running s.start
  have hpends : s.pends (wakeUp s.start) := wakeUp_pends s.start
  have hkeeps : KeepsR s (wakeUp s.start).regs wakeFlds := wakeUp_k s.start
  rw [wake_eq, hrun]
  cases hnone : s.running with
  | none => exact doesPend_of ⟨hdev, hbusy, hmode, fun h => absurd rfl h, hdoms, hruns⟩ hkeeps hpends
  | some i =>
    obtain rfl : hashOk = true := by simpa [hnone] using h
    have hcore : coreHashed (wakeUp s.start) true = (wakeUp s.start).wr .X_CORE 0 2 := if_pos rfl
    have hrd : ∀ {f}, f ≠ .X_CORE → ∀ i, ((wakeUp s.start).wr .X_CORE 0 2).rd f i = (wakeUp s.start).rd f i := fun hf i => State.rd_wr_ne _ 2 fun he => hf he.1
    rw [if_pos (show (some i).isSome = true from rfl), hcore]
    refine doesPend_of ⟨(hrd (by decide) 0).trans hdev, ?_, ?_, fun _ => State.rd_wr_same _ _ _ _, fun d hd hoff => ?_, fun g hg hen t ht => ?_⟩ (wr_k (by decide) hkeeps)
      (pends_trans hpends (pends_of_mems (State.wr_mems _ _ _ _)))
    · rw [State.on, hrd (by decide)]
      exact hbusy
    · rw [State.on, hrd (by decide)]
      exact hmode
    · rw [State.bit, hrd (by decide)]
      exact hdoms d hd hoff
    · rw [hrd (by decide)]
      exact hruns g hg hen t ht

/-! A hash that differs: the Rind's reaction (R477, R552). -/

/-- What the towers that ride a reset may write as they settle. -/
def settleFlds : List Fld := [.CH_STAT_STATE, .ECC_CECNT_COUNT, .ECC_LOGSTAT_COUNT, .ECC_LOGSTAT_LOST, .ECC_LOGSTAT_OVF, .ECC_UECNT_COUNT, .ERR_LOG_ADDR, .ERR_LOG_DLY,
  .ERR_LOG_EPOCH, .ERR_LOG_KIND, .ERR_LOG_PUN, .ERR_LOG_SRC, .ERR_LOG_SYN, .ERR_LOG_VALID, .FLT_DROP_COUNT, .FLT_STAT_STAT, .REP_CMD_RESULT, .REP_SPARE_HARD, .REP_SPARE_ROWS,
  .REP_SPARE_TSV, .REP_STAT_NVMPEND, .TWR_STAT_STATE, .X_CE_RAISED, .X_CHRST_WAIT, .X_FQ_RUN, .X_LOG_ORD, .X_LOG_SEQ, .X_REP_CMD, .X_REP_OP, .PUN_TAIL_OFS, .RND_STAT_ASC]

theorem rd_ridesSettled {f : Fld} (s : State) (i : Nat) (hf : f ∉ settleFlds) : (ridesSettled s).rd f i = s.rd f i :=
  foldl_k (fl := settleFlds) (advCut_k (by decide) (keepsR_refl s _)) (fun _ _ h => preserveFlush_k (by decide) (softRepairEnd_k (by decide) h)) f i hf

theorem chipLike_dev (s : State) (last : Nat) : (chipLike s last).dev = devROM := by
  have hshown : ∀ u : State, ((([0, 1].filter (advCut s).preserved).foldl rideShow u).wr .RST_STAT_LAST 0 last |> twPrimary).dev = u.dev := fun u =>
    twPrimary_k (fl := [.CH_STAT_STATE, .DEV_STATE_PRESERVED0, .DEV_STATE_PRESERVED1, .TWR_STAT_STATE, .TW_ADDR_PRIMARY, .RST_STAT_LAST]) (by decide)
      (wr_k (by decide) (foldl_k (keepsR_refl u _) fun _ _ h => rideShow_k (by decide) h)) .DEV_STATE_STATE 0 (by decide)
  refine (hshown _).trans ?_
  exact ((ridesSettled s).rd_bare (fun f => f.keeps svPIN || f == .CLK_STAT_AONRDY) .DEV_STATE_STATE 0).trans (if_neg (by decide))

/-- The cause of a reset by a checker, as chipReaction writes it. -/
def causeShown (s : State) (src kind : Nat) (esc : Bool) : State :=
  let s := (s.wr .FLT_RSTCAUSE_SOURCE 0 src).wr .FLT_RSTCAUSE_KIND 0 kind
  (s.set .FLT_RSTCAUSE_VALID 0).wrB .FLT_RSTCAUSE_ESC 0 esc

theorem causeShown_spec (s : State) {src : Nat} (kind : Nat) (esc : Bool) (hsrc : src < 2 ^ 11) :
    (causeShown s src kind esc).rd .FLT_RSTCAUSE_SOURCE 0 = src ∧ (causeShown s src kind esc).rd .FLT_RSTCAUSE_VALID 0 = 1 := by
  constructor
  · rw [causeShown, State.wrB_def, State.rd_wr_ne _ _ (by decide), State.set_def, State.rd_wr_ne _ _ (by decide), State.rd_wr_ne _ _ (by decide), State.rd_wr_same]
    exact Nat.mod_eq_of_lt hsrc
  · rw [causeShown, State.wrB_def, State.rd_wr_ne _ _ (by decide), State.set_def, State.rd_wr_same]
    rfl

theorem chipReaction_of (h : s.dev ≠ devHOLD) (src kind : Nat) (esc : Bool) : chipReaction s src kind esc false =
    if (causeShown s src kind esc).on .DEV_CTL_HOLD_ON_CHIP 0 then enterHold (causeShown s src kind esc) else chipLike (causeShown s src kind esc) 2 := by
  simp only [chipReaction, Bool.false_eq_true, if_false, if_neg h]
  rfl

/-- The reaction ends in HOLD or in ROM, and its cause survives it. -/
theorem chipReaction_spec (h : s.dev ≠ devHOLD) {src : Nat} (kind : Nat) (esc : Bool) (hsrc : src < 2 ^ 11) :
    (chipReaction s src kind esc false).dev = (if s.rd .DEV_CTL_HOLD_ON_CHIP 0 ≠ 0 then devHOLD else devROM)
      ∧ (chipReaction s src kind esc false).rd .FLT_RSTCAUSE_SOURCE 0 = src ∧ (chipReaction s src kind esc false).rd .FLT_RSTCAUSE_VALID 0 = 1 := by
  let c := causeShown s src kind esc
  obtain ⟨hsource, hvalid⟩ := causeShown_spec s kind esc hsrc
  have hhold : c.rd .DEV_CTL_HOLD_ON_CHIP 0 = s.rd .DEV_CTL_HOLD_ON_CHIP 0 :=
    wrB_k (fl := [.FLT_RSTCAUSE_SOURCE, .FLT_RSTCAUSE_KIND, .FLT_RSTCAUSE_VALID, .FLT_RSTCAUSE_ESC]) (by decide)
      (set_k (by decide) (wr_k (by decide) (wr_k (by decide) (keepsR_refl s _)))) .DEV_CTL_HOLD_ON_CHIP 0 (by decide)
  rw [chipReaction_of h, State.on, hhold]
  by_cases hon : s.rd .DEV_CTL_HOLD_ON_CHIP 0 ≠ 0
  · rw [if_pos (by simpa using hon), if_pos hon]
    refine ⟨enterHold_dev c, ?_, ?_⟩
    · exact (enterHold_k (List.Subset.refl _) (keepsR_refl c _) .FLT_RSTCAUSE_SOURCE 0 (by decide)).trans hsource
    · exact (enterHold_k (List.Subset.refl _) (keepsR_refl c _) .FLT_RSTCAUSE_VALID 0 (by decide)).trans hvalid
  · rw [if_neg (by simpa using hon), if_neg hon]
    refine ⟨chipLike_dev c 2, ?_, ?_⟩
    · rw [rd_chipLike_of_keeps _ _ (by decide) (by decide), rd_ridesSettled _ _ (by decide), hsource]
    · rw [rd_chipLike_of_keeps _ _ (by decide) (by decide), rd_ridesSettled _ _ (by decide), hvalid]

/-- The message of a hash that differs, before the reaction. -/
def hashFound (s : State) : State := (s.freshNat.2.wr .X_CORE 0 0).raise 1072 msgCHECK (s.freshNat.1 % 2 ^ 46)

theorem coreHashed_bad (s : State) : coreHashed s false = chipReaction (hashFound s) 1072 msgCHECK false false := rfl

theorem rd_hashFound {f : Fld} (s : State) (i : Nat) (hf : f ∉ ([.X_CORE, .FLT_STAT_STAT, .FLT_DROP_COUNT, .X_FQ_RUN] : List Fld)) : (hashFound s).rd f i = s.rd f i := by
  simp only [List.mem_cons, List.not_mem_nil, or_false, not_or] at hf
  obtain ⟨hcore, hstat, hdrop, hrun⟩ := hf
  rw [hashFound, State.rd_raise _ _ _ _ _ _ hstat hdrop hrun]
  exact State.rd_wr_ne s.freshNat.2 0 fun h => hcore h.1

/-- The retained bank's hash differs. -/
theorem wakeBad_does (h : s.running ≠ none) : ∃ u, Host.Outcome.next (wake s.start false) = (.next u : Host.Outcome State Fault Refusal)
    ∧ u.dev = (if s.rd .DEV_CTL_HOLD_ON_CHIP 0 ≠ 0 then devHOLD else devROM) ∧ u.rd .FLT_RSTCAUSE_SOURCE 0 = 1072 ∧ u.rd .FLT_RSTCAUSE_VALID 0 = 1 := by
  let f := hashFound (wakeUp s.start)
  have hrun : (wakeUp s.start).running.isSome = true := by
    rw [wakeUp_running]
    exact Option.isSome_iff_ne_none.mpr h
  have hdev : f.dev = devIDLE := (rd_hashFound _ _ (by decide)).trans (wakeUp_spec s.start).1
  have haon : (aonLeft s.start).rd .DEV_CTL_HOLD_ON_CHIP 0 = s.rd .DEV_CTL_HOLD_ON_CHIP 0 := (State.rd_wr_ne _ 1 (by decide)).trans (s.start.rd_wr_ne 0 (by decide))
  have hhold : f.rd .DEV_CTL_HOLD_ON_CHIP 0 = s.rd .DEV_CTL_HOLD_ON_CHIP 0 := (rd_hashFound _ _ (by decide)).trans ((rd_wakeUp _ _ (by decide)).trans haon)
  obtain ⟨hend, hsource, hvalid⟩ := chipReaction_spec (s := f) (by rw [hdev]; decide) msgCHECK false (src := 1072) (by decide)
  rw [wake_eq, if_pos hrun, coreHashed_bad]
  exact ⟨_, rfl, hhold ▸ hend, hsource, hvalid⟩

end Sys2Proof.Machine
end

section
open Sys2Proof Sys2Proof.Machine

/-- Settles O43: INIT by the step that ends, IDLE and STANDBY by the parts of an entry and an exit, each with the fields that it writes. -/
theorem initAndLowPower : Obligations.InitAndLowPower := by
  unfold Obligations.InitAndLowPower
  intro s r tsvs words busy hashOk step_ at_ fresh none_ found spares cmd idle exit_ stby wake_ free no shown kept lost moved
  have hidle : cmd → idle = .next (devCmd s.start (s.dev == devSERVICE) fun s => idleEnter s busy.toNat) := fun h =>
    live_gate s r 0x18 (fun s => devCmd s (s.dev == devSERVICE) fun s => idleEnter s busy.toNat) h
  have hexit : cmd → exit_ = .next (devCmd s.start (s.dev == devIDLE) fun s => idleExit s busy.toNat) := fun h =>
    live_gate s r 0x18 (fun s => devCmd s (s.dev == devIDLE) fun s => idleExit s busy.toNat) h
  have hstby : cmd → stby = .next (devCmd s.start (s.dev == devIDLE) standbyEnter) := fun h =>
    live_gate s r 0x18 (fun s => devCmd s (s.dev == devIDLE) standbyEnter) h
  have hno : ∀ {x : Host.Outcome State Fault Refusal} {code : Nat}, code < 256 → x = .next (s.start.wr .DEV_CMD_RESULT 0 code) → no x code := fun hcode hx => by
    rw [hx]
    exact wr_does (t := s.start) _ rfl (memSame_refl s) (rd_result _ hcode)
  refine ⟨fun hl h => ?_, fun ⟨hl, hdev, hstep⟩ h => ?_, fun ⟨hl, hdev, hstep⟩ h => ?_, fun ⟨hl, hdev, hstep⟩ h => ?_, fun ⟨hl, hdev, hstep⟩ h => ?_, fun ⟨hl, hdev, hstep⟩ => ?_,
    fun hc h => ?_, fun hc hf => ⟨fun h => ?_, fun h => ⟨?_, ?_⟩, fun h hm => ?_⟩, fun hc hf h hm => ?_, fun hc hf h => ?_, fun hc hf h => ?_, fun hl h => ?_,
    fun hl h hok => ?_, fun hl h hok hrun => ?_⟩
  · rw [show step_ = _ from initStepDone_idle hl h]
    exact stays_does trivial
  · rw [show step_ = _ from initStepDone_one hl hdev hstep]
    exact stepOne_does h
  · rw [show step_ = _ from initStepDone_one hl hdev hstep]
    exact stepOneServes_does h
  · rw [show step_ = _ from initStepDone_two hl hdev hstep, if_neg (by rw [selfTest_start]; exact Bool.not_eq_true _ ▸ h)]
    exact stepTwo_does
  · rw [show step_ = _ from initStepDone_two hl hdev hstep, if_pos (by rw [selfTest_start]; exact h)]
    exact ⟨_, rfl, enterHold_dev _⟩
  · rw [show step_ = _ from initStepDone_three hl hdev hstep]
    exact stepThree_serves s
  · have hhot : s.start.hot ≠ .none := h
    intro y hy
    simp only [List.mem_cons, List.not_mem_nil, or_false] at hy
    obtain rfl | rfl | rfl := hy
    · rw [hidle hc, devCmd_busy hhot]
      exact stays_does rfl
    · rw [hexit hc, devCmd_busy hhot]
      exact stays_does rfl
    · rw [hstby hc, devCmd_busy hhot]
      exact stays_does rfl
  · exact hno (by decide) ((hidle hc).trans (by rw [beq_eq_false_iff_ne.mpr h, devCmd_refused (show s.start.hot = .none from hf)]))
  · exact hno (by decide) ((hexit hc).trans (by rw [beq_eq_false_iff_ne.mpr h, devCmd_refused (show s.start.hot = .none from hf)]))
  · exact hno (by decide) ((hstby hc).trans (by rw [beq_eq_false_iff_ne.mpr h, devCmd_refused (show s.start.hot = .none from hf)]))
  · refine hno (by decide) ((hidle hc).trans ?_)
    rw [beq_iff_eq.mpr h, devCmd_taken (show s.start.hot = .none from hf), idleEnter, if_pos (by rw [show s.start.mayIdle = s.mayIdle from rfl, hm]; rfl)]
  · rw [hidle hc, beq_iff_eq.mpr h, devCmd_taken (show s.start.hot = .none from hf)]
    exact idleEnter_does busy.toNat hm
  · rw [hexit hc, beq_iff_eq.mpr h, devCmd_taken (show s.start.hot = .none from hf)]
    exact idleExit_does busy.toNat
  · rw [hstby hc, beq_iff_eq.mpr h, devCmd_taken (show s.start.hot = .none from hf)]
    obtain ⟨u, hu, hdev, hres, hmem, hev, hklk, hpk, hik, hsp, hup, hpwr, htwr, hgone, hstay⟩ := standbyEnter_does (s := s)
    exact ⟨u, hu, hdev, hres, hmem, hev, hklk, hpk, hik, hsp, hup, hpwr, htwr, fun f i hlost hf => hgone f i ((standbyLost_iff f).mpr hlost) hf,
      fun f i hlost hf => hstay f i (mt (standbyLost_iff f).mp hlost) hf⟩
  · rw [show wake_ = _ from exec_standbyWake hl, if_neg h]
    exact stays_does trivial
  · rw [show wake_ = _ from exec_standbyWake hl, if_pos h]
    exact wake_does hok
  · rw [show wake_ = _ from exec_standbyWake hl, if_pos h, hok]
    exact wakeBad_does hrun

end
